-- ==== Sys2Proof/Word.lean ====
section
/-!
DEFINITION. The word types of the UHL7340 model and their plainest arithmetic.
A general register of an engine is 64 bits (R436); memory and messages are octets (R6).
-/

namespace Sys2Proof

/-- An octet (R6). -/
abbrev Octet := BitVec 8

/-- A 64-bit general register of a Barune engine (R436). -/
abbrev Word := BitVec 64

end Sys2Proof
end

