-- ==== Sys2Proof/Syntax.lean ====
section
/-!
DEFINITION. The commands of the block: one constructor of `Instr` for each row of the table of operations
and events, with the operands that the outside world supplies.

Every event that comes from outside or from a timer carries `t`, the time that has passed since the command
before it, in ticks of the time island (3.125 ns, R25). A command that an engine executes as one instruction
carries the engine's number in place of a time: instruction timing is clockless and typical only (R4, R18).
-/

namespace Sys2Proof

/-- The three radios, in the order H, M, L that every tie of the manual uses (R137, R246). -/
inductive Radio where
  | h | m | l
  deriving DecidableEq, Repr

/-- Engine numbers 0 to 11 (R15). -/
abbrev Eng := Fin 12

/-- General register numbers g0 to g31 (R436). -/
abbrev GReg := Fin 32

/-- The access ports of the dictionary (R50): UDP and mesh name the Plais peer row, CAN FD the node. -/
inductive Port where
  | console
  | can (node : Nat)
  | udp (peer : Nat)
  | mesh (peer : Nat)
  | engine (n : Eng)
  deriving DecidableEq, Repr

/-- The header fields of an IP packet that classification reads (R274, R275). `odd` marks options, a fragment
or an extension header other than a padding Hop-by-Hop; `bad` marks a malformed header. -/
structure IpInfo where
  ver : Nat := 4
  proto : Nat := 17
  sport : Nat := 0
  dport : Nat := 0
  src : Nat := 0
  dst : Nat := 0
  ttl : Nat := 64
  dscp : Nat := 0
  odd : Bool := false
  bad : Bool := false
  csum : Nat := 0
  deriving DecidableEq, Repr

/-- A PTP message on an event transport (R333): its messageType, sequenceId, correctionField and originTimestamp, and
the checksum of the UDP header that carries it, if one does. -/
structure PtpInfo where
  mtype : Nat := 0
  seqId : Nat := 0
  corr : Nat := 0
  origin : Nat := 0
  udpSum : Option Nat := none
  deriving DecidableEq, Repr

/-- A frame as the forwarding path sees it: MAC addresses, the outermost tag as (VID, PCP), the IP header if any,
and its length in octets with FCS. -/
structure Packet where
  dst : Nat := 0
  src : Nat := 0
  vlan : Option (Nat × Nat) := none
  ip : Option IpInfo := none
  ptp : Option PtpInfo := none
  len : Nat := 64
  deriving DecidableEq, Repr

/-- Who sent a received frame: a station row, a neighbour row, the peer of a cane link, or nobody in a table. -/
inductive Sender where
  | station (row : Nat)
  | neighbour (row : Nat)
  | cane (link : Nat)
  | stranger
  deriving DecidableEq, Repr

/-- The form of a PPDU (R170, R176, R191): its FORMAT; its rate (MCS, rate index or rate mode); on Radio L its branch
of R183; spatial streams; its width in kHz and, where the tuned channel is wider, its place in it from the lowest; the
guard interval in 0.1 µs, the kind of HE-LTF and the users of its largest MU-MIMO group; and the options that it uses.
-/
structure PpduForm where
  format : Nat := 5
  rate : Nat := 0
  branch : Nat := 0
  streams : Nat := 1
  width : Nat := 20000
  place : Nat := 0
  gi : Nat := 8
  ltf : Nat := 2
  mimo : Nat := 1
  dcm : Bool := false
  stbc : Bool := false
  puncture : Bool := false
  beamformed : Bool := false
  midamble : Bool := false
  greenfield : Bool := false
  split80 : Bool := false
  deriving DecidableEq, Repr

/-- A PPDU that is to be sent: its form, the predicted length on air in microseconds without ramps (in reach mode it
follows from the PSDU, R178), and for IEEE 802.15.4 the octets of its PSDU with the FCS. -/
structure Ppdu where
  form : PpduForm := {}
  air : Nat := 100
  psdu : List Octet := []
  deriving DecidableEq, Repr

/-- What a search branch has seen when it reports a sync (R183, R186, R140): the level in 0.25 dBm units, whether
preamble or STF was detected, whether the SFD correlation or the LTF timing holds, the sync word or SFD as received,
and the AGC gain step of each chain, 0 the lowest. -/
structure SyncSeen where
  power : Int
  preamble : Bool := true
  locked : Bool := true
  word : Nat := 0
  gains : List Nat := []
  age : Nat := 0
  deriving DecidableEq, Repr

/-- What a decoded header says (R171, R179, R180, R188): the PPDU's form, whether the standard's PHR or SIG checks,
the 32 header bits of reach mode, the PSDU's octets, the duration that L-SIG gives in microseconds, the FCS, whitening
and scrambler seed that a SUN PHR names, the octets that the trigger of an HE TB PPDU allots to each user (R271), and
the estimates that the LTFs give, for each stream one complex number for each subcarrier. -/
structure RxHead where
  form : PpduForm
  ok : Bool := true
  header : Nat := 0
  len : Nat := 64
  dur : Nat := 0
  fcs32 : Bool := false
  whiten : Bool := false
  seed : Nat := 511
  allots : List Nat := []
  ltf : List (List (Int × Int)) := []
  deriving DecidableEq, Repr

/-- A codeword of the LDPC decoder (R172): the iterations after which every parity check holds, if ever, and those
that fit before its deadline. -/
structure Codeword where
  needs : Option Nat
  deadline : Nat
  deriving DecidableEq, Repr

/-- The codes of the trellis decoder (R189): K = 7 at its four rates, and the two codes of SUN FSK with K = 4. -/
inductive Coding where
  | half | twoThirds | threeQuarters | fiveSixths | nrnsc | rsc
  deriving DecidableEq, Repr

/-- One OFDM symbol as received (R188): its pilots and its data, each with its subcarrier. -/
structure OfdmSymbol where
  pilots : List (Nat × Int × Int)
  data : List (Nat × Int × Int)
  deriving DecidableEq, Repr

/-- The body of a received MPDU or PSDU. `psPoll` is a PS-Poll, `trigger` a frame that opens a U-APSD service period
(R217). A cane frame has the octets of its cane header and, on the management stream, of its payload (R234, R235);
`pkt` is the frame that DATA of an ordered stream carries. -/
inductive RxBody where
  | data (pkt : Packet)
  | cane (header : List Octet) (pkt : Packet)
  | management (asn : Option Nat)
  | dataRequest
  | psPoll
  | trigger
  deriving DecidableEq, Repr

/-- The protection of a received frame: its packet number or frame counter, its Key ID or key index, on Radio L its
security level (R298), and whether its MIC checks under the current and under the retiring key (R310). -/
structure Protection where
  pn : Nat
  keyId : Nat := 0
  level : Nat := 6
  current : Bool := true
  retiring : Bool := false
  deriving DecidableEq, Repr

/-- One MPDU of a received PPDU, or the PSDU of Radio L. `seq` is the 802.11 sequence number or the 8-bit
802.15.4 field; `pm` the power-management bit; `fp` the Frame Pending bit; `report` a buffer status report in octets. -/
structure RxMpdu where
  sender : Sender
  body : RxBody
  tid : Nat := 0
  seq : Nat := 0
  len : Nat := 64
  fcsOk : Bool := true
  ackReq : Bool := true
  prot : Option Protection := none
  pm : Bool := false
  fp : Bool := false
  group : Bool := false
  report : Option Nat := none
  deriving DecidableEq, Repr

/-- What the receiver of a radio reports of a PPDU (R172, R188 to R191): level, SNR and carrier offset; whether it
came on chain M1 of split mode; the codewords of the LDPC decoder; the OFDM symbols; the code of the PSDU with the
soft values of its coded bits in the decoder's order, positive for 0 (none given: `listPath` is the path that the list
decoder chose, 0 the best); and the length on air in microseconds of an acknowledgement in the PPDU's mode. -/
structure RxInfo where
  rssi : Int := 0
  snr : Nat := 0
  cfo : Int := 0
  m1 : Bool := false
  codewords : List Codeword := []
  symbols : List OfdmSymbol := []
  coding : Coding := .half
  soft : List Int := []
  listPath : Nat := 0
  ackAir : Nat := 0
  deriving DecidableEq, Repr

/-- What a transmit command sends: a gather, a frame, a frame of a link's management stream by its number and with its
ACKREQ (R230), a control frame of a link by its type (1 ACK, 2 NACK, 3 PROBE, R238; 4 a BlockAckReq to its peer,
R249), another frame of the sequencer, a test waveform (R165), or what the edge and the sequencer send of their own:
an acknowledgement with the first number and the bits for each sender and with Frame Pending, a beacon of a BSS, an
enhanced beacon, a Data Request to the parent. -/
inductive TxWhat where
  | gather (gid : Nat)
  | frame (fid : Nat)
  | mgmt (link cseq : Nat) (ackReq : Bool)
  | caneCtl (link type : Nat)
  | control (kind : Nat)
  | testWave
  | ack (parts : List (Nat × Nat × Nat)) (pending : Bool)
  | beacon (bss : Nat)
  | enhBeacon
  | dataRequest (row : Nat)
  deriving DecidableEq, Repr

/-- How a PPDU comes to the medium (R148, R153): by contention, as an immediate response, on a trigger, in a TSCH
cell, or as a test transmission. -/
inductive TxKind where
  | contended | immediate | triggered | tsch | test
  deriving DecidableEq, Repr

/-- A transmit command of a MAC sequencer (R143, R149, R204): what it sends, its PPDU, the commanded power of each
chain in 0.25 dBm units, how it comes to the medium, whether it is an immediate acknowledgement, and whether it asks
for none. -/
structure TxCmd where
  what : TxWhat
  ppdu : Ppdu := {}
  power : Int := 80
  kind : TxKind := .contended
  isAck : Bool := false
  noAck : Bool := false
  deriving DecidableEq, Repr

/-- One record of a cane ACK (R236) and of a NACK (R237). -/
structure AckRec where
  stream : Nat
  cum : Nat
  bitmap : Nat
  deriving DecidableEq, Repr

/-- One range of a cane NACK (R237). -/
structure NackRec where
  stream : Nat
  first : Nat
  count : Nat
  deriving DecidableEq, Repr

/-- An MPDU chosen by the select stage for a gather (R251): the frame, its receiver and TID. -/
structure Pick where
  fid : Nat
  recv : Nat
  tid : Nat
  deriving DecidableEq, Repr

/-- The kind of a self-check failure (R128). -/
inductive SelfCheck where
  | radio (r : Radio)
  | ethernet (port : Fin 2)
  | flash
  deriving DecidableEq, Repr

/-- One word a DALI bus transaction can end with (R364). -/
inductive DaliEnd where
  | sent | reply (v : Nat) | silence | garbled | interleaved
  deriving DecidableEq, Repr

/-- Where an uncorrectable working-store word lies (R470). -/
inductive WsError where
  | corrected | journalLine | spilledBuffer | elsewhere
  deriving DecidableEq, Repr

/-- What a power-up finds of the MRAM (R473, R475): a word by its address, or the newer or the older slot of a Stored
object's row, that does not correct; or a read that was corrected. -/
inductive MramFault where
  | word (addr : Nat)
  | slot (idx sub row : Nat) (newer : Bool)
  | corrected
  deriving DecidableEq, Repr

/-- The operations of the debug port (R398). -/
inductive TapOp where
  | idcode | bypass
  | halt (n : Eng) | step (n : Eng)
  | inspect (n : Eng) (item : Nat)
  | readMem (addr : Nat) | writeMem (addr : Nat) (v : Octet)
  deriving DecidableEq, Repr

/-- The commands: the rows of the table of operations and events, in its order. -/
inductive Instr where
  -- supplies, resets and faults
  | vfurRise (t activeWakes : Nat) (faults : List MramFault)
  | vfurFall (t : Nat)
  | rtcCrystalStable (t : Nat)
  | rtcCrystalStop (t : Nat)
  | pwrOkRise (t : Nat)
  | pwrOkFall (t : Nat)
  | pfwNAssert (t : Nat)
  | brownout (t rail lowest dur : Nat)
  | resetNRelease (t : Nat)
  | warmReset (t : Nat) (p : Port) (done : List Nat) (repaired : Nat)
  | coldReset (t : Nat) (p : Port)
  | restoreDelayExpiry (t : Nat) (done : List Nat) (repaired : Nat)
  | fabricStallExpiry (t unit : Nat)
  | unitSelfCheckFail (t : Nat) (c : SelfCheck)
  | ethLinkChange (t : Nat) (port : Fin 2) (speed : Nat)
  | ethIdleExpiry (t : Nat) (port : Fin 2)
  | radioIdleExpiry (t : Nat) (r : Radio)
  | dramIdleExpiry (t : Nat)
  | dramSelfRefreshExit (t : Nat)
  | chipIdleExpiry (t : Nat)
  -- modes and the lighting day cycle
  | modeRequestHibernate (t : Nat) (p : Port)
  | modeRequestDayWatch (t : Nat) (p : Port)
  | modeRequestFieldOnly (t : Nat) (p : Port)
  | modeRequestRelay (t : Nat) (p : Port)
  | modeRequestFullService (t : Nat) (p : Port)
  | modeRequestDegraded (t : Nat) (p : Port)
  | dawnDrainStart (t : Nat)
  | drainAcceptanceClose (t : Nat)
  | drainGuardDeadline (t : Nat)
  | drainComplete (t : Nat)
  | duskAlarm (t : Nat)
  | wakeAlarmDelayExpiry (t : Nat)
  | wakeEvent (t source gpio : Nat)
  | railsGood (t : Nat) (vioB33 : Bool)
  | railTimeoutExpiry (t : Nat)
  -- presence, seal, keys, debug
  | maintNFitted (t : Nat)
  | maintNRemoved (t : Nat)
  | presencePress (t : Nat)
  | presenceLongHold (t : Nat)
  | presenceWindowExpiry (t : Nat)
  | presenceClose (t : Nat) (p : Port)
  | sealCheck (t : Nat) (word : BitVec 16) (samples : List Bool)
  | sealConfirmCheck (t : Nat) (word : BitVec 16) (samples : List Bool)
  | sealEnableWrite (t : Nat) (p : Port) (sub value : Nat)
  | sealClear (t : Nat) (p : Port)
  | keyHashProgram (t : Nat) (p : Port) (slot value : Nat) (readBackOk : Bool)
  | revoke (t : Nat) (p : Port) (slot : Nat)
  | rollbackSet (t : Nat) (p : Port) (value : Nat)
  | debugUnlock (t : Nat) (p : Port)
  | debugLock (t : Nat) (p : Port)
  | debugDisable (t : Nat) (p : Port)
  | bindingWrite (t : Nat) (p : Port) (sub value : Nat)
  -- dictionary and Plais
  | dictWrite (t : Nat) (p : Port) (index sub row len value : Nat)
  | windowStore (t : Nat) (n : Eng) (addr width value : Nat)
  | plaisRequest (t : Nat) (p : Port) (addr port : Nat) (msg : List Octet)
  | udpDatagramReceived (t addr port : Nat) (msg : List Octet)
  | consoleFrameReceived (t : Nat) (frame : List Octet)
  | canSegmentReceived (t ident : Nat) (data : List Octet)
  | canMessageTimeout (t src tidLo : Nat)
  | respCacheExpiry (t : Nat) (p : Port) (tid : Nat)
  | noticeRetryExpiry (t : Nat) (p : Port)
  | noticeAckReceived (t : Nat) (p : Port) (seq : Nat)
  | defaultsRestore (t : Nat) (p : Port) (value : Nat)
  | customerDeclare (t : Nat) (p : Port) (row sub len value : Nat)
  -- Ethernet, receive, forwarding
  | ethFrameReceived (t : Nat) (port : Fin 2) (pkt : Packet) (fcsOk : Bool) (pause : Option (List (Nat × Nat)))
  | pauseRefresh (t : Nat) (port : Fin 2)
  | ethModeWrite (t : Nat) (p : Port) (row value : Nat)
  | ethTxStart (t : Nat) (port : Fin 2)
  | ethTxEnd (t : Nat) (port : Fin 2)
  | rxSyncConfirm (t : Nat) (r : Radio) (branch : Nat) (seen : SyncSeen)
  | rxHeaderDecoded (t : Nat) (r : Radio) (head : RxHead)
  | rxPpduEnd (t : Nat) (r : Radio) (info : RxInfo) (mpdus : List RxMpdu)
  | landingDrain (t : Nat) (r : Radio)
  | classifyFrame (t fid : Nat)
  | flowIdleExpiry (t row : Nat)
  | bridgeAgeExpiry (t row : Nat)
  | insert (t : Nat) (p : Port)
  | missTake (t : Nat) (p : Port)
  | verdict (t : Nat) (p : Port) (value : Nat)
  | shaperRelease (t shaper : Nat)
  | txRingDoorbell (t : Nat) (p : Port) (row tail : Nat)
  | rxRingFill (t row : Nat)
  | rxRingHeadWrite (t : Nat) (p : Port) (row head : Nat)
  | samplePass (t : Nat)
  | maxOctetsRead (t : Nat) (p : Port) (sub row : Nat)
  | histClear (t : Nat) (p : Port) (row : Nat)
  | flushQueue (t : Nat) (p : Port)
  | flushStation (t : Nat) (p : Port)
  | flushNeighbour (t : Nat) (p : Port)
  | flushCaneLink (t : Nat) (p : Port)
  | flushAll (t : Nat) (p : Port)
  | abandonNoticePeriodEnd (t dest code : Nat)
  | abandonSummary (t : Nat)
  -- gathers and transmission
  | gatherSelect (t : Nat) (r : Radio) (users : Nat) (multiUser : Bool) (mimo dur : Nat) (picks : List Pick)
  | gatherSealDone (t gid : Nat)
  | gatherAgeExpiry (t gid : Nat)
  | txCommand (t : Nat) (r : Radio) (c : TxCmd)
  | txCommit (t : Nat) (r : Radio)
  | ppduFirstSample (t : Nat) (r : Radio)
  | ppduTxEnd (t : Nat) (r : Radio) (detector : List Int)
  | responseReceived (t : Nat) (r : Radio) (acked : List Nat) (mcs : List (Nat × Nat))
  | responseTimeout (t : Nat) (r : Radio) (mcs : List (Nat × Nat))
  | retryHoldExpiry (t queue : Nat)
  | synthLock (t : Nat) (r : Radio)
  | lockTimeoutExpiry (t : Nat) (r : Radio)
  | lockLost (t : Nat) (r : Radio)
  | tuneWrite (t : Nat) (p : Port) (r : Radio) (sub value : Nat)
  | tuneStart (t : Nat) (r : Radio)
  | calSegmentStart (t : Nat) (r : Radio) (kind chain ahead : Nat)
  | calSegmentEnd (t : Nat) (r : Radio) (last : Bool)
  | calStarveExpiry (t : Nat) (r : Radio) (kind : Nat)
  | paSupplyRead (t : Nat) (r : Radio) (mv : Nat)
  | coexInChange (t : Nat) (input : Fin 2) (level : Bool)
  | blankTailExpiry (t source : Nat)
  | regionCommit (t : Nat) (p : Port) (crc : Nat)
  | regionFlip (t : Nat)
  | shadowLoad (t : Nat) (r : Radio) (activeOk : Bool) (crcRead : Nat)
  | shadowCrcCheck (t : Nat) (r : Radio) (shadowOk activeOk : Bool) (crcRead : Nat)
  | regionClear (t : Nat) (p : Port)
  | radarDetected (t mask : Nat)
  | cacExpiry (t : Nat)
  | nopExpiry (t sub : Nat)
  | testModeWrite (t : Nat) (p : Port) (r : Radio) (value : Nat)
  -- medium access
  | backoffSlot (t : Nat) (r : Radio)
  | ccaBusy (t : Nat) (r : Radio)
  | csmaCcaEnd (t : Nat) (busy : Bool) (draw : Nat)
  | ackWaitExpiry (t : Nat)
  | lowbandAckReceived (t : Nat) (pending : Bool)
  | dutyBinBoundary (t : Nat)
  | indirectEnqueue (t nbr : Nat)
  | childPoll (t nbr : Nat) (form : PpduForm) (seq ackAir : Nat)
  | childPersistExpiry (t fid : Nat)
  | inactivityExpiry (t : Nat) (who : Sender)
  | guardExpiry (t nbr interval : Nat)
  | lostPartnerListen (t nbr : Nat) (heard : Bool)
  | scanDwellEnd (t nbr : Nat) (heard : Bool)
  | scanIntervalExpiry (t nbr : Nat)
  | dwPoll (t : Nat) (heard : Bool) (correction : Int) (freq : Nat) (request : Ppdu)
  | dwTimeValidExpiry (t : Nat)
  | roundStart (t : Nat) (r : Radio)
  | assocRequest (t : Nat) (r : Radio) (bss addr : Nat) (uapsd : Bool)
  | disassocReceived (t row : Nat)
  | probeRequest (t : Nat) (r : Radio) (ssid len : Nat)
  | twtSetup (t row sp : Nat) (broadcast : Bool)
  | twtLeadStart (t row : Nat)
  | twtSpStart (t row : Nat) (attended : Bool)
  | tbtt (t : Nat) (r : Radio) (bss : Nat) (beacon : Ppdu)
  | ebSend (t : Nat) (beacon : Ppdu)
  | bssEnableWrite (t : Nat) (p : Port) (r : Radio) (bss value : Nat)
  | kick (t : Nat) (p : Port) (row : Nat)
  | remove (t : Nat) (p : Port) (row : Nat)
  | neighbourAdmit (t : Nat) (p : Port) (row addr : Nat)
  -- cane links
  | caneAckReceived (t link : Nat) (strand : Radio) (header : List Octet)
  | caneNackReceived (t link : Nat) (strand : Radio) (header : List Octet)
  | caneProbeReceived (t link : Nat) (strand : Radio) (header : List Octet)
  | ackDelayExpiry (t link : Nat)
  | holdTimeExpiry (t link stream : Nat)
  | resendTimeExpiry (t fid : Nat)
  | strandDeadTimeExpiry (t link : Nat) (strand : Radio)
  | probeIntervalExpiry (t link : Nat) (strand : Radio)
  | delete (t : Nat) (p : Port) (row : Nat)
  -- cipher
  | rekey (t : Nat) (p : Port) (row : Nat)
  | keyWrite (t : Nat) (p : Port) (row value : Nat)
  | erase (t : Nat) (p : Port) (row : Nat)
  | retiringKeyClear (t row : Nat)
  | jobRun (t : Nat) (p : Port)
  | jobDone (t : Nat) (n : Eng)
  -- network time
  | offsetIn (t : Nat) (p : Port) (dom : Fin 2) (value : Nat)
  | sourceWrite (t : Nat) (p : Port) (dom : Fin 2) (value : Nat)
  | sourceTimeoutExpiry (t : Nat) (dom : Fin 2)
  | holdoverLimitExpiry (t : Nat)
  | presentSelWrite (t : Nat) (p : Port) (value : Nat)
  | stepAllowWrite (t : Nat) (p : Port) (value : Nat)
  | presentSet (t : Nat) (p : Port) (value : Nat)
  | rtcAlign (t : Nat)
  | triggerFire (t : Nat) (row : Fin 16)
  | ppsOutFall (t : Nat)
  | triggerEnable (t : Nat) (p : Port) (row : Fin 16) (value : Nat)
  | lateRead (t : Nat) (p : Port) (row : Fin 16)
  | captureEdge (t : Nat) (ch : Fin 8) (rising : Bool)
  | captureTimeRead (t : Nat) (p : Port) (ch : Fin 8)
  | pop (t : Nat) (p : Port) (q : Fin 5)
  | overflowRead (t : Nat) (p : Port) (q : Fin 5)
  | timerReload (t : Nat) (ch : Fin 16)
  | timerCompare (t : Nat) (ch : Fin 16)
  | timerPinCapture (t : Nat) (ch : Fin 16)
  | timerCompareWrite (t : Nat) (p : Port) (ch : Fin 16) (value : Nat)
  | timerPeriodWrite (t : Nat) (p : Port) (ch : Fin 16) (value : Nat)
  | globalGo (t : Nat) (p : Port)
  | countLowRead (t : Nat) (p : Port) (pair : Fin 4)
  | eventsRead (t : Nat) (p : Port) (ch : Fin 16)
  -- lamp, detectors, field bus
  | dimLevelWrite (t : Nat) (p : Port) (out : Fin 2) (value : Nat)
  | zxEdge (t : Nat) (rising : Bool)
  | zxTimeoutExpiry (t : Nat)
  | relayCommandWrite (t : Nat) (p : Port) (r : Fin 2) (value : Nat)
  | relaySwitch (t : Nat) (r : Fin 2)
  | daliSubmit (t : Nat) (p : Port) (row value : Nat)
  | daliRowStart (t : Nat)
  | daliRowEnd (t : Nat) (e : DaliEnd)
  | daliCollision (t : Nat)
  | daliBusDown (t : Nat)
  | daliBusUp (t : Nat)
  | daliPoll (t : Nat) (replies : List (Nat × Option Nat))
  | detectorEdge (t : Nat) (d : Fin 8) (level : Bool)
  | maxTravelExpiry (t : Nat) (lane : Fin 8)
  | stuckTimeExpiry (t : Nat) (d : Fin 8)
  | intervalBoundary (t : Nat)
  | recordHoldExpiry (t : Nat)
  | adcScanEnd (t : Nat) (raw : List Nat)
  | adcPersistExpiry (t : Nat) (ch : Fin 13) (high : Bool)
  | cycleWindowExpiry (t : Nat)
  | canFrameReceived (t ident : Nat) (ide : Bool) (data : List Octet)
  | canBusOff (t : Nat)
  | alarmClear (t : Nat) (p : Port) (row : Nat)
  | alarmRaiseWrite (t : Nat) (p : Port) (row value : Nat)
  -- the cullet log
  | culletRecordWrite (t : Nat)
  | culletCrcWritten (t : Nat)
  -- margins
  | lehrPeriodExpiry (t : Nat)
  | lehrRun (t : Nat) (p : Port)
  | strainSweepDone (t : Nat) (cells : List Nat) (pmbusOk : Bool)
  | vcoreSettleExpiry (t : Nat)
  | vcoreLimitWrite (t : Nat) (p : Port) (sub value : Nat) (pmbusOk : Bool)
  | thermalCheck (t : Nat) (ch8 : Int) (dieH dieM dieL : Int)
  -- memory
  | wsScrub (t : Nat) (e : WsError)
  | csWrite (t : Nat) (p : Port)
  | dramRequest (t cls requester addr : Nat) (write ce ue : Bool)
  | dramAgePromote (t id : Nat)
  | dramScrub (t : Nat) (ch : Fin 2) (addr : Nat) (ce ue : Bool)
  | dramRefresh (t : Nat) (ch : Fin 2) (bank : Fin 8) (postpone : Bool)
  | dramRetrainStart (t : Nat) (ch : Fin 2)
  | dramRetrainDone (t : Nat) (ch : Fin 2) (ok : Bool)
  | xspiReadTimeout (t : Nat)
  | xspiProgram (t : Nat) (p : Port)
  | xspiSectorErase (t : Nat) (p : Port)
  | xspiBlockErase (t : Nat) (p : Port)
  | xspiOpDone (t status : Nat)
  -- images
  | swapGo (t : Nat) (p : Port)
  | swapEngineLoaded (t : Nat)
  | swapWaitExpiry (t : Nat)
  | bootConfirm (t : Nat) (p : Port)
  | confirmTimeExpiry (t : Nat)
  | engineHalt (t : Nat) (p : Port) (n : Eng)
  | engineRun (t : Nat) (p : Port) (n : Eng)
  | engineResume (t : Nat) (p : Port) (n : Eng)
  | mouldRowWrite (t : Nat) (p : Port) (n : Eng) (row sub value : Nat)
  | engineEvent (t : Nat) (n : Eng) (bit : Fin 32)
  | wuntilTarget (t : Nat) (n : Eng)
  | watchdogExpiry (t : Nat) (n : Eng)
  -- Barune instructions
  | reservedInstruction (n : Eng) (word : BitVec 32)
  | nop (n : Eng)
  | trap (n : Eng) (code : BitVec 5)
  | mcall (n : Eng)
  | xret (n : Eng)
  | halt (n : Eng)
  | safept (n : Eng)
  | wdkick (n : Eng)
  | fence (n : Eng)
  | fenceS (n : Eng)
  | fenceD (n : Eng)
  | crd (n : Eng) (rd : GReg) (cr : Fin 32)
  | cwr (n : Eng) (cr : Fin 32) (ra : GReg)
  | add (n : Eng) (rd ra rb : GReg)
  | adc (n : Eng) (rd ra rb : GReg)
  | sub (n : Eng) (rd ra rb : GReg)
  | sbc (n : Eng) (rd ra rb : GReg)
  | cmp (n : Eng) (ra rb : GReg)
  | and (n : Eng) (rd ra rb : GReg)
  | or (n : Eng) (rd ra rb : GReg)
  | xor (n : Eng) (rd ra rb : GReg)
  | shl (n : Eng) (rd ra rb : GReg)
  | shr (n : Eng) (rd ra rb : GReg)
  | sar (n : Eng) (rd ra rb : GReg)
  | ror (n : Eng) (rd ra rb : GReg)
  | clz (n : Eng) (rd ra : GReg)
  | popc (n : Eng) (rd ra : GReg)
  | addi (n : Eng) (rd ra : GReg) (imm : BitVec 16)
  | cmpi (n : Eng) (ra : GReg) (imm : BitVec 16)
  | andi (n : Eng) (rd ra : GReg) (imm : BitVec 16)
  | ori (n : Eng) (rd ra : GReg) (imm : BitVec 16)
  | xori (n : Eng) (rd ra : GReg) (imm : BitVec 16)
  | shiShl (n : Eng) (rd ra : GReg) (amount : Fin 64)
  | shiShr (n : Eng) (rd ra : GReg) (amount : Fin 64)
  | shiSar (n : Eng) (rd ra : GReg) (amount : Fin 64)
  | shiRor (n : Eng) (rd ra : GReg) (amount : Fin 64)
  | movz (n : Eng) (rd : GReg) (h : Fin 4) (imm : BitVec 16)
  | movk (n : Eng) (rd : GReg) (h : Fin 4) (imm : BitVec 16)
  | mul (n : Eng) (rd ra rb : GReg)
  | mulhu (n : Eng) (rd ra rb : GReg)
  | mulhs (n : Eng) (rd ra rb : GReg)
  | divu (n : Eng) (rd ra rb : GReg)
  | divs (n : Eng) (rd ra rb : GReg)
  | remu (n : Eng) (rd ra rb : GReg)
  | rems (n : Eng) (rd ra rb : GReg)
  | ld64 (n : Eng) (rd ra : GReg) (imm : BitVec 16)
  | ld32u (n : Eng) (rd ra : GReg) (imm : BitVec 16)
  | ld32s (n : Eng) (rd ra : GReg) (imm : BitVec 16)
  | ld16u (n : Eng) (rd ra : GReg) (imm : BitVec 16)
  | ld16s (n : Eng) (rd ra : GReg) (imm : BitVec 16)
  | ld8u (n : Eng) (rd ra : GReg) (imm : BitVec 16)
  | ld8s (n : Eng) (rd ra : GReg) (imm : BitVec 16)
  | ldacq (n : Eng) (rd ra : GReg) (imm : BitVec 16)
  | st64 (n : Eng) (rd ra : GReg) (imm : BitVec 16)
  | st32 (n : Eng) (rd ra : GReg) (imm : BitVec 16)
  | st16 (n : Eng) (rd ra : GReg) (imm : BitVec 16)
  | st8 (n : Eng) (rd ra : GReg) (imm : BitVec 16)
  | strel (n : Eng) (rd ra : GReg) (imm : BitVec 16)
  | cas (n : Eng) (rd ra rb : GReg)
  | aadd (n : Eng) (rd ra rb : GReg)
  | aswap (n : Eng) (rd ra rb : GReg)
  | bCond (n : Eng) (cond : BitVec 4) (offset : BitVec 22)
  | jal (n : Eng) (offset : BitVec 26)
  | jalr (n : Eng) (rd ra : GReg) (imm : BitVec 16)
  | wfe (n : Eng)
  | sev (n : Eng) (ra : GReg)
  | wuntil (n : Eng) (ra : GReg)
  | dadd (n : Eng) (rd ra rb : GReg)
  | daddX (n : Eng) (rd ra rb : GReg)
  | dsub (n : Eng) (rd ra rb : GReg)
  | dsubX (n : Eng) (rd ra rb : GReg)
  | dcmp (n : Eng) (ra rb : GReg)
  | dadj (n : Eng) (rd ra : GReg)
  | mouldInstruction (n : Eng) (m : Fin 16) (rd ra rb : GReg) (imm9 : BitVec 9)
  -- pins and the rest
  | presenceNEdge (t : Nat) (low : Bool)
  | resetNAssert (t : Nat)
  | busOffRecovery (t : Nat)
  | pauseQuantaExpiry (t : Nat) (port : Fin 2) (mask : Nat)
  | calPeriodExpiry (t : Nat) (r : Radio) (kind : Nat) (tempStep : Bool)
  | tapAccess (t : Nat) (op : TapOp)
  | tmrIoCountEdge (t : Nat) (ch : Fin 16) (rising : Bool)
  | brownoutEnd (t rail : Nat)
  deriving DecidableEq, Repr

end Sys2Proof
end

