-- ==== Sys2Proof/Decode.lean ====
section
/-!
DEFINITION. The reading of table words. No row of the table of operations and events has bits: a command is an access, a
message or an event, and not a word. The instruction words of the engines are read and written by Machine/Barune.lean.
-/

namespace Sys2Proof

/-- The command that a word spells by the table's bits: the table gives no row any bits, so no word spells one. -/
def decodeTableWord (_nbits _w : Nat) : Option Instr := none

end Sys2Proof
end

