-- ==== Sys2Proof/Machine/Barune.lean ====
section
/-!
DEFINITION. The encoding of Barune instructions (R440, R441, R454, R457, R459): the word of each instruction and the
instruction of each word. Every word decodes; one that is none of the instructions is a reserved instruction (R442).
Bits that a format gives an instruction no use for are 0 in its word and are not read (DESIGN CHOICE, log entry 50).
-/

namespace Sys2Proof.Machine

/-! ### Instructions -/

/-- An instruction without the engine that executes it (R441, R454, R457, R459). -/
inductive Op where
  | reserved (word : BitVec 32)
  | nop
  | trap (code : BitVec 5)
  | mcall
  | xret
  | halt
  | safept
  | wdkick
  | fence
  | fenceS
  | fenceD
  | crd (rd : GReg) (cr : Fin 32)
  | cwr (cr : Fin 32) (ra : GReg)
  | add (rd ra rb : GReg)
  | adc (rd ra rb : GReg)
  | sub (rd ra rb : GReg)
  | sbc (rd ra rb : GReg)
  | cmp (ra rb : GReg)
  | and (rd ra rb : GReg)
  | or (rd ra rb : GReg)
  | xor (rd ra rb : GReg)
  | shl (rd ra rb : GReg)
  | shr (rd ra rb : GReg)
  | sar (rd ra rb : GReg)
  | ror (rd ra rb : GReg)
  | clz (rd ra : GReg)
  | popc (rd ra : GReg)
  | addi (rd ra : GReg) (imm : BitVec 16)
  | cmpi (ra : GReg) (imm : BitVec 16)
  | andi (rd ra : GReg) (imm : BitVec 16)
  | ori (rd ra : GReg) (imm : BitVec 16)
  | xori (rd ra : GReg) (imm : BitVec 16)
  | shiShl (rd ra : GReg) (amount : Fin 64)
  | shiShr (rd ra : GReg) (amount : Fin 64)
  | shiSar (rd ra : GReg) (amount : Fin 64)
  | shiRor (rd ra : GReg) (amount : Fin 64)
  | movz (rd : GReg) (h : Fin 4) (imm : BitVec 16)
  | movk (rd : GReg) (h : Fin 4) (imm : BitVec 16)
  | mul (rd ra rb : GReg)
  | mulhu (rd ra rb : GReg)
  | mulhs (rd ra rb : GReg)
  | divu (rd ra rb : GReg)
  | divs (rd ra rb : GReg)
  | remu (rd ra rb : GReg)
  | rems (rd ra rb : GReg)
  | ld64 (rd ra : GReg) (imm : BitVec 16)
  | ld32u (rd ra : GReg) (imm : BitVec 16)
  | ld32s (rd ra : GReg) (imm : BitVec 16)
  | ld16u (rd ra : GReg) (imm : BitVec 16)
  | ld16s (rd ra : GReg) (imm : BitVec 16)
  | ld8u (rd ra : GReg) (imm : BitVec 16)
  | ld8s (rd ra : GReg) (imm : BitVec 16)
  | ldacq (rd ra : GReg) (imm : BitVec 16)
  | st64 (rd ra : GReg) (imm : BitVec 16)
  | st32 (rd ra : GReg) (imm : BitVec 16)
  | st16 (rd ra : GReg) (imm : BitVec 16)
  | st8 (rd ra : GReg) (imm : BitVec 16)
  | strel (rd ra : GReg) (imm : BitVec 16)
  | cas (rd ra rb : GReg)
  | aadd (rd ra rb : GReg)
  | aswap (rd ra rb : GReg)
  | bCond (cond : BitVec 4) (offset : BitVec 22)
  | jal (offset : BitVec 26)
  | jalr (rd ra : GReg) (imm : BitVec 16)
  | wfe
  | sev (ra : GReg)
  | wuntil (ra : GReg)
  | dadd (rd ra rb : GReg)
  | daddX (rd ra rb : GReg)
  | dsub (rd ra rb : GReg)
  | dsubX (rd ra rb : GReg)
  | dcmp (ra rb : GReg)
  | dadj (rd ra : GReg)
  | mouldInstruction (m : Fin 16) (rd ra rb : GReg) (imm9 : BitVec 9)
  deriving DecidableEq, Repr

/-- The engine and the instruction of a command; a command that is no instruction has none. -/
def opOf (i : Instr) : Option (Eng × Op) :=
  match i with
  | .reservedInstruction n word => some (n, (.reserved word))
  | .nop n => some (n, .nop)
  | .trap n code => some (n, (.trap code))
  | .mcall n => some (n, .mcall)
  | .xret n => some (n, .xret)
  | .halt n => some (n, .halt)
  | .safept n => some (n, .safept)
  | .wdkick n => some (n, .wdkick)
  | .fence n => some (n, .fence)
  | .fenceS n => some (n, .fenceS)
  | .fenceD n => some (n, .fenceD)
  | .crd n rd cr => some (n, (.crd rd cr))
  | .cwr n cr ra => some (n, (.cwr cr ra))
  | .add n rd ra rb => some (n, (.add rd ra rb))
  | .adc n rd ra rb => some (n, (.adc rd ra rb))
  | .sub n rd ra rb => some (n, (.sub rd ra rb))
  | .sbc n rd ra rb => some (n, (.sbc rd ra rb))
  | .cmp n ra rb => some (n, (.cmp ra rb))
  | .and n rd ra rb => some (n, (.and rd ra rb))
  | .or n rd ra rb => some (n, (.or rd ra rb))
  | .xor n rd ra rb => some (n, (.xor rd ra rb))
  | .shl n rd ra rb => some (n, (.shl rd ra rb))
  | .shr n rd ra rb => some (n, (.shr rd ra rb))
  | .sar n rd ra rb => some (n, (.sar rd ra rb))
  | .ror n rd ra rb => some (n, (.ror rd ra rb))
  | .clz n rd ra => some (n, (.clz rd ra))
  | .popc n rd ra => some (n, (.popc rd ra))
  | .addi n rd ra imm => some (n, (.addi rd ra imm))
  | .cmpi n ra imm => some (n, (.cmpi ra imm))
  | .andi n rd ra imm => some (n, (.andi rd ra imm))
  | .ori n rd ra imm => some (n, (.ori rd ra imm))
  | .xori n rd ra imm => some (n, (.xori rd ra imm))
  | .shiShl n rd ra amount => some (n, (.shiShl rd ra amount))
  | .shiShr n rd ra amount => some (n, (.shiShr rd ra amount))
  | .shiSar n rd ra amount => some (n, (.shiSar rd ra amount))
  | .shiRor n rd ra amount => some (n, (.shiRor rd ra amount))
  | .movz n rd h imm => some (n, (.movz rd h imm))
  | .movk n rd h imm => some (n, (.movk rd h imm))
  | .mul n rd ra rb => some (n, (.mul rd ra rb))
  | .mulhu n rd ra rb => some (n, (.mulhu rd ra rb))
  | .mulhs n rd ra rb => some (n, (.mulhs rd ra rb))
  | .divu n rd ra rb => some (n, (.divu rd ra rb))
  | .divs n rd ra rb => some (n, (.divs rd ra rb))
  | .remu n rd ra rb => some (n, (.remu rd ra rb))
  | .rems n rd ra rb => some (n, (.rems rd ra rb))
  | .ld64 n rd ra imm => some (n, (.ld64 rd ra imm))
  | .ld32u n rd ra imm => some (n, (.ld32u rd ra imm))
  | .ld32s n rd ra imm => some (n, (.ld32s rd ra imm))
  | .ld16u n rd ra imm => some (n, (.ld16u rd ra imm))
  | .ld16s n rd ra imm => some (n, (.ld16s rd ra imm))
  | .ld8u n rd ra imm => some (n, (.ld8u rd ra imm))
  | .ld8s n rd ra imm => some (n, (.ld8s rd ra imm))
  | .ldacq n rd ra imm => some (n, (.ldacq rd ra imm))
  | .st64 n rd ra imm => some (n, (.st64 rd ra imm))
  | .st32 n rd ra imm => some (n, (.st32 rd ra imm))
  | .st16 n rd ra imm => some (n, (.st16 rd ra imm))
  | .st8 n rd ra imm => some (n, (.st8 rd ra imm))
  | .strel n rd ra imm => some (n, (.strel rd ra imm))
  | .cas n rd ra rb => some (n, (.cas rd ra rb))
  | .aadd n rd ra rb => some (n, (.aadd rd ra rb))
  | .aswap n rd ra rb => some (n, (.aswap rd ra rb))
  | .bCond n cond offset => some (n, (.bCond cond offset))
  | .jal n offset => some (n, (.jal offset))
  | .jalr n rd ra imm => some (n, (.jalr rd ra imm))
  | .wfe n => some (n, .wfe)
  | .sev n ra => some (n, (.sev ra))
  | .wuntil n ra => some (n, (.wuntil ra))
  | .dadd n rd ra rb => some (n, (.dadd rd ra rb))
  | .daddX n rd ra rb => some (n, (.daddX rd ra rb))
  | .dsub n rd ra rb => some (n, (.dsub rd ra rb))
  | .dsubX n rd ra rb => some (n, (.dsubX rd ra rb))
  | .dcmp n ra rb => some (n, (.dcmp ra rb))
  | .dadj n rd ra => some (n, (.dadj rd ra))
  | .mouldInstruction n m rd ra rb imm9 => some (n, (.mouldInstruction m rd ra rb imm9))
  | _ => none

/-! ### Fields -/

/-- `len` bits of a word from bit `lo`. -/
def field (w : BitVec 32) (lo len : Nat) : Nat := w.toNat / 2 ^ lo % 2 ^ len

/-- The major opcode, bits 31 to 26. -/
def majorOf (w : BitVec 32) : Nat := field w 26 6

/-- The rd field of formats R, I and M. -/
def rdOf (w : BitVec 32) : GReg := Fin.ofNat 32 (field w 21 5)

/-- The ra field of formats R, I and M. -/
def raOf (w : BitVec 32) : GReg := Fin.ofNat 32 (field w 16 5)

/-- The rb field of format R. -/
def rbOf (w : BitVec 32) : GReg := Fin.ofNat 32 (field w 11 5)

/-- FUNC of format R. -/
def funcOf (w : BitVec 32) : Nat := field w 0 11

/-- IMM16 of formats I and M. -/
def immOf (w : BitVec 32) : BitVec 16 := BitVec.ofNat 16 (field w 0 16)

/-! ### Words -/

/-- A word of format R. -/
def wordR (major rd ra rb func : Nat) : BitVec 32 :=
  BitVec.ofNat 32 (major * 2 ^ 26 + rd * 2 ^ 21 + ra * 2 ^ 16 + rb * 2 ^ 11 + func)

/-- A word of formats I and M. -/
def wordI (major rd ra imm : Nat) : BitVec 32 := BitVec.ofNat 32 (major * 2 ^ 26 + rd * 2 ^ 21 + ra * 2 ^ 16 + imm)

/-- The word of an instruction (R440, R441). -/
def encode (o : Op) : BitVec 32 :=
  match o with
  | .reserved w => w
  | .nop => wordR 0 0 0 0 0x000
  | .trap code => wordR 0 code.toNat 0 0 0x001
  | .mcall => wordR 0 0 0 0 0x002
  | .xret => wordR 0 0 0 0 0x003
  | .halt => wordR 0 0 0 0 0x004
  | .safept => wordR 0 0 0 0 0x005
  | .wdkick => wordR 0 0 0 0 0x006
  | .fence => wordR 0 0 0 0 0x010
  | .fenceS => wordR 0 0 0 0 0x011
  | .fenceD => wordR 0 0 0 0 0x012
  | .crd rd cr => wordR 0 rd.val cr.val 0 0x020
  | .cwr cr ra => wordR 0 cr.val ra.val 0 0x021
  | .add rd ra rb => wordR 1 rd.val ra.val rb.val 0x00
  | .adc rd ra rb => wordR 1 rd.val ra.val rb.val 0x01
  | .sub rd ra rb => wordR 1 rd.val ra.val rb.val 0x02
  | .sbc rd ra rb => wordR 1 rd.val ra.val rb.val 0x03
  | .cmp ra rb => wordR 1 0 ra.val rb.val 0x04
  | .and rd ra rb => wordR 1 rd.val ra.val rb.val 0x05
  | .or rd ra rb => wordR 1 rd.val ra.val rb.val 0x06
  | .xor rd ra rb => wordR 1 rd.val ra.val rb.val 0x07
  | .shl rd ra rb => wordR 1 rd.val ra.val rb.val 0x08
  | .shr rd ra rb => wordR 1 rd.val ra.val rb.val 0x09
  | .sar rd ra rb => wordR 1 rd.val ra.val rb.val 0x0A
  | .ror rd ra rb => wordR 1 rd.val ra.val rb.val 0x0B
  | .clz rd ra => wordR 1 rd.val ra.val 0 0x0C
  | .popc rd ra => wordR 1 rd.val ra.val 0 0x0D
  | .addi rd ra imm => wordI 0x02 rd.val ra.val imm.toNat
  | .cmpi ra imm => wordI 0x03 0 ra.val imm.toNat
  | .andi rd ra imm => wordI 0x04 rd.val ra.val imm.toNat
  | .ori rd ra imm => wordI 0x05 rd.val ra.val imm.toNat
  | .xori rd ra imm => wordI 0x06 rd.val ra.val imm.toNat
  | .shiShl rd ra k => wordI 0x07 rd.val ra.val k.val
  | .shiShr rd ra k => wordI 0x07 rd.val ra.val (64 + k.val)
  | .shiSar rd ra k => wordI 0x07 rd.val ra.val (128 + k.val)
  | .shiRor rd ra k => wordI 0x07 rd.val ra.val (192 + k.val)
  | .movz rd h imm => wordI 0x08 rd.val h.val imm.toNat
  | .movk rd h imm => wordI 0x09 rd.val h.val imm.toNat
  | .mul rd ra rb => wordR 0x0A rd.val ra.val rb.val 0x00
  | .mulhu rd ra rb => wordR 0x0A rd.val ra.val rb.val 0x01
  | .mulhs rd ra rb => wordR 0x0A rd.val ra.val rb.val 0x02
  | .divu rd ra rb => wordR 0x0A rd.val ra.val rb.val 0x03
  | .divs rd ra rb => wordR 0x0A rd.val ra.val rb.val 0x04
  | .remu rd ra rb => wordR 0x0A rd.val ra.val rb.val 0x05
  | .rems rd ra rb => wordR 0x0A rd.val ra.val rb.val 0x06
  | .ld64 rd ra imm => wordI 0x10 rd.val ra.val imm.toNat
  | .ld32u rd ra imm => wordI 0x11 rd.val ra.val imm.toNat
  | .ld32s rd ra imm => wordI 0x12 rd.val ra.val imm.toNat
  | .ld16u rd ra imm => wordI 0x13 rd.val ra.val imm.toNat
  | .ld16s rd ra imm => wordI 0x14 rd.val ra.val imm.toNat
  | .ld8u rd ra imm => wordI 0x15 rd.val ra.val imm.toNat
  | .ld8s rd ra imm => wordI 0x16 rd.val ra.val imm.toNat
  | .ldacq rd ra imm => wordI 0x17 rd.val ra.val imm.toNat
  | .st64 rd ra imm => wordI 0x18 rd.val ra.val imm.toNat
  | .st32 rd ra imm => wordI 0x19 rd.val ra.val imm.toNat
  | .st16 rd ra imm => wordI 0x1A rd.val ra.val imm.toNat
  | .st8 rd ra imm => wordI 0x1B rd.val ra.val imm.toNat
  | .strel rd ra imm => wordI 0x1C rd.val ra.val imm.toNat
  | .cas rd ra rb => wordR 0x1D rd.val ra.val rb.val 0x00
  | .aadd rd ra rb => wordR 0x1D rd.val ra.val rb.val 0x01
  | .aswap rd ra rb => wordR 0x1D rd.val ra.val rb.val 0x02
  | .bCond cond offset => BitVec.ofNat 32 (0x20 * 2 ^ 26 + cond.toNat * 2 ^ 22 + offset.toNat)
  | .jal offset => BitVec.ofNat 32 (0x21 * 2 ^ 26 + offset.toNat)
  | .jalr rd ra imm => wordI 0x22 rd.val ra.val imm.toNat
  | .wfe => wordR 0x38 0 0 0 0x000
  | .sev ra => wordR 0x38 0 ra.val 0 0x001
  | .wuntil ra => wordR 0x38 0 ra.val 0 0x002
  | .dadd rd ra rb => wordR 0x39 rd.val ra.val rb.val 0x000
  | .daddX rd ra rb => wordR 0x39 rd.val ra.val rb.val 0x400
  | .dsub rd ra rb => wordR 0x39 rd.val ra.val rb.val 0x001
  | .dsubX rd ra rb => wordR 0x39 rd.val ra.val rb.val 0x401
  | .dcmp ra rb => wordR 0x39 0 ra.val rb.val 0x002
  | .dadj rd ra => wordR 0x39 rd.val ra.val 0 0x003
  | .mouldInstruction m rd ra rb imm =>
    BitVec.ofNat 32 (0x3C * 2 ^ 26 + m.val * 2 ^ 24 + rd.val * 2 ^ 19 + ra.val * 2 ^ 14 + rb.val * 2 ^ 9 + imm.toNat)

/-! ### Decoding -/

/-- Major 0x00, SYS. -/
def decodeSys (w : BitVec 32) : Op :=
  match funcOf w with
  | 0x000 => .nop
  | 0x001 => .trap (BitVec.ofNat 5 (field w 21 5))
  | 0x002 => .mcall
  | 0x003 => .xret
  | 0x004 => .halt
  | 0x005 => .safept
  | 0x006 => .wdkick
  | 0x010 => .fence
  | 0x011 => .fenceS
  | 0x012 => .fenceD
  | 0x020 => .crd (rdOf w) (raOf w)
  | 0x021 => .cwr (rdOf w) (raOf w)
  | _ => .reserved w

/-- Major 0x01, ALU. -/
def decodeAlu (w : BitVec 32) : Op :=
  match funcOf w with
  | 0x00 => .add (rdOf w) (raOf w) (rbOf w)
  | 0x01 => .adc (rdOf w) (raOf w) (rbOf w)
  | 0x02 => .sub (rdOf w) (raOf w) (rbOf w)
  | 0x03 => .sbc (rdOf w) (raOf w) (rbOf w)
  | 0x04 => .cmp (raOf w) (rbOf w)
  | 0x05 => .and (rdOf w) (raOf w) (rbOf w)
  | 0x06 => .or (rdOf w) (raOf w) (rbOf w)
  | 0x07 => .xor (rdOf w) (raOf w) (rbOf w)
  | 0x08 => .shl (rdOf w) (raOf w) (rbOf w)
  | 0x09 => .shr (rdOf w) (raOf w) (rbOf w)
  | 0x0A => .sar (rdOf w) (raOf w) (rbOf w)
  | 0x0B => .ror (rdOf w) (raOf w) (rbOf w)
  | 0x0C => .clz (rdOf w) (raOf w)
  | 0x0D => .popc (rdOf w) (raOf w)
  | _ => .reserved w

/-- Major 0x07, SHI: the kind in bits 7 and 6 of IMM16, the amount in bits 5 to 0. -/
def decodeShi (w : BitVec 32) : Op :=
  let k : Fin 64 := Fin.ofNat 64 (field w 0 6)
  match field w 6 2 with
  | 0 => .shiShl (rdOf w) (raOf w) k
  | 1 => .shiShr (rdOf w) (raOf w) k
  | 2 => .shiSar (rdOf w) (raOf w) k
  | _ => .shiRor (rdOf w) (raOf w) k

/-- Major 0x0A, MULDIV. -/
def decodeMulDiv (w : BitVec 32) : Op :=
  match funcOf w with
  | 0x00 => .mul (rdOf w) (raOf w) (rbOf w)
  | 0x01 => .mulhu (rdOf w) (raOf w) (rbOf w)
  | 0x02 => .mulhs (rdOf w) (raOf w) (rbOf w)
  | 0x03 => .divu (rdOf w) (raOf w) (rbOf w)
  | 0x04 => .divs (rdOf w) (raOf w) (rbOf w)
  | 0x05 => .remu (rdOf w) (raOf w) (rbOf w)
  | 0x06 => .rems (rdOf w) (raOf w) (rbOf w)
  | _ => .reserved w

/-- Major 0x1D, ATOM. -/
def decodeAtom (w : BitVec 32) : Op :=
  match funcOf w with
  | 0x00 => .cas (rdOf w) (raOf w) (rbOf w)
  | 0x01 => .aadd (rdOf w) (raOf w) (rbOf w)
  | 0x02 => .aswap (rdOf w) (raOf w) (rbOf w)
  | _ => .reserved w

/-- Major 0x38, the E profile (R454). -/
def decodeE (w : BitVec 32) : Op :=
  match funcOf w with
  | 0x000 => .wfe
  | 0x001 => .sev (raOf w)
  | 0x002 => .wuntil (raOf w)
  | _ => .reserved w

/-- Major 0x39, the D profile (R457). -/
def decodeD (w : BitVec 32) : Op :=
  match funcOf w with
  | 0x000 => .dadd (rdOf w) (raOf w) (rbOf w)
  | 0x400 => .daddX (rdOf w) (raOf w) (rbOf w)
  | 0x001 => .dsub (rdOf w) (raOf w) (rbOf w)
  | 0x401 => .dsubX (rdOf w) (raOf w) (rbOf w)
  | 0x002 => .dcmp (raOf w) (rbOf w)
  | 0x003 => .dadj (rdOf w) (raOf w)
  | _ => .reserved w

/-- Majors 0x3C to 0x3F, the mould space (R459). -/
def decodeMould (w : BitVec 32) : Op :=
  .mouldInstruction (Fin.ofNat 16 (field w 24 4)) (Fin.ofNat 32 (field w 19 5)) (Fin.ofNat 32 (field w 14 5))
    (Fin.ofNat 32 (field w 9 5)) (BitVec.ofNat 9 (field w 0 9))

/-- The instruction of a word (R441, R442). Whether the engine runs the E or D profile or defines the
mould is the instruction's to find. -/
def decodeWord (w : BitVec 32) : Op :=
  match majorOf w with
  | 0x00 => decodeSys w
  | 0x01 => decodeAlu w
  | 0x02 => .addi (rdOf w) (raOf w) (immOf w)
  | 0x03 => .cmpi (raOf w) (immOf w)
  | 0x04 => .andi (rdOf w) (raOf w) (immOf w)
  | 0x05 => .ori (rdOf w) (raOf w) (immOf w)
  | 0x06 => .xori (rdOf w) (raOf w) (immOf w)
  | 0x07 => decodeShi w
  | 0x08 => .movz (rdOf w) (Fin.ofNat 4 (field w 16 2)) (immOf w)
  | 0x09 => .movk (rdOf w) (Fin.ofNat 4 (field w 16 2)) (immOf w)
  | 0x0A => decodeMulDiv w
  | 0x10 => .ld64 (rdOf w) (raOf w) (immOf w)
  | 0x11 => .ld32u (rdOf w) (raOf w) (immOf w)
  | 0x12 => .ld32s (rdOf w) (raOf w) (immOf w)
  | 0x13 => .ld16u (rdOf w) (raOf w) (immOf w)
  | 0x14 => .ld16s (rdOf w) (raOf w) (immOf w)
  | 0x15 => .ld8u (rdOf w) (raOf w) (immOf w)
  | 0x16 => .ld8s (rdOf w) (raOf w) (immOf w)
  | 0x17 => .ldacq (rdOf w) (raOf w) (immOf w)
  | 0x18 => .st64 (rdOf w) (raOf w) (immOf w)
  | 0x19 => .st32 (rdOf w) (raOf w) (immOf w)
  | 0x1A => .st16 (rdOf w) (raOf w) (immOf w)
  | 0x1B => .st8 (rdOf w) (raOf w) (immOf w)
  | 0x1C => .strel (rdOf w) (raOf w) (immOf w)
  | 0x1D => decodeAtom w
  | 0x20 => .bCond (BitVec.ofNat 4 (field w 22 4)) (BitVec.ofNat 22 (field w 0 22))
  | 0x21 => .jal (BitVec.ofNat 26 (field w 0 26))
  | 0x22 => .jalr (rdOf w) (raOf w) (immOf w)
  | 0x38 => decodeE w
  | 0x39 => decodeD w
  | 0x3C | 0x3D | 0x3E | 0x3F => decodeMould w
  | _ => .reserved w

end Sys2Proof.Machine
end

