-- ==== Sys2Proof/Config.lean ====
section
/-!
DEFINITION. What an implementation fixes and the manual leaves open: free values, each a constant with no body, so that
nothing can be proved of what it holds. A free value is applied to the counter `fresh` of the state, which every use
advances, or to the operands it depends on.
-/

namespace Sys2Proof.Config

/-- A number that the manual leaves open, a new one for each value of the counter (DESIGN CHOICE, log entry 12). -/
opaque freeNat : Nat → Nat

/-- Where a counter stands after it has passed its greatest value, where the manual does not say that it saturates: by
index and subindex and the exact count (DESIGN CHOICE, log entry 9). -/
opaque counterPast : Nat → Nat → Nat

/-- An octet that the manual leaves open (DESIGN CHOICE, log entry 12). -/
opaque freeOctet : Nat → Octet

/-- A truth value that the manual leaves open (DESIGN CHOICE, log entry 12). -/
opaque freeBool : Nat → Bool

/-- AES-CCM or GCM sealing of a text under a key (R299, R305): algorithm, key, nonce, associated data, text and MIC
length to sealed text. The ciphers are those of the named standards; the model keeps them abstract (DESIGN CHOICE, log
entry 14). -/
opaque cipherSeal : Nat → Nat → Nat → List Octet → List Octet → Nat → List Octet

/-- Opening of a sealed text: the text, or nothing where the MIC fails (DESIGN CHOICE, log entry 14). -/
opaque cipherOpen : Nat → Nat → Nat → List Octet → List Octet → Nat → Option (List Octet)

/-- ECDSA P-256 verification with SHA-256 under FIPS 186-5 (R394): public key, signed octets, signature
(DESIGN CHOICE, log entry 14). -/
opaque ecdsaVerify : List Octet → List Octet → List Octet → Bool

/-- The contents of the boot ROM by address, which the manual does not list (R31, DESIGN CHOICE, log entry 16). -/
opaque romOctet : Nat → Octet

/-- The exception vector base for an entry at M, fixed in the boot ROM (R445, DESIGN CHOICE, log entry 16). -/
opaque vectorM : Word

/-- Where in the buffer pool the allocator puts the buffer of an accepted frame, by the frame's number (R288, R335;
DESIGN CHOICE, log entry 17). -/
opaque bufferAt : Nat → Nat

/-- Which entry of the queue journal a frame holds, by the frame's number (R124; DESIGN CHOICE, log entry 17). -/
opaque journalAt : Nat → Nat

/-- BUF of the journal entry of a frame, by the frame's number (R124; DESIGN CHOICE, log entry 17). -/
opaque bufferHandle : Nat → Nat

/-- The source address of a routed frame that leaves by the queue of a neighbour or of a receive ring: the manual
gives neither a router address (log entry 192). -/
opaque egressMac : Nat → Nat

/-- How many words of MRAM a write costs whose slot the manual does not lay out: by index and subindex of a Stored
object, and by a number below 256 for what is no object: 1 a record of accepted counters, 2 the inactive half of the
regulatory partition, 3 its marker, 4 a static bridge row, 5 a W1 mark (R48, R473; DESIGN CHOICE, log entry 19). -/
opaque mramWords : Nat → Nat

/-- Whether the sender asks for an ACK in the DATA frame of an ordered stream, by the frame's number (R235; DESIGN
CHOICE, log entry 191). -/
opaque ackReqOf : Nat → Bool

/-- What the power loop of a radio adds for a supply of so many millivolts, in 0.001 dB (R150; DEDUCED, log entry
180). -/
opaque supplyCorr : Nat → Nat → Int

/-- What the Kraith block holds of a descriptor where the manual lists nothing: by subindex of the block and index
(R80, DESIGN CHOICE, log entry 18). -/
opaque kraithOpen : Nat → Nat → Nat

end Sys2Proof.Config
end

