-- ==== Sys2Proof/Machine/Assoc.lean ====
section
/-!
DEFINITION. Sparse data by key: a list of key and value pairs in one canonical form, keys strictly rising.
Memory and every store of the object dictionary are held this way, so that equal contents are equal data.
-/

namespace Sys2Proof.Machine

/-- The value listed under a key, if the key is listed. -/
def assocGet {α : Type} : List (Nat × α) → Nat → Option α
  | [], _ => none
  | (k, v) :: rest, key => if k = key then some v else assocGet rest key

/-- The list with `key` removed. -/
def assocDel {α : Type} (l : List (Nat × α)) (key : Nat) : List (Nat × α) := l.filter fun c => c.1 != key

/-- The list with `key` holding `value`, in its place of the rising order. -/
def assocPut {α : Type} : List (Nat × α) → Nat → α → List (Nat × α)
  | [], key, value => [(key, value)]
  | (k, v) :: rest, key, value =>
    if key < k then (key, value) :: (k, v) :: rest
    else if k = key then (key, value) :: rest
    else (k, v) :: assocPut rest key value

/-- Keys strictly rise. -/
def assocSorted {α : Type} : List (Nat × α) → Bool
  | [] => true
  | (k, _) :: rest => (rest.all fun c => decide (k < c.1)) && assocSorted rest

end Sys2Proof.Machine
end

