-- ==== Sys2Proof/Machine/Reg.lean ====
section
/-!
DEFINITION. What the object dictionary says of one subindex of an object: type, size, access right, where its value is
held, default and range (R40 to R47), and the sparse stores that hold the values.
-/

namespace Sys2Proof.Machine

/-- The element types of R42. -/
inductive Kind where
  | bool | u | i | fx | bcd | oct | str | time
  deriving DecidableEq, Repr

/-- The access rights of R43. -/
inductive Access where
  | ro | rw | wo | w1 | rwp1 | rwp2 | wop2
  deriving DecidableEq, Repr

/-- Where a value is held. `none`, `retained`, `stored` and `fuse` are the persistence classes of R47; `live` is an
object of class None whose value a unit recomputes or keeps through a warm reset, and `furnace` one that the Furnace
domain keeps for as long as VFUR holds. -/
inductive Home where
  | none | live | furnace | retained | stored | fuse
  deriving DecidableEq, Repr

/-- The default of an object: one value, a cycle over the rows, the row number below a limit and another value
from it on, two values split at a row, or one value for each radio. -/
inductive Dflt where
  | const (v : Nat)
  | cycle (l : List Nat)
  | ident (lim other : Nat)
  | step (lim a b : Nat)
  | radio (a b c : Nat)
  deriving DecidableEq, Repr

/-- The stated range of an object, over its value as an integer. -/
inductive Rng where
  | any
  | span (lo hi : Int)
  | set (l : List Int)
  | mask (m : Nat)
  | spanOr (lo hi x : Int)
  | mult (k lo hi : Nat)
  | bands (l : List (Nat × Nat))
  deriving DecidableEq, Repr

/-- One subindex of the dictionary. `rows` is 0 for an object that is no table. `loc` marks an object that each access
port holds for itself (R51). `radios` has bit 0, 1, 2 for a subindex present on Radio H, M, L; `alts` are the ranges on
Radio M and Radio L where they differ from `rng`. `unsat` marks a counter that the manual does not let saturate. -/
structure Reg where
  idx : Nat
  sub : Nat
  name : String
  kind : Kind
  size : Nat
  acc : Access
  home : Home
  rows : Nat := 0
  dflt : Dflt := .const 0
  rng : Rng := .any
  loc : Bool := false
  radios : Nat := 7
  alts : List Rng := []
  unsat : Bool := false
  deriving DecidableEq, Repr

/-- The number of a radio in the order H, M, L. -/
def radioNum : Radio → Nat
  | .h => 0
  | .m => 1
  | .l => 2

/-- The radio object at the index of this radio: 0x2000, 0x2400 or 0x2800 on (R41). -/
def Reg.of (r : Reg) (x : Radio) : Reg := { r with idx := r.idx + 0x400 * radioNum x }

/-- The engine or mould object at the index of engine `n`: 0x10 apart (R15, R41). -/
def Reg.eng (r : Reg) (n : Nat) : Reg := { r with idx := r.idx + 0x10 * n }

/-- The default of a row (R40, R47). A default that differs by radio or by engine is told from the index. -/
def Reg.default (r : Reg) (row : Nat) : Nat :=
  match r.dflt with
  | .const v => v
  | .cycle l => l.getD ((if 0x7000 ≤ r.idx && decide (r.idx < 0x7100) then (r.idx - 0x7000) / 16 else row) % l.length) 0
  | .ident lim other => if row < lim then row else other
  | .step lim a b => if row < lim then a else b
  | .radio a b c => if r.idx < 0x2400 then a else if r.idx < 0x2800 then b else c

/-- The key of one value: index, subindex and row, or access port for a port-local object. -/
def Reg.key (r : Reg) (row : Nat) : Nat := (r.idx * 256 + r.sub) * 1048576 + row

/-- The greatest unsigned value that the object's octets hold. -/
def Reg.top (r : Reg) : Nat := 256 ^ r.size - 1

/-- What a counter holds once it has counted `n` in all: it stops at its greatest value, and one that the manual does
not let saturate is free past it (DESIGN CHOICE, log entry 9). -/
def Reg.raised (r : Reg) (n : Nat) : Nat :=
  if n ≤ r.top then n
  else if r.unsat then Config.counterPast (r.idx * 256 + r.sub) n % (r.top + 1)
  else r.top

/-- The MRAM slots of the Stored objects beside the values that their newer slots hold (R473, R475): by key, what the
older slot holds where it differs from the default, the keys whose newer or older slot has an uncorrectable word, the
words of MRAM written since manufacture, and the addresses of the words that do not correct in the rest of the MRAM.
-/
structure Slots where
  older : List (Nat × Nat) := []
  newBad : List Nat := []
  oldBad : List Nat := []
  words : Nat := 0
  bad : List Nat := []
  deriving DecidableEq, Repr

/-- A list of keys without one of them. -/
def dropKey (l : List Nat) (k : Nat) : List Nat := l.filter fun x => x != k

/-- The words of a range of MRAM correct again once they are written. -/
def Slots.mend (s : Slots) (a len : Nat) : Slots := { s with bad := s.bad.filter fun w => decide (w + 8 ≤ a) || decide (a + len ≤ w) }

/-- The slots of a key after a write to its older one, or to one that does not correct: what was served before becomes
the older value, and `n` words are written (R473; DEDUCED, log entry 163). -/
def Slots.wrote (s : Slots) (k served default n : Nat) : Slots :=
  { older := if served = default then assocDel s.older k else assocPut s.older k served
    newBad := dropKey s.newBad k
    oldBad := if s.newBad.contains k then s.oldBad else dropKey s.oldBad k
    words := s.words + n }

/-- The stores of the dictionary, one for each home of R47, each listing only values that differ from the default.
`used` are the keys of the W1 objects that MRAM marks as written (R46). -/
structure RegFile where
  plain : List (Nat × Nat) := []
  live : List (Nat × Nat) := []
  furnace : List (Nat × Nat) := []
  retained : List (Nat × Nat) := []
  stored : List (Nat × Nat) := []
  fuse : List (Nat × Nat) := []
  used : List Nat := []
  slots : Slots := {}
  deriving DecidableEq, Repr

/-- The store of a home. -/
def RegFile.sel (f : RegFile) : Home → List (Nat × Nat)
  | .none => f.plain
  | .live => f.live
  | .furnace => f.furnace
  | .retained => f.retained
  | .stored => f.stored
  | .fuse => f.fuse

/-- The file with the store of a home replaced. -/
def RegFile.set (f : RegFile) (h : Home) (l : List (Nat × Nat)) : RegFile :=
  match h with
  | .none => { f with plain := l }
  | .live => { f with live := l }
  | .furnace => { f with furnace := l }
  | .retained => { f with retained := l }
  | .stored => { f with stored := l }
  | .fuse => { f with fuse := l }

/-- The newer MRAM slot of a Stored object's row has an uncorrectable word (R475). -/
def RegFile.slotBad (f : RegFile) (r : Reg) (row : Nat) : Bool := r.home == .stored && f.slots.newBad.contains (r.key row)

/-- The value of an object's row: the listed value, or the default. A Stored object whose newer slot does not correct
is served by the other, and reads its default where neither corrects (R475). -/
def RegFile.get (f : RegFile) (r : Reg) (row : Nat) : Nat :=
  if f.slotBad r row then
    (if f.slots.oldBad.contains (r.key row) then none else assocGet f.slots.older (r.key row)).getD (r.default row)
  else (assocGet (f.sel r.home) (r.key row)).getD (r.default row)

/-- The file with a value listed in an object's store; the default is never listed. -/
def RegFile.list (f : RegFile) (r : Reg) (row v : Nat) : RegFile :=
  f.set r.home
    (if v = r.default row then assocDel (f.sel r.home) (r.key row)
     else assocPut (f.sel r.home) (r.key row) v)

/-- The file with an object's row holding a value. A Stored object is written in MRAM where the value changes, and not
otherwise (R48, R473). -/
def RegFile.put (f : RegFile) (r : Reg) (row v : Nat) : RegFile :=
  if r.home = .stored then
    if v = f.get r row then f
    else
      { f.list r row v with
        slots := f.slots.wrote (r.key row) (f.get r row) (r.default row) (Config.mramWords (r.idx * 256 + r.sub)) }
  else f.list r row v

/-- The bridge table's static rows, of which MRAM keeps a copy: what every reset leaves of the values of class None
(R294). -/
def staticBridge (l : List (Nat × Nat)) : List (Nat × Nat) :=
  l.filter fun c =>
    c.1 / 2 ^ 28 == 0x4300 && (assocGet l ((0x4300 * 256 + 1) * 1048576 + c.1 % 1048576)).getD 0 == 2

/-- Every store is in its canonical order. -/
def RegFile.sorted (f : RegFile) : Bool :=
  assocSorted f.plain && assocSorted f.live && assocSorted f.furnace && assocSorted f.retained &&
    assocSorted f.stored && assocSorted f.fuse && assocSorted f.slots.older

end Sys2Proof.Machine
end

