-- ==== Sys2Proof/Machine/Objects.lean ====
section
/-!
DEFINITION. The objects of the dictionary that every chapter's tables define, one definition for each subindex, and
the table that lists them all in the order of their indices. A radio object is given at its index on Radio H, an
engine or mould object at its index on engine 0. A default that the manual leaves open is marked in the assumption
log, entries 3 to 8.
-/

namespace Sys2Proof.Machine.Obj

/-- 0x1000:01 VENDOR (R391). -/
def vendor : Reg :=
  { idx := 0x1000, sub := 1, name := "VENDOR", kind := .str, size := 8, acc := .ro, home := .fuse, dflt := .const 0x53414845524e0000 }

/-- 0x1000:02 PART (R391). -/
def part : Reg :=
  { idx := 0x1000, sub := 2, name := "PART", kind := .str, size := 8, acc := .ro, home := .fuse, dflt := .const 0x55484c3733343000 }

/-- 0x1000:03 REVISION (R391). -/
def revision : Reg :=
  { idx := 0x1000, sub := 3, name := "REVISION", kind := .str, size := 2, acc := .ro, home := .fuse, dflt := .const 0x4230 }

/-- 0x1001:01 LOT_ID (R391). -/
def lotId : Reg :=
  { idx := 0x1001, sub := 1, name := "LOT_ID", kind := .str, size := 7, acc := .ro, home := .fuse }

/-- 0x1001:02 WAFER (R391). -/
def wafer : Reg :=
  { idx := 0x1001, sub := 2, name := "WAFER", kind := .u, size := 1, acc := .ro, home := .fuse }

/-- 0x1001:03 DIE_X (R391). -/
def dieX : Reg :=
  { idx := 0x1001, sub := 3, name := "DIE_X", kind := .u, size := 1, acc := .ro, home := .fuse }

/-- 0x1001:04 DIE_Y (R391). -/
def dieY : Reg :=
  { idx := 0x1001, sub := 4, name := "DIE_Y", kind := .u, size := 1, acc := .ro, home := .fuse }

/-- 0x1001:05 TEST_SITE (R391). -/
def testSite : Reg :=
  { idx := 0x1001, sub := 5, name := "TEST_SITE", kind := .str, size := 4, acc := .ro, home := .fuse }

/-- 0x1001:06 TEST_DATE (R391). -/
def testDate : Reg :=
  { idx := 0x1001, sub := 6, name := "TEST_DATE", kind := .bcd, size := 4, acc := .ro, home := .fuse }

/-- 0x1001:07 EUI64 (R391). -/
def eui64 : Reg :=
  { idx := 0x1001, sub := 7, name := "EUI64", kind := .oct, size := 8, acc := .ro, home := .fuse }

/-- 0x1001:08 STRAIN_BASELINE (R391). -/
def strainBaseline : Reg :=
  { idx := 0x1001, sub := 8, name := "STRAIN_BASELINE", kind := .oct, size := 96, acc := .ro, home := .fuse,
    dflt := .const 0x400040004000400040004000400040004000400040004000400040004000400040004000400040004000400040004000400040004000400040004000400040004000400040004000400040004000400040004000400040004000400040004000 }

/-- 0x1001:09 BASELINE_S (R391). -/
def baselineS : Reg :=
  { idx := 0x1001, sub := 9, name := "BASELINE_S", kind := .fx, size := 4, acc := .ro, home := .fuse, dflt := .const 65536 }

/-- 0x1001:0A IDENTITY_CRC (R391). -/
def identityCrc : Reg :=
  { idx := 0x1001, sub := 10, name := "IDENTITY_CRC", kind := .u, size := 4, acc := .ro, home := .fuse,
    dflt := .const 0xc2cb16dd }

/-- 0x1001:0B IDENTITY_OK (R391). -/
def identityOk : Reg :=
  { idx := 0x1001, sub := 11, name := "IDENTITY_OK", kind := .bool, size := 1, acc := .ro, home := .furnace }

/-- 0x1008:01 ASSET_TAG (R393). -/
def assetTag : Reg :=
  { idx := 0x1008, sub := 1, name := "ASSET_TAG", kind := .str, size := 32, acc := .rwp2, home := .stored }

/-- 0x1008:02 POLE_REF (R393). -/
def poleRef : Reg :=
  { idx := 0x1008, sub := 2, name := "POLE_REF", kind := .str, size := 32, acc := .rwp2, home := .stored }

/-- 0x1008:03 OWNER_ID (R393). -/
def ownerId : Reg :=
  { idx := 0x1008, sub := 3, name := "OWNER_ID", kind := .oct, size := 16, acc := .rwp2, home := .stored }

/-- 0x1008:04 BINDING_SEQ (R393). -/
def bindingSeq : Reg :=
  { idx := 0x1008, sub := 4, name := "BINDING_SEQ", kind := .u, size := 4, acc := .ro, home := .stored, unsat := true }

/-- 0x1010:01 PORT_ID (R51). -/
def portId : Reg :=
  { idx := 0x1010, sub := 1, name := "PORT_ID", kind := .u, size := 1, acc := .ro, home := .none, loc := true }

/-- 0x1010:02 ROW_CURSOR (R51). -/
def rowCursor : Reg :=
  { idx := 0x1010, sub := 2, name := "ROW_CURSOR", kind := .u, size := 4, acc := .rw, home := .none, loc := true }

/-- 0x1010:03 CURSOR_AUTOINC (R51). -/
def cursorAutoinc : Reg :=
  { idx := 0x1010, sub := 3, name := "CURSOR_AUTOINC", kind := .bool, size := 1, acc := .rw, home := .none, loc := true }

/-- 0x1010:04 SEG_OFFSET (R51). -/
def segOffset : Reg :=
  { idx := 0x1010, sub := 4, name := "SEG_OFFSET", kind := .u, size := 4, acc := .rw, home := .none, rng := .mult 16 0 4080, loc := true }

/-- 0x1010:05 LAST_RESULT (R51). -/
def lastResult : Reg :=
  { idx := 0x1010, sub := 5, name := "LAST_RESULT", kind := .u, size := 1, acc := .ro, home := .none, loc := true }

/-- 0x1010:06 ERROR_COUNT (R51). -/
def errorCount : Reg :=
  { idx := 0x1010, sub := 6, name := "ERROR_COUNT", kind := .u, size := 4, acc := .ro, home := .none, loc := true }

/-- 0x1011:01 COMMITS (R79). -/
def commits : Reg :=
  { idx := 0x1011, sub := 1, name := "COMMITS", kind := .u, size := 8, acc := .ro, home := .none, unsat := true }

/-- 0x1011:02 REFUSED (R79). -/
def refused : Reg :=
  { idx := 0x1011, sub := 2, name := "REFUSED", kind := .u, size := 4, acc := .ro, home := .none }

/-- 0x1011:03 AGED (R79). -/
def aged : Reg :=
  { idx := 0x1011, sub := 3, name := "AGED", kind := .u, size := 4, acc := .ro, home := .none }

/-- 0x1011:04 AUTH_DISCARD (R79). -/
def authDiscard : Reg :=
  { idx := 0x1011, sub := 4, name := "AUTH_DISCARD", kind := .u, size := 4, acc := .ro, home := .none, unsat := true }

/-- 0x1011:05 DUP_REQUEST (R79). -/
def dupRequest : Reg :=
  { idx := 0x1011, sub := 5, name := "DUP_REQUEST", kind := .u, size := 4, acc := .ro, home := .none, unsat := true }

/-- 0x1011:06 FRAME_DISCARD (R79). -/
def frameDiscard : Reg :=
  { idx := 0x1011, sub := 6, name := "FRAME_DISCARD", kind := .u, size := 4, acc := .ro, home := .none }

/-- 0x1011:07 DEFAULTS_RESTORE (R79). -/
def defaultsRestore : Reg :=
  { idx := 0x1011, sub := 7, name := "DEFAULTS_RESTORE", kind := .u, size := 1, acc := .rwp1, home := .none, rng := .span (0) (2) }

/-- 0x1012:01 UDP_PORT (R79). -/
def udpPort : Reg :=
  { idx := 0x1012, sub := 1, name := "UDP_PORT", kind := .u, size := 2, acc := .rwp1, home := .stored, dflt := .const 47340, rng := .span (1) (65535) }

/-- 0x1012:02 UDP_ENABLE (R79). -/
def udpEnable : Reg :=
  { idx := 0x1012, sub := 2, name := "UDP_ENABLE", kind := .bool, size := 1, acc := .rwp1, home := .stored, dflt := .const 1 }

/-- 0x1012:03 CAN_NODE (R79). -/
def canNode : Reg :=
  { idx := 0x1012, sub := 3, name := "CAN_NODE", kind := .u, size := 1, acc := .rwp1, home := .stored, dflt := .const 16, rng := .span (1) (127) }

/-- 0x1012:04 CAN_ENABLE (R79). -/
def canEnable : Reg :=
  { idx := 0x1012, sub := 4, name := "CAN_ENABLE", kind := .bool, size := 1, acc := .rwp1, home := .stored, dflt := .const 1 }

/-- 0x1012:05 CAN_WRITE_ENABLE (R79). -/
def canWriteEnable : Reg :=
  { idx := 0x1012, sub := 5, name := "CAN_WRITE_ENABLE", kind := .bool, size := 1, acc := .rwp1, home := .stored, dflt := .const 1 }

/-- 0x1012:06 CONSOLE_BAUD (R79). -/
def consoleBaud : Reg :=
  { idx := 0x1012, sub := 6, name := "CONSOLE_BAUD", kind := .u, size := 4, acc := .rwp1, home := .stored, dflt := .const 115200, rng := .span (9600) (3000000) }

/-- 0x1012:07 MESH_ENABLE (R79). -/
def meshEnable : Reg :=
  { idx := 0x1012, sub := 7, name := "MESH_ENABLE", kind := .bool, size := 1, acc := .rwp1, home := .stored, dflt := .const 1 }

/-- 0x1012:08 RESP_CACHE_TIME (R79). -/
def respCacheTime : Reg :=
  { idx := 0x1012, sub := 8, name := "RESP_CACHE_TIME", kind := .u, size := 2, acc := .rw, home := .stored, dflt := .const 30, rng := .span (5) (300) }

/-- 0x1013:01 NOTICE_RETRY (R79). -/
def noticeRetry : Reg :=
  { idx := 0x1013, sub := 1, name := "NOTICE_RETRY", kind := .u, size := 2, acc := .rw, home := .stored, dflt := .const 2000, rng := .span (100) (60000) }

/-- 0x1013:02 NOTICE_LOST (R79). -/
def noticeLost : Reg :=
  { idx := 0x1013, sub := 2, name := "NOTICE_LOST", kind := .u, size := 4, acc := .ro, home := .none }

/-- 0x1013:03 NOTICE_SEQ_NEXT (R79). -/
def noticeSeqNext : Reg :=
  { idx := 0x1013, sub := 3, name := "NOTICE_SEQ_NEXT", kind := .u, size := 4, acc := .ro, home := .retained }

/-- 0x1013:04 NOTICE_CAN_DEST (R79). -/
def noticeCanDest : Reg :=
  { idx := 0x1013, sub := 4, name := "NOTICE_CAN_DEST", kind := .u, size := 1, acc := .rw, home := .stored, rng := .span (0) (127) }

/-- 0x1013:05 NOTICE_CONSOLE (R79). -/
def noticeConsole : Reg :=
  { idx := 0x1013, sub := 5, name := "NOTICE_CONSOLE", kind := .bool, size := 1, acc := .rw, home := .stored, dflt := .const 1 }

/-- 0x1014[n]:01 ENABLE (R71). -/
def peerEnable : Reg :=
  { idx := 0x1014, sub := 1, name := "ENABLE", kind := .bool, size := 1, acc := .rwp1, home := .stored, rows := 16 }

/-- 0x1014[n]:02 RIGHTS (R71). -/
def peerRights : Reg :=
  { idx := 0x1014, sub := 2, name := "RIGHTS", kind := .u, size := 1, acc := .rwp1, home := .stored, rows := 16, rng := .set [0, 1] }

/-- 0x1014[n]:03 CTX_RX (R71). -/
def peerCtxRx : Reg :=
  { idx := 0x1014, sub := 3, name := "CTX_RX", kind := .u, size := 2, acc := .rwp1, home := .stored, rows := 16, rng := .span (0) (2047) }

/-- 0x1014[n]:04 CTX_TX (R71). -/
def peerCtxTx : Reg :=
  { idx := 0x1014, sub := 4, name := "CTX_TX", kind := .u, size := 2, acc := .rwp1, home := .stored, rows := 16, rng := .span (0) (2047) }

/-- 0x1014[n]:05 ADDR (R71). -/
def peerAddr : Reg :=
  { idx := 0x1014, sub := 5, name := "ADDR", kind := .oct, size := 16, acc := .rwp1, home := .stored, rows := 16 }

/-- 0x1014[n]:06 CANE_LINK (R71). -/
def peerCaneLink : Reg :=
  { idx := 0x1014, sub := 6, name := "CANE_LINK", kind := .u, size := 1, acc := .rwp1, home := .stored, rows := 16, dflt := .const 255, rng := .spanOr (0) (31) 255 }

/-- 0x1014[n]:07 NOTICES (R71). -/
def peerNotices : Reg :=
  { idx := 0x1014, sub := 7, name := "NOTICES", kind := .bool, size := 1, acc := .rwp1, home := .stored, rows := 16 }

/-- 0x1020[n]:01 INDEX (R80). -/
def krIndex : Reg :=
  { idx := 0x1020, sub := 1, name := "INDEX", kind := .u, size := 2, acc := .ro, home := .fuse, rows := 4096 }

/-- 0x1020[n]:02 SUB (R80). -/
def krSub : Reg :=
  { idx := 0x1020, sub := 2, name := "SUB", kind := .u, size := 1, acc := .ro, home := .fuse, rows := 4096 }

/-- 0x1020[n]:03 TYPE (R80). -/
def krType : Reg :=
  { idx := 0x1020, sub := 3, name := "TYPE", kind := .u, size := 1, acc := .ro, home := .fuse, rows := 4096 }

/-- 0x1020[n]:04 SIZE (R80). -/
def krSize : Reg :=
  { idx := 0x1020, sub := 4, name := "SIZE", kind := .u, size := 2, acc := .ro, home := .fuse, rows := 4096 }

/-- 0x1020[n]:05 ACCESS (R80). -/
def krAccess : Reg :=
  { idx := 0x1020, sub := 5, name := "ACCESS", kind := .u, size := 1, acc := .ro, home := .fuse, rows := 4096 }

/-- 0x1020[n]:06 PERSIST (R80). -/
def krPersist : Reg :=
  { idx := 0x1020, sub := 6, name := "PERSIST", kind := .u, size := 1, acc := .ro, home := .fuse, rows := 4096 }

/-- 0x1020[n]:07 ROWS (R80). -/
def krRows : Reg :=
  { idx := 0x1020, sub := 7, name := "ROWS", kind := .u, size := 2, acc := .ro, home := .fuse, rows := 4096 }

/-- 0x1020[n]:08 DOMAIN (R80). -/
def krDomain : Reg :=
  { idx := 0x1020, sub := 8, name := "DOMAIN", kind := .u, size := 1, acc := .ro, home := .fuse, rows := 4096 }

/-- 0x1020[n]:09 MIN (R80). -/
def krMin : Reg :=
  { idx := 0x1020, sub := 9, name := "MIN", kind := .oct, size := 8, acc := .ro, home := .fuse, rows := 4096 }

/-- 0x1020[n]:0A MAX (R80). -/
def krMax : Reg :=
  { idx := 0x1020, sub := 10, name := "MAX", kind := .oct, size := 8, acc := .ro, home := .fuse, rows := 4096 }

/-- 0x1020[n]:0B DEFAULT (R80). -/
def krDefault : Reg :=
  { idx := 0x1020, sub := 11, name := "DEFAULT", kind := .oct, size := 16, acc := .ro, home := .fuse, rows := 4096 }

/-- 0x1020[n]:0C NAME (R80). -/
def krName : Reg :=
  { idx := 0x1020, sub := 12, name := "NAME", kind := .str, size := 24, acc := .ro, home := .fuse, rows := 4096 }

/-- 0x1021:01 KRAITH_ROWS (R80). -/
def kraithRows : Reg :=
  { idx := 0x1021, sub := 1, name := "KRAITH_ROWS", kind := .u, size := 4, acc := .ro, home := .none }

/-- 0x1021:02 KRAITH_CRC (R80). -/
def kraithCrc : Reg :=
  { idx := 0x1021, sub := 2, name := "KRAITH_CRC", kind := .u, size := 4, acc := .ro, home := .none }

/-- 0x1100:01 TIER (R400). -/
def tier : Reg :=
  { idx := 0x1100, sub := 1, name := "TIER", kind := .u, size := 1, acc := .ro, home := .none }

/-- 0x1100:02 WINDOW_OPEN (R400). -/
def windowOpen : Reg :=
  { idx := 0x1100, sub := 2, name := "WINDOW_OPEN", kind := .bool, size := 1, acc := .ro, home := .none }

/-- 0x1100:03 WINDOW_REMAIN (R400). -/
def windowRemain : Reg :=
  { idx := 0x1100, sub := 3, name := "WINDOW_REMAIN", kind := .u, size := 2, acc := .ro, home := .none }

/-- 0x1100:04 PRESENCE_WINDOW (R400). -/
def presenceWindow : Reg :=
  { idx := 0x1100, sub := 4, name := "PRESENCE_WINDOW", kind := .u, size := 2, acc := .rwp1, home := .stored, dflt := .const 600, rng := .span (60) (3600) }

/-- 0x1100:05 PRESENCE_CLOSE (R400). -/
def presenceClose : Reg :=
  { idx := 0x1100, sub := 5, name := "PRESENCE_CLOSE", kind := .bool, size := 1, acc := .rw, home := .none }

/-- 0x1100:06 PRESENCE_SEQ (R400). -/
def presenceSeq : Reg :=
  { idx := 0x1100, sub := 6, name := "PRESENCE_SEQ", kind := .u, size := 4, acc := .ro, home := .stored, unsat := true }

/-- 0x1100:07 MAINT_FITTED (R400). -/
def maintFitted : Reg :=
  { idx := 0x1100, sub := 7, name := "MAINT_FITTED", kind := .bool, size := 1, acc := .ro, home := .none }

/-- 0x1101:01 SEAL_ENABLE (R400). -/
def sealEnable : Reg :=
  { idx := 0x1101, sub := 1, name := "SEAL_ENABLE", kind := .bool, size := 1, acc := .rwp2, home := .stored }

/-- 0x1101:02 SEAL_PERIOD (R400). -/
def sealPeriod : Reg :=
  { idx := 0x1101, sub := 2, name := "SEAL_PERIOD", kind := .u, size := 2, acc := .rwp2, home := .stored, dflt := .const 1000, rng := .span (250) (10000) }

/-- 0x1101:03 SEAL_CODING (R400). -/
def sealCoding : Reg :=
  { idx := 0x1101, sub := 3, name := "SEAL_CODING", kind := .u, size := 1, acc := .rwp2, home := .stored, rng := .set [0, 1] }

/-- 0x1101:04 SEAL_SAMPLE (R400). -/
def sealSample : Reg :=
  { idx := 0x1101, sub := 4, name := "SEAL_SAMPLE", kind := .u, size := 1, acc := .rwp2, home := .stored, dflt := .const 5, rng := .span (1) (9) }

/-- 0x1101:05 SEAL_STATE (R400). -/
def sealState : Reg :=
  { idx := 0x1101, sub := 5, name := "SEAL_STATE", kind := .u, size := 1, acc := .ro, home := .furnace }

/-- 0x1101:06 SEAL_TRIPPED (R400). -/
def sealTripped : Reg :=
  { idx := 0x1101, sub := 6, name := "SEAL_TRIPPED", kind := .bool, size := 1, acc := .ro, home := .stored }

/-- 0x1101:07 SEAL_CLEAR (R400). -/
def sealClear : Reg :=
  { idx := 0x1101, sub := 7, name := "SEAL_CLEAR", kind := .bool, size := 1, acc := .rwp1, home := .none }

/-- 0x1101:08 SEAL_EVENTS (R400). -/
def sealEvents : Reg :=
  { idx := 0x1101, sub := 8, name := "SEAL_EVENTS", kind := .u, size := 4, acc := .ro, home := .stored }

/-- 0x1101:09 SEAL_LAST_CAUSE (R400). -/
def sealLastCause : Reg :=
  { idx := 0x1101, sub := 9, name := "SEAL_LAST_CAUSE", kind := .u, size := 1, acc := .ro, home := .stored }

/-- 0x1200:01 SEQ_LO (R412). -/
def seqLo : Reg :=
  { idx := 0x1200, sub := 1, name := "SEQ_LO", kind := .u, size := 4, acc := .ro, home := .none }

/-- 0x1200:02 SEQ_HI (R412). -/
def seqHi : Reg :=
  { idx := 0x1200, sub := 2, name := "SEQ_HI", kind := .u, size := 4, acc := .ro, home := .none }

/-- 0x1200:03 FF_USED (R412). -/
def ffUsed : Reg :=
  { idx := 0x1200, sub := 3, name := "FF_USED", kind := .u, size := 1, acc := .ro, home := .furnace }

/-- 0x1200:04 TORN (R412). -/
def torn : Reg :=
  { idx := 0x1200, sub := 4, name := "TORN", kind := .u, size := 4, acc := .ro, home := .furnace }

/-- 0x1200:05 QUEUE_DEPTH (R412). -/
def queueDepth : Reg :=
  { idx := 0x1200, sub := 5, name := "QUEUE_DEPTH", kind := .u, size := 1, acc := .ro, home := .none }

/-- 0x1210[n]:01 RECORD (R412). -/
def culletRecord : Reg :=
  { idx := 0x1210, sub := 1, name := "RECORD", kind := .oct, size := 128, acc := .ro, home := .stored, rows := 2048 }

/-- 0x1300:01 MODE_CURRENT (R107). -/
def modeCurrent : Reg :=
  { idx := 0x1300, sub := 1, name := "MODE_CURRENT", kind := .u, size := 1, acc := .ro, home := .none }

/-- 0x1300:02 MODE_REQUEST (R107). -/
def modeRequest : Reg :=
  { idx := 0x1300, sub := 2, name := "MODE_REQUEST", kind := .u, size := 1, acc := .rw, home := .none, rng := .span (1) (6) }

/-- 0x1300:03 TRANSITION (R107). -/
def transition : Reg :=
  { idx := 0x1300, sub := 3, name := "TRANSITION", kind := .u, size := 1, acc := .ro, home := .none }

/-- 0x1300:04 TARGET (R107). -/
def target : Reg :=
  { idx := 0x1300, sub := 4, name := "TARGET", kind := .u, size := 1, acc := .ro, home := .none }

/-- 0x1300:05 MAINT_BASE (R107). -/
def maintBase : Reg :=
  { idx := 0x1300, sub := 5, name := "MAINT_BASE", kind := .u, size := 1, acc := .ro, home := .furnace }

/-- 0x1300:06 ENTRY_ABANDONED (R107). -/
def entryAbandoned : Reg :=
  { idx := 0x1300, sub := 6, name := "ENTRY_ABANDONED", kind := .bool, size := 1, acc := .ro, home := .furnace }

/-- 0x1300:07 TRANSITIONS (R107). -/
def transitions : Reg :=
  { idx := 0x1300, sub := 7, name := "TRANSITIONS", kind := .u, size := 4, acc := .ro, home := .retained }

/-- 0x1300:08 NIGHT_TARGET (R107). -/
def nightTarget : Reg :=
  { idx := 0x1300, sub := 8, name := "NIGHT_TARGET", kind := .u, size := 1, acc := .rw, home := .stored, dflt := .const 5, rng := .span (3) (5) }

/-- 0x1300:09 DAY_TARGET (R107). -/
def dayTarget : Reg :=
  { idx := 0x1300, sub := 9, name := "DAY_TARGET", kind := .u, size := 1, acc := .rw, home := .stored, dflt := .const 2, rng := .span (1) (3) }

/-- 0x1300:0A UNPOWERED_TARGET (R107). -/
def unpoweredTarget : Reg :=
  { idx := 0x1300, sub := 10, name := "UNPOWERED_TARGET", kind := .u, size := 1, acc := .rw, home := .stored, dflt := .const 3, rng := .span (2) (3) }

/-- 0x1300:0B POWERFAIL_TARGET (R107). -/
def powerfailTarget : Reg :=
  { idx := 0x1300, sub := 11, name := "POWERFAIL_TARGET", kind := .u, size := 1, acc := .rw, home := .stored, dflt := .const 1, rng := .span (1) (2) }

/-- 0x1301:01 DOMAIN_STATE (R107). -/
def domainState : Reg :=
  { idx := 0x1301, sub := 1, name := "DOMAIN_STATE", kind := .u, size := 2, acc := .ro, home := .none }

/-- 0x1302:01 CHIP_IDLE_TIME (R107). -/
def chipIdleTime : Reg :=
  { idx := 0x1302, sub := 1, name := "CHIP_IDLE_TIME", kind := .u, size := 4, acc := .rw, home := .stored, dflt := .const 300, rng := .span (10) (86400) }

/-- 0x1302:02 CHIP_IDLE_MODES (R107). -/
def chipIdleModes : Reg :=
  { idx := 0x1302, sub := 2, name := "CHIP_IDLE_MODES", kind := .u, size := 1, acc := .rw, home := .stored, dflt := .const 12, rng := .mask 0xC }

/-- 0x1302:03 DRAM_IDLE (R107). -/
def dramIdle : Reg :=
  { idx := 0x1302, sub := 3, name := "DRAM_IDLE", kind := .u, size := 2, acc := .rw, home := .stored, dflt := .const 50, rng := .span (10) (10000) }

/-- 0x1302:04 ETH_IDLE (R107). -/
def ethIdle : Reg :=
  { idx := 0x1302, sub := 4, name := "ETH_IDLE", kind := .u, size := 2, acc := .rw, home := .stored, dflt := .const 10, rng := .span (1) (3600) }

/-- 0x1302:05 RADIO_IDLE (R107). -/
def radioIdle : Reg :=
  { idx := 0x1302, sub := 5, name := "RADIO_IDLE", kind := .u, size := 2, acc := .rw, home := .stored, dflt := .const 1000, rng := .span (10) (60000) }

/-- 0x1310[n]:01 VALID (R107). -/
def schedValid : Reg :=
  { idx := 0x1310, sub := 1, name := "VALID", kind := .bool, size := 1, acc := .rw, home := .stored, rows := 16 }

/-- 0x1310[n]:02 FIRST_DAY (R107). -/
def schedFirstDay : Reg :=
  { idx := 0x1310, sub := 2, name := "FIRST_DAY", kind := .u, size := 2, acc := .rw, home := .stored, rows := 16, dflt := .const 1, rng := .span (1) (366) }

/-- 0x1310[n]:03 DUSK (R107). -/
def schedDusk : Reg :=
  { idx := 0x1310, sub := 3, name := "DUSK", kind := .u, size := 4, acc := .rw, home := .stored, rows := 16, rng := .span (0) (86399) }

/-- 0x1310[n]:04 DAWN (R107). -/
def schedDawn : Reg :=
  { idx := 0x1310, sub := 4, name := "DAWN", kind := .u, size := 4, acc := .rw, home := .stored, rows := 16, rng := .span (0) (86399) }

/-- 0x1311:01 SCHED_ENABLE (R107). -/
def schedEnable : Reg :=
  { idx := 0x1311, sub := 1, name := "SCHED_ENABLE", kind := .bool, size := 1, acc := .rw, home := .stored }

/-- 0x1311:02 DRAIN_LEAD (R107). -/
def drainLead : Reg :=
  { idx := 0x1311, sub := 2, name := "DRAIN_LEAD", kind := .u, size := 2, acc := .rw, home := .stored, dflt := .const 120, rng := .span (30) (1800) }

/-- 0x1311:03 ANNOUNCE_TIME (R107). -/
def announceTime : Reg :=
  { idx := 0x1311, sub := 3, name := "ANNOUNCE_TIME", kind := .u, size := 2, acc := .rw, home := .stored, dflt := .const 30, rng := .span (0) (600) }

/-- 0x1311:04 DRAIN_GUARD (R107). -/
def drainGuard : Reg :=
  { idx := 0x1311, sub := 4, name := "DRAIN_GUARD", kind := .u, size := 2, acc := .rw, home := .stored, dflt := .const 10, rng := .span (5) (300) }

/-- 0x1311:05 DUSK_LEAD (R107). -/
def duskLead : Reg :=
  { idx := 0x1311, sub := 5, name := "DUSK_LEAD", kind := .u, size := 2, acc := .rw, home := .stored, dflt := .const 60, rng := .span (0) (3600) }

/-- 0x1311:06 DRAIN_FLUSHED (R107). -/
def drainFlushed : Reg :=
  { idx := 0x1311, sub := 6, name := "DRAIN_FLUSHED", kind := .u, size := 4, acc := .ro, home := .retained }

/-- 0x1320:01 DW_POLL_INTERVAL (R107). -/
def dwPollInterval : Reg :=
  { idx := 0x1320, sub := 1, name := "DW_POLL_INTERVAL", kind := .u, size := 2, acc := .rw, home := .stored, dflt := .const 60, rng := .span (5) (3600) }

/-- 0x1320:02 DW_PARENT (R107). -/
def dwParent : Reg :=
  { idx := 0x1320, sub := 2, name := "DW_PARENT", kind := .u, size := 2, acc := .rw, home := .stored, dflt := .const 65535, rng := .spanOr (0) (1023) 65535 }

/-- 0x1330:01 WAKE_ENABLE (R107). -/
def wakeEnable : Reg :=
  { idx := 0x1330, sub := 1, name := "WAKE_ENABLE", kind := .u, size := 1, acc := .rw, home := .stored, dflt := .const 15, rng := .mask 0x3F }

/-- 0x1330:02 WAKE_GPIO_MASK (R107). -/
def wakeGpioMask : Reg :=
  { idx := 0x1330, sub := 2, name := "WAKE_GPIO_MASK", kind := .u, size := 4, acc := .rw, home := .stored, rng := .mask 0xFFFFFF }

/-- 0x1330:03 WAKE_GPIO_LEVEL (R107). -/
def wakeGpioLevel : Reg :=
  { idx := 0x1330, sub := 3, name := "WAKE_GPIO_LEVEL", kind := .u, size := 4, acc := .rw, home := .stored, rng := .mask 0xFFFFFF }

/-- 0x1330:04 WAKE_ALARM_DELAY (R107). -/
def wakeAlarmDelay : Reg :=
  { idx := 0x1330, sub := 4, name := "WAKE_ALARM_DELAY", kind := .u, size := 4, acc := .rw, home := .stored, rng := .spanOr (60) (31536000) 0 }

/-- 0x1330:05 WAKE_CAUSE (R107). -/
def wakeCause : Reg :=
  { idx := 0x1330, sub := 5, name := "WAKE_CAUSE", kind := .u, size := 1, acc := .ro, home := .furnace }

/-- 0x1330:06 WAKE_COUNT (R107). -/
def wakeCount : Reg :=
  { idx := 0x1330, sub := 6, name := "WAKE_COUNT", kind := .u, size := 4, acc := .ro, home := .furnace, unsat := true }

/-- 0x1400[n]:01 CELL_S (R433). -/
def cellCellS : Reg :=
  { idx := 0x1400, sub := 1, name := "CELL_S", kind := .fx, size := 4, acc := .ro, home := .live, rows := 48 }

/-- 0x1400[n]:02 CELL_LOSS (R433). -/
def cellCellLoss : Reg :=
  { idx := 0x1400, sub := 2, name := "CELL_LOSS", kind := .fx, size := 4, acc := .ro, home := .retained, rows := 48 }

/-- 0x1400[n]:03 CELL_DOMAIN (R433). -/
def cellCellDomain : Reg :=
  { idx := 0x1400, sub := 3, name := "CELL_DOMAIN", kind := .u, size := 1, acc := .ro, home := .fuse, rows := 48, dflt := .step 40 2 1 }

/-- 0x1401:01 S_MIN (R433). -/
def sMin : Reg :=
  { idx := 0x1401, sub := 1, name := "S_MIN", kind := .fx, size := 4, acc := .ro, home := .live }

/-- 0x1401:02 S_MIN_CELL (R433). -/
def sMinCell : Reg :=
  { idx := 0x1401, sub := 2, name := "S_MIN_CELL", kind := .u, size := 1, acc := .ro, home := .live }

/-- 0x1401:03 AGE_LOSS (R433). -/
def ageLoss : Reg :=
  { idx := 0x1401, sub := 3, name := "AGE_LOSS", kind := .fx, size := 4, acc := .ro, home := .stored }

/-- 0x1401:04 EFFECTIVE_AGE (R433). -/
def effectiveAge : Reg :=
  { idx := 0x1401, sub := 4, name := "EFFECTIVE_AGE", kind := .u, size := 4, acc := .ro, home := .stored, unsat := true }

/-- 0x1401:05 MARGIN_YEARS (R433). -/
def marginYears : Reg :=
  { idx := 0x1401, sub := 5, name := "MARGIN_YEARS", kind := .fx, size := 4, acc := .ro, home := .stored, dflt := .const 6553600 }

/-- 0x1401:06 MARGIN_YEARS_NOM (R433). -/
def marginYearsNom : Reg :=
  { idx := 0x1401, sub := 6, name := "MARGIN_YEARS_NOM", kind := .fx, size := 4, acc := .ro, home := .stored, dflt := .const 6553600 }

/-- 0x1401:07 MARGIN_WARN (R433). -/
def marginWarn : Reg :=
  { idx := 0x1401, sub := 7, name := "MARGIN_WARN", kind := .fx, size := 4, acc := .rw, home := .stored, dflt := .const 131072, rng := .span (0) (6553600) }

/-- 0x1401:08 STRAIN_WINDOW (R433). -/
def strainWindow : Reg :=
  { idx := 0x1401, sub := 8, name := "STRAIN_WINDOW", kind := .u, size := 4, acc := .rw, home := .stored, dflt := .const 32000, rng := .span (3200) (320000) }

/-- 0x1402:01 VCORE_NOW (R433). -/
def vcoreNow : Reg :=
  { idx := 0x1402, sub := 1, name := "VCORE_NOW", kind := .u, size := 2, acc := .ro, home := .furnace, dflt := .const 750 }

/-- 0x1402:02 VCORE_MIN (R433). -/
def vcoreMin : Reg :=
  { idx := 0x1402, sub := 2, name := "VCORE_MIN", kind := .u, size := 2, acc := .rwp1, home := .stored, dflt := .const 750, rng := .span (700) (750) }

/-- 0x1402:03 VCORE_MAX (R433). -/
def vcoreMax : Reg :=
  { idx := 0x1402, sub := 3, name := "VCORE_MAX", kind := .u, size := 2, acc := .rwp1, home := .stored, dflt := .const 820, rng := .span (750) (850) }

/-- 0x1402:04 VCORE_PAGE (R433). -/
def vcorePage : Reg :=
  { idx := 0x1402, sub := 4, name := "VCORE_PAGE", kind := .u, size := 1, acc := .rwp1, home := .stored, rng := .span (0) (31) }

/-- 0x1402:05 VCORE_SETTLE (R433). -/
def vcoreSettle : Reg :=
  { idx := 0x1402, sub := 5, name := "VCORE_SETTLE", kind := .u, size := 2, acc := .rw, home := .stored, dflt := .const 200, rng := .span (50) (5000) }

/-- 0x1402:06 PMBUS_FAIL (R433). -/
def pmbusFail : Reg :=
  { idx := 0x1402, sub := 6, name := "PMBUS_FAIL", kind := .u, size := 4, acc := .ro, home := .retained }

/-- 0x1403:01 LEHR_PERIOD (R433). -/
def lehrPeriod : Reg :=
  { idx := 0x1403, sub := 1, name := "LEHR_PERIOD", kind := .u, size := 4, acc := .rw, home := .stored, dflt := .const 86400, rng := .span (3600) (604800) }

/-- 0x1403:02 LEHR_MARGIN (R433). -/
def lehrMargin : Reg :=
  { idx := 0x1403, sub := 2, name := "LEHR_MARGIN", kind := .u, size := 1, acc := .rw, home := .stored, dflt := .const 5, rng := .span (2) (20) }

/-- 0x1403:03 LEHR_HYST (R433). -/
def lehrHyst : Reg :=
  { idx := 0x1403, sub := 3, name := "LEHR_HYST", kind := .u, size := 1, acc := .rw, home := .stored, dflt := .const 3, rng := .span (1) (10) }

/-- 0x1403:04 LEHR_TEMP_STEP (R433). -/
def lehrTempStep : Reg :=
  { idx := 0x1403, sub := 4, name := "LEHR_TEMP_STEP", kind := .u, size := 1, acc := .rw, home := .stored, dflt := .const 10, rng := .span (2) (40) }

/-- 0x1403:05 LEHR_STEP (R433). -/
def lehrStep : Reg :=
  { idx := 0x1403, sub := 5, name := "LEHR_STEP", kind := .u, size := 1, acc := .ro, home := .retained }

/-- 0x1403:06 LEHR_RUN (R433). -/
def lehrRun : Reg :=
  { idx := 0x1403, sub := 6, name := "LEHR_RUN", kind := .bool, size := 1, acc := .rw, home := .none }

/-- 0x1403:07 LEHR_PASSES (R433). -/
def lehrPasses : Reg :=
  { idx := 0x1403, sub := 7, name := "LEHR_PASSES", kind := .u, size := 4, acc := .ro, home := .stored }

/-- 0x1403:08 LEHR_LAST (R433). -/
def lehrLast : Reg :=
  { idx := 0x1403, sub := 8, name := "LEHR_LAST", kind := .time, size := 14, acc := .ro, home := .retained }

/-- 0x1403:09 LEHR_SHORT (R433). -/
def lehrShort : Reg :=
  { idx := 0x1403, sub := 9, name := "LEHR_SHORT", kind := .bool, size := 1, acc := .ro, home := .retained }

/-- 0x1404[n]:01 S_REQ (R433). -/
def planSReq : Reg :=
  { idx := 0x1404, sub := 1, name := "S_REQ", kind := .fx, size := 4, acc := .ro, home := .fuse, rows := 4, dflt := .cycle [53740, 49807, 44564, 36045] }

/-- 0x1410:01 TJ_NOW (R434). -/
def tjNow : Reg :=
  { idx := 0x1410, sub := 1, name := "TJ_NOW", kind := .i, size := 2, acc := .ro, home := .furnace }

/-- 0x1410:02 TJ_PEAK (R434). -/
def tjPeak : Reg :=
  { idx := 0x1410, sub := 2, name := "TJ_PEAK", kind := .i, size := 2, acc := .ro, home := .retained }

/-- 0x1410:03 THERMAL_ENTER (R434). -/
def thermalEnter : Reg :=
  { idx := 0x1410, sub := 3, name := "THERMAL_ENTER", kind := .u, size := 1, acc := .rw, home := .stored, dflt := .const 118, rng := .span (100) (124) }

/-- 0x1410:04 THERMAL_EXIT (R434). -/
def thermalExit : Reg :=
  { idx := 0x1410, sub := 4, name := "THERMAL_EXIT", kind := .u, size := 1, acc := .rw, home := .stored, dflt := .const 110, rng := .span (90) (120) }

/-- 0x1410:05 THERMAL_HOLD (R434). -/
def thermalHold : Reg :=
  { idx := 0x1410, sub := 5, name := "THERMAL_HOLD", kind := .u, size := 2, acc := .rw, home := .stored, dflt := .const 60, rng := .span (10) (3600) }

/-- 0x1410:06 THERMAL_STEP (R434). -/
def thermalStep : Reg :=
  { idx := 0x1410, sub := 6, name := "THERMAL_STEP", kind := .u, size := 1, acc := .ro, home := .retained }

/-- 0x1410:07 THERMAL_EVENTS (R434). -/
def thermalEvents : Reg :=
  { idx := 0x1410, sub := 7, name := "THERMAL_EVENTS", kind := .u, size := 4, acc := .ro, home := .stored }

/-- 0x1420:01 VIO_B_LEVEL (R532). -/
def vioBLevel : Reg :=
  { idx := 0x1420, sub := 1, name := "VIO_B_LEVEL", kind := .u, size := 1, acc := .ro, home := .furnace }

/-- 0x1420:02 RTC_SOURCE (R532). -/
def rtcSource : Reg :=
  { idx := 0x1420, sub := 2, name := "RTC_SOURCE", kind := .u, size := 1, acc := .ro, home := .furnace }

/-- 0x1420:03 BROWNOUTS (R532). -/
def brownouts : Reg :=
  { idx := 0x1420, sub := 3, name := "BROWNOUTS", kind := .u, size := 4, acc := .ro, home := .stored }

/-- 0x1420:04 LAST_BROWNOUT_RAIL (R532). -/
def lastBrownoutRail : Reg :=
  { idx := 0x1420, sub := 4, name := "LAST_BROWNOUT_RAIL", kind := .u, size := 1, acc := .ro, home := .stored, dflt := .const 255 }

/-- 0x1430:01 SLEW (R434). -/
def slew1 : Reg :=
  { idx := 0x1430, sub := 1, name := "SLEW", kind := .u, size := 1, acc := .rw, home := .stored, dflt := .const 3, rng := .span (0) (3) }

/-- 0x1430:02 SLEW (R434). -/
def slew2 : Reg :=
  { idx := 0x1430, sub := 2, name := "SLEW", kind := .u, size := 1, acc := .rw, home := .stored, dflt := .const 3, rng := .span (0) (3) }

/-- 0x1430:03 SLEW (R434). -/
def slew3 : Reg :=
  { idx := 0x1430, sub := 3, name := "SLEW", kind := .u, size := 1, acc := .rw, home := .stored, dflt := .const 1, rng := .span (0) (3) }

/-- 0x1430:04 SLEW (R434). -/
def slew4 : Reg :=
  { idx := 0x1430, sub := 4, name := "SLEW", kind := .u, size := 1, acc := .rw, home := .stored, dflt := .const 1, rng := .span (0) (3) }

/-- 0x1430:05 SLEW (R434). -/
def slew5 : Reg :=
  { idx := 0x1430, sub := 5, name := "SLEW", kind := .u, size := 1, acc := .rw, home := .stored, dflt := .const 1, rng := .span (0) (3) }

/-- 0x1430:06 SLEW (R434). -/
def slew6 : Reg :=
  { idx := 0x1430, sub := 6, name := "SLEW", kind := .u, size := 1, acc := .rw, home := .stored, dflt := .const 1, rng := .span (0) (3) }

/-- 0x1431[n]:01 GPIO_FILTER (R434). -/
def padGpioFilter : Reg :=
  { idx := 0x1431, sub := 1, name := "GPIO_FILTER", kind := .u, size := 4, acc := .rw, home := .stored, rows := 24, dflt := .const 50, rng := .spanOr (50) (10000000) 0 }

/-- 0x1500:01 ACCEPTED_HELD (R135). -/
def acceptedHeld : Reg :=
  { idx := 0x1500, sub := 1, name := "ACCEPTED_HELD", kind := .u, size := 4, acc := .ro, home := .furnace }

/-- 0x1500:02 ACCEPTED_TOTAL (R135). -/
def acceptedTotal : Reg :=
  { idx := 0x1500, sub := 2, name := "ACCEPTED_TOTAL", kind := .u, size := 8, acc := .ro, home := .retained, unsat := true }

/-- 0x1500:03 DELIVERED_TOTAL (R135). -/
def deliveredTotal : Reg :=
  { idx := 0x1500, sub := 3, name := "DELIVERED_TOTAL", kind := .u, size := 8, acc := .ro, home := .retained, unsat := true }

/-- 0x1500:04 DUP_DISCARDS (R135). -/
def dupDiscards : Reg :=
  { idx := 0x1500, sub := 4, name := "DUP_DISCARDS", kind := .u, size := 4, acc := .ro, home := .retained }

/-- 0x1500:05 RX_RESERVE_SHORT (R135). -/
def rxReserveShort : Reg :=
  { idx := 0x1500, sub := 5, name := "RX_RESERVE_SHORT", kind := .u, size := 4, acc := .ro, home := .retained }

/-- 0x1500:06 WARM_REPLAYS (R135). -/
def warmReplays : Reg :=
  { idx := 0x1500, sub := 6, name := "WARM_REPLAYS", kind := .u, size := 4, acc := .ro, home := .stored, unsat := true }

/-- 0x1500:07 JOURNAL_REPAIRED (R135). -/
def journalRepaired : Reg :=
  { idx := 0x1500, sub := 7, name := "JOURNAL_REPAIRED", kind := .u, size := 4, acc := .ro, home := .stored, unsat := true }

/-- 0x1500:08 JOURNAL_DROPS (R135). -/
def journalDrops : Reg :=
  { idx := 0x1500, sub := 8, name := "JOURNAL_DROPS", kind := .u, size := 4, acc := .ro, home := .retained }

/-- 0x1501:01 ABANDON_DEPARTED (R135). -/
def abandonDeparted : Reg :=
  { idx := 0x1501, sub := 1, name := "ABANDON_DEPARTED", kind := .u, size := 4, acc := .ro, home := .retained }

/-- 0x1501:02 ABANDON_LIFETIME (R135). -/
def abandonLifetime : Reg :=
  { idx := 0x1501, sub := 2, name := "ABANDON_LIFETIME", kind := .u, size := 4, acc := .ro, home := .retained }

/-- 0x1501:03 ABANDON_FLUSH (R135). -/
def abandonFlush : Reg :=
  { idx := 0x1501, sub := 3, name := "ABANDON_FLUSH", kind := .u, size := 4, acc := .ro, home := .retained }

/-- 0x1501:04 ABANDON_PERSIST (R135). -/
def abandonPersist : Reg :=
  { idx := 0x1501, sub := 4, name := "ABANDON_PERSIST", kind := .u, size := 4, acc := .ro, home := .retained }

/-- 0x1501:05 ABANDON_NOTICE_PERIOD (R135). -/
def abandonNoticePeriod : Reg :=
  { idx := 0x1501, sub := 5, name := "ABANDON_NOTICE_PERIOD", kind := .u, size := 2, acc := .rw, home := .stored, dflt := .const 1000, rng := .span (100) (60000) }

/-- 0x1502:01 LOST_POWER (R135). -/
def lostPower : Reg :=
  { idx := 0x1502, sub := 1, name := "LOST_POWER", kind := .u, size := 4, acc := .ro, home := .stored }

/-- 0x1502:02 LOST_POWER_LAST (R135). -/
def lostPowerLast : Reg :=
  { idx := 0x1502, sub := 2, name := "LOST_POWER_LAST", kind := .u, size := 4, acc := .ro, home := .stored }

/-- 0x1502:03 LOST_MULTIFAULT (R135). -/
def lostMultifault : Reg :=
  { idx := 0x1502, sub := 3, name := "LOST_MULTIFAULT", kind := .u, size := 4, acc := .ro, home := .stored }

/-- 0x1510:01 RESTORE_POLICY (R135). -/
def restorePolicy : Reg :=
  { idx := 0x1510, sub := 1, name := "RESTORE_POLICY", kind := .u, size := 1, acc := .rw, home := .stored, dflt := .const 1, rng := .set [0, 1] }

/-- 0x1510:02 RESTORE_DELAY (R135). -/
def restoreDelay : Reg :=
  { idx := 0x1510, sub := 2, name := "RESTORE_DELAY", kind := .u, size := 2, acc := .rw, home := .stored, dflt := .const 60, rng := .span (10) (3600) }

/-- 0x1510:03 ETH_PAIR (R135). -/
def ethPair : Reg :=
  { idx := 0x1510, sub := 3, name := "ETH_PAIR", kind := .bool, size := 1, acc := .rwp1, home := .stored }

/-- 0x1510:04 UNIT_FENCES (R135). -/
def unitFences : Reg :=
  { idx := 0x1510, sub := 4, name := "UNIT_FENCES", kind := .u, size := 4, acc := .ro, home := .stored }

/-- 0x1510:05 LAST_FENCED (R135). -/
def lastFenced : Reg :=
  { idx := 0x1510, sub := 5, name := "LAST_FENCED", kind := .u, size := 1, acc := .ro, home := .stored, dflt := .const 255 }

/-- 0x1510:06 LAST_FENCE_CAUSE (R135). -/
def lastFenceCause : Reg :=
  { idx := 0x1510, sub := 6, name := "LAST_FENCE_CAUSE", kind := .u, size := 1, acc := .ro, home := .stored }

/-- 0x1520:01 FLUSH_ACTION (R135). -/
def flushAction : Reg :=
  { idx := 0x1520, sub := 1, name := "FLUSH_ACTION", kind := .u, size := 1, acc := .rw, home := .none, rng := .span (1) (5) }

/-- 0x1520:02 FLUSH_TARGET (R135). -/
def flushTarget : Reg :=
  { idx := 0x1520, sub := 2, name := "FLUSH_TARGET", kind := .u, size := 4, acc := .rw, home := .none }

/-- 0x1540:01 FABRIC_STALL_LIMIT (R23). -/
def fabricStallLimit : Reg :=
  { idx := 0x1540, sub := 1, name := "FABRIC_STALL_LIMIT", kind := .u, size := 4, acc := .rwp1, home := .stored, dflt := .const 500, rng := .span (50) (10000) }

/-- 0x1540:02 FABRIC_STALL_COUNT (R23). -/
def fabricStallCount : Reg :=
  { idx := 0x1540, sub := 2, name := "FABRIC_STALL_COUNT", kind := .u, size := 4, acc := .ro, home := .retained }

/-- 0x1540:03 FABRIC_FENCED (R23). -/
def fabricFenced : Reg :=
  { idx := 0x1540, sub := 3, name := "FABRIC_FENCED", kind := .u, size := 4, acc := .ro, home := .live }

/-- 0x1600:01 RESET_SOURCE (R511). -/
def resetSource : Reg :=
  { idx := 0x1600, sub := 1, name := "RESET_SOURCE", kind := .u, size := 1, acc := .ro, home := .live }

/-- 0x1600:02 RESET_KIND (R511). -/
def resetKind : Reg :=
  { idx := 0x1600, sub := 2, name := "RESET_KIND", kind := .u, size := 1, acc := .ro, home := .live }

/-- 0x1600:03 WARM_RESET (R511). -/
def warmReset : Reg :=
  { idx := 0x1600, sub := 3, name := "WARM_RESET", kind := .bool, size := 1, acc := .rw, home := .none }

/-- 0x1600:04 COLD_RESET (R511). -/
def coldReset : Reg :=
  { idx := 0x1600, sub := 4, name := "COLD_RESET", kind := .bool, size := 1, acc := .rwp1, home := .none }

/-- 0x1600:05 RESETS_WARM (R511). -/
def resetsWarm : Reg :=
  { idx := 0x1600, sub := 5, name := "RESETS_WARM", kind := .u, size := 4, acc := .ro, home := .stored }

/-- 0x1600:06 RESETS_COLD (R511). -/
def resetsCold : Reg :=
  { idx := 0x1600, sub := 6, name := "RESETS_COLD", kind := .u, size := 4, acc := .ro, home := .stored }

/-- 0x1600:07 LOST_COLD (R511). -/
def lostCold : Reg :=
  { idx := 0x1600, sub := 7, name := "LOST_COLD", kind := .u, size := 4, acc := .ro, home := .stored }

/-- 0x1600:08 BOOT_STATE (R511). -/
def bootState : Reg :=
  { idx := 0x1600, sub := 8, name := "BOOT_STATE", kind := .u, size := 1, acc := .ro, home := .live }

/-- 0x1600:09 RAIL_TIMEOUT (R511). -/
def railTimeout : Reg :=
  { idx := 0x1600, sub := 9, name := "RAIL_TIMEOUT", kind := .u, size := 2, acc := .rw, home := .stored, dflt := .const 100, rng := .span (10) (2000) }

/-- 0x1600:0A RAIL_FAILS (R511). -/
def railFails : Reg :=
  { idx := 0x1600, sub := 10, name := "RAIL_FAILS", kind := .u, size := 4, acc := .ro, home := .stored }

/-- 0x1601:01 SLOT_A_BASE (R511). -/
def slotABase : Reg :=
  { idx := 0x1601, sub := 1, name := "SLOT_A_BASE", kind := .u, size := 4, acc := .rwp1, home := .stored, dflt := .const 1048576, rng := .mult 65536 0 4294901760 }

/-- 0x1601:02 SLOT_B_BASE (R511). -/
def slotBBase : Reg :=
  { idx := 0x1601, sub := 2, name := "SLOT_B_BASE", kind := .u, size := 4, acc := .rwp1, home := .stored, dflt := .const 68157440, rng := .mult 65536 0 4294901760 }

/-- 0x1601:03 SLOT_SIZE (R511). -/
def slotSize : Reg :=
  { idx := 0x1601, sub := 3, name := "SLOT_SIZE", kind := .u, size := 4, acc := .rwp1, home := .stored, dflt := .const 67108864, rng := .mult 65536 0 4294901760 }

/-- 0x1601:04 BOOT_PREFER (R511). -/
def bootPrefer : Reg :=
  { idx := 0x1601, sub := 4, name := "BOOT_PREFER", kind := .u, size := 1, acc := .rwp1, home := .stored, rng := .set [0, 1] }

/-- 0x1601:05 BOOT_TRIAL (R511). -/
def bootTrial : Reg :=
  { idx := 0x1601, sub := 5, name := "BOOT_TRIAL", kind := .bool, size := 1, acc := .rw, home := .stored }

/-- 0x1601:06 BOOT_CONFIRM (R511). -/
def bootConfirm : Reg :=
  { idx := 0x1601, sub := 6, name := "BOOT_CONFIRM", kind := .bool, size := 1, acc := .rw, home := .none }

/-- 0x1601:07 CONFIRM_TIME (R511). -/
def confirmTime : Reg :=
  { idx := 0x1601, sub := 7, name := "CONFIRM_TIME", kind := .u, size := 2, acc := .rw, home := .stored, dflt := .const 300, rng := .span (30) (3600) }

/-- 0x1601:08 BOOT_SLOT (R511). -/
def bootSlot : Reg :=
  { idx := 0x1601, sub := 8, name := "BOOT_SLOT", kind := .u, size := 1, acc := .ro, home := .live }

/-- 0x1601:09 FALLBACKS (R511). -/
def fallbacks : Reg :=
  { idx := 0x1601, sub := 9, name := "FALLBACKS", kind := .u, size := 4, acc := .ro, home := .stored }

/-- 0x1601:0A SLOT_STATUS (R511). -/
def slotStatus : Reg :=
  { idx := 0x1601, sub := 10, name := "SLOT_STATUS", kind := .u, size := 2, acc := .ro, home := .live }

/-- 0x1601:0B RUNNING_SEC_VERSION (R511). -/
def runningSecVersion : Reg :=
  { idx := 0x1601, sub := 11, name := "RUNNING_SEC_VERSION", kind := .u, size := 1, acc := .ro, home := .live }

/-- 0x1601:0C RUNNING_BUILD (R511). -/
def runningBuild : Reg :=
  { idx := 0x1601, sub := 12, name := "RUNNING_BUILD", kind := .u, size := 4, acc := .ro, home := .live }

/-- 0x1610[n]:01 KEY_HASH (R400). -/
def slotKeyHash : Reg :=
  { idx := 0x1610, sub := 1, name := "KEY_HASH", kind := .oct, size := 32, acc := .rwp2, home := .fuse, rows := 4 }

/-- 0x1610[n]:02 KEY_STATE (R400). -/
def slotKeyState : Reg :=
  { idx := 0x1610, sub := 2, name := "KEY_STATE", kind := .u, size := 1, acc := .ro, home := .fuse, rows := 4 }

/-- 0x1610[n]:03 REVOKE (R400). -/
def slotRevoke : Reg :=
  { idx := 0x1610, sub := 3, name := "REVOKE", kind := .bool, size := 1, acc := .wop2, home := .none, rows := 4 }

/-- 0x1611:01 SB_ENFORCED (R400). -/
def sbEnforced : Reg :=
  { idx := 0x1611, sub := 1, name := "SB_ENFORCED", kind := .bool, size := 1, acc := .ro, home := .fuse }

/-- 0x1611:02 ROLLBACK (R400). -/
def rollback : Reg :=
  { idx := 0x1611, sub := 2, name := "ROLLBACK", kind := .u, size := 1, acc := .ro, home := .fuse }

/-- 0x1611:03 ROLLBACK_SET (R400). -/
def rollbackSet : Reg :=
  { idx := 0x1611, sub := 3, name := "ROLLBACK_SET", kind := .u, size := 1, acc := .rwp1, home := .none, rng := .span (0) (64) }

/-- 0x1611:04 BOOT_KEY_USED (R400). -/
def bootKeyUsed : Reg :=
  { idx := 0x1611, sub := 4, name := "BOOT_KEY_USED", kind := .u, size := 1, acc := .ro, home := .live, dflt := .const 255 }

/-- 0x1612:01 DEBUG_STATE (R400). -/
def debugState : Reg :=
  { idx := 0x1612, sub := 1, name := "DEBUG_STATE", kind := .u, size := 1, acc := .ro, home := .furnace }

/-- 0x1612:02 DEBUG_UNLOCK (R400). -/
def debugUnlock : Reg :=
  { idx := 0x1612, sub := 2, name := "DEBUG_UNLOCK", kind := .bool, size := 1, acc := .wop2, home := .furnace }

/-- 0x1612:03 DEBUG_LOCK (R400). -/
def debugLock : Reg :=
  { idx := 0x1612, sub := 3, name := "DEBUG_LOCK", kind := .bool, size := 1, acc := .rw, home := .none }

/-- 0x1612:04 DEBUG_DISABLE (R400). -/
def debugDisable : Reg :=
  { idx := 0x1612, sub := 4, name := "DEBUG_DISABLE", kind := .bool, size := 1, acc := .wop2, home := .fuse }

/-- 0x1612:05 JTAG_IDCODE (R400). -/
def jtagIdcode : Reg :=
  { idx := 0x1612, sub := 5, name := "JTAG_IDCODE", kind := .u, size := 4, acc := .ro, home := .fuse }

/-- 0x1620:01 SWAP_SLOT (R511). -/
def swapSlot : Reg :=
  { idx := 0x1620, sub := 1, name := "SWAP_SLOT", kind := .u, size := 1, acc := .rw, home := .none, rng := .set [0, 1] }

/-- 0x1620:02 SWAP_MASK (R511). -/
def swapMask : Reg :=
  { idx := 0x1620, sub := 2, name := "SWAP_MASK", kind := .u, size := 2, acc := .rw, home := .none, rng := .mask 0x7FF }

/-- 0x1620:03 SWAP_GO (R511). -/
def swapGo : Reg :=
  { idx := 0x1620, sub := 3, name := "SWAP_GO", kind := .bool, size := 1, acc := .wo, home := .none }

/-- 0x1620:04 SWAP_STATUS (R511). -/
def swapStatus : Reg :=
  { idx := 0x1620, sub := 4, name := "SWAP_STATUS", kind := .u, size := 1, acc := .ro, home := .none }

/-- 0x1620:05 SWAP_WAIT (R511). -/
def swapWait : Reg :=
  { idx := 0x1620, sub := 5, name := "SWAP_WAIT", kind := .u, size := 2, acc := .rw, home := .stored, dflt := .const 100, rng := .span (1) (10000) }

/-- 0x1620:06 SWAP_DONE (R511). -/
def swapDone : Reg :=
  { idx := 0x1620, sub := 6, name := "SWAP_DONE", kind := .u, size := 2, acc := .ro, home := .none }

/-- 0x1620:07 SWAPS (R511). -/
def swaps : Reg :=
  { idx := 0x1620, sub := 7, name := "SWAPS", kind := .u, size := 4, acc := .ro, home := .stored }

/-- 0x1630:01 XSPI_CLK (R496). -/
def xspiClk : Reg :=
  { idx := 0x1630, sub := 1, name := "XSPI_CLK", kind := .u, size := 2, acc := .rw, home := .stored, dflt := .const 133, rng := .span (25) (200) }

/-- 0x1630:02 XSPI_TIMEOUT (R496). -/
def xspiTimeout : Reg :=
  { idx := 0x1630, sub := 2, name := "XSPI_TIMEOUT", kind := .u, size := 2, acc := .rw, home := .stored, dflt := .const 100, rng := .span (10) (400) }

/-- 0x1630:03 XSPI_OFFSET (R496). -/
def xspiOffset : Reg :=
  { idx := 0x1630, sub := 3, name := "XSPI_OFFSET", kind := .u, size := 4, acc := .rw, home := .none, loc := true }

/-- 0x1630:04 XSPI_LEN (R496). -/
def xspiLen : Reg :=
  { idx := 0x1630, sub := 4, name := "XSPI_LEN", kind := .u, size := 2, acc := .rw, home := .none, rng := .span (1) (256), loc := true }

/-- 0x1630:05 XSPI_DATA (R496). -/
def xspiData : Reg :=
  { idx := 0x1630, sub := 5, name := "XSPI_DATA", kind := .oct, size := 256, acc := .rw, home := .none, loc := true }

/-- 0x1630:06 XSPI_OP (R496). -/
def xspiOp : Reg :=
  { idx := 0x1630, sub := 6, name := "XSPI_OP", kind := .u, size := 1, acc := .rw, home := .none, rng := .span (1) (3) }

/-- 0x1630:07 XSPI_OP_STATUS (R496). -/
def xspiOpStatus : Reg :=
  { idx := 0x1630, sub := 7, name := "XSPI_OP_STATUS", kind := .u, size := 1, acc := .ro, home := .none }

/-- 0x1630:08 XSPI_SIZE (R496). -/
def xspiSize : Reg :=
  { idx := 0x1630, sub := 8, name := "XSPI_SIZE", kind := .u, size := 4, acc := .ro, home := .live }

/-- 0x2000:01 TUNE_FREQ (R167). -/
def tuneFreq : Reg :=
  { idx := 0x2000, sub := 1, name := "TUNE_FREQ", kind := .u, size := 4, acc := .rw, home := .stored, dflt := .radio 5180000 2412000 868300, rng := .bands [(5150000, 7125000)], alts := [.bands [(2400000, 2483500)], .bands [(470000, 510000), (750000, 960000)]] }

/-- 0x2000:02 TUNE_BW (R167). -/
def tuneBw : Reg :=
  { idx := 0x2000, sub := 2, name := "TUNE_BW", kind := .u, size := 2, acc := .rw, home := .stored, dflt := .radio 20 20 0, rng := .set [20, 40, 80, 160], alts := [.set [20, 40], .set [0]] }

/-- 0x2000:03 LOCK_TIMEOUT (R167). -/
def lockTimeout : Reg :=
  { idx := 0x2000, sub := 3, name := "LOCK_TIMEOUT", kind := .u, size := 2, acc := .rw, home := .stored, dflt := .const 200, rng := .span (20) (2000) }

/-- 0x2000:04 SYNTH_STATE (R167). -/
def synthState : Reg :=
  { idx := 0x2000, sub := 4, name := "SYNTH_STATE", kind := .u, size := 1, acc := .ro, home := .live }

/-- 0x2000:05 TUNE_TIME_LAST (R167). -/
def tuneTimeLast : Reg :=
  { idx := 0x2000, sub := 5, name := "TUNE_TIME_LAST", kind := .u, size := 2, acc := .ro, home := .live }

/-- 0x2000:06 LOCK_LOSSES (R167). -/
def lockLosses : Reg :=
  { idx := 0x2000, sub := 6, name := "LOCK_LOSSES", kind := .u, size := 4, acc := .ro, home := .retained }

/-- 0x2001:01 CAL_ENABLE (R167). -/
def calEnable : Reg :=
  { idx := 0x2001, sub := 1, name := "CAL_ENABLE", kind := .u, size := 1, acc := .rw, home := .stored, dflt := .const 31, rng := .mask 0x1F }

/-- 0x2001:02 CAL_PERIOD (R167). -/
def calPeriod : Reg :=
  { idx := 0x2001, sub := 2, name := "CAL_PERIOD", kind := .u, size := 2, acc := .rw, home := .stored, dflt := .const 60, rng := .span (10) (3600) }

/-- 0x2001:03 CAL_TEMP_STEP (R167). -/
def calTempStep : Reg :=
  { idx := 0x2001, sub := 3, name := "CAL_TEMP_STEP", kind := .u, size := 1, acc := .rw, home := .stored, dflt := .const 5, rng := .span (1) (20) }

/-- 0x2001:04 CAL_STARVE (R167). -/
def calStarve : Reg :=
  { idx := 0x2001, sub := 4, name := "CAL_STARVE", kind := .u, size := 2, acc := .rw, home := .stored, dflt := .const 10000, rng := .span (100) (60000) }

/-- 0x2001:05 CAL_STATUS (R167). -/
def calStatus : Reg :=
  { idx := 0x2001, sub := 5, name := "CAL_STATUS", kind := .u, size := 1, acc := .ro, home := .live }

/-- 0x2001:06 CAL_SEGMENTS (R167). -/
def calSegments : Reg :=
  { idx := 0x2001, sub := 6, name := "CAL_SEGMENTS", kind := .u, size := 4, acc := .ro, home := .none }

/-- 0x2001:07 CAL_ABANDONED (R167). -/
def calAbandoned : Reg :=
  { idx := 0x2001, sub := 7, name := "CAL_ABANDONED", kind := .u, size := 4, acc := .ro, home := .none }

/-- 0x2001:08 CAL_FORCED (R167). -/
def calForced : Reg :=
  { idx := 0x2001, sub := 8, name := "CAL_FORCED", kind := .u, size := 4, acc := .ro, home := .none }

/-- 0x2001:09 DIE_TEMP (R167). -/
def dieTemp : Reg :=
  { idx := 0x2001, sub := 9, name := "DIE_TEMP", kind := .fx, size := 4, acc := .ro, home := .live }

/-- 0x2002:01 CHAIN_OFFSET (R167). -/
def chainOffset1 : Reg :=
  { idx := 0x2002, sub := 1, name := "CHAIN_OFFSET", kind := .i, size := 1, acc := .rw, home := .stored, rng := .span (-16) (16) }

/-- 0x2002:02 CHAIN_OFFSET (R167). -/
def chainOffset2 : Reg :=
  { idx := 0x2002, sub := 2, name := "CHAIN_OFFSET", kind := .i, size := 1, acc := .rw, home := .stored, rng := .span (-16) (16), radios := 3 }

/-- 0x2002:03 CHAIN_OFFSET (R167). -/
def chainOffset3 : Reg :=
  { idx := 0x2002, sub := 3, name := "CHAIN_OFFSET", kind := .i, size := 1, acc := .rw, home := .stored, rng := .span (-16) (16), radios := 1 }

/-- 0x2002:04 CHAIN_OFFSET (R167). -/
def chainOffset4 : Reg :=
  { idx := 0x2002, sub := 4, name := "CHAIN_OFFSET", kind := .i, size := 1, acc := .rw, home := .stored, rng := .span (-16) (16), radios := 1 }

/-- 0x2002:05 PA_SUPPLY_PAGE (R167). -/
def paSupplyPage : Reg :=
  { idx := 0x2002, sub := 5, name := "PA_SUPPLY_PAGE", kind := .u, size := 1, acc := .rw, home := .stored, dflt := .radio 255 255 254, rng := .spanOr (0) (31) 255 }

/-- 0x2002:06 REG_CLAMPED (R167). -/
def regClamped : Reg :=
  { idx := 0x2002, sub := 6, name := "REG_CLAMPED", kind := .u, size := 4, acc := .ro, home := .retained }

/-- 0x2002:07 L_PORT (R167). -/
def lPort : Reg :=
  { idx := 0x2002, sub := 7, name := "L_PORT", kind := .u, size := 1, acc := .rw, home := .stored, rng := .set [0, 1], radios := 4 }

/-- 0x2003:01 RAMP_PROFILE (R167). -/
def rampProfile : Reg :=
  { idx := 0x2003, sub := 1, name := "RAMP_PROFILE", kind := .oct, size := 32, acc := .rw, home := .stored, dflt := .const 0x102050A0F151D252F39434F5A67737F8C98A5B0BCC6D0DAE2EAF0F5FAFDFEFF }

/-- 0x2003:02 RAMP_UP (R167). -/
def rampUp : Reg :=
  { idx := 0x2003, sub := 2, name := "RAMP_UP", kind := .u, size := 2, acc := .rw, home := .stored, dflt := .radio 20 20 200, rng := .span (20) (160), alts := [.span (20) (160), .span (20) (10000)] }

/-- 0x2003:03 RAMP_DOWN (R167). -/
def rampDown : Reg :=
  { idx := 0x2003, sub := 3, name := "RAMP_DOWN", kind := .u, size := 2, acc := .rw, home := .stored, dflt := .radio 20 20 200, rng := .span (20) (160), alts := [.span (20) (160), .span (20) (10000)] }

/-- 0x2003:04 FEM_POLARITY (R167). -/
def femPolarity : Reg :=
  { idx := 0x2003, sub := 4, name := "FEM_POLARITY", kind := .u, size := 2, acc := .rw, home := .stored, rng := .mask 0xFFF, alts := [.mask 0x3F, .mask 0xF] }

/-- 0x2003:05 FEM_LEAD (R167). -/
def femLead : Reg :=
  { idx := 0x2003, sub := 5, name := "FEM_LEAD", kind := .u, size := 1, acc := .rw, home := .stored, dflt := .const 5, rng := .span (0) (20) }

/-- 0x2005:01 TEST_MODE (R167). -/
def testMode : Reg :=
  { idx := 0x2005, sub := 1, name := "TEST_MODE", kind := .u, size := 1, acc := .rwp2, home := .none, rng := .span (0) (2) }

/-- 0x2005:02 TEST_POWER (R167). -/
def testPower : Reg :=
  { idx := 0x2005, sub := 2, name := "TEST_POWER", kind := .i, size := 2, acc := .rwp2, home := .none, rng := .span (-80) (120) }

/-- 0x2006:01 TX_STATUS_COUNT (R167). -/
def txStatusCount1 : Reg :=
  { idx := 0x2006, sub := 1, name := "TX_STATUS_COUNT", kind := .u, size := 4, acc := .ro, home := .retained }

/-- 0x2006:02 TX_STATUS_COUNT (R167). -/
def txStatusCount2 : Reg :=
  { idx := 0x2006, sub := 2, name := "TX_STATUS_COUNT", kind := .u, size := 4, acc := .ro, home := .retained }

/-- 0x2006:03 TX_STATUS_COUNT (R167). -/
def txStatusCount3 : Reg :=
  { idx := 0x2006, sub := 3, name := "TX_STATUS_COUNT", kind := .u, size := 4, acc := .ro, home := .retained }

/-- 0x2006:04 TX_STATUS_COUNT (R167). -/
def txStatusCount4 : Reg :=
  { idx := 0x2006, sub := 4, name := "TX_STATUS_COUNT", kind := .u, size := 4, acc := .ro, home := .retained }

/-- 0x2006:05 TX_STATUS_COUNT (R167). -/
def txStatusCount5 : Reg :=
  { idx := 0x2006, sub := 5, name := "TX_STATUS_COUNT", kind := .u, size := 4, acc := .ro, home := .retained }

/-- 0x2006:06 TX_STATUS_COUNT (R167). -/
def txStatusCount6 : Reg :=
  { idx := 0x2006, sub := 6, name := "TX_STATUS_COUNT", kind := .u, size := 4, acc := .ro, home := .retained }

/-- 0x2006:07 TX_STATUS_COUNT (R167). -/
def txStatusCount7 : Reg :=
  { idx := 0x2006, sub := 7, name := "TX_STATUS_COUNT", kind := .u, size := 4, acc := .ro, home := .retained }

/-- 0x2008[n]:01 EDGE_LO (R167). -/
def ptEdgeLo : Reg :=
  { idx := 0x2008, sub := 1, name := "EDGE_LO", kind := .u, size := 4, acc := .rw, home := .stored, rows := 16 }

/-- 0x2008[n]:02 EDGE_HI (R167). -/
def ptEdgeHi : Reg :=
  { idx := 0x2008, sub := 2, name := "EDGE_HI", kind := .u, size := 4, acc := .rw, home := .stored, rows := 16 }

/-- 0x2008[n]:03 TARGET (R167). -/
def ptTarget : Reg :=
  { idx := 0x2008, sub := 3, name := "TARGET", kind := .i, size := 2, acc := .rw, home := .stored, rows := 16, rng := .span (-80) (144) }

/-- 0x2008[n]:04 FEM_GAIN (R167). -/
def ptFemGain : Reg :=
  { idx := 0x2008, sub := 4, name := "FEM_GAIN", kind := .i, size := 2, acc := .rw, home := .stored, rows := 16, rng := .span (-40) (160) }

/-- 0x2008[n]:05 FEM_TEMPCO (R167). -/
def ptFemTempco : Reg :=
  { idx := 0x2008, sub := 5, name := "FEM_TEMPCO", kind := .i, size := 2, acc := .rw, home := .stored, rows := 16, rng := .span (-500) (500) }

/-- 0x2010:01 RADAR_EVENTS (R167). -/
def radarEvents : Reg :=
  { idx := 0x2010, sub := 1, name := "RADAR_EVENTS", kind := .u, size := 4, acc := .ro, home := .stored, radios := 1 }

/-- 0x2010:02 CAC_STATE (R167). -/
def cacState : Reg :=
  { idx := 0x2010, sub := 2, name := "CAC_STATE", kind := .u, size := 1, acc := .ro, home := .live, radios := 1 }

/-- 0x2010:03 NOP_REMAIN (R167). -/
def nopRemain : Reg :=
  { idx := 0x2010, sub := 3, name := "NOP_REMAIN", kind := .u, size := 4, acc := .ro, home := .live, radios := 1 }

/-- 0x2020:01 CAPTURE_ENABLE (R193). -/
def captureEnable : Reg :=
  { idx := 0x2020, sub := 1, name := "CAPTURE_ENABLE", kind := .bool, size := 1, acc := .rw, home := .stored, dflt := .const 1 }

/-- 0x2020:02 CAPTURE_THRESHOLD (R193). -/
def captureThreshold : Reg :=
  { idx := 0x2020, sub := 2, name := "CAPTURE_THRESHOLD", kind := .u, size := 1, acc := .rw, home := .stored, dflt := .const 8, rng := .span (3) (20) }

/-- 0x2020:03 EQ_SMOOTH (R193). -/
def eqSmooth : Reg :=
  { idx := 0x2020, sub := 3, name := "EQ_SMOOTH", kind := .u, size := 1, acc := .rw, home := .stored, dflt := .const 3, rng := .set [0, 3, 5] }

/-- 0x2020:04 RX_LAST_RSSI (R193). -/
def rxLastRssi : Reg :=
  { idx := 0x2020, sub := 4, name := "RX_LAST_RSSI", kind := .i, size := 2, acc := .ro, home := .none }

/-- 0x2021:01 RX_OK (R193). -/
def rxOk : Reg :=
  { idx := 0x2021, sub := 1, name := "RX_OK", kind := .u, size := 4, acc := .ro, home := .retained }

/-- 0x2021:02 RX_FCS_FAIL (R193). -/
def rxFcsFail : Reg :=
  { idx := 0x2021, sub := 2, name := "RX_FCS_FAIL", kind := .u, size := 4, acc := .ro, home := .retained }

/-- 0x2021:03 RX_HDR_FAIL (R193). -/
def rxHdrFail : Reg :=
  { idx := 0x2021, sub := 3, name := "RX_HDR_FAIL", kind := .u, size := 4, acc := .ro, home := .retained }

/-- 0x2021:04 RX_CAPTURED (R193). -/
def rxCaptured : Reg :=
  { idx := 0x2021, sub := 4, name := "RX_CAPTURED", kind := .u, size := 4, acc := .ro, home := .retained }

/-- 0x2021:05 RX_UNSUPPORTED (R193). -/
def rxUnsupported : Reg :=
  { idx := 0x2021, sub := 5, name := "RX_UNSUPPORTED", kind := .u, size := 4, acc := .ro, home := .retained }

/-- 0x2021:06 RX_LENGTH (R193). -/
def rxLength : Reg :=
  { idx := 0x2021, sub := 6, name := "RX_LENGTH", kind := .u, size := 4, acc := .ro, home := .retained }

/-- 0x2021:07 RX_LIST_RESCUED (R193). -/
def rxListRescued : Reg :=
  { idx := 0x2021, sub := 7, name := "RX_LIST_RESCUED", kind := .u, size := 4, acc := .ro, home := .retained, radios := 4 }

/-- 0x2021:08 RX_MPDU_FCS_FAIL (R193). -/
def rxMpduFcsFail : Reg :=
  { idx := 0x2021, sub := 8, name := "RX_MPDU_FCS_FAIL", kind := .u, size := 4, acc := .ro, home := .retained, radios := 3 }

/-- 0x2022:01 LDPC_ITER_MAX (R193). -/
def ldpcIterMax : Reg :=
  { idx := 0x2022, sub := 1, name := "LDPC_ITER_MAX", kind := .u, size := 1, acc := .rw, home := .stored, dflt := .const 8, rng := .span (1) (16), radios := 3 }

/-- 0x2022:02 LDPC_TRUNCATED (R193). -/
def ldpcTruncated : Reg :=
  { idx := 0x2022, sub := 2, name := "LDPC_TRUNCATED", kind := .u, size := 4, acc := .ro, home := .retained, radios := 3 }

/-- 0x2040[n]:01 ENABLE (R228). -/
def bssEnable : Reg :=
  { idx := 0x2040, sub := 1, name := "ENABLE", kind := .bool, size := 1, acc := .rw, home := .stored, rows := 16, radios := 3 }

/-- 0x2040[n]:02 SSID (R228). -/
def bssSsid : Reg :=
  { idx := 0x2040, sub := 2, name := "SSID", kind := .oct, size := 32, acc := .rw, home := .stored, rows := 16, radios := 3 }

/-- 0x2040[n]:03 SSID_LEN (R228). -/
def bssSsidLen : Reg :=
  { idx := 0x2040, sub := 3, name := "SSID_LEN", kind := .u, size := 1, acc := .rw, home := .stored, rows := 16, rng := .span (0) (32), radios := 3 }

/-- 0x2040[n]:04 BSSID (R228). -/
def bssBssid : Reg :=
  { idx := 0x2040, sub := 4, name := "BSSID", kind := .oct, size := 6, acc := .rw, home := .stored, rows := 16, radios := 3 }

/-- 0x2040[n]:05 ROUTER_MAC (R228). -/
def bssRouterMac : Reg :=
  { idx := 0x2040, sub := 5, name := "ROUTER_MAC", kind := .oct, size := 6, acc := .rw, home := .stored, rows := 16, radios := 3 }

/-- 0x2040[n]:06 BEACON_INTERVAL (R228). -/
def bssBeaconInterval : Reg :=
  { idx := 0x2040, sub := 6, name := "BEACON_INTERVAL", kind := .u, size := 2, acc := .rw, home := .stored, rows := 16, dflt := .const 100, rng := .span (20) (1000), radios := 3 }

/-- 0x2040[n]:07 DTIM_PERIOD (R228). -/
def bssDtimPeriod : Reg :=
  { idx := 0x2040, sub := 7, name := "DTIM_PERIOD", kind := .u, size := 1, acc := .rw, home := .stored, rows := 16, dflt := .const 1, rng := .span (1) (255), radios := 3 }

/-- 0x2040[n]:08 HIDE_SSID (R228). -/
def bssHideSsid : Reg :=
  { idx := 0x2040, sub := 8, name := "HIDE_SSID", kind := .bool, size := 1, acc := .rw, home := .stored, rows := 16, radios := 3 }

/-- 0x2040[n]:09 AKM (R228). -/
def bssAkm : Reg :=
  { idx := 0x2040, sub := 9, name := "AKM", kind := .u, size := 1, acc := .rw, home := .stored, rows := 16, rng := .set [0, 1, 2, 8, 18], radios := 3 }

/-- 0x2040[n]:0A PAIRWISE (R228). -/
def bssPairwise : Reg :=
  { idx := 0x2040, sub := 10, name := "PAIRWISE", kind := .u, size := 1, acc := .rw, home := .stored, rows := 16, dflt := .const 1, rng := .span (1) (4), radios := 3 }

/-- 0x2040[n]:0B GROUP_CTX (R228). -/
def bssGroupCtx : Reg :=
  { idx := 0x2040, sub := 11, name := "GROUP_CTX", kind := .u, size := 2, acc := .rw, home := .stored, rows := 16, dflt := .const 65535, rng := .spanOr (0) (2047) 65535, radios := 3 }

/-- 0x2040[n]:0C MAX_STA (R228). -/
def bssMaxSta : Reg :=
  { idx := 0x2040, sub := 12, name := "MAX_STA", kind := .u, size := 2, acc := .rw, home := .stored, rows := 16, dflt := .const 512, rng := .span (1) (512), radios := 3 }

/-- 0x2040[n]:0D BSS_COLOR (R228). -/
def bssBssColor : Reg :=
  { idx := 0x2040, sub := 13, name := "BSS_COLOR", kind := .u, size := 1, acc := .rw, home := .stored, rows := 16, rng := .span (0) (63), radios := 3 }

/-- 0x2040[n]:0E STATIONS (R228). -/
def bssStations : Reg :=
  { idx := 0x2040, sub := 14, name := "STATIONS", kind := .u, size := 2, acc := .ro, home := .live, rows := 16, radios := 3 }

/-- 0x2040[n]:0F BEACONS (R228). -/
def bssBeacons : Reg :=
  { idx := 0x2040, sub := 15, name := "BEACONS", kind := .u, size := 4, acc := .ro, home := .retained, rows := 16, radios := 3 }

/-- 0x2430:01 SPLIT_ENABLE (R193). -/
def splitEnable : Reg :=
  { idx := 0x2430, sub := 1, name := "SPLIT_ENABLE", kind := .bool, size := 1, acc := .rw, home := .stored }

/-- 0x2430:02 SPLIT_CHANNEL (R193). -/
def splitChannel : Reg :=
  { idx := 0x2430, sub := 2, name := "SPLIT_CHANNEL", kind := .u, size := 1, acc := .rw, home := .stored, dflt := .const 15, rng := .span (11) (26) }

/-- 0x2430:03 SPLIT_STATE (R193). -/
def splitState : Reg :=
  { idx := 0x2430, sub := 3, name := "SPLIT_STATE", kind := .u, size := 1, acc := .ro, home := .live }

/-- 0x2830:01 MODE_ENABLE (R193). -/
def modeEnable : Reg :=
  { idx := 0x2830, sub := 1, name := "MODE_ENABLE", kind := .u, size := 2, acc := .rw, home := .stored, dflt := .const 63, rng := .mask 0x3FFF }

/-- 0x2830:02 FSK_INDEX (R193). -/
def fskIndex : Reg :=
  { idx := 0x2830, sub := 2, name := "FSK_INDEX", kind := .u, size := 1, acc := .rw, home := .stored, dflt := .const 1, rng := .mask 0x1F }

/-- 0x2830:03 SYNC_ERRORS (R193). -/
def syncErrors : Reg :=
  { idx := 0x2830, sub := 3, name := "SYNC_ERRORS", kind := .u, size := 1, acc := .rw, home := .stored, dflt := .const 2, rng := .span (0) (6) }

/-- 0x2830:04 LIST_MODE (R193). -/
def listMode : Reg :=
  { idx := 0x2830, sub := 4, name := "LIST_MODE", kind := .bool, size := 1, acc := .rw, home := .stored, dflt := .const 1 }

/-- 0x2840:01 REACH_SYNC (R193). -/
def reachSync : Reg :=
  { idx := 0x2840, sub := 1, name := "REACH_SYNC", kind := .u, size := 4, acc := .rw, home := .stored, dflt := .const 1513920225 }

/-- 0x2840:02 REACH_PREAMBLE (R193). -/
def reachPreamble : Reg :=
  { idx := 0x2840, sub := 2, name := "REACH_PREAMBLE", kind := .u, size := 1, acc := .rw, home := .stored, dflt := .const 32, rng := .span (16) (128) }

/-- 0x2840:03 REACH_FCS32 (R193). -/
def reachFcs32 : Reg :=
  { idx := 0x2840, sub := 3, name := "REACH_FCS32", kind := .bool, size := 1, acc := .rw, home := .stored }

/-- 0x2840:04 REACH_WHITEN (R193). -/
def reachWhiten : Reg :=
  { idx := 0x2840, sub := 4, name := "REACH_WHITEN", kind := .bool, size := 1, acc := .rw, home := .stored, dflt := .const 1 }

/-- 0x2C00:01 REGION_STATE (R168). -/
def regionState : Reg :=
  { idx := 0x2C00, sub := 1, name := "REGION_STATE", kind := .u, size := 1, acc := .ro, home := .stored }

/-- 0x2C00:02 REGION_CODE (R168). -/
def regionCode : Reg :=
  { idx := 0x2C00, sub := 2, name := "REGION_CODE", kind := .str, size := 4, acc := .ro, home := .stored }

/-- 0x2C00:03 REGION_VERSION (R168). -/
def regionVersion : Reg :=
  { idx := 0x2C00, sub := 3, name := "REGION_VERSION", kind := .u, size := 4, acc := .ro, home := .stored }

/-- 0x2C00:04 REGION_CRC (R168). -/
def regionCrc : Reg :=
  { idx := 0x2C00, sub := 4, name := "REGION_CRC", kind := .u, size := 4, acc := .ro, home := .stored }

/-- 0x2C00:05 REGION_CHANGES (R168). -/
def regionChanges : Reg :=
  { idx := 0x2C00, sub := 5, name := "REGION_CHANGES", kind := .u, size := 4, acc := .ro, home := .stored, unsat := true }

/-- 0x2C00:06 REGION_COMMIT (R168). -/
def regionCommit : Reg :=
  { idx := 0x2C00, sub := 6, name := "REGION_COMMIT", kind := .u, size := 4, acc := .wop2, home := .none }

/-- 0x2C00:07 REGION_CLEAR (R168). -/
def regionClear : Reg :=
  { idx := 0x2C00, sub := 7, name := "REGION_CLEAR", kind := .bool, size := 1, acc := .wop2, home := .none }

/-- 0x2C00:08 STAGE_CRC (R168). -/
def stageCrc : Reg :=
  { idx := 0x2C00, sub := 8, name := "STAGE_CRC", kind := .u, size := 4, acc := .ro, home := .stored }

/-- 0x2C10[n]:01 RADIO (R168). -/
def plimRadio : Reg :=
  { idx := 0x2C10, sub := 1, name := "RADIO", kind := .u, size := 1, acc := .rwp2, home := .stored, rows := 64, dflt := .const 255, rng := .spanOr (0) (3) 255 }

/-- 0x2C10[n]:02 EDGE_LO (R168). -/
def plimEdgeLo : Reg :=
  { idx := 0x2C10, sub := 2, name := "EDGE_LO", kind := .u, size := 4, acc := .rwp2, home := .stored, rows := 64 }

/-- 0x2C10[n]:03 EDGE_HI (R168). -/
def plimEdgeHi : Reg :=
  { idx := 0x2C10, sub := 3, name := "EDGE_HI", kind := .u, size := 4, acc := .rwp2, home := .stored, rows := 64 }

/-- 0x2C10[n]:04 LIMIT (R168). -/
def plimLimit4 : Reg :=
  { idx := 0x2C10, sub := 4, name := "LIMIT", kind := .i, size := 2, acc := .rwp2, home := .stored, rows := 64, rng := .span (-80) (144) }

/-- 0x2C10[n]:05 LIMIT (R168). -/
def plimLimit5 : Reg :=
  { idx := 0x2C10, sub := 5, name := "LIMIT", kind := .i, size := 2, acc := .rwp2, home := .stored, rows := 64, rng := .span (-80) (144) }

/-- 0x2C10[n]:06 LIMIT (R168). -/
def plimLimit6 : Reg :=
  { idx := 0x2C10, sub := 6, name := "LIMIT", kind := .i, size := 2, acc := .rwp2, home := .stored, rows := 64, rng := .span (-80) (144) }

/-- 0x2C10[n]:07 LIMIT (R168). -/
def plimLimit7 : Reg :=
  { idx := 0x2C10, sub := 7, name := "LIMIT", kind := .i, size := 2, acc := .rwp2, home := .stored, rows := 64, rng := .span (-80) (144) }

/-- 0x2C10[n]:08 FEM_GAIN_MAX (R168). -/
def plimFemGainMax : Reg :=
  { idx := 0x2C10, sub := 8, name := "FEM_GAIN_MAX", kind := .i, size := 2, acc := .rwp2, home := .stored, rows := 64, rng := .span (-40) (160) }

/-- 0x2C11[n]:01 RADIO (R168). -/
def chalRadio : Reg :=
  { idx := 0x2C11, sub := 1, name := "RADIO", kind := .u, size := 1, acc := .rwp2, home := .stored, rows := 64, dflt := .const 255, rng := .spanOr (0) (2) 255 }

/-- 0x2C11[n]:02 EDGE_LO (R168). -/
def chalEdgeLo : Reg :=
  { idx := 0x2C11, sub := 2, name := "EDGE_LO", kind := .u, size := 4, acc := .rwp2, home := .stored, rows := 64 }

/-- 0x2C11[n]:03 EDGE_HI (R168). -/
def chalEdgeHi : Reg :=
  { idx := 0x2C11, sub := 3, name := "EDGE_HI", kind := .u, size := 4, acc := .rwp2, home := .stored, rows := 64 }

/-- 0x2C11[n]:04 MAX_BW (R168). -/
def chalMaxBw : Reg :=
  { idx := 0x2C11, sub := 4, name := "MAX_BW", kind := .u, size := 2, acc := .rwp2, home := .stored, rows := 64 }

/-- 0x2C11[n]:05 FLAGS (R168). -/
def chalFlags : Reg :=
  { idx := 0x2C11, sub := 5, name := "FLAGS", kind := .u, size := 1, acc := .rwp2, home := .stored, rows := 64, rng := .mask 0x1 }

/-- 0x2C12[n]:01 EDGE_LO (R168). -/
def dutyEdgeLo : Reg :=
  { idx := 0x2C12, sub := 1, name := "EDGE_LO", kind := .u, size := 4, acc := .rwp2, home := .stored, rows := 16 }

/-- 0x2C12[n]:02 EDGE_HI (R168). -/
def dutyEdgeHi : Reg :=
  { idx := 0x2C12, sub := 2, name := "EDGE_HI", kind := .u, size := 4, acc := .rwp2, home := .stored, rows := 16 }

/-- 0x2C12[n]:03 BUDGET (R168). -/
def dutyBudget : Reg :=
  { idx := 0x2C12, sub := 3, name := "BUDGET", kind := .u, size := 2, acc := .rwp2, home := .stored, rows := 16, dflt := .const 10000, rng := .span (0) (10000) }

/-- 0x2C13:01 CAC_TIME (R168). -/
def cacTime : Reg :=
  { idx := 0x2C13, sub := 1, name := "CAC_TIME", kind := .u, size := 2, acc := .rwp2, home := .stored, dflt := .const 60, rng := .span (60) (600) }

/-- 0x2C13:02 NOP_TIME (R168). -/
def nopTime : Reg :=
  { idx := 0x2C13, sub := 2, name := "NOP_TIME", kind := .u, size := 2, acc := .rwp2, home := .stored, dflt := .const 1800, rng := .span (1800) (7200) }

/-- 0x2C13:03 RADAR_RULESET (R168). -/
def radarRuleset : Reg :=
  { idx := 0x2C13, sub := 3, name := "RADAR_RULESET", kind := .u, size := 1, acc := .rwp2, home := .stored, rng := .span (0) (2) }

/-- 0x2C14:01 STAGE_CODE (R168). -/
def stageCode : Reg :=
  { idx := 0x2C14, sub := 1, name := "STAGE_CODE", kind := .str, size := 4, acc := .rwp2, home := .stored }

/-- 0x2C14:02 STAGE_VERSION (R168). -/
def stageVersion : Reg :=
  { idx := 0x2C14, sub := 2, name := "STAGE_VERSION", kind := .u, size := 4, acc := .rwp2, home := .stored }

/-- 0x2D00:01 BLANK_BY_H (R169). -/
def blankByH : Reg :=
  { idx := 0x2D00, sub := 1, name := "BLANK_BY_H", kind := .u, size := 1, acc := .rw, home := .stored, dflt := .const 15, rng := .mask 0x7F }

/-- 0x2D00:02 BLANK_BY_M0 (R169). -/
def blankByM0 : Reg :=
  { idx := 0x2D00, sub := 2, name := "BLANK_BY_M0", kind := .u, size := 1, acc := .rw, home := .stored, dflt := .const 48, rng := .mask 0x7F }

/-- 0x2D00:03 BLANK_BY_M1 (R169). -/
def blankByM1 : Reg :=
  { idx := 0x2D00, sub := 3, name := "BLANK_BY_M1", kind := .u, size := 1, acc := .rw, home := .stored, dflt := .const 48, rng := .mask 0x7F }

/-- 0x2D00:04 BLANK_BY_L (R169). -/
def blankByL : Reg :=
  { idx := 0x2D00, sub := 4, name := "BLANK_BY_L", kind := .u, size := 1, acc := .rw, home := .stored, dflt := .const 64, rng := .mask 0x7F }

/-- 0x2D00:05 BLANK_BY_IN0 (R169). -/
def blankByIn0 : Reg :=
  { idx := 0x2D00, sub := 5, name := "BLANK_BY_IN0", kind := .u, size := 1, acc := .rw, home := .stored, rng := .mask 0x7F }

/-- 0x2D00:06 BLANK_BY_IN1 (R169). -/
def blankByIn1 : Reg :=
  { idx := 0x2D00, sub := 6, name := "BLANK_BY_IN1", kind := .u, size := 1, acc := .rw, home := .stored, rng := .mask 0x7F }

/-- 0x2D00:07 COEX_LEAD (R169). -/
def coexLead : Reg :=
  { idx := 0x2D00, sub := 7, name := "COEX_LEAD", kind := .u, size := 1, acc := .rw, home := .stored, dflt := .const 2, rng := .span (0) (20) }

/-- 0x2D00:08 BLANK_TAIL (R169). -/
def blankTail : Reg :=
  { idx := 0x2D00, sub := 8, name := "BLANK_TAIL", kind := .u, size := 1, acc := .rw, home := .stored, dflt := .const 2, rng := .span (0) (20) }

/-- 0x2D00:09 COEX_POLARITY (R169). -/
def coexPolarity : Reg :=
  { idx := 0x2D00, sub := 9, name := "COEX_POLARITY", kind := .u, size := 1, acc := .rw, home := .stored, rng := .mask 0x1F }

/-- 0x2D00:0A COEX_IN_FILTER (R169). -/
def coexInFilter : Reg :=
  { idx := 0x2D00, sub := 10, name := "COEX_IN_FILTER", kind := .u, size := 2, acc := .rw, home := .stored, dflt := .const 100, rng := .span (50) (10000) }

/-- 0x2D10:01 BLANKED_H (R169). -/
def blankedH : Reg :=
  { idx := 0x2D10, sub := 1, name := "BLANKED_H", kind := .u, size := 4, acc := .ro, home := .retained }

/-- 0x2D10:02 BLANKED_M (R169). -/
def blankedM : Reg :=
  { idx := 0x2D10, sub := 2, name := "BLANKED_M", kind := .u, size := 4, acc := .ro, home := .retained }

/-- 0x2D10:03 BLANKED_L (R169). -/
def blankedL : Reg :=
  { idx := 0x2D10, sub := 3, name := "BLANKED_L", kind := .u, size := 4, acc := .ro, home := .retained }

/-- 0x3010[n]:01 AIFSN (R222). -/
def edcaAifsn : Reg :=
  { idx := 0x3010, sub := 1, name := "AIFSN", kind := .u, size := 1, acc := .rw, home := .stored, rows := 8, dflt := .cycle [7, 3, 1, 1], rng := .span (1) (15) }

/-- 0x3010[n]:02 ECWMIN (R222). -/
def edcaEcwmin : Reg :=
  { idx := 0x3010, sub := 2, name := "ECWMIN", kind := .u, size := 1, acc := .rw, home := .stored, rows := 8, dflt := .cycle [4, 4, 3, 2], rng := .span (0) (15) }

/-- 0x3010[n]:03 ECWMAX (R222). -/
def edcaEcwmax : Reg :=
  { idx := 0x3010, sub := 3, name := "ECWMAX", kind := .u, size := 1, acc := .rw, home := .stored, rows := 8, dflt := .cycle [10, 6, 4, 3], rng := .span (0) (15) }

/-- 0x3010[n]:04 TXOP_LIMIT (R222). -/
def edcaTxopLimit : Reg :=
  { idx := 0x3010, sub := 4, name := "TXOP_LIMIT", kind := .u, size := 2, acc := .rw, home := .stored, rows := 8, dflt := .cycle [0, 0, 94, 47] }

/-- 0x3010[n]:05 ADV_AIFSN (R222). -/
def edcaAdvAifsn : Reg :=
  { idx := 0x3010, sub := 5, name := "ADV_AIFSN", kind := .u, size := 1, acc := .rw, home := .stored, rows := 8, dflt := .cycle [7, 3, 2, 2], rng := .span (2) (15) }

/-- 0x3010[n]:06 ADV_ECWMIN (R222). -/
def edcaAdvEcwmin : Reg :=
  { idx := 0x3010, sub := 6, name := "ADV_ECWMIN", kind := .u, size := 1, acc := .rw, home := .stored, rows := 8, dflt := .cycle [4, 4, 3, 2], rng := .span (0) (15) }

/-- 0x3010[n]:07 ADV_ECWMAX (R222). -/
def edcaAdvEcwmax : Reg :=
  { idx := 0x3010, sub := 7, name := "ADV_ECWMAX", kind := .u, size := 1, acc := .rw, home := .stored, rows := 8, dflt := .cycle [10, 10, 4, 3], rng := .span (0) (15) }

/-- 0x3010[n]:08 ADV_TXOP (R222). -/
def edcaAdvTxop : Reg :=
  { idx := 0x3010, sub := 8, name := "ADV_TXOP", kind := .u, size := 2, acc := .rw, home := .stored, rows := 8, dflt := .cycle [0, 0, 94, 47] }

/-- 0x3020[n]:01 RETRY_LIMIT (R222). -/
def retryRetryLimit : Reg :=
  { idx := 0x3020, sub := 1, name := "RETRY_LIMIT", kind := .u, size := 1, acc := .rw, home := .stored, rows := 16, dflt := .const 7, rng := .span (1) (31) }

/-- 0x3020[n]:02 RETRY_HOLD (R222). -/
def retryRetryHold : Reg :=
  { idx := 0x3020, sub := 2, name := "RETRY_HOLD", kind := .u, size := 2, acc := .rw, home := .stored, rows := 16, dflt := .const 100, rng := .span (0) (10000) }

/-- 0x3030:01 MIN_BE (R222). -/
def minBe : Reg :=
  { idx := 0x3030, sub := 1, name := "MIN_BE", kind := .u, size := 1, acc := .rw, home := .stored, dflt := .const 3, rng := .span (0) (8) }

/-- 0x3030:02 MAX_BE (R222). -/
def maxBe : Reg :=
  { idx := 0x3030, sub := 2, name := "MAX_BE", kind := .u, size := 1, acc := .rw, home := .stored, dflt := .const 5, rng := .span (3) (8) }

/-- 0x3030:03 MAX_BACKOFFS (R222). -/
def maxBackoffs : Reg :=
  { idx := 0x3030, sub := 3, name := "MAX_BACKOFFS", kind := .u, size := 1, acc := .rw, home := .stored, dflt := .const 4, rng := .span (0) (5) }

/-- 0x3030:04 CCA_THRESHOLD (R222). -/
def ccaThreshold : Reg :=
  { idx := 0x3030, sub := 4, name := "CCA_THRESHOLD", kind := .i, size := 1, acc := .rw, home := .stored, dflt := .const 0xAB, rng := .span (-110) (-60) }

/-- 0x3030:05 EB_INTERVAL (R222). -/
def ebInterval : Reg :=
  { idx := 0x3030, sub := 5, name := "EB_INTERVAL", kind := .u, size := 2, acc := .rw, home := .stored, dflt := .const 4000, rng := .span (100) (60000) }

/-- 0x3030:06 CHILD_TX_WITHIN (R222). -/
def childTxWithin : Reg :=
  { idx := 0x3030, sub := 6, name := "CHILD_TX_WITHIN", kind := .u, size := 1, acc := .rw, home := .stored, dflt := .const 10, rng := .span (1) (50) }

/-- 0x3040:01 STA_IDLE_TIME (R222). -/
def staIdleTime : Reg :=
  { idx := 0x3040, sub := 1, name := "STA_IDLE_TIME", kind := .u, size := 2, acc := .rw, home := .stored, dflt := .const 300, rng := .span (10) (65535) }

/-- 0x3040:02 NBR_TIMEOUT (R222). -/
def nbrTimeout : Reg :=
  { idx := 0x3040, sub := 2, name := "NBR_TIMEOUT", kind := .u, size := 2, acc := .rw, home := .stored, dflt := .const 600, rng := .span (30) (65535) }

/-- 0x3040:03 CHILD_TIMEOUT (R222). -/
def childTimeout : Reg :=
  { idx := 0x3040, sub := 3, name := "CHILD_TIMEOUT", kind := .u, size := 4, acc := .rw, home := .stored, dflt := .const 3600, rng := .span (60) (604800) }

/-- 0x3040:04 CHILD_PERSIST (R222). -/
def childPersist : Reg :=
  { idx := 0x3040, sub := 4, name := "CHILD_PERSIST", kind := .u, size := 2, acc := .rw, home := .stored, dflt := .const 30, rng := .span (1) (3600) }

/-- 0x3040:05 GUARD_BASE (R222). -/
def guardBase : Reg :=
  { idx := 0x3040, sub := 5, name := "GUARD_BASE", kind := .u, size := 2, acc := .rw, home := .stored, dflt := .const 200, rng := .span (50) (5000) }

/-- 0x3040:06 GUARD_DRIFT (R222). -/
def guardDrift : Reg :=
  { idx := 0x3040, sub := 6, name := "GUARD_DRIFT", kind := .u, size := 1, acc := .rw, home := .stored, dflt := .const 40, rng := .span (2) (200) }

/-- 0x3040:07 GUARD_CAP (R222). -/
def guardCap : Reg :=
  { idx := 0x3040, sub := 7, name := "GUARD_CAP", kind := .u, size := 2, acc := .rw, home := .stored, dflt := .const 20, rng := .span (1) (100) }

/-- 0x3040:08 SCAN_DWELL (R222). -/
def scanDwell : Reg :=
  { idx := 0x3040, sub := 8, name := "SCAN_DWELL", kind := .u, size := 2, acc := .rw, home := .stored, dflt := .const 8000, rng := .span (100) (60000) }

/-- 0x3040:09 SCAN_INTERVAL (R222). -/
def scanInterval : Reg :=
  { idx := 0x3040, sub := 9, name := "SCAN_INTERVAL", kind := .u, size := 2, acc := .rw, home := .stored, dflt := .const 900, rng := .span (60) (86400) }

/-- 0x3040:0A STALE_RESYNC (R222). -/
def staleResync : Reg :=
  { idx := 0x3040, sub := 10, name := "STALE_RESYNC", kind := .u, size := 1, acc := .rw, home := .stored, dflt := .const 3, rng := .span (2) (16) }

/-- 0x3050:01 RETRY_EXHAUSTED (R222). -/
def retryExhausted : Reg :=
  { idx := 0x3050, sub := 1, name := "RETRY_EXHAUSTED", kind := .u, size := 4, acc := .ro, home := .retained }

/-- 0x3050:02 SEQ_STALE (R222). -/
def seqStale : Reg :=
  { idx := 0x3050, sub := 2, name := "SEQ_STALE", kind := .u, size := 4, acc := .ro, home := .retained }

/-- 0x3050:03 LOST_PARTNER (R222). -/
def lostPartner : Reg :=
  { idx := 0x3050, sub := 3, name := "LOST_PARTNER", kind := .u, size := 4, acc := .ro, home := .stored }

/-- 0x3050:04 LOST_PARTNER_FAILED (R222). -/
def lostPartnerFailed : Reg :=
  { idx := 0x3050, sub := 4, name := "LOST_PARTNER_FAILED", kind := .u, size := 4, acc := .ro, home := .stored }

/-- 0x3050:05 ADMIT_REFUSED (R222). -/
def admitRefused : Reg :=
  { idx := 0x3050, sub := 5, name := "ADMIT_REFUSED", kind := .u, size := 4, acc := .ro, home := .retained }

/-- 0x3050:06 NBR_TABLE_FULL (R222). -/
def nbrTableFull : Reg :=
  { idx := 0x3050, sub := 6, name := "NBR_TABLE_FULL", kind := .u, size := 4, acc := .ro, home := .retained }

/-- 0x3100[n]:01 STATE (R223). -/
def staState : Reg :=
  { idx := 0x3100, sub := 1, name := "STATE", kind := .u, size := 1, acc := .ro, home := .live, rows := 512 }

/-- 0x3100[n]:02 RADIO_BSS (R223). -/
def staRadioBss : Reg :=
  { idx := 0x3100, sub := 2, name := "RADIO_BSS", kind := .u, size := 1, acc := .ro, home := .live, rows := 512 }

/-- 0x3100[n]:03 ADDR (R223). -/
def staAddr : Reg :=
  { idx := 0x3100, sub := 3, name := "ADDR", kind := .oct, size := 6, acc := .ro, home := .live, rows := 512 }

/-- 0x3100[n]:04 AID (R223). -/
def staAid : Reg :=
  { idx := 0x3100, sub := 4, name := "AID", kind := .u, size := 2, acc := .ro, home := .live, rows := 512 }

/-- 0x3100[n]:05 PS_STATE (R223). -/
def staPsState : Reg :=
  { idx := 0x3100, sub := 5, name := "PS_STATE", kind := .u, size := 1, acc := .ro, home := .live, rows := 512 }

/-- 0x3100[n]:06 LAST_HEARD (R223). -/
def staLastHeard : Reg :=
  { idx := 0x3100, sub := 6, name := "LAST_HEARD", kind := .u, size := 4, acc := .ro, home := .live, rows := 512 }

/-- 0x3100[n]:07 KICK (R223). -/
def staKick : Reg :=
  { idx := 0x3100, sub := 7, name := "KICK", kind := .bool, size := 1, acc := .rw, home := .none, rows := 512 }

/-- 0x3200[n]:01 ADDR (R223). -/
def nbrAddr : Reg :=
  { idx := 0x3200, sub := 1, name := "ADDR", kind := .oct, size := 8, acc := .rw, home := .stored, rows := 1024 }

/-- 0x3200[n]:02 SHORT_ADDR (R223). -/
def nbrShortAddr : Reg :=
  { idx := 0x3200, sub := 2, name := "SHORT_ADDR", kind := .u, size := 2, acc := .rw, home := .stored, rows := 1024, dflt := .const 65535 }

/-- 0x3200[n]:03 ROLE (R223). -/
def nbrRole : Reg :=
  { idx := 0x3200, sub := 3, name := "ROLE", kind := .u, size := 1, acc := .rw, home := .stored, rows := 1024, rng := .span (0) (2) }

/-- 0x3200[n]:04 TX_MODE (R223). -/
def nbrTxMode : Reg :=
  { idx := 0x3200, sub := 4, name := "TX_MODE", kind := .u, size := 1, acc := .rw, home := .stored, rows := 1024, rng := .span (0) (13) }

/-- 0x3200[n]:05 RETRY_PROFILE (R223). -/
def nbrRetryProfile : Reg :=
  { idx := 0x3200, sub := 5, name := "RETRY_PROFILE", kind := .u, size := 1, acc := .rw, home := .stored, rows := 1024, rng := .span (0) (15) }

/-- 0x3200[n]:06 POLL_PERIOD (R223). -/
def nbrPollPeriod : Reg :=
  { idx := 0x3200, sub := 6, name := "POLL_PERIOD", kind := .u, size := 4, acc := .rw, home := .stored, rows := 1024 }

/-- 0x3200[n]:07 RX_SEQ (R223). -/
def nbrRxSeq : Reg :=
  { idx := 0x3200, sub := 7, name := "RX_SEQ", kind := .u, size := 2, acc := .ro, home := .live, rows := 1024 }

/-- 0x3200[n]:08 TX_SEQ (R223). -/
def nbrTxSeq : Reg :=
  { idx := 0x3200, sub := 8, name := "TX_SEQ", kind := .u, size := 2, acc := .ro, home := .live, rows := 1024 }

/-- 0x3200[n]:09 LINK_METRIC (R223). -/
def nbrLinkMetric : Reg :=
  { idx := 0x3200, sub := 9, name := "LINK_METRIC", kind := .u, size := 1, acc := .ro, home := .live, rows := 1024 }

/-- 0x3200[n]:0A LAST_HEARD (R223). -/
def nbrLastHeard : Reg :=
  { idx := 0x3200, sub := 10, name := "LAST_HEARD", kind := .u, size := 4, acc := .ro, home := .live, rows := 1024 }

/-- 0x3200[n]:0B INDIRECT (R223). -/
def nbrIndirect : Reg :=
  { idx := 0x3200, sub := 11, name := "INDIRECT", kind := .u, size := 1, acc := .ro, home := .live, rows := 1024 }

/-- 0x3200[n]:0C REMOVE (R223). -/
def nbrRemove : Reg :=
  { idx := 0x3200, sub := 12, name := "REMOVE", kind := .bool, size := 1, acc := .rw, home := .none, rows := 1024 }

/-- 0x3300[n]:01 USED_DATA (R224). -/
def dutyRowUsedData : Reg :=
  { idx := 0x3300, sub := 1, name := "USED_DATA", kind := .u, size := 4, acc := .ro, home := .none, rows := 16 }

/-- 0x3300[n]:02 USED_ACK (R224). -/
def dutyRowUsedAck : Reg :=
  { idx := 0x3300, sub := 2, name := "USED_ACK", kind := .u, size := 4, acc := .ro, home := .none, rows := 16 }

/-- 0x3300[n]:03 DEFERRED (R224). -/
def dutyRowDeferred : Reg :=
  { idx := 0x3300, sub := 3, name := "DEFERRED", kind := .u, size := 4, acc := .ro, home := .retained, rows := 16 }

/-- 0x3301:01 ACK_RESERVE (R224). -/
def ackReserve : Reg :=
  { idx := 0x3301, sub := 1, name := "ACK_RESERVE", kind := .u, size := 1, acc := .rw, home := .stored, dflt := .const 10, rng := .span (0) (50) }

/-- 0x3301:02 ACK_REFUSED (R224). -/
def ackRefused : Reg :=
  { idx := 0x3301, sub := 2, name := "ACK_REFUSED", kind := .u, size := 4, acc := .ro, home := .retained }

/-- 0x3400:01 ROUND_TIME (R225). -/
def roundTime : Reg :=
  { idx := 0x3400, sub := 1, name := "ROUND_TIME", kind := .u, size := 1, acc := .rw, home := .stored, dflt := .const 10, rng := .span (1) (100) }

/-- 0x3400:02 USERS_MAX_H (R225). -/
def usersMaxH : Reg :=
  { idx := 0x3400, sub := 2, name := "USERS_MAX_H", kind := .u, size := 1, acc := .rw, home := .stored, dflt := .const 74, rng := .span (1) (74) }

/-- 0x3400:03 USERS_MAX_M (R225). -/
def usersMaxM : Reg :=
  { idx := 0x3400, sub := 3, name := "USERS_MAX_M", kind := .u, size := 1, acc := .rw, home := .stored, dflt := .const 18, rng := .span (1) (18) }

/-- 0x3400:04 USERS_LEHR_H (R225). -/
def usersLehrH : Reg :=
  { idx := 0x3400, sub := 4, name := "USERS_LEHR_H", kind := .u, size := 1, acc := .ro, home := .live, dflt := .const 74 }

/-- 0x3400:05 USERS_LEHR_M (R225). -/
def usersLehrM : Reg :=
  { idx := 0x3400, sub := 5, name := "USERS_LEHR_M", kind := .u, size := 1, acc := .ro, home := .live, dflt := .const 18 }

/-- 0x3400:06 STATION_LIMIT (R225). -/
def stationLimit : Reg :=
  { idx := 0x3400, sub := 6, name := "STATION_LIMIT", kind := .u, size := 2, acc := .rw, home := .stored, dflt := .const 512, rng := .span (1) (512) }

/-- 0x3400:07 STATION_LEHR (R225). -/
def stationLehr : Reg :=
  { idx := 0x3400, sub := 7, name := "STATION_LEHR", kind := .u, size := 2, acc := .ro, home := .live, dflt := .const 512 }

/-- 0x3400:08 DL_MU_MIMO (R225). -/
def dlMuMimo : Reg :=
  { idx := 0x3400, sub := 8, name := "DL_MU_MIMO", kind := .bool, size := 1, acc := .rw, home := .stored, dflt := .const 1 }

/-- 0x3400:09 TWT_ENABLE (R225). -/
def twtEnable : Reg :=
  { idx := 0x3400, sub := 9, name := "TWT_ENABLE", kind := .bool, size := 1, acc := .rw, home := .stored, dflt := .const 1 }

/-- 0x3400:0A TWT_MIN_SP (R225). -/
def twtMinSp : Reg :=
  { idx := 0x3400, sub := 10, name := "TWT_MIN_SP", kind := .u, size := 2, acc := .rw, home := .stored, dflt := .const 1024, rng := .span (256) (65280) }

/-- 0x3400:0B TWT_LEAD (R225). -/
def twtLead : Reg :=
  { idx := 0x3400, sub := 11, name := "TWT_LEAD", kind := .u, size := 2, acc := .rw, home := .stored, dflt := .const 500, rng := .span (50) (10000) }

/-- 0x3410[n]:01 RADIO_BSS (R225). -/
def btwtRadioBss : Reg :=
  { idx := 0x3410, sub := 1, name := "RADIO_BSS", kind := .u, size := 1, acc := .rw, home := .stored, rows := 32, dflt := .const 255 }

/-- 0x3410[n]:02 INTERVAL (R225). -/
def btwtInterval : Reg :=
  { idx := 0x3410, sub := 2, name := "INTERVAL", kind := .u, size := 4, acc := .rw, home := .stored, rows := 32, rng := .span (1024) (4294967295) }

/-- 0x3410[n]:03 SP (R225). -/
def btwtSp : Reg :=
  { idx := 0x3410, sub := 3, name := "SP", kind := .u, size := 2, acc := .rw, home := .stored, rows := 32, rng := .span (256) (65280) }

/-- 0x3410[n]:04 OFFSET (R225). -/
def btwtOffset : Reg :=
  { idx := 0x3410, sub := 4, name := "OFFSET", kind := .u, size := 4, acc := .rw, home := .stored, rows := 32 }

/-- 0x3500[n]:01 ENABLE (R226). -/
def sfEnable : Reg :=
  { idx := 0x3500, sub := 1, name := "ENABLE", kind := .bool, size := 1, acc := .rw, home := .stored, rows := 8 }

/-- 0x3500[n]:02 SIZE (R226). -/
def sfSize : Reg :=
  { idx := 0x3500, sub := 2, name := "SIZE", kind := .u, size := 2, acc := .rw, home := .stored, rows := 8, dflt := .const 101, rng := .span (1) (65535) }

/-- 0x3501[n]:01 SLOTFRAME (R226). -/
def cellSlotframe : Reg :=
  { idx := 0x3501, sub := 1, name := "SLOTFRAME", kind := .u, size := 1, acc := .rw, home := .stored, rows := 4096, dflt := .const 255, rng := .spanOr (0) (7) 255 }

/-- 0x3501[n]:02 SLOT_OFFSET (R226). -/
def cellSlotOffset : Reg :=
  { idx := 0x3501, sub := 2, name := "SLOT_OFFSET", kind := .u, size := 2, acc := .rw, home := .stored, rows := 4096 }

/-- 0x3501[n]:03 CHANNEL_OFFSET (R226). -/
def cellChannelOffset : Reg :=
  { idx := 0x3501, sub := 3, name := "CHANNEL_OFFSET", kind := .u, size := 2, acc := .rw, home := .stored, rows := 4096, rng := .span (0) (65535) }

/-- 0x3501[n]:04 OPTIONS (R226). -/
def cellOptions : Reg :=
  { idx := 0x3501, sub := 4, name := "OPTIONS", kind := .u, size := 1, acc := .rw, home := .stored, rows := 4096, rng := .mask 0xF }

/-- 0x3501[n]:05 NEIGHBOUR (R226). -/
def cellNeighbour : Reg :=
  { idx := 0x3501, sub := 5, name := "NEIGHBOUR", kind := .u, size := 2, acc := .rw, home := .stored, rows := 4096, dflt := .const 65535, rng := .spanOr (0) (1023) 65535 }

/-- 0x3502:01 TIMESLOT (R226). -/
def timeslot : Reg :=
  { idx := 0x3502, sub := 1, name := "TIMESLOT", kind := .u, size := 2, acc := .rw, home := .stored, dflt := .const 10000, rng := .span (2000) (50000) }

/-- 0x3502:02 TSCH_EPOCH (R226). -/
def tschEpoch : Reg :=
  { idx := 0x3502, sub := 2, name := "TSCH_EPOCH", kind := .time, size := 14, acc := .rw, home := .stored }

/-- 0x3502:03 CH0_FREQ (R226). -/
def ch0Freq : Reg :=
  { idx := 0x3502, sub := 3, name := "CH0_FREQ", kind := .u, size := 4, acc := .rw, home := .stored, dflt := .const 863125, rng := .bands [(470000, 510000), (750000, 960000)] }

/-- 0x3502:04 CH_SPACING (R226). -/
def chSpacing : Reg :=
  { idx := 0x3502, sub := 4, name := "CH_SPACING", kind := .u, size := 4, acc := .rw, home := .stored, dflt := .const 200, rng := .span (12) (2000) }

/-- 0x3502:05 HOP_LEN (R226). -/
def hopLen : Reg :=
  { idx := 0x3502, sub := 5, name := "HOP_LEN", kind := .u, size := 1, acc := .rw, home := .stored, dflt := .const 1, rng := .span (1) (64) }

/-- 0x3502:06 HOP_LIST (R226). -/
def hopList : Reg :=
  { idx := 0x3502, sub := 6, name := "HOP_LIST", kind := .oct, size := 64, acc := .rw, home := .stored }

/-- 0x3502:07 ASN (R226). -/
def asn : Reg :=
  { idx := 0x3502, sub := 7, name := "ASN", kind := .u, size := 8, acc := .ro, home := .none }

/-- 0x3600[n]:01 ENABLE (R258). -/
def caneEnable : Reg :=
  { idx := 0x3600, sub := 1, name := "ENABLE", kind := .bool, size := 1, acc := .rwp1, home := .stored, rows := 32 }

/-- 0x3600[n]:02 PEER_ID (R258). -/
def canePeerId : Reg :=
  { idx := 0x3600, sub := 2, name := "PEER_ID", kind := .oct, size := 8, acc := .rwp1, home := .stored, rows := 32 }

/-- 0x3600[n]:03 STRANDS (R258). -/
def caneStrands : Reg :=
  { idx := 0x3600, sub := 3, name := "STRANDS", kind := .u, size := 1, acc := .rwp1, home := .stored, rows := 32, rng := .mask 0x7 }

/-- 0x3600[n]:04 H_ADDR (R258). -/
def caneHAddr : Reg :=
  { idx := 0x3600, sub := 4, name := "H_ADDR", kind := .oct, size := 6, acc := .rwp1, home := .stored, rows := 32 }

/-- 0x3600[n]:05 M_ADDR (R258). -/
def caneMAddr : Reg :=
  { idx := 0x3600, sub := 5, name := "M_ADDR", kind := .oct, size := 6, acc := .rwp1, home := .stored, rows := 32 }

/-- 0x3600[n]:06 L_NBR (R258). -/
def caneLNbr : Reg :=
  { idx := 0x3600, sub := 6, name := "L_NBR", kind := .u, size := 2, acc := .rwp1, home := .stored, rows := 32, dflt := .const 65535, rng := .spanOr (0) (1023) 65535 }

/-- 0x3600[n]:07 CTX (R258). -/
def caneCtx7 : Reg :=
  { idx := 0x3600, sub := 7, name := "CTX", kind := .u, size := 2, acc := .rwp1, home := .stored, rows := 32, rng := .span (0) (2047) }

/-- 0x3600[n]:08 CTX (R258). -/
def caneCtx8 : Reg :=
  { idx := 0x3600, sub := 8, name := "CTX", kind := .u, size := 2, acc := .rwp1, home := .stored, rows := 32, rng := .span (0) (2047) }

/-- 0x3600[n]:09 CTX (R258). -/
def caneCtx9 : Reg :=
  { idx := 0x3600, sub := 9, name := "CTX", kind := .u, size := 2, acc := .rwp1, home := .stored, rows := 32, rng := .span (0) (2047) }

/-- 0x3600[n]:0A CTX (R258). -/
def caneCtx10 : Reg :=
  { idx := 0x3600, sub := 10, name := "CTX", kind := .u, size := 2, acc := .rwp1, home := .stored, rows := 32, rng := .span (0) (2047) }

/-- 0x3600[n]:0B CTX (R258). -/
def caneCtx11 : Reg :=
  { idx := 0x3600, sub := 11, name := "CTX", kind := .u, size := 2, acc := .rwp1, home := .stored, rows := 32, rng := .span (0) (2047) }

/-- 0x3600[n]:0C CTX (R258). -/
def caneCtx12 : Reg :=
  { idx := 0x3600, sub := 12, name := "CTX", kind := .u, size := 2, acc := .rwp1, home := .stored, rows := 32, rng := .span (0) (2047) }

/-- 0x3600[n]:0D CANE_MTU (R258). -/
def caneCaneMtu : Reg :=
  { idx := 0x3600, sub := 13, name := "CANE_MTU", kind := .u, size := 2, acc := .rw, home := .stored, rows := 32, dflt := .const 1536, rng := .span (64) (2003) }

/-- 0x3600[n]:0E HOLD_TIME (R258). -/
def caneHoldTime : Reg :=
  { idx := 0x3600, sub := 14, name := "HOLD_TIME", kind := .u, size := 2, acc := .rw, home := .stored, rows := 32, dflt := .const 20, rng := .span (1) (1000) }

/-- 0x3600[n]:0F ACK_DELAY (R258). -/
def caneAckDelay : Reg :=
  { idx := 0x3600, sub := 15, name := "ACK_DELAY", kind := .u, size := 2, acc := .rw, home := .stored, rows := 32, dflt := .const 1000, rng := .span (100) (20000) }

/-- 0x3600[n]:10 RESEND_TIME (R258). -/
def caneResendTime : Reg :=
  { idx := 0x3600, sub := 16, name := "RESEND_TIME", kind := .u, size := 2, acc := .rw, home := .stored, rows := 32, dflt := .const 100, rng := .span (10) (10000) }

/-- 0x3600[n]:11 DELETE (R258). -/
def caneDelete : Reg :=
  { idx := 0x3600, sub := 17, name := "DELETE", kind := .bool, size := 1, acc := .rwp1, home := .none, rows := 32 }

/-- 0x3600[n]:12 ROUTER_MAC (R258). -/
def caneRouterMac : Reg :=
  { idx := 0x3600, sub := 18, name := "ROUTER_MAC", kind := .oct, size := 6, acc := .rwp1, home := .stored, rows := 32 }

/-- 0x3601[n]:01 POLICY (R259). -/
def streamPolicy : Reg :=
  { idx := 0x3601, sub := 1, name := "POLICY", kind := .u, size := 1, acc := .rw, home := .stored, rows := 256, rng := .span (0) (2) }

/-- 0x3601[n]:02 PIN (R259). -/
def streamPin : Reg :=
  { idx := 0x3601, sub := 2, name := "PIN", kind := .u, size := 1, acc := .rw, home := .stored, rows := 256, rng := .span (0) (2) }

/-- 0x3601[n]:03 PIN_FAILOVER (R259). -/
def streamPinFailover : Reg :=
  { idx := 0x3601, sub := 3, name := "PIN_FAILOVER", kind := .bool, size := 1, acc := .rw, home := .stored, rows := 256, dflt := .const 1 }

/-- 0x3601[n]:04 CRITICAL (R259). -/
def streamCritical : Reg :=
  { idx := 0x3601, sub := 4, name := "CRITICAL", kind := .bool, size := 1, acc := .rw, home := .stored, rows := 256 }

/-- 0x3601[n]:05 TID (R259). -/
def streamTid : Reg :=
  { idx := 0x3601, sub := 5, name := "TID", kind := .u, size := 1, acc := .rw, home := .stored, rows := 256, dflt := .cycle [0, 1, 2, 3, 4, 5, 6, 7], rng := .span (0) (7) }

/-- 0x3601[n]:06 TX_NEXT (R259). -/
def streamTxNext : Reg :=
  { idx := 0x3601, sub := 6, name := "TX_NEXT", kind := .u, size := 4, acc := .ro, home := .retained, rows := 256 }

/-- 0x3601[n]:07 RX_NEXT (R259). -/
def streamRxNext : Reg :=
  { idx := 0x3601, sub := 7, name := "RX_NEXT", kind := .u, size := 4, acc := .ro, home := .retained, rows := 256 }

/-- 0x3601[n]:08 RX_HELD (R259). -/
def streamRxHeld : Reg :=
  { idx := 0x3601, sub := 8, name := "RX_HELD", kind := .u, size := 2, acc := .ro, home := .live, rows := 256 }

/-- 0x3602[n]:01 STATE (R260). -/
def linkState : Reg :=
  { idx := 0x3602, sub := 1, name := "STATE", kind := .u, size := 1, acc := .ro, home := .live, rows := 32 }

/-- 0x3602[n]:02 STRAND_STATE (R260). -/
def linkStrandState : Reg :=
  { idx := 0x3602, sub := 2, name := "STRAND_STATE", kind := .u, size := 1, acc := .ro, home := .live, rows := 32 }

/-- 0x3602[n]:03 PEER_EPOCH (R260). -/
def linkPeerEpoch : Reg :=
  { idx := 0x3602, sub := 3, name := "PEER_EPOCH", kind := .u, size := 2, acc := .ro, home := .retained, rows := 32 }

/-- 0x3602[n]:04 FAILOVERS (R260). -/
def linkFailovers : Reg :=
  { idx := 0x3602, sub := 4, name := "FAILOVERS", kind := .u, size := 4, acc := .ro, home := .retained, rows := 32 }

/-- 0x3602[n]:05 NACKS_SENT (R260). -/
def linkNacksSent : Reg :=
  { idx := 0x3602, sub := 5, name := "NACKS_SENT", kind := .u, size := 4, acc := .ro, home := .retained, rows := 32 }

/-- 0x3602[n]:06 RESENDS (R260). -/
def linkResends : Reg :=
  { idx := 0x3602, sub := 6, name := "RESENDS", kind := .u, size := 4, acc := .ro, home := .retained, rows := 32 }

/-- 0x3602[n]:07 TWINS_SENT (R260). -/
def linkTwinsSent : Reg :=
  { idx := 0x3602, sub := 7, name := "TWINS_SENT", kind := .u, size := 4, acc := .ro, home := .retained, rows := 32 }

/-- 0x3602[n]:08 TWINS_REMELTED (R260). -/
def linkTwinsRemelted : Reg :=
  { idx := 0x3602, sub := 8, name := "TWINS_REMELTED", kind := .u, size := 4, acc := .ro, home := .retained, rows := 32 }

/-- 0x3602[n]:09 BEYOND_WINDOW (R260). -/
def linkBeyondWindow : Reg :=
  { idx := 0x3602, sub := 9, name := "BEYOND_WINDOW", kind := .u, size := 4, acc := .ro, home := .retained, rows := 32 }

/-- 0x3602[n]:0A EPOCH_HOLES (R260). -/
def linkEpochHoles : Reg :=
  { idx := 0x3602, sub := 10, name := "EPOCH_HOLES", kind := .u, size := 4, acc := .ro, home := .stored, rows := 32 }

/-- 0x3602[n]:0B PEER_DRAINING (R260). -/
def linkPeerDraining : Reg :=
  { idx := 0x3602, sub := 11, name := "PEER_DRAINING", kind := .bool, size := 1, acc := .ro, home := .live, rows := 32 }

/-- 0x3610:01 CANE_ETHERTYPE (R260). -/
def caneEthertype : Reg :=
  { idx := 0x3610, sub := 1, name := "CANE_ETHERTYPE", kind := .u, size := 2, acc := .rwp1, home := .stored, dflt := .const 34997, rng := .span (1536) (65535) }

/-- 0x3610:02 PROBE_INTERVAL_HM (R260). -/
def probeIntervalHm : Reg :=
  { idx := 0x3610, sub := 2, name := "PROBE_INTERVAL_HM", kind := .u, size := 2, acc := .rw, home := .stored, dflt := .const 20, rng := .span (5) (1000) }

/-- 0x3610:03 PROBE_INTERVAL_L (R260). -/
def probeIntervalL : Reg :=
  { idx := 0x3610, sub := 3, name := "PROBE_INTERVAL_L", kind := .u, size := 2, acc := .rw, home := .stored, dflt := .const 1000, rng := .span (100) (60000) }

/-- 0x3610:04 STRAND_DEAD_ATTEMPTS (R260). -/
def strandDeadAttempts : Reg :=
  { idx := 0x3610, sub := 4, name := "STRAND_DEAD_ATTEMPTS", kind := .u, size := 1, acc := .rw, home := .stored, dflt := .const 8, rng := .span (2) (32) }

/-- 0x3610:05 STRAND_DEAD_TIME_HM (R260). -/
def strandDeadTimeHm : Reg :=
  { idx := 0x3610, sub := 5, name := "STRAND_DEAD_TIME_HM", kind := .u, size := 2, acc := .rw, home := .stored, dflt := .const 50, rng := .span (10) (2000) }

/-- 0x3610:06 STRAND_DEAD_TIME_L (R260). -/
def strandDeadTimeL : Reg :=
  { idx := 0x3610, sub := 6, name := "STRAND_DEAD_TIME_L", kind := .u, size := 2, acc := .rw, home := .stored, dflt := .const 3000, rng := .span (500) (60000) }

/-- 0x3610:07 STRAND_UP_PROBES (R260). -/
def strandUpProbes : Reg :=
  { idx := 0x3610, sub := 7, name := "STRAND_UP_PROBES", kind := .u, size := 1, acc := .rw, home := .stored, dflt := .const 3, rng := .span (1) (16) }

/-- 0x3610:08 CANE_EPOCH (R260). -/
def caneEpoch : Reg :=
  { idx := 0x3610, sub := 8, name := "CANE_EPOCH", kind := .u, size := 2, acc := .ro, home := .stored }

/-- 0x3610:09 CANE_BAD_HEADER (R260). -/
def caneBadHeader : Reg :=
  { idx := 0x3610, sub := 9, name := "CANE_BAD_HEADER", kind := .u, size := 4, acc := .ro, home := .retained }

/-- 0x3700:01 GATHER_AHEAD (R261). -/
def gatherAhead : Reg :=
  { idx := 0x3700, sub := 1, name := "GATHER_AHEAD", kind := .u, size := 1, acc := .rw, home := .stored, dflt := .const 2, rng := .span (1) (4) }

/-- 0x3700:02 GATHER_AHEAD_LEHR (R261). -/
def gatherAheadLehr : Reg :=
  { idx := 0x3700, sub := 2, name := "GATHER_AHEAD_LEHR", kind := .u, size := 1, acc := .ro, home := .live, dflt := .const 4 }

/-- 0x3700:03 GATHER_AGE (R261). -/
def gatherAge : Reg :=
  { idx := 0x3700, sub := 3, name := "GATHER_AGE", kind := .u, size := 2, acc := .rw, home := .stored, dflt := .const 4000, rng := .span (500) (50000) }

/-- 0x3700:04 GATHER_MAX_OCTETS (R261). -/
def gatherMaxOctets : Reg :=
  { idx := 0x3700, sub := 4, name := "GATHER_MAX_OCTETS", kind := .u, size := 4, acc := .rw, home := .stored, dflt := .const 393216, rng := .span (16384) (524288) }

/-- 0x3700:05 RATE_REMELT_STEPS (R261). -/
def rateRemeltSteps : Reg :=
  { idx := 0x3700, sub := 5, name := "RATE_REMELT_STEPS", kind := .u, size := 1, acc := .rw, home := .stored, dflt := .const 2, rng := .span (1) (11) }

/-- 0x3700:06 GATHERS_IN_FLIGHT (R261). -/
def gathersInFlight : Reg :=
  { idx := 0x3700, sub := 6, name := "GATHERS_IN_FLIGHT", kind := .u, size := 1, acc := .ro, home := .none }

/-- 0x3700:07 GATHER_STORE_USED (R261). -/
def gatherStoreUsed : Reg :=
  { idx := 0x3700, sub := 7, name := "GATHER_STORE_USED", kind := .u, size := 4, acc := .ro, home := .none }

/-- 0x3700:08 GATHERS_BUILT (R261). -/
def gathersBuilt : Reg :=
  { idx := 0x3700, sub := 8, name := "GATHERS_BUILT", kind := .u, size := 8, acc := .ro, home := .retained, unsat := true }

/-- 0x3700:09 GATHERS_SENT (R261). -/
def gathersSent : Reg :=
  { idx := 0x3700, sub := 9, name := "GATHERS_SENT", kind := .u, size := 8, acc := .ro, home := .retained, unsat := true }

/-- 0x3700:0A MPDUS_REMELTED (R261). -/
def mpdusRemelted : Reg :=
  { idx := 0x3700, sub := 10, name := "MPDUS_REMELTED", kind := .u, size := 8, acc := .ro, home := .retained, unsat := true }

/-- 0x3700:0B PN_BURNT (R261). -/
def pnBurnt : Reg :=
  { idx := 0x3700, sub := 11, name := "PN_BURNT", kind := .u, size := 8, acc := .ro, home := .retained, unsat := true }

/-- 0x3700:0C CASCADE_REMELTS (R261). -/
def cascadeRemelts : Reg :=
  { idx := 0x3700, sub := 12, name := "CASCADE_REMELTS", kind := .u, size := 4, acc := .ro, home := .retained }

/-- 0x3700:0D GA_FALLBACK (R261). -/
def gaFallback : Reg :=
  { idx := 0x3700, sub := 13, name := "GA_FALLBACK", kind := .bool, size := 1, acc := .ro, home := .none }

/-- 0x3701:01 REMELT_CAUSE (R261). -/
def remeltCause1 : Reg :=
  { idx := 0x3701, sub := 1, name := "REMELT_CAUSE", kind := .u, size := 4, acc := .ro, home := .retained }

/-- 0x3701:02 REMELT_CAUSE (R261). -/
def remeltCause2 : Reg :=
  { idx := 0x3701, sub := 2, name := "REMELT_CAUSE", kind := .u, size := 4, acc := .ro, home := .retained }

/-- 0x3701:03 REMELT_CAUSE (R261). -/
def remeltCause3 : Reg :=
  { idx := 0x3701, sub := 3, name := "REMELT_CAUSE", kind := .u, size := 4, acc := .ro, home := .retained }

/-- 0x3701:04 REMELT_CAUSE (R261). -/
def remeltCause4 : Reg :=
  { idx := 0x3701, sub := 4, name := "REMELT_CAUSE", kind := .u, size := 4, acc := .ro, home := .retained }

/-- 0x3701:05 REMELT_CAUSE (R261). -/
def remeltCause5 : Reg :=
  { idx := 0x3701, sub := 5, name := "REMELT_CAUSE", kind := .u, size := 4, acc := .ro, home := .retained }

/-- 0x3701:06 REMELT_CAUSE (R261). -/
def remeltCause6 : Reg :=
  { idx := 0x3701, sub := 6, name := "REMELT_CAUSE", kind := .u, size := 4, acc := .ro, home := .retained }

/-- 0x3701:07 REMELT_CAUSE (R261). -/
def remeltCause7 : Reg :=
  { idx := 0x3701, sub := 7, name := "REMELT_CAUSE", kind := .u, size := 4, acc := .ro, home := .retained }

/-- 0x3701:08 REMELT_CAUSE (R261). -/
def remeltCause8 : Reg :=
  { idx := 0x3701, sub := 8, name := "REMELT_CAUSE", kind := .u, size := 4, acc := .ro, home := .retained }

/-- 0x3701:09 REMELT_CAUSE (R261). -/
def remeltCause9 : Reg :=
  { idx := 0x3701, sub := 9, name := "REMELT_CAUSE", kind := .u, size := 4, acc := .ro, home := .retained }

/-- 0x3701:0A REMELT_CAUSE (R261). -/
def remeltCause10 : Reg :=
  { idx := 0x3701, sub := 10, name := "REMELT_CAUSE", kind := .u, size := 4, acc := .ro, home := .retained }

/-- 0x4000[n]:01 MODE (R293). -/
def ethMode : Reg :=
  { idx := 0x4000, sub := 1, name := "MODE", kind := .u, size := 1, acc := .rwp1, home := .stored, rows := 2, dflt := .const 1, rng := .span (0) (4) }

/-- 0x4000[n]:02 AUTONEG (R293). -/
def ethAutoneg : Reg :=
  { idx := 0x4000, sub := 2, name := "AUTONEG", kind := .bool, size := 1, acc := .rw, home := .stored, rows := 2, dflt := .const 1 }

/-- 0x4000[n]:03 FEC (R293). -/
def ethFec : Reg :=
  { idx := 0x4000, sub := 3, name := "FEC", kind := .bool, size := 1, acc := .rw, home := .stored, rows := 2 }

/-- 0x4000[n]:04 MAX_FRAME (R293). -/
def ethMaxFrame : Reg :=
  { idx := 0x4000, sub := 4, name := "MAX_FRAME", kind := .u, size := 2, acc := .rw, home := .stored, rows := 2, dflt := .const 1522, rng := .span (64) (9216) }

/-- 0x4000[n]:05 FLOW_CTRL (R293). -/
def ethFlowCtrl : Reg :=
  { idx := 0x4000, sub := 5, name := "FLOW_CTRL", kind := .u, size := 1, acc := .rw, home := .stored, rows := 2, dflt := .const 1, rng := .span (0) (2) }

/-- 0x4000[n]:06 ROUTER_MAC (R293). -/
def ethRouterMac : Reg :=
  { idx := 0x4000, sub := 6, name := "ROUTER_MAC", kind := .oct, size := 6, acc := .rw, home := .stored, rows := 2 }

/-- 0x4000[n]:07 LINK (R293). -/
def ethLink : Reg :=
  { idx := 0x4000, sub := 7, name := "LINK", kind := .u, size := 1, acc := .ro, home := .live, rows := 2 }

/-- 0x4000[n]:08 RX_FRAMES (R293). -/
def ethRxFrames : Reg :=
  { idx := 0x4000, sub := 8, name := "RX_FRAMES", kind := .u, size := 8, acc := .ro, home := .retained, rows := 2, unsat := true }

/-- 0x4000[n]:09 RX_FCS_DROP (R293). -/
def ethRxFcsDrop : Reg :=
  { idx := 0x4000, sub := 9, name := "RX_FCS_DROP", kind := .u, size := 4, acc := .ro, home := .retained, rows := 2 }

/-- 0x4000[n]:0A RX_LONG_DROP (R293). -/
def ethRxLongDrop : Reg :=
  { idx := 0x4000, sub := 10, name := "RX_LONG_DROP", kind := .u, size := 4, acc := .ro, home := .retained, rows := 2 }

/-- 0x4000[n]:0B BUFFER_DROP (R293). -/
def ethBufferDrop : Reg :=
  { idx := 0x4000, sub := 11, name := "BUFFER_DROP", kind := .u, size := 4, acc := .ro, home := .retained, rows := 2 }

/-- 0x4000[n]:0C TX_FRAMES (R293). -/
def ethTxFrames : Reg :=
  { idx := 0x4000, sub := 12, name := "TX_FRAMES", kind := .u, size := 8, acc := .ro, home := .retained, rows := 2, unsat := true }

/-- 0x4002:01 DSCP_MAP (R293). -/
def dscpMap : Reg :=
  { idx := 0x4002, sub := 1, name := "DSCP_MAP", kind := .oct, size := 64, acc := .rw, home := .stored, dflt := .const 0x101010101010101020202020202020203030303030303030404040404040404050505050505050506060606060606060707070707070707 }

/-- 0x4002:02 PCP_MAP (R293). -/
def pcpMap : Reg :=
  { idx := 0x4002, sub := 2, name := "PCP_MAP", kind := .oct, size := 8, acc := .rw, home := .stored, dflt := .const 0x1020304050607 }

/-- 0x4010[n]:01 KIND (R293). -/
def ictxKind : Reg :=
  { idx := 0x4010, sub := 1, name := "KIND", kind := .u, size := 1, acc := .rw, home := .stored, rows := 2048, rng := .span (0) (6) }

/-- 0x4010[n]:02 KEY (R293). -/
def ictxKey : Reg :=
  { idx := 0x4010, sub := 2, name := "KEY", kind := .u, size := 2, acc := .rw, home := .stored, rows := 2048 }

/-- 0x4010[n]:03 POLICER (R293). -/
def ictxPolicer : Reg :=
  { idx := 0x4010, sub := 3, name := "POLICER", kind := .u, size := 2, acc := .rw, home := .stored, rows := 2048, dflt := .const 65535, rng := .spanOr (0) (1023) 65535 }

/-- 0x4010[n]:04 ZONE (R293). -/
def ictxZone : Reg :=
  { idx := 0x4010, sub := 4, name := "ZONE", kind := .u, size := 1, acc := .rw, home := .stored, rows := 2048, rng := .span (0) (255) }

/-- 0x4010[n]:05 BD (R293). -/
def ictxBd : Reg :=
  { idx := 0x4010, sub := 5, name := "BD", kind := .u, size := 2, acc := .rw, home := .stored, rows := 2048, dflt := .const 65535, rng := .spanOr (0) (4095) 65535 }

/-- 0x4010[n]:06 LEARN (R293). -/
def ictxLearn : Reg :=
  { idx := 0x4010, sub := 6, name := "LEARN", kind := .bool, size := 1, acc := .rw, home := .stored, rows := 2048, dflt := .const 1 }

/-- 0x4100[n]:01 VALID (R294). -/
def flowValid : Reg :=
  { idx := 0x4100, sub := 1, name := "VALID", kind := .bool, size := 1, acc := .rw, home := .none, rows := 16384 }

/-- 0x4100[n]:02 KEY (R294). -/
def flowKey : Reg :=
  { idx := 0x4100, sub := 2, name := "KEY", kind := .oct, size := 40, acc := .ro, home := .none, rows := 16384 }

/-- 0x4100[n]:03 ACTION (R294). -/
def flowAction : Reg :=
  { idx := 0x4100, sub := 3, name := "ACTION", kind := .u, size := 1, acc := .rw, home := .none, rows := 16384, rng := .span (0) (2) }

/-- 0x4100[n]:04 TARGET (R294). -/
def flowTarget : Reg :=
  { idx := 0x4100, sub := 4, name := "TARGET", kind := .u, size := 2, acc := .rw, home := .none, rows := 16384 }

/-- 0x4100[n]:05 CLASS (R294). -/
def flowClass : Reg :=
  { idx := 0x4100, sub := 5, name := "CLASS", kind := .u, size := 1, acc := .rw, home := .none, rows := 16384, rng := .span (0) (7) }

/-- 0x4100[n]:06 IDLE (R294). -/
def flowIdle : Reg :=
  { idx := 0x4100, sub := 6, name := "IDLE", kind := .u, size := 2, acc := .rw, home := .none, rows := 16384 }

/-- 0x4100[n]:07 HITS (R294). -/
def flowHits : Reg :=
  { idx := 0x4100, sub := 7, name := "HITS", kind := .u, size := 8, acc := .ro, home := .none, rows := 16384, unsat := true }

/-- 0x4101:01 STAGE_KEY (R294). -/
def stgStageKey : Reg :=
  { idx := 0x4101, sub := 1, name := "STAGE_KEY", kind := .oct, size := 40, acc := .rw, home := .none, loc := true }

/-- 0x4101:02 STAGE_ACTION (R294). -/
def stgStageAction : Reg :=
  { idx := 0x4101, sub := 2, name := "STAGE_ACTION", kind := .u, size := 1, acc := .rw, home := .none, rng := .span (0) (2), loc := true }

/-- 0x4101:03 STAGE_TARGET (R294). -/
def stgStageTarget : Reg :=
  { idx := 0x4101, sub := 3, name := "STAGE_TARGET", kind := .u, size := 2, acc := .rw, home := .none, loc := true }

/-- 0x4101:04 STAGE_CLASS (R294). -/
def stgStageClass : Reg :=
  { idx := 0x4101, sub := 4, name := "STAGE_CLASS", kind := .u, size := 1, acc := .rw, home := .none, rng := .span (0) (7), loc := true }

/-- 0x4101:05 STAGE_IDLE (R294). -/
def stgStageIdle : Reg :=
  { idx := 0x4101, sub := 5, name := "STAGE_IDLE", kind := .u, size := 2, acc := .rw, home := .none, loc := true }

/-- 0x4101:06 INSERT (R294). -/
def stgInsert : Reg :=
  { idx := 0x4101, sub := 6, name := "INSERT", kind := .bool, size := 1, acc := .wo, home := .none, loc := true }

/-- 0x4101:07 INSERT_ROW (R294). -/
def stgInsertRow : Reg :=
  { idx := 0x4101, sub := 7, name := "INSERT_ROW", kind := .u, size := 4, acc := .ro, home := .none, dflt := .const 4294967295, loc := true }

/-- 0x4102:01 EXCEPTIONS (R294). -/
def exceptions1 : Reg :=
  { idx := 0x4102, sub := 1, name := "EXCEPTIONS", kind := .u, size := 4, acc := .ro, home := .retained }

/-- 0x4102:02 EXCEPTIONS (R294). -/
def exceptions2 : Reg :=
  { idx := 0x4102, sub := 2, name := "EXCEPTIONS", kind := .u, size := 4, acc := .ro, home := .retained }

/-- 0x4102:03 EXCEPTIONS (R294). -/
def exceptions3 : Reg :=
  { idx := 0x4102, sub := 3, name := "EXCEPTIONS", kind := .u, size := 4, acc := .ro, home := .retained }

/-- 0x4102:04 EXCEPTIONS (R294). -/
def exceptions4 : Reg :=
  { idx := 0x4102, sub := 4, name := "EXCEPTIONS", kind := .u, size := 4, acc := .ro, home := .retained }

/-- 0x4102:05 EXCEPTIONS (R294). -/
def exceptions5 : Reg :=
  { idx := 0x4102, sub := 5, name := "EXCEPTIONS", kind := .u, size := 4, acc := .ro, home := .retained }

/-- 0x4102:06 EXCEPTIONS (R294). -/
def exceptions6 : Reg :=
  { idx := 0x4102, sub := 6, name := "EXCEPTIONS", kind := .u, size := 4, acc := .ro, home := .retained }

/-- 0x4102:07 EXCEPTIONS (R294). -/
def exceptions7 : Reg :=
  { idx := 0x4102, sub := 7, name := "EXCEPTIONS", kind := .u, size := 4, acc := .ro, home := .retained }

/-- 0x4102:08 EXCEPTIONS (R294). -/
def exceptions8 : Reg :=
  { idx := 0x4102, sub := 8, name := "EXCEPTIONS", kind := .u, size := 4, acc := .ro, home := .retained }

/-- 0x4102:09 CLASS_DISCARD (R294). -/
def classDiscard : Reg :=
  { idx := 0x4102, sub := 9, name := "CLASS_DISCARD", kind := .u, size := 4, acc := .ro, home := .retained }

/-- 0x4102:0A INSTALL_FAIL (R294). -/
def installFail : Reg :=
  { idx := 0x4102, sub := 10, name := "INSTALL_FAIL", kind := .u, size := 4, acc := .ro, home := .retained }

/-- 0x4120:01 MISS_TAKE (R294). -/
def missTake : Reg :=
  { idx := 0x4120, sub := 1, name := "MISS_TAKE", kind := .oct, size := 32, acc := .ro, home := .none }

/-- 0x4120:02 VERDICT (R294). -/
def verdict : Reg :=
  { idx := 0x4120, sub := 2, name := "VERDICT", kind := .oct, size := 16, acc := .wo, home := .none }

/-- 0x4200[n]:01 VALID (R294). -/
def routeValid : Reg :=
  { idx := 0x4200, sub := 1, name := "VALID", kind := .bool, size := 1, acc := .rw, home := .stored, rows := 8192 }

/-- 0x4200[n]:02 FAMILY (R294). -/
def routeFamily : Reg :=
  { idx := 0x4200, sub := 2, name := "FAMILY", kind := .u, size := 1, acc := .rw, home := .stored, rows := 8192, dflt := .const 4, rng := .set [4, 6] }

/-- 0x4200[n]:03 PREFIX (R294). -/
def routePrefix : Reg :=
  { idx := 0x4200, sub := 3, name := "PREFIX", kind := .oct, size := 16, acc := .rw, home := .stored, rows := 8192 }

/-- 0x4200[n]:04 LEN (R294). -/
def routeLen : Reg :=
  { idx := 0x4200, sub := 4, name := "LEN", kind := .u, size := 1, acc := .rw, home := .stored, rows := 8192, rng := .span (0) (128) }

/-- 0x4200[n]:05 NEXTHOP (R294). -/
def routeNexthop : Reg :=
  { idx := 0x4200, sub := 5, name := "NEXTHOP", kind := .u, size := 2, acc := .rw, home := .stored, rows := 8192, rng := .span (0) (1023) }

/-- 0x4200[n]:06 PUNT (R294). -/
def routePunt : Reg :=
  { idx := 0x4200, sub := 6, name := "PUNT", kind := .bool, size := 1, acc := .rw, home := .stored, rows := 8192 }

/-- 0x4210[n]:01 KIND (R294). -/
def nhKind : Reg :=
  { idx := 0x4210, sub := 1, name := "KIND", kind := .u, size := 1, acc := .rw, home := .stored, rows := 1024, rng := .span (0) (4) }

/-- 0x4210[n]:02 TARGET (R294). -/
def nhTarget : Reg :=
  { idx := 0x4210, sub := 2, name := "TARGET", kind := .u, size := 2, acc := .rw, home := .stored, rows := 1024 }

/-- 0x4210[n]:03 DST_MAC (R294). -/
def nhDstMac : Reg :=
  { idx := 0x4210, sub := 3, name := "DST_MAC", kind := .oct, size := 6, acc := .rw, home := .stored, rows := 1024 }

/-- 0x4210[n]:04 VLAN (R294). -/
def nhVlan : Reg :=
  { idx := 0x4210, sub := 4, name := "VLAN", kind := .u, size := 2, acc := .rw, home := .stored, rows := 1024, dflt := .const 65535, rng := .spanOr (0) (4094) 65535 }

/-- 0x4210[n]:05 MTU (R294). -/
def nhMtu : Reg :=
  { idx := 0x4210, sub := 5, name := "MTU", kind := .u, size := 2, acc := .rw, home := .stored, rows := 1024, dflt := .const 1500, rng := .span (68) (9194) }

/-- 0x4300[n]:01 STATE (R294). -/
def bridgeState : Reg :=
  { idx := 0x4300, sub := 1, name := "STATE", kind := .u, size := 1, acc := .rw, home := .none, rows := 4096, rng := .span (0) (2) }

/-- 0x4300[n]:02 BD (R294). -/
def bridgeBd : Reg :=
  { idx := 0x4300, sub := 2, name := "BD", kind := .u, size := 2, acc := .rw, home := .none, rows := 4096, rng := .span (0) (4095) }

/-- 0x4300[n]:03 MAC (R294). -/
def bridgeMac : Reg :=
  { idx := 0x4300, sub := 3, name := "MAC", kind := .oct, size := 6, acc := .rw, home := .none, rows := 4096 }

/-- 0x4300[n]:04 DEST_KIND (R294). -/
def bridgeDestKind : Reg :=
  { idx := 0x4300, sub := 4, name := "DEST_KIND", kind := .u, size := 1, acc := .rw, home := .none, rows := 4096, rng := .span (1) (4) }

/-- 0x4300[n]:05 DEST (R294). -/
def bridgeDest : Reg :=
  { idx := 0x4300, sub := 5, name := "DEST", kind := .u, size := 2, acc := .rw, home := .none, rows := 4096 }

/-- 0x4300[n]:06 AGE (R294). -/
def bridgeAge4300 : Reg :=
  { idx := 0x4300, sub := 6, name := "AGE", kind := .u, size := 2, acc := .ro, home := .none, rows := 4096 }

/-- 0x4301:01 BRIDGE_AGE (R294). -/
def bridgeAge4301 : Reg :=
  { idx := 0x4301, sub := 1, name := "BRIDGE_AGE", kind := .u, size := 2, acc := .rw, home := .stored, dflt := .const 300, rng := .span (10) (65535) }

/-- 0x4301:02 LEARN_FULL (R294). -/
def learnFull : Reg :=
  { idx := 0x4301, sub := 2, name := "LEARN_FULL", kind := .u, size := 4, acc := .ro, home := .retained }

/-- 0x4400[n]:01 SHAPER (R295). -/
def queueShaper : Reg :=
  { idx := 0x4400, sub := 1, name := "SHAPER", kind := .u, size := 2, acc := .rw, home := .stored, rows := 5632, dflt := .ident 4608 0xFFFF, rng := .spanOr (0) (4607) 65535 }

/-- 0x4400[n]:02 RETRY_PROFILE (R295). -/
def queueRetryProfile : Reg :=
  { idx := 0x4400, sub := 2, name := "RETRY_PROFILE", kind := .u, size := 1, acc := .rw, home := .stored, rows := 5632, rng := .span (0) (15) }

/-- 0x4400[n]:03 LIFETIME (R295). -/
def queueLifetime : Reg :=
  { idx := 0x4400, sub := 3, name := "LIFETIME", kind := .u, size := 4, acc := .rw, home := .stored, rows := 5632, rng := .span (0) (3600000) }

/-- 0x4400[n]:04 PRIORITY (R295). -/
def queuePriority : Reg :=
  { idx := 0x4400, sub := 4, name := "PRIORITY", kind := .u, size := 1, acc := .rw, home := .stored, rows := 5632, rng := .span (0) (7) }

/-- 0x4400[n]:05 QUANTUM (R295). -/
def queueQuantum : Reg :=
  { idx := 0x4400, sub := 5, name := "QUANTUM", kind := .u, size := 2, acc := .rw, home := .stored, rows := 5632, dflt := .const 1536, rng := .span (64) (16384) }

/-- 0x4400[n]:06 BIND (R295). -/
def queueBind : Reg :=
  { idx := 0x4400, sub := 6, name := "BIND", kind := .u, size := 2, acc := .rw, home := .stored, rows := 5632, dflt := .step 4224 0 1, rng := .bands [(0, 1), (260, 263), (268, 271), (276, 279), (284, 287), (292, 295), (300, 303), (308, 311), (316, 319), (324, 327), (332, 335), (340, 343), (348, 351)] }

/-- 0x4410[n]:01 BASE (R295). -/
def ringBase : Reg :=
  { idx := 0x4410, sub := 1, name := "BASE", kind := .u, size := 8, acc := .rw, home := .retained, rows := 96, rng := .mult 16 0 18446744073709551600 }

/-- 0x4410[n]:02 SIZE (R295). -/
def ringSize : Reg :=
  { idx := 0x4410, sub := 2, name := "SIZE", kind := .u, size := 2, acc := .rw, home := .retained, rows := 96, dflt := .const 256, rng := .set [16, 32, 64, 128, 256, 512, 1024, 2048, 4096] }

/-- 0x4410[n]:03 ENABLE (R295). -/
def ringEnable : Reg :=
  { idx := 0x4410, sub := 3, name := "ENABLE", kind := .bool, size := 1, acc := .rw, home := .retained, rows := 96 }

/-- 0x4410[n]:04 HEAD (R295). -/
def ringHead : Reg :=
  { idx := 0x4410, sub := 4, name := "HEAD", kind := .u, size := 2, acc := .rw, home := .retained, rows := 96 }

/-- 0x4410[n]:05 TAIL (R295). -/
def ringTail : Reg :=
  { idx := 0x4410, sub := 5, name := "TAIL", kind := .u, size := 2, acc := .rw, home := .retained, rows := 96 }

/-- 0x4420:01 RX_RESERVE_STA (R295). -/
def rxReserveSta : Reg :=
  { idx := 0x4420, sub := 1, name := "RX_RESERVE_STA", kind := .u, size := 4, acc := .rw, home := .stored, dflt := .const 262144, rng := .span (16384) (1048575) }

/-- 0x4420:02 RX_RESERVE_NBR (R295). -/
def rxReserveNbr : Reg :=
  { idx := 0x4420, sub := 2, name := "RX_RESERVE_NBR", kind := .u, size := 2, acc := .rw, home := .stored, dflt := .const 8192, rng := .span (2100) (32768) }

/-- 0x4420:03 RX_RESERVE_CANE (R295). -/
def rxReserveCane : Reg :=
  { idx := 0x4420, sub := 3, name := "RX_RESERVE_CANE", kind := .u, size := 4, acc := .rw, home := .stored, dflt := .const 262144, rng := .span (16384) (1048575) }

/-- 0x4420:04 XOFF_LEVEL (R295). -/
def xoffLevel : Reg :=
  { idx := 0x4420, sub := 4, name := "XOFF_LEVEL", kind := .u, size := 1, acc := .rw, home := .stored, dflt := .const 10, rng := .span (1) (50) }

/-- 0x4420:05 XON_LEVEL (R295). -/
def xonLevel : Reg :=
  { idx := 0x4420, sub := 5, name := "XON_LEVEL", kind := .u, size := 1, acc := .rw, home := .stored, dflt := .const 20, rng := .span (2) (90) }

/-- 0x4420:06 SPILL_LIMIT (R295). -/
def spillLimit : Reg :=
  { idx := 0x4420, sub := 6, name := "SPILL_LIMIT", kind := .u, size := 8, acc := .rw, home := .stored, dflt := .const 1073741824 }

/-- 0x4420:07 BUFFER_FREE (R295). -/
def bufferFree : Reg :=
  { idx := 0x4420, sub := 7, name := "BUFFER_FREE", kind := .u, size := 1, acc := .ro, home := .none }

/-- 0x4500[n]:01 RATE (R296). -/
def shaperRate : Reg :=
  { idx := 0x4500, sub := 1, name := "RATE", kind := .u, size := 8, acc := .rw, home := .stored, rows := 4608, dflt := .const 10000000000, rng := .span (8000) (10000000000) }

/-- 0x4500[n]:02 BURST (R296). -/
def shaperBurst : Reg :=
  { idx := 0x4500, sub := 2, name := "BURST", kind := .u, size := 4, acc := .rw, home := .stored, rows := 4608, dflt := .const 65536, rng := .span (64) (16777216) }

/-- 0x4500[n]:03 PROFILE (R296). -/
def shaperProfile : Reg :=
  { idx := 0x4500, sub := 3, name := "PROFILE", kind := .u, size := 1, acc := .rw, home := .stored, rows := 4608, rng := .span (0) (15) }

/-- 0x4500[n]:04 TOKENS (R296). -/
def shaperTokens : Reg :=
  { idx := 0x4500, sub := 4, name := "TOKENS", kind := .i, size := 4, acc := .ro, home := .none, rows := 4608 }

/-- 0x4510[n]:01 OVERHEAD (R296). -/
def ovhOverhead : Reg :=
  { idx := 0x4510, sub := 1, name := "OVERHEAD", kind := .i, size := 2, acc := .rw, home := .stored, rows := 16, rng := .span (-64) (255) }

/-- 0x4600[n]:01 RATE (R296). -/
def polRate : Reg :=
  { idx := 0x4600, sub := 1, name := "RATE", kind := .u, size := 8, acc := .rw, home := .stored, rows := 1024, dflt := .const 10000000000, rng := .span (8000) (10000000000) }

/-- 0x4600[n]:02 BURST (R296). -/
def polBurst : Reg :=
  { idx := 0x4600, sub := 2, name := "BURST", kind := .u, size := 4, acc := .rw, home := .stored, rows := 1024, dflt := .const 16384, rng := .span (64) (16777216) }

/-- 0x4600[n]:03 PASSED (R296). -/
def polPassed : Reg :=
  { idx := 0x4600, sub := 3, name := "PASSED", kind := .u, size := 8, acc := .ro, home := .retained, rows := 1024, unsat := true }

/-- 0x4600[n]:04 DROPPED (R296). -/
def polDropped : Reg :=
  { idx := 0x4600, sub := 4, name := "DROPPED", kind := .u, size := 8, acc := .ro, home := .retained, rows := 1024, unsat := true }

/-- 0x4600[n]:05 UNIT (R296). -/
def polUnit : Reg :=
  { idx := 0x4600, sub := 5, name := "UNIT", kind := .u, size := 1, acc := .ro, home := .none, rows := 1024 }

/-- 0x4700:01 SAMPLE_PERIOD (R296). -/
def samplePeriod : Reg :=
  { idx := 0x4700, sub := 1, name := "SAMPLE_PERIOD", kind := .u, size := 4, acc := .rw, home := .stored, dflt := .const 1000, rng := .span (100) (100000) }

/-- 0x4700:02 EWMA_SHIFT (R296). -/
def ewmaShift : Reg :=
  { idx := 0x4700, sub := 2, name := "EWMA_SHIFT", kind := .u, size := 1, acc := .rw, home := .stored, dflt := .const 4, rng := .span (1) (15) }

/-- 0x4700:03 SAMPLE_LATE (R296). -/
def sampleLate : Reg :=
  { idx := 0x4700, sub := 3, name := "SAMPLE_LATE", kind := .u, size := 4, acc := .ro, home := .retained }

/-- 0x4701[n]:01 DEPTH_FRAMES (R296). -/
def sampDepthFrames : Reg :=
  { idx := 0x4701, sub := 1, name := "DEPTH_FRAMES", kind := .u, size := 4, acc := .ro, home := .none, rows := 5632 }

/-- 0x4701[n]:02 DEPTH_OCTETS (R296). -/
def sampDepthOctets : Reg :=
  { idx := 0x4701, sub := 2, name := "DEPTH_OCTETS", kind := .u, size := 8, acc := .ro, home := .none, rows := 5632 }

/-- 0x4701[n]:03 SOJOURN (R296). -/
def sampSojourn : Reg :=
  { idx := 0x4701, sub := 3, name := "SOJOURN", kind := .u, size := 4, acc := .ro, home := .none, rows := 5632 }

/-- 0x4701[n]:04 MAX_OCTETS (R296). -/
def sampMaxOctets : Reg :=
  { idx := 0x4701, sub := 4, name := "MAX_OCTETS", kind := .u, size := 8, acc := .ro, home := .none, rows := 5632 }

/-- 0x4701[n]:05 MAX_SOJOURN (R296). -/
def sampMaxSojourn : Reg :=
  { idx := 0x4701, sub := 5, name := "MAX_SOJOURN", kind := .u, size := 4, acc := .ro, home := .none, rows := 5632 }

/-- 0x4701[n]:06 EWMA_OCTETS (R296). -/
def sampEwmaOctets : Reg :=
  { idx := 0x4701, sub := 6, name := "EWMA_OCTETS", kind := .u, size := 8, acc := .ro, home := .none, rows := 5632 }

/-- 0x4702[n]:01 QUEUE (R296). -/
def histQueue : Reg :=
  { idx := 0x4702, sub := 1, name := "QUEUE", kind := .u, size := 2, acc := .rw, home := .stored, rows := 16, dflt := .const 65535, rng := .spanOr (0) (5631) 65535 }

/-- 0x4702[n]:02 METRIC (R296). -/
def histMetric : Reg :=
  { idx := 0x4702, sub := 2, name := "METRIC", kind := .u, size := 1, acc := .rw, home := .stored, rows := 16, rng := .set [0, 1] }

/-- 0x4702[n]:03 BIN_WIDTH (R296). -/
def histBinWidth : Reg :=
  { idx := 0x4702, sub := 3, name := "BIN_WIDTH", kind := .u, size := 4, acc := .rw, home := .stored, rows := 16, dflt := .const 100, rng := .span (1) (100000000) }

/-- 0x4702[n]:04 HIST_CLEAR (R296). -/
def histHistClear : Reg :=
  { idx := 0x4702, sub := 4, name := "HIST_CLEAR", kind := .bool, size := 1, acc := .wo, home := .none, rows := 16 }

/-- 0x4703[n]:01 BIN (R296). -/
def hbinBin1 : Reg :=
  { idx := 0x4703, sub := 1, name := "BIN", kind := .u, size := 4, acc := .ro, home := .none, rows := 16 }

/-- 0x4703[n]:02 BIN (R296). -/
def hbinBin2 : Reg :=
  { idx := 0x4703, sub := 2, name := "BIN", kind := .u, size := 4, acc := .ro, home := .none, rows := 16 }

/-- 0x4703[n]:03 BIN (R296). -/
def hbinBin3 : Reg :=
  { idx := 0x4703, sub := 3, name := "BIN", kind := .u, size := 4, acc := .ro, home := .none, rows := 16 }

/-- 0x4703[n]:04 BIN (R296). -/
def hbinBin4 : Reg :=
  { idx := 0x4703, sub := 4, name := "BIN", kind := .u, size := 4, acc := .ro, home := .none, rows := 16 }

/-- 0x4703[n]:05 BIN (R296). -/
def hbinBin5 : Reg :=
  { idx := 0x4703, sub := 5, name := "BIN", kind := .u, size := 4, acc := .ro, home := .none, rows := 16 }

/-- 0x4703[n]:06 BIN (R296). -/
def hbinBin6 : Reg :=
  { idx := 0x4703, sub := 6, name := "BIN", kind := .u, size := 4, acc := .ro, home := .none, rows := 16 }

/-- 0x4703[n]:07 BIN (R296). -/
def hbinBin7 : Reg :=
  { idx := 0x4703, sub := 7, name := "BIN", kind := .u, size := 4, acc := .ro, home := .none, rows := 16 }

/-- 0x4703[n]:08 BIN (R296). -/
def hbinBin8 : Reg :=
  { idx := 0x4703, sub := 8, name := "BIN", kind := .u, size := 4, acc := .ro, home := .none, rows := 16 }

/-- 0x4703[n]:09 BIN (R296). -/
def hbinBin9 : Reg :=
  { idx := 0x4703, sub := 9, name := "BIN", kind := .u, size := 4, acc := .ro, home := .none, rows := 16 }

/-- 0x4703[n]:0A BIN (R296). -/
def hbinBin10 : Reg :=
  { idx := 0x4703, sub := 10, name := "BIN", kind := .u, size := 4, acc := .ro, home := .none, rows := 16 }

/-- 0x4703[n]:0B BIN (R296). -/
def hbinBin11 : Reg :=
  { idx := 0x4703, sub := 11, name := "BIN", kind := .u, size := 4, acc := .ro, home := .none, rows := 16 }

/-- 0x4703[n]:0C BIN (R296). -/
def hbinBin12 : Reg :=
  { idx := 0x4703, sub := 12, name := "BIN", kind := .u, size := 4, acc := .ro, home := .none, rows := 16 }

/-- 0x4703[n]:0D BIN (R296). -/
def hbinBin13 : Reg :=
  { idx := 0x4703, sub := 13, name := "BIN", kind := .u, size := 4, acc := .ro, home := .none, rows := 16 }

/-- 0x4703[n]:0E BIN (R296). -/
def hbinBin14 : Reg :=
  { idx := 0x4703, sub := 14, name := "BIN", kind := .u, size := 4, acc := .ro, home := .none, rows := 16 }

/-- 0x4703[n]:0F BIN (R296). -/
def hbinBin15 : Reg :=
  { idx := 0x4703, sub := 15, name := "BIN", kind := .u, size := 4, acc := .ro, home := .none, rows := 16 }

/-- 0x4703[n]:10 BIN (R296). -/
def hbinBin16 : Reg :=
  { idx := 0x4703, sub := 16, name := "BIN", kind := .u, size := 4, acc := .ro, home := .none, rows := 16 }

/-- 0x4703[n]:11 BIN (R296). -/
def hbinBin17 : Reg :=
  { idx := 0x4703, sub := 17, name := "BIN", kind := .u, size := 4, acc := .ro, home := .none, rows := 16 }

/-- 0x4703[n]:12 BIN (R296). -/
def hbinBin18 : Reg :=
  { idx := 0x4703, sub := 18, name := "BIN", kind := .u, size := 4, acc := .ro, home := .none, rows := 16 }

/-- 0x4703[n]:13 BIN (R296). -/
def hbinBin19 : Reg :=
  { idx := 0x4703, sub := 19, name := "BIN", kind := .u, size := 4, acc := .ro, home := .none, rows := 16 }

/-- 0x4703[n]:14 BIN (R296). -/
def hbinBin20 : Reg :=
  { idx := 0x4703, sub := 20, name := "BIN", kind := .u, size := 4, acc := .ro, home := .none, rows := 16 }

/-- 0x4703[n]:15 BIN (R296). -/
def hbinBin21 : Reg :=
  { idx := 0x4703, sub := 21, name := "BIN", kind := .u, size := 4, acc := .ro, home := .none, rows := 16 }

/-- 0x4703[n]:16 BIN (R296). -/
def hbinBin22 : Reg :=
  { idx := 0x4703, sub := 22, name := "BIN", kind := .u, size := 4, acc := .ro, home := .none, rows := 16 }

/-- 0x4703[n]:17 BIN (R296). -/
def hbinBin23 : Reg :=
  { idx := 0x4703, sub := 23, name := "BIN", kind := .u, size := 4, acc := .ro, home := .none, rows := 16 }

/-- 0x4703[n]:18 BIN (R296). -/
def hbinBin24 : Reg :=
  { idx := 0x4703, sub := 24, name := "BIN", kind := .u, size := 4, acc := .ro, home := .none, rows := 16 }

/-- 0x4703[n]:19 BIN (R296). -/
def hbinBin25 : Reg :=
  { idx := 0x4703, sub := 25, name := "BIN", kind := .u, size := 4, acc := .ro, home := .none, rows := 16 }

/-- 0x4703[n]:1A BIN (R296). -/
def hbinBin26 : Reg :=
  { idx := 0x4703, sub := 26, name := "BIN", kind := .u, size := 4, acc := .ro, home := .none, rows := 16 }

/-- 0x4703[n]:1B BIN (R296). -/
def hbinBin27 : Reg :=
  { idx := 0x4703, sub := 27, name := "BIN", kind := .u, size := 4, acc := .ro, home := .none, rows := 16 }

/-- 0x4703[n]:1C BIN (R296). -/
def hbinBin28 : Reg :=
  { idx := 0x4703, sub := 28, name := "BIN", kind := .u, size := 4, acc := .ro, home := .none, rows := 16 }

/-- 0x4703[n]:1D BIN (R296). -/
def hbinBin29 : Reg :=
  { idx := 0x4703, sub := 29, name := "BIN", kind := .u, size := 4, acc := .ro, home := .none, rows := 16 }

/-- 0x4703[n]:1E BIN (R296). -/
def hbinBin30 : Reg :=
  { idx := 0x4703, sub := 30, name := "BIN", kind := .u, size := 4, acc := .ro, home := .none, rows := 16 }

/-- 0x4703[n]:1F BIN (R296). -/
def hbinBin31 : Reg :=
  { idx := 0x4703, sub := 31, name := "BIN", kind := .u, size := 4, acc := .ro, home := .none, rows := 16 }

/-- 0x4703[n]:20 BIN (R296). -/
def hbinBin32 : Reg :=
  { idx := 0x4703, sub := 32, name := "BIN", kind := .u, size := 4, acc := .ro, home := .none, rows := 16 }

/-- 0x5000[n]:01 SOURCE (R351). -/
def domSource : Reg :=
  { idx := 0x5000, sub := 1, name := "SOURCE", kind := .u, size := 1, acc := .rw, home := .stored, rows := 2, rng := .span (0) (3) }

/-- 0x5000[n]:02 SOURCE_ARG (R351). -/
def domSourceArg : Reg :=
  { idx := 0x5000, sub := 2, name := "SOURCE_ARG", kind := .u, size := 2, acc := .rw, home := .stored, rows := 2, dflt := .const 65535 }

/-- 0x5000[n]:03 KP (R351). -/
def domKp : Reg :=
  { idx := 0x5000, sub := 3, name := "KP", kind := .fx, size := 4, acc := .rw, home := .stored, rows := 2, dflt := .const 45875, rng := .span (0) (262144) }

/-- 0x5000[n]:04 KI (R351). -/
def domKi : Reg :=
  { idx := 0x5000, sub := 4, name := "KI", kind := .fx, size := 4, acc := .rw, home := .stored, rows := 2, dflt := .const 19661, rng := .span (0) (262144) }

/-- 0x5000[n]:05 STEP_THRESHOLD (R351). -/
def domStepThreshold : Reg :=
  { idx := 0x5000, sub := 5, name := "STEP_THRESHOLD", kind := .u, size := 4, acc := .rw, home := .stored, rows := 2, dflt := .const 1000000, rng := .span (1000) (1000000000) }

/-- 0x5000[n]:06 LOCK_THRESHOLD (R351). -/
def domLockThreshold : Reg :=
  { idx := 0x5000, sub := 6, name := "LOCK_THRESHOLD", kind := .u, size := 4, acc := .rw, home := .stored, rows := 2, dflt := .const 1000, rng := .span (10) (1000000) }

/-- 0x5000[n]:07 FREQ_LIMIT (R351). -/
def domFreqLimit : Reg :=
  { idx := 0x5000, sub := 7, name := "FREQ_LIMIT", kind := .u, size := 4, acc := .rw, home := .stored, rows := 2, dflt := .const 200000, rng := .span (1000) (500000) }

/-- 0x5000[n]:08 SOURCE_TIMEOUT (R351). -/
def domSourceTimeout : Reg :=
  { idx := 0x5000, sub := 8, name := "SOURCE_TIMEOUT", kind := .u, size := 2, acc := .rw, home := .stored, rows := 2, dflt := .const 3000, rng := .span (100) (60000) }

/-- 0x5000[n]:09 OFFSET_IN (R351). -/
def domOffsetIn : Reg :=
  { idx := 0x5000, sub := 9, name := "OFFSET_IN", kind := .oct, size := 24, acc := .wo, home := .none, rows := 2 }

/-- 0x5000[n]:0A TIME (R351). -/
def domTime : Reg :=
  { idx := 0x5000, sub := 10, name := "TIME", kind := .time, size := 14, acc := .ro, home := .none, rows := 2 }

/-- 0x5000[n]:0B STATE (R351). -/
def domState : Reg :=
  { idx := 0x5000, sub := 11, name := "STATE", kind := .u, size := 1, acc := .ro, home := .live, rows := 2 }

/-- 0x5000[n]:0C FREQ_ADJ (R351). -/
def domFreqAdj : Reg :=
  { idx := 0x5000, sub := 12, name := "FREQ_ADJ", kind := .i, size := 4, acc := .ro, home := .live, rows := 2 }

/-- 0x5000[n]:0D LAST_OFFSET (R351). -/
def domLastOffset : Reg :=
  { idx := 0x5000, sub := 13, name := "LAST_OFFSET", kind := .i, size := 8, acc := .ro, home := .live, rows := 2 }

/-- 0x5000[n]:0E STEPS (R351). -/
def domSteps : Reg :=
  { idx := 0x5000, sub := 14, name := "STEPS", kind := .u, size := 4, acc := .ro, home := .retained, rows := 2 }

/-- 0x5000[n]:0F HOLDOVER_AGE (R351). -/
def domHoldoverAge : Reg :=
  { idx := 0x5000, sub := 15, name := "HOLDOVER_AGE", kind := .u, size := 4, acc := .ro, home := .live, rows := 2 }

/-- 0x5010:01 PRESENT_SEL (R351). -/
def presentSel : Reg :=
  { idx := 0x5010, sub := 1, name := "PRESENT_SEL", kind := .u, size := 1, acc := .rw, home := .stored, rng := .set [0, 1] }

/-- 0x5010:02 AUTO_SWITCH (R351). -/
def autoSwitch : Reg :=
  { idx := 0x5010, sub := 2, name := "AUTO_SWITCH", kind := .bool, size := 1, acc := .rw, home := .stored, dflt := .const 1 }

/-- 0x5010:03 STEP_ALLOW (R351). -/
def stepAllow : Reg :=
  { idx := 0x5010, sub := 3, name := "STEP_ALLOW", kind := .bool, size := 1, acc := .rwp1, home := .stored }

/-- 0x5010:04 SLEW_RATE (R351). -/
def slewRate : Reg :=
  { idx := 0x5010, sub := 4, name := "SLEW_RATE", kind := .u, size := 1, acc := .rw, home := .stored, dflt := .const 100, rng := .span (1) (100) }

/-- 0x5010:05 HOLDOVER_LIMIT (R351). -/
def holdoverLimit : Reg :=
  { idx := 0x5010, sub := 5, name := "HOLDOVER_LIMIT", kind := .u, size := 4, acc := .rw, home := .stored, dflt := .const 3600, rng := .span (60) (604800) }

/-- 0x5010:06 PRESENT_TIME (R351). -/
def presentTime : Reg :=
  { idx := 0x5010, sub := 6, name := "PRESENT_TIME", kind := .time, size := 14, acc := .ro, home := .none }

/-- 0x5010:07 PRESENT_OFFSET (R351). -/
def presentOffset : Reg :=
  { idx := 0x5010, sub := 7, name := "PRESENT_OFFSET", kind := .i, size := 8, acc := .ro, home := .live }

/-- 0x5010:08 TIME_VALID (R351). -/
def timeValid : Reg :=
  { idx := 0x5010, sub := 8, name := "TIME_VALID", kind := .bool, size := 1, acc := .ro, home := .live }

/-- 0x5010:09 PRESENT_SET (R351). -/
def presentSet : Reg :=
  { idx := 0x5010, sub := 9, name := "PRESENT_SET", kind := .time, size := 14, acc := .rwp1, home := .live }

/-- 0x5010:0A UTC_OFFSET (R351). -/
def utcOffset : Reg :=
  { idx := 0x5010, sub := 10, name := "UTC_OFFSET", kind := .u, size := 1, acc := .rw, home := .stored, dflt := .const 37, rng := .span (0) (255) }

/-- 0x5010:0B RTC_SYNC (R351). -/
def rtcSync : Reg :=
  { idx := 0x5010, sub := 11, name := "RTC_SYNC", kind := .u, size := 2, acc := .rw, home := .stored, dflt := .const 600, rng := .span (60) (43200) }

/-- 0x5010:0C PPS_WIDTH (R351). -/
def ppsWidth : Reg :=
  { idx := 0x5010, sub := 12, name := "PPS_WIDTH", kind := .u, size := 4, acc := .rw, home := .stored, dflt := .const 100000, rng := .span (1) (900000) }

/-- 0x5010:0D PPS_GATE (R351). -/
def ppsGate : Reg :=
  { idx := 0x5010, sub := 13, name := "PPS_GATE", kind := .bool, size := 1, acc := .rw, home := .stored, dflt := .const 1 }

/-- 0x5010:0E SWITCHES (R351). -/
def switches : Reg :=
  { idx := 0x5010, sub := 14, name := "SWITCHES", kind := .u, size := 4, acc := .ro, home := .retained }

/-- 0x5030:01 RTC_LO (R351). -/
def rtcLo : Reg :=
  { idx := 0x5030, sub := 1, name := "RTC_LO", kind := .u, size := 4, acc := .ro, home := .none }

/-- 0x5030:02 RTC_HI (R351). -/
def rtcHi : Reg :=
  { idx := 0x5030, sub := 2, name := "RTC_HI", kind := .u, size := 2, acc := .ro, home := .none }

/-- 0x5030:03 UPTIME_LO (R351). -/
def uptimeLo : Reg :=
  { idx := 0x5030, sub := 3, name := "UPTIME_LO", kind := .u, size := 4, acc := .ro, home := .none }

/-- 0x5030:04 UPTIME_HI (R351). -/
def uptimeHi : Reg :=
  { idx := 0x5030, sub := 4, name := "UPTIME_HI", kind := .u, size := 4, acc := .ro, home := .none }

/-- 0x5030:05 TI_TICKS (R351). -/
def tiTicks : Reg :=
  { idx := 0x5030, sub := 5, name := "TI_TICKS", kind := .u, size := 8, acc := .ro, home := .none }

/-- 0x5100[n]:01 ENABLE (R352). -/
def trigEnable : Reg :=
  { idx := 0x5100, sub := 1, name := "ENABLE", kind := .bool, size := 1, acc := .rw, home := .retained, rows := 16 }

/-- 0x5100[n]:02 MODE (R352). -/
def trigMode : Reg :=
  { idx := 0x5100, sub := 2, name := "MODE", kind := .u, size := 1, acc := .rw, home := .retained, rows := 16, rng := .set [0, 1] }

/-- 0x5100[n]:03 START (R352). -/
def trigStart : Reg :=
  { idx := 0x5100, sub := 3, name := "START", kind := .time, size := 14, acc := .rw, home := .retained, rows := 16 }

/-- 0x5100[n]:04 PERIOD (R352). -/
def trigPeriod : Reg :=
  { idx := 0x5100, sub := 4, name := "PERIOD", kind := .u, size := 8, acc := .rw, home := .retained, rows := 16, dflt := .const 65536000000000, rng := .span (65536000) (9223372036854775808) }

/-- 0x5100[n]:05 TARGET (R352). -/
def trigTarget : Reg :=
  { idx := 0x5100, sub := 5, name := "TARGET", kind := .u, size := 1, acc := .rw, home := .retained, rows := 16, rng := .span (0) (5) }

/-- 0x5100[n]:06 NEXT (R352). -/
def trigNext : Reg :=
  { idx := 0x5100, sub := 6, name := "NEXT", kind := .time, size := 14, acc := .ro, home := .live, rows := 16 }

/-- 0x5100[n]:07 FIRED (R352). -/
def trigFired : Reg :=
  { idx := 0x5100, sub := 7, name := "FIRED", kind := .u, size := 4, acc := .ro, home := .live, rows := 16 }

/-- 0x5100[n]:08 MISSED (R352). -/
def trigMissed : Reg :=
  { idx := 0x5100, sub := 8, name := "MISSED", kind := .u, size := 4, acc := .ro, home := .live, rows := 16 }

/-- 0x5100[n]:09 LATE (R352). -/
def trigLate : Reg :=
  { idx := 0x5100, sub := 9, name := "LATE", kind := .bool, size := 1, acc := .ro, home := .live, rows := 16 }

/-- 0x5110[n]:01 SOURCE (R352). -/
def capSource : Reg :=
  { idx := 0x5110, sub := 1, name := "SOURCE", kind := .u, size := 1, acc := .rw, home := .stored, rows := 8, dflt := .const 255, rng := .spanOr (0) (32) 255 }

/-- 0x5110[n]:02 EDGE (R352). -/
def capEdge : Reg :=
  { idx := 0x5110, sub := 2, name := "EDGE", kind := .u, size := 1, acc := .rw, home := .stored, rows := 8, dflt := .const 1, rng := .span (1) (3) }

/-- 0x5110[n]:03 FILTER (R352). -/
def capFilter : Reg :=
  { idx := 0x5110, sub := 3, name := "FILTER", kind := .u, size := 4, acc := .rw, home := .stored, rows := 8, dflt := .const 50, rng := .spanOr (50) (10000000) 0 }

/-- 0x5110[n]:04 SCALE (R352). -/
def capScale : Reg :=
  { idx := 0x5110, sub := 4, name := "SCALE", kind := .u, size := 1, acc := .rw, home := .stored, rows := 8, rng := .span (0) (2) }

/-- 0x5110[n]:05 TIME (R352). -/
def capTime : Reg :=
  { idx := 0x5110, sub := 5, name := "TIME", kind := .time, size := 14, acc := .ro, home := .none, rows := 8 }

/-- 0x5110[n]:06 COUNT (R352). -/
def capCount : Reg :=
  { idx := 0x5110, sub := 6, name := "COUNT", kind := .u, size := 4, acc := .ro, home := .none, rows := 8 }

/-- 0x5110[n]:07 MISSED (R352). -/
def capMissed : Reg :=
  { idx := 0x5110, sub := 7, name := "MISSED", kind := .u, size := 4, acc := .ro, home := .none, rows := 8 }

/-- 0x5200[n]:01 POP (R353). -/
def tsqPop : Reg :=
  { idx := 0x5200, sub := 1, name := "POP", kind := .oct, size := 16, acc := .ro, home := .none, rows := 5 }

/-- 0x5200[n]:02 DEPTH (R353). -/
def tsqDepth : Reg :=
  { idx := 0x5200, sub := 2, name := "DEPTH", kind := .u, size := 1, acc := .ro, home := .none, rows := 5 }

/-- 0x5200[n]:03 OVERFLOW (R353). -/
def tsqOverflow : Reg :=
  { idx := 0x5200, sub := 3, name := "OVERFLOW", kind := .bool, size := 1, acc := .ro, home := .none, rows := 5 }

/-- 0x5200[n]:04 LOST (R353). -/
def tsqLost : Reg :=
  { idx := 0x5200, sub := 4, name := "LOST", kind := .u, size := 4, acc := .ro, home := .retained, rows := 5 }

/-- 0x5200[n]:05 SCALE (R353). -/
def tsqScale : Reg :=
  { idx := 0x5200, sub := 5, name := "SCALE", kind := .u, size := 1, acc := .rw, home := .stored, rows := 5, rng := .span (0) (2) }

/-- 0x5200[n]:06 TX_DELAY (R353). -/
def tsqTxDelay : Reg :=
  { idx := 0x5200, sub := 6, name := "TX_DELAY", kind := .i, size := 4, acc := .rw, home := .stored, rows := 5, rng := .span (-1000000) (1000000) }

/-- 0x5200[n]:07 RX_DELAY (R353). -/
def tsqRxDelay : Reg :=
  { idx := 0x5200, sub := 7, name := "RX_DELAY", kind := .i, size := 4, acc := .rw, home := .stored, rows := 5, rng := .span (-1000000) (1000000) }

/-- 0x5210[n]:01 TS_MODE (R353). -/
def tsmTsMode : Reg :=
  { idx := 0x5210, sub := 1, name := "TS_MODE", kind := .u, size := 1, acc := .rw, home := .retained, rows := 96, rng := .mask 0xF }

/-- 0x5300[n]:01 ENABLE (R354). -/
def tmrEnable : Reg :=
  { idx := 0x5300, sub := 1, name := "ENABLE", kind := .bool, size := 1, acc := .rw, home := .retained, rows := 16 }

/-- 0x5300[n]:02 MODE (R354). -/
def tmrMode : Reg :=
  { idx := 0x5300, sub := 2, name := "MODE", kind := .u, size := 1, acc := .rw, home := .retained, rows := 16, rng := .span (0) (3) }

/-- 0x5300[n]:03 SOURCE (R354). -/
def tmrSource : Reg :=
  { idx := 0x5300, sub := 3, name := "SOURCE", kind := .u, size := 1, acc := .rw, home := .retained, rows := 16, rng := .span (0) (2) }

/-- 0x5300[n]:04 PRESCALE (R354). -/
def tmrPrescale : Reg :=
  { idx := 0x5300, sub := 4, name := "PRESCALE", kind := .u, size := 2, acc := .rw, home := .retained, rows := 16, rng := .span (0) (65535) }

/-- 0x5300[n]:05 PERIOD (R354). -/
def tmrPeriod : Reg :=
  { idx := 0x5300, sub := 5, name := "PERIOD", kind := .u, size := 4, acc := .rw, home := .retained, rows := 16, dflt := .const 4294967295 }

/-- 0x5300[n]:06 COMPARE (R354). -/
def tmrCompare : Reg :=
  { idx := 0x5300, sub := 6, name := "COMPARE", kind := .u, size := 4, acc := .rw, home := .retained, rows := 16 }

/-- 0x5300[n]:07 COUNT (R354). -/
def tmrCount : Reg :=
  { idx := 0x5300, sub := 7, name := "COUNT", kind := .u, size := 4, acc := .rw, home := .live, rows := 16 }

/-- 0x5300[n]:08 CMP_MODE (R354). -/
def tmrCmpMode : Reg :=
  { idx := 0x5300, sub := 8, name := "CMP_MODE", kind := .u, size := 1, acc := .rw, home := .retained, rows := 16, rng := .set [0, 1] }

/-- 0x5300[n]:09 CAPTURE (R354). -/
def tmrCapture : Reg :=
  { idx := 0x5300, sub := 9, name := "CAPTURE", kind := .u, size := 4, acc := .ro, home := .live, rows := 16 }

/-- 0x5300[n]:0A EVENTS (R354). -/
def tmrEvents : Reg :=
  { idx := 0x5300, sub := 10, name := "EVENTS", kind := .u, size := 1, acc := .ro, home := .live, rows := 16 }

/-- 0x5300[n]:0B EVENT_MASK (R354). -/
def tmrEventMask : Reg :=
  { idx := 0x5300, sub := 11, name := "EVENT_MASK", kind := .u, size := 1, acc := .rw, home := .retained, rows := 16, rng := .mask 0xF }

/-- 0x5300[n]:0C EVENT_ENGINES (R354). -/
def tmrEventEngines : Reg :=
  { idx := 0x5300, sub := 12, name := "EVENT_ENGINES", kind := .u, size := 2, acc := .rw, home := .retained, rows := 16, rng := .mask 0xFFF }

/-- 0x5300[n]:0D OUT_POL (R354). -/
def tmrOutPol : Reg :=
  { idx := 0x5300, sub := 13, name := "OUT_POL", kind := .bool, size := 1, acc := .rw, home := .retained, rows := 16 }

/-- 0x5310[n]:01 LINK (R354). -/
def pairLink : Reg :=
  { idx := 0x5310, sub := 1, name := "LINK", kind := .bool, size := 1, acc := .rw, home := .retained, rows := 4 }

/-- 0x5310[n]:02 COUNT64 (R354). -/
def pairCount64 : Reg :=
  { idx := 0x5310, sub := 2, name := "COUNT64", kind := .u, size := 8, acc := .ro, home := .none, rows := 4 }

/-- 0x5320:01 GLOBAL_ARM (R354). -/
def globalArm : Reg :=
  { idx := 0x5320, sub := 1, name := "GLOBAL_ARM", kind := .u, size := 2, acc := .rw, home := .none }

/-- 0x5320:02 GLOBAL_GO (R354). -/
def globalGo : Reg :=
  { idx := 0x5320, sub := 2, name := "GLOBAL_GO", kind := .bool, size := 1, acc := .wo, home := .none }

/-- 0x6000:01 DALI_ENABLE (R378). -/
def daliEnable : Reg :=
  { idx := 0x6000, sub := 1, name := "DALI_ENABLE", kind := .bool, size := 1, acc := .rw, home := .stored }

/-- 0x6000:02 DALI_PRIORITY (R378). -/
def daliPriority : Reg :=
  { idx := 0x6000, sub := 2, name := "DALI_PRIORITY", kind := .u, size := 1, acc := .rw, home := .stored, dflt := .const 4, rng := .span (1) (5) }

/-- 0x6000:03 DALI_RETRIES (R378). -/
def daliRetries : Reg :=
  { idx := 0x6000, sub := 3, name := "DALI_RETRIES", kind := .u, size := 1, acc := .rw, home := .stored, dflt := .const 3, rng := .span (0) (15) }

/-- 0x6000:04 DALI_BUS_STATE (R378). -/
def daliBusState : Reg :=
  { idx := 0x6000, sub := 4, name := "DALI_BUS_STATE", kind := .u, size := 1, acc := .ro, home := .none }

/-- 0x6000:05 DALI_POLL_MASK (R378). -/
def daliPollMask : Reg :=
  { idx := 0x6000, sub := 5, name := "DALI_POLL_MASK", kind := .u, size := 8, acc := .rw, home := .stored }

/-- 0x6000:06 DALI_POLL_PERIOD (R378). -/
def daliPollPeriod : Reg :=
  { idx := 0x6000, sub := 6, name := "DALI_POLL_PERIOD", kind := .u, size := 2, acc := .rw, home := .stored, dflt := .const 60, rng := .span (5) (3600) }

/-- 0x6000:07 DALI_COLLISIONS (R378). -/
def daliCollisions : Reg :=
  { idx := 0x6000, sub := 7, name := "DALI_COLLISIONS", kind := .u, size := 4, acc := .ro, home := .retained }

/-- 0x6010[n]:01 FRAME (R378). -/
def daliFrame : Reg :=
  { idx := 0x6010, sub := 1, name := "FRAME", kind := .u, size := 4, acc := .rw, home := .none, rows := 32, rng := .mask 0xFFFFFF }

/-- 0x6010[n]:02 FLAGS (R378). -/
def daliFlags : Reg :=
  { idx := 0x6010, sub := 2, name := "FLAGS", kind := .u, size := 1, acc := .rw, home := .none, rows := 32, rng := .mask 0x7 }

/-- 0x6010[n]:03 STATE (R378). -/
def daliState : Reg :=
  { idx := 0x6010, sub := 3, name := "STATE", kind := .u, size := 1, acc := .rw, home := .none, rows := 32, rng := .span (1) (1) }

/-- 0x6010[n]:04 RESULT (R378). -/
def daliResult : Reg :=
  { idx := 0x6010, sub := 4, name := "RESULT", kind := .u, size := 1, acc := .ro, home := .none, rows := 32 }

/-- 0x6010[n]:05 REPLY (R378). -/
def daliReply : Reg :=
  { idx := 0x6010, sub := 5, name := "REPLY", kind := .u, size := 1, acc := .ro, home := .none, rows := 32 }

/-- 0x6100:01 DIM_FREQ (R378). -/
def dimFreq : Reg :=
  { idx := 0x6100, sub := 1, name := "DIM_FREQ", kind := .u, size := 2, acc := .rw, home := .stored, dflt := .const 1000, rng := .span (100) (20000) }

/-- 0x6100:02 DIM0_LEVEL (R378). -/
def dim0Level : Reg :=
  { idx := 0x6100, sub := 2, name := "DIM0_LEVEL", kind := .u, size := 1, acc := .rw, home := .stored, dflt := .const 255, rng := .span (0) (255) }

/-- 0x6100:03 DIM1_LEVEL (R378). -/
def dim1Level : Reg :=
  { idx := 0x6100, sub := 3, name := "DIM1_LEVEL", kind := .u, size := 1, acc := .rw, home := .stored, dflt := .const 255, rng := .span (0) (255) }

/-- 0x6100:04 DIM_FADE (R378). -/
def dimFade : Reg :=
  { idx := 0x6100, sub := 4, name := "DIM_FADE", kind := .u, size := 2, acc := .rw, home := .stored, dflt := .const 500, rng := .span (0) (60000) }

/-- 0x6100:05 DIM_MIN (R378). -/
def dimMin : Reg :=
  { idx := 0x6100, sub := 5, name := "DIM_MIN", kind := .u, size := 1, acc := .rw, home := .stored, rng := .span (0) (255) }

/-- 0x6100:06 FAILSAFE_DIM (R378). -/
def failsafeDim : Reg :=
  { idx := 0x6100, sub := 6, name := "FAILSAFE_DIM", kind := .u, size := 1, acc := .rw, home := .stored, dflt := .const 255 }

/-- 0x6100:07 HOT_DIM (R378). -/
def hotDim : Reg :=
  { idx := 0x6100, sub := 7, name := "HOT_DIM", kind := .u, size := 1, acc := .rw, home := .stored, dflt := .const 128 }

/-- 0x6100:08 DIM_POLARITY (R378). -/
def dimPolarity : Reg :=
  { idx := 0x6100, sub := 8, name := "DIM_POLARITY", kind := .u, size := 1, acc := .rw, home := .stored, rng := .mask 0x3 }

/-- 0x6100:09 DIM_NOW (R378). -/
def dimNow : Reg :=
  { idx := 0x6100, sub := 9, name := "DIM_NOW", kind := .u, size := 2, acc := .ro, home := .live }

/-- 0x6110[n]:01 COMMAND (R378). -/
def relayCommand : Reg :=
  { idx := 0x6110, sub := 1, name := "COMMAND", kind := .bool, size := 1, acc := .rw, home := .stored, rows := 2 }

/-- 0x6110[n]:02 PIN_STATE (R378). -/
def relayPinState : Reg :=
  { idx := 0x6110, sub := 2, name := "PIN_STATE", kind := .bool, size := 1, acc := .ro, home := .live, rows := 2 }

/-- 0x6110[n]:03 ON_LEAD (R378). -/
def relayOnLead : Reg :=
  { idx := 0x6110, sub := 3, name := "ON_LEAD", kind := .u, size := 2, acc := .rw, home := .stored, rows := 2, dflt := .const 4000, rng := .span (0) (10000) }

/-- 0x6110[n]:04 OFF_LEAD (R378). -/
def relayOffLead : Reg :=
  { idx := 0x6110, sub := 4, name := "OFF_LEAD", kind := .u, size := 2, acc := .rw, home := .stored, rows := 2, dflt := .const 3000, rng := .span (0) (10000) }

/-- 0x6110[n]:05 ZX_SYNC (R378). -/
def relayZxSync : Reg :=
  { idx := 0x6110, sub := 5, name := "ZX_SYNC", kind := .bool, size := 1, acc := .rw, home := .stored, rows := 2, dflt := .const 1 }

/-- 0x6110[n]:06 OPERATIONS (R378). -/
def relayOperations : Reg :=
  { idx := 0x6110, sub := 6, name := "OPERATIONS", kind := .u, size := 4, acc := .ro, home := .stored, rows := 2 }

/-- 0x6110[n]:07 RATED_OPS (R378). -/
def relayRatedOps : Reg :=
  { idx := 0x6110, sub := 7, name := "RATED_OPS", kind := .u, size := 4, acc := .rw, home := .stored, rows := 2, dflt := .const 100000, rng := .span (1) (4294967295) }

/-- 0x6110[n]:08 WEAR_WARN (R378). -/
def relayWearWarn : Reg :=
  { idx := 0x6110, sub := 8, name := "WEAR_WARN", kind := .u, size := 1, acc := .rw, home := .stored, rows := 2, dflt := .const 90, rng := .span (1) (100) }

/-- 0x6110[n]:09 UNSYNCED (R378). -/
def relayUnsynced : Reg :=
  { idx := 0x6110, sub := 9, name := "UNSYNCED", kind := .u, size := 4, acc := .ro, home := .retained, rows := 2 }

/-- 0x6120:01 ZX_EDGES (R378). -/
def zxEdges : Reg :=
  { idx := 0x6120, sub := 1, name := "ZX_EDGES", kind := .u, size := 1, acc := .rw, home := .stored, dflt := .const 3, rng := .span (1) (3) }

/-- 0x6120:02 ZX_FILTER (R378). -/
def zxFilter : Reg :=
  { idx := 0x6120, sub := 2, name := "ZX_FILTER", kind := .u, size := 4, acc := .rw, home := .stored, dflt := .const 500000, rng := .span (50) (10000000) }

/-- 0x6120:03 ZX_HALF_PERIOD (R378). -/
def zxHalfPeriod : Reg :=
  { idx := 0x6120, sub := 3, name := "ZX_HALF_PERIOD", kind := .u, size := 4, acc := .ro, home := .live }

/-- 0x6120:04 ZX_TIMEOUT (R378). -/
def zxTimeout : Reg :=
  { idx := 0x6120, sub := 4, name := "ZX_TIMEOUT", kind := .u, size := 2, acc := .rw, home := .stored, dflt := .const 100, rng := .span (20) (1000) }

/-- 0x6200[n]:01 FILTER (R379). -/
def detFilter : Reg :=
  { idx := 0x6200, sub := 1, name := "FILTER", kind := .u, size := 4, acc := .rw, home := .stored, rows := 8, dflt := .const 5000000, rng := .span (50) (10000000) }

/-- 0x6200[n]:02 ACTIVE_LEVEL (R379). -/
def detActiveLevel : Reg :=
  { idx := 0x6200, sub := 2, name := "ACTIVE_LEVEL", kind := .u, size := 1, acc := .rw, home := .stored, rows := 8, rng := .set [0, 1] }

/-- 0x6200[n]:03 STUCK_TIME (R379). -/
def detStuckTime : Reg :=
  { idx := 0x6200, sub := 3, name := "STUCK_TIME", kind := .u, size := 2, acc := .rw, home := .stored, rows := 8, dflt := .const 600, rng := .span (10) (65535) }

/-- 0x6200[n]:04 PRESENT (R379). -/
def detPresent : Reg :=
  { idx := 0x6200, sub := 4, name := "PRESENT", kind := .bool, size := 1, acc := .ro, home := .none, rows := 8 }

/-- 0x6201[n]:01 LEAD (R379). -/
def laneLead : Reg :=
  { idx := 0x6201, sub := 1, name := "LEAD", kind := .u, size := 1, acc := .rw, home := .stored, rows := 8, dflt := .const 255, rng := .spanOr (0) (7) 255 }

/-- 0x6201[n]:02 TRAIL (R379). -/
def laneTrail : Reg :=
  { idx := 0x6201, sub := 2, name := "TRAIL", kind := .u, size := 1, acc := .rw, home := .stored, rows := 8, dflt := .const 255, rng := .spanOr (0) (7) 255 }

/-- 0x6201[n]:03 SPACING (R379). -/
def laneSpacing : Reg :=
  { idx := 0x6201, sub := 3, name := "SPACING", kind := .u, size := 2, acc := .rw, home := .stored, rows := 8, dflt := .const 4000, rng := .span (500) (20000) }

/-- 0x6201[n]:04 LOOP_LEN (R379). -/
def laneLoopLen : Reg :=
  { idx := 0x6201, sub := 4, name := "LOOP_LEN", kind := .u, size := 2, acc := .rw, home := .stored, rows := 8, dflt := .const 2000, rng := .span (0) (10000) }

/-- 0x6201[n]:05 KIND (R379). -/
def laneKind : Reg :=
  { idx := 0x6201, sub := 5, name := "KIND", kind := .u, size := 1, acc := .rw, home := .stored, rows := 8, rng := .set [0, 1] }

/-- 0x6201[n]:06 MAX_TRAVEL (R379). -/
def laneMaxTravel : Reg :=
  { idx := 0x6201, sub := 6, name := "MAX_TRAVEL", kind := .u, size := 2, acc := .rw, home := .stored, rows := 8, dflt := .const 2000, rng := .span (50) (10000) }

/-- 0x6201[n]:07 TOTAL (R379). -/
def laneTotal : Reg :=
  { idx := 0x6201, sub := 7, name := "TOTAL", kind := .u, size := 4, acc := .ro, home := .stored, rows := 8 }

/-- 0x6202:01 LEN_BOUND (R379). -/
def lenBound1 : Reg :=
  { idx := 0x6202, sub := 1, name := "LEN_BOUND", kind := .u, size := 2, acc := .rw, home := .stored, dflt := .const 2500 }

/-- 0x6202:02 LEN_BOUND (R379). -/
def lenBound2 : Reg :=
  { idx := 0x6202, sub := 2, name := "LEN_BOUND", kind := .u, size := 2, acc := .rw, home := .stored, dflt := .const 5500 }

/-- 0x6202:03 LEN_BOUND (R379). -/
def lenBound3 : Reg :=
  { idx := 0x6202, sub := 3, name := "LEN_BOUND", kind := .u, size := 2, acc := .rw, home := .stored, dflt := .const 7500 }

/-- 0x6202:04 LEN_BOUND (R379). -/
def lenBound4 : Reg :=
  { idx := 0x6202, sub := 4, name := "LEN_BOUND", kind := .u, size := 2, acc := .rw, home := .stored, dflt := .const 10000 }

/-- 0x6202:05 LEN_BOUND (R379). -/
def lenBound5 : Reg :=
  { idx := 0x6202, sub := 5, name := "LEN_BOUND", kind := .u, size := 2, acc := .rw, home := .stored, dflt := .const 12500 }

/-- 0x6202:06 LEN_BOUND (R379). -/
def lenBound6 : Reg :=
  { idx := 0x6202, sub := 6, name := "LEN_BOUND", kind := .u, size := 2, acc := .rw, home := .stored, dflt := .const 16500 }

/-- 0x6202:07 INTERVAL (R379). -/
def interval : Reg :=
  { idx := 0x6202, sub := 7, name := "INTERVAL", kind := .u, size := 1, acc := .rw, home := .stored, dflt := .const 15, rng := .set [1, 2, 3, 4, 5, 6, 10, 12, 15, 20, 30, 60] }

/-- 0x6202:08 RECORD_HOLD (R379). -/
def recordHold : Reg :=
  { idx := 0x6202, sub := 8, name := "RECORD_HOLD", kind := .u, size := 2, acc := .rw, home := .stored, dflt := .const 2000, rng := .span (0) (60000) }

/-- 0x6202:09 REC_NEXT (R379). -/
def recNext : Reg :=
  { idx := 0x6202, sub := 9, name := "REC_NEXT", kind := .u, size := 2, acc := .ro, home := .stored }

/-- 0x6210[n]:01 START (R379). -/
def recStart : Reg :=
  { idx := 0x6210, sub := 1, name := "START", kind := .time, size := 14, acc := .ro, home := .stored, rows := 1024 }

/-- 0x6210[n]:02 LANE (R379). -/
def recLane : Reg :=
  { idx := 0x6210, sub := 2, name := "LANE", kind := .u, size := 1, acc := .ro, home := .stored, rows := 1024, dflt := .const 255 }

/-- 0x6210[n]:03 COUNT (R379). -/
def recCount : Reg :=
  { idx := 0x6210, sub := 3, name := "COUNT", kind := .u, size := 2, acc := .ro, home := .stored, rows := 1024 }

/-- 0x6210[n]:04 OCCUPANCY (R379). -/
def recOccupancy : Reg :=
  { idx := 0x6210, sub := 4, name := "OCCUPANCY", kind := .u, size := 2, acc := .ro, home := .stored, rows := 1024 }

/-- 0x6210[n]:05 MEAN_SPEED (R379). -/
def recMeanSpeed : Reg :=
  { idx := 0x6210, sub := 5, name := "MEAN_SPEED", kind := .u, size := 2, acc := .ro, home := .stored, rows := 1024 }

/-- 0x6210[n]:06 CLASSES (R379). -/
def recClasses : Reg :=
  { idx := 0x6210, sub := 6, name := "CLASSES", kind := .oct, size := 14, acc := .ro, home := .stored, rows := 1024 }

/-- 0x6210[n]:07 UNCLASSIFIED (R379). -/
def recUnclassified : Reg :=
  { idx := 0x6210, sub := 7, name := "UNCLASSIFIED", kind := .u, size := 2, acc := .ro, home := .stored, rows := 1024 }

/-- 0x6210[n]:08 FLAGS (R379). -/
def recFlags : Reg :=
  { idx := 0x6210, sub := 8, name := "FLAGS", kind := .u, size := 1, acc := .ro, home := .stored, rows := 1024 }

/-- 0x6300[n]:01 SCAN (R379). -/
def adcScan : Reg :=
  { idx := 0x6300, sub := 1, name := "SCAN", kind := .bool, size := 1, acc := .rw, home := .stored, rows := 13 }

/-- 0x6300[n]:02 OVERSAMPLE (R379). -/
def adcOversample : Reg :=
  { idx := 0x6300, sub := 2, name := "OVERSAMPLE", kind := .u, size := 2, acc := .rw, home := .stored, rows := 13, dflt := .const 1, rng := .span (1) (256) }

/-- 0x6300[n]:03 RMS_WINDOW (R379). -/
def adcRmsWindow : Reg :=
  { idx := 0x6300, sub := 3, name := "RMS_WINDOW", kind := .u, size := 2, acc := .rw, home := .stored, rows := 13, rng := .span (0) (4096) }

/-- 0x6300[n]:04 GAIN (R379). -/
def adcGain : Reg :=
  { idx := 0x6300, sub := 4, name := "GAIN", kind := .fx, size := 4, acc := .rw, home := .stored, rows := 13, dflt := .const 16 }

/-- 0x6300[n]:05 OFFSET (R379). -/
def adcOffset : Reg :=
  { idx := 0x6300, sub := 5, name := "OFFSET", kind := .fx, size := 4, acc := .rw, home := .stored, rows := 13 }

/-- 0x6300[n]:06 RAW (R379). -/
def adcRaw : Reg :=
  { idx := 0x6300, sub := 6, name := "RAW", kind := .u, size := 2, acc := .ro, home := .none, rows := 13 }

/-- 0x6300[n]:07 VALUE (R379). -/
def adcValue : Reg :=
  { idx := 0x6300, sub := 7, name := "VALUE", kind := .fx, size := 4, acc := .ro, home := .none, rows := 13 }

/-- 0x6300[n]:08 LIMIT_LO (R379). -/
def adcLimitLo : Reg :=
  { idx := 0x6300, sub := 8, name := "LIMIT_LO", kind := .fx, size := 4, acc := .rw, home := .stored, rows := 13, dflt := .const 0x80000000 }

/-- 0x6300[n]:09 LIMIT_HI (R379). -/
def adcLimitHi : Reg :=
  { idx := 0x6300, sub := 9, name := "LIMIT_HI", kind := .fx, size := 4, acc := .rw, home := .stored, rows := 13, dflt := .const 2147418112 }

/-- 0x6300[n]:0A HYST (R379). -/
def adcHyst : Reg :=
  { idx := 0x6300, sub := 10, name := "HYST", kind := .fx, size := 4, acc := .rw, home := .stored, rows := 13, rng := .span (0) (2147483647) }

/-- 0x6300[n]:0B PERSIST (R379). -/
def adcPersist : Reg :=
  { idx := 0x6300, sub := 11, name := "PERSIST", kind := .u, size := 2, acc := .rw, home := .stored, rows := 13, dflt := .const 100, rng := .span (0) (60000) }

/-- 0x6301:01 LAMP_I_CH (R379). -/
def lampICh : Reg :=
  { idx := 0x6301, sub := 1, name := "LAMP_I_CH", kind := .u, size := 1, acc := .rw, home := .stored, dflt := .const 255, rng := .spanOr (0) (7) 255 }

/-- 0x6301:02 DRIVER_T_CH (R379). -/
def driverTCh : Reg :=
  { idx := 0x6301, sub := 2, name := "DRIVER_T_CH", kind := .u, size := 1, acc := .rw, home := .stored, dflt := .const 255, rng := .spanOr (0) (8) 255 }

/-- 0x6301:03 LAMP_RELAY (R379). -/
def lampRelay : Reg :=
  { idx := 0x6301, sub := 3, name := "LAMP_RELAY", kind := .u, size := 1, acc := .rw, home := .stored, rng := .set [0, 1] }

/-- 0x6301:04 LAMP_I_MIN (R379). -/
def lampIMin : Reg :=
  { idx := 0x6301, sub := 4, name := "LAMP_I_MIN", kind := .fx, size := 4, acc := .rw, home := .stored, dflt := .const 3277 }

/-- 0x6301:05 LAMP_I_OFF (R379). -/
def lampIOff : Reg :=
  { idx := 0x6301, sub := 5, name := "LAMP_I_OFF", kind := .fx, size := 4, acc := .rw, home := .stored, dflt := .const 1311 }

/-- 0x6301:06 SETTLE (R379). -/
def settle : Reg :=
  { idx := 0x6301, sub := 6, name := "SETTLE", kind := .u, size := 2, acc := .rw, home := .stored, dflt := .const 2000, rng := .span (0) (60000) }

/-- 0x6301:07 DRIVER_T_MAX (R379). -/
def driverTMax : Reg :=
  { idx := 0x6301, sub := 7, name := "DRIVER_T_MAX", kind := .fx, size := 4, acc := .rw, home := .stored, dflt := .const 5570560 }

/-- 0x6301:08 CYCLE_COUNT (R379). -/
def cycleCount : Reg :=
  { idx := 0x6301, sub := 8, name := "CYCLE_COUNT", kind := .u, size := 1, acc := .rw, home := .stored, dflt := .const 4, rng := .span (2) (50) }

/-- 0x6301:09 CYCLE_WINDOW (R379). -/
def cycleWindow : Reg :=
  { idx := 0x6301, sub := 9, name := "CYCLE_WINDOW", kind := .u, size := 2, acc := .rw, home := .stored, dflt := .const 600, rng := .span (10) (7200) }

/-- 0x6301:0A SCAN_OVERRUN (R379). -/
def scanOverrun : Reg :=
  { idx := 0x6301, sub := 10, name := "SCAN_OVERRUN", kind := .u, size := 4, acc := .ro, home := .retained }

/-- 0x6400:01 NOMINAL_RATE (R380). -/
def nominalRate : Reg :=
  { idx := 0x6400, sub := 1, name := "NOMINAL_RATE", kind := .u, size := 4, acc := .rwp1, home := .stored, dflt := .const 500000, rng := .span (125000) (1000000) }

/-- 0x6400:02 DATA_RATE (R380). -/
def dataRate : Reg :=
  { idx := 0x6400, sub := 2, name := "DATA_RATE", kind := .u, size := 4, acc := .rwp1, home := .stored, dflt := .const 2000000, rng := .span (125000) (5000000) }

/-- 0x6400:03 NOMINAL_SP (R380). -/
def nominalSp : Reg :=
  { idx := 0x6400, sub := 3, name := "NOMINAL_SP", kind := .u, size := 1, acc := .rw, home := .stored, dflt := .const 80, rng := .span (50) (90) }

/-- 0x6400:04 DATA_SP (R380). -/
def dataSp : Reg :=
  { idx := 0x6400, sub := 4, name := "DATA_SP", kind := .u, size := 1, acc := .rw, home := .stored, dflt := .const 75, rng := .span (50) (90) }

/-- 0x6400:05 FD_ENABLE (R380). -/
def fdEnable : Reg :=
  { idx := 0x6400, sub := 5, name := "FD_ENABLE", kind := .bool, size := 1, acc := .rw, home := .stored, dflt := .const 1 }

/-- 0x6400:06 TEC (R380). -/
def tec : Reg :=
  { idx := 0x6400, sub := 6, name := "TEC", kind := .u, size := 1, acc := .ro, home := .live }

/-- 0x6400:07 REC (R380). -/
def rec : Reg :=
  { idx := 0x6400, sub := 7, name := "REC", kind := .u, size := 1, acc := .ro, home := .live }

/-- 0x6400:08 BUS_STATE (R380). -/
def busState : Reg :=
  { idx := 0x6400, sub := 8, name := "BUS_STATE", kind := .u, size := 1, acc := .ro, home := .live }

/-- 0x6400:09 BUS_OFFS (R380). -/
def busOffs : Reg :=
  { idx := 0x6400, sub := 9, name := "BUS_OFFS", kind := .u, size := 4, acc := .ro, home := .retained }

/-- 0x6410[n]:01 FILTER_ID (R380). -/
def canfFilterId : Reg :=
  { idx := 0x6410, sub := 1, name := "FILTER_ID", kind := .u, size := 4, acc := .rw, home := .stored, rows := 16, rng := .mask 0x1FFFFFFF }

/-- 0x6410[n]:02 FILTER_MASK (R380). -/
def canfFilterMask : Reg :=
  { idx := 0x6410, sub := 2, name := "FILTER_MASK", kind := .u, size := 4, acc := .rw, home := .stored, rows := 16 }

/-- 0x6410[n]:03 FILTER_IDE (R380). -/
def canfFilterIde : Reg :=
  { idx := 0x6410, sub := 3, name := "FILTER_IDE", kind := .bool, size := 1, acc := .rw, home := .stored, rows := 16 }

/-- 0x6500[n]:01 ENABLE (R380). -/
def alarmEnable : Reg :=
  { idx := 0x6500, sub := 1, name := "ENABLE", kind := .bool, size := 1, acc := .rw, home := .stored, rows := 32, dflt := .const 1 }

/-- 0x6500[n]:02 ACTIVE (R380). -/
def alarmActive : Reg :=
  { idx := 0x6500, sub := 2, name := "ACTIVE", kind := .bool, size := 1, acc := .ro, home := .live, rows := 32 }

/-- 0x6500[n]:03 DETAIL (R380). -/
def alarmDetail : Reg :=
  { idx := 0x6500, sub := 3, name := "DETAIL", kind := .u, size := 8, acc := .ro, home := .live, rows := 32 }

/-- 0x6500[n]:04 LATCHED (R380). -/
def alarmLatched : Reg :=
  { idx := 0x6500, sub := 4, name := "LATCHED", kind := .bool, size := 1, acc := .ro, home := .stored, rows := 32 }

/-- 0x6500[n]:05 CLEAR (R380). -/
def alarmClear : Reg :=
  { idx := 0x6500, sub := 5, name := "CLEAR", kind := .bool, size := 1, acc := .rwp1, home := .none, rows := 32 }

/-- 0x6500[n]:06 RAISES (R380). -/
def alarmRaises : Reg :=
  { idx := 0x6500, sub := 6, name := "RAISES", kind := .u, size := 4, acc := .ro, home := .stored, rows := 32 }

/-- 0x6500[n]:07 LAST_RAISED (R380). -/
def alarmLastRaised : Reg :=
  { idx := 0x6500, sub := 7, name := "LAST_RAISED", kind := .time, size := 14, acc := .ro, home := .stored, rows := 32 }

/-- 0x6500[n]:08 RAISE (R380). -/
def alarmRaise : Reg :=
  { idx := 0x6500, sub := 8, name := "RAISE", kind := .bool, size := 1, acc := .rw, home := .none, rows := 32 }

/-- 0x7000:01 RUN_STATE (R464). -/
def engRunState : Reg :=
  { idx := 0x7000, sub := 1, name := "RUN_STATE", kind := .u, size := 1, acc := .ro, home := .live }

/-- 0x7000:02 CONTROL (R464). -/
def engControl : Reg :=
  { idx := 0x7000, sub := 2, name := "CONTROL", kind := .u, size := 1, acc := .rwp1, home := .none, rng := .span (1) (3) }

/-- 0x7000:03 PROFILES (R464). -/
def engProfiles : Reg :=
  { idx := 0x7000, sub := 3, name := "PROFILES", kind := .u, size := 1, acc := .rw, home := .stored, dflt := .cycle [3, 3, 1, 1, 1, 1, 1, 1, 1, 1, 3, 1], rng := .mask 0x3 }

/-- 0x7000:04 START_PC (R464). -/
def engStartPc : Reg :=
  { idx := 0x7000, sub := 4, name := "START_PC", kind := .u, size := 8, acc := .rw, home := .stored, rng := .span (0) (1099511627775) }

/-- 0x7000:05 XVEC_F (R464). -/
def engXvecF : Reg :=
  { idx := 0x7000, sub := 5, name := "XVEC_F", kind := .u, size := 8, acc := .rw, home := .stored, rng := .mult 1024 0 1099511626752 }

/-- 0x7000:06 APPLET_BASE (R464). -/
def engAppletBase : Reg :=
  { idx := 0x7000, sub := 6, name := "APPLET_BASE", kind := .u, size := 8, acc := .rwp1, home := .stored, rng := .mult 4096 0 1099511623680 }

/-- 0x7000:07 APPLET_SIZE (R464). -/
def engAppletSize : Reg :=
  { idx := 0x7000, sub := 7, name := "APPLET_SIZE", kind := .u, size := 4, acc := .rwp1, home := .stored, rng := .mult 4096 0 4294963200 }

/-- 0x7000:08 SEV_ALLOW (R464). -/
def engSevAllow : Reg :=
  { idx := 0x7000, sub := 8, name := "SEV_ALLOW", kind := .u, size := 2, acc := .rwp1, home := .stored, rng := .mask 0xFFF }

/-- 0x7000:09 WATCHDOG (R464). -/
def engWatchdog : Reg :=
  { idx := 0x7000, sub := 9, name := "WATCHDOG", kind := .u, size := 4, acc := .rw, home := .stored, rng := .spanOr (100) (60000000) 0 }

/-- 0x7000:0A EXCEPTIONS (R464). -/
def engExceptions : Reg :=
  { idx := 0x7000, sub := 10, name := "EXCEPTIONS", kind := .u, size := 4, acc := .ro, home := .retained }

/-- 0x7000:0B LAST_ECAUSE (R464). -/
def engLastEcause : Reg :=
  { idx := 0x7000, sub := 11, name := "LAST_ECAUSE", kind := .u, size := 1, acc := .ro, home := .retained }

/-- 0x7000:0C LAST_EPC (R464). -/
def engLastEpc : Reg :=
  { idx := 0x7000, sub := 12, name := "LAST_EPC", kind := .u, size := 8, acc := .ro, home := .retained }

/-- 0x7000:0D MOULD_TRAPS (R464). -/
def engMouldTraps : Reg :=
  { idx := 0x7000, sub := 13, name := "MOULD_TRAPS", kind := .u, size := 4, acc := .ro, home := .retained }

/-- 0x7000:0E RETIRED (R464). -/
def engRetired : Reg :=
  { idx := 0x7000, sub := 14, name := "RETIRED", kind := .u, size := 8, acc := .ro, home := .none, unsat := true }

/-- 0x7000:0F PC (R464). -/
def engPc : Reg :=
  { idx := 0x7000, sub := 15, name := "PC", kind := .u, size := 8, acc := .ro, home := .none }

/-- 0x7200[n]:01 VALID (R465). -/
def mouldValid : Reg :=
  { idx := 0x7200, sub := 1, name := "VALID", kind := .bool, size := 1, acc := .rw, home := .stored, rows := 16 }

/-- 0x7200[n]:02 LENGTH (R465). -/
def mouldLength : Reg :=
  { idx := 0x7200, sub := 2, name := "LENGTH", kind := .u, size := 1, acc := .rw, home := .stored, rows := 16, rng := .span (1) (32) }

/-- 0x7200[n]:03 UOPS (R465). -/
def mouldUops : Reg :=
  { idx := 0x7200, sub := 3, name := "UOPS", kind := .oct, size := 128, acc := .rw, home := .stored, rows := 16 }

/-- 0x7200[n]:04 EXECUTED (R465). -/
def mouldExecuted : Reg :=
  { idx := 0x7200, sub := 4, name := "EXECUTED", kind := .u, size := 8, acc := .ro, home := .none, rows := 16, unsat := true }

/-- 0x7400[n]:01 ALG (R319). -/
def ctxAlg : Reg :=
  { idx := 0x7400, sub := 1, name := "ALG", kind := .u, size := 1, acc := .rw, home := .stored, rows := 2048, rng := .span (0) (7) }

/-- 0x7400[n]:02 KEY (R319). -/
def ctxKey : Reg :=
  { idx := 0x7400, sub := 2, name := "KEY", kind := .oct, size := 32, acc := .wo, home := .stored, rows := 2048 }

/-- 0x7400[n]:03 MIC_LEN (R319). -/
def ctxMicLen : Reg :=
  { idx := 0x7400, sub := 3, name := "MIC_LEN", kind := .u, size := 1, acc := .rw, home := .stored, rows := 2048, dflt := .const 8, rng := .set [4, 8, 16] }

/-- 0x7400[n]:04 SALT (R319). -/
def ctxSalt : Reg :=
  { idx := 0x7400, sub := 4, name := "SALT", kind := .u, size := 4, acc := .rw, home := .stored, rows := 2048 }

/-- 0x7400[n]:05 KEY_ID (R319). -/
def ctxKeyId : Reg :=
  { idx := 0x7400, sub := 5, name := "KEY_ID", kind := .u, size := 1, acc := .rw, home := .stored, rows := 2048 }

/-- 0x7400[n]:06 BIND (R319). -/
def ctxBind : Reg :=
  { idx := 0x7400, sub := 6, name := "BIND", kind := .u, size := 4, acc := .rw, home := .stored, rows := 2048 }

/-- 0x7400[n]:07 STATE (R319). -/
def ctxState : Reg :=
  { idx := 0x7400, sub := 7, name := "STATE", kind := .u, size := 1, acc := .ro, home := .stored, rows := 2048 }

/-- 0x7400[n]:08 TX_NEXT (R319). -/
def ctxTxNext : Reg :=
  { idx := 0x7400, sub := 8, name := "TX_NEXT", kind := .u, size := 8, acc := .ro, home := .stored, rows := 2048 }

/-- 0x7400[n]:09 NEXT_KEY (R319). -/
def ctxNextKey : Reg :=
  { idx := 0x7400, sub := 9, name := "NEXT_KEY", kind := .oct, size := 32, acc := .wo, home := .stored, rows := 2048 }

/-- 0x7400[n]:0A NEXT_KEY_ID (R319). -/
def ctxNextKeyId : Reg :=
  { idx := 0x7400, sub := 10, name := "NEXT_KEY_ID", kind := .u, size := 1, acc := .rw, home := .stored, rows := 2048 }

/-- 0x7400[n]:0B REKEY (R319). -/
def ctxRekey : Reg :=
  { idx := 0x7400, sub := 11, name := "REKEY", kind := .bool, size := 1, acc := .wo, home := .none, rows := 2048 }

/-- 0x7400[n]:0C RETIRING (R319). -/
def ctxRetiring : Reg :=
  { idx := 0x7400, sub := 12, name := "RETIRING", kind := .bool, size := 1, acc := .ro, home := .stored, rows := 2048 }

/-- 0x7400[n]:0D ERASE (R319). -/
def ctxErase : Reg :=
  { idx := 0x7400, sub := 13, name := "ERASE", kind := .bool, size := 1, acc := .wo, home := .none, rows := 2048 }

/-- 0x7400[n]:0E MIC_FAIL (R319). -/
def ctxMicFail : Reg :=
  { idx := 0x7400, sub := 14, name := "MIC_FAIL", kind := .u, size := 4, acc := .ro, home := .retained, rows := 2048 }

/-- 0x7400[n]:0F REPLAY_DROP (R319). -/
def ctxReplayDrop : Reg :=
  { idx := 0x7400, sub := 15, name := "REPLAY_DROP", kind := .u, size := 4, acc := .ro, home := .retained, rows := 2048 }

/-- 0x7400[n]:10 EXHAUSTED_REFUSED (R319). -/
def ctxExhaustedRefused : Reg :=
  { idx := 0x7400, sub := 16, name := "EXHAUSTED_REFUSED", kind := .u, size := 4, acc := .ro, home := .retained, rows := 2048 }

/-- 0x7400[n]:11 REKEYS (R319). -/
def ctxRekeys : Reg :=
  { idx := 0x7400, sub := 17, name := "REKEYS", kind := .u, size := 4, acc := .ro, home := .stored, rows := 2048 }

/-- 0x7401:01 REKEY_WARN (R319). -/
def rekeyWarn : Reg :=
  { idx := 0x7401, sub := 1, name := "REKEY_WARN", kind := .u, size := 8, acc := .rw, home := .stored, dflt := .const 1048576, rng := .span (1) (1099511627776) }

/-- 0x7401:02 RETIRE_TIME (R319). -/
def retireTime : Reg :=
  { idx := 0x7401, sub := 2, name := "RETIRE_TIME", kind := .u, size := 2, acc := .rw, home := .stored, dflt := .const 60, rng := .span (1) (3600) }

/-- 0x7410:01 JOB (R319). -/
def jobJob : Reg :=
  { idx := 0x7410, sub := 1, name := "JOB", kind := .oct, size := 32, acc := .rw, home := .none, loc := true }

/-- 0x7410:02 RUN (R319). -/
def jobRun : Reg :=
  { idx := 0x7410, sub := 2, name := "RUN", kind := .bool, size := 1, acc := .wo, home := .none, loc := true }

/-- 0x7410:03 JOB_STATUS (R319). -/
def jobJobStatus : Reg :=
  { idx := 0x7410, sub := 3, name := "JOB_STATUS", kind := .u, size := 1, acc := .ro, home := .none, loc := true }

/-- 0x7410:04 JOB_COUNTER (R319). -/
def jobJobCounter : Reg :=
  { idx := 0x7410, sub := 4, name := "JOB_COUNTER", kind := .u, size := 8, acc := .ro, home := .none, loc := true }

/-- 0x8000:01 DRAM_STATE (R495). -/
def dramState : Reg :=
  { idx := 0x8000, sub := 1, name := "DRAM_STATE", kind := .u, size := 1, acc := .ro, home := .live }

/-- 0x8000:02 DRAM_SIZE (R495). -/
def dramSize : Reg :=
  { idx := 0x8000, sub := 2, name := "DRAM_SIZE", kind := .u, size := 8, acc := .ro, home := .live }

/-- 0x8000:03 DRAM_ENGINE_TOP (R495). -/
def dramEngineTop : Reg :=
  { idx := 0x8000, sub := 3, name := "DRAM_ENGINE_TOP", kind := .u, size := 8, acc := .ro, home := .live }

/-- 0x8000:04 DRAM_INTERLEAVE (R495). -/
def dramInterleave : Reg :=
  { idx := 0x8000, sub := 4, name := "DRAM_INTERLEAVE", kind := .bool, size := 1, acc := .rwp1, home := .stored, dflt := .const 1 }

/-- 0x8000:05 SPILL_NOW (R495). -/
def spillNow : Reg :=
  { idx := 0x8000, sub := 5, name := "SPILL_NOW", kind := .u, size := 8, acc := .ro, home := .live }

/-- 0x8001:01 AGE_LIMIT (R495). -/
def ageLimit1 : Reg :=
  { idx := 0x8001, sub := 1, name := "AGE_LIMIT", kind := .u, size := 2, acc := .rw, home := .stored, dflt := .const 2, rng := .span (1) (1000) }

/-- 0x8001:02 AGE_LIMIT (R495). -/
def ageLimit2 : Reg :=
  { idx := 0x8001, sub := 2, name := "AGE_LIMIT", kind := .u, size := 2, acc := .rw, home := .stored, dflt := .const 4, rng := .span (1) (1000) }

/-- 0x8001:03 AGE_LIMIT (R495). -/
def ageLimit3 : Reg :=
  { idx := 0x8001, sub := 3, name := "AGE_LIMIT", kind := .u, size := 2, acc := .rw, home := .stored, dflt := .const 8, rng := .span (1) (1000) }

/-- 0x8001:04 AGE_LIMIT (R495). -/
def ageLimit4 : Reg :=
  { idx := 0x8001, sub := 4, name := "AGE_LIMIT", kind := .u, size := 2, acc := .rw, home := .stored, dflt := .const 16, rng := .span (1) (1000) }

/-- 0x8001:05 DEADLINE_LATE (R495). -/
def deadlineLate : Reg :=
  { idx := 0x8001, sub := 5, name := "DEADLINE_LATE", kind := .u, size := 4, acc := .ro, home := .retained }

/-- 0x8002:01 SCRUB_PERIOD (R495). -/
def scrubPeriod : Reg :=
  { idx := 0x8002, sub := 1, name := "SCRUB_PERIOD", kind := .u, size := 4, acc := .rw, home := .stored, dflt := .const 86400, rng := .span (3600) (604800) }

/-- 0x8002:02 UE_FENCE_COUNT (R495). -/
def ueFenceCount : Reg :=
  { idx := 0x8002, sub := 2, name := "UE_FENCE_COUNT", kind := .u, size := 1, acc := .rw, home := .stored, dflt := .const 4, rng := .span (2) (64) }

/-- 0x8002:03 RETRAIN_TEMP (R495). -/
def retrainTemp : Reg :=
  { idx := 0x8002, sub := 3, name := "RETRAIN_TEMP", kind := .u, size := 1, acc := .rw, home := .stored, dflt := .const 10, rng := .span (2) (40) }

/-- 0x8004[n]:01 CE_COUNT (R495). -/
def dchCeCount : Reg :=
  { idx := 0x8004, sub := 1, name := "CE_COUNT", kind := .u, size := 4, acc := .ro, home := .retained, rows := 2 }

/-- 0x8004[n]:02 UE_COUNT (R495). -/
def dchUeCount : Reg :=
  { idx := 0x8004, sub := 2, name := "UE_COUNT", kind := .u, size := 4, acc := .ro, home := .stored, rows := 2 }

/-- 0x8004[n]:03 RETRAINS (R495). -/
def dchRetrains : Reg :=
  { idx := 0x8004, sub := 3, name := "RETRAINS", kind := .u, size := 4, acc := .ro, home := .retained, rows := 2 }

/-- 0x8004[n]:04 SR_ENTRIES (R495). -/
def dchSrEntries : Reg :=
  { idx := 0x8004, sub := 4, name := "SR_ENTRIES", kind := .u, size := 4, acc := .ro, home := .retained, rows := 2 }

/-- 0x8010:01 DRAM_SPREAD (R434). -/
def dramSpread : Reg :=
  { idx := 0x8010, sub := 1, name := "DRAM_SPREAD", kind := .u, size := 1, acc := .rw, home := .stored, rng := .span (0) (5) }

/-- 0x8010:02 DRAM_SPREAD_NOW (R434). -/
def dramSpreadNow : Reg :=
  { idx := 0x8010, sub := 2, name := "DRAM_SPREAD_NOW", kind := .u, size := 1, acc := .ro, home := .live }

/-- 0x8100:01 WS_CE (R494). -/
def wsCe : Reg :=
  { idx := 0x8100, sub := 1, name := "WS_CE", kind := .u, size := 4, acc := .ro, home := .retained }

/-- 0x8100:02 WS_UE (R494). -/
def wsUe : Reg :=
  { idx := 0x8100, sub := 2, name := "WS_UE", kind := .u, size := 4, acc := .ro, home := .stored }

/-- 0x8100:03 WS_SCRUB_PERIOD (R494). -/
def wsScrubPeriod : Reg :=
  { idx := 0x8100, sub := 3, name := "WS_SCRUB_PERIOD", kind := .u, size := 4, acc := .rw, home := .stored, dflt := .const 3600, rng := .span (60) (86400) }

/-- 0x8200:01 MRAM_WRITES (R494). -/
def mramWrites : Reg :=
  { idx := 0x8200, sub := 1, name := "MRAM_WRITES", kind := .u, size := 8, acc := .ro, home := .stored }

/-- 0x8200:02 MRAM_CE (R494). -/
def mramCe : Reg :=
  { idx := 0x8200, sub := 2, name := "MRAM_CE", kind := .u, size := 4, acc := .ro, home := .retained }

/-- 0x8200:03 MRAM_UE (R494). -/
def mramUe : Reg :=
  { idx := 0x8200, sub := 3, name := "MRAM_UE", kind := .u, size := 4, acc := .ro, home := .stored }

/-- 0x8210:01 CS_OFFSET (R494). -/
def csOffset : Reg :=
  { idx := 0x8210, sub := 1, name := "CS_OFFSET", kind := .u, size := 4, acc := .rw, home := .none, loc := true }

/-- 0x8210:02 CS_LEN (R494). -/
def csLen : Reg :=
  { idx := 0x8210, sub := 2, name := "CS_LEN", kind := .u, size := 2, acc := .rw, home := .none, rng := .span (1) (256), loc := true }

/-- 0x8210:03 CS_DATA (R494). -/
def csData : Reg :=
  { idx := 0x8210, sub := 3, name := "CS_DATA", kind := .oct, size := 256, acc := .rw, home := .none, loc := true }

/-- 0x8210:04 CS_WRITE (R494). -/
def csWrite : Reg :=
  { idx := 0x8210, sub := 4, name := "CS_WRITE", kind := .bool, size := 1, acc := .wo, home := .none, loc := true }

/-- The objects of indices 0x1000 to 0x10FF. -/
def page10 : List Reg :=
  [vendor, part, revision, lotId, wafer, dieX,
   dieY, testSite, testDate, eui64, strainBaseline, baselineS,
   identityCrc, identityOk, assetTag, poleRef, ownerId, bindingSeq,
   portId, rowCursor, cursorAutoinc, segOffset, lastResult, errorCount,
   commits, refused, aged, authDiscard, dupRequest, frameDiscard,
   defaultsRestore, udpPort, udpEnable, canNode, canEnable, canWriteEnable,
   consoleBaud, meshEnable, respCacheTime, noticeRetry] ++
  [noticeLost, noticeSeqNext, noticeCanDest, noticeConsole, peerEnable, peerRights,
   peerCtxRx, peerCtxTx, peerAddr, peerCaneLink, peerNotices, krIndex,
   krSub, krType, krSize, krAccess, krPersist, krRows,
   krDomain, krMin, krMax, krDefault, krName, kraithRows,
   kraithCrc]

/-- The objects of indices 0x1100 to 0x11FF. -/
def page11 : List Reg :=
  [tier, windowOpen, windowRemain, presenceWindow, presenceClose, presenceSeq,
   maintFitted, sealEnable, sealPeriod, sealCoding, sealSample, sealState,
   sealTripped, sealClear, sealEvents, sealLastCause]

/-- The objects of indices 0x1200 to 0x12FF. -/
def page12 : List Reg :=
  [seqLo, seqHi, ffUsed, torn, queueDepth, culletRecord]

/-- The objects of indices 0x1300 to 0x13FF. -/
def page13 : List Reg :=
  [modeCurrent, modeRequest, transition, target, maintBase, entryAbandoned,
   transitions, nightTarget, dayTarget, unpoweredTarget, powerfailTarget, domainState,
   chipIdleTime, chipIdleModes, dramIdle, ethIdle, radioIdle, schedValid,
   schedFirstDay, schedDusk, schedDawn, schedEnable, drainLead, announceTime,
   drainGuard, duskLead, drainFlushed, dwPollInterval, dwParent, wakeEnable,
   wakeGpioMask, wakeGpioLevel, wakeAlarmDelay, wakeCause, wakeCount]

/-- The objects of indices 0x1400 to 0x14FF. -/
def page14 : List Reg :=
  [cellCellS, cellCellLoss, cellCellDomain, sMin, sMinCell, ageLoss,
   effectiveAge, marginYears, marginYearsNom, marginWarn, strainWindow, vcoreNow,
   vcoreMin, vcoreMax, vcorePage, vcoreSettle, pmbusFail, lehrPeriod,
   lehrMargin, lehrHyst, lehrTempStep, lehrStep, lehrRun, lehrPasses,
   lehrLast, lehrShort, planSReq, tjNow, tjPeak, thermalEnter,
   thermalExit, thermalHold, thermalStep, thermalEvents, vioBLevel, rtcSource,
   brownouts, lastBrownoutRail, slew1, slew2] ++
  [slew3, slew4, slew5, slew6, padGpioFilter]

/-- The objects of indices 0x1500 to 0x15FF. -/
def page15 : List Reg :=
  [acceptedHeld, acceptedTotal, deliveredTotal, dupDiscards, rxReserveShort, warmReplays,
   journalRepaired, journalDrops, abandonDeparted, abandonLifetime, abandonFlush, abandonPersist,
   abandonNoticePeriod, lostPower, lostPowerLast, lostMultifault, restorePolicy, restoreDelay,
   ethPair, unitFences, lastFenced, lastFenceCause, flushAction, flushTarget,
   fabricStallLimit, fabricStallCount, fabricFenced]

/-- The objects of indices 0x1600 to 0x16FF. -/
def page16 : List Reg :=
  [resetSource, resetKind, warmReset, coldReset, resetsWarm, resetsCold,
   lostCold, bootState, railTimeout, railFails, slotABase, slotBBase,
   slotSize, bootPrefer, bootTrial, bootConfirm, confirmTime, bootSlot,
   fallbacks, slotStatus, runningSecVersion, runningBuild, slotKeyHash, slotKeyState,
   slotRevoke, sbEnforced, rollback, rollbackSet, bootKeyUsed, debugState,
   debugUnlock, debugLock, debugDisable, jtagIdcode, swapSlot, swapMask,
   swapGo, swapStatus, swapWait, swapDone] ++
  [swaps, xspiClk, xspiTimeout, xspiOffset, xspiLen, xspiData,
   xspiOp, xspiOpStatus, xspiSize]

/-- The objects of indices 0x2000 to 0x20FF. -/
def page20 : List Reg :=
  [tuneFreq, tuneBw, lockTimeout, synthState, tuneTimeLast, lockLosses,
   calEnable, calPeriod, calTempStep, calStarve, calStatus, calSegments,
   calAbandoned, calForced, dieTemp, chainOffset1, chainOffset2, chainOffset3,
   chainOffset4, paSupplyPage, regClamped, lPort, rampProfile, rampUp,
   rampDown, femPolarity, femLead, testMode, testPower, txStatusCount1,
   txStatusCount2, txStatusCount3, txStatusCount4, txStatusCount5, txStatusCount6, txStatusCount7,
   ptEdgeLo, ptEdgeHi, ptTarget, ptFemGain] ++
  [ptFemTempco, radarEvents, cacState, nopRemain, captureEnable, captureThreshold,
   eqSmooth, rxLastRssi, rxOk, rxFcsFail, rxHdrFail, rxCaptured,
   rxUnsupported, rxLength, rxListRescued, rxMpduFcsFail, ldpcIterMax, ldpcTruncated,
   bssEnable, bssSsid, bssSsidLen, bssBssid, bssRouterMac, bssBeaconInterval,
   bssDtimPeriod, bssHideSsid, bssAkm, bssPairwise, bssGroupCtx, bssMaxSta,
   bssBssColor, bssStations, bssBeacons]

/-- The objects of indices 0x2400 to 0x24FF. -/
def page24 : List Reg :=
  [splitEnable, splitChannel, splitState]

/-- The objects of indices 0x2800 to 0x28FF. -/
def page28 : List Reg :=
  [modeEnable, fskIndex, syncErrors, listMode, reachSync, reachPreamble,
   reachFcs32, reachWhiten]

/-- The objects of indices 0x2C00 to 0x2CFF. -/
def page2C : List Reg :=
  [regionState, regionCode, regionVersion, regionCrc, regionChanges, regionCommit,
   regionClear, stageCrc, plimRadio, plimEdgeLo, plimEdgeHi, plimLimit4,
   plimLimit5, plimLimit6, plimLimit7, plimFemGainMax, chalRadio, chalEdgeLo,
   chalEdgeHi, chalMaxBw, chalFlags, dutyEdgeLo, dutyEdgeHi, dutyBudget,
   cacTime, nopTime, radarRuleset, stageCode, stageVersion]

/-- The objects of indices 0x2D00 to 0x2DFF. -/
def page2D : List Reg :=
  [blankByH, blankByM0, blankByM1, blankByL, blankByIn0, blankByIn1,
   coexLead, blankTail, coexPolarity, coexInFilter, blankedH, blankedM,
   blankedL]

/-- The objects of indices 0x3000 to 0x30FF. -/
def page30 : List Reg :=
  [edcaAifsn, edcaEcwmin, edcaEcwmax, edcaTxopLimit, edcaAdvAifsn, edcaAdvEcwmin,
   edcaAdvEcwmax, edcaAdvTxop, retryRetryLimit, retryRetryHold, minBe, maxBe,
   maxBackoffs, ccaThreshold, ebInterval, childTxWithin, staIdleTime, nbrTimeout,
   childTimeout, childPersist, guardBase, guardDrift, guardCap, scanDwell,
   scanInterval, staleResync, retryExhausted, seqStale, lostPartner, lostPartnerFailed,
   admitRefused, nbrTableFull]

/-- The objects of indices 0x3100 to 0x31FF. -/
def page31 : List Reg :=
  [staState, staRadioBss, staAddr, staAid, staPsState, staLastHeard,
   staKick]

/-- The objects of indices 0x3200 to 0x32FF. -/
def page32 : List Reg :=
  [nbrAddr, nbrShortAddr, nbrRole, nbrTxMode, nbrRetryProfile, nbrPollPeriod,
   nbrRxSeq, nbrTxSeq, nbrLinkMetric, nbrLastHeard, nbrIndirect, nbrRemove]

/-- The objects of indices 0x3300 to 0x33FF. -/
def page33 : List Reg :=
  [dutyRowUsedData, dutyRowUsedAck, dutyRowDeferred, ackReserve, ackRefused]

/-- The objects of indices 0x3400 to 0x34FF. -/
def page34 : List Reg :=
  [roundTime, usersMaxH, usersMaxM, usersLehrH, usersLehrM, stationLimit,
   stationLehr, dlMuMimo, twtEnable, twtMinSp, twtLead, btwtRadioBss,
   btwtInterval, btwtSp, btwtOffset]

/-- The objects of indices 0x3500 to 0x35FF. -/
def page35 : List Reg :=
  [sfEnable, sfSize, cellSlotframe, cellSlotOffset, cellChannelOffset, cellOptions,
   cellNeighbour, timeslot, tschEpoch, ch0Freq, chSpacing, hopLen,
   hopList, asn]

/-- The objects of indices 0x3600 to 0x36FF. -/
def page36 : List Reg :=
  [caneEnable, canePeerId, caneStrands, caneHAddr, caneMAddr, caneLNbr,
   caneCtx7, caneCtx8, caneCtx9, caneCtx10, caneCtx11, caneCtx12,
   caneCaneMtu, caneHoldTime, caneAckDelay, caneResendTime, caneDelete, caneRouterMac,
   streamPolicy, streamPin, streamPinFailover, streamCritical, streamTid, streamTxNext,
   streamRxNext, streamRxHeld, linkState, linkStrandState, linkPeerEpoch, linkFailovers,
   linkNacksSent, linkResends, linkTwinsSent, linkTwinsRemelted, linkBeyondWindow, linkEpochHoles,
   linkPeerDraining, caneEthertype, probeIntervalHm, probeIntervalL] ++
  [strandDeadAttempts, strandDeadTimeHm, strandDeadTimeL, strandUpProbes, caneEpoch, caneBadHeader]

/-- The objects of indices 0x3700 to 0x37FF. -/
def page37 : List Reg :=
  [gatherAhead, gatherAheadLehr, gatherAge, gatherMaxOctets, rateRemeltSteps, gathersInFlight,
   gatherStoreUsed, gathersBuilt, gathersSent, mpdusRemelted, pnBurnt, cascadeRemelts,
   gaFallback, remeltCause1, remeltCause2, remeltCause3, remeltCause4, remeltCause5,
   remeltCause6, remeltCause7, remeltCause8, remeltCause9, remeltCause10]

/-- The objects of indices 0x4000 to 0x40FF. -/
def page40 : List Reg :=
  [ethMode, ethAutoneg, ethFec, ethMaxFrame, ethFlowCtrl, ethRouterMac,
   ethLink, ethRxFrames, ethRxFcsDrop, ethRxLongDrop, ethBufferDrop, ethTxFrames,
   dscpMap, pcpMap, ictxKind, ictxKey, ictxPolicer, ictxZone,
   ictxBd, ictxLearn]

/-- The objects of indices 0x4100 to 0x41FF. -/
def page41 : List Reg :=
  [flowValid, flowKey, flowAction, flowTarget, flowClass, flowIdle,
   flowHits, stgStageKey, stgStageAction, stgStageTarget, stgStageClass, stgStageIdle,
   stgInsert, stgInsertRow, exceptions1, exceptions2, exceptions3, exceptions4,
   exceptions5, exceptions6, exceptions7, exceptions8, classDiscard, installFail,
   missTake, verdict]

/-- The objects of indices 0x4200 to 0x42FF. -/
def page42 : List Reg :=
  [routeValid, routeFamily, routePrefix, routeLen, routeNexthop, routePunt,
   nhKind, nhTarget, nhDstMac, nhVlan, nhMtu]

/-- The objects of indices 0x4300 to 0x43FF. -/
def page43 : List Reg :=
  [bridgeState, bridgeBd, bridgeMac, bridgeDestKind, bridgeDest, bridgeAge4300,
   bridgeAge4301, learnFull]

/-- The objects of indices 0x4400 to 0x44FF. -/
def page44 : List Reg :=
  [queueShaper, queueRetryProfile, queueLifetime, queuePriority, queueQuantum, queueBind,
   ringBase, ringSize, ringEnable, ringHead, ringTail, rxReserveSta,
   rxReserveNbr, rxReserveCane, xoffLevel, xonLevel, spillLimit, bufferFree]

/-- The objects of indices 0x4500 to 0x45FF. -/
def page45 : List Reg :=
  [shaperRate, shaperBurst, shaperProfile, shaperTokens, ovhOverhead]

/-- The objects of indices 0x4600 to 0x46FF. -/
def page46 : List Reg :=
  [polRate, polBurst, polPassed, polDropped, polUnit]

/-- The objects of indices 0x4700 to 0x47FF. -/
def page47 : List Reg :=
  [samplePeriod, ewmaShift, sampleLate, sampDepthFrames, sampDepthOctets, sampSojourn,
   sampMaxOctets, sampMaxSojourn, sampEwmaOctets, histQueue, histMetric, histBinWidth,
   histHistClear, hbinBin1, hbinBin2, hbinBin3, hbinBin4, hbinBin5,
   hbinBin6, hbinBin7, hbinBin8, hbinBin9, hbinBin10, hbinBin11,
   hbinBin12, hbinBin13, hbinBin14, hbinBin15, hbinBin16, hbinBin17,
   hbinBin18, hbinBin19, hbinBin20, hbinBin21, hbinBin22, hbinBin23,
   hbinBin24, hbinBin25, hbinBin26, hbinBin27] ++
  [hbinBin28, hbinBin29, hbinBin30, hbinBin31, hbinBin32]

/-- The objects of indices 0x5000 to 0x50FF. -/
def page50 : List Reg :=
  [domSource, domSourceArg, domKp, domKi, domStepThreshold, domLockThreshold,
   domFreqLimit, domSourceTimeout, domOffsetIn, domTime, domState, domFreqAdj,
   domLastOffset, domSteps, domHoldoverAge, presentSel, autoSwitch, stepAllow,
   slewRate, holdoverLimit, presentTime, presentOffset, timeValid, presentSet,
   utcOffset, rtcSync, ppsWidth, ppsGate, switches, rtcLo,
   rtcHi, uptimeLo, uptimeHi, tiTicks]

/-- The objects of indices 0x5100 to 0x51FF. -/
def page51 : List Reg :=
  [trigEnable, trigMode, trigStart, trigPeriod, trigTarget, trigNext,
   trigFired, trigMissed, trigLate, capSource, capEdge, capFilter,
   capScale, capTime, capCount, capMissed]

/-- The objects of indices 0x5200 to 0x52FF. -/
def page52 : List Reg :=
  [tsqPop, tsqDepth, tsqOverflow, tsqLost, tsqScale, tsqTxDelay,
   tsqRxDelay, tsmTsMode]

/-- The objects of indices 0x5300 to 0x53FF. -/
def page53 : List Reg :=
  [tmrEnable, tmrMode, tmrSource, tmrPrescale, tmrPeriod, tmrCompare,
   tmrCount, tmrCmpMode, tmrCapture, tmrEvents, tmrEventMask, tmrEventEngines,
   tmrOutPol, pairLink, pairCount64, globalArm, globalGo]

/-- The objects of indices 0x6000 to 0x60FF. -/
def page60 : List Reg :=
  [daliEnable, daliPriority, daliRetries, daliBusState, daliPollMask, daliPollPeriod,
   daliCollisions, daliFrame, daliFlags, daliState, daliResult, daliReply]

/-- The objects of indices 0x6100 to 0x61FF. -/
def page61 : List Reg :=
  [dimFreq, dim0Level, dim1Level, dimFade, dimMin, failsafeDim,
   hotDim, dimPolarity, dimNow, relayCommand, relayPinState, relayOnLead,
   relayOffLead, relayZxSync, relayOperations, relayRatedOps, relayWearWarn, relayUnsynced,
   zxEdges, zxFilter, zxHalfPeriod, zxTimeout]

/-- The objects of indices 0x6200 to 0x62FF. -/
def page62 : List Reg :=
  [detFilter, detActiveLevel, detStuckTime, detPresent, laneLead, laneTrail,
   laneSpacing, laneLoopLen, laneKind, laneMaxTravel, laneTotal, lenBound1,
   lenBound2, lenBound3, lenBound4, lenBound5, lenBound6, interval,
   recordHold, recNext, recStart, recLane, recCount, recOccupancy,
   recMeanSpeed, recClasses, recUnclassified, recFlags]

/-- The objects of indices 0x6300 to 0x63FF. -/
def page63 : List Reg :=
  [adcScan, adcOversample, adcRmsWindow, adcGain, adcOffset, adcRaw,
   adcValue, adcLimitLo, adcLimitHi, adcHyst, adcPersist, lampICh,
   driverTCh, lampRelay, lampIMin, lampIOff, settle, driverTMax,
   cycleCount, cycleWindow, scanOverrun]

/-- The objects of indices 0x6400 to 0x64FF. -/
def page64 : List Reg :=
  [nominalRate, dataRate, nominalSp, dataSp, fdEnable, tec,
   rec, busState, busOffs, canfFilterId, canfFilterMask, canfFilterIde]

/-- The objects of indices 0x6500 to 0x65FF. -/
def page65 : List Reg :=
  [alarmEnable, alarmActive, alarmDetail, alarmLatched, alarmClear, alarmRaises,
   alarmLastRaised, alarmRaise]

/-- The objects of indices 0x7000 to 0x70FF. -/
def page70 : List Reg :=
  [engRunState, engControl, engProfiles, engStartPc, engXvecF, engAppletBase,
   engAppletSize, engSevAllow, engWatchdog, engExceptions, engLastEcause, engLastEpc,
   engMouldTraps, engRetired, engPc]

/-- The objects of indices 0x7200 to 0x72FF. -/
def page72 : List Reg :=
  [mouldValid, mouldLength, mouldUops, mouldExecuted]

/-- The objects of indices 0x7400 to 0x74FF. -/
def page74 : List Reg :=
  [ctxAlg, ctxKey, ctxMicLen, ctxSalt, ctxKeyId, ctxBind,
   ctxState, ctxTxNext, ctxNextKey, ctxNextKeyId, ctxRekey, ctxRetiring,
   ctxErase, ctxMicFail, ctxReplayDrop, ctxExhaustedRefused, ctxRekeys, rekeyWarn,
   retireTime, jobJob, jobRun, jobJobStatus, jobJobCounter]

/-- The objects of indices 0x8000 to 0x80FF. -/
def page80 : List Reg :=
  [dramState, dramSize, dramEngineTop, dramInterleave, spillNow, ageLimit1,
   ageLimit2, ageLimit3, ageLimit4, deadlineLate, scrubPeriod, ueFenceCount,
   retrainTemp, dchCeCount, dchUeCount, dchRetrains, dchSrEntries, dramSpread,
   dramSpreadNow]

/-- The objects of indices 0x8100 to 0x81FF. -/
def page81 : List Reg :=
  [wsCe, wsUe, wsScrubPeriod]

/-- The objects of indices 0x8200 to 0x82FF. -/
def page82 : List Reg :=
  [mramWrites, mramCe, mramUe, csOffset, csLen, csData,
   csWrite]

/-- The page of an index, with radio, engine and mould indices brought to the first of their kind. -/
def pageOf (p : Nat) : List Reg :=
  match p with
  | 0x10 => page10
  | 0x11 => page11
  | 0x12 => page12
  | 0x13 => page13
  | 0x14 => page14
  | 0x15 => page15
  | 0x16 => page16
  | 0x20 => page20
  | 0x24 => page24
  | 0x28 => page28
  | 0x2C => page2C
  | 0x2D => page2D
  | 0x30 => page30
  | 0x31 => page31
  | 0x32 => page32
  | 0x33 => page33
  | 0x34 => page34
  | 0x35 => page35
  | 0x36 => page36
  | 0x37 => page37
  | 0x40 => page40
  | 0x41 => page41
  | 0x42 => page42
  | 0x43 => page43
  | 0x44 => page44
  | 0x45 => page45
  | 0x46 => page46
  | 0x47 => page47
  | 0x50 => page50
  | 0x51 => page51
  | 0x52 => page52
  | 0x53 => page53
  | 0x60 => page60
  | 0x61 => page61
  | 0x62 => page62
  | 0x63 => page63
  | 0x64 => page64
  | 0x65 => page65
  | 0x70 => page70
  | 0x72 => page72
  | 0x74 => page74
  | 0x80 => page80
  | 0x81 => page81
  | 0x82 => page82
  | _ => []

/-- Every object of the table, rising by index and subindex, each radio, engine and mould object once. -/
def all : List Reg :=
  page10 ++ page11 ++ page12 ++ page13 ++ page14 ++ page15 ++ page16 ++ page20 ++ page24 ++ page28 ++ page2C ++ page2D ++ page30 ++ page31 ++ page32 ++ page33 ++ page34 ++ page35 ++ page36 ++ page37 ++ page40 ++ page41 ++ page42 ++ page43 ++ page44 ++ page45 ++ page46 ++ page47 ++ page50 ++ page51 ++ page52 ++ page53 ++ page60 ++ page61 ++ page62 ++ page63 ++ page64 ++ page65 ++ page70 ++ page72 ++ page74 ++ page80 ++ page81 ++ page82

end Sys2Proof.Machine.Obj
end

