-- ==== Sys2Proof/Machine/State.lean ====
section
/-!
DEFINITION. The state of the block as plain data: the dictionary's stores, and every piece of state that the manual
gives the machine beside its objects, grouped by the unit that holds it. A value that an object shows and that no other
rule holds elsewhere is in the stores of `RegFile`, under its object of Machine/Objects.lean.
-/

namespace Sys2Proof.Machine

/-! ### Modes (R82 to R105) -/

/-- The modes of R82. -/
inductive Mode where
  | off | hibernate | dayWatch | fieldOnly | relay | fullService | degraded | maintenance
  deriving DecidableEq, Repr

/-- The code of TRANSITION 0x1300:03 (R107). -/
inductive Trans where
  | none | entering | draining | waking
  deriving DecidableEq, Repr

/-- A drain under way (R89, R96): the dawn drain, or its part for stations. `deadline` is T, `closedAt` the tick of
step 2 and `guardAt` that of step 4, where they have run, `flushed` the frames that step 4 abandoned. `cause` is the
cause of the mode change. -/
structure Drain where
  dawn : Bool
  target : Mode
  start : Nat
  deadline : Nat
  closedAt : Option Nat := none
  guardAt : Option Nat := none
  flushed : Nat := 0
  cause : Nat := 0
  deriving DecidableEq, Repr

/-- Step 2 of a drain has run: acceptance is closed. -/
def Drain.closed (d : Drain) : Bool := d.closedAt.isSome

/-- An entry into Hibernate under way (R104): the tick of step 1, and whether the commit point has passed. -/
structure Entry where
  start : Nat
  committed : Bool := false
  deriving DecidableEq, Repr

/-- The ingresses whose acceptance is open (R536). -/
structure Ingress where
  eth : Bool := false
  station : Bool := false
  lowband : Bool := false
  cane : Bool := false
  engine : Bool := false
  parent : Bool := false
  deriving DecidableEq, Repr

/-- The mode unit of GD: the mode, the transition under way and the wake latch. `held` are the wake sources latched
after a commit point (R102) or during a drain (R103), `heldSeal` the cause of a held seal event, `waking` the start
tick of a wake that waits for rails good (R498), `hibSince` the tick of the last entry into Hibernate (R101). `both`
holds while MAINT_N fitted and the open window have been seen true together (R88). `powerFailOwed` is the payload of a
POWER_FAIL record that is still to be accounted (R132), `lastActivity` the tick from which idleness counts (R91),
`hourAt` that of the last hourly summary (R122). -/
structure ModeUnit where
  mode : Mode := .off
  trans : Trans := .none
  target : Mode := .off
  cause : Nat := 0
  drain : Option Drain := none
  entry : Option Entry := none
  acc : Ingress := {}
  held : Nat := 0
  heldSeal : Option Nat := none
  waking : Option Nat := none
  hibSince : Nat := 0
  both : Bool := false
  powerFailOwed : Option (List Nat) := none
  lastActivity : Nat := 0
  hourAt : Nat := 0
  deriving DecidableEq, Repr

/-! ### Pins and supplies (R513 to R525) -/

/-- The levels of the pins and supplies that the block senses or drives. `presenceStuck` holds while PRESENCE_N must
go high before a press can count, `pressed` once it has counted (R381, R382). `coexOut` tells which COEX_OUT lines are
asserted, `fem` holds the levels of H_FEM, M_FEM and L_FEM (R140). -/
structure Pins where
  pwrOk : Bool := false
  maintFitted : Bool := false
  presenceLow : Option Nat := none
  presenceStuck : Bool := false
  pressed : Bool := false
  resetLow : Bool := false
  lowRails : List Nat := []
  mainEn : Bool := false
  coexIn0 : Bool := false
  coexIn1 : Bool := false
  coexOut : List Bool := [false, false, false, false]
  ppsOut : Bool := false
  fem : List Nat := [0, 0, 0]
  timerOut : List Nat := []
  deriving DecidableEq, Repr

/-! ### Presence and seal (R381 to R389) -/

/-- The seal machine of GD: the tick at which a confirming check is due, if one is, the passing checks in a row while
the seal is broken, and the tick of the next check of the schedule (R388, R389). -/
structure SealUnit where
  confirm : Option Nat := none
  passes : Nat := 0
  nextCheck : Nat := 0
  deriving DecidableEq, Repr

/-! ### The cullet log (R402 to R408) -/

/-- A record posted to the cullet queue. -/
structure Post where
  type : Nat
  payload : List Nat
  first : Bool := false
  flags : Nat := 0
  deriving DecidableEq, Repr

/-- What a slot of the partition holds: a record, whole when its CRC is written, torn before. -/
structure Slot where
  seq : Nat
  rtc : Nat
  type : Nat
  ntime : Nat
  flags : Nat
  payload : List Nat
  whole : Bool
  deriving DecidableEq, Repr

/-- The cullet log controller: the slots by number, the queue of at most 32 posts, the sources that wait behind a full
queue, the POWER_FAIL post that goes first, the slot being written and the first-fault copy that follows it. -/
structure Cullet where
  slots : List (Nat × Slot) := []
  next : Nat := 0
  queue : List Post := []
  waiting : List Post := []
  urgent : Option Post := none
  writing : Option Nat := none
  copyOwed : Option Slot := none
  deriving DecidableEq, Repr

/-! ### Notices and Plais (R62 to R78) -/

/-- A notice destination (R77). -/
inductive Dest where
  | console
  | can (node : Nat)
  | peer (row : Nat)
  deriving DecidableEq, Repr

/-- A queued notice, its fields as R77 lays them out; `sentAt` is the tick of its last transmission, `tried` tells
that a first transmission was refused for an exhausted counter (R68). -/
structure Notice where
  seq : Nat
  code : Nat
  index : Nat
  sub : Nat
  row : Nat
  time : Nat
  lost : Nat
  payload : List Nat
  sentAt : Option Nat := none
  tried : Bool := false
  deriving DecidableEq, Repr

/-- The notice queue of one destination. -/
structure NoticeQueue where
  dest : Dest
  queue : List Notice := []
  lost : Nat := 0
  deriving DecidableEq, Repr

/-- A cached response (R66). -/
structure Cached where
  src : Port
  tid : Nat
  at_ : Nat
  msg : List Octet
  deriving DecidableEq, Repr

/-- A CAN FD message being assembled (R76). -/
structure CanAsm where
  src : Nat
  tidLo : Nat
  start : Nat
  next : Nat
  data : List Octet
  deriving DecidableEq, Repr

/-- Octets staged by a port for one object and row (R53, R64): the octets by offset. -/
structure Staged where
  port : Port
  key : Nat
  octets : List (Nat × Octet)
  deriving DecidableEq, Repr

/-- A snapshot of a value in a port's read buffer (R54). -/
structure Snapshot where
  port : Port
  key : Nat
  octets : List Octet
  deriving DecidableEq, Repr

/-- The record of accepted counters of a key (R69): the highest, and which of the 64 values below it. -/
structure AuthRec where
  highest : Nat
  below : Nat
  deriving DecidableEq, Repr

/-- Where the answer to a message goes (R72 to R75). -/
inductive Reply where
  | console
  | can (node : Nat)
  | udp (addr port : Nat)
  | mesh (link : Nat)
  deriving DecidableEq, Repr

/-- An operation record of a request (R63). -/
structure OpRec where
  op : Nat
  idx : Nat
  sub : Nat
  row : Nat
  off : Nat
  dlen : Nat
  value : List Octet
  deriving DecidableEq, Repr

/-- What a command that brings a write tells of the surroundings of the object's unit: nothing; that an engine stored
it through its window; the outcomes and the repaired lines of a warm reset; whether fuses read back right; whether the
PMIC answers. -/
inductive Act where
  | plain
  | window
  | warm (done : List Nat) (repaired : Nat)
  | keyHash (readBackOk : Bool)
  | vcore (acknowledged : Bool)
  deriving DecidableEq, Repr

/-- What a port asks of the commit point: one write, one read, an engine's load of a slot of the cullet log that is
being written, or a Plais request with its records and those that are still to be applied, each with its place in the
message. -/
inductive Ask where
  | write (idx sub row len v : Nat) (act : Act)
  | read (idx sub row : Nat)
  | load (slot : Nat)
  | message (to_ : Reply) (peer tid : Nat) (sec group : Bool) (ops : List OpRec) (left : List (Nat × OpRec))
  deriving DecidableEq, Repr

/-- A submission that waits in its port's queue (R57): the tier that held when it arrived (R384), whether its access
has begun and holds the commit point (R161, R407), the results of the records already applied, the paths of repeats
held until it ends (R66), and how many accesses were committed while it waited (R58). -/
structure Wait where
  port : Port
  ask : Ask
  tier : Nat
  begun : Bool := false
  results : List (Nat × Nat × List Octet) := []
  repeats : List (Reply × Bool) := []
  age : Nat := 0
  deriving DecidableEq, Repr

/-- The Plais ports and the commit point: the submissions that wait, in order of arrival, and the tier of the access
being checked, where it is not the one that holds now (R384). -/
structure Plais where
  cache : List Cached := []
  asm : List CanAsm := []
  staged : List Staged := []
  snaps : List Snapshot := []
  queues : List NoticeQueue := []
  waiting : List Wait := []
  tier : Option Nat := none
  deriving DecidableEq, Repr

/-! ### Frames (R110 to R126, R268) -/

/-- The ingress contexts of R111. -/
inductive Ctx where
  | eth (port vid pcp : Nat)
  | station (row tid : Nat)
  | neighbour (row : Nat)
  | cane (link stream : Nat)
  | engine (n ring : Nat)
  deriving DecidableEq, Repr

/-- STATE of a journal entry (R124); 0 is a free entry, which no frame has. -/
inductive JState where
  | queued | gathered | sent | delivered | abandoned
  deriving DecidableEq, Repr

/-- An accepted frame and its journal entry. `queue` is 8,191 before the frame is enqueued. `landed` is the landing
region it still lies in, `reserve` the receive reservation it draws on. `air` tells that a first transmission has
started, `acked` that a strand acknowledgement has resolved a cane frame that no cane ACK covers yet. `again` and
`twinned` are RESEND and TWIN of a cane frame (R235), once set kept. `stamp` is its receive stamp and ingress (R335).
-/
structure Frame where
  id : Nat
  ctx : Ctx
  pkt : Packet
  at_ : Nat
  queue : Nat := 8191
  seq : Nat := 0
  state : JState := .queued
  landed : Option Radio := none
  spilled : Bool := false
  released : Bool := false
  attempts : Nat := 0
  air : Bool := false
  txSeq : Option Nat := none
  pn : Option Nat := none
  missed : Option Nat := none
  cseq : Option Nat := none
  lastTx : Nat := 0
  strand : Option Radio := none
  twin : Option Radio := none
  resend : Bool := false
  acked : Bool := false
  again : Bool := false
  twinned : Bool := false
  indirect : Option Nat := none
  cookie : Option (Nat × Nat) := none
  stamp : Option (Nat × Nat) := none
  deriving DecidableEq, Repr

/-! ### Network time, triggers, captures and timers (R321 to R350) -/

/-- A time domain (R322, R325): its time at the tick `ref` in units of 2^-56 ns, FREQ_ADJ in units of 2^-40, the
integral term i in units of 2^-32 ppb, the count of samples in a row within the lock threshold, the time t of the
last sample in 2^-16 ns, and the tick at which Holdover began. -/
structure Domain where
  base : Int := 0
  ref : Nat := 0
  adj : Int := 0
  integ : Int := 0
  good : Nat := 0
  prev : Option Int := none
  since : Nat := 0
  heardAt : Nat := 0
  deriving DecidableEq, Repr

/-- The time island and the Furnace clocks: the presentation offset p at the tick `pRef`, in 2^-56 ns; the edge's time
in Day Watch with the tick of its last correction (R331); the RTC count at the tick `rtcRef` (R330), the tick at which
VFUR rose (R351), the tick of the Core-A power-up (TI_TICKS), the tick of the next RTC alignment, a load of the RTC by
PRESENT_SET that waits for the RTC tick at the instant given (R329), the value that TB of MS-L and FE held when Core-A
went off (R456), and the tick at which PPS_OUT last rose (R340). -/
structure TimeUnit where
  a : Domain := {}
  b : Domain := {}
  p : Int := 0
  pRef : Nat := 0
  dwBase : Int := 0
  dwRef : Nat := 0
  dwCorr : Option Nat := none
  rtcBase : Nat := 0
  rtcRef : Nat := 0
  vfurAt : Nat := 0
  coreAAt : Nat := 0
  alignAt : Option Nat := none
  rtcLoad : Option (Nat × Int) := none
  tbBase : Nat := 0
  tbRef : Nat := 0
  ppsAt : Nat := 0
  deriving DecidableEq, Repr

/-- An entry of a transmit timestamp queue (R337). -/
structure Stamp where
  ident : Nat
  time : Nat
  deriving DecidableEq, Repr

/-- One channel of the timer/counter block (R342 to R347): COUNT at the tick `ref` with the prescaler at 0, whether the
compare is armed, the buffered COMPARE of PWM, an unread capture, and a wrap owed under R345. -/
structure TimerCh where
  count : Nat := 0
  ref : Nat := 0
  armed : Bool := false
  unread : Bool := false
  buffered : Option Nat := none
  wrap : Bool := false
  deriving DecidableEq, Repr

/-- A latch of a linked pair's high COUNT for one port (R349). -/
structure HighLatch where
  port : Port
  pair : Nat
  value : Nat
  deriving DecidableEq, Repr

/-! ### Engines (R436 to R466) -/

/-- The privileges of R438. -/
inductive Priv where
  | a | f | m
  deriving DecidableEq, Repr

/-- The flags of F (R437). -/
structure Flags where
  v : Bool := false
  c : Bool := false
  z : Bool := false
  n : Bool := false
  h : Bool := false
  e : Bool := false
  deriving DecidableEq, Repr

/-- What RUN_STATE shows (R464), with the target of a wait in WUNTIL (R454). -/
inductive Run where
  | off | halted | running | wfe | wuntil (target : Word) | fenced
  deriving DecidableEq, Repr

/-- The program counter, the flags and the control registers of an engine (R436, R437), its privilege (R438), the
watchdog's start (R455), and a swap request that is pending (R466). ESTATUS is held as its three fields. -/
structure Cpu where
  run : Run := .off
  pc : BitVec 40 := 0
  flags : Flags := {}
  priv : Priv := .m
  eventSrc : BitVec 32 := 0
  evmask : BitVec 32 := 0
  dcv : BitVec 17 := 0
  epc : Word := 0
  ecause : Word := 0
  eaddr : Word := 0
  epriv : BitVec 2 := 2
  exl : Bool := false
  ef : BitVec 8 := 0
  xvec : Word := 0
  monitor : List Word := List.replicate 16 0
  wdStart : Nat := 0
  swapReq : Bool := false
  deriving DecidableEq, Repr

/-! ### Queues, shapers and gathers (R251 to R291) -/

/-- A token bucket: tokens in units of 1 / (320,000,000 × 8) octet, so that accrual at a whole bit rate is exact, and
the tick of the last accrual (R269, R285). -/
structure Bucket where
  tokens : Int
  last : Nat
  deriving DecidableEq, Repr

/-- A frame in the miss queue (R280, R281): its handle once taken, and the packet engine that holds it. -/
structure Miss where
  fid : Nat
  code : Nat
  handle : Nat := 65535
  holder : Option Nat := none
  zone : Nat := 0
  row : Option Nat := none
  bucket : Nat := 65535
  deriving DecidableEq, Repr

/-- The states of a gather in flight (R253); a free one is not listed. -/
inductive GState where
  | built | sealed | staged | locked | sent
  deriving DecidableEq, Repr

/-- An MPDU of a gather: its frame, or a control frame, its receiver, TID, 802.11 sequence number and PN, the context
that sealed it, the receiver's MCS when it was built (R255), whether it is a retry of a transmitted MPDU, whether its
last attempt failed, and whether it is resolved or handed on as a retry. Receivers are station rows, then 512 + the
link; 1,023 is a group address. `strand` names the link of a cane frame. -/
structure Mpdu where
  fid : Option Nat
  recv : Nat
  tid : Nat
  sn : Nat
  pn : Option Nat := none
  ctx : Nat := 0
  mcs : Nat := 0
  retry : Bool := false
  failed : Bool := false
  resolved : Bool := false
  strand : Option Nat := none
  deriving DecidableEq, Repr

/-- A gather in flight (R251 to R253); `users` counts the users of a multi-user gather, `rus` gives each of them its
tones (R215). `missed` is the trigger that came while it was locked (R253). -/
structure Gather where
  id : Nat
  radio : Radio
  state : GState
  mpdus : List Mpdu
  multi : Bool := false
  rus : List (Nat × Nat) := []
  octets : Nat := 0
  sealedAt : Nat := 0
  missed : Option Nat := none
  deriving DecidableEq, Repr

/-- The state of forwarding: the miss queue and its next handle, the policer and shaper buckets and the queues in the
order in which their shapers' rounds serve them (R285), the deficits of round robin and the queue each port or ring
served last, the retry holds, the paused priorities of each port (8: PAUSE) with the ticks at which their quanta end,
the XOFF in force of each port (bit 8: PAUSE) with the tick at which it was sent last (R265), the frame on each port's
line, the descriptors filled, the acceptance positions of the ingress units (R282) and the next position of each
queue, the queues moved to a partner port, the ports in low power and the ticks since which their links are down
(R91), the completion log of each port (R125), the Ethernet frames that a drain and a warm reset have dropped before
acceptance (R96, R126), and the tick at which the next pass of the sampler is due (R291). -/
structure Forward where
  misses : List Miss := []
  nextHandle : Nat := 0
  pol : List (Nat × Bucket) := []
  shap : List (Nat × Bucket) := []
  round : List Nat := []
  deficit : List (Nat × Nat) := []
  turn : List (Nat × Nat) := []
  holds : List (Nat × Nat) := []
  paused : List (List (Nat × Nat)) := [[], []]
  xoff : List (Nat × Nat) := [(0, 0), (0, 0)]
  line : List (Option Nat) := [none, none]
  filled : List (Nat × Nat × Nat) := []
  ingressSeq : List (Nat × Nat) := []
  queueSeq : List (Nat × Nat) := []
  flowHit : List (Nat × Nat) := []
  bridgeSeen : List (Nat × Nat) := []
  moved : List Bool := [false, false]
  low : List Bool := [false, false]
  downAt : List Nat := [0, 0]
  completed : List (List Nat) := [[], []]
  drainDrops : Nat := 0
  resetDrops : Nat := 0
  sampleDue : Option Nat := none
  deriving DecidableEq, Repr

/-- The gather pipeline: the gathers in build order, the next identity, and the next 802.11 sequence number of each
radio, receiver and TID. -/
structure GatherUnit where
  gathers : List Gather := []
  nextId : Nat := 0
  nextSn : List (Nat × Nat) := []
  deriving DecidableEq, Repr

/-! ### Cane links (R229 to R250) -/

/-- A frame held out of order in the receive ledger (R241): a frame of an ordered stream, or a payload of the management
stream (stream 15). -/
structure Held where
  stream : Nat
  cseq : Nat
  fid : Option Nat := none
  kind : Nat := 0
  payload : List Octet := []
  deriving DecidableEq, Repr

/-- A frame in the management send buffer (R230): its number, KIND and payload, whether it has been transmitted and
waits for an ACK, when it was transmitted last, whether it is sent with RESEND (R245), the strand on which it has its
number and counter (R119), whether it has been acknowledged there, and whether it has a neighbour sequence number
(R199). -/
structure MgmtSend where
  cseq : Nat
  kind : Nat
  payload : List Octet
  sent : Bool := false
  lastTx : Nat := 0
  again : Bool := false
  strand : Option Radio := none
  acked : Bool := false
  numbered : Bool := false
  deriving DecidableEq, Repr

/-- One strand of a link (R248): failed attempts in a row, acknowledged probes in a row, a probe outstanding, a PROBE
to be sent, the ticks at which the peer was last heard, a frame was last sent, and a PROBE last fell due, the tick
since which a frame or probe is outstanding; a BlockAckReq to be sent and the frames that a failover has returned and
that have not gone out again (R249). -/
structure Strand where
  fails : Nat := 0
  probes : Nat := 0
  probing : Bool := false
  probeDue : Bool := false
  heardAt : Nat := 0
  usedAt : Nat := 0
  probeAt : Nat := 0
  owedAt : Option Nat := none
  bar : Bool := false
  returning : Option (List Nat) := none
  deriving DecidableEq, Repr

/-- What a link holds beside its objects (R230, R241, R243, R244): `ackNow` tells that an ACK is to be sent, `nacks`
names the streams of the NACKs to be sent. -/
structure Link where
  held : List Held := []
  send : List MgmtSend := []
  waiting : List (Nat × List Octet) := []
  mgmtTx : Nat := 0
  mgmtRx : Nat := 0
  fresh : List Nat := []
  count : Nat := 0
  ackDue : Option Nat := none
  ackNow : Bool := false
  nacks : List Nat := []
  holes : List (Nat × Nat) := []
  strands : List Strand := [{}, {}, {}]
  peerUp : Nat := 0
  deriving DecidableEq, Repr

/-- A period of R122 that is running for a destination and reason, with the frames not yet covered by a notice and the
journal entries that they still hold in STATE 5 (R124). -/
structure Period where
  dest : Nat
  code : Nat
  start : Nat
  frames : Nat
  entries : List Frame := []
  deriving DecidableEq, Repr

/-! ### Cipher contexts (R297 to R316) -/

/-- What a key context holds that no port reads (R300): the current, staged and retiring keys, the RTC second at which
the retiring key's time ends and the Key ID it answers to, the frames and the management frames by link and number
that were sealed under it when it retired (R314), whether the notices of the key were raised, the frames that the
retiring key opened, the replay state of the current and the retiring key: by TID, the sequence numbers and counters
released last (R312), and the counters of Plais messages that each has accepted (R69). -/
structure KeyCtx where
  row : Nat
  key : Option Nat := none
  next : Option Nat := none
  old : Option Nat := none
  oldId : Nat := 0
  oldUntil : Nat := 0
  oldFids : List Nat := []
  oldSends : List (Nat × Nat) := []
  lowDone : Bool := false
  outDone : Bool := false
  openedOld : Nat := 0
  replay : List (Nat × List (Nat × Nat)) := []
  replayOld : List (Nat × List (Nat × Nat)) := []
  auth : Option AuthRec := none
  authOld : Option AuthRec := none
  deriving DecidableEq, Repr

/-- An engine job under way (R316): the port's job words as they stood, the counter consumed, the key. -/
structure Job where
  engine : Nat
  job : Nat
  counter : Nat
  key : Nat
  deriving DecidableEq, Repr

/-! ### Medium access (R194 to R227) -/

/-- An EDCA function (R194, R195): radio and access category, the back-off count, the exponent of its contention window,
and whether it contends. -/
structure Backoff where
  radio : Nat
  ac : Nat
  count : Nat
  ecw : Nat
  live : Bool := true
  deriving DecidableEq, Repr

/-- What the Radio L edge holds of a neighbour beside its row (R200, R201). -/
structure NbrMac where
  row : Nat
  hist : Nat := 0
  stale : Nat := 0
  synced : Bool := false
  pending : Bool := false
  deriving DecidableEq, Repr

/-- A lost-partner run (R212): the neighbour, the step, k, the tick of its start, the time without contact then, and
the partner's beacon interval, in ticks, and the tick at which the present dwell of a scan began. -/
structure Lost where
  nbr : Nat
  step : Nat
  k : Nat
  start : Nat
  elapsed : Nat
  interval : Nat
  dwellAt : Nat := 0
  deriving DecidableEq, Repr

/-- Bins of a duty row in a row (R203, R206): `span` seconds from second `sec` of the device's life on, each with this
PA-on time of data and of acknowledgements in units of 0.1 µs. -/
structure Bin where
  sec : Int
  span : Nat := 1
  data : Nat
  ack : Nat
  deriving DecidableEq, Repr

/-- An archive row (R206): the RTC second of the fold, the same second of the device's life, and the minute bins. -/
structure ArchiveRow where
  rtc : Nat
  sec : Int
  data : List Nat
  ack : List Nat
  deriving DecidableEq, Repr

/-- Medium access: EDCA functions, the duplicate cache of each station and TID (sequence number last accepted), the
station reports and the tick each station or neighbour was last heard, CSMA-CA of Radio L, the duty bins and their
archive by row, the lost-partner runs and the neighbours whose next scan waits with the ticks since which it does, TWT
agreements with the end of an open service period, when each station was last served, the candidate lists of each
radio, and the Day Watch parent with the poll under way. The responders' block-ack windows (first number and bits by
station or link and TID, R26), the MCS of each receiver (R255), the stations that use U-APSD and those with a PS-Poll
to answer (R217), the TSCH cell of the present slot, whether it transmits and its slot number, and the back-off of
shared cells by neighbour (R220), and the ticks of the last rounds, enhanced beacon, poll and bin boundary, and the
last TBTT of each BSS. -/
structure Mac where
  backoffs : List Backoff := []
  dups : List (Nat × List Nat) := []
  reports : List (Nat × Nat) := []
  heardSta : List (Nat × Nat) := []
  heardNbr : List (Nat × Nat) := []
  timedNbr : List (Nat × Nat) := []
  nbrs : List NbrMac := []
  csma : Option (Nat × Nat × Nat) := none
  bins : List (Nat × List Bin) := []
  archive : List (Nat × ArchiveRow) := []
  lost : List Lost := []
  scanWait : List (Nat × Nat) := []
  twt : List (Nat × Nat) := []
  inSp : List (Nat × Nat) := []
  servedSta : List (Nat × Nat) := []
  down : List (List Nat) := [[], []]
  up : List (List Nat) := [[], []]
  parent : Option Nat := none
  polling : Bool := false
  suspended : Bool := false
  polled : List Nat := []
  baWin : List (Nat × Nat × Nat) := []
  mcs : List (Nat × Nat) := []
  uapsd : List Nat := []
  psPoll : List Nat := []
  cell : Option (Nat × Bool × Nat) := none
  cellBack : List (Nat × Nat × Nat) := []
  roundAt : List (Nat × Nat) := []
  ebAt : Option Nat := none
  pollAt : Option Nat := none
  binAt : Option Int := none
  tbtts : List (Nat × Nat) := []
  slotDue : Bool := false
  deriving DecidableEq, Repr

/-! ### Radios (R137 to R193) -/

/-- A row of POWER_LIMIT in a committed region (R168). -/
structure LimitRow where
  radio : Nat
  lo : Nat
  hi : Nat
  limits : List Int
  gainMax : Int
  deriving DecidableEq, Repr

/-- A row of CHANNEL_ALLOW in a committed region. -/
structure AllowRow where
  radio : Nat
  lo : Nat
  hi : Nat
  maxBw : Nat
  dfs : Bool
  deriving DecidableEq, Repr

/-- A row of DUTY_SUBBAND in a committed region; `lo` 0 is an unused row. -/
structure DutyRow where
  lo : Nat
  hi : Nat
  budget : Nat
  deriving DecidableEq, Repr

/-- A regulatory region as the active half of the partition or an edge's shadow holds it (R159): the rows in order, the
DFS parameters, code, version and CRC. -/
structure Region where
  limits : List LimitRow := []
  allow : List AllowRow := []
  duty : List DutyRow := []
  cac : Nat := 60
  nop : Nat := 1800
  ruleset : Nat := 0
  code : Nat := 0
  version : Nat := 0
  crc : Nat := 0
  deriving DecidableEq, Repr

/-- A region commit under way (R161): the staged image in the inactive half. -/
structure Commit where
  image : Region
  deriving DecidableEq, Repr

/-- The regulatory partition and DFS: the active half, a commit under way, the start of a channel availability check,
whether it has been passed, the barred 20 MHz subchannels with the RTC second at which each bar ends (R164). `loads`
holds from the flip of a commit until its last edge has loaded its shadow. -/
structure RegionUnit where
  active : Option Region := none
  commit : Option Commit := none
  pendingNew : Option Nat := none
  loads : Bool := false
  cacFrom : Option Nat := none
  cacDone : Bool := false
  barred : List (Nat × Nat) := []
  deriving DecidableEq, Repr

/-- A tap of the equaliser: a complex number as a sum with the number of its terms (R188). -/
structure Tap where
  re : Int
  im : Int
  n : Nat
  deriving DecidableEq, Repr

/-- A reception under way (R184, R186, R271): the branch that owns the receiver, its power in 0.25 dBm units, the tick
of its sync, its header once decoded, whether landing space is reserved and for how many octets, and its equaliser by
stream (R188). -/
structure Rx where
  branch : Nat
  power : Int
  at_ : Nat := 0
  first : Nat := 0
  head : Option RxHead := none
  reserved : Bool := false
  octets : Nat := 0
  taps : List (List Tap) := []
  deriving DecidableEq, Repr

/-- Where the transmit command of an edge stands: none, waiting for lock, medium or a segment's end, on air from its
commit on, or waiting for its response. -/
inductive Phase where
  | idle | waiting | onAir | awaiting
  deriving DecidableEq, Repr

/-- What a PPDU was charged against the duty rows (R203): the second, the amount in 0.1 µs, acknowledgement or data, the
rows. -/
structure Charge where
  sec : Nat
  amount : Nat
  isAck : Bool
  rows : List Nat
  deriving DecidableEq, Repr

/-- The PA ramp of a PPDU (R152, R153): the points of its profile, and the lengths of its two ramps in 0.1 µs. -/
structure Ramp where
  points : List Nat
  up : Nat
  down : Nat
  deriving DecidableEq, Repr

/-- The PPDU that an edge has committed (R144, R152 to R155): its command, whether that is an immediate response of
the edge, the tick at which its ramp-up starts, whether its first sample is out, the channel that it occupies in kHz,
the level of each chain (R149), its ramp and its charge. -/
structure OnAir where
  cmd : TxCmd
  own : Bool := false
  rampAt : Nat := 0
  started : Bool := false
  centre : Nat := 0
  bw : Nat := 0
  levels : List Int := []
  ramp : Ramp := { points := [], up := 0, down := 0 }
  charge : Charge := { sec := 0, amount := 0, isAck := false, rows := [] }
  deriving DecidableEq, Repr

/-- A calibration segment that runs (R145 to R148): its kind and chain, its first tick, whether it is a forced one,
and whether a transmit command has come during it. -/
structure Seg where
  kind : Nat
  chain : Nat
  at_ : Nat
  forced : Bool := false
  abandon : Bool := false
  deriving DecidableEq, Repr

/-- The result of a calibration for a band, with the die temperature of its run in 2^-16 °C and the tick at which it
completed (R145). -/
structure CalResult where
  kind : Nat
  band : Nat
  temp : Int
  at_ : Nat
  deriving DecidableEq, Repr

/-- One radio's front end and edge: a tune that waits (R141), the start of the last tune, the channel held in kHz, the
transmit port, the transmit command with its phase, the tick from which LOCK_TIMEOUT counts and the one at which the
last PPDU ended, the PPDU on air, what the edge has to send of its own, the transmit opportunity held with its end (0:
one PPDU), the calibration segment that runs, the segments completed by kind, the calibrations due with the tick since
which they are, those forced, whether the waiting command has been delayed by a forced segment, the results by kind
and band, the tick at which the last reception ended, the receptions (the second on chain M1) and the tick at which
the last one ran to its end (R187), the CCA hold of R171, the freeze of back-off, commands deferred for the budget,
the shadow region and the tick since which a load is due, the PA supply last read and the power loop's correction by
band and chain in 0.001 dB (R150), the AGC gain steps, whether Radio M's chains are split (R175), low power with the
tick from which the radio has had nothing to do (R91), the result buffer: the frames whose outcome was written there
last (R125), the octets of the PSDU landed last (R190) and the equalised points of the last PPDU (R188). -/
structure RadioUnit where
  tuneDue : Bool := false
  tuneFrom : Nat := 0
  freq : Nat := 0
  bw : Nat := 0
  port : Nat := 0
  cmd : Option TxCmd := none
  phase : Phase := .idle
  waitFrom : Nat := 0
  endAt : Nat := 0
  air : Option OnAir := none
  own : List TxCmd := []
  txop : Option (Nat × Nat) := none
  seg : Option Seg := none
  segsDone : List (Nat × Nat) := []
  due : List (Nat × Nat) := []
  forced : List Nat := []
  delayed : Bool := false
  cals : List CalResult := []
  quietFrom : Nat := 0
  rx : Option Rx := none
  rx1 : Option Rx := none
  doneAt : Option Nat := none
  ccaUntil : Nat := 0
  frozenAt : Option Nat := none
  deferred : List TxCmd := []
  shadow : Option Region := none
  loadDue : Option Nat := none
  paMv : Nat := 0
  corr : List (Nat × Int) := []
  gains : List Nat := []
  split : Bool := false
  low : Bool := false
  idleFrom : Nat := 0
  results : List Nat := []
  psdu : List Octet := []
  points : List (Int × Int) := []
  deriving DecidableEq, Repr

/-- Blank lines that are active, by source: 0 H, 1 M or chain M0, 2 chain M1, 3 L, 4 COEX_IN0, 5 COEX_IN1 (R155); the
sources that have ended, with the tick from which BLANK_TAIL counts; and the tick of the last rise with the chains
that were blanked before it (R156). -/
structure Coex where
  blanks : List Nat := []
  tails : List (Nat × Nat) := []
  riseAt : Nat := 0
  before : Nat := 0
  deriving DecidableEq, Repr

/-! ### The field units (R356 to R380) -/

/-- The fade of one dimming output (R358): level it started from, level wanted, start tick and length in ticks. -/
structure Fade where
  start : Nat := 0
  target : Nat := 0
  at_ : Nat := 0
  len : Nat := 0
  deriving DecidableEq, Repr

/-- What a lane has counted in one interval (R370): its start and end, arrivals, occupancy, the sum and number of the
speeds in 0.1 km/h, seven classes, unclassified, and the flags. Times are presented time in 2^-16 ns. -/
structure Tally where
  start : Option Nat := none
  count : Nat := 0
  occ : Nat := 0
  speedSum : Nat := 0
  speeds : Nat := 0
  classes : List Nat := [0, 0, 0, 0, 0, 0, 0]
  unclassified : Nat := 0
  gap : Bool := false
  stuck : Bool := false
  noTime : Bool := false
  ended : Nat := 0
  deriving DecidableEq, Repr

/-- A vehicle that is being measured (R369): the ticks of its lead edges and trail edge, and whether its interval has
closed. -/
structure Vehicle where
  leadOn : Nat
  leadOff : Option Nat := none
  trailOn : Option Nat := none
  closed : Bool := false
  deriving DecidableEq, Repr

/-- A lane: its present interval, the closed one that waits for RECORD_HOLD, its vehicles, and the lead's presence. -/
structure Lane where
  cur : Tally := {}
  closed : Option Tally := none
  cars : List Vehicle := []
  leadSince : Option Nat := none
  deriving DecidableEq, Repr

/-- A channel of the auxiliary ADC (R372): scans and the sum of v² in the present RMS window, the ticks since which
VALUE lies below or above its limits, and whether the channel is low or high. -/
structure AdcCh where
  scans : Nat := 0
  sumSq : Nat := 0
  below : Option Nat := none
  above : Option Nat := none
  low : Bool := false
  high : Bool := false
  deriving DecidableEq, Repr

/-- The running DALI row: its number, and the tries that failed so far. -/
structure DaliRun where
  row : Nat
  tries : Nat := 0
  deriving DecidableEq, Repr

/-- The field units: outputs driven, the two fades, the relay changes scheduled and the ticks since which the pins
hold, the last zero crossings and the start of the ZX timeout, the DALI queue, run and bus, the missing polls, the
lanes, since when each detector is present, whether a scan of the ADC runs, since when, and whether a firing of its
last tick waits, the last DALI poll, the last interval boundary in 2^-16 ns of presented time with the tick that
closed it, the channels of the ADC, the lamp's current and the ticks since which its conditions have persisted, the
falls of its current and the level of the last direct arc power frame. -/
structure Field where
  driven : Bool := false
  fades : List Fade := [{}, {}]
  fadeHeld : Option Nat := none
  relayDue : List (Option Nat) := [none, none]
  relaySince : List Nat := [0, 0]
  commandSince : List Nat := [0, 0]
  zx : List Nat := []
  zxFrom : Nat := 0
  daliQueue : List Nat := []
  daliRun : Option DaliRun := none
  daliDown : Bool := false
  daliMissed : List (Nat × Nat) := []
  lanes : List Lane := List.replicate 8 {}
  detSince : List (Option Nat) := List.replicate 8 none
  scanning : Bool := false
  scanAt : Nat := 0
  scanNext : Bool := false
  pollAt : Option Nat := none
  boundary : Option Nat := none
  boundaryAt : Nat := 0
  adc : List AdcCh := List.replicate 13 {}
  lampHigh : Bool := false
  lampLowFrom : Option Nat := none
  weldFrom : Option Nat := none
  hotFrom : Option Nat := none
  falls : List Nat := []
  arc : Nat := 0
  deriving DecidableEq, Repr

/-! ### Margins (R413 to R434) -/

/-- The lehr pass under way (R417 to R419): whether it climbed, whether voltage rungs are unavailable, whether it waits
for VCORE_SETTLE or for a sweep, whether it has begun to descend, and the descent's trial of a lower voltage. -/
structure Pass where
  climbed : Bool := false
  noRung : Bool := false
  settling : Bool := false
  trial : Bool := false
  step0 : Nat := 0
  since : Nat := 0
  deriving DecidableEq, Repr

/-- Speed and heat: the pass, one that is due, TJ_NOW at the last pass, the tick since which every check lay at or
below THERMAL_EXIT, EFFECTIVE_AGE below the hour in units of 2^-16 s, the tick from which LEHR_PERIOD runs and that of
the last thermal check. -/
structure Margin where
  pass : Option Pass := none
  due : Bool := false
  tjPass : Int := 0
  coolFrom : Option Nat := none
  age : Nat := 0
  periodFrom : Nat := 0
  checkAt : Option Nat := none
  deriving DecidableEq, Repr

/-! ### Memory (R467 to R496) -/

/-- A request in the DRAM controller (R482): `ce` and `ue` tell that its word is corrected or does not correct, `late`
that its age has been settled. -/
structure DramReq where
  id : Nat
  cls : Nat
  requester : Nat
  addr : Nat
  write : Bool
  ce : Bool
  ue : Bool
  at_ : Nat
  late : Bool := false
  deriving DecidableEq, Repr

/-- The DRAM controller: the densities installed in MiB by channel, the engine slices and interleave in force, the
requests queued, a self-refresh exit under way, the start of an entry into self-refresh before its commit point, that
of the last entry, the channel being retrained, failed retrainings in a row, postponed refreshes by channel and bank,
the ticks of each channel's uncorrectable errors, and whether sections of KIND 4 are due since the initialisation
(R478 to R489, R507). -/
structure Dram where
  mib : List Nat := [4096, 4096]
  up : Bool := false
  spill : Nat := 0
  reserve : Nat := 0
  interleave : Bool := true
  reqs : List DramReq := []
  nextReq : Nat := 0
  waking : Bool := false
  entering : Option Nat := none
  entered : Nat := 0
  training : Option Nat := none
  fails : List Nat := [0, 0]
  postponed : List (Nat × Nat) := []
  ues : List (Nat × Nat) := []
  idleFrom : Nat := 0
  load : Bool := false
  deriving DecidableEq, Repr

/-- A flash operation that runs (R493): the engine or port that asked, the operation, its address and its octets. -/
structure FlashOp where
  port : Port
  op : Nat
  offset : Nat
  data : List Octet
  deriving DecidableEq, Repr

/-- The boot flash: its size in MiB, whether it declares suspend, the operation that runs, the tick at which a read
last timed out (R490 to R493). -/
structure Flash where
  mib : Nat := 256
  suspend : Bool := true
  op : Option FlashOp := none
  retryAt : Option Nat := none
  deriving DecidableEq, Repr

/-! ### Images (R497 to R512) -/

/-- A hitless swap under way (R508): its slot, the engines still to swap, the tick of the present request, whether its
engine has halted at SAFEPT, whether the swap takes a trial back, and whether it is complete (R510). -/
structure Swap where
  slot : Nat
  left : List Nat
  from_ : Nat
  held : Bool := false
  back : Bool := false
  whole : Bool := false
  deriving DecidableEq, Repr

/-- Images and starts: the swap, a trial with its start tick, the slot, the security version, the hash and the entry
point of each engine's image, and the ranges that its sections filled (engine, first octet, length). -/
structure Images where
  swap : Option Swap := none
  trial : Option Nat := none
  engSlot : List Nat := List.replicate 12 255
  engSec : List Nat := List.replicate 12 0
  engHash : List (Option (List Octet)) := List.replicate 12 none
  engEntry : List (Option Nat) := List.replicate 12 none
  loaded : List (Nat × Nat × Nat) := []
  deriving DecidableEq, Repr

/-! ### What leaves the block -/

/-- What a command made leave the block. `result` answers a single access; `radio` lists an event of a radio by a
number and its values; `canIn` is a CAN frame that FE's firmware receives. -/
inductive Out where
  | result (p : Port) (code value : Nat)
  | console (frame : List Octet)
  | udp (addr port : Nat) (msg : List Octet)
  | frame (queue fid : Nat)
  | cane (link : Nat) (strand : Radio) (type tid peer : Nat) (octets : List Octet)
  | radio (r : Radio) (event : Nat) (values : List Nat)
  | pin (pin : Nat) (level : Bool)
  | pause (port mask quanta : Nat)
  | dali (frame bits priority : Nat)
  | dim (output : Nat) (values : List Nat) (low : Bool)
  | can (ident : Nat) (data : List Octet)
  | canIn (filter ident : Nat) (data : List Octet)
  | dram (id ch result : Nat)
  | pmbus (page mv : Nat)
  | tap (value : Nat)
  deriving DecidableEq, Repr

/-! ### The block -/

/-- A range of memory that a command has emptied (R471, R501): it is applied to the memory when the command ends. -/
inductive Loss where
  | coreA | coreF | locals | dram | furnace
  deriving DecidableEq, Repr

/-- A start of the engines that a command has made due (R504): its kind for g1 (0 cold, 1 warm, 3 Core-A power-up),
the mode left and the mode whose domains are still on, the target and the cause of the mode change. -/
structure Boot where
  kind : Nat
  left : Mode
  alive : Mode
  target : Mode
  cause : Nat := 2
  deriving DecidableEq, Repr

/-- Everything but the queue of commands, the general registers and the memory. `now` is the time since manufacture in
ticks of the time island; `fresh` counts the free values used; `outs` is what the last command made leave the block;
`inbox` (Plais messages released by a cane link), `losses` and `boot` hand work to the end of the command and are
empty between commands. -/
structure Block where
  now : Nat := 0
  fresh : Nat := 0
  regs : RegFile := {}
  outs : List Out := []
  mode : ModeUnit := {}
  pins : Pins := {}
  window : Option Nat := none
  sealing : SealUnit := {}
  cullet : Cullet := {}
  plais : Plais := {}
  frames : List Frame := []
  nextFrame : Nat := 0
  time : TimeUnit := {}
  stamps : List (List Stamp) := [[], [], [], [], []]
  unread : List Bool := List.replicate 8 false
  timers : List TimerCh := List.replicate 16 {}
  latches : List HighLatch := []
  cpus : List Cpu := List.replicate 12 {}
  fwd : Forward := {}
  gth : GatherUnit := {}
  links : List Link := List.replicate 32 {}
  periods : List Period := []
  keys : List KeyCtx := []
  jobs : List Job := []
  mac : Mac := {}
  fences : List (Nat × Nat) := []
  radios : List RadioUnit := [{}, {}, {}]
  region : RegionUnit := {}
  coex : Coex := {}
  field : Field := {}
  margin : Margin := {}
  dram : Dram := {}
  flash : Flash := {}
  images : Images := {}
  inbox : List (Nat × List Octet) := []
  losses : List Loss := []
  boot : Option Boot := none
  deriving DecidableEq, Repr

/-! ### The machine -/

/-- Why the machine stops. The manual gives every command an effect, so no command raises a fault and nothing that the
hardware does is cut short by one (safe). -/
inductive Fault where
  /-- Nobody raises it (safe). -/
  | stopped (what : String)
  deriving DecidableEq, Repr

/-- Why a command is refused. -/
inductive Refusal where
  /-- A command that has no meaning yet, by its mnemonic, raised by its arm of `exec` (safe). No arm raises it now. -/
  | notModelled (mnemonic : String)
  deriving DecidableEq, Repr

/-- The machine: the commands that wait, first in first out; the block; the general registers, register r of engine n at
32 n + r (R436); and the octets of the memories that hold anything but what an unlisted octet reads as. -/
structure State where
  pending : List Instr
  blk : Block
  regs : Vector Word 384
  mem : List Host.Cell
  deriving DecidableEq, Repr

/-- The machine as it leaves manufacture, unpowered: mode Off, every register 0, nothing listed in memory, no command
waiting (R82, R86; DEDUCED, log entry 1, and DESIGN CHOICE, log entry 2). -/
def State.reset : State := { pending := [], blk := {}, regs := Vector.replicate 384 0, mem := [] }

end Sys2Proof.Machine
end

