-- ==== Sys2Proof/Machine/Dict.lean ====
section
/-!
DEFINITION. Reading and changing an object's value, counters, octets and lists: the plain operations that every unit
uses on the dictionary's stores.
-/

namespace Sys2Proof.Machine

/-- The value of an object's row. -/
def Block.get (b : Block) (r : Reg) (row : Nat := 0) : Nat := b.regs.get r row

/-- An object's row holding a value. -/
def Block.put (b : Block) (r : Reg) (v : Nat) (row : Nat := 0) : Block := { b with regs := b.regs.put r row v }

/-- An object of a Boolean type read as a truth value. -/
def Block.is (b : Block) (r : Reg) (row : Nat := 0) : Bool := b.get r row != 0

/-- A counter raised. -/
def Block.add (b : Block) (r : Reg) (n : Nat := 1) (row : Nat := 0) : Block :=
  b.put r (r.raised (b.get r row + n)) row

/-- The next free value's number, taken. -/
def Block.draw (b : Block) : Nat × Block := (b.fresh, { b with fresh := b.fresh + 1 })

/-- Something leaves the block. -/
def Block.emit (b : Block) (o : Out) : Block := { b with outs := b.outs ++ [o] }

/-- A value's octets, most significant first. -/
def octetsBE : Nat → Nat → List Octet
  | 0, _ => []
  | k + 1, v => BitVec.ofNat 8 (v / 256 ^ k) :: octetsBE k v

/-- A value's octets, least significant first. -/
def octetsLE : Nat → Nat → List Octet
  | 0, _ => []
  | k + 1, v => BitVec.ofNat 8 v :: octetsLE k (v / 256)

/-- The number that octets give, most significant first. -/
def ofOctetsBE (l : List Octet) : Nat := l.foldl (fun v o => v * 256 + o.toNat) 0

/-- The number that octets give, least significant first. -/
def ofOctetsLE : List Octet → Nat
  | [] => 0
  | o :: rest => o.toNat + 256 * ofOctetsLE rest

/-- `k` octets of a value as small numbers, most significant first, for notice and record payloads. -/
def bytesBE (k v : Nat) : List Nat := (octetsBE k v).map (·.toNat)

/-- `k` octets of a value as small numbers, least significant first (R404, R7). -/
def bytesLE (k v : Nat) : List Nat := (octetsLE k v).map (·.toNat)

/-- The signed value of `size` octets. -/
def signedOf (size v : Nat) : Int := if v < 2 ^ (8 * size - 1) then v else (v : Int) - 2 ^ (8 * size)

/-- A signed value in `size` octets, modulo their range. -/
def unsignedOf (size : Nat) (v : Int) : Nat := (v % 2 ^ (8 * size)).toNat

/-- An object's row read as a signed value. -/
def Block.geti (b : Block) (r : Reg) (row : Nat := 0) : Int := signedOf r.size (b.get r row)

/-- A signed value stored in an object's row, clamped to the type. -/
def Block.puti (b : Block) (r : Reg) (v : Int) (row : Nat := 0) : Block :=
  b.put r (unsignedOf r.size (max (-(2 ^ (8 * r.size - 1))) (min v (2 ^ (8 * r.size - 1) - 1)))) row

/-- Whether bit `i` of a number is 1. -/
def bitSet (v i : Nat) : Bool := v.testBit i

/-- A number with bit `i` set. -/
def setBit (v i : Nat) : Nat := v ||| 2 ^ i

/-- A number with bit `i` cleared. -/
def clearBit (v i : Nat) : Nat := if v.testBit i then v - 2 ^ i else v

/-- The element at a position replaced by a function of it. -/
def modAt {α : Type} (l : List α) (i : Nat) (f : α → α) : List α := l.modify i f

/-- An element put before the first that it does not come after. -/
def insertBy {α : Type} (le : α → α → Bool) (x : α) : List α → List α
  | [] => [x]
  | y :: rest => if le x y then x :: y :: rest else y :: insertBy le x rest

/-- A list in order; elements that are equal in it keep their order. -/
def sortBy {α : Type} (le : α → α → Bool) : List α → List α
  | [] => []
  | x :: rest => insertBy le x (sortBy le rest)

/-- The value under a key, or 0. -/
def assocNat (l : List (Nat × Nat)) (k : Nat) : Nat := (assocGet l k).getD 0

/-- The octet at position `i` of an octet string of `size` octets held as a number, first octet most significant. -/
def octAt (v size i : Nat) : Nat := v / 256 ^ (size - 1 - i) % 256

/-- Microseconds in ticks of the time island (R25). -/
def us (n : Nat) : Nat := n * 320

/-- Milliseconds in ticks. -/
def ms (n : Nat) : Nat := n * 320000

/-- Seconds in ticks. -/
def secs (n : Nat) : Nat := n * 320000000

/-- The largest element of a list of numbers, 0 for none. -/
def maxOf (l : List Nat) : Nat := l.foldl max 0

/-- The sum of a list of numbers. -/
def sumOfList (l : List Nat) : Nat := l.foldl (· + ·) 0

end Sys2Proof.Machine
end

