-- ==== Sys2Proof/Machine/Clock.lean ====
section
/-!
DEFINITION. The clocks: the RTC, uptime and TI_TICKS (R330, R351, R456), the two time domains and presented time
(R321 to R328), TIME112, and whether a domain is powered in the present mode (R82).
-/

namespace Sys2Proof.Machine

/-! ### Power domains (R29, R82, R533) -/

/-- The number of a mode (R82). -/
def Mode.num : Mode → Nat
  | .off => 0
  | .hibernate => 1
  | .dayWatch => 2
  | .fieldOnly => 3
  | .relay => 4
  | .fullService => 5
  | .degraded => 6
  | .maintenance => 7

/-- The mode of a number (R82). -/
def Mode.ofNum : Nat → Mode
  | 1 => .hibernate
  | 2 => .dayWatch
  | 3 => .fieldOnly
  | 4 => .relay
  | 5 => .fullService
  | 6 => .degraded
  | 7 => .maintenance
  | _ => .off

/-- The code of TRANSITION (R107). -/
def Trans.num : Trans → Nat
  | .none => 0
  | .entering => 1
  | .draining => 2
  | .waking => 3

/-- The mode whose domains and ports are in force: Maintenance is as its base mode (R82). -/
def Block.baseMode (b : Block) : Mode :=
  if b.mode.mode = .maintenance then Mode.ofNum (b.get Obj.maintBase) else b.mode.mode

/-- The mode whose domains a mode keeps: Maintenance is as its base mode (R82). -/
def Block.baseOf (b : Block) (m : Mode) : Mode := if m = .maintenance then Mode.ofNum (b.get Obj.maintBase) else m

/-- The device is in the recovery state of R505. -/
def Block.recovery (b : Block) : Bool := b.get Obj.bootState == 2

/-- The ingresses that a mode serves (R536); in recovery the device accepts nothing (R505). -/
def Block.ingressOf (b : Block) (m : Mode) : Ingress :=
  if b.recovery then {}
  else
    match b.baseOf m with
    | .dayWatch => { parent := true }
    | .fieldOnly => { engine := true }
    | .relay => { eth := true, lowband := true, cane := true, engine := true }
    | .fullService | .degraded => { eth := true, station := true, lowband := true, cane := true, engine := true }
    | _ => {}

/-- Acceptance as a frame meets it whose start reached its ingress at a tick: one that came no later than the closing
tick of a drain is handled as before the close (R97). -/
def Block.accNow (b : Block) (start : Nat) : Ingress :=
  match b.mode.drain with
  | some d =>
    match d.closedAt with
    | some c => if start ≤ c then b.ingressOf b.mode.mode else b.mode.acc
    | none => b.mode.acc
  | none => b.mode.acc

/-- The modes with every domain on: Relay, Full Service and Degraded Service. -/
def Mode.mains : Mode → Bool
  | .relay | .fullService | .degraded => true
  | _ => false

/-- A radio is fenced (R24). -/
def Block.radioFenced (b : Block) (r : Radio) : Bool := bitSet (b.get Obj.fabricFenced) (12 + radioNum r)

/-- Core-F is powered (R82). -/
def Block.coreF (b : Block) : Bool :=
  match b.mode.mode with
  | .off | .hibernate => false
  | _ => true

/-- Core-A is powered (R82). -/
def Block.coreA (b : Block) : Bool :=
  match b.mode.mode with
  | .off | .hibernate | .dayWatch => false
  | _ => true

/-- The domain of a code of R533 is powered in the present mode. -/
def Block.domainOn (b : Block) (d : Nat) : Bool :=
  match d with
  | 0 => b.mode.mode != .off
  | 1 => b.coreF
  | 2 => b.coreA
  | 3 => b.baseMode.mains && !b.recovery && !b.radioFenced .h
  | 4 => b.baseMode.mains && !b.recovery && !b.radioFenced .m
  | 5 => (b.baseMode.mains || b.baseMode == .dayWatch) && !b.recovery && !b.radioFenced .l
  | 6 => b.baseMode.mains && !b.recovery
  | _ => b.baseMode.mains && !b.recovery

/-- The power domain of an engine (R15). -/
def engineDomain (n : Nat) : Nat :=
  if n = 11 then 0 else if n = 4 || n = 10 then 1 else 2

/-- The owning domain of an index and subindex (R533). -/
def ownerOf (idx sub : Nat) : Nat :=
  if idx ≤ 0x1001 then 0
  else if idx ≤ 0x1022 then 1
  else if idx ≤ 0x1420 then 0
  else if idx ≤ 0x1601 then 1
  else if idx ≤ 0x1612 then 0
  else if idx < 0x2000 then 2
  else if idx < 0x2400 then 3
  else if idx < 0x2800 then 4
  else if idx < 0x2C00 then 5
  else if idx < 0x3100 then 1
  else if idx < 0x3200 then 2
  else if idx < 0x3400 then 1
  else if idx < 0x3500 then 2
  else if idx < 0x3600 then 1
  else if idx < 0x4000 then 2
  else if idx < 0x4002 then 7
  else if idx = 0x5030 && sub < 5 then 0
  else if idx < 0x6000 then 2
  else if idx < 0x6200 then 1
  else if idx < 0x6400 then 2
  else if idx < 0x7000 then 1
  else if idx < 0x7200 then engineDomain ((idx - 0x7000) / 16)
  else if idx < 0x7400 then engineDomain ((idx - 0x7200) / 16)
  else if idx < 0x7410 then 1
  else if idx < 0x8000 then 2
  else if idx < 0x8100 then 6
  else 1

/-! ### The RTC and tick counters -/

/-- RTC ticks of 1/32,768 s in a span of time-island ticks, floored: 32,768 / 320,000,000 = 8 / 78,125. -/
def rtcTicks (t : Nat) : Nat := t * 8 / 78125

/-- The 48-bit RTC count (R330). -/
def Block.rtc (b : Block) : Nat := (b.time.rtcBase + rtcTicks (b.now - b.time.rtcRef)) % 2 ^ 48

/-- The RTC second: the count divided by 32,768. -/
def Block.rtcSec (b : Block) : Nat := b.rtc / 32768

/-- RTC ticks since VFUR rose (R351). -/
def Block.uptime (b : Block) : Nat := rtcTicks (b.now - b.time.vfurAt)

/-- TI_TICKS: ticks since Core-A powered up (R351). -/
def Block.tiTicks (b : Block) : Nat := if b.coreA then b.now - b.time.coreAAt else 0

/-! ### Network time in units of 2^-56 ns -/

/-- One nanosecond in units of 2^-56 ns. -/
def nsUnit : Int := 2 ^ 56

/-- One second in units of 2^-56 ns. -/
def secUnit : Int := 1000000000 * 2 ^ 56

/-- What a domain gains in `t` ticks: each tick adds 3.125 ns × (1 + FREQ_ADJ), FREQ_ADJ in units of 2^-40 (R322). -/
def gain (adj : Int) (t : Nat) : Int := (t : Int) * 204800 * (2 ^ 40 + adj)

/-- A domain's time at a tick. -/
def Domain.at (d : Domain) (now : Nat) : Int := d.base + gain d.adj (now - d.ref)

/-- A domain brought to the present tick, so that its rate may change. -/
def Domain.rebase (d : Domain) (now : Nat) : Domain := { d with base := d.at now, ref := now }

/-- The domain of a number, A or B. -/
def TimeUnit.dom (t : TimeUnit) (d : Nat) : Domain := if d = 0 then t.a else t.b

/-- The unit with a domain replaced. -/
def TimeUnit.setDom (t : TimeUnit) (d : Nat) (x : Domain) : TimeUnit :=
  if d = 0 then { t with a := x } else { t with b := x }

/-- The presentation offset p when a span has passed since it was set: its magnitude falls by 3.125 ns × SLEW_RATE ×
10^-6 in each tick while STEP_ALLOW is 0, and it is 0 while STEP_ALLOW is 1 (R328). -/
def Block.offsetAfter (b : Block) (span : Int) : Int :=
  if b.is Obj.stepAllow then 0
  else
    let fall : Int := max 0 span * (b.get Obj.slewRate : Int) / 1000000
    if 0 ≤ b.time.p then max 0 (b.time.p - fall) else min 0 (b.time.p + fall)

/-- The presentation offset p at the present tick. -/
def Block.offset (b : Block) : Int := b.offsetAfter (gain 0 (b.now - b.time.pRef))

/-- Presented time (R322); in Day Watch the time that the Radio L edge carries (R331). -/
def Block.presented (b : Block) : Int :=
  if b.coreA then (b.time.dom (b.get Obj.presentSel)).at b.now + b.offset
  else b.time.dwBase + gain 0 (b.now - b.time.dwRef)

/-- RTC time in units of 2^-56 ns. -/
def Block.rtcTime (b : Block) : Int := (b.rtc : Int) * secUnit / 32768

/-- Whether TIME_VALID reads 1: the bit of the time island, or in Day Watch the age of the last correction (R323,
R331). -/
def Block.timeValidNow (b : Block) : Bool :=
  if b.coreA then b.is Obj.timeValid
  else
    b.coreF && match b.time.dwCorr with
    | some c => decide (b.now - c < secs (3 * b.get Obj.dwPollInterval))
    | none => false

/-- A time as TIME112: seconds, nanoseconds and fraction, in that order, as one number (R42). -/
def time112 (t : Int) : Nat :=
  let u := (t / 2 ^ 40).toNat
  let f := u % 65536
  let n := u / 65536
  (n / 1000000000) * 2 ^ 48 + (n % 1000000000) * 65536 + f

/-- A TIME112 as a time in units of 2^-56 ns. -/
def ofTime112 (v : Nat) : Int :=
  (v / 2 ^ 48 : Nat) * secUnit + (v / 65536 % 2 ^ 32 : Nat) * nsUnit + (v % 65536 : Nat) * 2 ^ 40

/-- TIME112 of presented time while it is valid, 0 otherwise (R77, R323, R404). -/
def Block.stampTime (b : Block) : Nat := if b.timeValidNow then time112 b.presented else 0

/-- Seconds after UTC midnight and day of the year need the UTC second: TAI less UTC_OFFSET (R321). -/
def Block.utcSec (b : Block) : Int := b.presented / secUnit - (b.get Obj.utcOffset : Int)

/-- A year of 366 days. -/
def leapYear (y : Nat) : Bool := y % 4 == 0 && (y % 100 != 0 || y % 400 == 0)

/-- The year, and the day of it from 1 on, of a day counted from 1970-01-01: the Gregorian calendar, years begun in
March. -/
def yearDay (days : Nat) : Nat × Nat :=
  let z := days + 719468
  let doe := z % 146097
  let yoe := (doe - doe / 1460 + doe / 36524 - doe / 146096) / 365
  let doy := doe - (365 * yoe + yoe / 4 - yoe / 100)
  let y := yoe + 400 * (z / 146097)
  if doy < 306 then (y, doy + (if leapYear y then 61 else 60)) else (y + 1, doy - 305)

/-- The UTC second by presented time, or in Hibernate by the RTC (R94, R330). -/
def Block.utcNow (b : Block) : Nat :=
  (if b.coreF then b.utcSec else (b.rtcSec : Int) - (b.get Obj.utcOffset : Int)).toNat

/-- The row of equals with the greatest FIRST_DAY, the lowest of them (R94; DESIGN CHOICE, log entry 172). -/
def Block.lastFirstDay (b : Block) (rows : List Nat) : Option Nat :=
  rows.foldl (fun best r =>
    match best with
    | none => some r
    | some q => if b.get Obj.schedFirstDay q < b.get Obj.schedFirstDay r then some r else best) none

/-- The row of the schedule for the UTC day of a UTC second, while the schedule runs (R94). -/
def Block.schedRow (b : Block) (utc : Nat) : Option Nat :=
  let day := (yearDay (utc / 86400)).2
  let valid := (List.range 16).filter fun r => b.is Obj.schedValid r
  if b.is Obj.schedEnable then
    match b.lastFirstDay (valid.filter fun r => decide (b.get Obj.schedFirstDay r ≤ day)) with
    | some r => some r
    | none => b.lastFirstDay valid
  else none

/-- This is the second that lies DRAIN_LEAD before the scheduled DAWN (R95). -/
def Block.drainTime (b : Block) : Bool :=
  let u := b.utcNow + b.get Obj.drainLead
  match b.schedRow u with
  | some r => u % 86400 == b.get Obj.schedDawn r
  | none => false

/-- This is the second that lies DUSK_LEAD before the scheduled DUSK (R95). -/
def Block.duskTime (b : Block) : Bool :=
  let u := b.utcNow + b.get Obj.duskLead
  match b.schedRow u with
  | some r => u % 86400 == b.get Obj.schedDusk r
  | none => false

/-- The ticks that have passed in the present second of presented time. -/
def Block.ticksInSecond (b : Block) : Nat := (b.presented % secUnit / gain 0 1).toNat

/-- The time in a SCALE, presented, domain A or domain B, at an instant that lies an age before now on a perfect
clock. -/
def Block.inScaleAgo (b : Block) (scale : Nat) (age : Int) : Int :=
  let dom (d : Domain) : Int := d.at b.now - age * (2 ^ 40 + d.adj) / 2 ^ 40
  match scale with
  | 1 => dom b.time.a
  | 2 => dom b.time.b
  | _ =>
    if b.coreA then dom (b.time.dom (b.get Obj.presentSel)) + b.offsetAfter (gain 0 (b.now - b.time.pRef) - age)
    else b.presented - age

/-- The clock of the island that stamps for a queue, as a ratio to 320 MHz: SerDes, Radio H, Radio M and Radio L (R25,
R334). -/
def islandClock (q : Nat) : Nat × Nat :=
  match q with
  | 0 | 1 => (125, 256)
  | 2 => (3, 2)
  | 3 => (3, 4)
  | _ => (1, 4)

/-- The age of the stamp of the instant `n / d` in ticks: that of the tick of its island in which it falls (R334; the
islands' phase is a DESIGN CHOICE, log entry 199). -/
def Block.stampAge (b : Block) (q n d : Nat) : Int :=
  let c := islandClock q
  (((b.now * d : Nat) - (n : Int)) * c.1 + (n * c.1 % (c.2 * d) : Nat)) * 25 * 2 ^ 56 / (8 * c.1 * d)

/-- The receive stamp of the instant `n / d` in ticks at the ingress of a queue 0 to 4, in the queue's SCALE less its
RX_DELAY (R334, R335). -/
def Block.rxStamp (b : Block) (q n d : Nat) : Nat :=
  time112 (b.inScaleAgo (b.get Obj.tsqScale q) (b.stampAge q n d) - signedOf 4 (b.get Obj.tsqRxDelay q) * nsUnit / 1000)

/-- TB of an engine: TI_TICKS on Core-A engines, and on MS-L and FE while Core-A is on; the Radio L edge's count, in
steps of 4, on MS-L and FE while Core-A is off; UPTIME on GD (R456). -/
def Block.tb (b : Block) (n : Nat) : Word :=
  if n = 11 then BitVec.ofNat 64 b.uptime
  else if b.coreA then BitVec.ofNat 64 b.tiTicks
  else BitVec.ofNat 64 (b.time.tbBase + (b.now - b.time.tbRef) / 4 * 4)

end Sys2Proof.Machine
end

