-- ==== Sys2Proof/Machine/Ports.lean ====
section
/-!
DEFINITION. The access ports: their numbers, what each holds for itself, their order at the commit point, and when
each is served (R50, R51, R58, R82).
-/

namespace Sys2Proof.Machine

/-- PORT_ID of a port (R51). -/
def portNum : Port → Nat
  | .console => 0
  | .can _ => 1
  | .udp _ => 2
  | .mesh _ => 3
  | .engine n => 16 + n.val

/-- The row under which the values that a port holds for itself are kept (R51). -/
def portLoc : Port → Nat
  | .console => 0
  | .can _ => 1
  | .udp _ => 2
  | .mesh _ => 3
  | .engine n => 64 + n.val

/-- The row under which a port's row cursor is kept: the UDP and mesh ports keep one for each Plais peer row (R50). -/
def cursorLoc : Port → Nat
  | .udp p => 16 + p
  | .mesh p => 32 + p
  | p => portLoc p

/-- The engine of an engine port, 12 for any other port. -/
def portEng : Port → Nat
  | .engine n => n.val
  | _ => 12

/-- The place of a port in the order of the commit point: console, CAN FD, UDP, mesh, then the engines (R58). -/
def portRank : Port → Nat
  | .engine n => 4 + n.val
  | p => portNum p

/-- The port as the one that stages octets and holds a read buffer, whichever node or peer speaks through it (R54,
R64). -/
def portBuf : Port → Port
  | .can _ => .can 0
  | .udp _ => .udp 0
  | .mesh _ => .mesh 0
  | p => p

/-- The device acts: a presence event, a seal event or an access restarts the chip idle timer (R92). -/
def Block.active (b : Block) : Block := { b with mode := { b.mode with lastActivity := b.now } }

/-- A port is served: its mode serves it (R82), its transport is enabled, CAN FD has FE unfenced (R129), in recovery
the console alone is (R505), and RESET_N is not low (R499). -/
def Block.portOpen (b : Block) (p : Port) : Bool :=
  b.coreF && !b.pins.resetLow &&
    match p with
    | .console => true
    | .can _ => b.is Obj.canEnable && !b.recovery && !bitSet (b.get Obj.fabricFenced) 10
    | .udp _ => b.baseMode.mains && b.is Obj.udpEnable && !b.recovery
    | .mesh _ => b.baseMode.mains && b.is Obj.meshEnable && !b.recovery
    | .engine n => b.baseMode != .dayWatch && b.domainOn (engineDomain n.val)

/-- The value of an object at a port: its own for an object that each port holds for itself (R51). -/
def portRow (p : Port) (r : Reg) : Nat := if r.idx = 0x1010 && r.sub = 2 then cursorLoc p else portLoc p

/-- The row that an access names: the port's cursor where it names none (R50). -/
def Block.rowFor (b : Block) (p : Port) (row : Nat) : Nat :=
  if row = 0xFFFFFFFF then b.get Obj.rowCursor (cursorLoc p) else row

end Sys2Proof.Machine
end

