-- ==== Sys2Proof/Machine/Wire.lean ====
section
/-!
DEFINITION. Plais messages on their transports (R62, R74 to R76): the header, console frames in COBS with their CRC-16,
and CAN FD segments.
-/

namespace Sys2Proof.Machine

/-! ### Cyclic codes -/

/-- One reflected CRC-32 step over one bit. -/
def crcBit (poly c : Nat) : Nat := if c % 2 = 1 then (c / 2) ^^^ poly else c / 2

/-- A reflected CRC register after one octet. -/
def crcOctet (poly c : Nat) (o : Octet) : Nat :=
  (List.range 8).foldl (fun c _ => crcBit poly c) (c ^^^ o.toNat)

/-- A reflected CRC with all-ones initial value and final complement, of 32 bits. -/
def crcReflected (poly : Nat) (l : List Octet) : Nat := (l.foldl (crcOctet poly) 0xFFFFFFFF) ^^^ 0xFFFFFFFF

/-- CRC-32 with the IEEE 802.3 polynomial (R80, R404, R506). -/
def crc32 (l : List Octet) : Nat := crcReflected 0xEDB88320 l

/-- CRC-32C, polynomial 0x1EDC_6F41 (R275). -/
def crc32c (l : List Octet) : Nat := crcReflected 0x82F63B78 l

/-- A CRC of `w` bits, most significant bit first, with the polynomial and initial value given and no final change. -/
def crcForward (w poly init : Nat) (l : List Octet) : Nat :=
  l.foldl (fun c o => (List.range 8).foldl
    (fun c _ => if c / 2 ^ (w - 1) % 2 = 1 then (c * 2 % 2 ^ w) ^^^ poly else c * 2 % 2 ^ w)
    (c ^^^ (o.toNat * 2 ^ (w - 8)))) init

/-- CRC-16 with polynomial 0x1021 and initial value 0xFFFF (R74). -/
def crc16 (l : List Octet) : Nat := crcForward 16 0x1021 0xFFFF l

/-! ### The header (R62) -/

/-- A message header. `long` tells whether it has the long form of UDP and the mesh. -/
structure Header where
  type : Nat
  sec : Bool := false
  group : Bool := false
  tid : Nat
  len : Nat
  long : Bool := false
  keyId : Nat := 0
  counter : Nat := 0
  deriving DecidableEq, Repr

/-- The octets of a header, version 0x1. -/
def Header.octets (h : Header) : List Octet :=
  [BitVec.ofNat 8 (0x10 + h.type), BitVec.ofNat 8 ((if h.sec then 0x80 else 0) + (if h.group then 0x40 else 0))] ++
    octetsBE 2 h.tid ++ octetsBE 2 h.len ++
    (if h.long then octetsBE 2 h.keyId ++ octetsBE 8 h.counter else [])

/-- The length of a header. -/
def headerLen (long : Bool) : Nat := if long then 16 else 6

/-- The header of a message: nothing where the message is too short for it, or of another version or type (R62, R65). -/
def Header.parse (long : Bool) (m : List Octet) : Option Header :=
  let f (i n : Nat) : Nat := ofOctetsBE ((m.drop i).take n)
  if m.length < headerLen long || f 0 1 / 16 ≠ 1 || 3 < f 0 1 % 16 then none
  else some
    { type := f 0 1 % 16, sec := bitSet (f 1 1) 7, group := bitSet (f 1 1) 6, tid := f 2 2, len := f 4 2, long := long
      keyId := if long then f 6 2 else 0, counter := if long then f 8 8 else 0 }

/-! ### The console (R74) -/

/-- COBS of a text, with the block under way. -/
def cobsGo : List Octet → List Octet → List Octet
  | [], block => BitVec.ofNat 8 (block.length + 1) :: block
  | o :: rest, block =>
    if o = 0 then BitVec.ofNat 8 (block.length + 1) :: block ++ cobsGo rest []
    else if block.length = 253 then 255#8 :: (block ++ [o]) ++ cobsGo rest []
    else cobsGo rest (block ++ [o])

/-- COBS encoding without the closing zero. -/
def cobsEncode (l : List Octet) : List Octet := cobsGo l []

/-- COBS decoding of a frame without its closing zero, at most `fuel` blocks; nothing where a block overruns or holds a
zero. -/
def cobsDecode : Nat → List Octet → Option (List Octet)
  | _, [] => some []
  | 0, _ => none
  | fuel + 1, c :: rest =>
    let n := c.toNat - 1
    let block := rest.take n
    if c = 0 || decide (rest.length < n) || block.contains 0 then none
    else
      match rest.drop n with
      | [] => some block
      | more => (cobsDecode fuel more).map fun t => block ++ (if c = 255 then [] else [0#8]) ++ t

/-- A message as a console frame: its CRC-16 behind it, COBS, and one zero octet. -/
def consoleFrame (m : List Octet) : List Octet := cobsEncode (m ++ octetsBE 2 (crc16 m)) ++ [0#8]

/-- The message of a console frame, nothing where the frame or its CRC is bad. -/
def consoleMessage (frame : List Octet) : Option (List Octet) :=
  let l := if frame.getLast? = some 0 then frame.dropLast else frame
  match cobsDecode l.length l with
  | some m => if 2 ≤ m.length && crc16 (m.take (m.length - 2)) == ofOctetsBE (m.drop (m.length - 2)) then
      some (m.take (m.length - 2)) else none
  | none => none

/-! ### CAN FD (R75, R76) -/

/-- The data lengths of CAN FD. -/
def canLens : List Nat := [0, 1, 2, 3, 4, 5, 6, 7, 8, 12, 16, 20, 24, 32, 48, 64]

/-- The next CAN FD data length from a length on. -/
def canPadded (n : Nat) : Nat := (canLens.find? fun k => decide (n ≤ k)).getD 64

/-- The KIND of a message type (R75). -/
def canKind (type : Nat) : Nat := type

/-- The PRIORITY of a message type (R75). -/
def canPriority (type : Nat) : Nat := if type = 0 then 4 else if type = 1 then 3 else 2

/-- A 29-bit identifier of Plais (R75). -/
def canIdent (type dest src ending seg tid : Nat) : Nat :=
  canPriority type * 2 ^ 26 + canKind type * 2 ^ 24 + dest * 2 ^ 17 + src * 2 ^ 10 + ending * 2 ^ 9 + seg * 16 + tid % 16

/-- A message cut into segments of 64 octets, the last padded, each with its identifier. -/
def canSegments (type dest src tid : Nat) (m : List Octet) : List (Nat × List Octet) :=
  let n := max 1 ((m.length + 63) / 64)
  (List.range n).map fun i =>
    let d := (m.drop (64 * i)).take 64
    if i + 1 = n then (canIdent type dest src 1 i tid, d ++ List.replicate (canPadded d.length - d.length) 0#8)
    else (canIdent type dest src 0 i tid, d)

/-- The largest message of CAN FD in octets, its header included (R76). -/
def canMost : Nat := 2048

/-- A message with the short header leaves the block on CAN FD for a node. One that is longer than the largest is not
sent (DESIGN CHOICE, log entry 164). -/
def Block.sendCan (b : Block) (node type tid : Nat) (body : List Octet) : Block :=
  let h : Header := { type := type, tid := tid, len := body.length }
  let m := h.octets ++ body
  if canMost < m.length then b
  else (canSegments type node (b.get Obj.canNode) tid m).foldl (fun c x => c.emit (.can x.1 x.2)) b

/-- A message with the short header leaves the block on the console. -/
def Block.sendConsole (b : Block) (type tid : Nat) (body : List Octet) : Block :=
  let h : Header := { type := type, tid := tid, len := body.length }
  b.emit (.console (consoleFrame (h.octets ++ body)))

end Sys2Proof.Machine
end

