-- ==== Sys2Proof/Machine/Reach.lean ====
section
/-!
DEFINITION. Reach mode on the air (R177 to R182): the chip sequence, the header with its check, the code, whitening, and
a frame's symbols and length on air. A mode is named by its branch, 0 to 3, which is its SF_CODE (R179, R183).
-/

namespace Sys2Proof.Machine

/-- The chip sequence grown by `k` chips, each the exclusive or of the seventh and the sixth before it. -/
def reachGrow : Nat → List Bool → List Bool
  | 0, l => l
  | k + 1, l => reachGrow k (l ++ [l.getD (l.length - 7) false != l.getD (l.length - 6) false])

/-- The base chip sequence c[0] to c[127] (R177). -/
def reachChips : List Bool := reachGrow 120 (List.replicate 7 true) ++ [false]

/-- The spreading factor of a mode (R179). -/
def reachSf (code : Nat) : Nat := 16 * 2 ^ code

/-- The chips of one symbol (R177). -/
def reachSpread (code : Nat) (b : Bool) : List Bool := (reachChips.take (reachSf code)).map (· != b)

/-- The bits of a number, most significant first. -/
def bitsBE : Nat → Nat → List Bool
  | 0, _ => []
  | k + 1, v => v.testBit k :: bitsBE k v

/-- HCRC over the header's first 24 bits (R179). -/
def reachHcrc (v : Nat) : Nat := crcForward 8 0x07 0xFF (octetsBE 3 v)

/-- The 32 header bits (R179). -/
def reachHeader (fcs32 whiten : Bool) (code len : Nat) : Nat :=
  let h := (if fcs32 then 2 ^ 21 else 0) + (if whiten then 2 ^ 20 else 0) + code % 4 * 2 ^ 18 + len % 2048
  h * 256 + reachHcrc h

/-- LENGTH of a header: PSDU octets with the FCS. -/
def reachLength (header : Nat) : Nat := header / 256 % 2048

/-- A header that is no failure on the branch that found the frame (R180). -/
def reachHeaderOk (code header : Nat) : Bool :=
  decide (header % 256 = reachHcrc (header / 256)) && decide (header / 2 ^ 30 = 0) && decide (header / 2 ^ 19 % 128 = 0) &&
    decide ((if header.testBit 29 then 4 else 2) ≤ reachLength header) && decide (header / 2 ^ 26 % 4 = code)

/-- The parity of the bits of a 7-bit window that a generator taps. -/
def tapParity (g w : Nat) : Bool := (List.range 7).foldl (fun p i => p != (g.testBit i && w.testBit i)) false

/-- The code with K = 7 and generators 133 and 171 octal from a state of the last six bits, the newest the most
significant (R181; DEDUCED, log entry 159). -/
def reachEncode : Nat → List Bool → List Bool
  | _, [] => []
  | st, b :: l =>
    let w := (if b then 64 else 0) + st
    tapParity 0o133 w :: tapParity 0o171 w :: reachEncode (w / 2) l

/-- Bits coded from the zero state with their six tail bits (R178, R181). -/
def reachCode (l : List Bool) : List Bool := reachEncode 0 (l ++ List.replicate 6 false)

/-- The PN9 sequence, a state holding its last nine bits, the newest the least significant (R179; DEDUCED, log entry
159). -/
def pn9 : Nat → Nat → List Bool
  | 0, _ => []
  | k + 1, st =>
    let b := st.testBit 8 != st.testBit 3
    b :: pn9 k (st * 2 % 512 + if b then 1 else 0)

/-- PSDU bits, each octet least significant bit first, as IEEE 802.15.4 sends them (R7). -/
def psduBits (l : List Octet) : List Bool := l.flatMap fun o => (List.range 8).map o.toNat.testBit

/-- PSDU bits whitened (R179). -/
def reachWhiten (l : List Bool) : List Bool := (l.zip (pn9 l.length 511)).map fun x => x.1 != x.2

/-- The symbols of a frame: preamble, sync word, header and payload (R178). -/
def reachFrame (preamble sync code : Nat) (fcs32 whiten : Bool) (psdu : List Octet) : List Bool :=
  List.replicate preamble false ++ bitsBE 32 sync ++
    reachCode (bitsBE 32 (reachHeader fcs32 whiten code psdu.length)) ++
    reachCode (if whiten then reachWhiten (psduBits psdu) else psduBits psdu)

/-- The number of symbols of a frame with a PSDU of `len` octets (R178). -/
def reachSymbols (preamble len : Nat) : Nat := preamble + 32 + 76 + 2 * (8 * len + 6)

/-- The length on air of a frame in microseconds: a symbol lasts SF / 200,000 s (R178). -/
def reachAir (preamble code len : Nat) : Nat := reachSymbols preamble len * reachSf code * 5

end Sys2Proof.Machine
end

