-- ==== Sys2Proof/Machine/CaneWire.lean ====
section
/-!
DEFINITION. The cane header on the air (R234 to R237): what the device writes for DATA, ACK, NACK and PROBE, and what it
reads of a header received. What a header may not hold makes the frame a bad one.
-/

namespace Sys2Proof.Machine

/-- The first octet of a cane header: VER 1 and TYPE (R234). -/
def caneFirst (type : Nat) : Octet := BitVec.ofNat 8 (16 + type)

/-- The DATA header (R235). -/
def caneDataHeader (stream cseq : Nat) (twin resend ackReq : Bool) : List Octet :=
  caneFirst 0 ::
    BitVec.ofNat 8 (stream * 16 + (if twin then 8 else 0) + (if resend then 4 else 0) + if ackReq then 2 else 0) ::
    octetsBE 3 cseq

/-- The ACK header (R236). -/
def caneAckHeader (recs : List AckRec) : List Octet :=
  caneFirst 1 :: BitVec.ofNat 8 recs.length ::
    recs.flatMap fun a => BitVec.ofNat 8 (a.stream * 16) :: octetsBE 3 a.cum ++ octetsBE 8 a.bitmap

/-- The NACK header (R237). -/
def caneNackHeader (recs : List NackRec) : List Octet :=
  caneFirst 2 :: BitVec.ofNat 8 recs.length ::
    recs.flatMap fun a => BitVec.ofNat 8 (a.stream * 16) :: octetsBE 3 a.first ++ octetsBE 2 a.count

/-- The PROBE header (R237). -/
def caneProbeHeader (up epoch : Nat) : List Octet := caneFirst 3 :: BitVec.ofNat 8 up :: octetsBE 2 epoch

/-- What a received cane frame is: a frame of an ordered stream, a payload of the management stream with its KIND, a
control frame, or a bad one, which is discarded (R234, R235). -/
inductive CaneFrame where
  | data (stream cseq : Nat) (ackReq : Bool)
  | mgmt (cseq : Nat) (ackReq : Bool) (kind : Nat) (payload : List Octet)
  | ack (recs : List AckRec)
  | nack (recs : List NackRec)
  | probe (up epoch : Nat)
  | bad
  deriving DecidableEq, Repr

/-- A stream that exists: 0 to 7, or 15. -/
def caneStream (s : Nat) : Bool := decide (s < 8) || s == 15

/-- `n` records of 12 octets (R236): nothing where the octets are not these, or a reserved bit or stream is used. -/
def caneAckRecs : Nat → List Octet → Option (List AckRec)
  | 0, l => if l.isEmpty then some [] else none
  | n + 1, s :: l =>
    if l.length < 11 || s.toNat % 16 != 0 || !caneStream (s.toNat / 16) then none
    else
      (caneAckRecs n (l.drop 11)).map fun rest =>
        { stream := s.toNat / 16, cum := ofOctetsBE (l.take 3), bitmap := ofOctetsBE ((l.drop 3).take 8) } :: rest
  | _ + 1, [] => none

/-- `n` records of 6 octets (R237). -/
def caneNackRecs : Nat → List Octet → Option (List NackRec)
  | 0, l => if l.isEmpty then some [] else none
  | n + 1, s :: l =>
    let count := ofOctetsBE ((l.drop 3).take 2)
    if l.length < 5 || s.toNat % 16 != 0 || !caneStream (s.toNat / 16) || count == 0 || decide (1024 < count) then none
    else
      (caneNackRecs n (l.drop 5)).map fun rest =>
        { stream := s.toNat / 16, first := ofOctetsBE (l.take 3), count } :: rest
  | _ + 1, [] => none

/-- A payload of the management stream: its KIND octet and what follows (R235). A payload too short for its KIND has
KIND 0, which is none. -/
def caneMgmtPayload (cseq : Nat) (ackReq : Bool) : List Octet → CaneFrame
  | [] => .mgmt cseq ackReq 0 []
  | k :: l => .mgmt cseq ackReq (if k.toNat = 2 && l.length != 4 then 0 else k.toNat) l

/-- The octets of a cane frame read (R234 to R237; DEDUCED, log entry 160): its header, and on the management stream
its payload. What follows the header of a frame of an ordered stream is the carried frame. -/
def caneRead : List Octet → CaneFrame
  | first :: o :: l =>
    if first = caneFirst 0 then
      if l.length < 3 || o.toNat % 2 != 0 then .bad
      else
        let s := o.toNat / 16
        let a := o.toNat / 2 % 2 == 1
        if s < 8 then .data s (ofOctetsBE (l.take 3)) a
        else if s = 15 then caneMgmtPayload (ofOctetsBE (l.take 3)) a (l.drop 3)
        else .bad
    else if first = caneFirst 1 then
      (if 1 ≤ o.toNat && decide (o.toNat ≤ 9) then (caneAckRecs o.toNat l).elim .bad .ack else .bad)
    else if first = caneFirst 2 then
      (if 1 ≤ o.toNat && decide (o.toNat ≤ 8) then (caneNackRecs o.toNat l).elim .bad .nack else .bad)
    else if first = caneFirst 3 then
      (if o.toNat < 8 && l.length = 2 then .probe o.toNat (ofOctetsBE l) else .bad)
    else .bad
  | _ => .bad

end Sys2Proof.Machine
end

