-- ==== Sys2Proof/Machine/Record.lean ====
section
/-!
DEFINITION. The cullet log controller (R402 to R409) and the raising of notices (R77, R78).
-/

namespace Sys2Proof.Machine

/-! ### The cullet log -/

/-- A record is posted to the queue of 32, or its source waits behind a full queue (R406). -/
def Block.post (b : Block) (type : Nat) (payload : List Nat) (first : Bool := false) (flags : Nat := 0) : Block :=
  let p : Post := { type, payload, first, flags }
  if b.cullet.queue.length < 32 && b.cullet.waiting.isEmpty then
    { b with cullet := { b.cullet with queue := b.cullet.queue ++ [p] } }
  else { b with cullet := { b.cullet with waiting := b.cullet.waiting ++ [p] } }

/-- The POWER_FAIL record is handed straight to the controller (R408). -/
def Block.postUrgent (b : Block) (p : Post) : Block := { b with cullet := { b.cullet with urgent := some p } }

/-- The slot of the ring that a sequence number goes to (R402). -/
def ringSlot (seq : Nat) : Nat := 128 + seq % 1920

/-- The slot's contents for a post taken now, its CRC not yet written: octets 0 to 123 of R404. -/
def Block.recordOf (b : Block) (p : Post) : Slot :=
  { seq := b.cullet.next, rtc := b.rtc, type := p.type, ntime := b.stampTime,
    flags := p.flags + (if b.timeValidNow then 1 else 0), payload := p.payload, whole := false }

/-- Words of MRAM written beside the slots of the Stored objects (R48, R473). -/
def Block.mramWrote (b : Block) (n : Nat) : Block :=
  { b with regs := { b.regs with slots := { b.regs.slots with words := b.regs.slots.words + n } } }

/-- A slot of the cullet log is written: its words correct (R473). -/
def Block.slotMend (b : Block) (k : Nat) : Block :=
  { b with regs := { b.regs with slots := b.regs.slots.mend (0x20000000 + 128 * k) 128 } }

/-- The write of a post's record starts: it takes its SEQ and its slot (R403, R406), and owes a first-fault copy where
its class is first-fault (R402). Octets 0 to 123 touch the slot's 16 words, the CRC the last of them again (R405,
R473). -/
def Block.startRecord (b : Block) (p : Post) : Block :=
  let r := b.recordOf p
  { b with cullet := { b.cullet with
      slots := assocPut b.cullet.slots (ringSlot r.seq) r
      next := b.cullet.next + 1
      writing := some (ringSlot r.seq)
      copyOwed := if p.first then some r else none } }.mramWrote 16 |>.slotMend (ringSlot r.seq)

/-- The next post to write: the POWER_FAIL record first, then the queue in order of arrival, the sources that wait
moving up behind it (R406, R408). -/
def Block.takePost (b : Block) : Option (Post × Block) :=
  match b.cullet.urgent with
  | some p => some (p, { b with cullet := { b.cullet with urgent := none } })
  | none =>
    match b.cullet.queue with
    | [] => none
    | p :: rest =>
      match b.cullet.waiting with
      | [] => some (p, { b with cullet := { b.cullet with queue := rest } })
      | w :: ws => some (p, { b with cullet := { b.cullet with queue := rest ++ [w], waiting := ws } })

/-- The controller starts the next record, if it writes none now. -/
def Block.recordWrite (b : Block) : Block :=
  match b.cullet.writing with
  | some _ => b
  | none =>
    match b.takePost with
    | some (p, b1) => b1.startRecord p
    | none => b

/-- A slot of the first-fault region holds a valid record. -/
def Cullet.ffValid (c : Cullet) (i : Nat) : Bool :=
  match assocGet c.slots i with
  | some s => s.whole
  | none => false

/-- The first slot of the first-fault region that holds no valid record (R403). -/
def Cullet.ffFree (c : Cullet) : Option Nat := (List.range 128).find? fun i => !c.ffValid i

/-- The number of first-fault slots that hold valid records. -/
def Cullet.ffUsed (c : Cullet) : Nat := ((List.range 128).filter c.ffValid).length

/-- The CRC of the record being written is written: the record is accepted, and the first-fault copy, if owed and if a
slot is free, is written straight after (R405). -/
def Block.crcWritten (b : Block) : Block :=
  match b.cullet.writing with
  | none => b
  | some k =>
    let slots := match assocGet b.cullet.slots k with
      | some s => assocPut b.cullet.slots k { s with whole := true }
      | none => b.cullet.slots
    let c := { b.cullet with slots := slots, writing := none, copyOwed := none }
    let b1 := b.mramWrote 1
    match b.cullet.copyOwed with
    | none => { b1 with cullet := c }.put Obj.ffUsed c.ffUsed
    | some r =>
      match c.ffFree with
      | none => { b1 with cullet := c }
      | some j =>
        { b1 with cullet := { c with
            slots := assocPut c.slots j { r with flags := r.flags ||| 2, whole := false }
            writing := some j } }.mramWrote 16 |>.slotMend j

/-- A record is written at once, its copy with it: for the records of a Furnace power-up (R497). -/
def Block.writeNow (b : Block) (p : Post) : Block := ((b.startRecord p).crcWritten).crcWritten

/-- The controller's scan at a Furnace power-up (R403): the sequence continues after the highest valid SEQ of the ring,
TORN counts the ring slots whose CRC failed, FF_USED the valid first-fault slots. -/
def Block.culletScan (b : Block) : Block :=
  let ring := b.cullet.slots.filter fun s => decide (128 ≤ s.1)
  let next := maxOf ((ring.filter fun s => s.2.whole).map fun s => s.2.seq + 1)
  let torn := (ring.filter fun s => !s.2.whole).length
  let c := { b.cullet with next := next, queue := [], waiting := [], urgent := none, writing := none, copyOwed := none }
  (({ b with cullet := c }).put Obj.torn torn).put Obj.ffUsed c.ffUsed

/-- The record with the highest SEQ of the ring. -/
def Cullet.newest (c : Cullet) : Option Slot :=
  ((c.slots.filter fun s => decide (128 ≤ s.1) && s.2.whole && s.2.seq + 1 == c.next).head?).map (·.2)

/-- The 124 octets of a record before its CRC (R404). -/
def Slot.octets (s : Slot) : List Octet :=
  octetsLE 8 s.seq ++ octetsLE 6 s.rtc ++ octetsLE 2 s.type ++
    (octetsLE 8 (s.ntime / 2 ^ 48) ++ octetsLE 4 (s.ntime / 65536 % 2 ^ 32) ++ octetsLE 2 (s.ntime % 65536)) ++
    [BitVec.ofNat 8 s.flags, BitVec.ofNat 8 s.payload.length] ++
    ((s.payload.map (BitVec.ofNat 8)) ++ List.replicate (92 - s.payload.length) 0#8)

/-- The 128 octets of a slot as RECORD returns them (R404, R412): zeros for a blank slot, and for a torn one octets 0
to 123 with a CRC that does not match. -/
def Block.slotOctets (b : Block) (i : Nat) : List Octet :=
  match assocGet b.cullet.slots i with
  | none => List.replicate 128 0#8
  | some s =>
    let body := s.octets
    body ++ octetsLE 4 (if s.whole then crc32 body else crc32 body ^^^ 1)

/-- A waiting record's 128 octets, as R404 lays them out, with zeros for what its write gives it: SEQ, RTC, NTIME and
CRC (DESIGN CHOICE, log entry 212). -/
def Post.octets (p : Post) : List Octet :=
  ({ seq := 0, rtc := 0, type := p.type, ntime := 0, flags := p.flags, payload := p.payload, whole := false } : Slot).octets ++ octetsLE 4 0

/-- The record queue as GD's local memory holds it: 32 entries, the oldest first (R34, R406). -/
def Block.queueOctets (b : Block) : List Octet :=
  (b.cullet.queue.flatMap Post.octets) ++ List.replicate (128 * (32 - b.cullet.queue.length)) 0#8

/-! ### Notices -/

/-- The body of a notice (R77). -/
def Notice.body (n : Notice) : List Octet :=
  octetsBE 4 n.seq ++ octetsBE 2 n.code ++ octetsBE 2 n.index ++ octetsBE 1 n.sub ++ [0#8] ++ octetsBE 4 n.row ++
    octetsBE 14 n.time ++ octetsBE 2 n.lost ++ octetsBE 2 n.payload.length ++ n.payload.map (BitVec.ofNat 8)

/-- A Plais peer row is an enabled notice destination (R77). -/
def Block.peerDest (b : Block) (row : Nat) : Bool :=
  b.is Obj.peerEnable row && b.is Obj.peerNotices row &&
    (b.is Obj.udpEnable || (b.get Obj.peerCaneLink row != 255 && b.is Obj.meshEnable))

/-- The destinations enabled now, peers first (R77). -/
def Block.destinations (b : Block) : List Dest :=
  ((List.range 16).filter b.peerDest).map Dest.peer ++
    (if b.is Obj.canEnable then [Dest.can (b.get Obj.noticeCanDest)] else []) ++
    (if b.is Obj.noticeConsole then [Dest.console] else [])

/-- The queue of a destination, empty if it has none yet. -/
def Plais.queueOf (p : Plais) (d : Dest) : NoticeQueue :=
  (p.queues.find? fun q => q.dest == d).getD { dest := d }

/-- The queues with one replaced. -/
def Plais.setQueue (p : Plais) (q : NoticeQueue) : Plais :=
  if p.queues.any fun x => x.dest == q.dest then
    { p with queues := p.queues.map fun x => if x.dest == q.dest then q else x }
  else { p with queues := p.queues ++ [q] }

/-- A notice is queued for one destination, or counted in NOTICE_LOST when its queue of 256 is full; a broadcast on
CAN FD is sent once, where the port is served, and waits nowhere (R78). -/
def Block.queueNotice (b : Block) (d : Dest) (n : Notice) : Block :=
  let q := b.plais.queueOf d
  let m := { n with lost := q.lost }
  match d with
  | .can 0 => if b.portOpen (.can 0) then b.sendCan 0 2 (n.seq % 65536) n.body else b
  | _ =>
    if q.queue.length < 256 then
      { b with plais := b.plais.setQueue { q with queue := q.queue ++ [m], lost := 0 } }
    else
      ({ b with plais := b.plais.setQueue { q with lost := min (q.lost + 1) 65535 } }).add Obj.noticeLost

/-- ROW of a notice that concerns no row (R77). -/
def noRow : Nat := 0xFFFFFFFF

/-- A notice is raised: it takes the next notice sequence number and is queued for every destination enabled now
(R77). The queues lie in Core-F; while Core-F is off there is no queue to join (DEDUCED, log entry 20). -/
def Block.notice (b : Block) (code : Nat) (r : Reg) (row : Nat := noRow) (payload : List Nat := []) : Block :=
  if b.coreF then
    let n : Notice :=
      { seq := b.get Obj.noticeSeqNext, code, index := r.idx, sub := r.sub, row, time := b.stampTime, lost := 0, payload }
    let b1 := b.put Obj.noticeSeqNext ((b.get Obj.noticeSeqNext + 1) % 2 ^ 32)
    b1.destinations.foldl (fun c d => c.queueNotice d n) b1
  else b

end Sys2Proof.Machine
end

