-- ==== Sys2Proof/Machine/Gather.lean ====
section
/-!
DEFINITION. Frames by identity, and the gather pipeline: the numbering of MPDUs, the states of a gather and remelting
with its closure (R251 to R257).
-/

namespace Sys2Proof.Machine

/-! ### Frames by identity -/

/-- The frame of an identity, if it is held. -/
def Block.frame? (b : Block) (fid : Nat) : Option Frame := b.frames.find? fun f => f.id == fid

/-- Every frame of an identity changed. -/
def Block.modFrame (b : Block) (fid : Nat) (f : Frame → Frame) : Block :=
  { b with frames := b.frames.map fun x => if x.id == fid then f x else x }

/-- The frames that satisfy a test, in the order of the list. -/
def Block.idsWhere (b : Block) (t : Frame → Bool) : List Nat := (b.frames.filter t).map (·.id)

/-! ### Gathers -/

/-- An unlocked gather: built, sealed or staged (R253). -/
def GState.unlocked : GState → Bool
  | .built | .sealed | .staged => true
  | .locked | .sent => false

/-- The gather of an identity. -/
def Block.gather? (b : Block) (gid : Nat) : Option Gather := b.gth.gathers.find? fun g => g.id == gid

/-- A gather replaced by a function of it. -/
def Block.modGather (b : Block) (gid : Nat) (f : Gather → Gather) : Block :=
  { b with gth := { b.gth with gathers := b.gth.gathers.map fun g => if g.id == gid then f g else g } }

/-- A gather holds a frame that is not yet resolved in it. -/
def Gather.holds (g : Gather) (fid : Nat) : Bool := g.mpdus.any fun m => m.fid == some fid && !m.resolved

/-- Some gather holds a frame. -/
def Block.inGather (b : Block) (fid : Nat) : Bool := b.gth.gathers.any fun g => g.holds fid

/-- The key of a radio's receiver and TID among the sequence numbers. -/
def snKey (r : Radio) (recv tid : Nat) : Nat := (radioNum r * 1024 + recv) * 8 + tid

/-- The next 802.11 sequence number of a radio's receiver and TID (12 bits). -/
def Block.nextSn (b : Block) (r : Radio) (recv tid : Nat) : Nat := assocNat b.gth.nextSn (snKey r recv tid)

/-- The next sequence number set. -/
def Block.setSn (b : Block) (r : Radio) (recv tid sn : Nat) : Block :=
  { b with gth := { b.gth with nextSn := assocPut b.gth.nextSn (snKey r recv tid) (sn % 4096) } }

/-- The octets of the gather region in use. -/
def Block.gatherStore (b : Block) : Nat := sumOfList (b.gth.gathers.map (·.octets))

/-- Two gathers share a receiver and TID on one radio. -/
def Gather.shares (g h : Gather) : Bool :=
  g.radio == h.radio && g.mpdus.any fun m => h.mpdus.any fun k => m.recv == k.recv && m.tid == k.tid

/-- One pass of the closure: every unlocked gather built after a member and sharing a receiver and TID with it joins
(R256). Gathers are listed in build order. -/
def closePass (all : List Gather) (set : List Nat) : List Nat :=
  all.foldl (fun s g =>
    if s.contains g.id || !g.state.unlocked then s
    else if all.any fun h => s.contains h.id && decide (h.id < g.id) && h.shares g then s ++ [g.id] else s) set

/-- The closure of R256: one pass in build order reaches every gather that a chain of shared receivers and TIDs adds,
since every link of a chain goes to a later gather. -/
def closure (all : List Gather) (set : List Nat) : List Nat := closePass all set

/-- Journal STATE of a frame after gathers have gone: sent once it has been transmitted, gathered while some gather
holds it, queued otherwise. -/
def Block.settleState (b : Block) (fid : Nat) : Block :=
  let gathered := b.inGather fid
  b.modFrame fid fun f =>
    { f with state := if f.air then .sent else if gathered then .gathered else .queued }

/-- A retry that was handed on returns to the failed MPDU it stands for. -/
def Gather.giveBack (g : Gather) (fid : Nat) : Gather :=
  { g with mpdus := g.mpdus.map fun k =>
      if k.fid == some fid && k.failed then { k with resolved := false } else k }

/-- What one remelted MPDU undoes (R257): the next sequence number returns to its own, if it was not a retry, and its
PN is burnt. A retry goes back to the failed MPDU it stands for. -/
def Block.undoMpdu (b : Block) (r : Radio) (m : Mpdu) : Block :=
  if m.retry then
    match m.fid with
    | some fid =>
      let gs := b.gth.gathers.map fun g => if g.state == .sent && g.radio == r then g.giveBack fid else g
      { b with gth := { b.gth with gathers := gs } }
    | none => b
  else
    let b1 := b.setSn r m.recv m.tid m.sn
    let b2 := if m.pn.isSome then b1.add Obj.pnBurnt else b1
    if m.fid.isSome then b2.add Obj.mpdusRemelted else b2

/-- A cane frame whose copy on a radio goes back is to be placed anew; its twin stays where it is (R246, R247). -/
def Frame.unplace (f : Frame) (r : Radio) : Frame :=
  if f.strand == some r then { f with strand := f.twin, twin := none }
  else if f.twin == some r then { f with twin := none }
  else f

/-- The frames of a gather's new MPDUs are to be placed anew. -/
def Block.unplaceAll (b : Block) (g : Gather) : Block :=
  g.mpdus.foldl (fun c m => match m.fid with
    | some fid => if m.retry then c else c.modFrame fid fun f => f.unplace g.radio
    | none => c) b

/-- One gather of the set undone, its last MPDU first, so that each next sequence number ends at the first remelted. -/
def Block.undoGather (b : Block) (g : Gather) : Block :=
  let b1 := { b with gth := { b.gth with gathers := b.gth.gathers.filter fun h => h.id != g.id } }
  let b2 := g.mpdus.reverse.foldl (fun c m => c.undoMpdu g.radio m) b1
  (g.mpdus.foldl (fun c m => match m.fid with
    | some fid => c.settleState fid
    | none => c) b2).unplaceAll g

/-- REMELT_CAUSE of a trigger code (R255). -/
def remeltReg (code : Nat) : Reg :=
  match code with
  | 1 => Obj.remeltCause1
  | 2 => Obj.remeltCause2
  | 3 => Obj.remeltCause3
  | 4 => Obj.remeltCause4
  | 5 => Obj.remeltCause5
  | 6 => Obj.remeltCause6
  | 7 => Obj.remeltCause7
  | 8 => Obj.remeltCause8
  | 9 => Obj.remeltCause9
  | _ => Obj.remeltCause10

/-- A remelt trigger (R255 to R257): the unlocked gathers it selects and their closure are undone in one step, the
last built first. Each selected gather counts under the code, each gather added under CASCADE_REMELTS. A locked gather
keeps the trigger for the case that it is not emitted (R253). -/
def Block.remelt (b : Block) (code : Nat) (sel : Gather → Bool) : Block :=
  let all := b.gth.gathers.map fun g =>
    if g.state == .locked && sel g && g.missed.isNone then { g with missed := some code } else g
  let chosen := (all.filter fun g => g.state.unlocked && sel g).map (·.id)
  let set := closure all chosen
  let b1 := ({ b with gth := { b.gth with gathers := all } }.add (remeltReg code) chosen.length).add Obj.cascadeRemelts (set.length - chosen.length)
  ((all.filter fun g => set.contains g.id).reverse).foldl (fun c g => c.undoGather g) b1

/-- The gathers that hold any of these frames are remelted under a code. -/
def Block.remeltFrames (b : Block) (code : Nat) (fids : List Nat) : Block :=
  b.remelt code fun g => fids.any fun i => g.holds i

/-- Sent gathers whose every MPDU is resolved or handed on are freed (R253). -/
def Block.freeGathers (b : Block) : Block :=
  { b with gth := { b.gth with
      gathers := b.gth.gathers.filter fun g => !(g.state == .sent && g.mpdus.all fun m => m.resolved) } }

/-- The MPDUs of a frame in a gather are resolved. -/
def Gather.resolve (g : Gather) (fid : Nat) : Gather :=
  { g with mpdus := g.mpdus.map fun m => if m.fid == some fid then { m with resolved := true } else m }

/-- A frame that has left: its MPDUs in every gather are resolved. -/
def Block.resolveMpdus (b : Block) (fid : Nat) : Block :=
  let gs := b.gth.gathers.map fun g => g.resolve fid
  { b with gth := { b.gth with gathers := gs } }.freeGathers

end Sys2Proof.Machine
end

