-- ==== Sys2Proof/Machine/Cipher.lean ====
section
/-!
DEFINITION. Key contexts: their states, counters, users, rekeying, replay checks and engine jobs (R297 to R317).
-/

namespace Sys2Proof.Machine

/-- A field of an OCT value held as a number, `n` octets from octet `i`, least significant first (R7). -/
def octFieldLE (v size i n : Nat) : Nat := ofOctetsLE ((List.range n).map fun k => BitVec.ofNat 8 (octAt v size (i + k)))

/-- A field of an OCT value, `n` octets from octet `i`, most significant first. -/
def octFieldBE (v size i n : Nat) : Nat := ofOctetsBE ((List.range n).map fun k => BitVec.ofNat 8 (octAt v size (i + k)))

/-- The secrets of a context. -/
def Block.keyCtx (b : Block) (row : Nat) : KeyCtx := (b.keys.find? fun k => k.row == row).getD { row := row }

/-- The secrets of a context replaced. -/
def Block.setKeyCtx (b : Block) (k : KeyCtx) : Block :=
  if b.keys.any fun x => x.row == k.row then
    { b with keys := b.keys.map fun x => if x.row == k.row then k else x }
  else { b with keys := b.keys ++ [k] }

/-- The first counter value of an algorithm (R297). -/
def firstCounter (alg : Nat) : Nat := if alg ≤ 4 then 1 else 0

/-- The last counter value of an algorithm: all ones at its width (R297, R303). -/
def lastCounter (alg : Nat) : Nat :=
  if alg ≤ 4 then 2 ^ 48 - 1 else if alg = 5 then 2 ^ 32 - 1 else 2 ^ 64 - 1

/-- The MIC length of a context (R297, R298). -/
def Block.micLen (b : Block) (row : Nat) : Nat :=
  match b.get Obj.ctxAlg row with
  | 1 => 8
  | 5 => b.get Obj.ctxMicLen row
  | _ => 16

/-- The key length in octets of an algorithm (R297). -/
def keyLen (alg : Nat) : Nat := if alg = 2 || alg = 4 || alg = 7 then 32 else 16

/-- A counter value consumed: KEY_LOW at REKEY_WARN values left, Exhausted after the last value (R303). -/
def Block.consume (b : Block) (row v : Nat) : Block :=
  let last := lastCounter (b.get Obj.ctxAlg row)
  let b1 := if v = last then (b.put Obj.ctxState 2 row).put Obj.ctxTxNext 0 row
    else b.put Obj.ctxTxNext (v + 1) row
  let left := last - v
  let k := b1.keyCtx row
  if left ≤ b1.get Obj.rekeyWarn && !k.lowDone then
    (b1.setKeyCtx { k with lowDone := true }).notice 0x01A0 Obj.ctxTxNext row (bytesBE 8 left)
  else b1

/-- A sealing request refused because the counter is exhausted (R303): counted, and noticed once for the key. -/
def Block.refuseSeal (b : Block) (row : Nat) : Block :=
  let b1 := b.add Obj.ctxExhaustedRefused 1 row
  let k := b1.keyCtx row
  if k.outDone then b1
  else (b1.setKeyCtx { k with outDone := true }).notice 0x01A1 Obj.ctxExhaustedRefused row
    (bytesBE 4 (b1.get Obj.ctxExhaustedRefused row))

/-- A sealing operation of a context takes its next counter value, or is refused (R303, R304). -/
def Block.takeCounter (b : Block) (row : Nat) : Option Nat × Block :=
  match b.get Obj.ctxState row with
  | 1 => (some (b.get Obj.ctxTxNext row), b.consume row (b.get Obj.ctxTxNext row))
  | 2 => (none, b.refuseSeal row)
  | _ => (none, b)

/-! ### Users (R301) -/

/-- The context rows of a link's strand `x`, transmit then receive (R258). -/
def strandCtx (x : Radio) : Reg × Reg :=
  match x with
  | .h => (Obj.caneCtx7, Obj.caneCtx8)
  | .m => (Obj.caneCtx9, Obj.caneCtx10)
  | .l => (Obj.caneCtx11, Obj.caneCtx12)

/-- A strand of a link is configured: the link is enabled and its bit is set (R229). -/
def Block.strandOn (b : Block) (k : Nat) (x : Radio) : Bool :=
  b.is Obj.caneEnable k && bitSet (b.get Obj.caneStrands k) (radioNum x)

/-- The number of users of a context (R301): strands in use, Plais peer rows enabled, and a BIND. -/
def Block.ctxUsers (b : Block) (row : Nat) : Nat :=
  let one (p : Bool) : Nat := if p then 1 else 0
  sumOfList ((List.range 32).map fun k => sumOfList ([Radio.h, Radio.m, Radio.l].map fun x =>
      if b.strandOn k x then
        one (b.get (strandCtx x).1 k == row) + one (b.get (strandCtx x).2 k == row)
      else 0)) +
    sumOfList ((List.range 16).map fun p =>
      if b.is Obj.peerEnable p then one (b.get Obj.peerCtxRx p == row) + one (b.get Obj.peerCtxTx p == row) else 0) +
    one (b.get Obj.ctxBind row / 2 ^ 24 != 0)

/-- Every context has at most one user. Only contexts that some row names can have two (R301). -/
def Block.usersSingle (b : Block) (rows : List Nat) : Bool := rows.all fun r => decide (b.ctxUsers r ≤ 1)

/-- The contexts whose BIND is set, by row: those listed in the stores, since the default is no binding. -/
def Block.boundRows (b : Block) : List Nat :=
  (b.regs.stored.filter fun c => decide (c.1 / 1048576 = Obj.ctxBind.idx * 256 + Obj.ctxBind.sub)).map
    fun c => c.1 % 1048576

/-- The context bound to a station, BSS or neighbour: kind 1, 2 or 3 and its number (R301, R319). -/
def Block.boundCtx (b : Block) (kind who : Nat) : Option Nat :=
  b.boundRows.find? fun r => b.get Obj.ctxBind r == kind * 2 ^ 24 + who

/-- The transmit context of a receiver on a radio: its station's pairwise context, or its strand's (R232, R251). -/
def Block.sealCtx (b : Block) (r : Radio) (recv : Nat) : Option Nat :=
  if recv < 512 then b.boundCtx 1 recv else some (b.get (strandCtx r).1 (recv - 512))

/-! ### State changes of a context (R302, R313, R314) -/

/-- The unlocked gathers with an MPDU sealed under a context are remelted with trigger 5 (R314). -/
def Block.remeltCtx (b : Block) (row : Nat) : Block :=
  b.remelt 5 fun g => g.mpdus.any fun m => m.pn.isSome && m.ctx == row && !m.retry

/-- A key loaded into a context in state 0 makes it Active at the first counter value (R302); the record of its
counters is empty (R69). -/
def Block.loadKey (b : Block) (row key : Nat) : Block :=
  let k := b.keyCtx row
  ((b.setKeyCtx { k with key := some key, lowDone := false, outDone := false, replay := [], auth := none }).put
    Obj.ctxState 1 row).put Obj.ctxTxNext (firstCounter (b.get Obj.ctxAlg row)) row

/-- A write of KEY (R300, R302): RANGE for ALG 0 or for a 128-bit key with octets 16 to 31 not 0, BUSY while the
context holds a key. -/
def Block.writeKey (b : Block) (row v : Nat) : Nat × Block :=
  let alg := b.get Obj.ctxAlg row
  if alg == 0 || (keyLen alg == 16 && v % 2 ^ 128 != 0) then (6, b)
  else if b.get Obj.ctxState row != 0 then (9, b)
  else (0, b.loadKey row v)

/-- The context that seals a frame on Radio L: its link's strand, or the neighbour's (R232, R301). -/
def Block.lowCtx (b : Block) (f : Frame) : Option Nat :=
  if f.queue < 4352 || 5632 ≤ f.queue then none
  else if f.queue < 4608 then some (b.get Obj.caneCtx11 ((f.queue - 4352) / 8))
  else b.boundCtx 3 (f.queue - 4608)

/-- The frames that are sealed under a context's key: those of gathers, and those of Radio L (R314). -/
def Block.sealedFids (b : Block) (row : Nat) : List Nat :=
  (b.gth.gathers.flatMap fun g => (g.mpdus.filter fun m => m.pn.isSome && m.ctx == row).filterMap (·.fid)) ++
    (b.frames.filter fun f => f.pn.isSome && b.lowCtx f == some row).map (·.id)

/-- The management frames that are sealed under a context's key: link and number. -/
def Block.sealedSends (b : Block) (row : Nat) : List (Nat × Nat) :=
  (List.range 32).flatMap fun k =>
    ((b.links.getD k {}).send.filter fun y => y.strand.any fun x => b.get (strandCtx x).1 k == row).map fun y => (k, y.cseq)

/-- A write of 1 to REKEY (R302, R313): STALE with no next key staged, RANGE for ALG 0 in state 0, BUSY while a
retiring key is held. -/
def Block.rekey (b : Block) (row : Nat) : Nat × Block :=
  let k := b.keyCtx row
  let st := b.get Obj.ctxState row
  if st == 0 && b.get Obj.ctxAlg row == 0 then (6, b) else
  match k.next with
  | none => (13, b)
  | some nk =>
    if st == 0 then
      let b1 := (b.setKeyCtx { k with next := none }).loadKey row nk
      (0, (b1.put Obj.ctxKeyId (b.get Obj.ctxNextKeyId row) row).add Obj.ctxRekeys 1 row)
    else if k.old.isSome then (9, b)
    else
      let b1 := b.remeltCtx row
      let k1 : KeyCtx :=
        { k with
          key := some nk, next := none, old := k.key, oldId := b.get Obj.ctxKeyId row,
          oldUntil := b.rtcSec + b.get Obj.retireTime, oldFids := b1.sealedFids row, oldSends := b1.sealedSends row,
          openedOld := 0, replayOld := k.replay, replay := [],
          authOld := k.auth, auth := none,
          lowDone := false, outDone := false }
      let b2 := ((b1.setKeyCtx k1).put Obj.ctxKeyId (b.get Obj.ctxNextKeyId row) row).put Obj.ctxRetiring 1 row
      let b3 := (b2.put Obj.ctxTxNext (firstCounter (b.get Obj.ctxAlg row)) row).put Obj.ctxState 1 row
      (0, b3.add Obj.ctxRekeys 1 row)

/-- A write of 1 to ERASE (R302): keys, counters and replay state zeroed, ALG and BIND kept, the context Off, its
unlocked gathers remelted. -/
def Block.eraseKey (b : Block) (row : Nat) : Block :=
  let b1 := b.remeltCtx row
  (((b1.setKeyCtx { row := row }).put Obj.ctxState 0 row).put Obj.ctxTxNext 0 row).put Obj.ctxRetiring 0 row

/-- A frame sealed under a context's retiring key is not resolved: it is still held, or its job runs (R314). -/
def Block.oldFrames (b : Block) (row : Nat) : Bool :=
  let k := b.keyCtx row
  (k.oldFids.any fun i => (b.frame? i).isSome) ||
    (k.oldSends.any fun x => (b.links.getD x.1 {}).send.any fun y => y.cseq == x.2) ||
    b.jobs.any fun j => octFieldLE j.job 32 0 2 == row && octFieldLE j.job 32 2 1 == 0 && some j.key == k.old

/-- The retiring key is cleared once RETIRE_TIME has passed and every frame under it is resolved (R314). -/
def Block.retireClear (b : Block) (row : Nat) : Block :=
  let k := b.keyCtx row
  if k.old.isSome && decide (k.oldUntil ≤ b.rtcSec) && !b.oldFrames row then
    ((b.setKeyCtx { k with
      old := none, replayOld := [], openedOld := 0, authOld := none, oldFids := [], oldSends := [] }).put Obj.ctxRetiring 0 row).notice 0x01A2
      Obj.ctxRetiring row (bytesBE 4 k.openedOld)
  else b

/-! ### Opening and the replay check (R310 to R312) -/

/-- Which key opens a protected frame (R310): the current key, the retiring key, or none. -/
inductive Opened where
  | current | retiring | failed
  deriving DecidableEq, Repr

/-- The key that opens a frame: chosen by its Key ID or key index, the current one before the retiring one. On Radio L
a level other than 5, 6 and 7 fails (R298, R310). -/
def Block.openedBy (b : Block) (low : Bool) (row : Nat) (p : Protection) : Opened :=
  let k := b.keyCtx row
  if low && (p.level < 5 || 7 < p.level) then .failed
  else if k.key.isSome && p.keyId == b.get Obj.ctxKeyId row && p.current then .current
  else if k.old.isSome && p.keyId == k.oldId && p.retiring then .retiring
  else .failed

/-- A MIC failure counts in MIC_FAIL of the context (R311). -/
def Block.micFail (b : Block) (row : Nat) : Block := b.add Obj.ctxMicFail 1 row

/-- A sequence number stands before another, modulo 2^16 for a neighbour and 4,096 for a station. -/
def seqBefore (m a b : Nat) : Bool := a != b && decide ((b + m - a) % m < m / 2)

/-- The replay check at release (R312): whether the counter is above every one that the release order of the stream puts
before it under the same key, and new; the release is then noted, else REPLAY_DROP counts. Releases are ordered by their
sequence numbers modulo `m` (DESIGN CHOICE, log entry 32). -/
def Block.replayCheck (b : Block) (row tid m seq pn : Nat) (old : Bool) : Bool × Block :=
  let k := b.keyCtx row
  let all := if old then k.replayOld else k.replay
  let l := (assocGet all tid).getD []
  let fresh := l.all fun (x : Nat × Nat) => if seqBefore m seq x.1 then decide (pn < x.2) else decide (x.2 < pn)
  if fresh then
    let l1 := assocPut all tid ((l ++ [(seq, pn)]).drop (l.length + 1 - 64))
    (true, b.setKeyCtx
      (if old then { k with replayOld := l1, openedOld := k.openedOld + 1 } else { k with replay := l1 }))
  else (false, b.add Obj.ctxReplayDrop 1 row)

/-! ### Engine jobs (R315, R316) -/

/-- The status with which RUN refuses a job at the commit point, 0 for none (R306, R315 to R317). -/
def Block.jobRefusal (b : Block) (job : Nat) : Nat :=
  let row := octFieldLE job 32 0 2
  let op := octFieldLE job 32 2 1
  let st := b.get Obj.ctxState row
  if st == 0 then 1
  else if b.get Obj.ctxAlg row < 6 || decide (1 < op) then 2
  else if 256 < octFieldLE job 32 9 2 then 3
  else if 16383 < octFieldLE job 32 16 2 then 4
  else if op == 0 && st == 2 then 5
  else 0

/-- A write of 1 to RUN by engine `n` at its port's row `loc` (R316): BUSY while the port's job runs; a refusal answers
CIPHER and leaves its status; else a seal consumes its counter and the job starts. -/
def Block.runJob (b : Block) (n loc : Nat) : Nat × Block :=
  if b.jobs.any fun j => j.engine == n then (9, b)
  else
    let job := b.get Obj.jobJob loc
    let row := octFieldLE job 32 0 2
    let e := b.jobRefusal job
    if e ≠ 0 then
      let b1 := if e = 5 then b.refuseSeal row else b
      (15, b1.put Obj.jobJobStatus e loc)
    else
      let sealing := octFieldLE job 32 2 1 == 0
      let c := if sealing then b.get Obj.ctxTxNext row else octFieldLE job 32 24 8
      let b1 := if sealing then (b.consume row c).put Obj.jobJobCounter c loc else b
      (0, { b1.put Obj.jobJobStatus 255 loc with
            jobs := b1.jobs ++ [{ engine := n, job := job, counter := c, key := (b.keyCtx row).key.getD 0 }] })

end Sys2Proof.Machine
end

