-- ==== Sys2Proof/Machine/Frames.lean ====
section
/-!
DEFINITION. Accepted work: the policers, buffer space and receive reservations before acceptance, acceptance itself,
delivery, and abandonment with its counters and notices (R110 to R123, R267 to R273).
-/

namespace Sys2Proof.Machine

/-- The rows of a table at which an object differs from its default, in rising order. -/
def Block.listedRows (b : Block) (r : Reg) : List Nat :=
  ((b.regs.sel r.home).filter fun c => decide (c.1 / 1048576 = r.idx * 256 + r.sub)).map fun c => c.1 % 1048576

/-! ### Ingress contexts and policers (R267 to R269) -/

/-- KIND and KEY of an ingress context under R267. -/
def Block.ctxKind (b : Block) (c : Ctx) : Nat × Nat :=
  match c with
  | .eth port vid _ => (1 + port, vid)
  | .station row _ => (3, b.get Obj.staRadioBss row)
  | .neighbour row => (4, row)
  | .cane link _ => (5, link)
  | .engine n ring => (6, 8 * n + ring)

/-- The unit that evaluates a policer, as UNIT gives it (R268, R296): 8 for the wildcard of the BSSs, which two radio
edges share. -/
def unitOfCtx (kind key : Nat) : Nat :=
  match kind with
  | 1 => 1
  | 2 => 2
  | 3 => if key = 0xFFFE then 8 else if key / 16 = 0 then 3 else 4
  | 4 => 5
  | 5 => 6
  | 6 => 7
  | _ => 0

/-- The ingress unit of a context (R268, R282). -/
def Block.ingressUnit (b : Block) (c : Ctx) : Nat := unitOfCtx (b.ctxKind c).1 (b.ctxKind c).2

/-- The row of the ingress context table that a context uses: its own key, else the wildcard of its kind (R267). -/
def Block.ctxRow (b : Block) (c : Ctx) : Option Nat :=
  let rows := b.listedRows Obj.ictxKind
  let kk := b.ctxKind c
  let hit (key : Nat) := rows.find? fun r => b.get Obj.ictxKind r == kk.1 && b.get Obj.ictxKey r == key
  match hit kk.2 with
  | some r => some r
  | none => hit 0xFFFE

/-- One octet of tokens in the units of a bucket. -/
def tokenUnit : Int := 2560000000

/-- A bucket after accrual at `rate` bit/s up to `burst` octets (R269, R285). -/
def Bucket.accrue (k : Bucket) (rate burst now : Nat) : Bucket :=
  { tokens := min ((burst : Int) * tokenUnit) (k.tokens + (rate : Int) * ((now - k.last : Nat) : Int)), last := now }

/-- The bucket of a policer; one that has decided nothing yet is full (DESIGN CHOICE, log entry 25). -/
def Block.polBucket (b : Block) (row : Nat) : Bucket :=
  (assocGet b.fwd.pol row).getD { tokens := (b.get Obj.polBurst row : Int) * tokenUnit, last := b.now }

/-- The policing decision on a frame of `len` octets: pass, or drop with the tokens unchanged (R269, R270). -/
def Block.police (b : Block) (c : Ctx) (len : Nat) : Bool × Block :=
  match b.ctxRow c with
  | none => (true, b)
  | some row =>
    let pol := b.get Obj.ictxPolicer row
    if pol = 65535 then (true, b)
    else
      let k := (b.polBucket pol).accrue (b.get Obj.polRate pol) (b.get Obj.polBurst pol) b.now
      if (len : Int) * tokenUnit ≤ k.tokens then
        let k1 := { k with tokens := k.tokens - (len : Int) * tokenUnit }
        (true, { b with fwd := { b.fwd with pol := assocPut b.fwd.pol pol k1 } }.add Obj.polPassed 1 pol)
      else (false, { b with fwd := { b.fwd with pol := assocPut b.fwd.pol pol k } }.add Obj.polDropped 1 pol)

/-! ### Buffer space (R36 step 3, R39, R265) -/

/-- The octets of the working-store buffer pool (R467). -/
def poolSize : Nat := 2097152

/-- The buffer that the allocator gave a frame, an address in the pool after 16 octets of headroom (R288, R335; log
entry 17). -/
def bufferOf (fid : Nat) : Nat := 0x10000010 + Config.bufferAt fid % (0x200000 - 16 - 9216)

/-- Octets of the buffer pool in use. -/
def Block.poolUsed (b : Block) : Nat :=
  sumOfList ((b.frames.filter fun f => f.landed.isNone && !f.spilled).map (·.pkt.len))

/-- Octets of the DRAM spill space in use. -/
def Block.spillUsed (b : Block) : Nat := sumOfList ((b.frames.filter (·.spilled)).map (·.pkt.len))

/-- The spill space now: SPILL_NOW while both channels serve, half of it on one channel, none without DRAM (R129,
R480). -/
def Block.spillSpace (b : Block) : Nat :=
  let f := b.get Obj.fabricFenced
  if !b.domainOn 6 || !b.dram.up then 0
  else if bitSet f 15 && bitSet f 16 then 0
  else if bitSet f 15 || bitSet f 16 then b.get Obj.spillNow / 2
  else b.get Obj.spillNow

/-- The octets of the buffer space, and those of them that are free (R265). -/
def Block.bufferSpace (b : Block) : Nat := poolSize + b.spillSpace
def Block.bufferLeft (b : Block) : Nat := b.bufferSpace - (b.poolUsed + b.spillUsed)

/-- Percent of the buffer space free (R295), floored. -/
def Block.bufferPercent (b : Block) : Nat := b.bufferLeft * 100 / b.bufferSpace

/-- Where a frame of `len` octets goes: the pool (false), the spill space (true), or nowhere (R39). -/
def Block.place (b : Block) (len : Nat) : Option Bool :=
  if b.poolUsed + len ≤ poolSize then some false
  else if b.spillUsed + len ≤ b.spillSpace then some true
  else none

/-- The journal's entries (R124). -/
def journalSize : Nat := 131072

/-- The landing region and journal share of a radio (R271). -/
def landingRegion : Radio → Nat × Nat
  | .h => (1048576, 2048)
  | .m => (262144, 1024)
  | .l => (65536, 256)

/-- The journal entries in use: those of the frames held, and of the abandoned ones that no notice covers yet (R124). -/
def Block.journalUsed (b : Block) : Nat :=
  (b.frames.filter fun f => f.landed.isNone).length + sumOfList (b.periods.map fun p => p.entries.length)

/-- A general journal entry is free: the radios' shares are held apart (R271). -/
def Block.journalFree (b : Block) : Bool := decide (b.journalUsed < journalSize - (2048 + 1024 + 256))

/-- STATE of a journal entry as a number (R124). -/
def JState.num : JState → Nat
  | .queued => 1
  | .gathered => 2
  | .sent => 3
  | .delivered => 4
  | .abandoned => 5

/-- A journal entry of a frame (R124): its STATE, QUEUE, SEQ and BUF. -/
def Frame.entry (f : Frame) (state : JState) : Nat :=
  state.num * 2 ^ 61 + f.queue % 8192 * 2 ^ 48 + f.seq % 2 ^ 24 * 2 ^ 24 + Config.bufferHandle f.id % 2 ^ 24

/-- Entry `i` of the queue journal: where the entry of a frame lies is the allocator's choice, by the frame's number
(R124; log entry 17). -/
def Block.journalEntry (b : Block) (i : Nat) : Nat :=
  let at_ (f : Frame) : Bool := f.landed.isNone && Config.journalAt f.id % journalSize == i
  match b.frames.find? at_ with
  | some f => f.entry f.state
  | none =>
    match (b.periods.flatMap fun p => p.entries).find? at_ with
    | some f => f.entry .abandoned
    | none => 0

/-! ### Receive reservations (R271, R272) -/

/-- Two contexts share a sender: the same station, neighbour, or cane peer. -/
def Ctx.sameSender (a b : Ctx) : Bool :=
  match a, b with
  | .station r _, .station s _ => r == s
  | .neighbour r, .neighbour s => r == s
  | .cane r _, .cane s _ => r == s
  | _, _ => false

/-- The cap of a sender on the octets it holds in landing (R272). -/
def Block.senderCap (b : Block) : Ctx → Nat
  | .station _ _ => b.get Obj.rxReserveSta
  | .neighbour _ => b.get Obj.rxReserveNbr
  | .cane _ _ => b.get Obj.rxReserveCane
  | _ => 0

/-- The octets that lie in a radio's landing region. -/
def Block.landingUsed (b : Block) (r : Radio) : Nat :=
  sumOfList ((b.frames.filter fun f => f.landed == some r).map (·.pkt.len))

/-- A frame of `len` octets of a sender fits its cap, and a journal entry of the radio's share is free (R116, R272). -/
def Block.reserveFits (b : Block) (r : Radio) (c : Ctx) (len : Nat) : Bool :=
  decide (sumOfList ((b.frames.filter fun f => f.landed == some r && f.ctx.sameSender c).map (·.pkt.len)) + len ≤
    b.senderCap c) &&
  decide ((b.frames.filter fun f => f.landed == some r).length < (landingRegion r).2)

/-! ### Acceptance and delivery -/

/-- The acceptance of a frame (R114): it is held, counted, and takes its position within its ingress unit. -/
def Block.accept (b : Block) (c : Ctx) (pkt : Packet) (landed : Option Radio) (spilled : Bool)
    (stamp : Option (Nat × Nat) := none) : Block :=
  let unit := b.ingressUnit c
  let n := assocNat b.fwd.ingressSeq unit
  let f : Frame := { id := b.nextFrame, ctx := c, pkt, at_ := b.now, seq := n % 2 ^ 24, landed, spilled, stamp }
  let b1 := { b with
    frames := b.frames ++ [f], nextFrame := b.nextFrame + 1
    fwd := { b.fwd with ingressSeq := assocPut b.fwd.ingressSeq unit (n + 1) } }
  (b1.add Obj.acceptedTotal).add Obj.acceptedHeld

/-- A frame leaves the held work: its buffer, journal entry and reservations are freed, and ACCEPTED_HELD falls (R132).
-/
def Block.dropFrame (b : Block) (fid : Nat) : Block :=
  let b1 := { b with
    frames := b.frames.filter fun f => f.id != fid
    fwd := { b.fwd with
      misses := b.fwd.misses.filter fun m => m.fid != fid
      filled := b.fwd.filled.filter fun x => x.2.2 != fid } }
  (b1.put Obj.acceptedHeld (b1.get Obj.acceptedHeld - 1)).resolveMpdus fid

/-- A frame is delivered (R112): it leaves the held work and counts. -/
def Block.deliver (b : Block) (fid : Nat) : Block :=
  match b.frame? fid with
  | none => b
  | some _ => (b.dropFrame fid).add Obj.deliveredTotal

/-! ### Abandonment (R121, R122) -/

/-- Where a frame is bound, as one number: an Ethernet egress queue, or 8,192 + the station, 9,216 + the link,
10,240 + the neighbour, 16,384 for a frame not yet enqueued. -/
def destOf (queue : Nat) : Nat :=
  if queue < 4096 then 8192 + queue / 8
  else if queue < 4352 then queue
  else if queue < 4608 then 9216 + (queue - 4352) / 8
  else if queue < 5632 then 10240 + (queue - 4608)
  else 16384

/-- The object and row that name a destination in a notice (R136). -/
def destObj (d : Nat) : Reg × Nat :=
  if d < 8192 then (Obj.queueBind, d)
  else if d < 9216 then (Obj.staState, d - 8192)
  else if d < 10240 then (Obj.caneEnable, d - 9216)
  else if d < 16384 then (Obj.nbrAddr, d - 10240)
  else (Obj.acceptedHeld, noRow)

/-- The counter of an abandonment code (R135). -/
def abandonReg (code : Nat) : Reg :=
  match code with
  | 1 => Obj.abandonDeparted
  | 2 => Obj.abandonLifetime
  | 3 => Obj.abandonFlush
  | _ => Obj.abandonPersist

/-- Notice ABANDONED for a destination and reason (R136). -/
def Block.abandonNotice (b : Block) (d code frames : Nat) : Block :=
  b.notice 0x0101 (destObj d).1 (destObj d).2 ([code, 0] ++ bytesBE 4 frames)

/-- The notices of R122 for frames of one destination and reason: at once and a period begins, or they wait for the
end of the period that runs, their journal entries in STATE 5 (R124). -/
def Block.coverAbandon (b : Block) (d code : Nat) (frames : List Frame) : Block :=
  if b.periods.any fun p => p.dest == d && p.code == code then
    { b with periods := b.periods.map fun p =>
        if p.dest == d && p.code == code then
          { p with frames := p.frames + frames.length, entries := p.entries ++ frames.filter fun f => f.landed.isNone }
        else p }
  else
    let b1 := b.abandonNotice d code frames.length
    { b1 with periods := b1.periods ++ [{ dest := d, code, start := b.now, frames := 0 }] }

/-- The frames of a list leave the held work. -/
def Block.dropAll (b : Block) (fids : List Nat) : Block := fids.foldl Block.dropFrame b

/-- Frames are abandoned under a code in one commit (R121): those in gathers never transmitted are remelted out under
the trigger code, each adds 1 to the counter of its reason, and each destination is noticed under R122. -/
def Block.abandon (b : Block) (code trigger : Nat) (fids : List Nat) : Block :=
  let fs := b.frames.filter fun f => fids.contains f.id
  let ids := fs.map (·.id)
  let dests := (fs.map fun f => destOf f.queue).eraseDups
  let b1 := (b.remeltFrames trigger ids).dropAll ids
  let b2 := b1.add (abandonReg code) ids.length
  dests.foldl (fun c d => c.coverAbandon d code (fs.filter fun f => destOf f.queue == d)) b2

/-- The end of a period of R122, ABANDON_NOTICE_PERIOD after its start: one notice covers its frames and a new period
begins, or the period ends. -/
def Block.periodEnd (b : Block) (d code : Nat) : Block :=
  match b.periods.find? fun p => p.dest == d && p.code == code with
  | none => b
  | some p =>
    let rest := b.periods.filter fun q => !(q.dest == d && q.code == code)
    if b.now < p.start + ms (b.get Obj.abandonNoticePeriod) then b
    else if p.frames = 0 then { b with periods := rest }
    else
      { b with periods := rest ++ [{ p with start := b.now, frames := 0, entries := [] }] }.abandonNotice d code p.frames

/-- Whether a frame is held for one queue, station, neighbour or link, or held at all: the scopes of R123. -/
def Frame.inScope (f : Frame) (scope target : Nat) : Bool :=
  match scope with
  | 1 => f.queue == target
  | 2 => decide (f.queue < 4096) && f.queue / 8 == target
  | 3 => decide (4608 ≤ f.queue) && f.queue == 4608 + target
  | 4 => decide (4352 ≤ f.queue) && decide (f.queue < 4608) && (f.queue - 4352) / 8 == target
  | _ => true

/-- A management flush of a scope (R123). -/
def Block.flush (b : Block) (scope target : Nat) : Block :=
  b.abandon 3 7 (b.idsWhere fun f => f.inScope scope target)

/-- The ABANDON_SUMMARY record with the four counters, DRAIN_FLUSHED, the mode and the cause (R122, R409). -/
def Block.abandonSummary (b : Block) (cause : Nat) : Block :=
  b.post 0x0060 (bytesLE 4 (b.get Obj.abandonDeparted) ++ bytesLE 4 (b.get Obj.abandonLifetime) ++
    bytesLE 4 (b.get Obj.abandonFlush) ++ bytesLE 4 (b.get Obj.abandonPersist) ++ bytesLE 4 (b.get Obj.drainFlushed) ++
    [b.mode.mode.num, cause])

/-! ### Tables of destinations -/

/-- The rows of a table's objects return to their defaults. -/
def Block.clearRow (b : Block) (regs : List Reg) (row : Nat) : Block :=
  regs.foldl (fun c r => c.put r (r.default row) row) b

/-- The objects of a station row. -/
def staRegs : List Reg :=
  [Obj.staState, Obj.staRadioBss, Obj.staAddr, Obj.staAid, Obj.staPsState, Obj.staLastHeard]

/-- The objects of a neighbour row. -/
def nbrRegs : List Reg :=
  [Obj.nbrAddr, Obj.nbrShortAddr, Obj.nbrRole, Obj.nbrTxMode, Obj.nbrRetryProfile, Obj.nbrPollPeriod, Obj.nbrRxSeq,
   Obj.nbrTxSeq, Obj.nbrLinkMetric, Obj.nbrLastHeard, Obj.nbrIndirect]

/-- A station row is in use. -/
def Block.staUsed (b : Block) (row : Nat) : Bool := b.get Obj.staState row != 0

/-- The radio of a station's BSS: bits 7 to 4 of RADIO_BSS (R223). -/
def Block.staRadio (b : Block) (row : Nat) : Radio := if b.get Obj.staRadioBss row / 16 = 0 then .h else .m

/-- A station leaves the station table (R121 code 1): every frame held for it is abandoned in the commit, and its row
is free. -/
def Block.departStation (b : Block) (row : Nat) : Block :=
  if b.staUsed row then
    let bss := b.get Obj.staRadioBss row
    let reg := Obj.bssStations.of (b.staRadio row)
    let b1 := b.abandon 1 7 (b.idsWhere fun f => f.inScope 2 row)
    let b2 := if b.get Obj.staState row = 2 then b1.put reg (b1.get reg (bss % 16) - 1) (bss % 16) else b1
    let b3 := b2.clearRow staRegs row
    let m := b3.mac
    { b3 with mac := { m with
        dups := m.dups.filter fun d => d.1 / 8 != row
        reports := assocDel m.reports row, heardSta := assocDel m.heardSta row
        twt := assocDel m.twt row, inSp := assocDel m.inSp row, servedSta := assocDel m.servedSta row
        uapsd := m.uapsd.filter (· != row), psPoll := m.psPoll.filter (· != row), mcs := assocDel m.mcs row
        baWin := m.baWin.filter fun x => x.1 / 8 != row
        down := m.down.map fun l => l.filter (· != row), up := m.up.map fun l => l.filter (· != row) } }
  else b

/-- A neighbour row is in use: ADDR is not zero (R223). -/
def Block.nbrUsed (b : Block) (row : Nat) : Bool := b.get Obj.nbrAddr row != 0

/-- A neighbour or child leaves the neighbour table (R121 code 1). -/
def Block.departNeighbour (b : Block) (row : Nat) : Block :=
  if b.nbrUsed row then
    let b1 := b.abandon 1 7 (b.idsWhere fun f => f.inScope 3 row)
    let b2 := b1.clearRow nbrRegs row
    let m := b2.mac
    { b2 with mac := { m with
        nbrs := m.nbrs.filter fun x => x.row != row
        heardNbr := assocDel m.heardNbr row, timedNbr := assocDel m.timedNbr row
        lost := m.lost.filter fun x => x.nbr != row, scanWait := assocDel m.scanWait row
        polled := m.polled.filter (· != row), cellBack := m.cellBack.filter fun x => x.1 != row
        parent := if m.parent = some row then none else m.parent } }
  else b

end Sys2Proof.Machine
end

