-- ==== Sys2Proof/Machine/Cane.lean ====
section
/-!
DEFINITION. Cane links (R229 to R250): strand and link states, numbering, the receive ledger and its release in order,
cane ACK, NACK and PROBE, resends, twins and failover.
-/

namespace Sys2Proof.Machine

/-- The modulus of cane sequence numbers. -/
def cseqMod : Nat := 16777216

/-- The state of a link beside its objects. -/
def Block.link (b : Block) (k : Nat) : Link := b.links.getD k {}

/-- The state of a link changed. -/
def Block.modLink (b : Block) (k : Nat) (f : Link → Link) : Block := { b with links := modAt b.links k f }

/-- The state of a strand: 0 not configured, 1 probing, 2 up, 3 failed (R260). -/
def Block.strandState (b : Block) (k : Nat) (x : Radio) : Nat := b.get Obj.linkStrandState k / 4 ^ radioNum x % 4

/-- The state of a strand set. -/
def Block.setStrand (b : Block) (k : Nat) (x : Radio) (v : Nat) : Block :=
  let w := b.get Obj.linkStrandState k
  b.put Obj.linkStrandState (w - b.strandState k x * 4 ^ radioNum x + v * 4 ^ radioNum x) k

/-- The three radios in the order that every tie of R246 takes. -/
def radios3 : List Radio := [.h, .m, .l]

/-- The up strands of a link in the order H, M, L. -/
def Block.upStrands (b : Block) (k : Nat) : List Radio := radios3.filter fun x => b.strandState k x == 2

/-- A frame of a link's stream queues. -/
def Frame.ofLink (f : Frame) (k : Nat) : Bool := f.inScope 4 k

/-- STATE of a link recomputed (R248): up while a strand is up; a change raises LINK_UP or LINK_DOWN (R262). -/
def Block.updateLink (b : Block) (k : Nat) : Block :=
  let old := b.get Obj.linkState k
  let ups := b.upStrands k
  let new := if !b.is Obj.caneEnable k then 0 else if ups.isEmpty then 1 else 2
  let b1 := b.put Obj.linkState new k
  if new = 2 && old != 2 then
    b1.notice 0x0193 Obj.linkState k [sumOfList (ups.map fun x => 2 ^ radioNum x)]
  else if old = 2 && new != 2 then
    b1.notice 0x0192 Obj.linkState k (bytesBE 4 (b.frames.filter fun f => f.ofLink k).length)
  else b1

/-! ### Failover (R248, R249) -/

/-- A strand of a link. -/
def Block.strandOf (b : Block) (k : Nat) (x : Radio) : Strand := (b.link k).strands.getD (radioNum x) {}

/-- A strand of a link changed. -/
def Block.modStrand (b : Block) (k : Nat) (x : Radio) (f : Strand → Strand) : Block :=
  b.modLink k fun l => { l with strands := modAt l.strands (radioNum x) f }

/-- A frame that a failed strand gives back: sent on it, resolved by no strand acknowledgement (R249 step 3). -/
def Frame.onStrand (f : Frame) (k : Nat) (x : Radio) : Bool :=
  f.ofLink k && f.state == .sent && !f.acked && (f.strand == some x || f.twin == some x)

/-- The MPDUs of a frame on one radio are handed on. -/
def Block.handOn (b : Block) (x : Radio) (fid : Nat) : Block :=
  let gs := b.gth.gathers.map fun g => if g.radio == x && g.state == .sent then g.resolve fid else g
  { b with gth := { b.gth with gathers := gs } }.freeGathers

/-- The management frames of a failed strand that no acknowledgement has resolved are sent again, with RESEND (R249). -/
def Link.mgmtBack (l : Link) (x : Radio) : Link :=
  { l with send := l.send.map fun m =>
      if m.strand == some x && !m.acked then
        { m with sent := false, strand := none, numbered := false, again := m.again || m.lastTx != 0 }
      else m }

/-- Failover (R249): the strand is failed with its notice, its unlocked gathers are remelted with trigger 6, and its
unresolved frames return to their stream queues with RESEND set. `cause` is that of R262, `after` the state of the
strand then. -/
def Block.failStrand (b : Block) (k : Nat) (x : Radio) (cause : Nat) (after : Nat := 3) : Block :=
  if b.strandState k x = 2 then
    let b1 := b.remelt 6 fun g => g.radio == x && g.mpdus.any fun m => m.strand == some k
    let ids := b1.idsWhere fun f => f.onStrand k x
    let b2 := ids.foldl (fun c i => (c.handOn x i).modFrame i fun f =>
      { f with resend := true, again := true, strand := none, twin := none, attempts := 0 }) b1
    let b3 := ((b2.setStrand k x after).modLink k fun l => l.mgmtBack x).modStrand k x fun s =>
      { s with fails := 0, probes := 0, probing := false, owedAt := none, bar := false, returning := some ids }
    (b3.notice 0x0190 Obj.linkStrandState k ([radioNum x, cause] ++ bytesBE 4 ids.length)).updateLink k
  else if b.strandState k x = 1 || b.strandState k x = 3 then (b.setStrand k x after).updateLink k
  else b

/-- Every frame that a failover has returned has gone out again, or has left: FAILOVERS adds 1 (R249 step 4). -/
def Block.failoversDone (b : Block) : Block :=
  (List.range 32).foldl (fun (c : Block) k => radios3.foldl (fun (d : Block) x =>
    match (d.strandOf k x).returning with
    | none => d
    | some ids =>
      if d.frames.any fun f => ids.contains f.id && f.resend then d
      else (d.modStrand k x fun s => { s with returning := none }).add Obj.linkFailovers 1 k) c) b

/-- A failed attempt on a strand: STRAND_DEAD_ATTEMPTS in a row fail it (R248). -/
def Block.strandAttemptFailed (b : Block) (k : Nat) (x : Radio) : Block :=
  let n := (b.strandOf k x).fails + 1
  let b1 := b.modStrand k x fun s => { s with fails := n }
  if b1.get Obj.strandDeadAttempts ≤ n then b1.failStrand k x 1 else b1

/-- A successful attempt on a strand ends the row of failed ones, and its answer has been heard. -/
def Block.strandAttemptOk (b : Block) (k : Nat) (x : Radio) : Block :=
  b.modStrand k x fun s => { s with fails := 0, heardAt := b.now }

/-- A frame of the cane layer's own takes the neighbour sequence number of Strand L when its ramp-up starts (R199). -/
def Block.lowTakes (b : Block) (k : Nat) (x : Radio) : Block :=
  let n := b.get Obj.caneLNbr k
  if x == .l && decide (n < 1024) then b.put Obj.nbrTxSeq ((b.get Obj.nbrTxSeq n + 1) % 65536) n else b

/-- A frame of the cane layer's own is sealed for a strand: on Radio H and M it takes the 802.11 number of the link's
TID 7 (R232), everywhere the counter of the strand's context (R303). False where the context has none left. -/
def Block.caneNumber (b : Block) (k : Nat) (x : Radio) : Bool × Block :=
  let b1 := if x == .l then b else b.setSn x (512 + k) 7 (b.nextSn x (512 + k) 7 + 1)
  let row := b.get (strandCtx x).1 k
  if b.get Obj.ctxState row = 0 then (true, b1)
  else
    let c := b1.takeCounter row
    match c.1 with
    | some _ => (true, c.2)
    | none => (false, c.2)

/-- Strand states follow ENABLE and STRANDS (R248): a configured strand that had no state starts probing; one whose
bit is cleared fails, and has no state then. -/
def Block.configStrands (b : Block) (k : Nat) : Block :=
  let b1 := radios3.foldl (fun c x =>
    if c.strandOn k x then (if c.strandState k x = 0 then c.setStrand k x 1 else c)
    else if c.is Obj.caneEnable k then c.failStrand k x 0 0
    else c.setStrand k x 0) b
  -- a radio that has no strand any more is idle from now on (R91)
  ({ b1 with radios := b1.radios.map fun (u : RadioUnit) => ({ u with idleFrom := b.now } : RadioUnit) }).updateLink k

/-! ### The cane layer's own frames (R235 to R238, R248) -/

/-- The address of a link's peer on a strand (R229, R232, R233). -/
def Block.peerAddr (b : Block) (k : Nat) (x : Radio) : Nat :=
  match x with
  | .h => b.get Obj.caneHAddr k
  | .m => b.get Obj.caneMAddr k
  | .l => b.get Obj.nbrAddr (b.get Obj.caneLNbr k)

/-- The LLC/SNAP header before a cane header on Strand H and M (R232); on Strand L there is none (R233). -/
def Block.caneSnap (b : Block) (x : Radio) : List Octet :=
  if x == .l then [] else [0xAA#8, 0xAA#8, 0x03#8, 0#8, 0#8, 0#8] ++ octetsBE 2 (b.get Obj.caneEthertype)

/-- A cane frame goes on air on a strand: its TYPE, its TID, the peer's address and its octets as far as the carried
frame (R232 to R234). -/
def Block.caneAir (b : Block) (k : Nat) (x : Radio) (type tid : Nat) (octets : List Octet) : Block :=
  b.emit (.cane k x type tid (b.peerAddr k x) (b.caneSnap x ++ octets))

/-- A frame or a probe to the peer is outstanding on a strand (R248). -/
def Block.strandOwed (b : Block) (k : Nat) (x : Radio) : Bool :=
  b.frames.any (fun f => f.onStrand k x) || (b.strandOf k x).probing ||
    (b.link k).send.any fun m => m.sent && !m.acked && m.strand == some x

/-- A frame is sent on a strand: it is idle no longer, and what is outstanding counts from now on, if nothing was
(R248). -/
def Block.strandSends (b : Block) (k : Nat) (x : Radio) : Block :=
  let owed := b.strandOwed k x
  b.modStrand k x fun s => { s with usedAt := b.now, owedAt := if owed then s.owedAt else some b.now }

/-- The peer has been heard on a strand, by a frame that started at a tick (R248). -/
def Block.strandHears (b : Block) (k : Nat) (x : Radio) (at_ : Nat) : Block := b.modStrand k x fun s => { s with heardAt := at_ }

/-- PROBE_INTERVAL of a strand in ticks (R260). -/
def Block.probeEvery (b : Block) (x : Radio) : Nat :=
  ms (b.get (if x == .l then Obj.probeIntervalL else Obj.probeIntervalHm))

/-- The time of PROBE_INTERVAL of a strand: since it was last idle for one that is up, since the last PROBE for any
other (R248). -/
def Block.probeTime (b : Block) (k : Nat) (x : Radio) : Nat :=
  let s := b.strandOf k x
  (if b.strandState k x = 2 then max s.probeAt (max s.usedAt s.heardAt) else s.probeAt) + b.probeEvery x

/-- PROBE_INTERVAL_EXPIRY: an idle strand, or one that is not up, is to send a PROBE (R248). -/
def Block.probeExpiry (b : Block) (k : Nat) (x : Radio) : Block :=
  if b.strandState k x = 0 || decide (b.now < b.probeTime k x) then b
  else b.modStrand k x fun s => { s with probeDue := true, probeAt := b.now }

/-- The answer to a PROBE on its strand, or its absence (R248): enough acknowledged in a row bring the strand up, and
after a failure a BlockAckReq goes first on Strand H and M (R249). -/
def Block.probeResult (b : Block) (k : Nat) (x : Radio) (acked : Bool) : Block :=
  let st := b.strandState k x
  if st = 0 then b
  else if acked then
    let n := (b.strandOf k x).probes + 1
    let b1 := (b.strandHears k x b.now).modStrand k x fun s => { s with probes := n, fails := 0, probing := false }
    if st != 2 && decide (b1.get Obj.strandUpProbes ≤ n) then
      let b2 := b1.modStrand k x fun s => { s with bar := st == 3 && x != .l }
      ((b2.setStrand k x 2).notice 0x0191 Obj.linkStrandState k [radioNum x]).updateLink k
    else b1
  else
    let b1 := b.modStrand k x fun s => { s with probes := 0 }
    if st = 2 then b1.strandAttemptFailed k x else b1

/-- A control frame of a link may go on a strand (R238, R248, R249): an ACK or NACK that is owed on one that is up, a
PROBE on a configured one, a BlockAckReq on one that has come up again. -/
def Block.ctlDue (b : Block) (k type : Nat) (x : Radio) : Bool :=
  let l := b.link k
  match type with
  | 1 => l.ackNow && !l.fresh.isEmpty && b.strandState k x == 2
  | 2 => (l.nacks.any fun s => l.held.any fun h => h.stream == s) && b.strandState k x == 2
  | 3 => (b.strandOf k x).probeDue && b.strandState k x != 0
  | 4 => (b.strandOf k x).bar && b.strandState k x == 2
  | _ => false

/-- Strand H or M has to send a BlockAckReq before anything else of the link (R249). -/
def Block.barFirst (b : Block) (k : Nat) (x : Radio) : Bool := (b.strandOf k x).bar

/-! ### The receive ledger (R241, R242) -/

/-- What the ledger finds of a number (R241). -/
inductive Ledger where
  | next | ahead | duplicate | beyond
  deriving DecidableEq, Repr

/-- The number expected next on a stream; 15 is the management stream (R230, R239). -/
def Block.rxNext (b : Block) (k s : Nat) : Nat :=
  if s = 15 then (b.link k).mgmtRx else b.get Obj.streamRxNext (8 * k + s)

/-- The number expected next set. -/
def Block.setRxNext (b : Block) (k s v : Nat) : Block :=
  if s = 15 then b.modLink k fun l => { l with mgmtRx := v % cseqMod }
  else b.put Obj.streamRxNext (v % cseqMod) (8 * k + s)

/-- The ledger's test of a number (R241). -/
def Block.ledger (b : Block) (k s cseq : Nat) : Ledger :=
  let d := (cseq + cseqMod - b.rxNext k s) % cseqMod
  let held := (b.link k).held
  if cseqMod / 2 ≤ d then .duplicate
  else if d = 0 then .next
  else if held.any fun h => h.stream == s && h.cseq == cseq then .duplicate
  else if 1024 ≤ d || held.length = 1024 then .beyond
  else .ahead

/-- A management payload is taken (R230, R235): a Plais message goes to the Plais port, a drain announcement sets
PEER_DRAINING with its notice (R250), any other KIND is discarded and counted. -/
def Block.takeMgmt (b : Block) (k kind closeIn : Nat) (payload : List Octet) : Block :=
  if kind = 1 then { b with inbox := b.inbox ++ [(k, payload)] }
  else if kind = 2 then (b.put Obj.linkPeerDraining 1 k).notice 0x0194 Obj.linkPeerDraining k (bytesBE 4 closeIn)
  else b.add Obj.caneBadHeader

/-- A held entry leaves the ledger: a management payload is taken; a frame goes on to classification, behind those of
its stream that were released before it (R111). -/
def Block.releaseHeld (b : Block) (k : Nat) (h : Held) : Block :=
  match h.fid with
  | some i => { b with frames := (b.frames.filter fun f => f.id != i) ++ b.frames.filter fun f => f.id == i }
  | none => b.takeMgmt k h.kind (ofOctetsBE h.payload) h.payload

/-- The held entries that follow `rx_next` without a gap are released, at most `fuel` of them (R242). -/
def Block.releaseRun (b : Block) (k s : Nat) : Nat → Block
  | 0 => b
  | fuel + 1 =>
    let n := b.rxNext k s
    match (b.link k).held.find? fun h => h.stream == s && h.cseq == n with
    | none => b
    | some h =>
      let b1 := b.modLink k fun l => { l with held := l.held.filter fun x => !(x.stream == s && x.cseq == n) }
      ((b1.releaseHeld k h).setRxNext k s (n + 1)).releaseRun k s fuel

/-- The hold timer of a stream (R244): it runs while a frame is held above a hole. -/
def Block.holdTimer (b : Block) (k s : Nat) : Block :=
  let open_ := (b.link k).held.any fun h => h.stream == s
  b.modLink k fun l =>
    { l with holes :=
        if open_ then (if l.holes.any fun x => x.1 == s then l.holes else l.holes ++ [(s, b.now)])
        else l.holes.filter fun x => x.1 != s }

/-- An accepted entry enters the ledger (R241, R242): the number expected next is released with the run behind it, one
ahead is held. -/
def Block.ledgerAccept (b : Block) (k : Nat) (h : Held) : Block :=
  let b1 :=
    if h.cseq = b.rxNext k h.stream then
      ((b.releaseHeld k h).setRxNext k h.stream (h.cseq + 1)).releaseRun k h.stream (b.link k).held.length
    else b.modLink k fun l => { l with held := l.held ++ [h] }
  b1.holdTimer k h.stream

/-- A frame is held in a link's ledger and so not yet released to classification. -/
def Block.isHeld (b : Block) (fid : Nat) : Bool := b.links.any fun l => l.held.any fun h => h.fid == some fid

/-! ### Cane acknowledgement (R236, R243) -/

/-- The record of a stream in an ACK (R236). -/
def Block.ackRecord (b : Block) (k s : Nat) : AckRec :=
  let n := b.rxNext k s
  let bits := ((b.link k).held.filter fun h => h.stream == s).map fun h =>
    let j := (h.cseq + cseqMod - n) % cseqMod
    if 1 ≤ j && decide (j ≤ 64) then 2 ^ (j - 1) else 0
  { stream := s, cum := (n + cseqMod - 1) % cseqMod, bitmap := sumOfList bits }

/-- An ACK is owed now, if anything has been accepted since the last one (R243). -/
def Block.oweAck (b : Block) (k : Nat) : Block := b.modLink k fun l => { l with ackNow := !l.fresh.isEmpty }

/-- ACK_DELAY_EXPIRY: ACK_DELAY after the first acceptance not covered by an ACK one is owed (R243). -/
def Block.ackDelayEnd (b : Block) (k : Nat) : Block :=
  if (b.link k).ackDue.any fun t => decide (t + us (b.get Obj.caneAckDelay k) ≤ b.now) then b.oweAck k else b

/-- The ACK goes out as the ledger stands: a record for each stream with acceptances or duplicates since the last one
(R236, R243). -/
def Block.ackOnAir (b : Block) (k : Nat) (x : Radio) : Block :=
  (b.caneAir k x 1 7 (caneAckHeader ((b.link k).fresh.map (b.ackRecord k)))).modLink k fun l =>
    { l with fresh := [], count := 0, ackDue := none, ackNow := false }

/-- An acceptance or a duplicate on a stream (R243): the ACK goes at once for ACKREQ, a duplicate or the 32nd frame,
else ACK_DELAY after the first. -/
def Block.noteAccepted (b : Block) (k s : Nat) (ackReq dup : Bool) : Block :=
  let b1 := b.modLink k fun l =>
    { l with
      fresh := if l.fresh.contains s then l.fresh else l.fresh ++ [s]
      count := if dup then l.count else l.count + 1
      ackDue := match l.ackDue with
        | some d => some d
        | none => some b.now }
  if ackReq || dup || decide (32 ≤ (b1.link k).count) then b1.oweAck k else b1

/-- A number is covered by a record: at or below CUM, or its BITMAP bit is 1 (R243). -/
def ackCovers (a : AckRec) (cseq : Nat) : Bool :=
  let below := (a.cum + cseqMod - cseq) % cseqMod
  let j := (cseq + 2 * cseqMod - a.cum - 2) % cseqMod
  decide (below < cseqMod / 2) || (decide (j < 64) && a.bitmap.testBit j)

/-! ### NACK, resend and the management stream (R230, R244, R245) -/

/-- A frame is sent again at cane level: RESEND set, its number unchanged (R245). -/
def Block.resend (b : Block) (k fid : Nat) : Block :=
  (b.modFrame fid fun f =>
    { f with resend := true, again := true, acked := false, strand := none, twin := none, attempts := 0 }).add Obj.linkResends 1 k

/-- A management frame is sent again at cane level (R245). -/
def MgmtSend.renew (m : MgmtSend) : MgmtSend := { m with sent := false, again := true, strand := none, acked := false, numbered := false }

/-- A cane NACK: every named frame that was transmitted and is not covered is sent again (R245). -/
def Block.caneNack (b : Block) (k : Nat) (recs : List NackRec) : Block :=
  recs.foldl (fun c r =>
    if r.stream = 15 then
      let named (m : MgmtSend) : Bool := decide ((m.cseq + cseqMod - r.first) % cseqMod < r.count) && m.sent
      (c.modLink k fun l => { l with send := l.send.map fun m => if named m then m.renew else m }).add Obj.linkResends
        ((c.link k).send.filter named).length k
    else
      let ids := c.idsWhere fun f => f.queue == 4352 + 8 * k + r.stream && f.air && !f.resend &&
        (match f.cseq with
         | some n => decide ((n + cseqMod - r.first) % cseqMod < r.count)
         | none => false)
      ids.foldl (fun d i => d.resend k i) c) b

/-- The open holes of a stream below its highest held number, as ranges FIRST and COUNT, up to `n` numbers ahead of
`rx_next` (R244). -/
def Block.holeRanges (b : Block) (k s : Nat) : List (Nat × Nat) :=
  let base := b.rxNext k s
  let offs := ((b.link k).held.filter fun h => h.stream == s).map fun h => (h.cseq + cseqMod - base) % cseqMod
  let top := maxOf offs
  let missing := (List.range top).filter fun o => !offs.contains o
  (missing.foldl (fun (acc : List (Nat × Nat)) o =>
    match acc with
    | (f, c) :: rest => if o = f + c then (f, c + 1) :: rest else (o, 1) :: (f, c) :: rest
    | [] => [(o, 1)]) []).reverse.map fun p => ((base + p.1) % cseqMod, p.2)

/-- HOLD_TIME_EXPIRY: HOLD_TIME has passed with a hole open: a NACK is owed, and the timer restarts (R244). -/
def Block.holdExpiry (b : Block) (k s : Nat) : Block :=
  if (b.link k).holes.any fun x => x.1 == s && decide (x.2 + ms (b.get Obj.caneHoldTime k) ≤ b.now) then
    b.modLink k fun l =>
      { l with
        holes := l.holes.map fun x => if x.1 == s then (s, b.now) else x
        nacks := if l.nacks.contains s then l.nacks else l.nacks ++ [s] }
  else b

/-- A NACK goes out with the holes that are open now, up to 8 ranges (R237, R244). -/
def Block.nackOnAir (b : Block) (k : Nat) (x : Radio) : Block :=
  let l := b.link k
  match l.nacks.find? fun s => l.held.any fun h => h.stream == s with
  | none => b
  | some s =>
    let recs := ((b.holeRanges k s).take 8).map fun p => ({ stream := s, first := p.1, count := p.2 } : NackRec)
    ((b.caneAir k x 2 7 (caneNackHeader recs)).add Obj.linkNacksSent 1 k).modLink k fun l =>
      { l with nacks := l.nacks.filter fun y => y != s && l.held.any fun h => h.stream == y }

/-- The transmission of a control frame starts, with what it says as the link stands (R238, R249). -/
def Block.ctlOnAir (b : Block) (k type : Nat) (x : Radio) : Block :=
  let b1 := if type = 4 then b else (b.lowTakes k x).strandSends k x
  match type with
  | 1 => b1.ackOnAir k x
  | 2 => b1.nackOnAir k x
  | 3 =>
    let up := sumOfList ((b.upStrands k).map fun y => 2 ^ radioNum y)
    (b1.caneAir k x 3 7 (caneProbeHeader up (b.get Obj.caneEpoch))).modStrand k x fun s =>
      { s with probing := true, probeDue := false, probeAt := b.now }
  | 4 => b1.emit (.radio x 20 ((512 + k) :: (List.range 8).map fun tid => b.nextSn x (512 + k) tid))
  | _ => b1

/-- The strand's answer to a control frame, or its absence (R248, R249). -/
def Block.ctlResult (b : Block) (k type : Nat) (x : Radio) (ok : Bool) : Block :=
  match type with
  | 3 => b.probeResult k x ok
  | 4 =>
    if ok then (b.strandAttemptOk k x).modStrand k x fun s => { s with bar := false } else b.strandAttemptFailed k x
  | _ => if ok then b.strandAttemptOk k x else b.strandAttemptFailed k x

/-- A payload for the management stream of a link takes a place and its number, or waits for a place (R230, R239). -/
def Block.mgmtSend (b : Block) (k kind : Nat) (payload : List Octet) : Block :=
  b.modLink k fun l =>
    if l.send.length < 16 then
      { l with
        send := l.send ++ [{ cseq := l.mgmtTx, kind, payload }]
        mgmtTx := (l.mgmtTx + 1) % cseqMod }
    else { l with waiting := l.waiting ++ [(kind, payload)] }

/-- No ACK has covered a management frame RESEND_TIME after its last transmission (R245). -/
def Block.mgmtLate (b : Block) (k : Nat) (m : MgmtSend) : Bool :=
  m.sent && decide (m.lastTx + ms (b.get Obj.caneResendTime k) ≤ b.now)

/-- A frame of the management stream may be sent: it has not been since its numbering or a NACK, or it is late (R230,
R245). -/
def Block.mgmtDue (b : Block) (k : Nat) (m : MgmtSend) : Bool := !m.sent || b.mgmtLate k m

/-- A management frame changed. -/
def Block.modMgmt (b : Block) (k cseq : Nat) (f : MgmtSend → MgmtSend) : Block :=
  b.modLink k fun l => { l with send := l.send.map fun y => if y.cseq == cseq then f y else y }

/-- A management frame is taken up on a strand: a late one is sent again at cane level; one that has no number there
takes one with a counter (R119, R245). False where the context has none left. -/
def Block.mgmtTake (b : Block) (k : Nat) (x : Radio) (cseq : Nat) : Bool × Block :=
  match (b.link k).send.find? fun m => m.cseq == cseq with
  | none => (false, b)
  | some m =>
    let late := b.mgmtLate k m
    let b1 := if late then (b.modMgmt k cseq MgmtSend.renew).add Obj.linkResends 1 k else b
    if m.strand == some x && !late then (true, b1)
    else
      let d := b1.caneNumber k x
      (d.1, if d.1 then d.2.modMgmt k cseq fun y => { y with strand := some x, numbered := false } else d.2)

/-- The transmission of a management frame starts on a strand: its header, KIND and payload (R235). -/
def Block.mgmtOnAir (b : Block) (k : Nat) (x : Radio) (cseq : Nat) (ackReq : Bool) : Block :=
  match (b.link k).send.find? fun m => m.cseq == cseq with
  | none => b
  | some m =>
    let b1 := if m.numbered then b else b.lowTakes k x
    ((b1.strandSends k x).modMgmt k cseq fun y =>
      { y with sent := true, acked := false, lastTx := b.now, numbered := true }).caneAir k x 0 7
      (caneDataHeader 15 cseq false m.again ackReq ++ BitVec.ofNat 8 m.kind :: m.payload)

/-- The strand's answer to a management frame: it waits on for the ACK that covers it, or may be sent again (R230;
DEDUCED, log entry 161). -/
def Block.mgmtResult (b : Block) (k : Nat) (x : Radio) (cseq : Nat) (ok : Bool) : Block :=
  if ok then (b.modMgmt k cseq fun y => { y with acked := true }).strandAttemptOk k x
  else (b.modMgmt k cseq fun y => { y with sent := false }).strandAttemptFailed k x

/-- Waiting management payloads take the places that have become free. -/
def Block.mgmtFill (b : Block) (k : Nat) : Nat → Block
  | 0 => b
  | fuel + 1 =>
    match (b.link k).waiting with
    | [] => b
    | (kind, payload) :: rest =>
      if (b.link k).send.length < 16 then
        (((b.modLink k fun l => { l with waiting := rest }).mgmtSend k kind payload)).mgmtFill k fuel
      else b

/-- A PROBE from the peer (R240): a new epoch releases what is held across its holes, in number order, counts the hole
numbers and expects number 0 in each stream. -/
def Block.peerProbe (b : Block) (k up epoch : Nat) : Block :=
  let b1 := b.modLink k fun l => { l with peerUp := up }
  if epoch = b.get Obj.linkPeerEpoch k then b1
  else
    let streams := List.range 8 ++ [15]
    let holes := sumOfList (streams.map fun s => sumOfList ((b.holeRanges k s).map (·.2)))
    let order (s : Nat) := (List.range 1024).filterMap fun o =>
      (b.link k).held.find? fun h => h.stream == s && h.cseq == (b.rxNext k s + o) % cseqMod
    let all := (streams.map order).flatten
    let b2 := b1.modLink k fun l => { l with held := [], holes := [], fresh := [], count := 0, ackDue := none, ackNow := false, nacks := [] }
    let b3 := all.foldl (fun c h => c.releaseHeld k h) b2
    let b4 := streams.foldl (fun c s => c.setRxNext k s 0) b3
    let b5 := ((b4.put Obj.linkPeerEpoch epoch k).put Obj.linkPeerDraining 0 k).add Obj.linkEpochHoles holes k
    b5.notice 0x0195 Obj.linkPeerEpoch k (bytesBE 2 epoch ++ [0, 0] ++ bytesBE 4 holes)

/-- The objects of a link row. -/
def caneRegs : List Reg :=
  [Obj.caneEnable, Obj.canePeerId, Obj.caneStrands, Obj.caneHAddr, Obj.caneMAddr, Obj.caneLNbr, Obj.caneCtx7,
   Obj.caneCtx8, Obj.caneCtx9, Obj.caneCtx10, Obj.caneCtx11, Obj.caneCtx12, Obj.caneCaneMtu, Obj.caneHoldTime,
   Obj.caneAckDelay, Obj.caneResendTime, Obj.caneRouterMac]

/-- Deletion of a link (R250): every frame held for it is abandoned under code 1, what its ledger holds is released, and
its row returns to its defaults (DEDUCED, log entry 28). -/
def Block.deleteLink (b : Block) (k : Nat) : Block :=
  let b1 := b.abandon 1 7 (b.idsWhere fun f => f.ofLink k)
  let b2 := (b1.link k).held.foldl (fun c h => c.releaseHeld k h) b1
  let b3 := (b2.modLink k fun _ => {}).clearRow caneRegs k
  let b4 := (List.range 8).foldl (fun c s =>
    (c.put Obj.streamTxNext 0 (8 * k + s)).put Obj.streamRxNext 0 (8 * k + s)) b3
  (b4.put Obj.linkPeerDraining 0 k).configStrands k

end Sys2Proof.Machine
end

