-- ==== Sys2Proof/Machine/Flags.lean ====
section
/-!
DEFINITION. The flags of an engine: F as a word, the flag rules of R443 for every group of instructions, the conditions
of R444 and the decimal carries of R457 and R458.
-/

namespace Sys2Proof.Machine

/-- One bit as a number of the given width. -/
def bitOf (w : Nat) (b : Bool) : BitVec w := if b then 1#w else 0#w

/-- F as CRD reads it: V, C, Z, N, H, E in bits 0 to 5 (R437). -/
def Flags.word (f : Flags) : BitVec 6 :=
  bitOf 6 f.v ||| (bitOf 6 f.c <<< 1) ||| (bitOf 6 f.z <<< 2) ||| (bitOf 6 f.n <<< 3) ||| (bitOf 6 f.h <<< 4) |||
    (bitOf 6 f.e <<< 5)

/-- The flags that a write of F leaves: bits 4 to 0 are written, E is kept (R437). -/
def Flags.write (f : Flags) (w : Word) : Flags :=
  { v := w.getLsbD 0, c := w.getLsbD 1, z := w.getLsbD 2, n := w.getLsbD 3, h := w.getLsbD 4, e := f.e }

/-- Z and N from a 64-bit result (R443). -/
def Flags.zn (f : Flags) (r : Word) : Flags := { f with z := r == 0, n := r.msb }

/-- The exact sum of two words and a carry, on 65 bits. -/
def wideSum (a b : Word) (c : Bool) : BitVec 65 := a.setWidth 65 + b.setWidth 65 + bitOf 65 c

/-- The carry out of nibble `i` of a sum with carry-in: out of bit 4i + 3 (R443). -/
def nibbleCarry (a b : Word) (c : Bool) (i : Nat) : Bool :=
  decide (2 ^ (4 * i + 4) ≤ a.toNat % 2 ^ (4 * i + 4) + b.toNat % 2 ^ (4 * i + 4) + (if c then 1 else 0))

/-- The first `k` nibble carries of a sum, as a number with carry `i` in bit `i`. -/
def carryVector (a b : Word) (c : Bool) : Nat → Nat
  | 0 => 0
  | k + 1 => carryVector a b c k + (if nibbleCarry a b c k then 2 ^ k else 0)

/-- DCV after a sum: the 16 nibble carries and KIND in bit 16 (R437, R443). -/
def dcvOf (a b : Word) (c sub : Bool) : BitVec 17 :=
  BitVec.ofNat 17 (carryVector a b c 16 + (if sub then 65536 else 0))

/-- The result of an addition with carry. -/
def sumOf (a b : Word) (c : Bool) : Word := (wideSum a b c).setWidth 64

/-- The flags of an addition a + b + carry-in (R443): Z, N from the result, C the carry out of bit 63, V signed
overflow, H nibble carry 0. A subtraction is the addition of the complement of b. -/
def Flags.sum (f : Flags) (a b : Word) (c : Bool) : Flags :=
  let r := sumOf a b c
  { f with
    z := r == 0, n := r.msb, c := (wideSum a b c).msb,
    v := (a.msb == b.msb) && (r.msb != a.msb), h := nibbleCarry a b c 0 }

/-- The flags of the logical instructions, CLZ and POPC (R443): Z, N from the result, V 0. -/
def Flags.logic (f : Flags) (r : Word) : Flags := { f.zn r with v := false }

/-- The shift kinds in the order of SHI (R441). -/
inductive Shift where
  | shl | shr | sar | ror
  deriving DecidableEq, Repr

/-- A shift by an amount below 64. -/
def Shift.apply (k : Shift) (a : Word) (n : Nat) : Word :=
  match k with
  | .shl => a <<< n
  | .shr => a >>> n
  | .sar => a.sshiftRight n
  | .ror => a.rotateRight n

/-- The last bit that a shift by `n`, not 0, moves out (R443). -/
def Shift.lastOut (k : Shift) (a : Word) (n : Nat) : Bool :=
  match k with
  | .shl => a.getLsbD (64 - n)
  | .shr | .sar | .ror => a.getLsbD (n - 1)

/-- The flags of a shift (R443): Z, N from the result, C the last bit out unless the amount is 0, V 0. -/
def Flags.shift (f : Flags) (k : Shift) (a : Word) (n : Nat) : Flags :=
  { f.zn (k.apply a n) with v := false, c := if n = 0 then f.c else k.lastOut a n }

/-- The flags of MUL (R443): Z, N from the low 64 bits, V 1 if the signed product does not fit in 64 bits. -/
def Flags.mul (f : Flags) (a b : Word) : Flags :=
  let p := a.toInt * b.toInt
  { f.zn (a * b) with v := decide (p < -(2 ^ 63)) || decide (2 ^ 63 ≤ p) }

/-- The flags of a division or remainder (R443): Z, N from the result, V as given. -/
def Flags.div (f : Flags) (r : Word) (v : Bool) : Flags := { f.zn r with v := v }

/-- The unsigned quotient: all ones for a division by 0 (R443). -/
def divuOf (a b : Word) : Word := if b = 0 then BitVec.allOnes 64 else a / b

/-- The unsigned remainder: the dividend for a division by 0 (R443). -/
def remuOf (a b : Word) : Word := if b = 0 then a else a % b

/-- DIVS overflows: −2^63 by −1 (R443). -/
def divsOver (a b : Word) : Bool := (a == BitVec.intMin 64) && (b == BitVec.allOnes 64)

/-- The signed quotient, truncated: all ones for a division by 0, −2^63 for −2^63 by −1 (R443). -/
def divsOf (a b : Word) : Word :=
  if b = 0 then BitVec.allOnes 64 else if divsOver a b then BitVec.intMin 64 else a.sdiv b

/-- The signed remainder, with the dividend's sign: the dividend for a division by 0, 0 for −2^63 by −1 (R443). -/
def remsOf (a b : Word) : Word :=
  if b = 0 then a else if divsOver a b then 0 else a.srem b

/-- The number of leading zeros: 64 for zero (R441). -/
def clzOf (a : Word) : Word := a.clz

/-- The bits set among the lowest `k`. -/
def popUpTo (a : Word) : Nat → Nat
  | 0 => 0
  | k + 1 => popUpTo a k + (if a.getLsbD k then 1 else 0)

/-- The number of bits set (R441). -/
def popcOf (a : Word) : Word := BitVec.ofNat 64 (popUpTo a 64)

/-- The test of a condition's bits 2 to 0 (R444). -/
def Flags.test (f : Flags) (t : Nat) : Bool :=
  match t with
  | 0 => f.z
  | 1 => f.c
  | 2 => f.n
  | 3 => f.v
  | 4 => f.c && !f.z
  | 5 => f.n == f.v
  | 6 => !f.z && (f.n == f.v)
  | _ => f.e

/-- Whether a branch with this COND is taken (R444): bit 3 inverts tests 0 to 6, and 0xF is always taken. -/
def Flags.cond (f : Flags) (c : BitVec 4) : Bool :=
  if c = 15 then true
  else if c.getLsbD 3 then !f.test (c.toNat % 8)
  else f.test (c.toNat % 8)

/-! ### Decimal arithmetic (R457, R458) -/

/-- Digit `i` of a packed BCD register. -/
def digit (a : Word) (i : Nat) : Nat := a.toNat / 16 ^ i % 16

/-- Some of the lowest `k` digits is above 9. -/
def badDigits (a : Word) : Nat → Bool
  | 0 => false
  | k + 1 => badDigits a k || decide (9 < digit a k)

/-- The value of the lowest `k` digits. -/
def bcdValue (a : Word) : Nat → Nat
  | 0 => 0
  | k + 1 => bcdValue a k + digit a k * 10 ^ k

/-- The lowest `k` decimal digits of a number, packed. -/
def bcdPack (v : Nat) : Nat → Nat
  | 0 => 0
  | k + 1 => bcdPack v k + v / 10 ^ k % 10 * 16 ^ k

/-- The decimal sum with carry-in: the packed low 16 digits and the carry out of digit 15 (R457). -/
def bcdAdd (a b : Word) (c : Bool) : Word × Bool :=
  let t := bcdValue a 16 + bcdValue b 16 + (if c then 1 else 0)
  (BitVec.ofNat 64 (bcdPack t 16), decide (10 ^ 16 ≤ t))

/-- The decimal difference a − b − borrow-in: the packed ten's complement and whether no borrow left digit 15
(R457). -/
def bcdSub (a b : Word) (borrow : Bool) : Word × Bool :=
  let t := bcdValue a 16 + 10 ^ 16 - bcdValue b 16 - (if borrow then 1 else 0)
  (BitVec.ofNat 64 (bcdPack t 16), decide (10 ^ 16 ≤ t))

/-- The flags of DADD (R457). -/
def Flags.dadd (f : Flags) (r : Word) (c : Bool) : Flags := { f with c := c, z := r == 0, n := false, v := false }

/-- The flags of DSUB and DCMP (R457): N is not C. -/
def Flags.dsub (f : Flags) (r : Word) (c : Bool) : Flags := { f with c := c, z := r == 0, n := !c, v := false }

/-- One digit of DADJ (R458): the running value and carry, with the nibble carry and KIND from DCV. -/
def dadjDigit (dcv : BitVec 17) (i : Nat) (rc : Word × Bool) : Word × Bool :=
  let d := digit rc.1 i
  if dcv.getLsbD 16 = false then
    if dcv.getLsbD i || decide (9 < d) then
      (rc.1 + BitVec.ofNat 64 (6 * 16 ^ i), rc.2 || decide (2 ^ 64 ≤ rc.1.toNat + 6 * 16 ^ i))
    else rc
  else if dcv.getLsbD i = false then (rc.1 - BitVec.ofNat 64 (6 * 16 ^ i), rc.2)
  else rc

/-- The first `k` digits of DADJ, from digit 0 up (R458). -/
def dadj (dcv : BitVec 17) (a : Word) (c : Bool) : Nat → Word × Bool
  | 0 => (a, c)
  | k + 1 => dadjDigit dcv k (dadj dcv a c k)

/-- The flags of DADJ (R458). -/
def Flags.dadj (f : Flags) (dcv : BitVec 17) (r : Word) (c : Bool) : Flags :=
  { f with c := c, z := r == 0, h := dcv.getLsbD 0, n := false, v := false }

end Sys2Proof.Machine
end

