-- ==== Sys2Proof/Machine/Events.lean ====
section
/-!
DEFINITION. The event latch of an engine and the ends of its waits (R453, R454, R456).
-/

namespace Sys2Proof.Machine

/-- The control state of an engine. -/
def Block.cpu (b : Block) (n : Nat) : Cpu := b.cpus.getD n {}

/-- The control state of an engine changed. -/
def Block.modCpu (b : Block) (n : Nat) (f : Cpu → Cpu) : Block := { b with cpus := modAt b.cpus n f }

/-- TB has reached a target: (TB − target) mod 2^64 < 2^63 (R454). -/
def reached (tb target : Word) : Bool := !(tb - target).msb

/-- A waiting instruction completes: the pc passes it and RETIRED counts it. -/
def Cpu.wake (c : Cpu) (f : Flags) : Cpu := { c with run := .running, pc := c.pc + 4, flags := f }

/-- The end of a wait, if E or the time base ends it (R454): WFE clears E; WUNTIL keeps E and puts into C whether the
target is reached. -/
def Cpu.endWait (c : Cpu) (tb : Word) : Option Cpu :=
  match c.run with
  | .wfe => if c.flags.e then some (c.wake { c.flags with e := false }) else none
  | .wuntil target =>
    if c.flags.e || reached tb target then some (c.wake { c.flags with c := reached tb target }) else none
  | _ => none

/-- The wait of an engine ends if its condition holds, and the waiting instruction counts in RETIRED (R464). -/
def Block.tryWake (b : Block) (n : Nat) : Block :=
  match (b.cpu n).endWait (b.tb n) with
  | some c => (b.modCpu n fun _ => c).add (Obj.engRetired.eng n)
  | none => b

/-- An event source sets its bit of EVENT_SRC and, if EVMASK has it, E, which ends a wait (R453). An engine whose domain
is off does not receive it. -/
def Block.event (b : Block) (n bit : Nat) : Block :=
  if b.domainOn (engineDomain n) then
    let c := b.cpu n
    let m : BitVec 32 := 1#32 <<< bit
    let c1 : Cpu :=
      { c with
        eventSrc := c.eventSrc ||| m
        flags := { c.flags with e := c.flags.e || (c.evmask &&& m != 0) } }
    (b.modCpu n fun _ => c1).tryWake n
  else b

/-- An event for every engine named in a mask. -/
def Block.eventAll (b : Block) (mask bit : Nat) : Block :=
  (List.range 12).foldl (fun c n => if bitSet mask n then c.event n bit else c) b

/-- MS-L and FE lose or gain TI_TICKS as their time base: TB_SWITCH is set, which ends a WUNTIL in progress with E 1
whatever EVMASK holds (R456; DEDUCED, log entry 214). -/
def Block.tbSwitch (b : Block) : Block :=
  [4, 10].foldl (fun (c : Block) n =>
    (c.modCpu n fun x =>
      match x.run with
      | .wuntil _ => { x with flags := { x.flags with e := true } }
      | _ => x).event n 16) b

end Sys2Proof.Machine
end

