-- ==== Sys2Proof/Machine/Queue.lean ====
section
/-!
DEFINITION. Forwarding after acceptance: classification, the miss port, enqueueing, shapers, Ethernet transmission,
descriptor rings and queue sampling (R264 to R292).
-/

namespace Sys2Proof.Machine

/-! ### Enqueueing (R239, R279, R282) -/

/-- The shaper that a queue names, if any (R285). -/
def Block.shaperOf (b : Block) (q : Nat) : Option Nat :=
  let s := b.get Obj.queueShaper q
  if s = 65535 then none else some s

/-- A frame joins a queue: its journal entry takes QUEUE and SEQ, a cane frame its cane number in the same commit
(R239), and it stands behind every frame of the queue. A queue that names no shaper releases it at once; one whose
head frame arrives joins its shaper's round (R285). -/
def Block.enqueue (b : Block) (fid q : Nat) : Block :=
  match b.frame? fid with
  | none => b
  | some f =>
    let cane := decide (4352 ≤ q) && decide (q < 4608)
    let srow := q - 4352
    let n := if cane then b.get Obj.streamTxNext srow else assocNat b.fwd.queueSeq q
    let f1 := { f with
      queue := q, seq := n % cseqMod, cseq := if cane then some n else none
      released := (b.shaperOf q).isNone, missed := none }
    let waits := b.frames.any fun (x : Frame) => x.id != fid && x.queue == q && !x.released
    let b1 := { b with
      frames := (b.frames.filter fun (x : Frame) => x.id != fid) ++ [f1]
      fwd := { b.fwd with
        misses := b.fwd.misses.filter fun m => m.fid != fid
        round := if waits then b.fwd.round else b.fwd.round.filter (· != q) ++ [q] } }
    if cane then b1.put Obj.streamTxNext ((n + 1) % cseqMod) srow
    else { b1 with fwd := { b1.fwd with queueSeq := assocPut b1.fwd.queueSeq q (n + 1) } }

/-! ### Flow keys, routes and the bridge table (R275 to R278) -/

/-- The flow key of R275 as one number of 40 octets, first octet most significant. -/
def flowKeyOf (zone : Nat) (ip : IpInfo) : Nat :=
  let ports := ip.proto == 6 || ip.proto == 17 || ip.proto == 136 || ip.proto == 132
  let a (x : Nat) := if ip.ver = 4 then x % 2 ^ 32 * 2 ^ 96 else x % 2 ^ 128
  let hi := ((ip.ver * 256 + zone) * 256 + ip.proto) * 256
  ((hi * 65536 + (if ports then ip.sport else 0)) * 65536 + (if ports then ip.dport else 0)) * 2 ^ 256 +
    a ip.src * 2 ^ 128 + a ip.dst

/-- The bucket of a flow key: bits 11 to 0 of its CRC-32C (R275). -/
def flowBucket (key : Nat) : Nat := crc32c (octetsBE 40 key) % 4096

/-- The row of a valid flow with this key (R275). -/
def Block.flowHitRow (b : Block) (key : Nat) : Option Nat :=
  let base := 4 * flowBucket key
  [base, base + 1, base + 2, base + 3].find? fun r => b.is Obj.flowValid r && b.get Obj.flowKey r == key

/-- A flow is inserted into the lowest free way of its bucket (R276): RANGE with the key present, BUSY with all four
ways taken. -/
def Block.insertFlow (b : Block) (key action target cls idle : Nat) : Nat × Nat × Block :=
  if (b.flowHitRow key).isSome then (6, 0xFFFFFFFF, b)
  else
    let base := 4 * flowBucket key
    match [base, base + 1, base + 2, base + 3].find? fun r => !b.is Obj.flowValid r with
    | none => (9, 0xFFFFFFFF, b)
    | some r =>
      let b1 := (((b.put Obj.flowValid 1 r).put Obj.flowKey key r).put Obj.flowAction action r).put Obj.flowTarget target r
      let b2 := ((b1.put Obj.flowClass cls r).put Obj.flowIdle idle r).put Obj.flowHits 0 r
      (0, r, { b2 with fwd := { b2.fwd with flowHit := assocPut b2.fwd.flowHit r b2.now } })

/-- The objects of a flow row. -/
def flowRegs : List Reg :=
  [Obj.flowValid, Obj.flowKey, Obj.flowAction, Obj.flowTarget, Obj.flowClass, Obj.flowIdle, Obj.flowHits]

/-- A flow row is freed (R276). -/
def Block.freeFlow (b : Block) (r : Nat) : Block :=
  let b1 := b.clearRow flowRegs r
  { b1 with fwd := { b1.fwd with flowHit := assocDel b1.fwd.flowHit r } }

/-- A route matches an address of its family (R277). -/
def Block.routeMatches (b : Block) (r ver addr : Nat) : Bool :=
  b.get Obj.routeFamily r == ver &&
    b.get Obj.routePrefix r / 2 ^ (128 - b.get Obj.routeLen r) == addr / 2 ^ (128 - b.get Obj.routeLen r)

/-- The valid route of the longest prefix for a destination (R277). -/
def Block.routeFor (b : Block) (ip : IpInfo) : Option Nat :=
  let addr := if ip.ver = 4 then ip.dst % 2 ^ 32 * 2 ^ 96 else ip.dst
  (b.listedRows Obj.routeValid).foldl (fun best r =>
    if b.is Obj.routeValid r && b.routeMatches r ip.ver addr then
      match best with
      | some q => if b.get Obj.routeLen q < b.get Obj.routeLen r then some r else best
      | none => some r
    else best) none

/-- The bridge row of a key (R278). -/
def Block.bridgeRow (b : Block) (bd mac : Nat) : Option Nat :=
  (b.listedRows Obj.bridgeState).find? fun r => b.get Obj.bridgeBd r == bd && b.get Obj.bridgeMac r == mac

/-- The destination that a frame's ingress names when its source is learned: KIND and DEST of R279; none for an engine.
A port is named by the first queue bound to it by default. -/
def Ctx.asDest : Ctx → Option (Nat × Nat)
  | .eth port _ _ => some (1, 4096 + 128 * port)
  | .station row _ => some (2, row)
  | .cane link _ => some (3, link)
  | .neighbour row => some (4, row)
  | .engine _ _ => none

/-- The source of a frame is learned in its bridge domain (R278). -/
def Block.learn (b : Block) (bd mac : Nat) (c : Ctx) : Block :=
  match c.asDest with
  | none => b
  | some (kind, dest) =>
    let seen (b : Block) (r : Nat) : Block :=
      { b with fwd := { b.fwd with bridgeSeen := assocPut b.fwd.bridgeSeen r b.now } }
    match b.bridgeRow bd mac with
    | some r =>
      if b.get Obj.bridgeState r = 2 then b
      else seen ((b.put Obj.bridgeDestKind kind r).put Obj.bridgeDest dest r) r
    | none =>
      match (List.range 4096).find? fun r => b.get Obj.bridgeState r == 0 with
      | none => b.add Obj.learnFull
      | some r =>
        seen (((((b.put Obj.bridgeState 1 r).put Obj.bridgeBd bd r).put Obj.bridgeMac mac r).put Obj.bridgeDestKind kind
          r).put Obj.bridgeDest dest r) r

/-- The objects of a bridge row. -/
def bridgeRegs : List Reg := [Obj.bridgeState, Obj.bridgeBd, Obj.bridgeMac, Obj.bridgeDestKind, Obj.bridgeDest]

/-- A bridge row is freed. -/
def Block.freeBridge (b : Block) (r : Nat) : Block :=
  let b1 := b.clearRow bridgeRegs r
  { b1 with fwd := { b1.fwd with bridgeSeen := assocDel b1.fwd.bridgeSeen r } }

/-! ### Classification (R274, R279, R280) -/

/-- The outcome of classification: a queue, the discard sink, or an exception. -/
inductive Verdict where
  | queue (q : Nat)
  | discard
  | exception (code : Nat)
  deriving DecidableEq, Repr

/-- The egress queue of a destination KIND and TARGET with a class, if the destination is in use (R279). -/
def Block.egress (b : Block) (kind target cls : Nat) : Option Nat :=
  match kind with
  | 1 => if 4096 ≤ target + cls && decide (target + cls < 4352) then some (target + cls) else none
  | 2 => if target < 512 && b.get Obj.staState target == 2 then some (8 * target + cls) else none
  | 3 => if target < 32 && b.is Obj.caneEnable target then some (4352 + 8 * target + cls) else none
  | 4 => if target < 1024 && b.nbrUsed target then some (4608 + target) else none
  | _ => none

/-- A frame is too long for the cane stream of a queue (R231): it is counted without its FCS. -/
def Block.tooLong (b : Block) (q len : Nat) : Bool :=
  decide (4352 ≤ q) && decide (q < 4608) && decide (b.get Obj.caneCaneMtu ((q - 4352) / 8) < len - 4)

/-- The octets of the IP packet in a frame: less the MAC header, a tag and the FCS. -/
def ipLenOf (p : Packet) : Nat := p.len - 18 - (if p.vlan.isSome then 4 else 0)

/-- The port or ring that serves an Ethernet egress queue: BIND, or with ETH_PAIR the partner of a fenced port that has
taken its queues over (R129, R295). -/
def Block.bindOf (b : Block) (q : Nat) : Nat :=
  let v := b.get Obj.queueBind q
  if v < 2 && b.fwd.moved.getD v false then 1 - v else v

/-- The source address of an egress queue (R279): the router address of its port, BSS or link; open for a neighbour
and for a receive ring (DESIGN CHOICE, log entry 192). -/
def Block.egressMac (b : Block) (q : Nat) : Nat :=
  if q < 4096 then b.get (Obj.bssRouterMac.of (b.staRadio (q / 8))) (b.get Obj.staRadioBss (q / 8) % 16)
  else if q < 4352 then (if b.bindOf q < 2 then b.get Obj.ethRouterMac (b.bindOf q) else Config.egressMac q)
  else if q < 4608 then b.get Obj.caneRouterMac ((q - 4352) / 8)
  else Config.egressMac q

/-- An IP header as it leaves: the TTL falls by 1, and an IPv4 checksum rises by the 0x0100 that its word has lost. -/
def IpInfo.hop (i : IpInfo) : IpInfo :=
  { i with
    ttl := i.ttl - 1
    csum := if i.ver = 4 then (i.csum + 256) % 65536 + (i.csum + 256) / 65536 else i.csum }

/-- The routed frame as it leaves by a queue: the TTL falls by 1, the egress gives the source, the next hop the
destination and the tag, whose PCP is 0 (R279; DESIGN CHOICE, log entry 192). A verdict without a next hop leaves
destination and tag. -/
def Block.rewrite (b : Block) (nh : Option Nat) (q : Nat) (p : Packet) : Packet :=
  let p1 := { p with ip := p.ip.map IpInfo.hop, src := b.egressMac q }
  match nh with
  | none => p1
  | some r =>
    let tag := if b.get Obj.nhVlan r = 65535 then none else some (b.get Obj.nhVlan r, 0)
    { p1 with
      dst := b.get Obj.nhDstMac r
      vlan := tag
      len := p.len - (if p.vlan.isSome then 4 else 0) + (if tag.isSome then 4 else 0) }

/-- The destination of a queue is in use: the station, link or neighbour of its row (R279). -/
def Block.queueUsed (b : Block) (q : Nat) : Bool :=
  if q < 4096 then b.get Obj.staState (q / 8) == 2
  else if q < 4352 then true
  else if q < 4608 then b.is Obj.caneEnable ((q - 4352) / 8)
  else decide (q < 5632) && b.nbrUsed (q - 4608)

/-- The verdict of a queue for a frame as it would leave (R231, R279). -/
def Block.viaQueue (b : Block) (q : Nat) (p : Packet) : Verdict :=
  if !b.queueUsed q then .exception 6 else if b.tooLong q p.len then .exception 7 else .queue q

/-- The verdict of a next hop for a routed frame (R274 step 5, R279). -/
def Block.viaNextHop (b : Block) (nh cls : Nat) (p : Packet) : Verdict :=
  match b.egress (b.get Obj.nhKind nh) (b.get Obj.nhTarget nh) cls with
  | none => .exception 6
  | some q =>
    if b.get Obj.nhDstMac nh = 0 then .exception 6
    else if b.get Obj.nhMtu nh < ipLenOf p then .exception 7
    else b.viaQueue q (b.rewrite (some nh) q p)

/-- The router address of an ingress context, if it has one (R274 step 2). -/
def Block.routerMac (b : Block) (c : Ctx) : Option Nat :=
  let v := match c with
    | .eth port _ _ => b.get Obj.ethRouterMac port
    | .station row _ => b.get (Obj.bssRouterMac.of (b.staRadio row)) (b.get Obj.staRadioBss row % 16)
    | .cane link _ => b.get Obj.caneRouterMac link
    | _ => 0
  if v = 0 then none else some v

/-- The zone, bridge domain and learning of a context's row (R267, R278). -/
def Block.ctxZone (b : Block) (c : Ctx) : Nat × Nat × Bool :=
  match b.ctxRow c with
  | some r => (b.get Obj.ictxZone r, b.get Obj.ictxBd r, b.is Obj.ictxLearn r)
  | none => (0, 65535, false)

/-- The IP header of a frame that is routed (R274 step 2). -/
def Block.routed (b : Block) (c : Ctx) (p : Packet) : Option IpInfo :=
  if b.routerMac c = some p.dst then p.ip else none

/-- The class of a frame without a flow row (R279). -/
def Block.classOf (b : Block) (ip : Option IpInfo) (p : Packet) : Nat :=
  match ip with
  | some i => octAt (b.get Obj.dscpMap) 64 (i.dscp % 64) % 8
  | none =>
    match p.vlan with
    | some (_, pcp) => octAt (b.get Obj.pcpMap) 8 (pcp % 8) % 8
    | none => 0

/-- The flow bucket of a frame for R118 and R281: 0xFFFF for a frame that is not routed. -/
def Block.bucketOf (b : Block) (f : Frame) : Nat :=
  match b.routed f.ctx f.pkt with
  | some ip => flowBucket (flowKeyOf (b.ctxZone f.ctx).1 ip)
  | none => 65535

/-- The verdict on a routed frame from the flow table or the route table (R274 steps 2 to 5). -/
def Block.routeVerdict (b : Block) (zone : Nat) (ip : IpInfo) (p : Packet) : Verdict × Option Nat :=
  if ip.odd then (.exception 4, none)
  else if ip.bad then (.exception 8, none)
  else
    match b.flowHitRow (flowKeyOf zone ip) with
    | some r =>
      let cls := b.get Obj.flowClass r % 8
      if ip.ttl ≤ 1 then (.exception 3, some r)
      else
        match b.get Obj.flowAction r with
        | 0 => (b.viaNextHop (b.get Obj.flowTarget r) cls p, some r)
        | 1 => (b.viaQueue (b.get Obj.flowTarget r) p, some r)
        | _ => (.discard, some r)
    | none =>
      match b.routeFor ip with
      | none => (.exception 2, none)
      | some r =>
        if b.is Obj.routePunt r then (.exception 1, none)
        else if ip.ttl ≤ 1 then (.exception 3, none)
        else (b.viaNextHop (b.get Obj.routeNexthop r) (b.classOf (some ip) p) p, none)

/-- A group destination address: bit 0 of its first octet. -/
def groupMac (mac : Nat) : Bool := mac / 2 ^ 40 % 2 == 1

/-- The verdict on a bridged frame (R274 step 6). -/
def Block.bridgeVerdict (b : Block) (bd : Nat) (p : Packet) : Verdict :=
  if groupMac p.dst then .exception 5
  else
    match b.bridgeRow bd p.dst with
    | none => .exception 5
    | some r =>
      match b.egress (b.get Obj.bridgeDestKind r) (b.get Obj.bridgeDest r) (b.classOf none p) with
      | none => .exception 6
      | some q => b.viaQueue q p

/-- The counter of an exception class (R280, R294). -/
def exceptionReg (code : Nat) : Reg :=
  match code with
  | 1 => Obj.exceptions1
  | 2 => Obj.exceptions2
  | 3 => Obj.exceptions3
  | 4 => Obj.exceptions4
  | 5 => Obj.exceptions5
  | 6 => Obj.exceptions6
  | 7 => Obj.exceptions7
  | _ => Obj.exceptions8

/-- A frame joins the miss queue, which stands in acceptance order, with its exception code; a queue that was empty
signals PE0 to PE3 (R280, R453). -/
def Block.miss (b : Block) (f : Frame) (code : Nat) : Block :=
  let z := b.ctxZone f.ctx
  let empty := b.fwd.misses.all fun m => m.holder.isSome
  let m : Miss := { fid := f.id, code, zone := z.1, row := b.ctxRow f.ctx, bucket := b.bucketOf f }
  let rest := b.fwd.misses.filter fun x => x.fid != f.id
  let all := sortBy (fun x y => decide (x.fid ≤ y.fid)) (rest ++ [m])
  let b1 := ({ b with fwd := { b.fwd with misses := all } }).add (exceptionReg code)
  let b2 := b1.modFrame f.id fun x => { x with missed := some code }
  if empty then (((b2.event 5 15).event 6 15).event 7 15).event 8 15 else b2

/-- A verdict is carried out on a frame. -/
def Block.carryOut (b : Block) (f : Frame) (v : Verdict) : Block :=
  match v with
  | .queue q => b.enqueue f.id q
  | .discard => b.deliver f.id
  | .exception code => b.miss f code

/-- The next hop that a routed verdict used, for the rewriting of the header. -/
def Block.nextHopUsed (b : Block) (flow : Option Nat) (ip : IpInfo) : Option Nat :=
  match flow with
  | some r => if b.get Obj.flowAction r = 0 then some (b.get Obj.flowTarget r) else none
  | none => (b.routeFor ip).map fun r => b.get Obj.routeNexthop r

/-- Classification of one frame in the order of R274. -/
def Block.classifyNow (b : Block) (f : Frame) : Block :=
  let z := b.ctxZone f.ctx
  let b0 := if z.2.1 != 65535 && z.2.2 then b.learn z.2.1 f.pkt.src f.ctx else b
  match b0.routed f.ctx f.pkt with
  | some ip =>
    let v := b0.routeVerdict z.1 ip f.pkt
    let b1 := match v.2 with
      | some r => { b0 with fwd := { b0.fwd with flowHit := assocPut b0.fwd.flowHit r b0.now } }.add Obj.flowHits 1 r
      | none => b0
    match v.1 with
    | .queue q =>
      (b1.modFrame f.id fun x => { x with pkt := b1.rewrite (b1.nextHopUsed v.2 ip) q x.pkt }).enqueue f.id q
    | w => b1.carryOut f w
  | none =>
    if z.2.1 != 65535 then b0.carryOut f (b0.bridgeVerdict z.2.1 f.pkt)
    else (b0.deliver f.id).add Obj.classDiscard

/-- No earlier frame of the same context waits to be classified, lies in landing or is with a packet engine: it could
go to the same egress queue, and so be of the same ordered stream (R110, R111, R118; DEDUCED, log entry 173). -/
def Block.mayClassify (b : Block) (f : Frame) : Bool :=
  f.queue == 8191 && f.landed.isNone && f.missed.isNone && !b.isHeld f.id &&
    ((b.frames.takeWhile fun g => g.id != f.id).all fun g =>
      !(g.queue == 8191 && g.ctx == f.ctx && !b.isHeld g.id))

/-- CLASSIFY_FRAME: an accepted frame whose turn it is is classified and enqueued (R274). -/
def Block.classify (b : Block) (fid : Nat) : Block :=
  match b.frame? fid with
  | none => b
  | some f => if b.mayClassify f then b.classifyNow f else b

/-! ### The miss port (R281) -/

/-- A read of MISS_TAKE by engine `n`: the next miss becomes its own, or HANDLE reads 0xFFFF. The answer is the
OCT[32] value, first octet most significant, its fields little-endian; BUF is the allocator's address (DESIGN CHOICE,
log entry 17). -/
def Block.missTake (b : Block) (n : Nat) : Nat × Block :=
  let none_ : Nat := 65535 * 2 ^ 240
  if n < 5 || 8 < n then (none_, b)
  else if 4 ≤ (b.fwd.misses.filter fun m => m.holder == some n).length then (none_, b)
  else
    match b.fwd.misses.find? fun m => m.holder.isNone with
    | none => (none_, b)
    | some m =>
      let h := b.fwd.nextHandle % 65535
      let ms := b.fwd.misses.map fun x => if x.fid == m.fid then { x with holder := some n, handle := h } else x
      let b1 := { b with fwd := { b.fwd with misses := ms, nextHandle := b.fwd.nextHandle + 1 } }
      let len := match b.frame? m.fid with
        | some f => f.pkt.len
        | none => 0
      let octs := octetsLE 2 h ++ [BitVec.ofNat 8 m.code, BitVec.ofNat 8 m.zone] ++
        octetsLE 4 (m.row.getD 0xFFFFFFFF) ++ octetsLE 5 (bufferOf m.fid) ++ [0#8] ++ octetsLE 2 len ++
        octetsLE 2 m.bucket ++ List.replicate 14 0#8
      (ofOctetsBE octs, b1)

/-- A write of VERDICT (R281): STALE for a handle that the writing engine does not hold, RANGE for a field out of range;
else the verdict commits whole, and a flow may be installed. -/
def Block.verdict (b : Block) (n v : Nat) : Nat × Block :=
  let fld (i k : Nat) := octFieldLE v 16 i k
  if 2 < fld 2 1 || 7 < fld 3 1 || (fld 2 1 == 0 && decide (1023 < fld 4 2)) || (fld 2 1 == 1 && decide (5631 < fld 6 2)) ||
      1 < fld 8 1 || fld 11 5 != 0 then (6, b)
  else
    match b.fwd.misses.find? fun m => m.holder == some n && m.handle == fld 0 2 with
    | none => (13, b)
    | some m =>
      match b.frame? m.fid with
      | none => (13, b)
      | some f =>
        let cls := fld 3 1
        let ip := b.routed f.ctx f.pkt
        let inst := match ip with
          | some i =>
            if fld 8 1 = 1 then
              let r := b.insertFlow (flowKeyOf m.zone i) (fld 2 1) (if fld 2 1 = 0 then fld 4 2 else fld 6 2) cls (fld 9 2)
              if r.1 = 9 then b.add Obj.installFail else r.2.2
            else b
          | none => b
        let ms := inst.fwd.misses.filter fun x => x.fid != m.fid
        let b1 := ({ inst with fwd := { inst.fwd with misses := ms } }).modFrame f.id fun x => { x with missed := none }
        let nh := if fld 2 1 = 0 then some (fld 4 2) else none
        let v := match fld 2 1 with
          | 0 => b1.viaNextHop (fld 4 2) cls f.pkt
          | 1 => b1.viaQueue (fld 6 2) f.pkt
          | _ => Verdict.discard
        match v with
        | .queue q =>
          let b2 := if ip.isSome then b1.modFrame f.id fun x => { x with pkt := b1.rewrite nh q x.pkt } else b1
          (0, b2.enqueue f.id q)
        | w => (0, b1.carryOut f w)

/-! ### Shapers (R285, R286) -/

/-- The bucket of a shaper; one that has released nothing yet is full (DESIGN CHOICE, log entry 25). -/
def Block.shapBucket (b : Block) (row : Nat) : Bucket :=
  (assocGet b.fwd.shap row).getD { tokens := (b.get Obj.shaperBurst row : Int) * tokenUnit, last := b.now }

/-- The bucket of a shaper brought to the present tick. -/
def Block.shapNow (b : Block) (row : Nat) : Bucket :=
  (b.shapBucket row).accrue (b.get Obj.shaperRate row) (b.get Obj.shaperBurst row) b.now

/-- The counted length of a frame at a shaper (R285). -/
def Block.counted (b : Block) (row len : Nat) : Int :=
  max 1 ((len : Int) + b.geti Obj.ovhOverhead (b.get Obj.shaperProfile row))

/-- The frames that wait for the release of a shaper. -/
def Block.shaperWaits (b : Block) (row : Nat) : List Frame :=
  b.frames.filter fun f => f.queue != 8191 && !f.released && b.shaperOf f.queue == some row

/-- The frame that a shaper would release next: the head of the first queue of its round, in which a queue stands
since its head frame arrived and goes to the end when it is served (R285; DEDUCED, log entry 193). -/
def Block.shaperNext (b : Block) (row : Nat) : Option Frame :=
  let fs := b.shaperWaits row
  match b.fwd.round.find? fun q => fs.any fun f => f.queue == q with
  | some q => fs.find? fun f => f.queue == q
  | none => none

/-- A write of SHAPER of a queue: the queue joins its new shaper's round; with none its frames are released at once
(R285). -/
def Block.writeShaperOf (b : Block) (r : Reg) (q v : Nat) : Nat × Block :=
  let b1 := { b with fwd := { b.fwd with round := b.fwd.round.filter (· != q) ++ [q] } }.put r v q
  (0, if v = 65535 then { b1 with frames := b1.frames.map fun f => if f.queue = q then { f with released := true } else f } else b1)

/-- The next head in round robin after the queue served last: the lowest queue above it, else the lowest. -/
def nextInRound (heads : List Frame) (last : Nat) : Option Frame :=
  let least (l : List Frame) : Option Frame :=
    l.foldl (fun best f => match best with
      | some g => if f.queue < g.queue then some f else some g
      | none => some f) none
  match least (heads.filter fun f => decide (last < f.queue)) with
  | some f => some f
  | none => least heads

/-- SHAPER_RELEASE: with tokens at 0 or more the shaper releases the head of its next queue and charges it (R285). -/
def Block.shaperRelease (b : Block) (row : Nat) : Block :=
  let k := b.shapNow row
  match b.shaperNext row with
  | none => b
  | some f =>
    if 0 ≤ k.tokens then
      let k1 := { k with tokens := k.tokens - b.counted row f.pkt.len * tokenUnit }
      let w := { b.fwd with shap := assocPut b.fwd.shap row k1, round := b.fwd.round.filter (· != f.queue) ++ [f.queue] }
      { b with fwd := w }.modFrame f.id fun x => { x with released := true }
    else b

/-! ### Ethernet (R264 to R266, R284) -/

/-- An Ethernet port serves: its domain on, not fenced, its mode not off. -/
def Block.ethServes (b : Block) (port : Nat) : Bool :=
  b.domainOn 7 && !bitSet (b.get Obj.fabricFenced) (17 + port) && b.get Obj.ethMode port != 0

/-- An Ethernet port carries a frame: it serves and its link is up. -/
def Block.ethUp (b : Block) (port : Nat) : Bool := b.ethServes port && b.get Obj.ethLink port != 0

/-- The rate of a port's line in Mbit/s, by LINK (R293). -/
def ethRate (code : Nat) : Nat := [0, 10000, 5000, 2500, 1000, 100, 10].getD code 0

/-- The ticks of a number of pause quanta, 512 bit times each, on a port's line (R264, R265). -/
def Block.quantaTicks (b : Block) (port quanta : Nat) : Nat :=
  let rate := ethRate (b.get Obj.ethLink port)
  (quanta * 512 * 320 + rate - 1) / rate

/-- A port's flow control covers a priority, 8 standing for all of PAUSE (R263, R295). -/
def Block.flowCovers (b : Block) (port prio : Nat) : Bool :=
  (b.get Obj.ethFlowCtrl port == 1 && prio == 8) || (b.get Obj.ethFlowCtrl port == 2 && decide (prio < 8))

/-- The PAUSE or PFC received by a port (R264): priorities, 8 for PAUSE, with their quanta. It acts only under the
port's own flow control; quanta 0 resume. -/
def Block.pauseRx (b : Block) (port : Nat) (pause : List (Nat × Nat)) : Block :=
  let new := pause.foldl (fun l x =>
    if !b.flowCovers port x.1 then l
    else if x.2 = 0 then assocDel l x.1
    else assocPut l x.1 (b.now + b.quantaTicks port x.2)) (b.fwd.paused.getD port [])
  { b with fwd := { b.fwd with paused := b.fwd.paused.set port new } }

/-- The quanta of priorities of a mask have run out (R264). -/
def Block.pauseEnd (b : Block) (port mask : Nat) : Block :=
  { b with fwd := { b.fwd with
      paused := modAt b.fwd.paused port fun l => l.filter fun x => !(bitSet mask x.1 && decide (x.2 ≤ b.now)) } }

/-- The ingress context of a frame at a port (R111, R267): 0xFFFF for an untagged frame. -/
def ethCtx (port : Nat) (p : Packet) : Ctx :=
  match p.vlan with
  | some (vid, pcp) => .eth port vid pcp
  | none => .eth port 65535 0

/-- An Ethernet frame dropped while acceptance is closed counts as a drain drop while a drain runs (R96 step 2), as a
reset drop during a warm reset (R126 step 1). -/
def Block.drainDrop (b : Block) : Block :=
  if b.mode.drain.isSome then { b with fwd := { b.fwd with drainDrops := b.fwd.drainDrops + 1 } }
  else if b.boot.isSome then { b with fwd := { b.fwd with resetDrops := b.fwd.resetDrops + 1 } }
  else b

/-- The tick at which the start of a frame reached a port whose last octet arrives now: 8 octets of preamble and the
frame at the line's rate (R97). -/
def Block.lineStart (b : Block) (port len : Nat) : Nat :=
  let rate := ethRate (b.get Obj.ethLink port)
  if rate = 0 then b.now else b.now - ((len + 8) * 8 * 320 + rate - 1) / rate

/-- The receive stamp of a frame whose last octet arrives now (R334): the end of its start-of-frame delimiter lies the
frame's own octets back. -/
def Block.rxPortStamp (b : Block) (port len : Nat) : Nat :=
  let rate := ethRate (b.get Obj.ethLink port)
  b.rxStamp port (b.now * rate - len * 2560) rate

/-- A frame received at a port (R264, R39, R114): FCS and length checks, PAUSE consumed, then policed, placed,
journalled and accepted while acceptance is open. -/
def Block.ethReceive (b : Block) (port : Nat) (p : Packet) (fcsOk : Bool) (pause : Option (List (Nat × Nat))) : Block :=
  if !b.ethUp port then b
  else if !fcsOk then b.add Obj.ethRxFcsDrop 1 port
  else if b.get Obj.ethMaxFrame port < p.len then b.add Obj.ethRxLongDrop 1 port
  else
    let b1 := b.add Obj.ethRxFrames 1 port
    match pause with
    | some l => b1.pauseRx port l
    | none =>
      if !(b1.accNow (b1.lineStart port p.len)).eth then b1.drainDrop
      else
        let c := ethCtx port p
        let d := b1.police c p.len
        if !d.1 then d.2
        else
          match d.2.place p.len with
          | none => d.2.add Obj.ethBufferDrop 1 port
          | some spill =>
            if d.2.journalFree then d.2.accept c p none spill (some (d.2.rxPortStamp port p.len, port)) else d.2.add Obj.journalDrops

/-- The priority of a frame under PFC: the PCP of its tag, 0 untagged. -/
def prioOf (p : Packet) : Nat :=
  match p.vlan with
  | some (_, pcp) => pcp % 8
  | none => 0

/-- A frame is held back by a pause of a port (R264). -/
def Block.isPaused (b : Block) (port : Nat) (p : Packet) : Bool :=
  (b.fwd.paused.getD port []).any fun x => b.flowCovers port x.1 && (x.1 == 8 || x.1 == prioOf p)

/-- The head frame that each queue bound to a port or ring offers: the first released frame of the queue, queues in
rising order. -/
def Block.boundHeads (b : Block) (bind : Nat) : List Frame :=
  let fs := b.frames.filter fun f =>
    decide (4096 ≤ f.queue) && decide (f.queue < 4352) && f.released && b.bindOf f.queue == bind && f.state != .sent &&
      !(b.fwd.filled.any fun x => x.2.2 == f.id)
  let heads := fs.foldl (fun l f => if l.any fun g => g.queue == f.queue then l else l ++ [f]) []
  sortBy (fun f g => decide (f.queue ≤ g.queue)) heads

/-- The heads of the highest PRIORITY. -/
def Block.topHeads (b : Block) (heads : List Frame) : List Frame :=
  let top := maxOf (heads.map fun f => b.get Obj.queuePriority f.queue)
  heads.filter fun f => b.get Obj.queuePriority f.queue == top

/-- Deficit round robin over the queues of equal PRIORITY (R284): the queue served last goes on while its deficit pays
for its head; then each following queue in turn gains its QUANTUM until one can pay. At most `fuel` visits. -/
def drrPick (heads : List Frame) (quantum : Nat → Nat) : Nat → Nat → List (Nat × Nat) → Option (Frame × List (Nat × Nat))
  | 0, _, _ => none
  | fuel + 1, last, defs =>
    match nextInRound heads last with
    | none => none
    | some f =>
      let d := assocNat defs f.queue + quantum f.queue
      if f.pkt.len ≤ d then some (f, assocPut defs f.queue (d - f.pkt.len))
      else drrPick heads quantum fuel f.queue (assocPut defs f.queue d)

/-- The frame that a port or ring takes next from its bound queues, with the new deficits (R284). -/
def Block.pickBound (b : Block) (bind : Nat) (ok : Frame → Bool) : Option (Frame × Block) :=
  let heads := b.topHeads ((b.boundHeads bind).filter ok)
  let last := assocNat b.fwd.turn bind
  let stay := match heads.find? fun f => f.queue == last with
    | some f => if f.pkt.len ≤ assocNat b.fwd.deficit last then some f else none
    | none => none
  let pick := match stay with
    | some f => some (f, assocPut b.fwd.deficit last (assocNat b.fwd.deficit last - f.pkt.len))
    | none => drrPick heads (fun q => b.get Obj.queueQuantum q) (160 * (heads.length + 1)) last b.fwd.deficit
  match pick with
  | none => none
  | some (f, defs) =>
    some (f, { b with fwd := { b.fwd with deficit := defs, turn := assocPut b.fwd.turn bind f.queue } })

/-- The lifetime of a frame has passed before its first transmission (R121 code 2): a start in the tick of the expiry
goes ahead. -/
def Block.expired (b : Block) (f : Frame) : Bool :=
  let l := b.get Obj.queueLifetime f.queue
  !f.air && l != 0 && decide (ms l < b.now - f.at_)

/-- ETH_TX_END: the last FCS octet leaves the SerDes, the port's log of the last 64 frames records it and the frame is
delivered (R112, R125). -/
def Block.ethEnd (b : Block) (port : Nat) : Block :=
  match b.fwd.line.getD port none with
  | none => b
  | some fid =>
    ({ b with fwd := { b.fwd with
        line := b.fwd.line.set port none
        completed := modAt b.fwd.completed port fun l => (l ++ [fid]).drop (l.length - 63) } }.deliver fid).add Obj.ethTxFrames 1 port

/-- The priorities that a port's XOFF names: all for PAUSE, with PFC those whose class has frames of the port's own
ingress queued (R265). -/
def Block.xoffMask (b : Block) (port : Nat) : Nat :=
  if b.get Obj.ethFlowCtrl port = 1 then 256
  else
    let cls (pcp : Nat) := octAt (b.get Obj.pcpMap) 8 pcp % 8
    let used := (b.frames.filterMap fun f => match f.ctx with
      | .eth q _ pcp => if q == port then some (cls (pcp % 8)) else none
      | _ => none)
    sumOfList ((List.range 8).map fun p => if used.contains (cls p) then 2 ^ p else 0)

/-- The XOFF in force of a port that its flow control can still take back. -/
def Block.xoffNow (b : Block) (port : Nat) : Nat :=
  if !b.ethUp port then 0
  else (b.fwd.xoff.getD port (0, 0)).1 &&& (if b.get Obj.ethFlowCtrl port = 1 then 256 else if b.get Obj.ethFlowCtrl port = 2 then 255 else 0)

/-- The XOFF that a port is to have in force (R265): below XOFF_LEVEL the paused traffic grows by what the port's
ingress holds, above XON_LEVEL it ends, and between the two it stays. -/
def Block.xoffNext (b : Block) (port : Nat) : Nat :=
  if b.get Obj.ethFlowCtrl port = 0 || !b.ethUp port then 0
  else if b.bufferLeft * 100 < b.get Obj.xoffLevel * b.bufferSpace then b.xoffNow port ||| b.xoffMask port
  else if b.get Obj.xonLevel * b.bufferSpace < b.bufferLeft * 100 then 0
  else b.xoffNow port

/-- XOFF when the free part falls below XOFF_LEVEL, XON when it rises above XON_LEVEL (R265). -/
def Block.flowControl (b : Block) (port : Nat) : Block :=
  let old := b.xoffNow port
  let new := b.xoffNext port
  let b1 := { b with fwd := { b.fwd with
      xoff := modAt b.fwd.xoff port fun x => (new, if new = old then x.2 else b.now) } }
  if new = old then b1 else if new = 0 then b1.emit (.pause port old 0) else b1.emit (.pause port new 65535)

/-- PAUSE_REFRESH: every half of the time of its quanta the port sends an XOFF again while it lasts (R265). -/
def Block.pauseRefresh (b : Block) (port : Nat) : Block :=
  let m := b.xoffNow port
  if m != 0 && decide ((b.fwd.xoff.getD port (0, 0)).2 + (b.quantaTicks port 65535 + 1) / 2 ≤ b.now) then
    { b with fwd := { b.fwd with xoff := b.fwd.xoff.set port (m, b.now) } }.emit (.pause port m 65535)
  else b

/-! ### Receive rings (R287, R290) -/

/-- A receive ring is in use: enabled, its engine's domain on. -/
def Block.rxRing (b : Block) (row : Nat) : Bool :=
  decide (4 ≤ row % 8) && decide (row < 96) && b.is Obj.ringEnable row && b.domainOn (engineDomain (row / 8))

/-- A write of HEAD of a receive ring delivers the frames of the descriptors passed (R290, R112). -/
def Block.rxHead (b : Block) (row head : Nat) : Block :=
  let size := b.get Obj.ringSize row
  let old := b.get Obj.ringHead row
  let passed := b.fwd.filled.filter fun x => x.1 == row && decide ((x.2.1 + size - old) % size < (head + size - old) % size)
  let b1 := passed.foldl (fun c x => c.deliver x.2.2) b
  b1.put Obj.ringHead (head % 65536) row

/-! ### Sampling (R291, R292) -/

/-- The frames held in a queue. -/
def Block.inQueue (b : Block) (q : Nat) : List Frame := b.frames.filter fun f => f.queue == q

/-- The histogram bin registers in order. -/
def binRegs : List Reg :=
  [Obj.hbinBin1, Obj.hbinBin2, Obj.hbinBin3, Obj.hbinBin4, Obj.hbinBin5, Obj.hbinBin6, Obj.hbinBin7, Obj.hbinBin8] ++
  [Obj.hbinBin9, Obj.hbinBin10, Obj.hbinBin11, Obj.hbinBin12, Obj.hbinBin13, Obj.hbinBin14, Obj.hbinBin15] ++
  [Obj.hbinBin16, Obj.hbinBin17, Obj.hbinBin18, Obj.hbinBin19, Obj.hbinBin20, Obj.hbinBin21, Obj.hbinBin22] ++
  [Obj.hbinBin23, Obj.hbinBin24, Obj.hbinBin25, Obj.hbinBin26, Obj.hbinBin27, Obj.hbinBin28, Obj.hbinBin29] ++
  [Obj.hbinBin30, Obj.hbinBin31, Obj.hbinBin32]

/-- The bin register of a number. -/
def binReg (i : Nat) : Reg := binRegs.getD i Obj.hbinBin32

/-- Every bin of a histogram row is zero (R292). -/
def Block.clearHist (b : Block) (h : Nat) : Block := binRegs.foldl (fun c r => c.put r 0 h) b

/-- One sample of a queue (R291): depths, head-of-line sojourn, maxima and EWMA. -/
def Block.sampleQueue (b : Block) (q : Nat) : Block :=
  let fs := b.inQueue q
  let octs := sumOfList (fs.map (·.pkt.len))
  let soj := match fs with
    | [] => 0
    | f :: _ => (b.now - f.at_) / 320
  let e := b.get Obj.sampEwmaOctets q
  let sh := 2 ^ b.get Obj.ewmaShift
  let e1 : Int := (e : Int) + ((octs : Int) - (e : Int)) / (sh : Int)
  let b1 := ((b.put Obj.sampDepthFrames fs.length q).put Obj.sampDepthOctets octs q).put Obj.sampSojourn
    (min soj 0xFFFFFFFF) q
  let b2 := (b1.put Obj.sampMaxOctets (max octs (b.get Obj.sampMaxOctets q)) q).put Obj.sampMaxSojourn
    (max (min soj 0xFFFFFFFF) (b.get Obj.sampMaxSojourn q)) q
  b2.put Obj.sampEwmaOctets e1.toNat q

/-- One histogram row counts a sample of its queue (R292). -/
def Block.sampleHist (b : Block) (h : Nat) : Block :=
  let q := b.get Obj.histQueue h
  if q = 65535 then b
  else
    let v := if b.get Obj.histMetric h = 0 then b.get Obj.sampSojourn q else b.get Obj.sampDepthOctets q
    b.add (binReg (min 31 (v / b.get Obj.histBinWidth h))) 1 h

/-- The tick at which the next pass of the sampler is due: SAMPLE_PERIOD after the power-up of Core-A, then after the
last one fell due (R291). -/
def Block.sampleDue (b : Block) : Nat := b.fwd.sampleDue.getD (b.time.coreAAt + us (b.get Obj.samplePeriod))

/-- SAMPLE_PASS: every queue is sampled in ascending order, then the histograms count (R291). A pass that starts after
its period fell due, because the one before it ran to its end, counts in SAMPLE_LATE. Only queues that hold frames or
whose samples are not all zero can change. -/
def Block.samplePass (b : Block) : Block :=
  let due := b.sampleDue
  if !b.coreA || decide (b.now < due) then b else
  let rows := (b.frames.map (·.queue)) ++ b.listedRows Obj.sampDepthFrames ++ b.listedRows Obj.sampEwmaOctets
  let qs := sortBy (fun x y => decide (x ≤ y)) (rows.filter fun q => decide (q < 5632)).eraseDups
  let b1 := qs.foldl (fun c q => c.sampleQueue q) b
  let b2 := (List.range 16).foldl (fun c h => c.sampleHist h) b1
  let b3 := { b2 with fwd := { b2.fwd with sampleDue := some (due + us (b2.get Obj.samplePeriod)) } }
  if due < b.now then b3.add Obj.sampleLate else b3

end Sys2Proof.Machine
end

