-- ==== Sys2Proof/Machine/Time.lean ====
section
/-!
DEFINITION. Network time: the domain servos, switching, slew and steps of presented time, the RTC's alignment, time
triggers, captures, transmit timestamps and the timer/counter block (R321 to R355).
-/

namespace Sys2Proof.Machine

/-! ### Units -/

/-- A TIME112 in units of 2^-16 ns. -/
def t16 (v : Nat) : Int := ofTime112 v / 2 ^ 40

/-- A time in units of 2^-16 ns as TIME112. -/
def ofT16 (n : Int) : Nat := time112 (n * 2 ^ 40)

/-- One microsecond in units of 2^-56 ns. -/
def usUnit : Int := 1000 * 2 ^ 56

/-- The other domain. -/
def otherDom (d : Nat) : Nat := 1 - d

/-- Presented time in units of 2^-16 ns. -/
def Block.presented16 (b : Block) : Int := b.presented / 2 ^ 40

/-! ### Triggers (R338 to R340) -/

/-- A timer channel's enable, prescaler restart and arming by a global start (R343, R348). -/
def Block.countNow (b : Block) (ch : Nat) : Nat :=
  let c := b.timers.getD ch {}
  let low := ch / 2 * 2
  let linked := decide (ch < 8) && b.is Obj.pairLink (ch / 2)
  let c1 := if linked then b.timers.getD low {} else c
  let src := if linked then low else ch
  let ran := if b.is Obj.tmrEnable src && b.get Obj.tmrSource src == 0
    then (b.now - c1.ref) / (b.get Obj.tmrPrescale src + 1) else 0
  let full := c1.count + ran
  let period := b.get Obj.tmrPeriod src + (if linked then b.get Obj.tmrPeriod (low + 1) * 2 ^ 32 else 0)
  let top := if linked then 2 ^ 64 else 2 ^ 32
  let n := if c1.wrap then full % top else full % (period + 1)
  let m := if c1.count ≤ period || c1.wrap then n else full % top
  if linked then (if ch = low then m % 2 ^ 32 else m / 2 ^ 32) else m

/-- A channel's own record changed. -/
def Block.modTimer (b : Block) (ch : Nat) (f : TimerCh → TimerCh) : Block := { b with timers := modAt b.timers ch f }

/-- The channel that holds the events and the count of a channel: the low one of a linked pair (R347). -/
def Block.timerHead (b : Block) (ch : Nat) : Nat :=
  if decide (ch < 8) && b.is Obj.pairLink (ch / 2) then ch / 2 * 2 else ch

/-- A channel is the low one of a linked pair. -/
def Block.linkedLow (b : Block) (ch : Nat) : Bool :=
  decide (ch < 8) && b.is Obj.pairLink (ch / 2) && ch % 2 == 0

/-- The whole count of a channel, 64 bits for a linked pair. -/
def Block.wholeCount (b : Block) (ch : Nat) : Nat :=
  if b.linkedLow ch then b.countNow ch + b.countNow (ch + 1) * 2 ^ 32 else b.countNow ch

/-- PERIOD or COMPARE of a channel, 64 bits for a linked pair. -/
def Block.wholeReg (b : Block) (r : Reg) (ch : Nat) : Nat :=
  b.get r ch + (if b.linkedLow ch then b.get r (ch + 1) * 2 ^ 32 else 0)

/-- An event of a channel sets its bit in EVENTS, and with its bit in EVENT_MASK signals the engines of EVENT_ENGINES
(R342). -/
def Block.timerEvent (b : Block) (ch bit : Nat) : Block :=
  let b1 := b.put Obj.tmrEvents (setBit (b.get Obj.tmrEvents ch) bit) ch
  if bitSet (b.get Obj.tmrEventMask ch) bit then b1.eventAll (b.get Obj.tmrEventEngines ch) 12 else b1

/-- The pin of a PWM channel takes its active or inactive part (R342). -/
def Block.pwmPin (b : Block) (ch : Nat) (active : Bool) : Block :=
  if b.get Obj.tmrMode ch = 3 && decide (ch < 8) && b.pins.timerOut.contains ch != active then
    { b with pins := { b.pins with
        timerOut := if active then b.pins.timerOut ++ [ch] else b.pins.timerOut.filter (· != ch) } }.emit
      (.pin (32 + ch) (active != b.is Obj.tmrOutPol ch))
  else b

/-- The present count is fixed as the count at this tick, the prescaler starting at 0. -/
def Block.holdCount (b : Block) (ch : Nat) : Block :=
  let n := b.wholeCount ch
  b.modTimer ch fun c => { c with count := n, ref := b.now }

/-- The present count is fixed while the prescaler goes on from where it stands. -/
def Block.fixCount (b : Block) (ch : Nat) : Block :=
  let n := b.wholeCount ch
  let part := if b.get Obj.tmrSource ch = 0 then (b.now - (b.timers.getD ch {}).ref) % (b.get Obj.tmrPrescale ch + 1) else 0
  b.modTimer ch fun c => { c with count := n, ref := b.now - part }

/-- The tick at which a counting channel reloads next (R342, R345): after PERIOD, or from a count above it at the
wrap. Channels that count edges reload at an edge. -/
def Block.reloadAt (b : Block) (ch : Nat) : Option Nat :=
  if b.is Obj.tmrEnable ch && b.get Obj.tmrSource ch == 0 then
    let c := b.timers.getD ch {}
    let period := b.wholeReg Obj.tmrPeriod ch
    let top := if b.linkedLow ch then 2 ^ 64 else 2 ^ 32
    let steps := if decide (c.count ≤ period) && !c.wrap then period + 1 - c.count else top - c.count
    some (c.ref + steps * (b.get Obj.tmrPrescale ch + 1))
  else none

/-- A COMPARE that waited for the reload takes effect (R342). -/
def Block.takeBuffered (b : Block) (ch : Nat) : Block :=
  match (b.timers.getD ch {}).buffered with
  | some v => (b.modTimer ch fun c => { c with buffered := none }).put Obj.tmrCompare v ch
  | none => b

/-- An armed compare fires: it disarms and raises the compare event (R343, R344). -/
def Block.fireCompare (b : Block) (ch : Nat) : Block :=
  if (b.timers.getD ch {}).armed then
    ((b.modTimer ch fun c => { c with armed := false }).timerEvent ch 1).pwmPin ch false
  else b

/-- A channel passes PERIOD at a tick, or wraps under R345: it reloads to 0, its compare arms, a buffered COMPARE
takes effect and the period event is raised; a one-shot stops (R342, R343). -/
def Block.reload (b : Block) (ch at_ : Nat) : Block :=
  if b.is Obj.tmrEnable ch then
    let once := b.get Obj.tmrMode ch == 1
    let b1 := b.modTimer ch fun c => { c with count := 0, ref := at_, armed := !once, wrap := false }
    let b2 := if b.linkedLow ch then (b1.takeBuffered ch).takeBuffered (ch + 1) else b1.takeBuffered ch
    let b3 := if once then b2.put Obj.tmrEnable 0 ch else b2
    (b3.timerEvent ch 0).pwmPin ch true
  else b

/-- A channel starts counting from its COUNT with its compare armed (R343, R348). In UHL5120 mode a COMPARE that COUNT
has passed waits for the next cycle (R344). -/
def Block.startTimer (b : Block) (ch : Nat) : Block :=
  let was := b.is Obj.tmrEnable ch
  let b1 := (b.holdCount ch).put Obj.tmrEnable 1 ch
  let ahead := b.get Obj.tmrCmpMode ch == 0 || decide (b.wholeCount ch ≤ b.wholeReg Obj.tmrCompare ch)
  if was then b1 else (b1.modTimer ch fun c => { c with armed := ahead }).pwmPin ch true

/-- A global start releases every armed channel in one tick, and GLOBAL_ARM clears (R348). -/
def Block.globalStart (b : Block) : Block :=
  let arm := b.get Obj.globalArm
  ((List.range 16).foldl (fun c ch => if bitSet arm ch then c.startTimer ch else c) b).put Obj.globalArm 0

/-- The tick at which the scan of the ADC ends: 1 µs for each conversion (R371). -/
def Block.scanEnd (b : Block) : Nat :=
  b.field.scanAt + us (sumOfList ((List.range 13).map fun c => if b.is Obj.adcScan c then b.get Obj.adcOversample c else 0))

/-- A firing for the ADC starts a scan; while one runs, SCAN_OVERRUN counts it, but one in the tick in which the scan
ends starts the next (R371). -/
def Block.adcStart (b : Block) : Block :=
  if !b.field.scanning then { b with field := { b.field with scanning := true, scanAt := b.now } }
  else if b.scanEnd ≤ b.now then { b with field := { b.field with scanNext := true } }
  else b.add Obj.scanOverrun

/-- A firing reaches its target (R340): an ADC scan, FE's control cycle, PPS_OUT, which rises unless it is gated, or a
global start. At a TSCH slot boundary the Radio L edge begins its slot. -/
def Block.trigTarget (b : Block) (row : Nat) : Block :=
  match b.get Obj.trigTarget row with
  | 1 => b.adcStart
  | 2 => b.event 10 13
  | 3 => { b with mac := { b.mac with slotDue := true } }
  | 4 =>
    if b.is Obj.ppsGate && !b.timeValidNow then b
    else { b with pins := { b.pins with ppsOut := true }, time := { b.time with ppsAt := b.now } }.emit (.pin 4 true)
  | 5 => b.globalStart
  | _ => b

/-- TRIGGER_FIRE: an enabled trigger whose NEXT presented time has reached fires (R338): FIRED counts, a one-shot
clears ENABLE, a periodic one sets NEXT := NEXT + PERIOD. -/
def Block.trigFire (b : Block) (row : Nat) : Block :=
  if b.is Obj.trigEnable row && b.coreA && decide (t16 (b.get Obj.trigNext row) ≤ b.presented16) then
    let b1 := b.add Obj.trigFired 1 row
    let b2 :=
      if b.get Obj.trigMode row = 0 then b1.put Obj.trigEnable 0 row
      else b1.put Obj.trigNext (ofT16 (t16 (b.get Obj.trigNext row) + (b.get Obj.trigPeriod row : Int))) row
    b2.trigTarget row
  else b

/-- A trigger whose NEXT is past when it is enabled, or is passed by a forward step (R339): it fires once with LATE; a
periodic one goes on at the first START + k × PERIOD after presented time, MISSED counting the occurrences passed. -/
def Block.trigLateFire (b : Block) (row : Nat) : Block :=
  let now := b.presented16
  let nxt := t16 (b.get Obj.trigNext row)
  if b.is Obj.trigEnable row && decide (nxt < now) then
    let b1 := (b.add Obj.trigFired 1 row).put Obj.trigLate 1 row
    let b2 :=
      if b.get Obj.trigMode row = 0 then b1.put Obj.trigEnable 0 row
      else
        let start := t16 (b.get Obj.trigStart row)
        let per : Int := b.get Obj.trigPeriod row
        let k := if now < start then 0 else (now - start) / per + 1
        let new := start + k * per
        (b1.put Obj.trigNext (ofT16 new) row).add Obj.trigMissed (((new - nxt) / per).toNat - 1) row
    b2.trigTarget row
  else b

/-- Every trigger that a forward step has passed fires late, in the order of the rows. -/
def Block.lateTriggers (b : Block) : Block :=
  if b.coreA then (List.range 16).foldl (fun c r => c.trigLateFire r) b else b

/-- A slotframe is enabled, so that the device holds row 15 (R340). -/
def Block.slotframeOn (b : Block) : Bool :=
  (List.range Obj.sfEnable.rows).any fun r => b.is Obj.sfEnable r

/-- A write of ENABLE of a trigger (R338 to R340): BUSY on a held row 15; 1 sets NEXT := START, and a past NEXT fires
at once. -/
def Block.writeTrigEnable (b : Block) (row v : Nat) : Nat × Block :=
  if row = 15 && b.slotframeOn then (9, b)
  else if v = 0 then (0, b.put Obj.trigEnable 0 row)
  else
    let b1 := (b.put Obj.trigNext (b.get Obj.trigStart row) row).put Obj.trigEnable 1 row
    (0, b1.trigLateFire row)

/-- A write of START, MODE, PERIOD or TARGET of a trigger (R338, R340): TARGET 3 off row 15 and TARGET 4 on a second
row answer RANGE; START, MODE and TARGET answer BUSY while enabled. -/
def Block.writeTrig (b : Block) (r : Reg) (row v : Nat) : Nat × Block :=
  let second := (List.range 16).any fun k => k != row && b.get Obj.trigTarget k == 4
  if r.sub = 5 && ((v = 3 && row != 15) || (v = 4 && second)) then (6, b)
  else if row = 15 && b.slotframeOn then (9, b)
  else if r.sub != 4 && b.is Obj.trigEnable row then (9, b)
  else (0, b.put r v row)

/-- PPS_OUT goes low. -/
def Block.ppsLow (b : Block) : Block := { b with pins := { b.pins with ppsOut := false } }.emit (.pin 4 false)

/-- PPS_WIDTH after its rise, PPS_OUT falls (R340). -/
def Block.ppsFall (b : Block) : Block :=
  if b.pins.ppsOut && decide (b.time.ppsAt + us (b.get Obj.ppsWidth) ≤ b.now) then b.ppsLow else b

/-- PPS_OUT is high while its gate holds it low (R340). -/
def Block.ppsGated (b : Block) : Bool := b.pins.ppsOut && b.is Obj.ppsGate && !b.timeValidNow

/-- The gate takes PPS_OUT low (R340). -/
def Block.ppsHold (b : Block) : Block := if b.ppsGated then b.ppsLow else b

/-! ### Steps and the RTC (R328 to R330) -/

/-- The instant of the next RTC tick. -/
def Block.nextRtcTick (b : Block) : Nat :=
  b.time.rtcRef + ((rtcTicks (b.now - b.time.rtcRef) + 1) * 78125 + 7) / 8

/-- An RTC alignment falls due at the next RTC tick, where there is one to make (R330). -/
def Block.alignSoon (b : Block) : Block :=
  if b.coreA && b.timeValidNow then { b with time := { b.time with alignAt := some b.nextRtcTick } } else b

/-- TIME_VALID takes a value; a change raises its notice (R323, R355). -/
def Block.setValid (b : Block) (v : Bool) : Block :=
  if b.timeValidNow = v then b
  else
    let b1 := (b.put Obj.timeValid (if v then 1 else 0)).notice 0x01B3 Obj.timeValid noRow [if v then 1 else 0]
    if v then b1.alignSoon else { b1 with time := { b1.time with alignAt := none } }

/-- What a step of presented time brings (R328, R330, R339): TIME_STEP at 1 µs or more, a new alignment schedule, and
the triggers that a forward step passes. `old` is presented time before the step. -/
def Block.afterStep (b : Block) (old : Int) : Block :=
  let d := b.presented - old
  if d = 0 then b
  else
    let b1 := if usUnit ≤ d || d ≤ -usUnit then
        b.notice 0x01B2 Obj.presentTime noRow (bytesBE 8 (unsignedOf 8 (d / 2 ^ 40))) else b
    let b2 := b1.alignSoon
    if 0 < d then b2.lateTriggers else b2

/-- The presentation offset brought to this tick. -/
def Block.rebaseP (b : Block) : Block := { b with time := { b.time with p := b.offset, pRef := b.now } }

/-- The presentation offset set. -/
def Block.setP (b : Block) (p : Int) : Block := { b with time := { b.time with p := p, pRef := b.now } }

/-- A domain replaced. -/
def Block.setDom (b : Block) (d : Nat) (x : Domain) : Block := { b with time := b.time.setDom d x }

/-- Presented time steps by the change that `f` makes, with what a step brings. -/
def Block.stepping (b : Block) (f : Block → Block) : Block := (f b).afterStep b.presented

/-- A switch of the presented domain (R327): p keeps presented time continuous, or with STEP_ALLOW 1 presented time
steps. -/
def Block.switchTo (b : Block) (d : Nat) : Block :=
  let old := b.get Obj.presentSel
  let p := b.presented - (b.time.dom d).at b.now
  let b1 := ((b.setP p).put Obj.presentSel d).add Obj.switches
  let b2 := b1.afterStep b.presented
  b2.notice 0x01B1 Obj.presentSel noRow ([old, d] ++ bytesBE 8 (unsignedOf 8 (b2.offset / 2 ^ 40)))

/-- A write of PRESENT_SEL (R327). Naming the present domain switches nothing (DESIGN CHOICE, log entry 30). -/
def Block.writePresentSel (b : Block) (v : Nat) : Nat × Block :=
  if v = b.get Obj.presentSel then (0, b) else (0, b.switchTo v)

/-- A write of STEP_ALLOW (R328): 1 with p not 0 steps presented time at once. -/
def Block.writeStepAllow (b : Block) (v : Nat) : Nat × Block :=
  (0, b.stepping fun c => ((c.rebaseP).put Obj.stepAllow v).rebaseP)

/-- A write of SLEW_RATE: p has fallen at the old rate until now. -/
def Block.writeSlew (b : Block) (v : Nat) : Nat × Block := (0, (b.rebaseP).put Obj.slewRate v)

/-- A write of PRESENT_SET (R329): both domains load the value, p becomes 0, the RTC loads it at its next tick. -/
def Block.writePresentSet (b : Block) (v : Nat) : Nat × Block :=
  let t := ofTime112 v
  let set (x : Domain) : Domain := { x with base := t, ref := b.now }
  let b1 := b.stepping fun c =>
    ((c.setDom 0 (set c.time.a)).setDom 1 (set c.time.b)).setP 0
  (0, { b1 with time := { b1.time with rtcLoad := some (b.nextRtcTick, t) } }.put Obj.presentSet v)

/-- The RTC holds a time from this tick on. -/
def Block.loadRtc (b : Block) (t : Int) : Block :=
  { b with time := { b.time with rtcBase := (t * 32768 / secUnit).toNat % 2 ^ 48, rtcRef := b.now, rtcLoad := none } }

/-- A load that waited for its RTC tick is made when that tick has passed: it counts from the tick. -/
def Block.settleRtc (b : Block) : Block :=
  match b.time.rtcLoad with
  | some (at_, t) =>
    if at_ ≤ b.now then
      { b with time := { b.time with
          rtcBase := (t * 32768 / secUnit).toNat % 2 ^ 48, rtcRef := at_, rtcLoad := none } }
    else b
  | none => b

/-- The tick of the last RTC tick. -/
def Block.lastRtcTick (b : Block) : Nat := b.time.rtcRef + (rtcTicks (b.now - b.time.rtcRef) * 78125 + 7) / 8

/-- RTC_ALIGN: when its time has come, GD aligns the RTC to presented time at an RTC tick, and the next alignment
follows RTC_SYNC later (R330). -/
def Block.rtcAlign (b : Block) : Block :=
  match b.time.alignAt with
  | some at_ =>
    if b.coreA && b.timeValidNow && decide (at_ ≤ b.now) then
      let n := b.lastRtcTick
      let t := b.inScaleAgo 0 (gain 0 (b.now - n))
      { b with time := { b.time with
          rtcBase := (t * 32768 / secUnit).toNat % 2 ^ 48, rtcRef := n, rtcLoad := none
          alignAt := some (n + secs (b.get Obj.rtcSync)) } }
    else b
  | none => b

/-! ### The servos (R324 to R326) -/

/-- A value clamped between −lim and lim. -/
def clampTo (lim v : Int) : Int := max (-lim) (min v lim)

/-- FREQ_LIMIT of a domain in units of 2^-32 ppb. -/
def Block.freqLimit (b : Block) (d : Nat) : Int := (b.get Obj.domFreqLimit d : Int) * 2 ^ 32

/-- FREQ_ADJ of a domain set, from units of 2^-32 ppb: the domain's rate at 2^-40 and the object at 0.001 ppb (log entry
31). -/
def Block.setAdj (b : Block) (d : Nat) (adj : Int) : Block :=
  let x := (b.time.dom d).rebase b.now
  (b.setDom d { x with adj := adj * 256 / 1000000000 }).puti Obj.domFreqAdj (adj * 1000 / 2 ^ 32) d

/-- A step of a domain by `e` in 2^-16 ns (R325): p absorbs it for valid presented time while STEP_ALLOW is 0. -/
def Block.domainStep (b : Block) (d : Nat) (e : Int) : Block :=
  let x := (b.time.dom d).rebase b.now
  let e56 := e * 2 ^ 40
  let absorb := b.get Obj.presentSel == d && b.timeValidNow && !b.is Obj.stepAllow
  b.stepping fun c =>
    let c1 := (c.setDom d { x with base := x.base + e56, integ := 0, good := 0 }).put Obj.domState 1 d
    let c2 := c1.add Obj.domSteps 1 d
    if absorb then c2.setP (c.offset - e56) else c2

/-- The presented domain reaches Locked (R323). -/
def Block.lockReached (b : Block) (d : Nat) : Block :=
  if b.get Obj.presentSel = d && b.get Obj.domState d = 2 then b.setValid true else b

/-- The PI update of R325 for an offset `e` in 2^-16 ns at domain time `t`. From Holdover the next state is Locking
(R326). -/
def Block.servo (b : Block) (d : Nat) (e t : Int) : Block :=
  let x := b.time.dom d
  let dt := match x.prev with
    | some p => t - p
    | none => 0
  let lim := b.freqLimit d
  let i := clampTo lim (x.integ + b.geti Obj.domKi d * e * dt / (1000000000 * 65536))
  let adj := clampTo lim (b.geti Obj.domKp d * e + i)
  let small := decide (e.natAbs ≤ b.get Obj.domLockThreshold d * 65536)
  let good := if small then x.good + 1 else 0
  let st := b.get Obj.domState d
  let next := if st = 3 then 1 else if 8 ≤ good then 2 else st
  let b1 := b.setDom d { x with integ := i, good := good }
  ((b1.setAdj d adj).put Obj.domState next d).lockReached d

/-- A sample of a domain: `e` in 2^-16 ns at domain time `t` in 2^-16 ns (R325). -/
def Block.sample (b : Block) (d : Nat) (e t : Int) : Block :=
  let st := b.get Obj.domState d
  let b1 :=
    if st = 0 || decide (b.get Obj.domStepThreshold d * 65536 < e.natAbs) then b.domainStep d e else b.servo d e t
  (b1.setDom d { b1.time.dom d with prev := some t, heardAt := b.now }).puti Obj.domLastOffset e d

/-- A write of OFFSET_IN (R324): RANGE for a reserved octet or nanoseconds out of range, BUSY while SOURCE is not 1,
STALE for a t no later than the last. -/
def Block.writeOffsetIn (b : Block) (d v : Nat) : Nat × Block :=
  let e := signedOf 8 (octFieldLE v 24 0 8)
  let ns := octFieldLE v 24 16 4
  let t : Int := ((octFieldLE v 24 8 8 : Int) * 1000000000 + (ns : Int)) * 65536 + (octFieldLE v 24 20 2 : Int)
  let late := match (b.time.dom d).prev with
    | some p => decide (t ≤ p)
    | none => false
  if octFieldLE v 24 22 2 ≠ 0 || 999999999 < ns then (6, b)
  else if b.get Obj.domSource d ≠ 1 then (9, b)
  else if late then (13, b)
  else (0, b.sample d e t)

/-- A domain starts again: i and adj 0, the time given, Unlocked (R326). -/
def Block.domainStart (b : Block) (d : Nat) (t : Int) : Block :=
  let x : Domain := { base := t, ref := b.now }
  (((b.setDom d x).put Obj.domState 0 d).puti Obj.domFreqAdj 0 d).puti Obj.domLastOffset 0 d

/-- A write of SOURCE (R326, R323): the domain loads RTC time and is Unlocked; TIME_VALID falls if it is presented. -/
def Block.writeSource (b : Block) (d v : Nat) : Nat × Block :=
  let b1 := b.stepping fun c => (c.put Obj.domSource v d).domainStart d c.rtcTime
  (0, if b.get Obj.presentSel = d then b1.setValid false else b1)

/-- No sample for SOURCE_TIMEOUT (R326, R327): Holdover at adj := i with its notice, and an automatic switch where the
other domain is Locked. -/
def Block.sourceTimeout (b : Block) (d : Nat) : Block :=
  let st := b.get Obj.domState d
  if b.coreA && (st = 1 || st = 2) && decide ((b.time.dom d).heardAt + ms (b.get Obj.domSourceTimeout d) ≤ b.now) then
    let x := b.time.dom d
    let b1 := ((b.setDom d { x with since := b.now }).setAdj d x.integ).put Obj.domState 3 d
    let b2 := b1.notice 0x01B0 Obj.domState d [d]
    if b2.is Obj.autoSwitch && b2.get Obj.presentSel == d && b2.get Obj.domState (otherDom d) == 2 then
      b2.switchTo (otherDom d)
    else b2
  else b

/-- HOLDOVER_LIMIT passed with no switch possible (R323). -/
def Block.holdoverLimit (b : Block) : Block :=
  let d := b.get Obj.presentSel
  if b.coreA && b.get Obj.domState d == 3 && decide ((b.time.dom d).since + secs (b.get Obj.holdoverLimit) ≤ b.now) && !(b.is Obj.autoSwitch && b.get Obj.domState (otherDom d) == 2) then
    b.setValid false
  else b

/-- Core-A powers up (R330, R331, R456): both domains start Unlocked from RTC time, or from the edge's time after Day
Watch, whose TIME_VALID they keep until the first lock; TI_TICKS starts from 0. -/
def Block.timeUp (b : Block) (fromDay : Bool) : Block :=
  let t := if fromDay then b.time.dwBase + gain 0 (b.now - b.time.dwRef) else b.rtcTime
  let valid := if fromDay then (match b.time.dwCorr with
    | some c => decide (b.now - c < secs (3 * b.get Obj.dwPollInterval))
    | none => false) else false
  let b1 := { b with time := { b.time with p := 0, pRef := b.now, coreAAt := b.now } }
  let b2 := ((b1.domainStart 0 t).domainStart 1 t).put Obj.timeValid (if valid then 1 else 0)
  { b2 with time := { b2.time with alignAt := if valid then some b2.nextRtcTick else none } }

/-- Core-A powers down (R331, R456): the Radio L edge carries presented time from here, entry with TIME_VALID 1 counting
as a correction, and TB of MS-L and FE. -/
def Block.timeDown (b : Block) : Block :=
  { b with time := { b.time with
      dwBase := b.presented, dwRef := b.now, dwCorr := if b.timeValidNow then some b.now else none
      tbBase := b.tiTicks, tbRef := b.now, alignAt := none } }

/-- The correction of a Day Watch poll steps the edge's time, in 2^-16 ns; TIME_VALID reads 1 again (R331, R355). -/
def Block.dwCorrect (b : Block) (corr : Int) : Block :=
  let b1 := { b with time := { b.time with
      dwBase := b.time.dwBase + gain 0 (b.now - b.time.dwRef) + corr * 2 ^ 40, dwRef := b.now, dwCorr := some b.now } }
  if b.timeValidNow then b1 else b1.notice 0x01B3 Obj.timeValid noRow [1]

/-- In Day Watch the last correction is too old: TIME_VALID reads 0 (R331, R355). -/
def Block.dwValidEnd (b : Block) : Block :=
  if b.mode.mode = .dayWatch && b.time.dwCorr.any fun c => decide (c + secs (3 * b.get Obj.dwPollInterval) ≤ b.now) then
    { b with time := { b.time with dwCorr := none } }.notice 0x01B3 Obj.timeValid noRow [0]
  else b

/-! ### Captures and timestamps (R333 to R337, R341) -/

/-- A PPS_IN capture is a sample of every domain that names the channel (R324): the captured time rounded to the nearest
whole second less the captured time. -/
def Block.ppsSample (b : Block) (ch : Nat) (cap age : Int) (d : Nat) : Block :=
  if b.get Obj.domSource d = 3 && b.get Obj.domSourceArg d = ch then
    let one : Int := 1000000000 * 65536
    let c := cap / 2 ^ 40
    let whole := (c + one / 2) / one * one
    b.sample d (whole - c) (b.inScaleAgo (d + 1) age / 2 ^ 40)
  else b

/-- CAPTURE_EDGE: an edge of a capture channel's input has passed the filter, whose delay the stamp takes back (R341).
-/
def Block.capture (b : Block) (ch : Nat) (rising : Bool) : Block :=
  if b.get Obj.capSource ch = 255 || !b.coreA || !bitSet (b.get Obj.capEdge ch) (if rising then 0 else 1) then b
  else
    let age := gain 0 ((b.get Obj.capFilter ch * 8 + 24) / 25)
    let t := b.inScaleAgo (b.get Obj.capScale ch) age
    let b1 := if b.unread.getD ch false then b.add Obj.capMissed 1 ch else b
    let b2 := (b1.put Obj.capTime (time112 t) ch).add Obj.capCount 1 ch
    (({ b2 with unread := b2.unread.set ch true }).ppsSample ch t age 0).ppsSample ch t age 1

/-- The transmit stamp of the instant `n / d` in ticks at a queue, in its SCALE with its TX_DELAY (R334). -/
def Block.txTime (b : Block) (q n d : Nat) : Nat :=
  time112 (b.inScaleAgo (b.get Obj.tsqScale q) (b.stampAge q n d) + b.geti Obj.tsqTxDelay q * nsUnit / 1000)

/-- The stamp of a transmitted frame enters its queue, or is dropped with OVERFLOW, LOST and the notice (R337). -/
def Block.pushStamp (b : Block) (q ident time : Nat) : Block :=
  if (b.stamps.getD q []).length < 32 then
    { b with stamps := modAt b.stamps q fun l => l ++ [{ ident, time }] }
  else
    let b1 := (b.put Obj.tsqOverflow 1 q).add Obj.tsqLost 1 q
    b1.notice 0x01B4 Obj.tsqOverflow q ([q] ++ bytesBE 4 (b1.get Obj.tsqLost q))

/-- A frame is a Sync that a port sends in one step (R333). -/
def Block.oneStep (b : Block) (q : Nat) (f : Frame) : Bool :=
  decide (q < 2) && f.pkt.ptp.any (fun p => p.mtype == 0) && f.cookie.any fun c => bitSet (b.get Obj.tsmTsMode c.1) 0

/-- The first transmission of a frame at queue `q` is stamped as TS_MODE of its ring requests, with the instant `n /
d` in ticks of its timestamp point (R333, R336). -/
def Block.txStamp (b : Block) (q : Nat) (f : Frame) (n d : Nat) : Block :=
  match f.cookie with
  | none => b
  | some (ring, cookie) =>
    let m := b.get Obj.tsmTsMode ring
    let other := if bitSet m 2 then b.pushStamp q (cookie % 65536) (b.txTime q n d) else b
    match f.pkt.ptp with
    | some p =>
      if 3 < p.mtype then other
      else if b.oneStep q f then b
      else if bitSet m 1 then b.pushStamp q p.seqId (b.txTime q n d) else b
    | none => other

/-- The sum of the 16-bit words of a number of `k` words. -/
def wordSum (k v : Nat) : Nat := sumOfList ((List.range k).map fun i => v / 65536 ^ i % 65536)

/-- A one's complement checksum after words with one sum have become words with another. -/
def sumAfter (old was is_ words : Nat) : Nat :=
  let s := (65535 - old % 65536) + (65535 * words - was) + is_
  let t := s % 65536 + s / 65536
  let c := 65535 - (t % 65536 + t / 65536)
  if c = 0 then 65535 else c

/-- A Sync with the time of its timestamp point (R333): seconds and nanoseconds in originTimestamp, the fraction added
to correctionField; a UDP checksum is 0 over IPv4 and corrected in place over IPv6. -/
def Block.syncSent (b : Block) (q : Nat) (k : Packet) (n d : Nat) : Packet :=
  match k.ptp with
  | none => k
  | some p =>
    let t := b.txTime q n d
    let origin := t / 65536 % 2 ^ 80
    let corr := (p.corr + t % 65536) % 2 ^ 64
    let sum := p.udpSum.map fun c =>
      if k.ip.any fun i => i.ver == 4 then 0
      else sumAfter c (wordSum 5 p.origin + wordSum 4 p.corr) (wordSum 5 origin + wordSum 4 corr) 9
    { k with ptp := some { p with origin, corr, udpSum := sum } }

/-- A frame starts on a port's line: its first transmission is stamped, and a one-step Sync gets its time. -/
def Block.lineFrame (b : Block) (port : Nat) (f : Frame) : Block :=
  let rate := ethRate (b.get Obj.ethLink port)
  let n := b.now * rate + 64 * 320
  let b1 := if f.air then b else b.txStamp port f n rate
  b1.modFrame f.id fun x =>
    { x with state := .sent, air := true, lastTx := b.now, pkt := if b.oneStep port f then b.syncSent port f.pkt n rate else x.pkt }

/-- ETH_TX_START: a free port picks the next frame; one whose lifetime has passed is abandoned under code 2 and the next
is picked, at most `fuel` times. -/
def Block.ethStart (b : Block) (port : Nat) : Nat → Block
  | 0 => b
  | fuel + 1 =>
    if !b.ethUp port || (b.fwd.line.getD port none).isSome then b
    else
      match b.pickBound port (fun f => !b.isPaused port f.pkt) with
      | none => b
      | some (f, b1) =>
        if b.expired f then (b.abandon 2 9 [f.id]).ethStart port fuel
        else
          let b2 := { b1 with fwd := { b1.fwd with line := b1.fwd.line.set port (some f.id) } }
          (b2.lineFrame port f).emit (.frame f.queue f.id)

/-- The head entry of a queue popped, as OCT[16] (R337): STALE on an empty queue. -/
def Block.popStamp (b : Block) (q : Nat) : Nat × Nat × Block :=
  match b.stamps.getD q [] with
  | [] => (13, 0, b)
  | e :: rest => (0, e.ident * 2 ^ 112 + e.time, { b with stamps := b.stamps.set q rest })

/-! ### The timer/counter block (R342 to R349) -/

/-- TIMER_RELOAD: at its tick the channel passes PERIOD; the high one of a linked pair has no cycle of its own. -/
def Block.timerReload (b : Block) (ch : Nat) : Block :=
  match b.reloadAt ch with
  | some at_ => if b.timerHead ch = ch && decide (at_ ≤ b.now) then b.reload ch at_ else b
  | none => b

/-- A compare can fire: the native mode always, the UHL5120 mode with COMPARE within PERIOD (R344). -/
def Block.canFire (b : Block) (ch : Nat) : Bool :=
  b.get Obj.tmrCmpMode ch == 0 || decide (b.wholeReg Obj.tmrCompare ch ≤ b.wholeReg Obj.tmrPeriod ch)

/-- The compare of a channel has been reached by its COUNT (R343, R344). -/
def Block.comparePassed (b : Block) (ch : Nat) : Bool :=
  let half := if b.linkedLow ch then 2 ^ 63 else 2 ^ 31
  let n := b.wholeCount ch
  let c := b.wholeReg Obj.tmrCompare ch
  if b.get Obj.tmrCmpMode ch = 0 then decide ((n + 2 * half - c) % (2 * half) < half) else decide (c ≤ n)

/-- TIMER_COMPARE: an armed compare of a counting channel fires (R343, R344). -/
def Block.timerCompare (b : Block) (ch : Nat) : Block :=
  if b.timerHead ch = ch && b.is Obj.tmrEnable ch && b.canFire ch && b.comparePassed ch then b.fireCompare ch else b

/-- A pin edge in capture mode latches COUNT, of a linked pair both halves (R342, R347). -/
def Block.timerCapture (b : Block) (ch : Nat) : Block :=
  if b.timerHead ch = ch && b.is Obj.tmrEnable ch && b.get Obj.tmrMode ch == 2 then
    let lost := (b.timers.getD ch {}).unread
    let b0 := if b.linkedLow ch then b.put Obj.tmrCapture (b.countNow (ch + 1)) (ch + 1) else b
    let b1 := (b0.put Obj.tmrCapture (b.countNow ch % 2 ^ 32) ch).modTimer ch fun c => { c with unread := true }
    let b2 := b1.timerEvent ch 2
    if lost then b2.timerEvent ch 3 else b2
  else b

/-- A write of COMPARE (R342 to R344): buffered while a PWM channel counts; else it arms the compare, which fires at
once where it is already passed. -/
def Block.writeCompare (b : Block) (ch v : Nat) : Nat × Block :=
  let h := b.timerHead ch
  if b.is Obj.tmrEnable h then
    if b.get Obj.tmrMode h = 3 then (0, b.modTimer ch fun c => { c with buffered := some v })
    else
      let b1 := (b.put Obj.tmrCompare v ch).modTimer h fun c => { c with armed := true }
      (0, if b1.canFire h && b1.comparePassed h then b1.fireCompare h else b1)
  else (0, b.put Obj.tmrCompare v ch)

/-- A write of PERIOD (R345): below COUNT, the native mode reloads in the next tick and the UHL5120 mode runs on to the
wrap. -/
def Block.writePeriod (b : Block) (ch v : Nat) : Nat × Block :=
  let h := b.timerHead ch
  if b.is Obj.tmrEnable h then
    let n := b.wholeCount h
    let b1 := ((b.fixCount h).modTimer h fun c => { c with wrap := false }).put Obj.tmrPeriod v ch
    if b1.wholeReg Obj.tmrPeriod h < n then
      if b.get Obj.tmrCmpMode h = 0 then
        (0, b1.reload h (b.now + 1))
      else (0, b1.modTimer h fun c => { c with wrap := true })
    else (0, b1)
  else (0, b.put Obj.tmrPeriod v ch)

/-- A write of ENABLE of a channel: counting starts with the compare armed, or stops at its COUNT (R343). -/
def Block.writeTmrEnable (b : Block) (ch v : Nat) : Nat × Block :=
  if v = b.get Obj.tmrEnable ch then (0, b)
  else if v = 1 then (0, b.startTimer ch)
  else (0, ((b.holdCount ch).put Obj.tmrEnable 0 ch).pwmPin ch false)

/-- The pin of a PWM channel shows its part under a changed MODE or OUT_POL (R342, R354). -/
def Block.pwmLevel (b : Block) (ch : Nat) : Block :=
  if b.get Obj.tmrMode ch = 3 && decide (ch < 8) then b.emit (.pin (32 + ch) (b.pins.timerOut.contains ch != b.is Obj.tmrOutPol ch))
  else b

/-- A write of MODE, SOURCE, PRESCALE or COUNT (R342): RANGE for a pin function of a channel without a pin, BUSY while
the channel counts. -/
def Block.writeTmr (b : Block) (r : Reg) (ch v : Nat) : Nat × Block :=
  let pin := (r.sub = 2 && (v = 2 || v = 3)) || (r.sub = 3 && v ≠ 0)
  if pin && decide (8 ≤ ch) then (6, b)
  else if b.is Obj.tmrEnable (b.timerHead ch) || b.is Obj.tmrEnable ch then (9, b)
  else if r.sub = 7 then
    let h := b.timerHead ch
    let n := b.wholeCount h
    let w := if !b.linkedLow h then v else if h = ch then n / 2 ^ 32 * 2 ^ 32 + v else n % 2 ^ 32 + v * 2 ^ 32
    (0, b.modTimer h fun c => { c with count := w, ref := b.now })
  else (0, if r.sub = 2 then (b.put r v ch).pwmLevel ch else b.put r v ch)

/-- A write of LINK (R347): BUSY while either channel is enabled. -/
def Block.writeLink (b : Block) (k v : Nat) : Nat × Block :=
  if b.is Obj.tmrEnable (2 * k) || b.is Obj.tmrEnable (2 * k + 1) then (9, b)
  else
    let lo := b.countNow (2 * k)
    let hi := b.countNow (2 * k + 1)
    let b1 := b.put Obj.pairLink v k
    let b2 := b1.modTimer (2 * k) fun c => { c with count := if v = 1 then lo + hi * 2 ^ 32 else lo, ref := b.now }
    (0, b2.modTimer (2 * k + 1) fun c => { c with count := if v = 1 then 0 else hi, ref := b.now })

/-- A counted edge of a channel's pin (R342): rising with SOURCE 1, falling with SOURCE 2; after PERIOD it reloads, and
a compare that it reaches fires. -/
def Block.countEdge (b : Block) (ch : Nat) (rising : Bool) : Block :=
  let h := b.timerHead ch
  let src := b.get Obj.tmrSource ch
  if ch < 8 && h = ch && b.is Obj.tmrEnable ch && (src = 1 && rising || src = 2 && !rising) then
    let n := b.wholeCount ch
    let b1 :=
      if n = b.wholeReg Obj.tmrPeriod ch then b.reload ch b.now
      else b.modTimer ch fun c => { c with count := n + 1 }
    if b1.is Obj.tmrEnable ch && b1.canFire ch && b1.comparePassed ch then b1.fireCompare ch else b1
  else b

/-- A read of the low COUNT of a linked pair by a port latches the high COUNT for it (R349). -/
def Block.latchHigh (b : Block) (p : Port) (k : Nat) : Block :=
  if b.is Obj.pairLink k then
    let rest := b.latches.filter fun l => !(l.port == p && l.pair == k)
    { b with latches := rest ++ [{ port := p, pair := k, value := b.countNow (2 * k + 1) }] }
  else b

/-- A read of the high COUNT by a port: its latched value, released, or the live one (R349). -/
def Block.readHigh (b : Block) (p : Port) (k : Nat) : Nat × Block :=
  match b.latches.find? fun l => l.port == p && l.pair == k with
  | some l => (l.value, { b with latches := b.latches.filter fun l => !(l.port == p && l.pair == k) })
  | none => (b.countNow (2 * k + 1), b)

/-- A read of EVENTS returns the bits and clears them (R354). -/
def Block.readEvents (b : Block) (ch : Nat) : Nat × Block := (b.get Obj.tmrEvents ch, b.put Obj.tmrEvents 0 ch)

end Sys2Proof.Machine
end

