-- ==== Sys2Proof/Machine/Phy.lean ====
section
/-!
DEFINITION. The forms of PPDU that each radio sends and receives (R170, R176), and the lengths that their formats
allow (R192).
-/

namespace Sys2Proof.Machine

/-- The FORMAT of IEEE 802.15.4 O-QPSK on chain M1 (R191). -/
def fmtOqpsk24 : Nat := 0x10

/-- The FORMAT of reach mode (R191). -/
def fmtReach : Nat := 0x30

/-- A form of HE: SU, ER SU, MU or TB. -/
def isHe (f : PpduForm) : Bool := decide (5 ≤ f.format) && decide (f.format ≤ 8)

/-- The widths of a radio's 802.11 PPDUs in kHz (R170). -/
def widthsOf (r : Radio) : List Nat := if r == .h then [20000, 40000, 80000, 160000] else [20000, 40000]

/-- Formats, rates, streams and widths of R170, by row of its table. -/
def rateOk (r : Radio) (tx : Bool) (f : PpduForm) : Bool :=
  let most := if r == .h then 4 else 2
  match f.format with
  | 1 => r == .m && decide (f.rate < 4) && f.streams == 1 && f.width == 20000
  | 2 => decide (f.rate < 8) && f.streams == 1
  | 3 => decide (f.rate < 8 * most) && f.streams == f.rate / 8 + 1 && decide (f.width ≤ 40000) && !f.greenfield
  | 4 => r == .h && decide (f.rate < 10) && decide (f.streams ≤ most)
  | 5 | 6 | 7 => decide (f.rate < 12) && decide (f.streams ≤ most)
  | 8 => !tx && decide (f.rate < 12) && decide (f.streams ≤ most)
  | _ => false

/-- The options of R170: DCM at four MCS, the guard intervals and HE-LTFs, STBC, puncturing, MU-MIMO and beamforming;
no 80 + 80 MHz and no midamble. -/
def optionsOk (r : Radio) (tx : Bool) (f : PpduForm) : Bool :=
  (!f.dcm || (isHe f && [0, 1, 3, 4].contains f.rate)) &&
  (if isHe f then [8, 16, 32].contains f.gi && (f.ltf == 2 || f.ltf == 4 || (f.ltf == 1 && f.format == 8))
   else f.gi == 4 || f.gi == 8) &&
  (!f.stbc || decide (3 ≤ f.format)) &&
  (!f.puncture || (tx && r == .h && f.format == 7 && decide (80000 ≤ f.width))) &&
  (decide (f.mimo ≤ 1) || (tx && r == .h && decide (f.mimo ≤ 4) && decide (f.mimo ≤ f.streams))) &&
  (!f.beamformed || !tx || r == .h || decide (f.mimo ≤ 1)) && !f.midamble && !f.split80

/-- While Radio M is split, M0 has one stream at 20 MHz with no STBC and no beamforming (R175). -/
def splitOk (f : PpduForm) : Bool := f.streams == 1 && f.width == 20000 && !f.stbc && !f.beamformed

/-- The SUN and reach forms of Radio L, each on its branch (R176, R183). -/
def lowOk (f : PpduForm) : Bool :=
  match f.format with
  | 0x20 => decide (4 ≤ f.branch) && decide (f.branch ≤ 8) && f.rate == f.branch
  | 0x21 => f.branch == 9 && decide (f.rate < 4)
  | 0x22 =>
    (f.branch == 10 && decide (f.rate ≤ 3)) || (f.branch == 11 && decide (f.rate ≤ 5)) ||
      (f.branch == 12 && decide (1 ≤ f.rate) && decide (f.rate ≤ 6)) ||
      (f.branch == 13 && decide (2 ≤ f.rate) && decide (f.rate ≤ 6))
  | 0x30 => decide (f.branch < 4) && f.rate == f.branch && f.width == 250
  | _ => false

/-- A radio supports a form, on sending or on receiving, with its chains split or not (R170, R175, R176). -/
def formOk (r : Radio) (split tx : Bool) (f : PpduForm) : Bool :=
  match r with
  | .l => lowOk f
  | .h => rateOk .h tx f && optionsOk .h tx f && (widthsOf .h).contains f.width && decide (1 ≤ f.streams)
  | .m =>
    if f.format = fmtOqpsk24 then split && f.width == 2000
    else
      rateOk .m tx f && optionsOk .m tx f && (widthsOf .m).contains f.width && decide (1 ≤ f.streams) &&
        (!split || splitOk f)

/-- The longest PSDU of a format in octets (R192): Radio L's and M1's as the rule says, the rest those of IEEE 802.11
(PRESUMED, log entry 178). -/
def psduMax (f : PpduForm) : Nat :=
  match f.format with
  | 0x10 => 127
  | 1 | 2 => 4095
  | 3 => 65535
  | 4 => 4692480
  | 5 | 6 | 7 | 8 => 6500631
  | _ => 2047

/-- The PHY receive start delay of a format in µs, by which the response timeout lasts (R196; PRESUMED, log entry 35).
-/
def rxStartDelay (f : PpduForm) : Nat :=
  match f.format with
  | 1 => 192
  | 3 => 28
  | 4 => 40
  | 5 | 6 | 7 | 8 => 32
  | _ => 20

end Sys2Proof.Machine
end

