-- ==== Sys2Proof/Machine/Region.lean ====
section
/-!
DEFINITION. The regulatory walls: the committed region with its shadows and CRC, the baseline of R163, dynamic frequency
selection, the duty budget, and output power under the clamp (R149 to R165, R203 to R206).
-/

namespace Sys2Proof.Machine

/-- The front end and edge of a radio. -/
def Block.radio (b : Block) (r : Radio) : RadioUnit := b.radios.getD (radioNum r) {}

/-- The front end and edge of a radio changed. -/
def Block.modRadio (b : Block) (r : Radio) (f : RadioUnit → RadioUnit) : Block :=
  { b with radios := modAt b.radios (radioNum r) f }

/-- A radio's domain is on and the radio is not in low power. -/
def Block.radioOn (b : Block) (r : Radio) : Bool := b.domainOn (3 + radioNum r)

/-! ### Staged and committed images (R159 to R162) -/

/-- The chain limit registers of POWER_LIMIT in order. -/
def plimRegs : List Reg := [Obj.plimLimit4, Obj.plimLimit5, Obj.plimLimit6, Obj.plimLimit7]

/-- The octets of a value in Plais order: most significant first (R61). -/
def Block.regOctets (b : Block) (r : Reg) (row : Nat := 0) : List Octet := octetsBE r.size (b.get r row)

/-- The subindices of a row of 0x2C10 in order. -/
def plimRow : List Reg := [Obj.plimRadio, Obj.plimEdgeLo, Obj.plimEdgeHi] ++ plimRegs ++ [Obj.plimFemGainMax]

/-- The subindices of a row of 0x2C11 in order. -/
def chalRow : List Reg := [Obj.chalRadio, Obj.chalEdgeLo, Obj.chalEdgeHi, Obj.chalMaxBw, Obj.chalFlags]

/-- The subindices of a row of 0x2C12 in order. -/
def dutyRow : List Reg := [Obj.dutyEdgeLo, Obj.dutyEdgeHi, Obj.dutyBudget]

/-- The subindices of 0x2C13 and 0x2C14 in order. -/
def regionTail : List Reg := [Obj.cacTime, Obj.nopTime, Obj.radarRuleset, Obj.stageCode, Obj.stageVersion]

/-- The octets of the staged image in the order of R161. -/
def Block.stageOctets (b : Block) : List Octet :=
  let rows (regs : List Reg) (n : Nat) := (List.range n).flatMap fun i => regs.flatMap fun r => b.regOctets r i
  rows plimRow 64 ++ rows chalRow 64 ++ rows dutyRow 16 ++ regionTail.flatMap fun r => b.regOctets r

/-- CRC-32 of the staged image: STAGE_CRC (R161). -/
def Block.stageCrc (b : Block) : Nat := crc32 b.stageOctets

/-- The staged tables as a region. Unused rows are kept, so that REGION_CLEAR can copy them back. -/
def Block.stagedRegion (b : Block) : Region :=
  { limits := (List.range 64).map fun i =>
      { radio := b.get Obj.plimRadio i, lo := b.get Obj.plimEdgeLo i, hi := b.get Obj.plimEdgeHi i,
        limits := plimRegs.map fun r => b.geti r i, gainMax := b.geti Obj.plimFemGainMax i }
    allow := (List.range 64).map fun i =>
      { radio := b.get Obj.chalRadio i, lo := b.get Obj.chalEdgeLo i, hi := b.get Obj.chalEdgeHi i,
        maxBw := b.get Obj.chalMaxBw i, dfs := bitSet (b.get Obj.chalFlags i) 0 }
    duty := (List.range 16).map fun i =>
      { lo := b.get Obj.dutyEdgeLo i, hi := b.get Obj.dutyEdgeHi i, budget := b.get Obj.dutyBudget i }
    cac := b.get Obj.cacTime, nop := b.get Obj.nopTime, ruleset := b.get Obj.radarRuleset
    code := b.get Obj.stageCode, version := b.get Obj.stageVersion, crc := b.stageCrc }

/-- Every used row has EDGE_LO < EDGE_HI (R161 step 1). -/
def Region.edgesOk (g : Region) : Bool :=
  (g.limits.all fun r => r.radio == 255 || decide (r.lo < r.hi)) &&
  (g.allow.all fun r => r.radio == 255 || decide (r.lo < r.hi)) &&
  (g.duty.all fun r => r.lo == 0 || decide (r.lo < r.hi))

/-- A row of the power limits copied back to the staging tables. -/
def Block.unstageLimit (b : Block) (i : Nat) (r : LimitRow) : Block :=
  let b1 := (((b.put Obj.plimRadio r.radio i).put Obj.plimEdgeLo r.lo i).put Obj.plimEdgeHi r.hi i).puti
    Obj.plimFemGainMax r.gainMax i
  (List.range 4).foldl (fun c k => c.puti (plimRegs.getD k Obj.plimLimit4) (r.limits.getD k 0) i) b1

/-- REGION_CLEAR: the committed image back into the staging tables; BUSY while a commit runs, to the last edge's load
(R162). With no committed region every row of the tables returns to its default (DESIGN CHOICE, log entry 179). -/
def Block.regionClear (b : Block) : Nat × Block :=
  if b.region.commit.isSome || b.region.loads then (9, b)
  else
    match b.region.active with
    | none =>
      let rows (regs : List Reg) (n : Nat) (c : Block) := (List.range n).foldl (fun c i => c.clearRow regs i) c
      (0, (rows plimRow 64 (rows chalRow 64 (rows dutyRow 16 b))).clearRow regionTail 0)
    | some g =>
      let b1 := (g.limits.zipIdx).foldl (fun c x => c.unstageLimit x.2 x.1) b
      let b2 := (g.allow.zipIdx).foldl (fun c x =>
        ((((c.put Obj.chalRadio x.1.radio x.2).put Obj.chalEdgeLo x.1.lo x.2).put Obj.chalEdgeHi x.1.hi x.2).put
          Obj.chalMaxBw x.1.maxBw x.2).put Obj.chalFlags (if x.1.dfs then 1 else 0) x.2) b1
      let b3 := (g.duty.zipIdx).foldl (fun c x =>
        ((c.put Obj.dutyEdgeLo x.1.lo x.2).put Obj.dutyEdgeHi x.1.hi x.2).put Obj.dutyBudget x.1.budget x.2) b2
      (0, ((((b3.put Obj.cacTime g.cac).put Obj.nopTime g.nop).put Obj.radarRuleset g.ruleset).put Obj.stageCode
        g.code).put Obj.stageVersion g.version)

/-! ### Channels -/

/-- The occupied channel, centre ± bandwidth/2 in kHz, lies wholly between two edges; everything doubled. -/
def within (centre bw lo hi : Nat) : Bool := decide (2 * lo + bw ≤ 2 * centre) && decide (2 * centre + bw ≤ 2 * hi)

/-- Some part of the occupied channel lies between two edges, the edges included (R204). -/
def touches (centre bw lo hi : Nat) : Bool := decide (2 * lo ≤ 2 * centre + bw) && decide (2 * centre ≤ 2 * hi + bw)

/-- The occupied channel overlaps the range between two edges; a shared edge is no overlap (R164). -/
def overlaps (centre bw lo hi : Nat) : Bool := decide (2 * lo < 2 * centre + bw) && decide (2 * centre < 2 * hi + bw)

/-- The 20 MHz subchannels of Radio H, by number from 5,150 MHz, that a channel overlaps (R34, R164). -/
def subchannels (centre bw : Nat) : List Nat :=
  (List.range 99).filter fun i =>
    decide (2 * (5150000 + 20000 * i) < 2 * centre + bw) && decide (2 * centre < 2 * (5170000 + 20000 * i) + bw)

/-- The baseline of R163: what may be sent before any region is committed. -/
def baselineOk (r : Radio) (centre bw : Nat) : Bool :=
  match r with
  | .h => within centre bw 5150000 5250000 && decide (bw ≤ 80000)
  | .m => decide (2412000 ≤ centre) && decide (centre ≤ 2462000) && bw == 20000
  | .l => false

/-- The allow rows of a radio that hold a channel whole at its bandwidth (R159). -/
def Region.allowRows (g : Region) (r : Radio) (centre bw : Nat) : List AllowRow :=
  g.allow.filter fun a => a.radio == radioNum r && within centre bw a.lo a.hi && decide (bw ≤ a.maxBw)

/-- A channel of Radio H overlaps an allow row with the DFS flag (R164). -/
def Region.needsDfs (g : Region) (r : Radio) (centre bw : Nat) : Bool :=
  r == .h && g.allow.any fun a => a.radio == 0 && a.dfs && overlaps centre bw a.lo a.hi

/-- A subchannel of a channel is barred (R164). -/
def Block.subBarred (b : Block) (centre bw : Nat) : Bool :=
  (subchannels centre bw).any fun i => b.region.barred.any fun x => x.1 == i

/-- The checks of the edge against its shadow before the ramp-up (R159, R160, R163, R164): 0, or the status of R166. -/
def Block.channelStatus (b : Block) (r : Radio) (centre bw : Nat) : Nat :=
  match b.get Obj.regionState with
  | 2 => 5
  | 0 => if baselineOk r centre bw then 0 else 3
  | _ =>
    match (b.radio r).shadow with
    | none => 2
    | some g =>
      if (g.allowRows r centre bw).isEmpty then 2
      else if g.needsDfs r centre bw then
        (if g.ruleset == 0 || !b.region.cacDone || b.subBarred centre bw then 2 else 0)
      else 0

/-- CAC_STATE of Radio H's channel (R164, R167). -/
def Block.cacStateNow (b : Block) : Nat :=
  let u := b.radio .h
  match u.shadow with
  | none => 0
  | some g =>
    if !g.needsDfs .h u.freq u.bw then 0
    else if b.subBarred u.freq u.bw then 3
    else if b.region.cacDone then 2
    else if b.region.cacFrom.isSome then 1
    else 0

/-- NOP_REMAIN: seconds until the last barred subchannel of the present channel is released (R167). -/
def Block.nopRemain (b : Block) : Nat :=
  let u := b.radio .h
  let subs := subchannels u.freq u.bw
  maxOf ((b.region.barred.filter fun x => subs.contains x.1).map fun x => x.2 - b.rtcSec)

/-! ### The duty budget (R203 to R206) -/

/-- The second of the device's life. Bins are counted by it, so that a load of the RTC moves none (DESIGN CHOICE, log
entry 33). -/
def Block.lifeSec (b : Block) : Int := (rtcTicks b.now / 32768 : Nat)

/-- How many seconds of bins lie in the window of 3,600 s that ends with second `now`. -/
def Bin.inWindow (x : Bin) (now : Int) : Nat :=
  (min (x.sec + x.span) (now + 1) - max x.sec (now - 3599)).toNat

/-- The bins of a row. -/
def Mac.rowBins (m : Mac) (row : Nat) : List Bin := (assocGet m.bins row).getD []

/-- The rolling sums of a row in 0.1 µs: data and acknowledgements. -/
def Block.dutyUsed (b : Block) (row : Nat) : Nat × Nat :=
  let now := b.lifeSec
  (sumOfList ((b.mac.rowBins row).map fun x => x.inWindow now * x.data),
    sumOfList ((b.mac.rowBins row).map fun x => x.inWindow now * x.ack))

/-- A row's budget in 0.1 µs: BUDGET × 0.36 s (R203). -/
def dutyBudgetOf (budget : Nat) : Nat := budget * 3600000

/-- The rows of a radio's shadow that a channel overlaps, by number, with their budgets (R204). -/
def Block.dutyRows (b : Block) (r : Radio) (centre bw : Nat) : List (Nat × Nat) :=
  match (b.radio r).shadow with
  | none => []
  | some g =>
    ((g.duty.zipIdx).filter fun x => x.1.lo != 0 && touches centre bw x.1.lo x.1.hi).map fun x => (x.2, x.1.budget)

/-- The check of R204 for one row: an immediate acknowledgement may use the whole budget, any other PPDU leaves the
reserve. A row with BUDGET 10,000 is not checked. -/
def Block.dutyOk (b : Block) (row budget : Nat) (isAck : Bool) (paOn : Nat) : Bool :=
  if budget = 10000 then true
  else
    let total := dutyBudgetOf budget
    let cap := if isAck then total else total - total * b.get Obj.ackReserve / 100
    decide ((b.dutyUsed row).1 + (b.dutyUsed row).2 + paOn ≤ cap)

/-- The overlapped rows whose budget does not cover a PPDU. -/
def Block.dutyShort (b : Block) (r : Radio) (centre bw : Nat) (isAck : Bool) (paOn : Nat) : List Nat :=
  ((b.dutyRows r centre bw).filter fun x => !b.dutyOk x.1 x.2 isAck paOn).map (·.1)

/-- PA-on time in a row's bin of a second changed: `n` units of 0.1 µs added, or with `take` taken back. -/
def Block.dutyAdd (b : Block) (row : Nat) (sec : Int) (isAck take : Bool) (n : Nat) : Block :=
  let up (v : Nat) := if take then v - n else v + n
  let l := b.mac.rowBins row
  let l1 :=
    if l.any fun x => x.span == 1 && x.sec == sec then
      l.map fun x => if x.span == 1 && x.sec == sec then
        (if isAck then { x with ack := up x.ack } else { x with data := up x.data }) else x
    else l ++ [{ sec := sec, data := if isAck then 0 else up 0, ack := if isAck then up 0 else 0 }]
  { b with mac := { b.mac with bins := assocPut b.mac.bins row l1 } }

/-- A PPDU is charged to every row it overlaps, in the bin of its ramp-up (R203). -/
def Block.dutyCharge (b : Block) (r : Radio) (centre bw : Nat) (isAck : Bool) (paOn : Nat) : Charge × Block :=
  let rows := (b.dutyRows r centre bw).map (·.1)
  ({ sec := b.lifeSec.toNat, amount := paOn, isAck, rows },
    rows.foldl (fun c row => c.dutyAdd row b.lifeSec isAck false paOn) b)

/-- The charge of a PPDU becomes its PA-on time once that is known (R154, R203). -/
def Block.dutyCorrect (b : Block) (c : Charge) (used : Nat) : Block :=
  if used < c.amount then c.rows.foldl (fun d row => d.dutyAdd row c.sec c.isAck true (c.amount - used)) b
  else c.rows.foldl (fun d row => d.dutyAdd row c.sec c.isAck false (used - c.amount)) b

/-- Bins that have left every window are forgotten. -/
def Block.dutyPrune (b : Block) : Block :=
  let now := b.lifeSec
  let keep := b.mac.bins.map fun x => (x.1, x.2.filter fun (y : Bin) => decide (now - 3599 < y.sec + y.span))
  { b with mac := { b.mac with bins := keep.filter fun x => !x.2.isEmpty } }

/-- The PA-on time of one kind that falls into the minute `i` of the fold (R206). -/
def minuteSum (l : List Bin) (now : Int) (i : Nat) (f : Bin → Nat) : Nat :=
  let lo : Int := now - 3599 + 60 * (i : Int)
  sumOfList (l.map fun (x : Bin) => (min (x.sec + x.span) (lo + 60) - max x.sec lo).toNat * f x)

/-- A minute bin: units of 250 ms rounded up, at most 240 (R206). -/
def minuteBin (n : Nat) : Nat := min 240 ((n + 2499999) / 2500000)

/-- The bins of every row are folded into the archive at the entry into Hibernate (R206). -/
def Block.dutyFold (b : Block) : Block :=
  let now := b.lifeSec
  let fold (l : List Bin) : ArchiveRow :=
    { rtc := b.rtcSec, sec := now
      data := (List.range 60).map fun i => minuteBin (minuteSum l now i (·.data))
      ack := (List.range 60).map fun i => minuteBin (minuteSum l now i (·.ack)) }
  { b with mac := { b.mac with
      archive := (List.range 16).map fun row => (row, fold (b.mac.rowBins row)), bins := [] } }

/-- The bins that an archive row gives back: each minute bin spread evenly over its 60 seconds (R206). -/
def ArchiveRow.spread (a : ArchiveRow) : List Bin :=
  ((List.range 60).map fun (i : Nat) =>
    ({ sec := a.sec - 3599 + 60 * (i : Int), span := 60, data := (a.data.getD i 0 * 2500000 + 59) / 60
       ack := (a.ack.getD i 0 * 2500000 + 59) / 60 } : Bin)).filter fun x => x.data != 0 || x.ack != 0

/-- On wake the edge restores its bins from the archive (R206). -/
def Block.dutyRestore (b : Block) : Block :=
  if b.mac.archive.isEmpty then b
  else
    let bins : List (Nat × List Bin) := (b.mac.archive.map fun x => (x.1, x.2.spread)).filter fun x => !x.2.isEmpty
    { b with mac := { b.mac with bins := bins } }.dutyPrune

/-- After a loss of VFUR every bin of every valid row starts with B / 3,600 of use (R206), counted as data. -/
def Block.dutyStart (b : Block) : Block :=
  let rows : List (DutyRow × Nat) := match b.region.active with
    | none => []
    | some g => (g.duty.zipIdx).filter fun x => x.1.lo != 0
  let fill (budget : Nat) : List Bin := [{ sec := b.lifeSec - 3599, span := 3600, data := budget * 1000, ack := 0 }]
  { b with mac := { b.mac with archive := [], bins := rows.map fun x => (x.2, fill x.1.budget) } }

/-! ### Output power (R137, R149 to R154) -/

/-- The first POWER_TARGET row whose edges contain a channel: TARGET, FEM_GAIN and FEM_TEMPCO. -/
def Block.powerTarget (b : Block) (r : Radio) (centre bw : Nat) : Option (Int × Int × Int) :=
  let o (x : Reg) := x.of r
  ((List.range 16).find? fun i => b.get (o Obj.ptEdgeLo) i != 0 &&
      within centre bw (b.get (o Obj.ptEdgeLo) i) (b.get (o Obj.ptEdgeHi) i)).map fun i =>
    (b.geti (o Obj.ptTarget) i, b.geti (o Obj.ptFemGain) i, b.geti (o Obj.ptFemTempco) i)

/-- The transmit port that the next PPDU of a radio uses: Radio L has two (R138). -/
def Block.txPort (b : Block) (r : Radio) : Nat := if r == .l then b.get (Obj.lPort.of .l) else 0

/-- The row of POWER_LIMIT that holds a channel: Radio L has rows for each port (R168). -/
def Block.limitRow (b : Block) (r : Radio) (centre bw : Nat) : Option LimitRow :=
  let n := match r with
    | .h => 0
    | .m => 1
    | .l => 2 + b.txPort .l
  match (b.radio r).shadow with
  | none => none
  | some g => g.limits.find? fun x => x.radio == n && within centre bw x.lo x.hi

/-- The chain offset objects in order. -/
def chainRegs : List Reg := [Obj.chainOffset1, Obj.chainOffset2, Obj.chainOffset3, Obj.chainOffset4]

/-- The wanted level and the level under the clamp of one chain in 0.001 dB (R149, R163): `cmd` in 0.25 dBm units,
`lim` and `gmax` those of the committed region. In the baseline the level at the ball is clamped at −10 dBm. -/
def driveLevel (cmd : Int) (target : Option (Int × Int × Int)) (tDie offset lim gmax : Int) (baseline : Bool) : Int × Int :=
  let req := if baseline then cmd else min cmd lim
  let req1 := match target with
    | some t => min req t.1
    | none => req
  let fem := match target with
    | some t => t.2.1 * 250 + t.2.2 * (tDie - 25 * 65536) / 65536
    | none => 0
  let want := req1 * 250 - fem + offset * 250
  (want, if baseline then min want (-10000) else min want ((lim - gmax) * 250))

/-- The range of a transmit port at its ball in 0.001 dB (R137). -/
def ballRange (r : Radio) (port : Nat) : Int × Int :=
  match r with
  | .l => if port = 0 then (-10000, 16000) else (-20000, 0)
  | _ => (-10000, 10000)

/-- The level at the ball: steps of 0.25 dB, taken downward, within the port's range; where the clamp lies below that
range, the clamp holds (R137, R149; DEDUCED, log entry 177). -/
def ballLevel (range : Int × Int) (ceiling level : Int) : Int :=
  if ceiling < range.1 then min level ceiling / 250 * 250 else max range.1 (min range.2 (level / 250 * 250))

/-- The number of transmit chains of a form on a radio: Radio M has one for each part in split mode (R137, R175). -/
def Block.chains (b : Block) (r : Radio) : Nat :=
  match r with
  | .h => 4
  | .m => if (b.radio .m).split then 1 else 2
  | .l => 1

/-- The limit and gain of each chain for a channel. A channel that no row of POWER_LIMIT holds has no stated limit: it
is a free value (DEDUCED, log entry 34). -/
def Block.limitOf (b : Block) (r : Radio) (centre bw : Nat) : LimitRow :=
  (b.limitRow r centre bw).getD
    { radio := 0, lo := 0, hi := 0, gainMax := Config.freeNat b.fresh
      limits := List.replicate 4 (Config.freeNat (b.fresh + 1) : Int) }

/-- The wanted level and the level under the clamp of every chain for a commanded power (R149). `first` is the first
chain: M1 transmits on chain 1 (R175). -/
def Block.driveLevels (b : Block) (r : Radio) (centre bw : Nat) (cmd : Int) (first : Nat := 0) : List (Int × Int) :=
  let row := b.limitOf r centre bw
  (List.range (b.chains r)).map fun k =>
    driveLevel cmd (b.powerTarget r centre bw) (b.geti (Obj.dieTemp.of r))
      (b.geti ((chainRegs.getD (first + k) Obj.chainOffset1).of r)) (row.limits.getD (first + k) 0) row.gainMax
      (b.get Obj.regionState == 0)

/-- The clamp of a chain in 0.001 dB (R149, R163). -/
def Block.ceilingOf (b : Block) (r : Radio) (centre bw k : Nat) : Int :=
  if b.get Obj.regionState = 0 then -10000
  else ((b.limitOf r centre bw).limits.getD k 0 - (b.limitOf r centre bw).gainMax) * 250

/-- The levels at the balls for a PPDU; one that the clamp lowers counts in REG_CLAMPED (R137, R149). -/
def Block.drive (b : Block) (r : Radio) (centre bw : Nat) (cmd : Int) (first : Nat := 0) : List Int × Block :=
  let l := b.driveLevels r centre bw cmd first
  let b1 : Block := { b with fresh := b.fresh + 2 }
  ((l.zipIdx).map fun x => ballLevel (ballRange r (b.txPort r)) (b.ceilingOf r centre bw (first + x.2)) x.1.2,
    if l.any fun x => decide (x.2 < x.1) then b1.add (Obj.regClamped.of r) else b1)

/-- The band of a frequency: the 5 GHz and 6 GHz parts of Radio H, the two bands of Radio L (R142). -/
def bandOf (r : Radio) (f : Nat) : Nat :=
  match r with
  | .h => if f < 5925000 then 0 else 1
  | .m => 0
  | .l => if f < 600000 then 0 else 1

/-- The key of a chain and band among the corrections of a power loop. -/
def corrKey (band chain : Nat) : Nat := 4 * band + chain

/-- The correction of the power loop for a chain and band in 0.001 dB: what the detector has shown, and the supply's
where one is read, which is a free value of the reading (R150; DEDUCED, log entry 180). -/
def Block.loopCorr (b : Block) (r : Radio) (band chain : Nat) : Int :=
  let u := b.radio r
  (match u.corr.find? fun x => x.1 == corrKey band chain with
    | some x => x.2
    | none => 0) +
    (if r == .l || b.get (Obj.paSupplyPage.of r) != 255 then Config.supplyCorr (radioNum r) u.paMv else 0)

/-- The loop's settings for a PPDU: the levels wanted at the balls with their corrections (R150). -/
def Block.settings (b : Block) (r : Radio) (centre first : Nat) (levels : List Int) : List Int :=
  (levels.zipIdx).map fun x => x.1 + b.loopCorr r (bandOf r centre) (first + x.2)

/-- The detector's readings of a PPDU correct the next one on the same chains and band (R150). -/
def Block.learnLevels (b : Block) (r : Radio) (centre first : Nat) (levels detector : List Int) : Block :=
  ((levels.zip detector).zipIdx).foldl (fun (c : Block) x =>
    let key := corrKey (bandOf r centre) (first + x.2)
    c.modRadio r fun u =>
      let old := (u.corr.find? fun y => y.1 == key).elim 0 (·.2)
      { u with corr := u.corr.filter (fun y => y.1 != key) ++ [(key, old + (x.1.1 - x.1.2))] }) b

/-- The cap on the ramps of immediate responses and trigger-based PPDUs in 0.1 µs (R153). -/
def rampCap : Radio → Nat
  | .h => 40
  | .m => 20
  | .l => 1000

/-- A kind of PPDU whose timing the standard sets (R153). -/
def isQuick (k : TxKind) : Bool := k == .immediate || k == .triggered

/-- The ramp of a PPDU: the profile, and its two lengths under the cap of R153 (R152). -/
def Block.rampOf (b : Block) (r : Radio) (k : TxKind) : Ramp :=
  let len (x : Reg) := if isQuick k then min (b.get (x.of r)) (rampCap r) else b.get (x.of r)
  { points := (octetsBE 32 (b.get (Obj.rampProfile.of r))).map (·.toNat), up := len Obj.rampUp, down := len Obj.rampDown }

/-- PA-on time in 0.1 µs of a PPDU of `air` µs, its ramps included (R154). -/
def Block.paOn (b : Block) (r : Radio) (air : Nat) (k : TxKind) : Nat :=
  air * 10 + (b.rampOf r k).up + (b.rampOf r k).down

/-- The counter of a transmit status (R166). -/
def txStatusReg (code : Nat) : Reg :=
  match code with
  | 1 => Obj.txStatusCount1
  | 2 => Obj.txStatusCount2
  | 3 => Obj.txStatusCount3
  | 4 => Obj.txStatusCount4
  | 5 => Obj.txStatusCount5
  | 6 => Obj.txStatusCount6
  | _ => Obj.txStatusCount7

/-- The radio edge posts a result to its MAC sequencer: event EDGE (R453). -/
def Block.edgeResult (b : Block) (r : Radio) (event : Nat) (vals : List Nat) : Block :=
  (b.emit (.radio r event vals)).event (2 + radioNum r) 18

/-- A transmit command ends with a status: it is reported, and each status but DONE counts (R166). -/
def Block.txStatus (b : Block) (r : Radio) (code : Nat) : Block :=
  let b1 := b.edgeResult r 1 [code]
  if code = 0 then b1 else b1.add ((txStatusReg code).of r)

/-! ### The channel and length of a PPDU (R139, R178) -/

/-- The channel that a PPDU occupies, centre and width in kHz: on Radio L the tuned frequency, on M1 its 802.15.4
channel, elsewhere its place in the tuned channel (R139, R173). -/
def Block.occupied (b : Block) (r : Radio) (f : PpduForm) : Nat × Nat :=
  let u := b.radio r
  if r == .l then (u.freq, f.width)
  else if f.format = fmtOqpsk24 then (2405000 + 5000 * (b.get Obj.splitChannel - 11), 2000)
  else (u.freq - u.bw / 2 + f.width * f.place + f.width / 2, f.width)

/-- A form that the radio sends now, within its tuned channel (R139, R170, R176). -/
def Block.sendable (b : Block) (r : Radio) (p : Ppdu) : Bool :=
  let f := p.form
  formOk r (b.radio r).split true f &&
    (r == .l || f.format == fmtOqpsk24 || decide (f.width * (f.place + 1) ≤ (b.radio r).bw)) &&
    (if r == .l || f.format == fmtOqpsk24 then
      decide (1 ≤ p.psdu.length) && decide (p.psdu.length ≤ psduMax f)
     else true)

/-- The length on air of a PPDU in µs: in reach mode that of its symbols (R178), else what its sequencer predicts. -/
def Block.airOf (b : Block) (p : Ppdu) : Nat :=
  if p.form.format = fmtReach then reachAir (b.get Obj.reachPreamble) p.form.branch p.psdu.length else p.air

end Sys2Proof.Machine
end

