-- ==== Sys2Proof/Machine/Mac.lean ====
section
/-!
DEFINITION. Medium access (R194 to R228): EDCA and CSMA-CA, attempts and retry limits, the sequence test of Radio L,
children, guard time and lost partners, rounds, stations, TWT, TSCH and basic service sets. What a radio makes leave
the block carries an event number: 1 status, 2 transmit opportunity, 3 acknowledgement, 4 BSS transition management
request, 5 disassociation, 7 deferred command offered again, 8 association response, 9 probe response, 10 TWT
response, 11 receive status word, 12 levels of a PPDU, 13 first sample, 14 end with PA-on time, 15 candidate lists, 16
TSCH slot, 17 settings of the power loop, 18 ramp-up, 19 ramp-down, 20 BlockAckReq, 21 FEM lines.
-/

namespace Sys2Proof.Machine

/-- The medium access state changed. -/
def Block.modMac (b : Block) (f : Mac → Mac) : Block := { b with mac := f b.mac }

/-! ### EDCA on Radio H and Radio M (R194, R195) -/

/-- The access category of a TID: 0 BK, 1 BE, 2 VI, 3 VO (R194, IEEE 802.11). -/
def tidAc (tid : Nat) : Nat :=
  match tid with
  | 1 | 2 => 0
  | 0 | 3 => 1
  | 4 | 5 => 2
  | _ => 3

/-- The EDCA row of a radio and access category (R222). -/
def edcaRow (r : Radio) (ac : Nat) : Nat := 4 * radioNum r + ac

/-- SIFS of a radio in ticks: 16 µs in 5 and 6 GHz, 10 µs in 2.4 GHz (PRESUMED, log entry 35). -/
def sifs : Radio → Nat
  | .h => us 16
  | _ => us 10

/-- A slot of 9 µs in ticks (PRESUMED, log entry 35). -/
def slotTime : Nat := us 9

/-- AIFS of a radio and access category. -/
def Block.aifs (b : Block) (r : Radio) (ac : Nat) : Nat := sifs r + b.get Obj.edcaAifsn (edcaRow r ac) * slotTime

/-- The EDCA function of a radio and access category. -/
def Block.edca (b : Block) (r : Radio) (ac : Nat) : Backoff :=
  (b.mac.backoffs.find? fun x => x.radio == radioNum r && x.ac == ac).getD
    { radio := radioNum r, ac, count := 0, ecw := b.get Obj.edcaEcwmin (edcaRow r ac), live := false }

/-- An EDCA function replaced. -/
def Block.setEdca (b : Block) (x : Backoff) : Block :=
  b.modMac fun m => { m with backoffs := m.backoffs.filter (fun y => !(y.radio == x.radio && y.ac == x.ac)) ++ [x] }

/-- An EDCA function starts to contend with a new back-off count: a free value below the contention window. -/
def Block.drawBackoff (b : Block) (x : Backoff) : Block :=
  ({ b with fresh := b.fresh + 1 }).setEdca { x with count := Config.freeNat b.fresh % 2 ^ x.ecw, live := true }

/-- A radio's transmission contends with an access category. -/
def Block.contend (b : Block) (r : Radio) (ac : Nat) : Block :=
  if (b.edca r ac).live then b else b.drawBackoff (b.edca r ac)

/-- A failed attempt or an internal collision doubles the contention window, up to ECWMAX; a success returns it to
ECWMIN (R194). -/
def Block.widen (b : Block) (r : Radio) (ac : Nat) (grow : Bool) : Block :=
  let x := b.edca r ac
  let lo := b.get Obj.edcaEcwmin (edcaRow r ac)
  let hi := b.get Obj.edcaEcwmax (edcaRow r ac)
  b.setEdca { x with ecw := if grow then min (x.ecw + 1) hi else lo }

/-- The medium counts as busy for a radio: a reception, a PPDU of its own or its response, or the hold of R171. -/
def RadioUnit.busy (u : RadioUnit) (now : Nat) : Bool :=
  u.rx.isSome || u.air.isSome || u.phase == .awaiting || decide (now < u.ccaUntil)

/-- The back-off of a radio is frozen until a tick; a longer hold stands (R171, R195). -/
def Block.freeze (b : Block) (r : Radio) (until_ : Nat) : Block :=
  b.modRadio r fun u => { u with frozenAt := some (max until_ (max u.ccaUntil (u.frozenAt.getD 0))) }

/-- The end of a transmit opportunity that a category wins (R27, R222): TXOP_LIMIT in units of 32 µs; 0 is one PPDU. -/
def Block.txopEnd (b : Block) (r : Radio) (ac : Nat) : Nat :=
  let n := b.get Obj.edcaTxopLimit (edcaRow r ac)
  if n = 0 then 0 else b.now + us (32 * n)

/-- The end of an idle slot (R195): each contending function that AIFS has passed for counts down; of those at zero the
highest category wins the transmit opportunity and the others treat it as a collision (R194). -/
def Block.backoffSlot (b : Block) (r : Radio) : Block :=
  if r == .l || !b.radioOn r || (b.radio r).busy b.now then b
  else
    let idle := match (b.radio r).frozenAt with
      | some f => b.now - f
      | none => secs 3600
    let down := [0, 1, 2, 3].foldl (fun (c : Block) ac =>
      let x := c.edca r ac
      if x.live && decide (c.aifs r ac ≤ idle) then c.setEdca { x with count := x.count - 1 } else c) b
    let won := [0, 1, 2, 3].filter fun ac =>
      (down.edca r ac).live && decide (down.aifs r ac ≤ idle) && (down.edca r ac).count == 0
    match won.getLast? with
    | none => down
    | some ac =>
      let b1 := (won.filter (· != ac)).foldl (fun (c : Block) a => let d := c.widen r a true; d.drawBackoff (d.edca r a)) down
      ((b1.setEdca { b1.edca r ac with live := false }).modRadio r fun u =>
        { u with txop := some (ac, b1.txopEnd r ac) }).emit (.radio r 2 [ac])

/-- CCA busy: the back-off counters freeze (R195). -/
def Block.ccaBusy (b : Block) (r : Radio) : Block :=
  if b.radioOn r then b.freeze r b.now else b

/-! ### Attempts (R196, R197) -/

/-- The retry profile of a queue: a neighbour queue uses its neighbour's (R197, R199). -/
def Block.retryRow (b : Block) (queue : Nat) : Nat :=
  if 4608 ≤ queue && decide (queue < 5632) then b.get Obj.nbrRetryProfile (queue - 4608) else b.get Obj.queueRetryProfile queue

/-- A failed attempt of a frame (R197): at RETRY_LIMIT it returns to the head of its queue, which is held for
RETRY_HOLD. -/
def Block.attemptFailed (b : Block) (fid : Nat) : Block :=
  match b.frame? fid with
  | none => b
  | some f =>
    let row := b.retryRow f.queue
    if b.get Obj.retryRetryLimit row ≤ f.attempts + 1 then
      let until_ := b.now + ms (b.get Obj.retryRetryHold row)
      let b1 := (b.modFrame fid fun x => { x with attempts := 0 }).add Obj.retryExhausted
      { b1 with fwd := { b1.fwd with holds := assocPut b1.fwd.holds f.queue until_ } }
    else b.modFrame fid fun x => { x with attempts := x.attempts + 1 }

/-- A queue is held after a retry-limit return. -/
def Block.queueHeld (b : Block) (queue : Nat) : Bool := (assocGet b.fwd.holds queue).isSome

/-- RETRY_HOLD_EXPIRY: once RETRY_HOLD has passed the queue is offered again (R197). -/
def Block.holdEnd (b : Block) (queue : Nat) : Block :=
  match assocGet b.fwd.holds queue with
  | some t => if t ≤ b.now then { b with fwd := { b.fwd with holds := assocDel b.fwd.holds queue } } else b
  | none => b

/-! ### The sequence test of Radio L (R200, R201) -/

/-- The outcome of the test of R200. -/
inductive SeqTest where
  | accept (rxSeq hist : Nat)
  | duplicate
  | stale
  deriving DecidableEq, Repr

/-- The test of R200 on a received field. -/
def seqTest (rxSeq hist field : Nat) : SeqTest :=
  let d := (field % 256 + 256 - rxSeq % 256) % 256
  if d = 0 then .duplicate
  else if d ≤ 127 then .accept ((rxSeq + d) % 65536) ((hist * 2 ^ d ||| 2 ^ (d - 1)) % 65536)
  else
    let back := 256 - d
    if back ≤ 16 then
      if hist.testBit (back - 1) then .duplicate else .accept rxSeq (hist ||| 2 ^ (back - 1))
    else .stale

/-- A received field extended to 16 bits (R200). -/
def seqExtend (rxSeq field : Nat) : Nat :=
  let d := (field % 256 + 256 - rxSeq % 256) % 256
  if d ≤ 127 then (rxSeq + d) % 65536 else (rxSeq + 65536 - (256 - d)) % 65536

/-- What the edge holds of a neighbour. -/
def Block.nbrMac (b : Block) (row : Nat) : NbrMac := (b.mac.nbrs.find? fun x => x.row == row).getD { row := row }

/-- What the edge holds of a neighbour, replaced. -/
def Block.setNbrMac (b : Block) (x : NbrMac) : Block :=
  b.modMac fun m => { m with nbrs := m.nbrs.filter (fun y => y.row != x.row) ++ [x] }

/-- The number of a neighbour's frame is accepted as new, as its restart or first frame (R201). -/
def Block.seqSync (b : Block) (row field : Nat) : Block :=
  (b.setNbrMac { b.nbrMac row with hist := 0, stale := 0, synced := true }).put Obj.nbrRxSeq
    (seqExtend (b.get Obj.nbrRxSeq row) field) row

/-- The test on a neighbour's frame with its resynchronisation (R200, R201). The Boolean tells a duplicate, the block
has the new numbers of an accepted frame, and no block stands for a stale one. -/
def Block.seqCheck (b : Block) (row field : Nat) : Option Bool × Block :=
  let x := b.nbrMac row
  if !x.synced then (some false, b.seqSync row field)
  else
    match seqTest (b.get Obj.nbrRxSeq row) x.hist field with
    | .duplicate => (some true, b.setNbrMac { x with stale := 0 })
    | .accept rs h => (some false, (b.setNbrMac { x with hist := h, stale := 0 }).put Obj.nbrRxSeq rs row)
    | .stale =>
      if b.get Obj.staleResync ≤ x.stale + 1 then (some false, (b.add Obj.seqStale).seqSync row field)
      else (none, (b.setNbrMac { x with stale := x.stale + 1 }).add Obj.seqStale)

/-! ### Sleepy children (R207, R208) -/

/-- The frames of a neighbour's queue, in order. -/
def Block.nbrQueue (b : Block) (row : Nat) : List Frame := b.frames.filter fun f => f.queue == 4608 + row

/-- The frames in a child's indirect queue. -/
def Block.indirectOf (b : Block) (row : Nat) : List Frame := (b.nbrQueue row).filter fun f => f.indirect.isSome

/-- A neighbour is a child. -/
def Block.isChild (b : Block) (row : Nat) : Bool := b.nbrUsed row && b.get Obj.nbrRole row == 1

/-- INDIRECT follows the frames held. -/
def Block.showIndirect (b : Block) (row : Nat) : Block := b.put Obj.nbrIndirect (b.indirectOf row).length row

/-- INDIRECT_ENQUEUE: the next frame of a child's queue moves into a free slot, of 4 for the child and 2,048 in all, and
its persistence time starts (R207). -/
def Block.indirectEnqueue (b : Block) (row : Nat) : Block :=
  if b.isChild row && b.radioOn .l then
    match (b.nbrQueue row).find? fun f => f.indirect.isNone with
    | none => b
    | some f =>
      if (b.indirectOf row).length < 4 && decide ((b.frames.filter fun g => g.indirect.isSome).length < 2048) then
        (b.modFrame f.id fun x => { x with indirect := some b.now }).showIndirect row
      else b
  else b

/-- A partner heard, by a frame that started at a tick (R210). -/
def Block.hearNbr (b : Block) (row at_ : Nat) : Block :=
  b.modMac fun m => { m with heardNbr := assocPut m.heardNbr row at_ }

/-- A station heard, by a frame that started at a tick (R210). -/
def Block.hearSta (b : Block) (row at_ : Nat) : Block :=
  b.modMac fun m => { m with heardSta := assocPut m.heardSta row at_ }

/-- A reception of Radio L that began no later than a tick is under way. -/
def Block.hearing (b : Block) (r : Radio) (tick : Nat) : Bool :=
  (b.radio r).rx.any (fun x => decide (x.at_ ≤ tick)) || (b.radio r).rx1.any fun x => decide (x.at_ ≤ tick)

/-- CHILD_PERSIST_EXPIRY: a frame that has been in an indirect queue for CHILD_PERSIST is abandoned under code 4. A
poll that is being received since the expiry or before, and one that is being answered, save it (R121, R207). -/
def Block.childPersist (b : Block) (fid : Nat) : Block :=
  match b.frame? fid with
  | none => b
  | some f =>
    match f.indirect with
    | none => b
    | some t =>
      let end_ := t + secs (b.get Obj.childPersist)
      if decide (b.now < end_) || b.hearing .l end_ || b.mac.polled.contains (f.queue - 4608) then b
      else (b.abandon 4 7 [fid]).showIndirect (f.queue - 4608)

/-! ### Guard time and lost partners (R211, R212) -/

/-- The guard in ticks for a time without contact in ticks (R211). -/
def Block.guard (b : Block) (elapsed : Nat) : Nat :=
  min (us (b.get Obj.guardBase) + 2 * b.get Obj.guardDrift * elapsed / 1000000) (ms (b.get Obj.guardCap))

/-- The time since the last frame of a partner that corrected the device's timing. -/
def Block.elapsedOf (b : Block) (row : Nat) : Nat := b.now - assocNat b.mac.timedNbr row

/-- The half-width of listen `k` of a lost-partner run (R212). -/
def Block.listenWidth (b : Block) (x : Lost) (k : Nat) : Nat := min (b.guard x.elapsed * 2 ^ k) (x.interval / 2)

/-- The lost-partner run of a neighbour. -/
def Block.lostOf (b : Block) (row : Nat) : Option Lost := b.mac.lost.find? fun x => x.nbr == row

/-- A lost-partner run starts (R211, R212). `interval` is the partner's beacon interval in ticks. -/
def Block.lostStart (b : Block) (row interval step : Nat) : Block :=
  if (b.lostOf row).isSome then b
  else
    let x : Lost := { nbr := row, step, k := 0, start := b.now, elapsed := b.elapsedOf row, interval, dwellAt := b.now }
    b.modMac fun m => { m with lost := m.lost ++ [x], scanWait := assocDel m.scanWait row }

/-- A lost-partner run ends: its record is written and it counts (R212 step 5). -/
def Block.lostEnd (b : Block) (x : Lost) (failed : Bool) : Block :=
  let b1 := b.modMac fun m => { m with lost := m.lost.filter fun y => y.nbr != x.nbr }
  let el := (x.elapsed + (b.now - x.start)) / 320000000
  let b2 := (b1.add Obj.lostPartner).post 0x0061
    (bytesLE 2 x.nbr ++ bytesLE 4 (min el 0xFFFFFFFF) ++ [x.step, if failed then 1 else 0])
  if failed then b2.add Obj.lostPartnerFailed else b2

/-- The timing of a partner is corrected: elapsed restarts (R211). -/
def Block.timeNbr (b : Block) (row : Nat) : Block :=
  b.modMac fun m => { m with timedNbr := assocPut m.timedNbr row b.now }

/-- A partner is heard, which ends its lost-partner run (R212 step 3). -/
def Block.partnerHeard (b : Block) (row : Nat) : Block :=
  match b.lostOf row with
  | none => b
  | some x => (b.lostEnd x false).timeNbr row

/-- GUARD_EXPIRY: an expected partner has not been heard in its window, t − guard to t + guard, which ends now, and no
reception that may be its frame is under way (R211). `interval` is the partner's beacon interval in µs. -/
def Block.guardExpiry (b : Block) (row interval : Nat) : Block :=
  let from_ := b.now - 2 * b.guard (b.elapsedOf row)
  let heard := (assocGet b.mac.heardNbr row).any fun t => decide (from_ ≤ t)
  if b.nbrUsed row && b.radioOn .l && !heard && !b.hearing .l b.now then b.lostStart row (us interval) 1 else b

/-- The predicted beacon of listen `k` of a lost-partner run: k intervals after the one that was missed (R212). -/
def Lost.beaconAt (x : Lost) (guard k : Nat) : Nat := x.start - guard + k * x.interval

/-- The edge listens for a lost partner now: in the window of the next predicted beacon, or all through a scan (R108,
R212). -/
def Block.listening (b : Block) (x : Lost) : Bool :=
  let t := x.beaconAt (b.guard x.elapsed) (x.k + 1)
  let w := b.listenWidth x (x.k + 1)
  x.step == 2 || (decide (t ≤ b.now + w) && decide (b.now ≤ t + w))

/-- The mains-powered neighbour with the best link, the lowest row of equals (R100); `not` is left out. -/
def Block.bestParent (b : Block) (not : Option Nat) : Option Nat :=
  ((b.listedRows Obj.nbrAddr).filter fun r => b.get Obj.nbrRole r == 2 && some r != not).foldl (fun best r =>
    match best with
    | none => some r
    | some q => if b.get Obj.nbrLinkMetric q < b.get Obj.nbrLinkMetric r then some r else best) none

/-- The parent in Day Watch: DW_PARENT, or the best (R99, R100). -/
def Block.chooseParent (b : Block) : Option Nat :=
  let v := b.get Obj.dwParent
  if v = 65535 then b.bestParent none else if v < 1024 && b.nbrUsed v then some v else none

/-- In Day Watch no parent is chosen though one could be, and polling is not suspended (R100). -/
def Block.parentMissing (b : Block) : Bool :=
  b.mode.mode == .dayWatch && b.mac.parent.isNone && !b.mac.suspended && b.chooseParent.isSome

/-- A parent is chosen where one is missing: the former one has departed, or the first that can be one has come
(R100). -/
def Block.parentFound (b : Block) : Block :=
  if b.parentMissing then b.modMac fun m => { m with parent := b.chooseParent } else b

/-- A write of DW_PARENT in Day Watch changes the parent (R99). -/
def Block.writeDwParent (b : Block) (v : Nat) : Nat × Block :=
  let b1 := b.put Obj.dwParent v
  (0, if b1.mode.mode = .dayWatch then b1.modMac fun m => { m with parent := b1.chooseParent, suspended := false, polling := false }
    else b1)

/-- A Day Watch parent that stays lost is replaced; with no other, polling is suspended until the next scan (R100,
R212). -/
def Block.replaceParent (b : Block) (row : Nat) : Block :=
  if b.mode.mode = .dayWatch && b.mac.parent = some row then
    let p := b.bestParent (some row)
    b.modMac fun m => { m with parent := p, suspended := p.isNone }
  else b

/-! ### Departure by inactivity (R210) -/

/-- The inactivity time of a neighbour in ticks: three poll periods or CHILD_TIMEOUT for a child, NBR_TIMEOUT for
another (R210). -/
def Block.nbrTimeoutOf (b : Block) (row : Nat) : Nat :=
  if b.isChild row then
    secs (if b.get Obj.nbrPollPeriod row = 0 then b.get Obj.childTimeout else 3 * b.get Obj.nbrPollPeriod row)
  else secs (b.get Obj.nbrTimeout)

/-- INACTIVITY_EXPIRY: a destination of which nothing has been heard for its time departs; a reception under way that
started no later than the expiry may be its frame (R210). -/
def Block.inactivity (b : Block) (who : Sender) : Block :=
  match who with
  | .station row =>
    let end_ := assocNat b.mac.heardSta row + secs (b.get Obj.staIdleTime)
    if b.now < end_ || b.hearing (b.staRadio row) end_ then b else b.departStation row
  | .neighbour row =>
    let end_ := assocNat b.mac.heardNbr row + b.nbrTimeoutOf row
    if b.now < end_ || b.hearing .l end_ then b else b.departNeighbour row
  | _ => b

/-! ### Rounds (R214, R215) -/

/-- Octets queued for a station. -/
def Block.staDemand (b : Block) (row : Nat) : Nat :=
  sumOfList ((b.frames.filter fun f => f.inScope 2 row).map (·.pkt.len))

/-- A station has shaper credit above 0 on at least one of its queues. -/
def Block.staCredit (b : Block) (row : Nat) : Bool :=
  (List.range 8).any fun t =>
    match b.shaperOf (8 * row + t) with
    | none => true
    | some s => decide (0 < (b.shapNow s).tokens)

/-- The TSF of the device in µs: presented time (R227). -/
def Block.tsf (b : Block) : Nat := (b.presented / usUnit).toNat % 2 ^ 64

/-- A broadcast TWT of a radio and BSS has its service period open, or opens within TWT_LEAD (R218, R225). -/
def Block.btwtOpen (b : Block) (rbss : Nat) : Bool :=
  (List.range 32).any fun i =>
    let every := b.get Obj.btwtInterval i
    let at_ := b.tsf + b.get Obj.twtLead + every - b.get Obj.btwtOffset i
    b.get Obj.btwtRadioBss i == rbss && every != 0 &&
      decide (at_ % every < b.get Obj.btwtSp i + b.get Obj.twtLead)

/-- A station's service period is open (R218). -/
def Block.inPeriod (b : Block) (row : Nat) : Bool :=
  (assocGet b.mac.inSp row).any fun e => decide (b.now ≤ e)

/-- A station is awake, and in a service period if it uses TWT; a dozing station takes what answers its PS-Poll, and
under U-APSD what answers its trigger (R214, R217, R218; the end of that service period is the model's, DEDUCED, log
entry 189). -/
def Block.staAwake (b : Block) (row : Nat) : Bool :=
  match b.get Obj.staPsState row with
  | 0 => true
  | 1 | 2 => b.mac.psPoll.contains row
  | 4 => b.btwtOpen (b.get Obj.staRadioBss row)
  | _ => b.inPeriod row

/-- A station may be a candidate of a radio's round. -/
def Block.eligible (b : Block) (r : Radio) (row : Nat) : Bool :=
  b.get Obj.staState row == 2 && b.staRadio row == r && b.staAwake row && b.staCredit row

/-- The associated rows of a radio, oldest service first, ties by the lower row (R214). -/
def Block.byAge (b : Block) (rows : List Nat) : List Nat :=
  sortBy (fun x y => decide (assocNat b.mac.servedSta x ≤ assocNat b.mac.servedSta y)) rows

/-- The candidate lists of a radio now: downlink by queued octets, uplink by the last buffer status report. -/
def Block.candidates (b : Block) (r : Radio) : List Nat × List Nat :=
  let rows := b.byAge ((b.listedRows Obj.staState).filter (b.eligible r))
  (rows.filter fun x => b.staDemand x != 0, rows.filter fun x => assocNat b.mac.reports x != 0)

/-- ROUND_START: once ROUND_TIME has passed since the last round, both lists are built anew (R214). -/
def Block.roundStart (b : Block) (r : Radio) : Block :=
  if r == .l || !b.radioOn r || (assocGet b.mac.roundAt (radioNum r)).any (fun t => decide (b.now < t + ms (b.get Obj.roundTime))) then b
  else
    let c := b.candidates r
    (b.modMac fun m =>
      { m with
        down := m.down.set (radioNum r) c.1, up := m.up.set (radioNum r) c.2
        roundAt := assocPut m.roundAt (radioNum r) b.now }).emit (.radio r 15 (c.1 ++ [65535] ++ c.2))

/-- A station that becomes eligible during a round joins the tails of the lists (R214). -/
def Block.joinLists (b : Block) (row : Nat) : Block :=
  let r := b.staRadio row
  let add (l : List Nat) (p : Bool) := if p && !l.contains row then l ++ [row] else l
  if b.eligible r row then
    b.modMac fun m =>
      { m with
        down := modAt m.down (radioNum r) fun l => add l (b.staDemand row != 0)
        up := modAt m.up (radioNum r) fun l => add l (assocNat b.mac.reports row != 0) }
  else b

/-- Users served move to the tails of their lists, and their ages restart (R214, R215). -/
def Block.serve (b : Block) (r : Radio) (rows : List Nat) : Block :=
  let move (l : List Nat) := l.filter (fun x => !rows.contains x) ++ l.filter fun x => rows.contains x
  b.modMac fun m =>
    { m with
      down := modAt m.down (radioNum r) move, up := modAt m.up (radioNum r) move
      servedSta := rows.foldl (fun l x => assocPut l x b.now) m.servedSta }

/-- The effective cap on the users of a schedule (R215). -/
def Block.userCap (b : Block) (r : Radio) : Nat :=
  let width := match (b.radio r).bw with
    | 20000 => 9
    | 40000 => 18
    | 80000 => 37
    | _ => 74
  let set := if r == .h then (b.get Obj.usersMaxH, b.get Obj.usersLehrH) else (b.get Obj.usersMaxM, b.get Obj.usersLehrM)
  min width (min set.1 set.2)

/-- The resource units of HE, smallest first: their tones and data subcarriers (PRESUMED, log entry 178). -/
def ruSizes : List (Nat × Nat) := [(26, 24), (52, 48), (106, 102), (242, 234), (484, 468), (996, 980), (1992, 1960)]

/-- The tones that a channel holds in resource units, by its width in kHz. -/
def channelTones (bw : Nat) : Nat :=
  match bw with
  | 20000 => 242
  | 40000 => 484
  | 80000 => 996
  | _ => 1992

/-- Twelve times the bits that one data subcarrier carries in a symbol, by MCS (PRESUMED, log entry 178). -/
def mcsBits12 (mcs : Nat) : Nat := [6, 12, 18, 24, 36, 48, 54, 60, 72, 80, 90, 100].getD mcs 6

/-- The MCS of a receiver. -/
def Block.mcsOf (b : Block) (recv : Nat) : Nat := assocNat b.mac.mcs recv

/-- The octets that a resource unit carries at an MCS in a duration in µs, in symbols of 13.6 µs. -/
def ruOctets (data mcs dur : Nat) : Nat := dur * 10 / 136 * data * mcsBits12 mcs / 96

/-- The smallest resource unit in which a demand fills no more than the duration, or the largest there is (R215). -/
def smallestRu (limit demand mcs dur : Nat) : Nat :=
  ((ruSizes.find? fun x => decide (demand ≤ ruOctets x.2 mcs dur) && decide (x.1 ≤ limit)).map (·.1)).getD limit

/-- The next larger resource unit. -/
def nextRu (tones : Nat) : Nat := ((ruSizes.find? fun x => decide (tones < x.1)).map (·.1)).getD tones

/-- The tones left go to the oldest users: each in turn takes the next larger unit while it fits (R215). -/
def growRus : Nat → List (Nat × Nat) → List (Nat × Nat) → List (Nat × Nat)
  | _, done, [] => done
  | spare, done, (u, n) :: l =>
    let more := nextRu n - n
    if more ≤ spare then growRus (spare - more) (done ++ [(u, n + more)]) l else growRus spare (done ++ [(u, n)]) l

/-- The resource units of a schedule (R215): the smallest for each user, oldest first, the spare tones to the oldest. -/
def Block.assignRus (b : Block) (r : Radio) (dur : Nat) (users : List (Nat × Nat)) : List (Nat × Nat) :=
  let room := channelTones (b.radio r).bw
  let least := users.map fun x => (x.1, smallestRu room x.2 (b.mcsOf x.1) dur)
  growRus (room - sumOfList (least.map (·.2))) [] least

/-! ### Stations (R216, R223, R227) -/

/-- A BSS of a radio is served: enabled, in Full Service or Degraded Service (R227), through a drain too (R96). -/
def Block.bssServed (b : Block) (r : Radio) (bss : Nat) : Bool :=
  decide (bss < 16) && r != .l && b.radioOn r && (b.baseMode == .fullService || b.baseMode == .degraded) &&
    b.is (Obj.bssEnable.of r) bss

/-- The number of associated stations on both radios. -/
def Block.stationCount (b : Block) : Nat :=
  ((b.listedRows Obj.staState).filter fun r => b.get Obj.staState r == 2).length

/-- An association is within every limit (R216, R227). -/
def Block.admits (b : Block) (r : Radio) (bss : Nat) : Bool :=
  decide (b.stationCount < min 512 (min (b.get Obj.stationLimit) (b.get Obj.stationLehr))) &&
    decide (b.get (Obj.bssStations.of r) bss < b.get (Obj.bssMaxSta.of r) bss)

/-- A station row becomes associated. -/
def Block.associate (b : Block) (row : Nat) : Block :=
  let reg := Obj.bssStations.of (b.staRadio row)
  let bss := b.get Obj.staRadioBss row % 16
  ((b.put Obj.staState 2 row).add reg 1 bss).joinLists row

/-- A station row that associates reaches STATE 2 when its pairwise key is in a context bound to it (R227). -/
def Block.keyBound (b : Block) (row : Nat) : Block :=
  if b.get Obj.staState row = 1 then
    match b.boundCtx 1 row with
    | some c => if b.get Obj.ctxState c = 1 then b.associate row else b
    | none => b
  else b

/-- Every station that waits for its key is looked at again. -/
def Block.keysBound (b : Block) : Block :=
  ((b.listedRows Obj.staState).filter fun r => b.get Obj.staState r == 1).foldl Block.keyBound b

/-- The Maximum A-MPDU Length Exponent that the device advertises to its stations: the largest of 0 to 7 whose length
of 2^(13 + e) − 1 octets does not exceed RX_RESERVE_STA (R272). -/
def Block.ampduExponent (b : Block) : Nat :=
  maxOf ((List.range 8).filter fun e => decide (2 ^ (13 + e) - 1 ≤ b.get Obj.rxReserveSta))

/-- ASSOC_REQUEST (R216, R227): admitted into a free row, or refused with status 17. A station that is already in the
table associates anew. With AKM 0 it is associated at once, else when its key is bound. During a drain every request
is refused (R96; the status is the model's, DEDUCED, log entry 181). -/
def Block.assocRequest (b : Block) (r : Radio) (bss addr : Nat) (uapsd : Bool) : Block :=
  if !b.bssServed r bss then b
  else if b.mode.drain.isSome then b.emit (.radio r 8 [bss, addr, 17])
  else
    let old := (b.listedRows Obj.staState).find? fun x => b.get Obj.staAddr x == addr
    let b0 := match old with
      | some x => b.departStation x
      | none => b
    let free := (List.range 512).find? fun x => !b0.staUsed x
    if !b0.admits r bss || free.isNone then (b0.add Obj.admitRefused).emit (.radio r 8 [bss, addr, 17])
    else
      let row := free.getD 0
      let b1 := ((((b0.put Obj.staState 1 row).put Obj.staRadioBss (16 * radioNum r + bss) row).put Obj.staAddr addr row).put
        Obj.staAid (row + 1) row).hearSta row b0.now
      let b2 := (b1.modMac fun m =>
        { m with uapsd := m.uapsd.filter (· != row) ++ if uapsd then [row] else [] }).emit (.radio r 8 [bss, addr, 0, b0.ampduExponent])
      if b.get (Obj.bssAkm.of r) bss = 0 then b2.associate row else b2.keyBound row

/-- PROBE_REQUEST (R227): every served BSS whose SSID the request carries answers; the wildcard is answered unless the
SSID is hidden. `ssid` is the number that the `len` octets give, most significant first. -/
def Block.probeRequest (b : Block) (r : Radio) (ssid len : Nat) : Block :=
  (List.range 16).foldl (fun (c : Block) bss =>
    let n := b.get (Obj.bssSsidLen.of r) bss
    let name := b.get (Obj.bssSsid.of r) bss / 256 ^ (32 - n)
    let hit := if len = 0 then !b.is (Obj.bssHideSsid.of r) bss else n == len && name == ssid
    if b.bssServed r bss && hit then c.emit (.radio r 9 [bss, b.ampduExponent]) else c) b

/-- TWT_SETUP: accepted, or answered with a Dictate TWT of TWT_MIN_SP; a station may instead join the broadcast
schedules of its BSS (R218). -/
def Block.twtSetup (b : Block) (row sp : Nat) (broadcast : Bool) : Block :=
  if b.get Obj.staState row = 2 then
    let r := b.staRadio row
    if broadcast then (b.put Obj.staPsState 4 row).emit (.radio r 10 [row, 2, 0])
    else if b.is Obj.twtEnable && decide (b.get Obj.twtMinSp ≤ sp) then
      ((b.modMac fun m => { m with twt := assocPut m.twt row sp }).put Obj.staPsState 3 row).emit (.radio r 10 [row, 1, sp])
    else b.emit (.radio r 10 [row, 0, b.get Obj.twtMinSp])
  else b

/-- TWT_LEAD_START: the station's frames are offered from TWT_LEAD before its service period on (R218). -/
def Block.twtLeadStart (b : Block) (row : Nat) : Block :=
  match assocGet b.mac.twt row with
  | none => b
  | some sp => (b.modMac fun m => { m with inSp := assocPut m.inSp row (b.now + us (b.get Obj.twtLead) + us sp) }).joinLists row

/-- TWT_SP_START: the service period opens; a station that attends counts as heard (R210, R218). -/
def Block.twtSpStart (b : Block) (row : Nat) (attended : Bool) : Block :=
  match assocGet b.mac.twt row with
  | none => b
  | some sp =>
    let b1 := (b.modMac fun m => { m with inSp := assocPut m.inSp row (b.now + us sp) }).joinLists row
    if attended then b1.hearSta row b.now else b1

/-- A write of ENABLE of a BSS (R227): 1 answers RANGE where the row's configuration is not complete; 0 makes every
station of the BSS depart. -/
def Block.writeBssEnable (b : Block) (r : Radio) (bss v : Nat) : Nat × Block :=
  let g (x : Reg) (k : Nat) := b.get (x.of r) k
  if v = 0 then
    let rows := (b.listedRows Obj.staState).filter fun x => b.get Obj.staRadioBss x == 16 * radioNum r + bss
    (0, ((rows.foldl Block.departStation b).put (Obj.bssEnable.of r) 0 bss).modRadio r fun u => { u with idleFrom := b.now })
  else
    let id := g Obj.bssBssid bss
    let twice := [Radio.h, Radio.m].any fun q => (List.range 16).any fun k =>
      !(q == r && k == bss) && b.is (Obj.bssEnable.of q) k && b.get (Obj.bssBssid.of q) k == id
    let ctx := g Obj.bssGroupCtx bss
    let keyed := decide (ctx < 2048) && decide (1 ≤ b.get Obj.ctxAlg ctx) && decide (b.get Obj.ctxAlg ctx ≤ 4) &&
      b.get Obj.ctxBind ctx == 2 * 2 ^ 24 + 16 * radioNum r + bss
    if id = 0 || twice || g Obj.bssSsidLen bss = 0 || (g Obj.bssAkm bss ≠ 0 && !keyed) then (6, b)
    else (0, b.put (Obj.bssEnable.of r) 1 bss)

/-- A write of SSID, SSID_LEN, BSSID, AKM or PAIRWISE: BUSY while the BSS is enabled (R227). -/
def Block.writeBss (b : Block) (r : Reg) (rad : Radio) (bss v : Nat) : Nat × Block :=
  if b.is (Obj.bssEnable.of rad) bss then (9, b) else (0, b.put (r.of rad) v bss)

/-- A write of KICK: 1 removes the station under code 1; a row not in use answers BUSY (R223). -/
def Block.writeKick (b : Block) (row v : Nat) : Nat × Block :=
  if !b.staUsed row then (9, b) else (0, if v = 1 then b.departStation row else b)

/-- A write of REMOVE: 1 removes the neighbour under code 1; a free row answers BUSY (R223). -/
def Block.writeRemove (b : Block) (row v : Nat) : Nat × Block :=
  if !b.nbrUsed row then (9, b) else (0, if v = 1 then b.departNeighbour row else b)

/-- A write of ADDR of a neighbour row (R223): RANGE for an address held in another row; a free row is admitted with
every other subindex at its default. An address of zero in a row in use frees it. -/
def Block.writeNbrAddr (b : Block) (row v : Nat) : Nat × Block :=
  if v = 0 then (0, b.departNeighbour row)
  else if (b.listedRows Obj.nbrAddr).any fun x => x != row && b.get Obj.nbrAddr x == v then (6, b)
  else if b.get Obj.nbrAddr row = v then (0, b)
  else
    let b1 := if b.nbrUsed row then b else b.clearRow nbrRegs row
    (0, (((b1.put Obj.nbrAddr v row).setNbrMac { row := row }).hearNbr row b.now).timeNbr row)

/-- A write to another subindex of a neighbour row: BUSY on a free row; at most 768 children (R223). -/
def Block.writeNbr (b : Block) (r : Reg) (row v : Nat) : Nat × Block :=
  if !b.nbrUsed row then (9, b)
  else
    let kids := ((b.listedRows Obj.nbrRole).filter fun x => x != row && b.isChild x).length
    if r.sub = 3 && v = 1 && 768 ≤ kids then (6, b) else (0, b.put r v row)

/-! ### CSMA-CA on Radio L (R198) -/

/-- The CSMA-CA of a frame starts: no busy CCA yet, BE at MIN_BE, the first back-off a free value. -/
def Block.csmaStart (b : Block) : Block :=
  let be := b.get Obj.minBe
  ({ b with fresh := b.fresh + 1 }).modMac fun m => { m with csma := some (0, be, Config.freeNat b.fresh % 2 ^ be) }

/-! ### The cell of the present slot (R211, R220) -/

/-- The time from the start of a slot to its frame, and from the end of that frame to its acknowledgement, in µs:
macTsTxOffset and macTsTxAckDelay (PRESUMED, log entry 35). -/
def tsTxOffset : Nat := 2120

/-- macTsTxAckDelay in µs. -/
def tsAckDelay : Nat := 1000

/-- The time that an ASN predicts for what starts `after` µs into its slot (R219, R324). -/
def Block.slotTime (b : Block) (asn after : Nat) : Int :=
  ofTime112 (b.get Obj.tschEpoch) + ((asn * b.get Obj.timeslot + after : Nat) : Int) * usUnit

/-- The offset sample that a frame of a neighbour gives the domains whose source it is (R324): the time that its ASN
predicts less the time of its arrival at the tick `n`. -/
def Block.nbrSample (b : Block) (row asn after n : Nat) : Block :=
  [0, 1].foldl (fun (c : Block) d =>
    if c.get Obj.domSource d = 2 && c.get Obj.domSourceArg d = row && c.coreA then
      let t := c.inScaleAgo (d + 1) (gain 0 (c.now - n))
      c.sample d ((c.slotTime asn after - t) / 2 ^ 40) (t / 2 ^ 40)
    else c) b

/-- The present cell takes its timing from a neighbour: the ASN of its slot (R220). -/
def Block.keepsTime (b : Block) (row : Nat) : Option Nat :=
  match b.mac.cell with
  | some (cell, _, asn) =>
    let n := b.get Obj.cellNeighbour cell
    if bitSet (b.get Obj.cellOptions cell) 3 && (n == row || n == 65535) then some asn else none
  | none => none

/-- In a cell with the timekeeping option a frame or an acknowledgement of its neighbour, due `after` µs into the slot
and come at the tick `n`, corrects the timing (R220, R324). -/
def Block.timeInCell (b : Block) (row after n : Nat) : Block :=
  match b.keepsTime row with
  | some asn => (b.timeNbr row).nbrSample row asn after n
  | none => b

/-- The back-off of shared cells to a neighbour: its exponent and the cells that are still to pass (R220). -/
def Block.cellBackOf (b : Block) (row : Nat) : Option (Nat × Nat) := (b.mac.cellBack.find? fun x => x.1 == row).map (·.2)

/-- A transmission in a cell has ended (R220): a failure in a shared one draws a back-off, whose exponent grows from
MIN_BE to MAX_BE; a success ends it. -/
def Block.cellOutcome (b : Block) (row : Nat) (ok : Bool) : Block :=
  let others := b.mac.cellBack.filter fun x => x.1 != row
  match b.mac.cell with
  | none => b
  | some (cell, _, _) =>
    if ok then b.modMac fun m => { m with cellBack := others }
    else if bitSet (b.get Obj.cellOptions cell) 2 then
      let be := match b.cellBackOf row with
        | some x => min (x.1 + 1) (b.get Obj.maxBe)
        | none => b.get Obj.minBe
      ({ b with fresh := b.fresh + 1 }).modMac fun m =>
        { m with cellBack := others ++ [(row, be, Config.freeNat b.fresh % 2 ^ be)] }
    else b

end Sys2Proof.Machine
end

