-- ==== Sys2Proof/Machine/Coex.lean ====
section
/-!
DEFINITION. Coexistence between the radios and with COEX_IN, and the lines of the front-end modules: blanking,
COEX_OUT and the FEM control lines (R140, R155 to R158, R169).
-/

namespace Sys2Proof.Machine

/-! ### Receptions of a radio -/

/-- The reception of a radio: Radio M has a second one on chain M1 in split mode (R175). -/
def RadioUnit.rxOf (u : RadioUnit) (m1 : Bool) : Option Rx := if m1 then u.rx1 else u.rx

/-- The reception of a radio replaced. -/
def RadioUnit.setRx (u : RadioUnit) (m1 : Bool) (x : Option Rx) : RadioUnit :=
  if m1 then { u with rx1 := x } else { u with rx := x }

/-- A PPDU of the radio is on air, its response is awaited, or a frame is being received (R141). -/
def RadioUnit.inPpdu (u : RadioUnit) : Bool :=
  u.air.isSome || u.phase == .awaiting || u.rx.isSome || u.rx1.isSome

/-- Radio M takes up or leaves split mode at a PPDU boundary (R175). -/
def Block.splitFollow (b : Block) : Block :=
  if (b.radio .m).inPpdu then b else b.modRadio .m fun u => { u with split := b.get Obj.splitState == 1 }

/-- The chains on which a reception combines, in the field map of R158. Split, Radio M has one chain for each part. -/
def Block.rxChains (b : Block) (r : Radio) (m1 : Bool) : Nat :=
  match r with
  | .h => 15
  | .m => if (b.radio .m).split then (if m1 then 32 else 16) else 48
  | .l => 64

/-- The status word of R191. -/
def rxStatusWord (status format rate branch : Nat) (i : RxInfo) : Nat :=
  status * 2 ^ 56 + format % 256 * 2 ^ 48 + rate % 256 * 2 ^ 40 + (i.rssi % 4096).toNat * 2 ^ 28 +
    i.snr % 256 * 2 ^ 20 + branch % 16 * 2 ^ 16 + (i.cfo % 65536).toNat

/-- The form of a PPDU of Radio L that a branch finds: the branch gives the format, and on SUN FSK and in reach mode
the rate (R183). -/
def lowForm (branch : Nat) (f : PpduForm) : PpduForm :=
  { f with
    branch, format := if branch < 4 then fmtReach else if branch < 9 then 0x20 else if branch = 9 then 0x21 else 0x22
    rate := if branch < 9 then branch else f.rate, width := if branch < 4 then 250 else f.width }

/-- The status word of a reception: its header gives FORMAT, RATE and, on Radio H and M, the streams; on Radio L
BRANCH is its branch, which gives the format before a header. Elsewhere a PPDU without a header is unrecognised (R191;
DEDUCED, log entry 157). -/
def Rx.word (x : Rx) (r : Radio) (status : Nat) (i : RxInfo) : Nat :=
  match x.head with
  | some h => rxStatusWord status h.form.format h.form.rate (if r == .l then x.branch else h.form.streams - 1) i
  | none =>
    if r == .l then rxStatusWord status (lowForm x.branch {}).format (lowForm x.branch {}).rate x.branch i
    else rxStatusWord status 0xFF 0 0 i

/-- A reception ends without a frame, with its status. -/
def Block.endRx (b : Block) (r : Radio) (m1 : Bool) (status : Nat) : Block :=
  match (b.radio r).rxOf m1 with
  | none => b
  | some x =>
    ((b.modRadio r fun u => ({ u with quietFrom := b.now } : RadioUnit).setRx m1 none).edgeResult r 11
      [x.word r status { rssi := x.power }]).splitFollow

/-! ### Blanking (R155 to R158) -/

/-- The blank source of a PPDU of a radio: chain M1 is one of its own (R155). -/
def blankSource (r : Radio) (format : Nat) : Nat :=
  match r with
  | .h => 0
  | .m => if format = fmtOqpsk24 then 2 else 1
  | .l => 3

/-- BLANK_BY of a source (R169). -/
def blankReg (source : Nat) : Reg :=
  match source with
  | 0 => Obj.blankByH
  | 1 => Obj.blankByM0
  | 2 => Obj.blankByM1
  | 3 => Obj.blankByL
  | 4 => Obj.blankByIn0
  | _ => Obj.blankByIn1

/-- The bits of a BLANK_BY object that read 1 and ignore writes: those of the source's own radio; in split mode the
chain of the other part of Radio M is writable (R158). -/
def Block.blankFixed (b : Block) (source : Nat) : Nat :=
  match source with
  | 0 => 15
  | 1 => if (b.radio .m).split then 16 else 48
  | 2 => if (b.radio .m).split then 32 else 48
  | 3 => 64
  | _ => 0

/-- What a BLANK_BY object reads (R158). -/
def Block.blankShown (b : Block) (source : Nat) : Nat := b.get (blankReg source) ||| b.blankFixed source

/-- A write of a BLANK_BY object (R158). -/
def Block.writeBlankBy (b : Block) (source v : Nat) : Nat × Block := (0, b.put (blankReg source) (v ||| b.blankFixed source))

/-- The receive chains that the active blank lines blank; outside split mode BLANK_BY_M1 is ignored (R158). -/
def Block.blankMask (b : Block) : Nat :=
  b.coex.blanks.foldl (fun m s => if s = 2 && !(b.radio .m).split then m else m ||| b.blankShown s) 0

/-- Every chain of a reception is blanked by a mask. -/
def Block.covers (b : Block) (mask : Nat) (r : Radio) (m1 : Bool) : Bool := (mask &&& b.rxChains r m1) == b.rxChains r m1

/-- Every chain of a reception is blanked. -/
def Block.isBlanked (b : Block) (r : Radio) (m1 : Bool) : Bool := b.covers b.blankMask r m1

/-- Every chain of a reception has been blanked in this very tick (R156). -/
def Block.blankedNow (b : Block) (r : Radio) (m1 : Bool) : Bool :=
  b.isBlanked r m1 && b.coex.riseAt == b.now && !b.covers b.coex.before r m1

/-- The BLANKED counter of a radio. -/
def blankedReg (r : Radio) : Reg :=
  match r with
  | .h => Obj.blankedH
  | .m => Obj.blankedM
  | .l => Obj.blankedL

/-- Receptions whose every chain is blanked end as blanked (R156). -/
def Block.applyBlanks (b : Block) : Block :=
  [(Radio.h, false), (.m, false), (.m, true), (.l, false)].foldl (fun (c : Block) x =>
    if ((c.radio x.1).rxOf x.2).isSome && c.isBlanked x.1 x.2 then (c.endRx x.1 x.2 3).add (blankedReg x.1) else c) b

/-- A blank line rises (R155). -/
def Block.blankOn (b : Block) (source : Nat) : Block :=
  let c := b.coex
  { b with coex :=
      { blanks := if c.blanks.contains source then c.blanks else c.blanks ++ [source]
        tails := c.tails.filter fun x => x.1 != source
        riseAt := b.now
        before := if c.riseAt = b.now then c.before else b.blankMask } }.applyBlanks

/-- The source of a blank line ends: the blank lasts BLANK_TAIL longer (R155). -/
def Block.blankTail (b : Block) (source : Nat) : Block :=
  let c := b.coex
  if c.blanks.contains source && !c.tails.any fun x => x.1 == source then
    { b with coex := { c with tails := c.tails ++ [(source, b.now)] } }
  else b

/-- BLANK_TAIL_EXPIRY: BLANK_TAIL after its source the blank ends (R155, R156). -/
def Block.blankOff (b : Block) (source : Nat) : Block :=
  let c := b.coex
  if c.tails.any fun x => x.1 == source && decide (x.2 + us (b.get Obj.blankTail) ≤ b.now) then
    { b with coex := { c with blanks := c.blanks.filter (· != source), tails := c.tails.filter fun x => x.1 != source } }
  else b

/-- An input's blank line follows its level under its polarity (R155, R169). -/
def Block.coexInLine (b : Block) (input : Nat) : Block :=
  let level := if input = 0 then b.pins.coexIn0 else b.pins.coexIn1
  if level != bitSet (b.get Obj.coexPolarity) input then
    (if b.coex.blanks.contains (4 + input) && !b.coex.tails.any (fun x => x.1 == 4 + input) then b else b.blankOn (4 + input))
  else b.blankTail (4 + input)

/-- COEX_IN_CHANGE: an input changes after its filter (R155). -/
def Block.coexIn (b : Block) (input : Nat) (level : Bool) : Block :=
  let p := if input = 0 then { b.pins with coexIn0 := level } else { b.pins with coexIn1 := level }
  { b with pins := p }.coexInLine input

/-! ### COEX_OUT (R157, R169) -/

/-- The level of a COEX_OUT pin for a state of the line (R169). -/
def Block.coexLevel (b : Block) (r : Radio) (on : Bool) : Bool := on != bitSet (b.get Obj.coexPolarity) (2 + radioNum r)

/-- COEX_OUT of a radio is asserted or released (R157). -/
def Block.coexOut (b : Block) (r : Radio) (on : Bool) : Block :=
  if b.pins.coexOut.getD (radioNum r) false = on then b
  else { b with pins := { b.pins with coexOut := b.pins.coexOut.set (radioNum r) on } }.emit
    (.pin (8 + radioNum r) (b.coexLevel r on))

/-- A write of COEX_POLARITY: the outputs take their level under it, and the inputs are read anew (R169). -/
def Block.writeCoexPolarity (b : Block) (v : Nat) : Nat × Block :=
  let b1 := b.put Obj.coexPolarity v
  let b2 := radios3.foldl (fun (c : Block) r =>
    let on := b.pins.coexOut.getD (radioNum r) false
    if b.coexLevel r on == b1.coexLevel r on then c else c.emit (.pin (8 + radioNum r) (b1.coexLevel r on))) b1
  (0, (b2.coexInLine 0).coexInLine 1)

/-! ### The FEM control lines (R140) -/

/-- A chain of Radio H or M carries the PPDU on air: all do, but split each part of Radio M has its own. -/
def Block.chainSends (b : Block) (r : Radio) (k : Nat) : Bool :=
  match (b.radio r).air with
  | none => false
  | some a => !(b.radio r).split || (if a.cmd.ppdu.form.format = fmtOqpsk24 then k == 1 else k == 0)

/-- The number of FEM lines of a radio. -/
def femWidth : Radio → Nat
  | .h => 12
  | .m => 6
  | .l => 4

/-- The FEM lines of a radio that is on and has been tuned, 1 for an active one (R140): PA_EN and its inverse LNA_EN,
LNA_BYP at the two lowest gain steps; on Radio L BAND_SEL, TR_SW, LNA_EN and XPA_EN. -/
def Block.femLines (b : Block) (r : Radio) : Nat :=
  let u := b.radio r
  let bit (k : Nat) (p : Bool) := if p then 2 ^ k else 0
  if !b.radioOn r || u.freq == 0 then 0
  else if r == .l then
    bit 3 (bandOf .l u.freq == 1) + bit 2 u.air.isSome + bit 1 u.air.isNone + bit 0 (u.air.isSome && u.port == 1)
  else
    sumOfList ((List.range (femWidth r / 3)).map fun k =>
      bit (3 * k + 2) (b.chainSends r k) + bit (3 * k + 1) (!b.chainSends r k) + bit (3 * k) (decide (u.gains.getD k 255 ≤ 1)))

/-- The levels of a radio's FEM pins, under FEM_POLARITY (R140). -/
def Block.femLevels (b : Block) (r : Radio) : Nat :=
  (b.femLines r ^^^ b.get (Obj.femPolarity.of r)) % 2 ^ femWidth r

/-- The FEM pins of a radio follow its lines; what changes does so at a tick (R140). -/
def Block.femDrive (b : Block) (r : Radio) (at_ : Nat) : Block :=
  if b.pins.fem.getD (radioNum r) 0 = b.femLevels r then b
  else { b with pins := { b.pins with fem := b.pins.fem.set (radioNum r) (b.femLevels r) } }.emit
    (.radio r 21 [b.femLevels r, at_])

/-- A write of FEM_POLARITY (R140). -/
def Block.writeFemPolarity (b : Block) (r : Radio) (v : Nat) : Nat × Block :=
  (0, (b.put (Obj.femPolarity.of r) v).femDrive r b.now)

end Sys2Proof.Machine
end

