-- ==== Sys2Proof/Machine/Radio.lean ====
section
/-!
DEFINITION. The radio front ends and edges: tuning, calibration, gathers from selection to response, and transmit
commands from the sequencer's order to the end of their PPDU (R138 to R157, R166, R196 to R199, R251 to R253).
-/

namespace Sys2Proof.Machine

/-! ### Tuning (R139 to R144, R173, R174) -/

/-- The conditions of split mode beside SPLIT_ENABLE (R173). -/
def splitReachable (bw freq channel : Nat) : Bool :=
  let k := (freq - 2407000) / 5000
  bw == 20 && decide (2412000 ≤ freq) && decide (freq ≤ 2472000) && (freq - 2407000) % 5000 == 0 &&
    (channel == k + 8 || channel == k + 9 || channel == k + 14 || channel == k + 15) && decide (11 ≤ channel) &&
    decide (channel ≤ 26)

/-- SPLIT_STATE checked again (R173, R174); the chains follow at the next PPDU boundary. -/
def Block.checkSplit (b : Block) : Block :=
  (b.put Obj.splitState (if !b.is Obj.splitEnable then 0
    else if splitReachable (b.get (Obj.tuneBw.of .m)) (b.get (Obj.tuneFreq.of .m)) (b.get Obj.splitChannel) then 1
    else 2)).splitFollow

/-- A calibration is enabled; bit 4 of CAL_ENABLE is fixed at 1 (R145). -/
def Block.calOn (b : Block) (r : Radio) (kind : Nat) : Bool := kind == 4 || bitSet (b.get (Obj.calEnable.of r)) kind

/-- The calibration of a kind falls due, if it is enabled (R145). -/
def Block.calDue (b : Block) (r : Radio) (kind : Nat) : Block :=
  if b.calOn r kind then b.modRadio r fun u =>
    { u with due := if u.due.any fun x => x.1 == kind then u.due else u.due ++ [(kind, b.now)] }
  else b

/-- A calibration is due. -/
def RadioUnit.isDue (u : RadioUnit) (kind : Nat) : Bool := u.due.any fun x => x.1 == kind

/-- A channel availability check starts where the tuned channel of Radio H needs one (R164). -/
def Block.startCac (b : Block) : Block :=
  let u := b.radio .h
  let need := match u.shadow with
    | some g => g.needsDfs .h u.freq u.bw && g.ruleset != 0 && !b.subBarred u.freq u.bw
    | none => false
  { b with region := { b.region with cacDone := false, cacFrom := if need then some b.now else none } }

/-- The die temperature of a radio in 2^-16 °C has moved by CAL_TEMP_STEP or more since a run at another (R145). -/
def Block.tempStep (b : Block) (r : Radio) (t : Int) : Bool :=
  decide ((b.get (Obj.calTempStep.of r) : Int) * 65536 ≤ (b.geti (Obj.dieTemp.of r) - t).natAbs)

/-- A result of a calibration is stored for a band and the present temperature step (R145). -/
def Block.stored (b : Block) (r : Radio) (kind band : Nat) : Bool :=
  (b.radio r).cals.any fun x => x.kind == kind && x.band == band && !b.tempStep r x.temp

/-- CAL_STATUS after a tune to a band: the IQ and LO results stored from the last visit apply; DC and VCO must run
again (R145). -/
def Block.statusAfterTune (b : Block) (r : Radio) (band : Nat) : Nat :=
  (b.get (Obj.calStatus.of r) &&& 8) + (if b.stored r 1 band then 2 else 0) + if b.stored r 2 band then 4 else 0

/-- A synthesiser starts to settle on a channel (R141, R145): what calibration had begun is cancelled, the VCO
selection and the DC calibration fall due, across bands the IQ calibration too. -/
def Block.settleOn (b : Block) (r : Radio) (freq bw : Nat) : Block :=
  let u := b.radio r
  let cross := bandOf r u.freq != bandOf r freq || u.freq == 0
  let b1 := (b.modRadio r fun x =>
    { x with
      tuneDue := false, tuneFrom := b.now, freq := freq, bw := bw, idleFrom := b.now, segsDone := [], forced := [] }).put
    (Obj.synthState.of r) 1
  let b2 := ((b1.put (Obj.calStatus.of r) (b1.statusAfterTune r (bandOf r freq))).calDue r 4).calDue r 0
  let b3 := (if cross then b2.calDue r 1 else b2).femDrive r b.now
  match r with
  | .h => b3.startCac
  | .m => b3.checkSplit
  | .l => b3

/-- A tune: every unlocked gather of the radio is remelted (R141, R255 trigger 7). -/
def Block.tuneTo (b : Block) (r : Radio) (freq bw : Nat) : Block := (b.settleOn r freq bw).remelt 7 fun g => g.radio == r

/-- The home channel of a radio in kHz. The edge of Radio L takes the 250 kHz of reach mode as the width of its channel
(R177; DEDUCED, log entry 36). -/
def Block.homeChannel (b : Block) (r : Radio) : Nat × Nat :=
  (b.get (Obj.tuneFreq.of r), if r == .l then 250 else b.get (Obj.tuneBw.of r) * 1000)

/-- A write of TUNE_FREQ or TUNE_BW requests a tune (R141). -/
def Block.writeTune (b : Block) (reg : Reg) (r : Radio) (v : Nat) : Nat × Block :=
  (0, (b.put (reg.of r) v).modRadio r fun u => { u with tuneDue := true })

/-- A retune of the edge of Radio L to a channel of its own (R139); none where it is there already. -/
def Block.hopTo (b : Block) (freq : Nat) : Block := if freq = (b.radio .l).freq then b else b.tuneTo .l freq 250

/-- Radio L is to return to its home channel when no retune of its edge applies any more (R139). -/
def Block.goHome (b : Block) : Block :=
  if (b.radio .l).freq = (b.homeChannel .l).1 then b else b.modRadio .l fun u => { u with tuneDue := true }

/-- TUNE_START: a requested tune starts once no PPDU, exchange or segment runs (R141). -/
def Block.tuneStart (b : Block) (r : Radio) : Block :=
  let u := b.radio r
  if b.radioOn r && u.tuneDue && !u.inPpdu && u.seg.isNone then b.tuneTo r (b.homeChannel r).1 (b.homeChannel r).2 else b

/-- SYNTH_LOCK: the synthesiser locks once its VCO selection has run (R142, R143, R145). -/
def Block.synthLock (b : Block) (r : Radio) : Block :=
  let st := b.get (Obj.synthState.of r)
  if b.radioOn r && (st == 1 || st == 3) && !(b.radio r).isDue 4 then
    let t := min ((b.now - (b.radio r).tuneFrom) / 320) 65535
    (b.put (Obj.synthState.of r) 2).put (Obj.tuneTimeLast.of r) t
  else b

/-! ### The command of an edge -/

/-- The edge takes up a command: it waits, and contends where it must; a segment that runs is to be abandoned after
its end, one of this very tick does not start (R143, R147, R194, R198). -/
def Block.takeCmd (b : Block) (r : Radio) (c : TxCmd) (ac : Nat) : Block :=
  let b1 := b.modRadio r fun x =>
    { x with
      cmd := some c, phase := .waiting, waitFrom := b.now, delayed := false
      txop := if r == .l then none else x.txop.filter fun o => o.1 == ac
      seg := match x.seg with
        | some s => if s.at_ = b.now && s.kind != 4 then none
          else some { s with abandon := s.abandon || (s.kind != 4 && !s.forced) }
        | none => none }
  if c.kind != .contended then b1
  else if r == .l then b1.csmaStart
  else if (b1.radio r).txop.isSome then b1
  else b1.contend r ac

/-- The poll of the Day Watch parent is under way: its Data Request waits, is on air or deferred, or frames are
pending (R108, R213). -/
def Block.pollOpen (b : Block) : Bool :=
  let u := b.radio .l
  let poll (c : TxCmd) : Bool := match c.what with
    | .dataRequest _ => true
    | _ => false
  b.mac.polling || u.cmd.any poll || u.own.any poll || u.deferred.any poll

/-- The command of a radio ends; what the edge has to send of its own comes next (R227). After a poll Radio L goes
home (R139, R213). -/
def Block.endCmd (b : Block) (r : Radio) : Block :=
  let b0 := b.modRadio r fun u =>
    { u with cmd := none, phase := .idle, delayed := false, idleFrom := b.now, txop := if r == .l then none else u.txop }
  let b1 := if r == .l && b.pollOpen && !b0.pollOpen then b0.goHome else b0
  match (b1.radio r).own with
  | [] => b1
  | c :: l => (b1.modRadio r fun u => { u with own := l }).takeCmd r c 3

/-- A frame of the edge's own, or of its sequencer's, is to be sent: it is taken up at once, or behind the command
under way. Beacons contend with the parameters of AC_VO (R227). -/
def Block.sendOwn (b : Block) (r : Radio) (c : TxCmd) : Block :=
  if (b.radio r).phase = .idle then b.takeCmd r c 3 else b.modRadio r fun u => { u with own := u.own ++ [c] }

/-- LOCK_TIMEOUT_EXPIRY: LOCK_TIMEOUT has passed without lock, from the start of the tune or, after an earlier
timeout, from the command; the waiting command ends SYNTH_UNLOCKED (R143). -/
def Block.lockTimeout (b : Block) (r : Radio) : Block :=
  let st := b.get (Obj.synthState.of r)
  let u := b.radio r
  let from_ := if st = 1 then u.tuneFrom else u.waitFrom
  if b.radioOn r && (st == 1 || st == 3) && decide (from_ + us (b.get (Obj.lockTimeout.of r)) ≤ b.now) then
    let b1 := b.put (Obj.synthState.of r) 3
    if u.phase == .waiting then (b1.txStatus r 1).endCmd r else b1
  else b

/-! ### Calibration (R145 to R148) -/

/-- A calibration reruns at the end of CAL_PERIOD. -/
def calPeriodic (kind : Nat) : Bool := kind == 0 || kind == 2 || kind == 3

/-- A calibration reruns on a temperature step. -/
def calOnTemp (kind : Nat) : Bool := kind == 0 || kind == 1 || kind == 2

/-- The last run of a calibration. -/
def RadioUnit.lastCal (u : RadioUnit) (kind : Nat) : Option CalResult :=
  (u.cals.filter fun x => x.kind == kind).foldl (fun best x =>
    match best with
    | none => some x
    | some y => if y.at_ ≤ x.at_ then some x else best) none

/-- CAL_PERIOD_EXPIRY: a calibration falls due CAL_PERIOD after its last run, or on a temperature step since it, which
makes its result old (R145). -/
def Block.calPeriod (b : Block) (r : Radio) (kind : Nat) (step : Bool) : Block :=
  let last := (b.radio r).lastCal kind
  if !b.radioOn r then b
  else if step then
    if calOnTemp kind && last.all (fun x => b.tempStep r x.temp) then
      (b.calDue r kind).put (Obj.calStatus.of r) (clearBit (b.get (Obj.calStatus.of r)) kind)
    else b
  else if calPeriodic kind && last.all (fun x => decide (x.at_ + secs (b.get (Obj.calPeriod.of r)) ≤ b.now)) then b.calDue r kind
  else b

/-- The quiet time that a segment needs after a reception: one SIFS, on Radio L the turnaround of 1 ms (R146). -/
def calQuiet (r : Radio) : Nat := if r == .l then ms 1 else sifs r

/-- A waiting command that a forced segment may delay, once (R148). -/
def RadioUnit.mayDelay (u : RadioUnit) : Bool :=
  match u.cmd with
  | none => true
  | some c => u.phase == .waiting && c.kind == .contended && !u.delayed

/-- The medium and the schedule allow a segment (R146): no command pending or one that a forced segment may delay, no
reception and none lately, and `ahead`, the time to the sequencer's next event in ticks, beyond 8 µs and the ramp-up.
-/
def Block.calFree (b : Block) (r : Radio) (forced : Bool) (ahead : Nat) : Bool :=
  let u := b.radio r
  (u.cmd.isNone || (forced && u.mayDelay)) && !u.inPpdu && decide (calQuiet r < b.now - u.quietFrom) &&
    decide (us 8 + 32 * b.get (Obj.rampUp.of r) < ahead)

/-- The chains that a radio has (R137). -/
def chainCount : Radio → Nat
  | .h => 4
  | .m => 2
  | .l => 1

/-- CAL_SEGMENT_START (R141, R142, R146, R148): a due segment starts; those of the VCO selection run in the settling
interval, no other starts while a tune is to be made. -/
def Block.calStart (b : Block) (r : Radio) (kind chain ahead : Nat) : Block :=
  let u := b.radio r
  let forced := u.forced.contains kind
  let st := b.get (Obj.synthState.of r)
  let free := if kind = 4 then st == 1 || st == 3 else !u.tuneDue && b.calFree r forced ahead
  if b.radioOn r && decide (chain < chainCount r) && u.isDue kind && u.seg.isNone && free then
    b.modRadio r fun x => { x with seg := some { kind, chain, at_ := b.now, forced } }
  else b

/-- A calibration has completed: its result replaces the one of its band (R145). -/
def Block.calDone (b : Block) (r : Radio) (kind : Nat) : Block :=
  let band := bandOf r (b.radio r).freq
  let res : CalResult := { kind, band, temp := b.geti (Obj.dieTemp.of r), at_ := b.now }
  (b.modRadio r fun x =>
    { x with
      forced := x.forced.filter (· != kind)
      cals := x.cals.filter (fun y => !(y.kind == kind && y.band == band)) ++ [res] }).put
    (Obj.calStatus.of r) (setBit (b.get (Obj.calStatus.of r)) kind)

/-- CAL_SEGMENT_END: the segment counts, or is abandoned for a transmit command that came during it (R145, R147); a
forced one has delayed the command that waits, and counts (R148). With its last segment a calibration completes. -/
def Block.calEnd (b : Block) (r : Radio) (last : Bool) : Block :=
  match (b.radio r).seg with
  | none => b
  | some s =>
    let b1 := b.modRadio r fun x => { x with seg := none, delayed := x.delayed || (s.forced && x.cmd.isSome) }
    if s.abandon then b1.add (Obj.calAbandoned.of r)
    else
      let b2 := b1.add (Obj.calSegments.of r)
      let b3 := if s.forced then b2.add (Obj.calForced.of r) else b2
      if last then
        (b3.modRadio r fun x =>
          { x with due := x.due.filter (fun y => y.1 != s.kind), segsDone := assocDel x.segsDone s.kind }).calDone r s.kind
      else b3.modRadio r fun x => { x with segsDone := assocPut x.segsDone s.kind (assocNat x.segsDone s.kind + 1) }

/-- CAL_STARVE_EXPIRY: a calibration due for CAL_STARVE takes a forced segment (R148). -/
def Block.calStarve (b : Block) (r : Radio) (kind : Nat) : Block :=
  let u := b.radio r
  if (assocGet u.due kind).any (fun t => decide (t + ms (b.get (Obj.calStarve.of r)) ≤ b.now)) && !u.forced.contains kind then
    b.modRadio r fun x => { x with forced := x.forced ++ [kind] }
  else b

/-- PA_SUPPLY_READ: the power loop reads the supply (R150); none is read on Radio H or M without a PMBus page. -/
def Block.paSupply (b : Block) (r : Radio) (mv : Nat) : Block :=
  if b.radioOn r && (r == .l || b.get (Obj.paSupplyPage.of r) != 255) then b.modRadio r fun u => { u with paMv := mv } else b

/-! ### Gathers: select, build, seal (R246, R251 to R253, R308) -/

/-- The receiver and TID of a frame's queue on Radio H or M: its station, or 512 + its link with the stream's TID. -/
def Block.recvOf (b : Block) (f : Frame) : Option (Nat × Nat) :=
  if f.queue < 4096 then some (f.queue / 8, f.queue % 8)
  else if 4352 ≤ f.queue && decide (f.queue < 4608) then
    some (512 + (f.queue - 4352) / 8, b.get Obj.streamTid (f.queue - 4352))
  else none

/-- The neighbour row of a link's Strand L, or of a neighbour queue (R229). -/
def Block.lowNbr (b : Block) (f : Frame) : Option Nat :=
  if 4608 ≤ f.queue && decide (f.queue < 5632) then some (f.queue - 4608)
  else if 4352 ≤ f.queue && decide (f.queue < 4608) then
    (if b.get Obj.caneLNbr ((f.queue - 4352) / 8) < 1024 then some (b.get Obj.caneLNbr ((f.queue - 4352) / 8)) else none)
  else none

/-- The rate of a branch of Radio L in bit/s: reach mode as R182 has it, SUN FSK as its bit says, SUN O-QPSK and OFDM
at their lowest (R183; PRESUMED, log entry 182). -/
def branchRate (branch : Nat) : Nat :=
  [6250, 3125, 1563, 782, 50000, 100000, 150000, 200000, 300000, 6250, 100000, 50000, 50000, 25000].getD branch 6250

/-- The current rate of a strand in bit/s: on Radio H and M that of the peer's MCS on the tuned channel with one
stream, on Radio L that of the neighbour's mode (R246; PRESUMED, log entry 182). -/
def Block.strandRate (b : Block) (k : Nat) (x : Radio) : Nat :=
  if x == .l then branchRate (b.get Obj.nbrTxMode (b.get Obj.caneLNbr k))
  else
    let data := ((ruSizes.find? fun y => y.1 == channelTones (b.radio x).bw).map (·.2)).getD 234
    data * mcsBits12 (b.mcsOf (512 + k)) * 1000000 / 1632 * 10

/-- The airtime in µs of so many octets on a strand. -/
def Block.strandAir (b : Block) (k : Nat) (x : Radio) (octets : Nat) : Nat := octets * 8000000 / max 1 (b.strandRate k x)

/-- The delay in µs that the duty budget would put on a frame of a strand: until the next bin boundary, if the budget
does not cover it now (R204, R246). -/
def Block.strandDefer (b : Block) (x : Radio) (air : Nat) : Nat :=
  let u := b.radio x
  if (b.dutyShort x u.freq u.bw false (b.paOn x air .contended)).isEmpty then 0 else 1000000

/-- The predicted delivery of a frame on a strand in µs: what is placed there and has no answer yet, the frame itself,
and a deferral (R246). -/
def Block.predicted (b : Block) (k : Nat) (x : Radio) (len : Nat) : Nat :=
  let queued := b.frames.filter fun g => g.ofLink k && (g.strand == some x || g.twin == some x) && !g.acked
  let air := b.strandAir k x len
  b.strandAir k x (sumOfList (queued.map (·.pkt.len))) + air + b.strandDefer x air

/-- The PA-on time of a frame on a strand in 0.1 µs (R246). -/
def Block.strandOnTime (b : Block) (k : Nat) (x : Radio) (len : Nat) : Nat := b.paOn x (b.strandAir k x len) .contended

/-- The up strands in the order in which a stream chooses them by its POLICY: the earliest predicted delivery, or the
least PA-on time; of equals H, then M, then L. A pinned stream uses its strand while it is up, and another only with
PIN_FAILOVER (R246). -/
def Block.placement (b : Block) (srow len : Nat) : List Radio :=
  let k := srow / 8
  let ups := (b.upStrands k).filter fun x => !b.barFirst k x
  let order (cost : Radio → Nat) := sortBy (fun x y => decide (cost x ≤ cost y)) ups
  match b.get Obj.streamPolicy srow with
  | 1 => order fun x => b.strandOnTime k x len
  | 2 =>
    let pin := ups.filter fun x => radioNum x == b.get Obj.streamPin srow
    if !pin.isEmpty then pin else if b.is Obj.streamPinFailover srow then order fun x => b.predicted k x len else []
  | _ => order fun x => b.predicted k x len

/-- A frame may go on a strand (R246, R247): one not placed goes on the strand that its stream chooses, one whose
stream is CRITICAL on the first two of them. -/
def Block.mayPlace (b : Block) (f : Frame) (x : Radio) : Bool :=
  let srow := f.queue - 4352
  let twin := b.is Obj.streamCritical srow
  let l := (b.placement srow f.pkt.len).take (if twin then 2 else 1)
  l.contains x &&
    (match f.strand with
     | none => true
     | some y => twin && x != y && f.twin.isNone && !f.acked)

/-- A failed MPDU of a frame that waits as a retry on a radio. -/
def Block.retryOf (b : Block) (r : Radio) (fid : Nat) : Option Mpdu :=
  (b.gth.gathers.find? fun g => g.radio == r && g.state == .sent &&
    g.mpdus.any fun m => m.fid == some fid && m.failed && !m.resolved).bind fun g =>
      g.mpdus.find? fun m => m.fid == some fid && m.failed && !m.resolved

/-- At most 1,024 frames of a stream may be uncovered: a later one waits in the queue (R239). -/
def Block.inStreamWindow (b : Block) (f : Frame) : Bool :=
  decide (f.queue < 4352) || decide (4608 ≤ f.queue) ||
    decide (((b.frames.takeWhile fun g => g.id != f.id).filter fun g => g.queue == f.queue).length < 1024)

/-- The context of a frame's receiver holds no key or is exhausted, so that nothing new is selected under it (R302,
R308). -/
def Block.ctxOut (b : Block) (r : Radio) (f : Frame) : Bool :=
  match (b.recvOf f).bind fun x => b.sealCtx r x.1 with
  | some row => b.get Obj.ctxState row != 1
  | none => false

/-- A frame may be selected for a radio now (R197, R214, R246, R286): released, its queue not held, its receiver awake
or its strand allowed, not in a gather of that radio. -/
def Block.selectable (b : Block) (r : Radio) (f : Frame) : Bool :=
  let cane := decide (4352 ≤ f.queue)
  let ok :=
    if cane then b.mayPlace f r
    else b.get Obj.staState (f.queue / 8) == 2 && b.staRadio (f.queue / 8) == r && b.staAwake (f.queue / 8) &&
      f.state == .queued
  (b.recvOf f).isSome && f.queue != 8191 && f.released && !b.queueHeld f.queue &&
    ((b.retryOf r f.id).isSome ||
      (ok && b.inStreamWindow f && !b.ctxOut r f && !b.gth.gathers.any fun g => g.radio == r && g.holds f.id))

/-- The frames of a queue in the order in which they are offered: retries and resends first (R196, R245). -/
def Block.offered (b : Block) (r : Radio) (queue : Nat) : List Frame :=
  let l := b.frames.filter fun f => f.queue == queue && b.selectable r f
  l.filter (fun f => (b.retryOf r f.id).isSome || f.resend) ++ l.filter fun f => !((b.retryOf r f.id).isSome || f.resend)

/-- The lowest sequence number of a receiver and TID that is still unresolved in a sent gather of a radio, as its
distance behind the next one to assign. -/
def Block.windowUsed (b : Block) (r : Radio) (recv tid : Nat) : Nat :=
  maxOf ((b.gth.gathers.filter fun g => g.radio == r && g.state == .sent).flatMap fun g =>
    (g.mpdus.filter fun m => m.recv == recv && m.tid == tid && !m.resolved).map fun m =>
      (b.nextSn r recv tid + 4096 - m.sn) % 4096)

/-- A new MPDU for a receiver and TID, with `k` more before it, lies within the receiver's block-ack window of 256
(R251; the size is PRESUMED, log entry 178). -/
def Block.inWindow (b : Block) (r : Radio) (recv tid k : Nat) : Bool := decide (b.windowUsed r recv tid + k < 256)

/-- A frame fits the window behind those picked already; a retry is in it. -/
def Block.windowFits (b : Block) (r : Radio) (acc : List Frame) (f : Frame) : Bool :=
  (b.retryOf r f.id).isSome ||
    match b.recvOf f with
    | some x => b.inWindow r x.1 x.2 (acc.filter fun g => b.recvOf g == some x && (b.retryOf r g.id).isNone).length
    | none => false

/-- The picks that the fixed hardware takes: in each queue the frames in the order offered, within the receivers'
windows, no more than 256 MPDUs and GATHER_MAX_OCTETS (R251). -/
def Block.takePicks (b : Block) (r : Radio) (picks : List Pick) : List Frame :=
  picks.foldl (fun (acc : List Frame) p =>
    match b.frame? p.fid with
    | none => acc
    | some f =>
      let head := ((b.offered r f.queue).filter fun g => !acc.any fun h => h.id == g.id).head?
      let octs := sumOfList (acc.map (·.pkt.len)) + f.pkt.len
      if (head.map (·.id)) == some f.id && decide (acc.length < 256) && decide (octs ≤ b.get Obj.gatherMaxOctets) &&
          b.windowFits r acc f then
        acc ++ [f]
      else acc) []

/-- One MPDU built for a frame: a retry keeps its number and PN, a new one takes the next number (R119, R251). -/
def Block.buildMpdu (b : Block) (r : Radio) (f : Frame) : Mpdu × Block :=
  let rt := (b.recvOf f).getD (1023, 0)
  match b.retryOf r f.id with
  | some m =>
    let gs := b.gth.gathers.map fun g =>
      if g.radio == r && g.state == .sent then
        { g with mpdus := g.mpdus.map fun k => if k.fid == some f.id && k.failed then { k with resolved := true } else k }
      else g
    ({ m with retry := true, failed := false, resolved := false }, { b with gth := { b.gth with gathers := gs } })
  | none =>
    let sn := b.nextSn r rt.1 rt.2
    ({ fid := some f.id, recv := rt.1, tid := rt.2, sn, mcs := b.mcsOf rt.1
       strand := if rt.1 < 512 then none else some (rt.1 - 512) },
      b.setSn r rt.1 rt.2 (sn + 1))

/-- A frame taken into a gather of a radio: its journal entry goes to state 2, and a cane frame is on that strand, or
has its twin there (R247, R253). -/
def Block.takeFrame (b : Block) (r : Radio) (f : Frame) : Block :=
  let cane := decide (4352 ≤ f.queue)
  let second := cane && f.strand.isSome && f.strand != some r
  let b1 := b.modFrame f.id fun x =>
    { x with
      state := if x.air then x.state else .gathered
      twinned := if cane && x.strand.isNone then b.is Obj.streamCritical (f.queue - 4352) && decide (2 ≤ (b.upStrands ((f.queue - 4352) / 8)).length)
        else x.twinned
      strand := if cane && !second then some r else x.strand
      twin := if second then some r else x.twin }
  if second then b1.add Obj.linkTwinsSent 1 ((f.queue - 4352) / 8) else b1

/-- The demand of each receiver of a schedule in octets, oldest served first (R215). -/
def Block.usersOf (b : Block) (fs : List Frame) : List (Nat × Nat) :=
  let recv (f : Frame) : Nat := ((b.recvOf f).map (·.1)).getD 1023
  (b.byAge (fs.map recv).eraseDups).map fun x => (x, sumOfList ((fs.filter fun f => recv f == x).map (·.pkt.len)))

/-- A group of DL MU-MIMO is allowed: on Radio H, with DL_MU_MIMO, at most 4 users in one resource unit of 242 tones
or more (R170, R215). -/
def Block.mimoOk (b : Block) (r : Radio) (multi : Bool) (mimo : Nat) : Bool :=
  decide (mimo ≤ 1) || (multi && r == .h && b.is Obj.dlMuMimo && decide (mimo ≤ 4))

/-- The resource units of a schedule: the users of a MU-MIMO group, the oldest, share one (R215). -/
def Block.scheduleRus (b : Block) (r : Radio) (mimo dur : Nat) (users : List (Nat × Nat)) : List (Nat × Nat) :=
  if mimo ≤ 1 then b.assignRus r dur users
  else
    let group := users.take mimo
    let one := (0, maxOf (group.map (·.2)))
    match b.assignRus r dur (one :: users.drop mimo) with
    | [] => []
    | x :: l => (group.map fun u => (u.1, max 242 x.2)) ++ l

/-- GATHER_SELECT: the select stage and the builder (R215, R251, R252). A schedule above the effective cap is refused,
and one that does not fit waits. One candidate gets a single-user PPDU. The built-in policy builds at a TXOP win alone
(R129). -/
def Block.gatherSelect (b : Block) (r : Radio) (users : Nat) (multi : Bool) (mimo dur : Nat) (picks : List Pick) : Block :=
  let fs := b.takePicks r picks
  let recvs := (fs.filterMap fun f => (b.recvOf f).map (·.1)).eraseDups
  let n := max users recvs.length
  let many := multi && decide (1 < n)
  let octs := sumOfList (fs.map (·.pkt.len))
  let ahead := (b.gth.gathers.filter fun g => g.radio == r && g.state != .sent).length
  if r == .l || !b.radioOn r || fs.isEmpty then b
  else if b.is Obj.gaFallback && (b.radio r).txop.isNone then b
  else if (multi && decide (b.userCap r < n)) || !b.mimoOk r multi mimo then b
  else if !multi && decide (1 < recvs.length) then b
  else if 64 ≤ b.gth.gathers.length || decide (1048576 < b.gatherStore + octs) then b
  else if min (b.get Obj.gatherAhead) (b.get Obj.gatherAheadLehr) ≤ ahead then b
  else
    let built := fs.foldl (fun (acc : List Mpdu × Block) f =>
      let x := acc.2.buildMpdu r f
      (acc.1 ++ [x.1], x.2)) ([], b)
    let g : Gather :=
      { id := b.gth.nextId, radio := r, state := .built, mpdus := built.1, multi := many, octets := octs
        rus := if many then b.scheduleRus r mimo dur (b.usersOf fs) else [] }
    let b1 := fs.foldl (fun (c : Block) f => c.takeFrame r f) built.2
    let b2 := { b1 with gth := { b1.gth with gathers := b1.gth.gathers ++ [g], nextId := b1.gth.nextId + 1 } }
    let b3 := b2.modMac fun m => { m with psPoll := m.psPoll.filter fun x => !recvs.contains x }
    (b3.freeGathers.add Obj.gathersBuilt).serve r (recvs.filter fun x => decide (x < 512))

/-- One MPDU sealed: it takes the next counter of its receiver's context. The Boolean tells that the context gives
none: it is exhausted or was erased (R302, R303, R308). A receiver with no context is sent open. -/
def Block.sealMpdu (b : Block) (r : Radio) (m : Mpdu) : Mpdu × Bool × Block :=
  if m.retry then (m, false, b)
  else
    match b.sealCtx r m.recv with
    | none => (m, false, b)
    | some row =>
      let c := b.takeCounter row
      ({ m with pn := c.1, ctx := row }, b.get Obj.ctxState row != 1, c.2)

/-- GATHER_SEAL_DONE: the PNs of a built gather are consumed in order and it is staged; a context that runs out remelts
it as for trigger 5 (R253, R308). -/
def Block.gatherSealed (b : Block) (gid : Nat) : Block :=
  match b.gather? gid with
  | none => b
  | some g =>
    if g.state != .built then b
    else
      let s := g.mpdus.foldl (fun (acc : List Mpdu × Bool × Block) m =>
        if acc.2.1 then (acc.1 ++ [m], acc.2)
        else
          let x := acc.2.2.sealMpdu g.radio m
          (acc.1 ++ [x.1], x.2.1, x.2.2)) ([], false, b)
      let b1 := s.2.2.modGather gid fun h => { h with mpdus := s.1, state := .staged, sealedAt := b.now }
      if s.2.1 then b1.remelt 5 fun h => h.id == gid else b1

/-- GATHER_AGE_EXPIRY: GATHER_AGE has passed since the seal of a gather (R255 trigger 8). -/
def Block.gatherAged (b : Block) (gid : Nat) : Block :=
  b.remelt 8 fun g => g.id == gid && (g.state == .sealed || g.state == .staged) &&
    decide (g.sealedAt + us (b.get Obj.gatherAge) ≤ b.now)

/-- The sequencer's choice of a receiver's MCS: gathers built at one RATE_REMELT_STEPS away are remelted (R255 trigger
2). -/
def Block.setMcs (b : Block) (r : Radio) (recv mcs : Nat) : Block :=
  (b.modMac fun m => { m with mcs := assocPut m.mcs recv mcs }).remelt 2 fun g =>
    g.radio == r && g.mpdus.any fun m =>
      m.recv == recv && !m.retry && decide (b.get Obj.rateRemeltSteps ≤ ((mcs : Int) - (m.mcs : Int)).natAbs)


end Sys2Proof.Machine
end

