-- ==== Sys2Proof/Machine/Trellis.lean ====
section
/-!
DEFINITION. The trellis decoder with its list mode and the FCS that chooses its path (R189, R190), whitening and
scrambling of what it decodes, the LDPC decoder's stop (R172), and the equaliser (R188).
-/

namespace Sys2Proof.Machine

/-! ### The trellis decoder (R189, R190) -/

/-- A path through the trellis: its cost, and its bits, the newest first. -/
structure Path where
  cost : Nat
  bits : List Bool
  deriving DecidableEq, Repr

/-- A code of the trellis decoder: K, its two generators, and which of the two coded bits of each step are sent, in
turn. -/
structure Trellis where
  k : Nat
  g0 : Nat
  g1 : Nat
  sent : List (Bool × Bool)
  deriving DecidableEq, Repr

/-- The codes of R189, the punctured rates as IEEE 802.11 sends them (PRESUMED, log entry 178). -/
def trellisOf : Coding → Trellis
  | .half => { k := 7, g0 := 0o133, g1 := 0o171, sent := [(true, true)] }
  | .twoThirds => { k := 7, g0 := 0o133, g1 := 0o171, sent := [(true, true), (true, false)] }
  | .threeQuarters => { k := 7, g0 := 0o133, g1 := 0o171, sent := [(true, true), (true, false), (false, true)] }
  | .fiveSixths =>
    { k := 7, g0 := 0o133, g1 := 0o171
      sent := [(true, true), (true, false), (false, true), (true, false), (false, true)] }
  | .nrnsc => { k := 4, g0 := 0o17, g1 := 0o13, sent := [(true, true)] }
  | .rsc => { k := 4, g0 := 0o13, g1 := 0o17, sent := [(true, true)] }

/-- The soft values of each step: 0 stands for a bit that puncturing has left out. -/
def depuncture (sent : List (Bool × Bool)) : Nat → Nat → List Int → List (Int × Int)
  | 0, _, _ => []
  | _ + 1, _, [] => []
  | n + 1, i, v :: l =>
    match sent.getD (i % sent.length) (true, true) with
    | (true, true) => (v, l.headD 0) :: depuncture sent n (i + 1) l.tail
    | (true, false) => (v, 0) :: depuncture sent n (i + 1) l
    | (false, _) => (0, v) :: depuncture sent n (i + 1) l

/-- The cost of a coded bit against its soft value, which is positive for 0. -/
def softCost (bit : Bool) (v : Int) : Nat := if bit == decide (v < 0) then 0 else v.natAbs

/-- One path put into a list in rising order of cost, behind those of its own cost. -/
def putPath (x : Path) : List Path → List Path
  | [] => [x]
  | a :: l => if a.cost ≤ x.cost then a :: putPath x l else x :: a :: l

/-- One step of the decoder: for each state the `keep` best paths that reach it from its two predecessors. A state
holds the last K − 1 bits, the newest the most significant. -/
def Trellis.step (c : Trellis) (keep : Nat) (surv : List (List Path)) (v : Int × Int) : List (List Path) :=
  (List.range (2 ^ (c.k - 1))).map fun s =>
    let bit := decide (2 ^ (c.k - 2) ≤ s)
    let from_ (x : Nat) : List Path :=
      let old := s % 2 ^ (c.k - 2) * 2 + x
      let w := (if bit then 2 ^ (c.k - 1) else 0) + old
      let cost := softCost (tapParity c.g0 w) v.1 + softCost (tapParity c.g1 w) v.2
      (surv.getD old []).map fun p => { cost := p.cost + cost, bits := bit :: p.bits }
    ((from_ 1).foldl (fun l p => putPath p l) (from_ 0)).take keep

/-- The best paths from the zero state to the zero state, the best first, each with its bits in order and its tail
off. -/
def Trellis.paths (c : Trellis) (keep : Nat) (soft : List Int) : List (List Bool) :=
  let start := (List.range (2 ^ (c.k - 1))).map fun s => if s = 0 then [({ cost := 0, bits := [] } : Path)] else []
  let last := (depuncture c.sent soft.length 0 soft).foldl (c.step keep) start
  (last.headD []).map fun p => (p.bits.drop (c.k - 1)).reverse

/-- The information bits of a decoded path: of the recursive code they are what its register took in. -/
def infoBits (c : Coding) (l : List Bool) : List Bool :=
  match c with
  | .rsc => (l.zipIdx).map fun x =>
      x.1 != ((if 2 ≤ x.2 then l.getD (x.2 - 2) false else false) != (if 3 ≤ x.2 then l.getD (x.2 - 3) false else false))
  | _ => l

/-- The information bits of the `keep` best paths of a PSDU; SUN FSK has no list mode (R189). -/
def trellisDecode (c : Coding) (keep : Nat) (soft : List Int) : List (List Bool) :=
  ((trellisOf c).paths (if c = .nrnsc || c = .rsc then 1 else keep) soft).map (infoBits c)

/-- Bits as octets, each sent least significant bit first; bits short of an octet are left. -/
def octetsOfBits : Nat → List Bool → List Octet
  | 0, _ => []
  | n + 1, l =>
    if l.length < 8 then []
    else BitVec.ofNat 8 (sumOfList (((l.take 8).zipIdx).map fun x => if x.1 then 2 ^ x.2 else 0)) :: octetsOfBits n (l.drop 8)

/-- Bits added to a PN9 sequence from a seed. -/
def whitened (seed : Nat) (l : List Bool) : List Bool := (l.zip (pn9 l.length seed)).map fun x => x.1 != x.2

/-- The 802.11 descrambler on `n` bits from the last seven bits of its sequence, the newest first (PRESUMED, log entry
178). -/
def descrambled : List Bool → List Bool → List Bool
  | _, [] => []
  | st, b :: l =>
    let s := st.getD 6 false != st.getD 3 false
    (b != s) :: descrambled (s :: st.take 6) l

/-- The PSDU of 802.11 bits: SERVICE begins with seven zeros, which show the scrambler's state, and has 16 bits. -/
def dot11Psdu (len : Nat) (l : List Bool) : List Octet :=
  octetsOfBits len ((descrambled (l.take 7).reverse (l.drop 7)).drop 9)

/-- The FCS of an IEEE 802.15.4 PSDU checks: 2 or 4 octets at its end (R176, R179; PRESUMED, log entry 178). -/
def fcsChecks (fcs32 : Bool) (l : List Octet) : Bool :=
  if fcs32 then decide (4 ≤ l.length) && octetsLE 4 (crc32 (l.take (l.length - 4))) == l.drop (l.length - 4)
  else decide (2 ≤ l.length) && octetsLE 2 ((l.take (l.length - 2)).foldl (crcOctet 0x8408) 0) == l.drop (l.length - 2)

/-- An octet string with its FCS of IEEE 802.15.4 behind it. -/
def withFcs (fcs32 : Bool) (l : List Octet) : List Octet :=
  l ++ (if fcs32 then octetsLE 4 (crc32 l) else octetsLE 2 (l.foldl (crcOctet 0x8408) 0))

/-- The choice of list mode (R190): the first of the decoded PSDUs whose FCS checks, with its place; with none the
best, and no place. -/
def chooseList (fcs32 : Bool) (l : List (List Octet)) : List Octet × Option Nat :=
  match (l.zipIdx).find? fun x => fcsChecks fcs32 x.1 with
  | some x => (x.1, some x.2)
  | none => (l.headD [], none)

/-! ### The LDPC decoder's stop (R172) -/

/-- The events that stop a codeword. -/
inductive LdpcStop where
  | checked | iterations | deadline
  deriving DecidableEq, Repr

/-- The first of the three events of R172 that stops a codeword. -/
def ldpcStop (w : Codeword) (iterMax : Nat) : LdpcStop :=
  match w.needs with
  | some n => if n ≤ min iterMax w.deadline then .checked else if iterMax ≤ w.deadline then .iterations else .deadline
  | none => if iterMax ≤ w.deadline then .iterations else .deadline

/-! ### The equaliser (R188) -/

/-- Estimates averaged with their neighbours over `width` subcarriers, at the band edges over those there are; width 0
leaves them. -/
def smoothTaps (width : Nat) (l : List (Int × Int)) : List Tap :=
  (l.zipIdx).map fun x =>
    let h := width / 2
    let near := (l.zipIdx).filter fun y => decide (y.2 ≤ x.2 + h) && decide (x.2 ≤ y.2 + h)
    { re := near.foldl (fun s y => s + y.1.1) 0, im := near.foldl (fun s y => s + y.1.2) 0, n := near.length }

/-- A complex number times the conjugate of another. -/
def timesConj (x y : Int × Int) : Int × Int := (x.1 * y.1 + x.2 * y.2, x.2 * y.1 - x.1 * y.2)

/-- The points of an OFDM symbol after equalisation (R188): each is taken against its subcarrier's tap and against the
common phase that the pilots show, and is left with the length of both. -/
def equalised (taps : List Tap) (s : OfdmSymbol) : List (Int × Int) :=
  let tap (k : Nat) : Int × Int := match taps[k]? with
    | some t => (t.re, t.im)
    | none => (1, 0)
  let turn := s.pilots.foldl (fun (p : Int × Int) x =>
    let z := timesConj x.2 (tap x.1)
    (p.1 + z.1, p.2 + z.2)) (0, 0)
  let phase := if s.pilots.isEmpty then ((1, 0) : Int × Int) else turn
  s.data.map fun x => timesConj (timesConj x.2 (tap x.1)) phase

end Sys2Proof.Machine
end

