-- ==== Sys2Proof/Machine/Send.lean ====
section
/-!
DEFINITION. Transmission: commands and their withdrawal, the edge's commit with the checks before the ramp-up, the
PPDU on air with its lines, ramps and charge, its end, its cut, and the responses that resolve it (R143 to R166, R176
to R179, R196 to R204, R253).
-/

namespace Sys2Proof.Machine

/-! ### Commands (R143, R196 to R199) -/

/-- The frames that a command sends. -/
def Block.cmdFrames (b : Block) (c : TxCmd) : List Nat :=
  match c.what with
  | .gather gid => match b.gather? gid with
    | some g => g.mpdus.filterMap (·.fid)
    | none => []
  | .frame fid => [fid]
  | _ => []

/-- The access category of a command: the highest of its gather's TIDs, voice for the rest (R194, R227). -/
def Block.cmdAc (b : Block) (c : TxCmd) : Nat :=
  match c.what with
  | .gather gid => match b.gather? gid with
    | some g => maxOf (g.mpdus.map fun m => tidAc m.tid)
    | none => 3
  | _ => 3

/-- The link of a cane frame. -/
def Frame.caneLink (f : Frame) : Option Nat :=
  if 4352 ≤ f.queue && decide (f.queue < 4608) then some ((f.queue - 4352) / 8) else none

/-- A frame may be sent on Radio L now: released, its queue not held, in its stream's window, placed on that strand,
and to a child only after its poll and from its indirect queue (R197, R207, R208, R239, R246). -/
def Block.lowReady (b : Block) (f : Frame) : Bool :=
  let own := match f.caneLink with
    | some _ => f.strand == some .l || f.twin == some .l || b.mayPlace f .l
    | none => !b.isChild (f.queue - 4608) || (f.indirect.isSome && b.mac.polled.contains (f.queue - 4608))
  f.queue != 8191 && f.released && !b.queueHeld f.queue && !b.inGather f.id && !f.acked && b.inStreamWindow f && own

/-- The frame of a queue that Radio L is to send next: resends before new ones (R196, R245). -/
def Block.lowNext (b : Block) (queue : Nat) : Option Frame :=
  let l := b.frames.filter fun f => f.queue == queue && b.lowReady f
  match l.find? fun f => f.resend with
  | some f => some f
  | none => l.head?

/-- A frame is the next of its queue on Radio L, in the mode that the neighbour table gives (R176, R223). -/
def Block.lowValid (b : Block) (f : Frame) (branch : Nat) : Bool :=
  (b.lowNext f.queue).map (·.id) == some f.id &&
    match b.lowNbr f with
    | some row => b.get Obj.nbrTxMode row == branch
    | none => false

/-- What a command names is there to be sent in its form (R170, R176, R253): a staged gather of this radio, several
users in HE MU; a frame of Radio L; a management frame on an up strand. -/
def Block.cmdValid (b : Block) (r : Radio) (c : TxCmd) : Bool :=
  b.sendable r c.ppdu &&
    match c.what with
    | .gather gid => match b.gather? gid with
      | some g => g.radio == r && g.state == .staged && (!g.multi || c.ppdu.form.format == 7)
      | none => false
    | .frame fid => match b.frame? fid with
      | some f => r == .l && b.lowValid f c.ppdu.form.branch
      | none => false
    | .caneCtl k t => b.ctlDue k t r && (t == 4 || !b.barFirst k r)
    | .mgmt k cseq _ => b.strandState k r == 2 && !b.barFirst k r && (b.link k).send.any fun m => m.cseq == cseq && b.mgmtDue k m
    | .testWave => b.get (Obj.testMode.of r) != 0
    | .control _ | .ack .. | .beacon _ | .enhBeacon | .dataRequest _ => true

/-- A sequencer may command it: what the edge sends of its own, it does not. -/
def commandable (c : TxCmd) : Bool :=
  match c.what with
  | .gather _ | .frame _ | .mgmt .. | .caneCtl .. | .control _ => c.kind != .test
  | _ => false

/-- TX_COMMAND: the command waits at the edge for lock, for a segment's end and for its turn (R143, R147). A radio
with a command under way takes no second one, and none is taken that it cannot send (R170; DEDUCED, log entry 183). -/
def Block.txCommand (b : Block) (r : Radio) (c : TxCmd) : Block :=
  if b.radioOn r && (b.radio r).phase == .idle && commandable c && b.cmdValid r c then b.takeCmd r c (b.cmdAc c) else b

/-! ### The seal and the place of a frame on Radio L (R199, R232, R246, R309) -/

/-- MS-L seals a frame just before its ramp-up commit; a frame whose seal fails waits, and so does one whose context
holds no key (R251, R302, R309). A sealed frame, or a retry on the same strand, takes no new counter (R305). -/
def Block.lowSeal (b : Block) (f : Frame) : Bool × Block :=
  if f.pn.isSome && (f.caneLink.isNone || f.strand == some .l || f.twin == some .l) then (true, b)
  else
    match b.lowCtx f with
    | none => (true, b)
    | some row =>
      let c := b.takeCounter row
      match c.1 with
      | none => (false, c.2)
      | some pn => (true, c.2.modFrame f.id fun x => { x with pn := some pn })

/-- The neighbour sequence number of a frame is assigned when its first ramp-up starts (R199). -/
def Block.lowNumber (b : Block) (f : Frame) : Block :=
  match b.lowNbr f with
  | some row =>
    if f.txSeq.isSome then b
    else
      let n := b.get Obj.nbrTxSeq row
      (b.modFrame f.id fun x => { x with txSeq := some n }).put Obj.nbrTxSeq ((n + 1) % 65536) row
  | none => b

/-- A cane frame placed on Radio L is on that strand, or has its twin there (R246, R247); one that was not there
before takes a new number there. -/
def Block.lowPlace (b : Block) (f : Frame) : Block :=
  if f.caneLink.isSome && f.strand != some .l && f.twin != some .l then
    (b.takeFrame .l f).modFrame f.id fun x => { x with txSeq := none }
  else b

/-! ### The lines and the charge of the PPDU on air (R140, R149, R153 to R157, R204) -/

/-- The first chain of a form: M1 of split mode sends on chain 1 (R175). -/
def firstChain (f : PpduForm) : Nat := if f.format = fmtOqpsk24 then 1 else 0

/-- The ramp-up's lead on the commit: COEX_LEAD, but none for an immediate response (R153, R157). -/
def Block.leadOf (b : Block) (k : TxKind) : Nat := if k == .immediate then 0 else us (b.get Obj.coexLead)

/-- The commit of a PPDU: its gather is locked, its lines rise, its levels, its ramp and its charge are set (R138,
R149, R152 to R157, R204, R253). `own` is an immediate response of the edge. -/
def Block.commitPpdu (b : Block) (r : Radio) (c : TxCmd) (own : Bool := false) : Block :=
  let f := c.ppdu.form
  let b1 := match c.what with
    | .gather gid => b.modGather gid fun g => { g with state := .locked }
    | _ => b
  let b2 := b1.modRadio r fun u => { u with port := b.txPort r }
  let ch := b2.occupied r f
  let d := b2.drive r ch.1 ch.2 c.power (firstChain f)
  let ramp := d.2.rampOf r c.kind
  let q := d.2.dutyCharge r ch.1 ch.2 c.isAck (d.2.paOn r (d.2.airOf c.ppdu) c.kind)
  let rampAt := b.now + d.2.leadOf c.kind
  let air : OnAir :=
    { cmd := c, own, rampAt, centre := ch.1, bw := ch.2, levels := d.1, ramp, charge := q.1 }
  let b3 := q.2.modRadio r fun u =>
    { u with
      phase := if own then u.phase else .onAir, air := some air, delayed := false
      txop := if own then u.txop else u.txop.filter fun x => x.2 != 0 }
  let b4 := ((b3.coexOut r true).blankOn (blankSource r f.format)).femDrive r (rampAt - 32 * b.get (Obj.femLead.of r))
  ((b4.emit (.radio r 12 (d.1.map fun x => unsignedOf 4 x))).emit
      (.radio r 17 ((b3.settings r ch.1 (firstChain f) d.1).map fun x => unsignedOf 4 x))).emit
    (.radio r 18 (rampAt :: ramp.up :: ramp.points))

/-- The lines of a PPDU fall: COEX_OUT, the FEM lines, and the blank line with its tail (R140, R155, R157). -/
def Block.rampEnd (b : Block) (r : Radio) : Block :=
  match (b.radio r).air with
  | none => b
  | some a =>
    let b1 := b.modRadio r fun u => { u with air := none, quietFrom := b.now }
    ((((b1.coexOut r false).blankTail (blankSource r a.cmd.ppdu.form.format)).femDrive r b.now).freeze r b.now).splitFollow

/-- A trigger that came while a gather was locked applies now that it has not been emitted (R253). -/
def Block.missedTrigger (b : Block) (gid : Nat) : Block :=
  match (b.gather? gid).bind (·.missed) with
  | none => b
  | some code => (b.modGather gid fun g => { g with missed := none }).remelt code fun g => g.id == gid

/-- The PPDU on air leaves before its ramp-up has started: nothing of it is emitted, its charge and its gather are as
before. -/
def Block.uncommit (b : Block) (r : Radio) : Block :=
  match (b.radio r).air with
  | none => b
  | some a =>
    let b1 := (b.dutyCorrect a.charge 0).rampEnd r
    match a.cmd.what with
    | .gather gid => (b1.modGather gid fun g => { g with state := .staged }).missedTrigger gid
    | _ => b1

/-! ### TX_COMMIT (R143, R147, R148, R159, R185, R195, R198, R204, R253) -/

/-- A kind of PPDU that no forced segment delays (R148). -/
def urgent (k : TxKind) : Bool := isQuick k || k == .tsch

/-- The edge may look at its waiting command: locked, no PPDU of its own on air, no load of the shadow due (R161), and
no segment to wait for (R147, R148). -/
def Block.mayCommit (b : Block) (r : Radio) (c : TxCmd) : Bool :=
  let u := b.radio r
  b.radioOn r && u.phase == .waiting && u.air.isNone && u.loadDue.isNone && b.get (Obj.synthState.of r) == 2 &&
    (match u.seg with
     | some s => s.forced && urgent c.kind
     | none => true)

/-- The turn of a command has come: by its transmit opportunity, in which it must fit (R27, R195), after an idle CCA
(R198), in its TSCH cell (R220), or at once. -/
def Block.hasTurn (b : Block) (r : Radio) (c : TxCmd) : Bool :=
  match c.kind with
  | .contended =>
    match (b.radio r).txop with
    | none => false
    | some (_, end_) =>
      r == .l || end_ == 0 || decide (b.now + us (b.airOf c.ppdu) ≤ end_)
  | .tsch =>
    match b.mac.cell with
    | some (cell, true, _) =>
      let n := b.get Obj.cellNeighbour cell
      n == 65535 || (match c.what with
        | .frame fid => ((b.frame? fid).bind b.lowNbr) == some n
        | .mgmt k _ _ | .caneCtl k _ => b.get Obj.caneLNbr k == n
        | _ => false)
    | _ => false
  | _ => true

/-- A busy CCA of Radio L (R198): the back-off grows; after MAX_BACKOFFS + 1 in a row the frame has failed. The
Boolean tells that. -/
def Block.csmaBusy (b : Block) (draw : Nat) : Bool × Block :=
  match b.mac.csma with
  | none => (false, b)
  | some (nb, be, _) =>
    let b1 := b.modRadio .l fun u => { u with txop := none }
    if b.get Obj.maxBackoffs < nb + 1 then (true, b1.modMac fun m => { m with csma := none })
    else
      let e := min (be + 1) (b.get Obj.maxBe)
      (false, b1.modMac fun m => { m with csma := some (nb + 1, e, draw % 2 ^ e) })

/-- A failed attempt of a frame on a radio, on its strand too (R196, R197, R248); a child that has not answered is to
poll anew (R208). -/
def Block.frameNotAcked (b : Block) (r : Radio) (fid : Nat) : Block :=
  match b.frame? fid with
  | none => b
  | some f =>
    let b1 := b.attemptFailed fid
    match f.caneLink with
    | some k => b1.strandAttemptFailed k r
    | none => if r == .l then b1.modMac fun m => { m with polled := m.polled.filter fun x => 4608 + x != f.queue } else b1

/-- A channel access failure is a failed attempt of what the command sends (R198). -/
def Block.accessFailed (b : Block) (c : TxCmd) : Block :=
  let b1 := (b.cmdFrames c).foldl (fun (d : Block) i => d.frameNotAcked .l i) b
  (match c.what with
   | .mgmt k cseq _ => b1.mgmtResult k .l cseq false
   | .caneCtl k t => b1.ctlResult k t .l false
   | _ => b1).endCmd .l

/-- A multi-user gather whose transmit opportunity is lost is remelted (R255 trigger 4). -/
def Block.lostTxop (b : Block) (c : TxCmd) : Block :=
  match c.what with
  | .gather gid => b.remelt 4 fun g => g.id == gid && g.multi
  | _ => b

/-- The medium has become busy with the turn of a contending command: on Radio H and M its back-off is frozen at its
end and goes on, on Radio L it counts as a busy CCA, with a free draw (R185, R195, R198). -/
def Block.loseTurn (b : Block) (r : Radio) (c : TxCmd) : Block :=
  match (b.radio r).txop with
  | none => b
  | some (ac, _) =>
    if r == .l then
      let d := ({ b with fresh := b.fresh + 1 }).csmaBusy (Config.freeNat b.fresh)
      if d.1 then d.2.accessFailed c else d.2
    else
      ((b.modRadio r fun u => { u with txop := none }).setEdca { b.edca r ac with count := 0, live := true }).lostTxop c

/-- A transmit opportunity that a PPDU does not fit is given up, and its category contends anew. -/
def Block.giveUpTurn (b : Block) (r : Radio) (c : TxCmd) : Block :=
  if c.kind == .contended && r != .l && (b.radio r).txop.isSome then
    ((b.modRadio r fun u => { u with txop := none }).contend r (b.cmdAc c)).lostTxop c
  else b

/-- An earlier unsent gather of the radio shares a receiver and TID with this one (R253). -/
def Block.waitsForSibling (b : Block) (c : TxCmd) : Bool :=
  match c.what with
  | .gather gid => match b.gather? gid with
    | some g => b.gth.gathers.any fun h => decide (h.id < g.id) && h.state != .sent && h.shares g
    | none => false
  | _ => false

/-- A command that the budget does not cover ends BUDGET and is deferred (R159, R204). -/
def Block.deferCmd (b : Block) (r : Radio) (c : TxCmd) (rows : List Nat) : Block :=
  let b1 := rows.foldl (fun (x : Block) row => x.add Obj.dutyRowDeferred 1 row) (b.txStatus r 6)
  (b1.modRadio r fun u => { u with deferred := u.deferred ++ [c] }).endCmd r

/-- The frames of a command whose lifetime has passed before their first transmission (R121 code 2). -/
def Block.lateFrames (b : Block) (c : TxCmd) : List Nat :=
  (b.cmdFrames c).filter fun i => match b.frame? i with
    | some f => b.expired f
    | none => false

/-- A forced segment that stands in the way of an urgent PPDU is given up (R148). -/
def Block.dropSegment (b : Block) (r : Radio) : Block :=
  if (b.radio r).seg.isSome then (b.modRadio r fun u => { u with seg := none }).add (Obj.calAbandoned.of r) else b

/-- The commit of a management frame: it takes its number and counter on the strand, or waits in its buffer (R230,
R251). -/
def Block.commitMgmt (b : Block) (r : Radio) (c : TxCmd) (k cseq : Nat) : Block :=
  let d := b.mgmtTake k r cseq
  if d.1 then d.2.commitPpdu r c else d.2.endCmd r

/-- The commit of a control frame of a link: a cane frame is sealed, a BlockAckReq is not protected (R232, R249). -/
def Block.commitCtl (b : Block) (r : Radio) (c : TxCmd) (k type : Nat) : Block :=
  let d := if type = 4 then (true, b) else b.caneNumber k r
  if d.1 then d.2.commitPpdu r c else d.2.endCmd r

/-- The commit of a frame on Radio L: it is sealed and placed, or waits in its queue when its seal fails. -/
def Block.commitLow (b : Block) (c : TxCmd) (fid : Nat) : Block :=
  match b.frame? fid with
  | none => b.endCmd .l
  | some f =>
    let s := b.lowSeal f
    if s.1 then (s.2.lowPlace f).commitPpdu .l c else s.2.endCmd .l

/-- The checks before the ramp-up, in their order, and the commit (R121, R159, R163, R204). -/
def Block.checkedCommit (b : Block) (r : Radio) (c : TxCmd) : Block :=
  let ch := b.occupied r c.ppdu.form
  let st := b.channelStatus r ch.1 ch.2
  let late := b.lateFrames c
  let short := b.dutyShort r ch.1 ch.2 c.isAck (b.paOn r (b.airOf c.ppdu) c.kind)
  if st ≠ 0 then (b.txStatus r st).endCmd r
  else if !late.isEmpty then (b.abandon 2 9 late).endCmd r
  else if !short.isEmpty then b.deferCmd r c short
  else
    match c.what, r with
    | .frame fid, .l => (b.dropSegment .l).commitLow c fid
    | .mgmt k n _, _ => (b.dropSegment r).commitMgmt r c k n
    | .caneCtl k t, _ => (b.dropSegment r).commitCtl r c k t
    | _, _ => (b.dropSegment r).commitPpdu r c

/-- TX_COMMIT: the edge commits the waiting command, or ends it with a status of R166. A command whose frames are
there no more is withdrawn without one (R253; DEDUCED, log entry 184). -/
def Block.txCommit (b : Block) (r : Radio) : Block :=
  match (b.radio r).cmd with
  | none => b
  | some c =>
    if !b.mayCommit r c then b
    else if !b.cmdValid r c then b.endCmd r
    else if c.kind == .contended && (b.radio r).busy b.now then b.loseTurn r c
    else if b.waitsForSibling c then b
    else if !b.hasTurn r c then b.giveUpTurn r c
    else b.checkedCommit r c

/-! ### The PPDU on air (R119, R152, R177 to R179, R253) -/

/-- The cane header of a frame of an ordered stream goes on air (R232 to R235). -/
def Block.dataOnAir (b : Block) (r : Radio) (f : Frame) : Block :=
  match f.caneLink, f.cseq with
  | some k, some n =>
    (b.strandSends k r).caneAir k r 0 (b.get Obj.streamTid (f.queue - 4352))
      (caneDataHeader ((f.queue - 4352) % 8) n f.twinned f.again (Config.ackReqOf f.id))
  | _, _ => b

/-- The transmission of a frame starts on a radio (R119, R253, R333): its first one is stamped. -/
def Block.frameOnAir (b : Block) (r : Radio) (fid : Nat) : Block :=
  match b.frame? fid with
  | none => b
  | some f =>
    let b0 := (if r == .l then b.lowNumber f else b).dataOnAir r f
    let b1 := b0.modFrame fid fun x => { x with air := true, state := .sent, lastTx := b.now, resend := false }
    if f.air then b1 else b1.txStamp (2 + radioNum r) f b1.now 1

/-- A gather is Sent: its MPDUs are transmitted (R253). Multi-user gathers built earlier for the radio have lost their
opportunity (R255 trigger 4). -/
def Block.gatherOnAir (b : Block) (r : Radio) (gid : Nat) : Block :=
  match b.gather? gid with
  | none => b
  | some g =>
    let b1 := (b.modGather gid fun x => { x with state := .sent }).add Obj.gathersSent
    let b2 := (g.mpdus.filterMap (·.fid)).foldl (fun (c : Block) i => c.frameOnAir r i) b1
    b2.remelt 4 fun h => h.radio == r && h.multi && decide (h.id < gid)

/-- What a PPDU carries counts as transmitted. -/
def Block.carriedOnAir (b : Block) (r : Radio) (c : TxCmd) : Block :=
  match c.what with
  | .gather gid => b.gatherOnAir r gid
  | .frame fid => b.frameOnAir r fid
  | .mgmt k cseq ackReq => b.mgmtOnAir k r cseq ackReq
  | .caneCtl k t => b.ctlOnAir k t r
  | _ => b

/-- What leaves the antenna: a reach frame as its chips (R177 to R179), of any other PPDU its form with Frame Pending
(R208), the resource units of a multi-user gather (R215), and the octets of an IEEE 802.15.4 PSDU. -/
def Block.airValues (b : Block) (c : TxCmd) : List Nat :=
  let f := c.ppdu.form
  let chips := (reachFrame (b.get Obj.reachPreamble) (b.get Obj.reachSync) f.branch (b.is Obj.reachFcs32) (b.is Obj.reachWhiten)
    c.ppdu.psdu).flatMap (reachSpread f.branch)
  let users := match c.what with
    | .gather gid => match b.gather? gid with
      | some g => g.rus.flatMap fun x => [x.1, x.2]
      | none => []
    | _ => []
  let more : Bool := match c.what with
    | .frame fid => (b.frame? fid).any fun x => x.indirect.isSome && decide (1 < (b.indirectOf (x.queue - 4608)).length)
    | .ack _ pending => pending
    | _ => false
  [f.format, f.rate, f.branch, f.streams, f.width, f.place, if more then 1 else 0] ++ users ++
    (if f.format = fmtReach then chips.map (fun x => if x then 1 else 0) else c.ppdu.psdu.map (·.toNat))

/-- PPDU_FIRST_SAMPLE: the ramp-up has ended, and the first sample leaves (R152, R253). -/
def Block.firstSample (b : Block) (r : Radio) : Block :=
  match (b.radio r).air with
  | none => b
  | some a =>
    if a.started || decide (b.now < a.rampAt + 32 * a.ramp.up) then b
    else
      ((b.modRadio r fun u => { u with air := some { a with started := true } }).emit
        (.radio r 13 (b.airValues a.cmd))).carriedOnAir r a.cmd

/-- A frame sent with no acknowledgement is delivered at the PPDU's end; a cane frame waits for its cane
acknowledgement (R112). -/
def Block.sentNoAck (b : Block) (r : Radio) (fid : Nat) : Block :=
  match b.frame? fid with
  | none => b
  | some f =>
    if f.caneLink.isSome then b.handOn r fid
    else if r == .l then (b.deliver fid).showIndirect (f.queue - 4608)
    else b.deliver fid

/-- A response is awaited for what a command sends (R112, R196, R199). -/
def wantsAnswer (c : TxCmd) : Bool :=
  match c.what with
  | .gather _ | .frame _ | .mgmt .. | .caneCtl .. | .control _ | .dataRequest _ => !c.noAck
  | .ack .. | .beacon _ | .enhBeacon | .testWave => false

/-- The end of a command whose PPDU asks for no answer: frames without acknowledgement are delivered, a beacon counts
(R227), a test transmission goes on (R165). -/
def Block.endUnanswered (b : Block) (r : Radio) (c : TxCmd) : Block :=
  let b1 := (b.cmdFrames c).foldl (fun (d : Block) i => d.sentNoAck r i) b
  match c.what with
  | .beacon bss => (b1.add (Obj.bssBeacons.of r) 1 bss).endCmd r
  | .testWave =>
    let b2 := b1.endCmd r
    if b2.get (Obj.testMode.of r) = 0 then b2 else b2.sendOwn r c
  | _ => b1.endCmd r

/-- PPDU_TX_END: the ramp-down has ended (R152). The PA-on time is reported and charged (R154), the power loop has its
readings (R150), and the command ends DONE or waits for its response (R112, R166, R196, R199). -/
def Block.txEnd (b : Block) (r : Radio) (detector : List Int) : Block :=
  match (b.radio r).air with
  | none => b
  | some a =>
    if !a.started then b
    else
      let used := (b.now - a.rampAt) / 32
      let b1 := (b.dutyCorrect a.charge used).learnLevels r a.centre (firstChain a.cmd.ppdu.form) a.levels detector
      let b2 := if b.calOn r 3 then b1.put (Obj.calStatus.of r) (setBit (b1.get (Obj.calStatus.of r)) 3) else b1
      let b3 := ((b2.rampEnd r).emit (.radio r 14 [used])).emit (.radio r 19 (a.ramp.down :: a.ramp.points.reverse))
      if a.own then b3
      else
        let b4 := b3.txStatus r 0
        if wantsAnswer a.cmd then
          b4.modRadio r fun x => { x with phase := .awaiting, endAt := b.now - 32 * a.ramp.down }
        else b4.endUnanswered r a.cmd

/-! ### PPDUs cut or given up (R144, R154, R164) -/

/-- Every open MPDU of a gather counts as transmitted and failed: it is a retry to come. -/
def Gather.failOpen (g : Gather) : Gather :=
  { g with mpdus := g.mpdus.map fun (m : Mpdu) => if m.resolved then m else { m with failed := true } }

/-- What a command had sent stays transmitted and is to be retried unchanged (R119, R144). -/
def Block.retryUnchanged (b : Block) (r : Radio) (c : TxCmd) : Block :=
  match c.what with
  | .gather gid => b.modGather gid Gather.failOpen
  | .mgmt k cseq _ =>
    b.modMgmt k cseq fun y => { y with sent := false }
  | .beacon _ | .enhBeacon | .dataRequest _ => b.modRadio r fun u => { u with own := c :: u.own }
  | _ => b

/-- A PPDU in progress is cut by a ramp-down within 1 µs: it counts as transmitted, and every MPDU is retried
unchanged (R144, R154, R164). An immediate response that is cut ends no command. -/
def Block.cutPpdu (b : Block) (r : Radio) (status : Nat) : Block :=
  match (b.radio r).air with
  | none => b
  | some a =>
    let used := (b.now - a.rampAt) / 32 + 10
    let b1 := if a.started then b else b.carriedOnAir r a.cmd
    let b2 := (((b1.dutyCorrect a.charge used).rampEnd r).emit (.radio r 14 [used])).emit (.radio r 19 [10])
    if a.own then b2 else ((b2.txStatus r status).retryUnchanged r a.cmd).endCmd r

/-- The ramp-up of the PPDU on air has started. -/
def Block.onAirNow (b : Block) (r : Radio) : Bool := (b.radio r).air.any fun a => decide (a.rampAt ≤ b.now)

/-- The command waits again at the edge, for its turn too. -/
def Block.waitAgain (b : Block) (r : Radio) : Block :=
  match (b.radio r).cmd with
  | none => b
  | some c => b.takeCmd r c (b.cmdAc c)

/-- LOCK_LOST (R144): a PPDU in progress is cut; the synthesiser tunes again at the same frequency. One whose ramp-up
has not started waits for lock again. -/
def Block.lockLost (b : Block) (r : Radio) : Block :=
  let u := b.radio r
  if b.radioOn r && b.get (Obj.synthState.of r) == 2 then
    let b1 := b.add (Obj.lockLosses.of r)
    let b2 :=
      if b.onAirNow r then b1.cutPpdu r 4
      else if u.air.isNone then b1
      else if u.air.any (·.own) then b1.uncommit r
      else (b1.uncommit r).waitAgain r
    b2.settleOn r u.freq u.bw
  else b

/-! ### Responses (R112, R196 to R199) -/

/-- A copy of a frame on Radio L that has been committed and whose ramp-up has not started. -/
def Block.lowCopy (b : Block) (fid : Nat) : Bool :=
  !b.onAirNow .l && (b.radio .l).air.any fun a => match a.cmd.what with
    | .frame i => i == fid
    | _ => false

/-- The copy of a twin send that has not been transmitted is withdrawn (R247): on Strand H or M with trigger 10, on
Strand L before its ramp-up, its counter burnt. -/
def Block.withdrawTwin (b : Block) (fid : Nat) : Block :=
  match b.frame? fid with
  | none => b
  | some f =>
    if f.twin.isNone then b
    else
      let waiting := b.gth.gathers.any fun g => g.state.unlocked && g.holds fid
      let k := (f.queue - 4352) / 8
      let b1 :=
        if waiting then (b.remeltFrames 10 [fid]).add Obj.linkTwinsRemelted 1 k
        else if b.lowCopy fid then (((b.uncommit .l).endCmd .l).add Obj.pnBurnt).add Obj.linkTwinsRemelted 1 k
        else b
      b1.modFrame fid fun x => { x with twin := none, pn := if b.lowCopy fid then none else x.pn }

/-- A cane ACK (R243): covered frames are delivered, covered management frames leave the send buffer, whose places
others take. -/
def Block.caneAck (b : Block) (k : Nat) (recs : List AckRec) : Block :=
  (recs.foldl (fun c a =>
    if a.stream = 15 then
      c.modLink k fun l => { l with send := l.send.filter fun m => !(ackCovers a m.cseq && m.lastTx != 0) }
    else
      let ids := c.idsWhere fun f => f.queue == 4352 + 8 * k + a.stream && f.air &&
        (match f.cseq with
         | some n => ackCovers a n
         | none => false)
      ids.foldl (fun d i => (d.withdrawTwin i).deliver i) c) b).mgmtFill k 16

/-- A control frame of a link's peer takes effect (R234, R238, R240); a bad header is counted. -/
def Block.caneControl (b : Block) (k : Nat) (f : CaneFrame) : Block :=
  match f with
  | .ack recs => b.caneAck k recs
  | .nack recs => b.caneNack k recs
  | .probe up epoch => b.peerProbe k up epoch
  | .bad => b.add Obj.caneBadHeader
  | .data .. | .mgmt .. => b

/-- A strand acknowledgement of a frame: a cane frame's attempt ends and its twin is withdrawn; any other frame is
delivered (R112, R247). -/
def Block.frameAcked (b : Block) (r : Radio) (fid : Nat) : Block :=
  match b.frame? fid with
  | none => b
  | some f =>
    match f.caneLink with
    | some k =>
      (((b.modFrame fid fun x => { x with acked := true, attempts := 0 }).handOn r fid).withdrawTwin fid).strandAttemptOk k r
    | none => b.deliver fid

/-- The receivers and TIDs of a gather's MPDUs of some frames. -/
def Gather.pairsOf (g : Gather) (fids : List Nat) : List (Nat × Nat) :=
  (g.mpdus.filter fun (m : Mpdu) => match m.fid with
    | some i => fids.contains i
    | none => false).map fun m => (m.recv, m.tid)

/-- The MPDUs of a gather that failed are marked as retries to come. -/
def Block.markFailed (b : Block) (gid : Nat) (fids : List Nat) : Block :=
  b.modGather gid fun g =>
    { g with mpdus := g.mpdus.map fun (m : Mpdu) => match m.fid with
        | some i => if fids.contains i && !m.resolved then { m with failed := true } else m
        | none => { m with resolved := true } }

/-- The outcome of a gather's MPDUs (R196): those acknowledged are resolved, each of the others has one failed
attempt; after an answer with holes the later gathers of the same receivers and TIDs are remelted (R255 trigger 3). -/
def Block.gatherOutcome (b : Block) (r : Radio) (gid : Nat) (acked : List Nat) (answered : Bool) : Block :=
  let fids : List Nat := match b.gather? gid with
    | some g => g.mpdus.filterMap (·.fid)
    | none => []
  let bad := fids.filter fun i => !acked.contains i
  let holes : List (Nat × Nat) := match b.gather? gid with
    | some g => g.pairsOf bad
    | none => []
  let b1 := (fids.filter fun i => acked.contains i).foldl (fun (d : Block) i => d.frameAcked r i) (b.markFailed gid bad)
  let b2 := bad.foldl (fun (d : Block) i => d.frameNotAcked r i) b1
  let b3 := if answered && !bad.isEmpty then
      b2.remelt 3 fun g => g.radio == r && g.mpdus.any fun m => holes.contains (m.recv, m.tid)
    else b2
  b3.freeGathers

/-- A partner is heard by its acknowledgement of a PPDU (R210, R212, R220). -/
def Block.ackHeard (b : Block) (row : Nat) (p : Ppdu) : Block :=
  ((b.hearNbr row b.now).partnerHeard row).timeInCell row (tsTxOffset + b.airOf p + tsAckDelay) b.now

/-- The answer of a neighbour to a PPDU of Radio L, or its absence (R199, R207, R213, R220). `pending` is the Frame
Pending bit of the acknowledgement. -/
def Block.lowOutcome (b : Block) (c : TxCmd) (ok pending : Bool) : Block :=
  let cell (d : Block) (row : Nat) := if c.kind == .tsch then d.cellOutcome row ok else d
  match c.what with
  | .frame fid =>
    match (b.frame? fid).bind b.lowNbr with
    | none => b
    | some row => if ok then (cell ((b.frameAcked .l fid).ackHeard row c.ppdu) row).showIndirect row else cell (b.frameNotAcked .l fid) row
  | .mgmt k cseq _ =>
    let row := b.get Obj.caneLNbr k
    cell (if ok then (b.mgmtResult k .l cseq true).ackHeard row c.ppdu else b.mgmtResult k .l cseq false) row
  | .caneCtl k t =>
    let row := b.get Obj.caneLNbr k
    cell (if ok then (b.ctlResult k t .l true).ackHeard row c.ppdu else b.ctlResult k t .l false) row
  | .dataRequest row =>
    let b1 := b.modMac fun m => { m with polling := ok && pending }
    if ok then b1.ackHeard row c.ppdu else b1
  | _ => b

/-- The end of a response exchange: the frames acknowledged and the answer's absence, and with it the transmit
opportunity that a failure ends (R196, R199). -/
def Block.endExchange (b : Block) (r : Radio) (acked : List Nat) (answered pending : Bool) : Block :=
  let u := b.radio r
  match u.cmd with
  | none => b
  | some c =>
    if u.phase != .awaiting then b
    else
      let b1 : Block := match c.what, r with
        | .gather gid, _ => b.gatherOutcome r gid acked answered
        | _, .l => b.lowOutcome c answered pending
        | .mgmt k cseq _, _ => b.mgmtResult k r cseq answered
        | .caneCtl k t, _ => b.ctlResult k t r answered
        | _, _ => b
      let b2 : Block := if r == Radio.l then b1 else b1.widen r (b.cmdAc c) (!answered)
      let b3 := b2.modRadio r fun x => { x with quietFrom := b.now, txop := if answered then x.txop else none }
      ((b3.freeze r b.now).endCmd r).event (2 + radioNum r) 18

/-- The sequencer's choice of MCS for receivers. -/
def Block.setAllMcs (b : Block) (r : Radio) (l : List (Nat × Nat)) : Block := l.foldl (fun c x => c.setMcs r x.1 x.2) b

/-- RESPONSE_RECEIVED (R196): the frames that the response acknowledges. -/
def Block.responseReceived (b : Block) (r : Radio) (acked : List Nat) (mcs : List (Nat × Nat)) : Block :=
  if r == .l then b else (b.endExchange r acked true false).setAllMcs r mcs

/-- The end of the wait for a response on Radio H or M (R196): SIFS, a slot and the receive start delay of the PPDU's
format. -/
def RadioUnit.answerBy (u : RadioUnit) (r : Radio) : Nat :=
  u.endAt + sifs r + slotTime + us (match u.cmd with
    | some c => rxStartDelay c.ppdu.form
    | none => 20)

/-- RESPONSE_TIMEOUT (R196): no response has begun to arrive by its end. -/
def Block.responseTimeout (b : Block) (r : Radio) (mcs : List (Nat × Nat)) : Block :=
  let end_ := (b.radio r).answerBy r
  if r == .l || decide (b.now < end_) || b.hearing r end_ then b else (b.endExchange r [] false false).setAllMcs r mcs

/-- LOWBAND_ACK_RECEIVED: the acknowledgement resolves its frame (R112, R199); a child's slot frees (R207). -/
def Block.lowAck (b : Block) (pending : Bool) : Block := b.endExchange Radio.l [] true pending

/-- The end of the wait for an acknowledgement in reach mode: 1 ms and a preamble with sync word (R199). In the other
modes the standard's wait is what the command's time says (log entry 36). -/
def Block.ackBy (b : Block) : Nat :=
  let u := b.radio .l
  match u.cmd with
  | some c =>
    if c.ppdu.form.format = fmtReach then
      u.endAt + ms 1 + us ((b.get Obj.reachPreamble + 32) * reachSf c.ppdu.form.branch * 5)
    else b.now
  | none => b.now

/-- ACK_WAIT_EXPIRY: a failed attempt, unless the sync of an acknowledgement has come no later (R199). -/
def Block.ackWaitEnd (b : Block) : Block :=
  if decide (b.now < b.ackBy) || b.hearing .l b.ackBy then b else b.endExchange .l [] false false

/-! ### CSMA-CA on Radio L (R198) -/

/-- CSMA_CCA_END (R198): idle, the frame may start; busy, the back-off grows, and after MAX_BACKOFFS + 1 times in a
row it is a failed attempt. A preamble that a branch has detected is busy. -/
def Block.csmaEnd (b : Block) (busy : Bool) (draw : Nat) : Block :=
  let u := b.radio .l
  match u.cmd with
  | none => b
  | some c =>
    if u.phase != .waiting || c.kind != .contended || u.txop.isSome || b.mac.csma.isNone then b
    else if busy || u.busy b.now then
      let d := b.csmaBusy draw
      if d.1 then d.2.accessFailed c else d.2
    else (b.modRadio .l fun x => { x with txop := some (0, 0) }).emit (.radio .l 2 [])

/-! ### Immediate acknowledgements (R153, R161, R176, R205) -/

/-- The power that a PPDU of the edge's own asks for, in 0.25 dBm units: the most that a target can be, so that the
band's target and the region limit it (R149; DESIGN CHOICE, log entry 188). -/
def ownPower : Int := 144

/-- The PSDU of an Imm-Ack: frame control with Frame Pending, the sequence number and the FCS (R178, R208; PRESUMED,
log entry 178). -/
def immAck (fcs32 : Bool) (seq : Nat) (pending : Bool) : List Octet :=
  withFcs fcs32 [if pending then 0x12#8 else 0x02#8, 0#8, BitVec.ofNat 8 seq]

/-- The form of the acknowledgement of a frame: the mode, rate and spreading factor of the frame on Radio L and M1
(R175, R176); on 802.11 a legacy PPDU of 20 MHz, DSSS for DSSS (PRESUMED, log entry 178). -/
def ackForm (r : Radio) (f : PpduForm) : PpduForm :=
  if r == .l || f.format = fmtOqpsk24 then f
  else if f.format = 1 then { format := 1, rate := f.rate, place := f.place }
  else { format := 2, place := f.place * (f.width / 20000) }

/-- The command of an acknowledgement of a PPDU of a form: what it says to each sender, its sequence number, and its
length on air, which in reach mode follows from its PSDU. -/
def Block.ackCmd (b : Block) (r : Radio) (f : PpduForm) (parts : List (Nat × Nat × Nat)) (seq : Nat) (pending : Bool) (air : Nat) :
    TxCmd :=
  { what := .ack parts pending, power := ownPower, kind := .immediate, isAck := true, noAck := true
    ppdu :=
      { form := ackForm r f, air
        psdu := if r == .l || f.format = fmtOqpsk24 then immAck (f.format = fmtReach && b.is Obj.reachFcs32) seq pending else [] } }

/-- An acknowledgement passes the rule of R204 for every row that it overlaps (R205). -/
def Block.ackPasses (b : Block) (r : Radio) (c : TxCmd) : Bool :=
  let ch := b.occupied r c.ppdu.form
  (b.dutyShort r ch.1 ch.2 true (b.paOn r (b.airOf c.ppdu) .immediate)).isEmpty

/-- An immediate acknowledgement goes out, if the edge may send now: locked, its channel permitted, no shadow to load
that the reception, which began at a tick, came after (R144, R159, R161; DEDUCED, log entry 185). -/
def Block.ackNow (b : Block) (r : Radio) (began : Nat) (c : TxCmd) : Block :=
  let u := b.radio r
  let ch := b.occupied r c.ppdu.form
  let st := if b.get (Obj.synthState.of r) != 2 then 1 else b.channelStatus r ch.1 ch.2
  if !b.radioOn r || u.air.isSome || u.loadDue.any (fun t => decide (t < began)) then b
  else if st ≠ 0 then b.txStatus r st
  else (b.emit (.radio r 3 (match c.what with
    | .ack parts pending => (if pending then 1 else 0) :: parts.flatMap fun x => [x.1, x.2.1, x.2.2]
    | _ => []))).commitPpdu r c true

end Sys2Proof.Machine
end

