-- ==== Sys2Proof/Machine/Wall.lean ====
section
/-!
DEFINITION. The regulatory walls at work: the region's commit with the loads of the shadows, radar and the
availability of channels, test transmissions, and radios going up and down (R160 to R165).
-/

namespace Sys2Proof.Machine

/-! ### Test transmissions (R165) -/

/-- The PPDU of a test transmission: the chain's maximum rate on the whole tuned channel, in stretches of one second,
each checked and charged as a PPDU of traffic is (DESIGN CHOICE, log entry 187). -/
def Block.testPpdu (b : Block) (r : Radio) : Ppdu :=
  let u := b.radio r
  match r with
  | .h => { form := { format := 5, rate := 11, streams := 4, width := u.bw }, air := 1000000 }
  | .m => { form := { format := 5, rate := 11, streams := if u.split then 1 else 2, width := u.bw }, air := 1000000 }
  | .l => { form := { format := 0x22, branch := 10, rate := 3, width := u.bw }, air := 1000000, psdu := List.replicate 2047 0#8 }

/-- The command of a test transmission. -/
def Block.testCmd (b : Block) (r : Radio) : TxCmd :=
  { what := .testWave, ppdu := b.testPpdu r, power := b.geti (Obj.testPower.of r), kind := .test, noAck := true }

/-- A test transmission stops at once, with a ramp-down if it is on air, and ends with a status. -/
def Block.stopTest (b : Block) (r : Radio) (status : Nat) : Block :=
  let b1 := b.modRadio r fun u =>
    { u with own := u.own.filter (fun c => c.kind != .test), deferred := u.deferred.filter fun c => c.kind != .test }
  match (b1.radio r).cmd with
  | none => b1
  | some c =>
    if c.kind != .test then b1
    else
      match (b1.radio r).air with
      | none => b1.endCmd r
      | some a =>
        if a.own then b1.endCmd r
        else if decide (a.rampAt ≤ b.now) then
          let used := (b.now - a.rampAt) / 32 + a.ramp.down
          (((((b1.dutyCorrect a.charge used).rampEnd r).emit (.radio r 14 [used])).emit
            (.radio r 19 (a.ramp.down :: a.ramp.points.reverse))).txStatus r status).endCmd r
        else ((b1.uncommit r).txStatus r status).endCmd r

/-- A write of TEST_MODE (R165): a test transmission under way stops, and one begins that passes the checks and clamps
of traffic. -/
def Block.writeTestMode (b : Block) (r : Radio) (v : Nat) : Nat × Block :=
  let b1 := (b.stopTest r 0).put (Obj.testMode.of r) v
  (0, if v = 0 || !b.radioOn r then b1 else b1.sendOwn r (b1.testCmd r))

/-! ### The region's commit and the shadows (R160, R161) -/

/-- The REGION_CHANGE record is marked pending in its flags (R161 step 2, R404). -/
def pendingFlag : Nat := 4

/-- A write of REGION_COMMIT (R161 steps 1 to 3): RANGE on a wrong CRC or row, BUSY while a commit runs; else the
pending record is written and the image goes to the inactive half. No answer is due before the flip. -/
def Block.regionCommit (b : Block) (portNum crc : Nat) : Option Nat × Block :=
  if b.region.commit.isSome then (some 9, b)
  else
    let g := b.stagedRegion
    if crc ≠ g.crc || !g.edgesOk then (some 6, b)
    else
      let b1 := b.post 0x0030 (bytesLE 4 (b.get Obj.regionCrc) ++ bytesLE 4 g.crc ++ bytesBE 4 g.code ++
        bytesLE 4 g.version ++ [portNum, 0] ++ bytesLE 4 (b.get Obj.presenceSeq)) false pendingFlag
      (none, { b1 with region := { b1.region with commit := some { image := g }, pendingNew := some g.crc } })

/-- The channel of a radio is barred by a region; its unlocked gathers are remelted (R255 trigger 7). -/
def Block.remeltBarred (b : Block) (r : Radio) : Block :=
  if b.channelStatus r (b.radio r).freq (b.radio r).bw = 2 then b.remelt 7 fun g => g.radio == r else b

/-- The loads of R161 step 5 go on while an edge has one due. -/
def Block.loadsSettle (b : Block) : Block :=
  { b with region := { b.region with loads := b.region.loads && b.radios.any fun u => u.loadDue.isSome } }

/-- REGION_FLIP: the marker flips (R161 step 4); each edge that is on loads its shadow at its next PPDU boundary. -/
def Block.regionFlip (b : Block) : Block :=
  match b.region.commit with
  | none => b
  | some c =>
    let g := c.image
    let b1 := { b with region := { b.region with active := some g, commit := none, pendingNew := none, loads := true } }
    let half := 0x200C0000 + 0x2000 * (b1.get Obj.regionChanges % 2)
    let b1 := { b1 with regs := { b1.regs with slots := b1.regs.slots.mend half 0x2000 } }.mramWrote (Config.mramWords 2 + Config.mramWords 3)
    let b2 := ((((b1.put Obj.regionState 1).put Obj.regionCode g.code).put Obj.regionVersion g.version).put
      Obj.regionCrc g.crc).add Obj.regionChanges
    let b3 := b2.post 0x0031 (bytesLE 4 g.crc ++ bytesLE 4 (b2.get Obj.regionChanges))
    (radios3.foldl (fun (d : Block) r =>
      if d.radioOn r then d.modRadio r fun u => { u with loadDue := some b.now } else d) b3).loadsSettle

/-- The active half fails its CRC (R160): state 2 with its record, and nothing is transmitted any more. -/
def Block.regionFault (b : Block) (crcRead : Nat) : Block :=
  if b.get Obj.regionState = 2 then b
  else
    let b1 := (b.put Obj.regionState 2).post 0x0033 (bytesLE 4 crcRead) true
    radios3.foldl (fun (c : Block) r => c.stopTest r 5) b1

/-- The active half has a word that does not correct, and so fails its CRC (R160, R475). The halves take turns, a
change of region at a time: which of the two a count of changes leaves active is a DESIGN CHOICE (log entry 216). -/
def Block.halfBad (b : Block) : Bool :=
  let half := 0x200C0000 + 0x2000 * ((b.get Obj.regionChanges + 1) % 2)
  b.regs.slots.bad.any fun w => decide (half ≤ w) && decide (w < half + 0x2000)

/-- The shadow of a radio is loaded from the active half, which is checked (R160). -/
def Block.loadShadow (b : Block) (r : Radio) (activeOk : Bool) (crcRead : Nat) : Block :=
  if activeOk && !b.halfBad then (b.modRadio r fun u => { u with shadow := b.region.active, loadDue := none }).loadsSettle
  else ((b.modRadio r fun u => { u with loadDue := none }).loadsSettle).regionFault crcRead

/-- SHADOW_LOAD: at its next PPDU boundary an edge loads its shadow (R161 step 5). -/
def Block.shadowLoad (b : Block) (r : Radio) (activeOk : Bool) (crcRead : Nat) : Block :=
  let u := b.radio r
  if b.radioOn r && u.loadDue.isSome && !u.inPpdu then
    let b1 := b.loadShadow r activeOk crcRead
    let b2 := if r == .h && b1.region.cacFrom.isNone && !b1.region.cacDone then b1.startCac else b1
    b2.remeltBarred r
  else b

/-- SHADOW_CRC_CHECK (R160): a bad shadow is reloaded; a bad active half is a region fault with its record. -/
def Block.shadowCheck (b : Block) (r : Radio) (shadowOk activeOk : Bool) (crcRead : Nat) : Block :=
  if !b.radioOn r || b.get Obj.regionState = 0 then b
  else if !activeOk || b.halfBad then b.regionFault crcRead
  else if !shadowOk then b.loadShadow r true crcRead
  else b

/-! ### Radar and the availability of channels (R164) -/

/-- The radar detectors of Radio H work: a rule set is in force, and no other source blanks every chain. What they
find during a PPDU of Radio H itself stands (R155, R164; DEDUCED, log entry 186). -/
def Block.radarOn (b : Block) : Bool :=
  let others := b.coex.blanks.foldl (fun m s => if s = 0 || (s = 2 && !(b.radio .m).split) then m else m ||| b.blankShown s) 0
  (match (b.radio .h).shadow with
    | some g => g.ruleset != 0
    | none => false) && !b.covers others .h false

/-- The subchannels of a list are barred for NOP_TIME, and a channel availability check on them ends. -/
def Block.barSubs (b : Block) (subs : List Nat) : Block :=
  let u := b.radio .h
  let end_ := b.rtcSec + (match u.shadow with
    | some g => g.nop
    | none => 0)
  let b1 := { b with region := { b.region with barred := subs.foldl (fun l i => assocPut l i end_) b.region.barred } }
  if b1.subBarred u.freq u.bw then { b1 with region := { b1.region with cacFrom := none } } else b1

/-- A PPDU or a command on barred subchannels (R164, R166): cut after its ramp-up has started, before that it is not
emitted. -/
def Block.radarCut (b : Block) (subs : List Nat) : Block :=
  let u := b.radio .h
  let hit (centre bw : Nat) : Bool := (subchannels centre bw).any fun i => subs.contains i
  match u.air, u.cmd with
  | some a, _ =>
    if !hit a.centre a.bw then b
    else if decide (a.rampAt ≤ b.now) then b.cutPpdu .h 7
    else if a.own then b.uncommit .h
    else ((b.uncommit .h).txStatus .h 2).endCmd .h
  | none, some c =>
    let ch := b.occupied .h c.ppdu.form
    if u.phase == .waiting && hit ch.1 ch.2 then (b.txStatus .h 2).endCmd .h else b
  | none, none => b

/-- RADAR_DETECTED (R164): the subchannels named in the mask, counted from 5,150 MHz, are barred; a PPDU on one is
cut, a command for one ends CHANNEL_BARRED. -/
def Block.radar (b : Block) (mask : Nat) : Block :=
  if !b.radioOn .h || !b.radarOn then b
  else
    let subs := (List.range 99).filter (bitSet mask)
    ((b.add (Obj.radarEvents.of .h)).barSubs subs).radarCut subs

/-- CAC_EXPIRY: CAC_TIME without radar, and the channel is available (R164). -/
def Block.cacEnd (b : Block) : Block :=
  let len := match (b.radio .h).shadow with
    | some g => g.cac
    | none => 0
  match b.region.cacFrom with
  | some t =>
    if b.radioOn .h && decide (t + secs len ≤ b.now) then { b with region := { b.region with cacFrom := none, cacDone := true } }
    else b
  | none => b

/-- NOP_EXPIRY: the bar of a subchannel ends; a channel that has had no check yet is then checked (R164). -/
def Block.nopEnd (b : Block) (sub : Nat) : Block :=
  if (assocGet b.region.barred sub).any fun t => decide (t ≤ b.rtcSec) then
    let b1 := { b with region := { b.region with barred := assocDel b.region.barred sub } }
    if b1.radioOn .h && b1.region.cacFrom.isNone && !b1.region.cacDone then b1.startCac else b1
  else b

/-- After a loss of VFUR every DFS subchannel is barred for NOP_TIME (R164). -/
def Block.barAllDfs (b : Block) : Block :=
  match b.region.active with
  | none => { b with region := { b.region with barred := [] } }
  | some g =>
    let dfs := (List.range 99).filter fun i => g.needsDfs .h (5160000 + 20000 * i) 20000
    { b with region := { b.region with barred := dfs.map fun i => (i, b.rtcSec + g.nop) } }

/-! ### Radios going up and down -/

/-- A radio's domain powers up: its shadow is to load from the active half, its calibrations are due and it tunes
(R145, R160, R164). -/
def Block.radioUp (b : Block) (r : Radio) : Block :=
  let b1 := b.modRadio r fun u =>
    ({ paMv := u.paMv, loadDue := if b.region.active.isSome then some b.now else none } : RadioUnit)
  let b2 := [1, 2, 3].foldl (fun (c : Block) k => c.calDue r k) b1
  b2.tuneTo r (b.homeChannel r).1 (b.homeChannel r).2

/-- What a radio's PPDU that stops with its domain had sent stays transmitted and unresolved. -/
def Block.stopPpdu (b : Block) (r : Radio) : Block :=
  let b0 := b.modRadio r fun u => { u with own := [] }
  let u := b0.radio r
  let b1 := if b0.onAirNow r then b0.cutPpdu r 4 else b0.uncommit r
  if u.phase == .awaiting then
    (match u.cmd with
     | some c => b1.retryUnchanged r c
     | none => b1).modRadio r fun x => { x with cmd := none, phase := .idle, own := [] }
  else b1.modRadio r fun x => { x with cmd := none, phase := .idle, own := [] }

/-- A radio's domain powers down or the radio is fenced: what it held of its own is gone. -/
def Block.radioDown (b : Block) (r : Radio) : Block :=
  let b2 := (b.stopPpdu r).modRadio r fun _ => {}
  let b3 := ((b2.put (Obj.synthState.of r) 0).put (Obj.calStatus.of r) 0).loadsSettle
  let b4 := b3.modMac fun m =>
    { m with
      backoffs := m.backoffs.filter fun x => x.radio != radioNum r
      down := if r == .l then m.down else m.down.set (radioNum r) []
      up := if r == .l then m.up else m.up.set (radioNum r) [] }
  let b5 : Block := match r with
    | .h => { b4 with region := { b4.region with cacFrom := none, cacDone := false } }
    | .m => b4.put Obj.splitState 0
    | .l => b4.modMac fun m =>
      { m with csma := none, polled := [], polling := false, lost := [], scanWait := [], cell := none, cellBack := [] }
  b5.femDrive r b.now

end Sys2Proof.Machine
end

