-- ==== Sys2Proof/Machine/Sched.lean ====
section
/-!
DEFINITION. What the sequencers do at their times: children that poll, lost partners and scans, the polls of Day
Watch, the duty bins' boundary, beacons, and the slots of TSCH (R203 to R213, R219 to R222, R227).
-/

namespace Sys2Proof.Machine

/-! ### Children (R207 to R209) -/

/-- A child that has been told of pending frames gets them from now on. -/
def Block.pollStarts (b : Block) (row : Nat) : Block :=
  b.modMac fun m => { m with polled := m.polled.filter (· != row) ++ [row] }

/-- CHILD_POLL: the acknowledgement goes out with Frame Pending as the indirect queue holds a frame at this tick, in
the poll's own mode, unless the sequence test finds the poll stale (R200) or the rule of R204 refuses it; then it is
not marked (R208, R209). -/
def Block.childPoll (b : Block) (row : Nat) (form : PpduForm) (seq ackAir : Nat) : Block :=
  if b.isChild row && b.radioOn .l then
    let b1 := ((b.hearNbr row b.now).partnerHeard row).timeInCell row tsTxOffset b.now
    let pend := !(b1.indirectOf row).isEmpty
    let ack := b1.ackCmd .l form [(row, seq, 1)] seq pend ackAir
    let d := b1.seqCheck row seq
    match d.1 with
    | none => d.2
    | some dup =>
      if !b1.ackPasses .l ack then b1.add Obj.ackRefused
      else
        let b2 := (if dup then d.2.add Obj.dupDiscards else d.2).ackNow .l b.now ack
        if pend then b2.pollStarts row else b2
  else b

/-! ### Lost partners (R212) -/

/-- The channel number of a place of the hop list. -/
def Block.hopChannel (b : Block) (k : Nat) : Nat := octAt (b.get Obj.hopList) 64 k

/-- The centre frequency of a channel in kHz (R219). -/
def Block.tschFreq (b : Block) (channel : Nat) : Nat := b.get Obj.ch0Freq + channel * b.get Obj.chSpacing

/-- A lost-partner run replaced by its next state. -/
def Block.setLost (b : Block) (x : Lost) : Block :=
  b.modMac fun m => { m with lost := m.lost.map fun y => if y.nbr == x.nbr then x else y }

/-- The edge dwells on a channel of the hop list from now on (R212 step 2). -/
def Block.dwell (b : Block) (x : Lost) (k : Nat) : Block :=
  (b.setLost { x with step := 2, k, dwellAt := b.now }).hopTo (b.tschFreq (b.hopChannel k))

/-- LOST_PARTNER_LISTEN: a listen has ended in which the partner was heard or not; the next has twice the width, and
after one over a full interval the edge scans (R212 steps 1 and 2). -/
def Block.lostListen (b : Block) (row : Nat) (heard : Bool) : Block :=
  match b.lostOf row with
  | none => b
  | some x =>
    let end_ := x.beaconAt (b.guard x.elapsed) (x.k + 1) + b.listenWidth x (x.k + 1)
    if x.step ≠ 1 then b
    else if heard then (b.hearNbr row b.now).partnerHeard row
    else if decide (b.now < end_) || b.hearing .l end_ then b
    else if decide (x.interval / 2 ≤ b.guard x.elapsed * 2 ^ (x.k + 1)) then b.dwell x 0
    else b.setLost { x with k := x.k + 1 }

/-- SCAN_DWELL_END: a dwell on one channel of the hop list ends; the last in vain ends the procedure as failed (R212
steps 2 and 4). -/
def Block.scanDwell (b : Block) (row : Nat) (heard : Bool) : Block :=
  match b.lostOf row with
  | none => b
  | some x =>
    let end_ := x.dwellAt + ms (b.get Obj.scanDwell)
    if x.step ≠ 2 then b
    else if heard then
      let b1 := ((b.hearNbr row b.now).partnerHeard row).goHome
      b1.modMac fun m => { m with suspended := false, parent := if m.suspended then some row else m.parent }
    else if decide (b.now < end_) || b.hearing .l end_ then b
    else if x.k + 1 < b.get Obj.hopLen then b.dwell x (x.k + 1)
    else
      let b1 := b.lostEnd x true
      ((b1.modMac fun m => { m with scanWait := assocPut m.scanWait row b.now }).replaceParent row).goHome

/-- SCAN_INTERVAL_EXPIRY: SCAN_INTERVAL after a failed scan the next one starts (R212 step 4). -/
def Block.scanAgain (b : Block) (row : Nat) : Block :=
  if (assocGet b.mac.scanWait row).any (fun t => decide (t + secs (b.get Obj.scanInterval) ≤ b.now)) && b.nbrUsed row &&
      b.radioOn .l && (b.lostOf row).isNone then
    (b.lostStart row 0 2).hopTo (b.tschFreq (b.hopChannel 0))
  else b

/-! ### Day Watch polls (R213) -/

/-- The next poll of the parent is due, its beacon expected within the guard (R211, R213). -/
def Block.pollDue (b : Block) (row : Nat) : Bool :=
  match b.mac.pollAt with
  | some t => decide (t + secs (b.get Obj.dwPollInterval) ≤ b.now + b.guard (b.elapsedOf row))
  | none => true

/-- MS-L listens for the parent's beacon before a poll that is due (R108, R211). -/
def Block.parentListens (b : Block) : Bool :=
  b.mode.mode == .dayWatch && !b.mac.suspended && b.mac.pollAt.isSome && b.mac.parent.any fun row => b.pollDue row

/-- The Data Request of a poll, in the parent's mode: a transmission under R204. -/
def Block.pollParent (b : Block) (row : Nat) (request : Ppdu) : Block :=
  b.sendOwn .l
    { what := .dataRequest row, power := ownPower
      ppdu := { request with form := lowForm (b.get Obj.nbrTxMode row) request.form } }

/-- DW_POLL: on the parent's channel MS-L has listened for its enhanced beacon, corrects network time and sends a Data
Request (R139, R213, R331). A parent not heard starts the lost-partner procedure. -/
def Block.dwPoll (b : Block) (heard : Bool) (corr : Int) (freq : Nat) (request : Ppdu) : Block :=
  match b.mac.parent with
  | none => b
  | some row =>
    if b.mode.mode != .dayWatch || b.mac.suspended || !b.radioOn .l || b.pollOpen || !b.pollDue row then b
    else
      let b1 := (b.modMac fun m => { m with pollAt := some b.now }).hopTo freq
      if heard then ((((b1.hearNbr row b.now).partnerHeard row).timeNbr row).dwCorrect corr).pollParent row request
      else b1.lostStart row (ms (b.get Obj.ebInterval)) 1

/-! ### The bin boundary (R203, R204) -/

/-- What the edge and the sequencer send of their own, the edge offers again itself. -/
def ownAgain (c : TxCmd) : Bool := !commandable c

/-- DUTY_BIN_BOUNDARY: at a new second the bins that are too old drop, then deferred commands that pass are offered
again, those of the edge's own are taken up (R203, R204, R213). -/
def Block.dutyBoundary (b : Block) : Block :=
  if b.mac.binAt = some b.lifeSec then b
  else
    let b1 := (b.modMac fun m => { m with binAt := some b.lifeSec }).dutyPrune
    let passes (r : Radio) (c : TxCmd) : Bool :=
      let ch := b1.occupied r c.ppdu.form
      (b1.dutyShort r ch.1 ch.2 c.isAck (b1.paOn r (b1.airOf c.ppdu) c.kind)).isEmpty
    radios3.foldl (fun (c : Block) r =>
      let l := (b1.radio r).deferred
      let d := c.modRadio r fun u => { u with deferred := l.filter fun x => !passes r x }
      (l.filter (passes r)).foldl (fun (e : Block) x => if ownAgain x then e.sendOwn r x else e.emit (.radio r 7 [])) d) b1

/-! ### Beacons (R222, R227) -/

/-- The TBTT of a BSS in µs of TSF, as its remainder in the beacon interval: those of a radio's enabled BSSs are
spread evenly (R227). -/
def Block.tbttOffset (b : Block) (r : Radio) (bss : Nat) : Nat :=
  let on := (List.range 16).filter fun k => b.is (Obj.bssEnable.of r) k
  b.get (Obj.bssBeaconInterval.of r) bss * 1024 * (on.filter fun k => decide (k < bss)).length / max 1 on.length

/-- This is the microsecond of a TBTT of a BSS (R227). -/
def Block.tbttNow (b : Block) (r : Radio) (bss : Nat) : Bool :=
  let every := b.get (Obj.bssBeaconInterval.of r) bss * 1024
  b.tsf % every == b.tbttOffset r bss

/-- TBTT: the edge sends the beacon of a served BSS, once at each of its TBTTs (R227). -/
def Block.tbtt (b : Block) (r : Radio) (bss : Nat) (beacon : Ppdu) : Block :=
  let key := 16 * radioNum r + bss
  if b.bssServed r bss && b.tbttNow r bss && assocGet b.mac.tbtts key != some b.tsf then
    (b.modMac fun m => { m with tbtts := assocPut m.tbtts key b.tsf }).sendOwn r
      { what := .beacon bss, ppdu := beacon, power := ownPower, noAck := true }
  else b

/-- EB_SEND: every EB_INTERVAL an enhanced beacon in the mains modes (R222). -/
def Block.ebSend (b : Block) (beacon : Ppdu) : Block :=
  let due := match b.mac.ebAt with
    | some t => decide (t + ms (b.get Obj.ebInterval) ≤ b.now)
    | none => true
  if b.baseMode.mains && b.radioOn .l && due then
    (b.modMac fun m => { m with ebAt := some b.now }).sendOwn .l
      { what := .enhBeacon, ppdu := beacon, power := ownPower, noAck := true }
  else b

/-! ### TSCH (R211, R219, R220) -/

/-- The absolute slot number (R219). -/
def Block.asnNow (b : Block) : Nat :=
  ((b.presented - ofTime112 (b.get Obj.tschEpoch)) / ((b.get Obj.timeslot : Int) * usUnit)).toNat

/-- The channel number of a channel offset in a slot (R219). -/
def Block.tschChannel (b : Block) (asn off : Nat) : Nat := b.hopChannel ((asn + off) % b.get Obj.hopLen)

/-- TSCH runs: in the mains modes with a slotframe enabled (R219). -/
def Block.tschRuns (b : Block) : Bool := b.baseMode.mains && b.radioOn .l && b.slotframeOn

/-- A cell falls on a slot: its slotframe is enabled and its offset is the slot's place in it (R220). Cells with a
partner that is lost are suspended (R212). -/
def Block.cellFalls (b : Block) (asn cell : Nat) : Bool :=
  let sf := b.get Obj.cellSlotframe cell
  decide (sf < 8) && b.is Obj.sfEnable sf && asn % b.get Obj.sfSize sf == b.get Obj.cellSlotOffset cell &&
    (b.lostOf (b.get Obj.cellNeighbour cell)).isNone

/-- The neighbour for which a transmit cell has a frame: its own, or that of the first frame for any (R220). -/
def Block.cellTarget (b : Block) (cell : Nat) : Option Nat :=
  let n := b.get Obj.cellNeighbour cell
  if bitSet (b.get Obj.cellOptions cell) 0 then
    (b.frames.find? fun f => b.lowReady f &&
      ((b.lowNbr f).any fun row => (n == 65535 || row == n) && (b.lostOf row).isNone)).bind b.lowNbr
  else none

/-- A back-off of shared cells keeps a transmit cell from being used (R220). -/
def Block.cellHeld (b : Block) (cell : Nat) : Bool :=
  bitSet (b.get Obj.cellOptions cell) 2 &&
    (b.cellTarget cell).any fun row => (b.cellBackOf row).any fun x => decide (0 < x.2)

/-- The cell of the lowest slotframe (R220). -/
def Block.lowestFrame (b : Block) (l : List Nat) : Option Nat :=
  l.foldl (fun best x => match best with
    | none => some x
    | some y => if b.get Obj.cellSlotframe x < b.get Obj.cellSlotframe y then some x else best) none

/-- The time for which a receive cell waits, in ticks: macTsRxWait (R211; PRESUMED, log entry 35). -/
def rxWait : Nat := us 2200

/-- A receive cell is of use: the guard of its neighbour does not exceed the receive wait (R211). -/
def Block.cellHears (b : Block) (cell : Nat) : Bool :=
  let n := b.get Obj.cellNeighbour cell
  bitSet (b.get Obj.cellOptions cell) 1 && (n == 65535 || decide (b.guard (b.elapsedOf n) ≤ rxWait))

/-- The cell of a slot (R220): a transmit cell with a frame before a receive cell, of equals the lower slotframe. The
Boolean tells that it transmits. -/
def Block.cellOf (b : Block) (asn : Nat) : Option (Nat × Bool) :=
  let on := (b.listedRows Obj.cellSlotframe).filter (b.cellFalls asn)
  match b.lowestFrame (on.filter fun x => (b.cellTarget x).isSome && !b.cellHeld x) with
  | some x => some (x, true)
  | none => (b.lowestFrame (on.filter b.cellHears)).map fun x => (x, false)

/-- Shared cells pass: the back-offs that they hold are counted down (R220). -/
def Block.cellsPass (b : Block) (asn : Nat) : Block :=
  let rows := (((b.listedRows Obj.cellSlotframe).filter fun x => b.cellFalls asn x && b.cellHeld x).filterMap b.cellTarget).eraseDups
  b.modMac fun m => { m with cellBack := m.cellBack.map fun x => if rows.contains x.1 then (x.1, x.2.1, x.2.2 - 1) else x }

/-- Partners whose receive cell is of no use for the guard count as not heard (R211). -/
def Block.cellsDeaf (b : Block) (asn : Nat) : Block :=
  let deaf := (b.listedRows Obj.cellSlotframe).filter fun x =>
    b.cellFalls asn x && bitSet (b.get Obj.cellOptions x) 1 && !b.cellHears x && b.nbrUsed (b.get Obj.cellNeighbour x)
  deaf.foldl (fun (c : Block) x => c.lostStart (c.get Obj.cellNeighbour x) (ms (c.get Obj.ebInterval)) 1) b

/-- Row 15 of the triggers is as the device holds it while a slotframe is enabled (R340). -/
def Block.rowHeld (b : Block) : Bool :=
  !(b.coreA && b.slotframeOn) ||
    (b.is Obj.trigEnable 15 && b.get Obj.trigMode 15 == 1 && b.get Obj.trigTarget 15 == 3 && b.get Obj.trigNext 15 != 0 &&
      b.get Obj.trigStart 15 == b.get Obj.tschEpoch && b.get Obj.trigPeriod 15 == b.get Obj.timeslot * 65536000)

/-- The device holds row 15 at START TSCH_EPOCH, PERIOD TIMESLOT, periodic, TARGET 3 (R340). It starts at the first
slot boundary that is not past (DESIGN CHOICE, log entry 200). -/
def Block.holdRow (b : Block) : Block :=
  if b.rowHeld then b
  else
    let per : Int := b.get Obj.timeslot * 65536000
    let from_ := t16 (b.get Obj.tschEpoch)
    let next := if b.presented16 ≤ from_ then from_ else from_ + (b.presented16 - from_ + per - 1) / per * per
    (((((b.put Obj.trigStart (b.get Obj.tschEpoch) 15).put Obj.trigPeriod per.toNat 15).put Obj.trigMode 1 15).put Obj.trigTarget 3 15).put
      Obj.trigNext (ofT16 next) 15).put Obj.trigEnable 1 15

/-- A TSCH slot starts at its time trigger: the edge chooses its cell and retunes to its channel; with no cell it goes
home (R139, R219, R220). -/
def Block.tschSlot (b : Block) : Block :=
  if b.tschRuns && !(b.radio .l).inPpdu && (b.radio .l).seg.isNone then
    let asn := b.asnNow
    let cell := b.cellOf asn
    let b1 := (b.cellsPass asn).cellsDeaf asn
    match cell with
    | none => (b1.modMac fun m => { m with cell := none }).goHome
    | some (x, tx) =>
      let f := b.tschFreq (b.tschChannel asn (b.get Obj.cellChannelOffset x))
      ((b1.modMac fun m => { m with cell := some (x, tx, asn) }).emit (.radio .l 16 [asn, x, if tx then 1 else 0, f])).hopTo f
  else b

/-- A slot boundary that a trigger has fired starts its slot (R340). -/
def Block.slotStarts (b : Block) : Block :=
  if b.mac.slotDue then (b.modMac fun m => { m with slotDue := false }).tschSlot else b

end Sys2Proof.Machine
end

