-- ==== Sys2Proof/Machine/Receive.lean ====
section
/-!
DEFINITION. Reception: packet search, capture and headers, the decoders and the equaliser, the responder's tests in
their order, acceptance with its acknowledgement, and the queue manager's move out of landing (R114 to R117, R171,
R172, R183 to R192, R270 to R273, R310 to R312).
-/

namespace Sys2Proof.Machine

/-! ### Search and capture (R183 to R187) -/

/-- The branch of chain M1 in split mode, beyond those of Radio L. -/
def branchM1 : Nat := 16

/-- The mode of the acknowledgement that the edge of Radio L awaits: that of the frame sent (R176). -/
def Block.ackBranch (b : Block) : Option Nat :=
  let u := b.radio .l
  if u.phase == .awaiting then u.cmd.map fun c => c.ppdu.form.branch else none

/-- A branch searches: on Radio L its bit of MODE_ENABLE is set, or the edge awaits an acknowledgement in its mode
(R176, R183); chain M1 searches in split mode (R174, R175). -/
def Block.searches (b : Block) (r : Radio) (branch : Nat) : Bool :=
  match r with
  | .h => branch != branchM1
  | .m => branch != branchM1 || (b.radio .m).split
  | .l => (bitSet (b.get Obj.modeEnable) branch && decide (branch < 14)) || b.ackBranch == some branch

/-- The two SFDs of SUN FSK, for uncoded and for coded frames (R183; PRESUMED, log entry 178). -/
def fskSfds : List Nat := [0x904E, 0x6F4E]

/-- What a branch has seen confirms sync (R183): in reach mode a preamble and a sync word with no more than
SYNC_ERRORS errors, on SUN FSK an SFD without error, on SUN O-QPSK the SFD's correlation, elsewhere detection and
timing. -/
def Block.confirms (b : Block) (r : Radio) (branch : Nat) (s : SyncSeen) : Bool :=
  if r != .l then s.preamble && s.locked
  else if branch < 4 then
    s.preamble && decide (((List.range 32).filter fun i => s.word.testBit i != (b.get Obj.reachSync).testBit i).length ≤
      b.get Obj.syncErrors)
  else if branch < 9 then fskSfds.contains s.word
  else if branch = 9 then s.locked
  else s.preamble && s.locked

/-- The bit of a radio's first receive chain in the field map of R158. -/
def chainBase : Radio → Nat
  | .h => 0
  | .m => 4
  | .l => 6

/-- The AGC takes its gain steps; a blanked chain keeps the gain that it held (R140, R155). -/
def Block.takeGains (b : Block) (r : Radio) (gains : List Nat) : Block :=
  let mask := b.blankMask
  let old := (b.radio r).gains
  let new := (gains.zipIdx).map fun x => if mask.testBit (chainBase r + x.2) then old.getD x.2 x.1 else x.1
  (b.modRadio r fun u => { u with gains := if gains.isEmpty then u.gains else new }).femDrive r b.now

/-- A packet owns the receiver from its sync on. -/
def Block.ownRx (b : Block) (r : Radio) (branch : Nat) (s : SyncSeen) : Block :=
  let m1 := branch == branchM1
  let b1 := b.modRadio r fun u => u.setRx m1 (some { branch, power := s.power, at_ := b.now, first := b.now - s.age })
  (if m1 then b1 else b1.freeze r b.now).takeGains r s.gains

/-- A receive segment takes its one chain from the search (R146): the only chain of Radio L, and elsewhere a reception
is lost where the blanks cover the chains left. -/
def Block.blinded (b : Block) (r : Radio) (m1 : Bool) : Bool :=
  (b.radio r).seg.any fun s =>
    decide (s.kind ≤ 1) && !b.isBlanked r m1 && b.covers (b.blankMask ||| 2 ^ (chainBase r + s.chain)) r m1

/-- RX_SYNC_CONFIRM (R183 to R187): the first branch owns the receiver, of two in one tick the lower bit; a packet
CAPTURE_THRESHOLD stronger captures the one in progress, but not in the tick of its last symbol. A blank that starts
in the same tick wins (R156). -/
def Block.syncConfirm (b : Block) (r : Radio) (branch : Nat) (s : SyncSeen) : Block :=
  let m1 := branch == branchM1
  let u := b.radio r
  if !b.radioOn r || !b.searches r branch || !b.confirms r branch s || b.blinded r m1 || u.doneAt == some b.now then b
  else if b.blankedNow r m1 then ((b.ownRx r branch s).endRx r m1 3).add (blankedReg r)
  else if b.isBlanked r m1 then b
  else
    match u.rxOf m1 with
    | none => b.ownRx r branch s
    | some x =>
      if x.at_ = b.now && x.head.isNone then (if branch < x.branch then b.ownRx r branch s else b)
      else if b.is (Obj.captureEnable.of r) && decide (x.power + 4 * (b.get (Obj.captureThreshold.of r) : Int) ≤ s.power) &&
          (r != .l || branch != x.branch) then
        ((b.endRx r m1 4).add (Obj.rxCaptured.of r)).ownRx r branch s
      else b

/-! ### Headers (R171, R179, R180, R188, R192) -/

/-- A header as the edge takes it (R180, R191): on a reach branch of Radio L from the 32 header bits received,
elsewhere from the standard's PHR or SIG, whose format the branch gives on Radio L. The Boolean tells that it checks.
-/
def headerSays (r : Radio) (branch : Nat) (h : RxHead) : Bool × RxHead :=
  if r != .l then (h.ok, h)
  else if branch < 4 then
    (reachHeaderOk branch h.header,
      { h with
        form := lowForm branch h.form, len := reachLength h.header, fcs32 := h.header.testBit 29
        whiten := h.header.testBit 28, seed := 511 })
  else (h.ok, { h with form := lowForm branch h.form })

/-- The width over which EQ_SMOOTH averages the estimates of a PPDU (R188): none where the standard forbids it, and on
Radio L only those of SUN OFDM. -/
def Block.smoothWidth (b : Block) (r : Radio) (f : PpduForm) : Nat :=
  let may := if r == .l then f.format == 0x22 else decide (3 ≤ f.format) && decide (f.format ≤ 7) && !f.beamformed
  if may then b.get (Obj.eqSmooth.of r) else 0

/-- The octets that a radio's receptions under way have reserved in landing. -/
def Block.landingReserved (b : Block) (r : Radio) : Nat :=
  let held (x : Option Rx) : Nat := match x with
    | some y => if y.reserved then y.octets else 0
    | none => 0
  held (b.radio r).rx + held (b.radio r).rx1

/-- An unsupported format holds CCA busy for the duration that L-SIG gives (R171). -/
def Block.holdCca (b : Block) (r : Radio) (dur : Nat) : Block :=
  (b.modRadio r fun u => { u with ccaUntil := b.now + us dur }).freeze r (b.now + us dur)

/-- The octets of landing space that a PPDU needs: its PSDU's length, or the allocation of each user of an HE TB PPDU
(R271). -/
def RxHead.needs (h : RxHead) : Nat := if h.form.format = 8 then sumOfList h.allots else h.len

/-- RX_HEADER_DECODED (R171, R180, R184, R188, R192, R271): a failed header frees the receiver, an unsupported format
holds CCA busy, a length out of its format's range is reported, and the length of any other PPDU is reserved in
landing. -/
def Block.headerDecoded (b : Block) (r : Radio) (head : RxHead) : Block :=
  let m1 := r == .m && head.form.format == fmtOqpsk24
  match (b.radio r).rxOf m1 with
  | none => b
  | some x =>
    let h := headerSays r x.branch head
    let b1 := b.modRadio r fun u => u.setRx m1 (some { x with head := some h.2 })
    if x.head.isSome then b
    else if !h.1 then (b.endRx r m1 2).add (Obj.rxHdrFail.of r)
    else if !formOk r (b.radio r).split false h.2.form then ((b1.endRx r m1 5).add (Obj.rxUnsupported.of r)).holdCca r head.dur
    else if h.2.len = 0 || psduMax h.2.form < h.2.len then (b1.endRx r m1 6).add (Obj.rxLength.of r)
    else
      let fits := decide (b.landingUsed r + b.landingReserved r + RxHead.needs h.2 ≤ (landingRegion r).1)
      b.modRadio r fun u => u.setRx m1 (some
        { x with
          head := some h.2, reserved := fits, octets := RxHead.needs h.2
          taps := h.2.ltf.map fun l => smoothTaps (b.smoothWidth r h.2.form) l })

/-! ### The decoders (R172, R188 to R190) -/

/-- The codewords that their deadline has stopped with checks unsatisfied (R172). -/
def Block.truncated (b : Block) (r : Radio) (l : List Codeword) : Nat :=
  (l.filter fun w => ldpcStop w (b.get (Obj.ldpcIterMax.of r)) == .deadline).length

/-- The PSDU of decoded bits: whitened in reach mode and on SUN PHYs as the header says, scrambled on 802.11 (R179). -/
def psduOf (r : Radio) (h : RxHead) (bits : List Bool) : List Octet :=
  if r == .l then octetsOfBits h.len (if h.whiten then whitened h.seed bits else bits)
  else dot11Psdu h.len bits

/-- List mode serves a PSDU (R189, R190): reach mode and SUN OFDM on Radio L. -/
def Block.listed (b : Block) (r : Radio) (h : RxHead) : Bool :=
  r == .l && b.is Obj.listMode && (h.form.format == fmtReach || h.form.format == 0x22)

/-- The PSDU that the trellis decoder leaves in landing, and the path chosen, if one checks (R189, R190). -/
def Block.decoded (b : Block) (r : Radio) (h : RxHead) (i : RxInfo) : List Octet × Option Nat :=
  chooseList h.fcs32 ((trellisDecode i.coding (if b.listed r h then 4 else 1) i.soft).map (psduOf r h))

/-- What the receiver makes of a PPDU: whether its one PSDU's FCS checks, where the edge decodes it, and the path that
list mode chose. -/
structure PsduCheck where
  fcsOk : Bool
  path : Nat
  deriving DecidableEq, Repr

/-- The FCS and the path of a PSDU of Radio L: from its soft values, or as they are reported (R190). -/
def Block.psduCheck (b : Block) (r : Radio) (h : RxHead) (i : RxInfo) (ms : List RxMpdu) : PsduCheck :=
  if r == .l && !i.soft.isEmpty then
    match (b.decoded r h i).2 with
    | some k => { fcsOk := true, path := k }
    | none => { fcsOk := false, path := 0 }
  else { fcsOk := ms.all (·.fcsOk), path := if b.listed r h then i.listPath else 0 }

/-- The decoders and the equaliser leave their results: the PSDU landed and the points of the symbols, by stream in
turn (R188, R190). -/
def Block.decode (b : Block) (r : Radio) (x : Rx) (h : RxHead) (i : RxInfo) : Block :=
  b.modRadio r fun u =>
    { u with
      psdu := if i.soft.isEmpty then u.psdu else (b.decoded r h i).1
      points := (i.symbols.zipIdx).flatMap fun s => equalised (x.taps.getD (s.2 % max 1 x.taps.length) []) s.1 }

/-! ### The responder (R270, R311, R312) -/

/-- The ingress context of a sender's frame (R111). -/
def Block.senderCtx (_ : Block) (m : RxMpdu) : Option Ctx :=
  match m.sender, m.body with
  | .station row, _ => some (.station row m.tid)
  | .neighbour row, _ => some (.neighbour row)
  | .cane k, .cane h _ => some (.cane k (match caneRead h with
    | .data s _ _ => s
    | _ => 15))
  | .cane k, _ => some (.cane k 15)
  | .stranger, _ => none

/-- The sender is in its table and served on the radio; on chain M1 it is a neighbour (DEDUCED, log entry 190). -/
def Block.senderKnown (b : Block) (r : Radio) (m1 : Bool) (m : RxMpdu) : Bool :=
  match m.sender with
  | .station row => r != .l && !m1 && decide (row < 512) && b.get Obj.staState row == 2 && b.staRadio row == r
  | .neighbour row => (r == .l || m1) && decide (row < 1024) && b.nbrUsed row
  | .cane k => !m1 && decide (k < 32) && b.strandOn k r
  | .stranger => false

/-- Acceptance is open for the sender's ingress as its frame, which began at a tick, meets it: in Day Watch for the
parent alone (R97, R99, R213, R536). -/
def Block.senderOpen (b : Block) (start : Nat) (m : RxMpdu) : Bool :=
  let acc := b.accNow start
  match m.sender with
  | .station _ => acc.station
  | .neighbour row => acc.lowband || (acc.parent && b.mac.parent == some row)
  | .cane _ => acc.cane
  | .stranger => false

/-- The context that opens a sender's frames (R310). -/
def Block.openCtx (b : Block) (r : Radio) (m : RxMpdu) : Option Nat :=
  match m.sender with
  | .station row => b.boundCtx 1 row
  | .neighbour row => b.boundCtx 3 row
  | .cane k => some (b.get (strandCtx r).2 k)
  | .stranger => none

/-- What the responder makes of one MPDU: whether it is acknowledged. -/
inductive Mark where
  | none | again | marked
  deriving DecidableEq, Repr

/-- The key of a station's duplicate cache. -/
def dupKey (row tid : Nat) : Nat := row * 8 + tid % 8

/-- The numbers that a station's cache holds for a TID. -/
def Block.dupSeen (b : Block) (row tid : Nat) : List Nat := (assocGet b.mac.dups (dupKey row tid)).getD []

/-- A number enters a station's cache of 64. -/
def Block.dupNote (b : Block) (row tid seq : Nat) : Block :=
  let l := b.dupSeen row tid ++ [seq]
  b.modMac fun m => { m with dups := assocPut m.dups (dupKey row tid) (l.drop (l.length - 64)) }

/-- The sequence test of a strand's or sender's own numbers, before anything is changed by a frame that another test
refuses: `some true` a duplicate, `some false` new, `none` stale (R117, R200). -/
def Block.ownTest (b : Block) (r : Radio) (m : RxMpdu) : Option Bool × Block :=
  if m.group then (some false, b)
  else
    match m.sender with
    | .station row => (some ((b.dupSeen row m.tid).contains m.seq), b)
    | .neighbour row => b.seqCheck row m.seq
    | .cane k =>
      if r == .l && decide (b.get Obj.caneLNbr k < 1024) then b.seqCheck (b.get Obj.caneLNbr k) m.seq else (some false, b)
    | .stranger => (none, b)

/-- The cane number of a frame: stream and number (R235). -/
def caneSeqOf (m : RxMpdu) : Option (Nat × Nat × Bool) :=
  match m.body with
  | .cane h _ =>
    match caneRead h with
    | .data s c a => some (s, c, a)
    | .mgmt c a _ _ => some (15, c, a)
    | _ => none
  | _ => none

/-- The duplicate tests of R270: the sender's own and, for a cane frame, the ledger's; both must pass (R201). -/
def Block.dupTest (b : Block) (r : Radio) (m : RxMpdu) : Mark × Block :=
  let o := b.ownTest r m
  match o.1 with
  | none => (.none, o.2)
  | some true => (.again, o.2)
  | some false =>
    match m.sender, caneSeqOf m with
    | .cane k, some (s, c, _) =>
      match o.2.ledger k s c with
      | .duplicate => (.again, o.2)
      | .beyond => (.none, o.2.add Obj.linkBeyondWindow 1 k)
      | _ => (.marked, o.2)
    | _, _ => (.marked, o.2)

/-- A duplicate is discarded, acknowledged again and counted (R117, R201, R243). -/
def Block.discardDup (b : Block) (m : RxMpdu) : Block :=
  let b1 := b.add Obj.dupDiscards
  match m.sender, caneSeqOf m with
  | .cane k, some (s, _, a) => b1.noteAccepted k s a true
  | _, _ => b1

/-- The replay check of an accepted frame at its release: a replayed one goes to the discard sink (R312). -/
def Block.replayed (b : Block) (r : Radio) (m : RxMpdu) (fid : Nat) : Block :=
  match m.prot, b.openCtx r m with
  | some p, some row =>
    let md := match m.sender with
      | .station _ => 4096
      | _ => if r == .l then 65536 else 4096
    let sq := match m.sender with
      | .neighbour n => b.get Obj.nbrRxSeq n
      | _ => m.seq
    let k := b.replayCheck row m.tid md sq p.pn (b.openedBy (r == .l) row p == Opened.retiring)
    if k.1 then k.2 else k.2.deliver fid
  | _, _ => b

/-- A frame that the parent delivers in Day Watch is activity (R92). -/
def Block.parentActive (b : Block) (m : RxMpdu) : Block :=
  match m.sender with
  | .neighbour row => if b.mode.mode == .dayWatch && b.mac.parent == some row then b.active else b
  | _ => b

/-- A frame with a packet is accepted in the tick of its marking (R114): landed, held in its cane ledger, checked for
replay. -/
def Block.acceptRadio (b : Block) (r : Radio) (first : Nat) (m : RxMpdu) (c : Ctx) (pkt : Packet) : Block :=
  let fid := b.nextFrame
  let b1 := b.accept c pkt (some r) false (some (b.rxStamp (2 + radioNum r) first 1, 2 + radioNum r))
  let b2 := match m.sender, caneSeqOf m with
    | .cane k, some (s, n, a) => (b1.ledgerAccept k { stream := s, cseq := n, fid := some fid }).noteAccepted k s a false
    | .station row, _ => b1.dupNote row m.tid m.seq
    | _, _ => b1
  (b2.parentActive m).replayed r m fid

/-- A cane frame that carries no packet: a payload of the management stream enters its ledger, a control frame takes
effect, a bad header counts (R230, R234, R238). -/
def Block.takeCane (b : Block) (k : Nat) (f : CaneFrame) : Block :=
  match f with
  | .mgmt c a kind payload => (b.ledgerAccept k { stream := 15, cseq := c, kind, payload }).noteAccepted k 15 a false
  | _ => b.caneControl k f

/-- The effect of a marked frame that carries no packet (R208, R217, R230, R324). An enhanced beacon that its cell has
used as a timekeeping frame gives no second sample. -/
def Block.takeOther (b : Block) (first : Nat) (m : RxMpdu) : Block :=
  match m.sender, m.body with
  | .cane k, .cane h _ => b.takeCane k (caneRead h)
  | .neighbour row, .management (some asn) => if (b.keepsTime row).isSome then b else b.nbrSample row asn tsTxOffset first
  | .neighbour row, .dataRequest => if b.isChild row && !(b.indirectOf row).isEmpty then b.pollStarts row else b
  | .station row, .psPoll | .station row, .trigger =>
    let kind := if m.body == .psPoll then 1 else 2
    if b.get Obj.staPsState row = kind then
      (b.modMac fun x => { x with psPoll := x.psPoll.filter (· != row) ++ [row] }).joinLists row
    else b
  | _, _ => b

/-- The packet of a frame. -/
def packetOf (m : RxMpdu) : Option Packet :=
  match m.body with
  | .data p => some p
  | .cane h p =>
    match caneRead h with
    | .data .. => some p
    | _ => none
  | _ => none

/-- What a marked station frame says of its sender: doze, wake, demand (R214, R217). -/
def Block.stationSays (b : Block) (row : Nat) (m : RxMpdu) : Block :=
  let ps := b.get Obj.staPsState row
  let b1 :=
    if m.pm && ps = 0 then
      (b.put Obj.staPsState (if b.mac.uapsd.contains row then 2 else 1) row).remelt 1 fun g => g.mpdus.any fun x => x.recv == row
    else if !m.pm && (ps = 1 || ps = 2) then (b.put Obj.staPsState 0 row).joinLists row
    else b
  match m.report with
  | some n => (b1.modMac fun x => { x with reports := assocPut x.reports row n }).joinLists row
  | none => b1

/-- A frame of the parent without Frame Pending ends a poll (R139, R213). -/
def Block.pollSays (b : Block) (row : Nat) (fp : Bool) : Block :=
  if b.mac.polling && b.mac.parent == some row && !fp then
    let b1 := b.modMac fun x => { x with polling := false }
    if b1.pollOpen then b1 else b1.goHome
  else b

/-- What any marked frame says of its sender; the metric of a neighbour is a free value (R223; DEDUCED, log entry 37).
-/
def Block.senderSays (b : Block) (m : RxMpdu) : Block :=
  match m.sender with
  | .station row => b.stationSays row m
  | .neighbour row =>
    let d := b.draw
    (d.2.put Obj.nbrLinkMetric (Config.freeNat d.1 % 256) row).pollSays row m.fp
  | _ => b

/-- What the responder knows of the PPDU whose MPDUs it tests: its radio, whether it came on chain M1, the tick of its
start, whether it lies in reserved landing space, and the acknowledgement that would answer it. -/
structure PpduSeen where
  r : Radio
  m1 : Bool
  start : Nat
  first : Nat
  room : Bool
  ack : TxCmd
  deriving DecidableEq, Repr

/-- The tests after the duplicate test, and the marking (R205, R270, R272). -/
def Block.markNew (b : Block) (p : PpduSeen) (m : RxMpdu) (c : Ctx) : Mark × Block :=
  match packetOf m with
  | some pkt =>
    let d := b.police c m.len
    if !b.senderOpen p.start m then (.none, b)
    else if !d.1 then (.none, d.2)
    else if !p.room || !d.2.reserveFits p.r c pkt.len then (.none, d.2.add Obj.rxReserveShort)
    else if m.ackReq && !d.2.ackPasses p.r p.ack then (.none, d.2.add Obj.ackRefused)
    else (.marked, (d.2.acceptRadio p.r p.first m c pkt).senderSays m)
  | none =>
    if m.ackReq && !b.ackPasses p.r p.ack then (.none, b.add Obj.ackRefused)
    else (.marked, (b.takeOther p.first m).senderSays m)

/-- A frame heard restarts the times of its sender, accepted or not, ends a search for it, and in a cell of its own
corrects the timing (R210, R212, R220). -/
def Block.heardFrom (b : Block) (p : PpduSeen) (m : RxMpdu) : Block :=
  if !b.senderKnown p.r p.m1 m then b
  else
    let nbr (row : Nat) : Block :=
      let b1 := (b.hearNbr row p.start).partnerHeard row
      if m.fcsOk then b1.timeInCell row tsTxOffset p.first else b1
    match m.sender with
    | .station row => b.hearSta row p.start
    | .neighbour row => nbr row
    | .cane k =>
      (if p.r == .l && decide (b.get Obj.caneLNbr k < 1024) then nbr (b.get Obj.caneLNbr k) else b).strandHears k p.r p.start
    | .stranger => b

/-- The sequence numbers of the sender as another block holds them. -/
def Block.keepNumbers (b old : Block) (r : Radio) (m : RxMpdu) : Block :=
  let back (row : Nat) := (b.setNbrMac (old.nbrMac row)).put Obj.nbrRxSeq (old.get Obj.nbrRxSeq row) row
  match m.sender with
  | .neighbour row => back row
  | .cane k => if r == .l && decide (old.get Obj.caneLNbr k < 1024) then back (old.get Obj.caneLNbr k) else b
  | _ => b

/-- The responder's tests on one MPDU in their order: FCS with MIC, duplicate, policer, reservation, acknowledgement
rule; the first that fails decides, and only its counter counts (R270, R311). -/
def Block.respond (b : Block) (p : PpduSeen) (m : RxMpdu) : Mark × Block :=
  let b0 := b.heardFrom p m
  match b0.senderCtx m with
  | none => (.none, b0)
  | some c =>
    if !m.fcsOk || !b0.senderKnown p.r p.m1 m then (.none, b0)
    else
      let bad : Bool := match m.prot with
        | some q => match b0.openCtx p.r m with
          | some row => b0.openedBy (p.r == .l) row q == Opened.failed
          | none => true
        | none => false
      if bad then
        (.none, match b0.openCtx p.r m with
          | some row => b0.micFail row
          | none => b0)
      else
        let d := b0.dupTest p.r m
        match d.1 with
        | .none => (.none, d.2)
        | .again =>
          if m.ackReq && !d.2.ackPasses p.r p.ack then (.none, d.2.add Obj.ackRefused) else (.again, d.2.discardDup m)
        | .marked =>
          let n := d.2.markNew p m c
          -- a frame that a later test refuses leaves the sender's numbers as they were
          if n.1 == Mark.marked then n else (n.1, n.2.keepNumbers b0 p.r m)

/-! ### The acknowledgement (R26, R114, R176, R196, R205) -/

/-- Frame Pending in an acknowledgement to a child (R208). -/
def Block.pendingFor (b : Block) (m : RxMpdu) : Bool :=
  match m.sender with
  | .neighbour row => b.isChild row && !(b.indirectOf row).isEmpty
  | _ => false

/-- The numbers that a block-ack window spans (R26; PRESUMED, log entry 178). -/
def winSize : Nat := 256

/-- The key of a sender and TID among the block-ack windows. -/
def baKey (m : RxMpdu) : Nat :=
  match m.sender with
  | .station row => dupKey row m.tid
  | .neighbour row => 8192 + row
  | .cane k => 4096 + 8 * k + m.tid % 8
  | .stranger => 16384

/-- The responder's block-ack window of a sender and TID: its first number and the bits of what was acknowledged
(R26). -/
def Block.winOf (b : Block) (key : Nat) : Option (Nat × Nat) := (b.mac.baWin.find? fun x => x.1 == key).map (·.2)

/-- A number is noted in a block-ack window: one ahead of it moves the window, one behind leaves it (IEEE 802.11). -/
def winNote (w : Option (Nat × Nat)) (seq : Nat) : Nat × Nat :=
  match w with
  | none => (seq, 1)
  | some (start, bits) =>
    let d := (seq + 4096 - start) % 4096
    if d < winSize then (start, bits ||| 2 ^ d)
    else if d < 2048 then ((seq + 4097 - winSize) % 4096, bits / 2 ^ (d - (winSize - 1)) ||| 2 ^ (winSize - 1))
    else (start, bits)

/-- The MPDUs that are acknowledged enter their windows. -/
def Block.noteWindows (b : Block) (ms : List RxMpdu) : Block :=
  ms.foldl (fun (c : Block) m =>
    c.modMac fun x => { x with baWin := x.baWin.filter (fun y => y.1 != baKey m) ++
      [((baKey m, winNote (c.winOf (baKey m)) m.seq) : Nat × Nat × Nat)] }) b

/-- What an acknowledgement says: for each sender and TID of the frames marked its window, or of a single frame its
number. -/
def Block.ackParts (b : Block) (agg : Bool) (ms : List RxMpdu) : List (Nat × Nat × Nat) :=
  if agg then
    (ms.map baKey).eraseDups.map fun k => match b.winOf k with
      | some w => (k, w.1, w.2)
      | none => (k, 0, 0)
  else ms.map fun m => (baKey m, m.seq, 1)

/-- The acknowledgement of a PPDU goes out for the MPDUs marked that ask for one (R114, R204, R205). -/
def Block.answerPpdu (b : Block) (p : PpduSeen) (form : PpduForm) (agg : Bool) (air : Nat) (ms : List RxMpdu) (pend : Bool) : Block :=
  match ms with
  | [] => b
  | m :: _ =>
    let b1 := if agg then b.noteWindows ms else b
    b1.ackNow p.r p.start (b1.ackCmd p.r form (b1.ackParts agg ms) m.seq pend air)

/-! ### The end of a PPDU (R172, R190, R191) -/

/-- A PPDU is an A-MPDU: every VHT and HE PPDU is, others with more than one MPDU (R191; PRESUMED, log entry 178). -/
def isAmpdu (f : PpduForm) (ms : List RxMpdu) : Bool :=
  (decide (4 ≤ f.format) && decide (f.format ≤ 8)) || decide (1 < ms.length)

/-- The status of a PPDU that has run to its end, with its counters (R172, R190, R191). -/
def Block.rxCount (b : Block) (r : Radio) (m1 : Bool) (h : RxHead) (i : RxInfo) (ms : List RxMpdu) : Nat × Block :=
  let b1 := b.puti (Obj.rxLastRssi.of r) i.rssi
  let b2 := if r == .l || m1 then b1 else b1.add (Obj.ldpcTruncated.of r) (b.truncated r i.codewords)
  let c := b.psduCheck r h i ms
  let agg := isAmpdu h.form ms
  if !agg && !c.fcsOk then (1, b2.add (Obj.rxFcsFail.of r))
  else
    let b3 := b2.add (Obj.rxOk.of r)
    if c.path ≠ 0 then (7, b3.add (Obj.rxListRescued.of r))
    else (0, if agg then b3.add (Obj.rxMpduFcsFail.of r) (ms.filter fun m => !m.fcsOk).length else b3)

/-- The MPDUs as the responder sees them: where the edge has decoded the PSDU, its own FCS result counts. -/
def Block.checkedMpdus (b : Block) (r : Radio) (h : RxHead) (i : RxInfo) (ms : List RxMpdu) : List RxMpdu :=
  if r == .l && !i.soft.isEmpty then ms.map fun m => ({ m with fcsOk := (b.psduCheck r h i ms).fcsOk } : RxMpdu) else ms

/-- RX_PPDU_END: the status word goes to the sequencer with the receive stamp, each MPDU to the responder, and one
acknowledgement answers those marked (R114 to R117, R191, R270). -/
def Block.ppduEnd (b : Block) (r : Radio) (i : RxInfo) (reported : List RxMpdu) : Block :=
  let m1 := r == .m && i.m1
  match (b.radio r).rxOf m1 with
  | none => b
  | some x =>
    match x.head with
    | none => b
    | some h =>
      let ms := b.checkedMpdus r h i reported
      let b1 := ((b.decode r x h i).modRadio r fun u =>
        ({ u with quietFrom := b.now, doneAt := some b.now } : RadioUnit).setRx m1 none).freeze r b.now
      let n := b1.rxCount r m1 h i ms
      let b2 := (n.2.edgeResult r 11 [x.word r n.1 i, b.rxStamp (2 + radioNum r) x.first 1]).splitFollow
      let pend := ms.any b2.pendingFor
      let p : PpduSeen := { r, m1, start := x.at_, first := x.first, room := x.reserved, ack := b2.ackCmd r h.form [] 0 pend i.ackAir }
      if n.1 = 1 then ms.foldl (fun (c : Block) m => c.heardFrom p m) b2
      else
        let done := ms.foldl (fun (acc : List RxMpdu × Block) m =>
          let d := acc.2.respond p m
          (if d.1 != Mark.none && m.ackReq then acc.1 ++ [m] else acc.1, d.2)) ([], b2)
        done.2.answerPpdu p h.form (isAmpdu h.form ms) i.ackAir done.1 pend

/-- The oldest frame in a radio's landing region. -/
def Block.oldestLanded (b : Block) (r : Radio) : Option Frame :=
  (b.frames.filter fun f => f.landed == some r).foldl (fun best f =>
    match best with
    | none => some f
    | some g => if f.id < g.id then some f else best) none

/-- LANDING_DRAIN: the queue manager moves the oldest landed frame into the pool or spill space, with a general journal
entry; while there is no room it stays (R273). -/
def Block.landingDrain (b : Block) (r : Radio) : Block :=
  match b.oldestLanded r with
  | none => b
  | some f =>
    match b.place f.pkt.len with
    | none => b
    | some spill =>
      if b.journalFree then b.modFrame f.id fun x => { x with landed := none, spilled := spill } else b

end Sys2Proof.Machine
end

