-- ==== Sys2Proof/Machine/Field.lean ====
section
/-!
DEFINITION. The field side: alarms, dimming outputs, relays and zero crossing, DALI, detectors and interval records, the
auxiliary ADC with the lamp faults, and the CAN FD port (R356 to R380).
-/

namespace Sys2Proof.Machine

/-- The field units changed. -/
def Block.modField (b : Block) (f : Field → Field) : Block := { b with field := f b.field }

/-- FE runs its units: Core-F on, FE not fenced (R356). -/
def Block.feRuns (b : Block) : Bool := b.coreF && !bitSet (b.get Obj.fabricFenced) 10

/-! ### Dimming (R357 to R359) -/

/-- The written level of an output. -/
def dimReg (i : Nat) : Reg := if i = 0 then Obj.dim0Level else Obj.dim1Level

/-- A level above 0 is at least DIM_MIN (R358), and at most HOT_DIM while DRIVER_HOT is raised (R359). -/
def Block.dimLimit (b : Block) (v : Nat) : Nat :=
  let v1 := if v = 0 then 0 else max v (b.get Obj.dimMin)
  if b.is Obj.alarmActive 2 then min v1 (b.get Obj.hotDim) else v1

/-- The level of an output: linear between the start of its fade and its target; 0 while released (R357, R358). -/
def Block.dimOut (b : Block) (i : Nat) : Nat :=
  if !b.field.driven then 0
  else
    let f := b.field.fades.getD i {}
    let t := (match b.field.fadeHeld with
      | some h => h
      | none => b.now) - f.at_
    let v := if f.len ≤ t then f.target
      else ((f.start : Int) + ((f.target : Int) - (f.start : Int)) * (t : Int) / (f.len : Int)).toNat
    b.dimLimit v

/-- DIM_NOW (R378). -/
def Block.dimNowValue (b : Block) : Nat := b.dimOut 1 * 256 + b.dimOut 0

/-- What an output's PWM does from here on leaves the block: whether it is driven, the level it fades from and to, the
fade in ticks, DIM_FREQ and its polarity (R357, R358). -/
def Block.dimShow (b : Block) (i : Nat) : Block :=
  let f := b.field.fades.getD i {}
  b.emit (.dim i [if b.field.driven then 1 else 0, b.dimLimit f.start, b.dimLimit f.target, f.len, b.get Obj.dimFreq]
    (bitSet (b.get Obj.dimPolarity) i))

/-- Both outputs' PWM is set anew. -/
def Block.dimsShow (b : Block) : Block := (b.dimShow 0).dimShow 1

/-- A fade of an output to a level begins from the level being output (R358). -/
def Block.fadeTo (b : Block) (i target len : Nat) : Block :=
  let start := b.dimOut i
  (b.modField fun f => { f with fades := f.fades.set i { start, target, at_ := b.now, len } }).dimShow i

/-- A write of DIM_FREQ, DIM_MIN, HOT_DIM or DIM_POLARITY. -/
def Block.writeDimSet (b : Block) (r : Reg) (v : Nat) : Nat × Block := (0, (b.put r v).dimsShow)

/-- A warm reset pauses the fades (R357). -/
def Block.fadePause (b : Block) : Block := b.modField fun f => { f with fadeHeld := some (f.fadeHeld.getD b.now) }

/-- The fades that a warm reset has paused go on (R357). -/
def Block.fadeResume (b : Block) : Block :=
  b.modField fun f =>
    match f.fadeHeld with
    | none => f
    | some h => { f with fadeHeld := none, fades := f.fades.map fun (x : Fade) => { x with at_ := x.at_ + (b.now - h) } }

/-- A write of a level: the fade of R358, while FE serves the outputs. -/
def Block.writeDim (b : Block) (i v : Nat) : Nat × Block :=
  let b1 := if b.feRuns && b.field.driven then b.fadeTo i v (ms (b.get Obj.dimFade)) else b
  (0, b1.put (dimReg i) v)

/-- FE is fenced: FAILSAFE_DIM at once (R129, R357). -/
def Block.dimFailsafe (b : Block) : Block :=
  let v := b.get Obj.failsafeDim
  (b.modField fun f => { f with fades := [{ start := v, target := v }, { start := v, target := v }] }).dimsShow

/-- FE applies the Stored levels (R357). -/
def Block.dimApply (b : Block) : Block :=
  let b1 := b.modField fun f => { f with driven := true }
  [0, 1].foldl (fun (c : Block) i => c.fadeTo i (c.get (dimReg i)) (ms (c.get Obj.dimFade))) b1

/-! ### Alarms (R376, R377) -/

/-- The payload of an alarm notice, VALUE in FX32 (R377). -/
def alarmPayload (bit : Nat) (value : Int) : List Nat := [bit, 0] ++ bytesBE 4 (unsignedOf 4 value)

/-- The ALARM record of a row: event 0 raised, 1 cleared (R409). -/
def Block.alarmRecord (b : Block) (row event bit : Nat) (value : Int) : Block :=
  b.post 0x0040 ([row, event, bit, 0] ++ bytesLE 4 (unsignedOf 4 value))

/-- What follows when an alarm's activity changes: the limit of DRIVER_HOT, with its fade back (R359). -/
def Block.alarmEffect (b : Block) (row : Nat) (on : Bool) (old : Block) : Block :=
  if row = 2 && !on && old.is Obj.alarmActive 2 then
    [0, 1].foldl (fun (c : Block) i =>
      let start := old.dimOut i
      let level := (old.field.fades.getD i {}).target
      (c.modField fun f => { f with fades := f.fades.set i { start, target := level, at_ := c.now, len := ms (c.get Obj.dimFade) } }).dimShow i) b
  else if row = 2 && on then b.dimsShow
  else b

/-- An instance of an alarm becomes active or ends, a field event of FE and so activity (R92, R376); a row with ENABLE
0, or while FE does not run, evaluates nothing. -/
def Block.setAlarm (b : Block) (row bit : Nat) (on : Bool) (value : Int := 0) : Block :=
  let d := b.get Obj.alarmDetail row
  if !b.feRuns || !b.is Obj.alarmEnable row || bitSet d bit = on then b
  else if on then
    let b1 := ((b.put Obj.alarmDetail (setBit d bit) row).put Obj.alarmActive 1 row).put Obj.alarmLatched 1 row
    let b2 := (b1.add Obj.alarmRaises 1 row).put Obj.alarmLastRaised b.stampTime row
    (((b2.notice 0x0201 Obj.alarmActive row (alarmPayload bit value)).alarmRecord row 0 bit value).alarmEffect row true b).active
  else
    let n := clearBit d bit
    let b1 := (b.put Obj.alarmDetail n row).put Obj.alarmActive (if n = 0 then 0 else 1) row
    ((b1.notice 0x0202 Obj.alarmActive row (alarmPayload bit value)).alarmEffect row (n != 0) b).active

/-- A write of CLEAR: BUSY while ACTIVE is 1 (R376). -/
def Block.writeAlarmClear (b : Block) (row v : Nat) : Nat × Block :=
  if v = 0 then (0, b)
  else if b.is Obj.alarmActive row then (9, b)
  else
    (0, ((b.put Obj.alarmLatched 0 row).notice 0x0203 Obj.alarmActive row (alarmPayload 0 0)).alarmRecord row 1 0 0)

/-- A write of RAISE on a customer row (R376). -/
def Block.writeAlarmRaise (b : Block) (row v : Nat) : Nat × Block := (0, b.setAlarm row 0 (v != 0))

/-! ### Relays and zero crossing (R360 to R362) -/

/-- The mean half-period in ticks over the last 8 intervals, if the prediction is valid: between 8.0 and 12.5 ms
(R360). -/
def Block.halfPeriod (b : Block) : Option Nat :=
  match b.field.zx with
  | [] => none
  | last :: rest =>
    if rest.length < 8 then none
    else
      let mean := (last - rest.getD 7 0) / 8
      let half := if b.get Obj.zxEdges = 3 then mean else mean / 2
      if ms 8 ≤ half && decide (half ≤ us 12500) then some half else none

/-- A mark of a zero crossing passes the filter (R360): the prediction follows, and ZX_MISSING ends. -/
def Block.zxEdge (b : Block) (rising : Bool) : Block :=
  let e := b.get Obj.zxEdges
  if b.coreF && (if rising then bitSet e 0 else bitSet e 1) then
    let b1 := b.modField fun f => { f with zx := (b.now :: f.zx).take 9, zxFrom := b.now }
    let ns := match b1.halfPeriod with
      | some h => h * 25 / 8
      | none => 0
    (b1.put Obj.zxHalfPeriod ns).setAlarm 5 0 false
  else b

/-- A write of ZX_EDGES: what marks a crossing has changed, and the prediction starts again (DEDUCED, log entry 205). -/
def Block.writeZxEdges (b : Block) (v : Nat) : Nat × Block :=
  (0, ((b.put Obj.zxEdges v).modField fun f => { f with zx := [] }).put Obj.zxHalfPeriod 0)

/-- No edge has come for ZX_TIMEOUT while PWR_OK is asserted (R360). -/
def Block.zxMissing (b : Block) : Bool := b.pins.pwrOk && decide (b.field.zxFrom + ms (b.get Obj.zxTimeout) ≤ b.now)

/-- ZX_TIMEOUT_EXPIRY (R360). -/
def Block.zxTimeout (b : Block) : Block := if b.zxMissing then b.setAlarm 5 0 true else b

/-- RELAY_WEAR of a relay (R362). -/
def Block.relayWear (b : Block) (r : Nat) : Block :=
  b.setAlarm 4 r (decide (b.get Obj.relayRatedOps r * b.get Obj.relayWearWarn r ≤ b.get Obj.relayOperations r * 100))

/-- A relay pin changes: one operation (R362). -/
def Block.relayPin (b : Block) (r : Nat) (on : Bool) : Block :=
  if b.is Obj.relayPinState r = on then b
  else
    let b1 := (b.put Obj.relayPinState (if on then 1 else 0) r).add Obj.relayOperations 1 r
    let b2 := b1.modField fun f => { f with relaySince := f.relaySince.set r b.now }
    (b2.emit (.pin (16 + r) on)).relayWear r

/-- The first instant c − lead not before now, for a predicted crossing c (R361). -/
def relayInstant (last half lead now : Nat) : Nat :=
  let k := (now + lead + half - 1 - last) / half
  last + k * half - lead

/-- COMMAND of a relay changes: with ZX_SYNC the pin follows at its instant, else at once (R361). -/
def Block.relayCommandChange (b : Block) (r : Nat) : Block :=
  let on := b.is Obj.relayCommand r
  let b1 := b.modField fun f => { f with relayDue := f.relayDue.set r none }
  if b.is Obj.relayPinState r = on then b1
  else if !b.is Obj.relayZxSync r then b1.relayPin r on
  else
    let fresh := match b.field.zx with
      | last :: _ => decide (b.now - last < ms (b.get Obj.zxTimeout))
      | [] => false
    match b.halfPeriod, b.field.zx with
    | some half, last :: _ =>
      if fresh then
        let lead := us (b.get (if on then Obj.relayOnLead else Obj.relayOffLead) r)
        b1.modField fun f => { f with relayDue := f.relayDue.set r (some (relayInstant last half lead b.now)) }
      else (b1.add Obj.relayUnsynced 1 r).relayPin r on
    | _, _ => (b1.add Obj.relayUnsynced 1 r).relayPin r on

/-- A write of COMMAND (R361). -/
def Block.writeRelay (b : Block) (r v : Nat) : Nat × Block :=
  if b.get Obj.relayCommand r = v then (0, b)
  else
    let b1 := (b.put Obj.relayCommand v r).modField fun f => { f with commandSince := f.commandSince.set r b.now }
    (0, if b.feRuns && b.field.driven then b1.relayCommandChange r else b1)

/-- RELAY_SWITCH: the instant of a waiting change has come (R361, R362). -/
def Block.relaySwitch (b : Block) (r : Nat) : Block :=
  match b.field.relayDue.getD r none with
  | none => b
  | some at_ =>
    if at_ ≤ b.now then (b.modField fun f => { f with relayDue := f.relayDue.set r none }).relayPin r (b.is Obj.relayCommand r)
    else b

/-- The outputs are released (R357): a release that de-energises a relay counts. -/
def Block.fieldRelease (b : Block) : Block :=
  let b1 := b.modField fun f => { f with driven := false, fades := [{}, {}], relayDue := [none, none] }
  ((b1.relayPin 0 false).relayPin 1 false).dimsShow

/-- FE applies the Stored values to the outputs (R357). -/
def Block.fieldApply (b : Block) : Block :=
  let b2 := b.dimApply.modField fun f => { f with commandSince := [b.now, b.now], relaySince := [b.now, b.now], zxFrom := b.now }
  (b2.relayCommandChange 0).relayCommandChange 1

/-! ### DALI (R363 to R367) -/

/-- DALI_BUS_STATE shows the bus (R378). -/
def Block.daliShow (b : Block) : Block :=
  b.put Obj.daliBusState (if !b.is Obj.daliEnable then 0 else if b.field.daliDown then 3
    else if b.field.daliRun.isSome then 2 else 1)

/-- A write of FRAME or FLAGS: BUSY while the row is queued or running (R364). -/
def Block.writeDaliRow (b : Block) (r : Reg) (row v : Nat) : Nat × Block :=
  let st := b.get Obj.daliState row
  if st = 1 || st = 2 then (9, b) else (0, b.put r v row)

/-- The forward frame of a row is sent at the priority of submitted rows, twice with the flag (R363 to R365). -/
def Block.daliSend (b : Block) (row : Nat) : Block :=
  let long := bitSet (b.get Obj.daliFlags row) 0
  let one (c : Block) := c.emit
    (.dali (b.get Obj.daliFrame row % (if long then 2 ^ 24 else 2 ^ 16)) (if long then 24 else 16) (b.get Obj.daliPriority))
  if bitSet (b.get Obj.daliFlags row) 2 then one (one b) else one b

/-- The level that a direct arc power frame commands: a 16-bit frame with selector bit 0 (IEC 62386-102). -/
def Block.daliArc (b : Block) (row : Nat) : Block :=
  let v := b.get Obj.daliFrame row
  if !bitSet (b.get Obj.daliFlags row) 0 && v / 256 % 2 = 0 && decide (v % 256 < 255) then
    b.modField fun f => { f with arc := v % 256 }
  else b

/-- DALI_ROW_START: the next queued row starts (R364). -/
def Block.daliStart (b : Block) : Block :=
  match b.field.daliQueue with
  | [] => b
  | row :: rest =>
    if b.feRuns && b.is Obj.daliEnable && !b.field.daliDown && b.field.daliRun.isNone then
      let b1 := b.modField fun f => { f with daliQueue := rest, daliRun := some { row } }
      ((b1.put Obj.daliState 2 row).daliSend row).daliShow
    else b

/-- A row ends with its result (R364). -/
def Block.daliFinish (b : Block) (row result reply : Nat) : Block :=
  let b1 := (((b.put Obj.daliState 3 row).put Obj.daliResult result row).put Obj.daliReply reply row)
  (b1.modField fun f => { f with daliRun := none }).daliShow

/-- A write of STATE of a row: 1 submits it; while the bus is down it ends at once (R364, R366). -/
def Block.writeDaliState (b : Block) (row v : Nat) : Nat × Block :=
  let st := b.get Obj.daliState row
  if v ≠ 1 then (6, b)
  else if st = 1 || st = 2 then (9, b)
  else if b.field.daliDown && b.feRuns && b.is Obj.daliEnable then
    (0, ((b.put Obj.daliState 3 row).put Obj.daliResult 5 row).put Obj.daliReply 0 row)
  else (0, (b.put Obj.daliState 1 row).modField fun f => { f with daliQueue := f.daliQueue ++ [row] })

/-- A try of the running row fails: it is sent again, or ends with RESULT 4 after DALI_RETRIES + 1 (R364, R365). -/
def Block.daliRetry (b : Block) (d : DaliRun) : Block :=
  if b.get Obj.daliRetries < d.tries + 1 then b.daliFinish d.row 4 0
  else (b.modField fun f => { f with daliRun := some { d with tries := d.tries + 1 } }).daliSend d.row

/-- DALI_ROW_END: a reply, or its absence, ends a row that expects one, the end of sending any other; another master's
frame can only fall into a pair (R364). -/
def Block.daliEnd (b : Block) (e : DaliEnd) : Block :=
  match b.field.daliRun with
  | none => b
  | some d =>
    let flags := b.get Obj.daliFlags d.row
    if !b.feRuns then b
    else
      match e, bitSet flags 1 with
      | .sent, false => (b.daliArc d.row).daliFinish d.row 0 0
      | .reply v, true => (b.daliArc d.row).daliFinish d.row 1 (v % 256)
      | .silence, true => (b.daliArc d.row).daliFinish d.row 2 0
      | .garbled, true => (b.daliArc d.row).daliFinish d.row 3 0
      | .interleaved, _ => if bitSet flags 2 then b.daliRetry d else b
      | _, _ => b

/-- DALI_COLLISION: the loss of a running row, or of a poll, which FE sends again (R365). -/
def Block.daliCollision (b : Block) : Block :=
  if b.feRuns && b.is Obj.daliEnable && !b.field.daliDown then
    match b.field.daliRun with
    | none => b.add Obj.daliCollisions
    | some d => (b.add Obj.daliCollisions).daliRetry d
  else b

/-- DALI_BUS_DOWN: the running row and every queued row end with RESULT 5 (R366). -/
def Block.daliDown (b : Block) : Block :=
  if b.feRuns && b.is Obj.daliEnable && !b.field.daliDown then
    let rows := (match b.field.daliRun with
      | some d => [d.row]
      | none => []) ++ b.field.daliQueue
    let b1 := b.modField fun f => { f with daliDown := true, daliQueue := [] }
    ((rows.foldl (fun (c : Block) r => c.daliFinish r 5 0) b1).daliShow).setAlarm 6 0 true
  else b

/-- DALI_BUS_UP (R366). -/
def Block.daliUp (b : Block) : Block :=
  if b.field.daliDown then ((b.modField fun f => { f with daliDown := false }).daliShow).setAlarm 6 0 false else b

/-- One short address polled: its status octet, or no reply (R367). QUERY STATUS has control gear failure in bit 0 and
lamp failure in bit 1. -/
def Block.daliPolled (b : Block) (addr : Nat) (reply : Option Nat) : Block :=
  if !bitSet (b.get Obj.daliPollMask) addr then b
  else
    match reply with
    | some v =>
      let b1 := b.modField fun f => { f with daliMissed := assocDel f.daliMissed addr }
      (b1.setAlarm 7 addr (v % 4 != 0)).setAlarm 8 addr false
    | none =>
      let n := assocNat b.field.daliMissed addr + 1
      let b1 := b.modField fun f => { f with daliMissed := assocPut f.daliMissed addr n }
      if 3 ≤ n then b1.setAlarm 8 addr true else b1

/-- QUERY STATUS to a short address, in the form of IEC 62386-102, at priority 5 (R367). -/
def Block.daliQuery (b : Block) (addr : Nat) : Block := b.emit (.dali ((2 * addr + 1) * 256 + 0x90) 16 5)

/-- DALI_POLL: every DALI_POLL_PERIOD each address of the mask is asked, in rising order, with the replies that come
(R367). -/
def Block.daliPoll (b : Block) (replies : List (Nat × Option Nat)) : Block :=
  let due := match b.field.pollAt with
    | some t => decide (t + secs (b.get Obj.daliPollPeriod) ≤ b.now)
    | none => true
  if b.feRuns && b.is Obj.daliEnable && !b.field.daliDown && due then
    ((List.range 64).filter fun a => bitSet (b.get Obj.daliPollMask) a).foldl
      (fun (c : Block) a => (c.daliQuery a).daliPolled a ((replies.find? fun x => x.1 == a).bind (·.2)))
      (b.modField fun f => { f with pollAt := some b.now })
  else b

/-! ### Detectors and lanes (R368 to R370) -/

/-- The lane of a number changed. -/
def Block.modLane (b : Block) (l : Nat) (f : Lane → Lane) : Block :=
  b.modField fun x => { x with lanes := modAt x.lanes l f }

/-- The lane of a number. -/
def Block.lane (b : Block) (l : Nat) : Lane := b.field.lanes.getD l {}

/-- A detector has stayed present for STUCK_TIME (R368). -/
def Block.detStuck (b : Block) (d : Nat) : Bool :=
  (b.field.detSince.getD d none).any fun t => decide (t + secs (b.get Obj.detStuckTime d) ≤ b.now)

/-- A detector of a lane is stuck. -/
def Block.laneStuck (b : Block) (l : Nat) : Bool :=
  b.detStuck (b.get Obj.laneLead l) || b.detStuck (b.get Obj.laneTrail l)

/-- The tally of a lane that holds a vehicle's interval changed. -/
def Lane.tally (l : Lane) (closed : Bool) (f : Tally → Tally) : Lane :=
  if closed then { l with closed := l.closed.map f } else { l with cur := f l.cur }

/-- A vehicle counts unclassified (R369). -/
def tallyUnclassified (t : Tally) : Tally := { t with unclassified := t.unclassified + 1 }

/-- The length bounds in order. -/
def lenBounds : List Reg := [Obj.lenBound1, Obj.lenBound2, Obj.lenBound3, Obj.lenBound4, Obj.lenBound5, Obj.lenBound6]

/-- The class of a length in mm: 1 + the bounds at or below it (R369). -/
def Block.classFor (b : Block) (length : Nat) : Nat :=
  1 + (lenBounds.filter fun r => decide (b.get r ≤ length)).length

/-- Milliseconds in units of 2^-16 ns. -/
def ms16 (n : Nat) : Nat := n * 65536000000

/-- A measured vehicle: speed in 0.1 km/h, and length in mm from the travel and presence in 2^-16 ns (R369). -/
def speedOf (spacing travel : Nat) : Nat := spacing * ms16 36 / travel

/-- The length of a vehicle in mm (R369). -/
def lengthOf (spacing loopLen travel presence : Nat) : Int := (spacing * presence / travel : Nat) - (loopLen : Int)

/-- A vehicle whose two edges and release are known is classified in its interval (R369); with a detector stuck its
lane classifies none (R368). -/
def Block.measure (b : Block) (l : Nat) (v : Vehicle) (off on : Nat) : Block :=
  let travel := on - v.leadOn
  let sp := b.get Obj.laneSpacing l
  let len := lengthOf sp (b.get Obj.laneLoopLen l) travel (off - v.leadOn)
  let speed := speedOf sp travel
  let cls := b.classFor len.toNat
  b.modLane l fun x => x.tally v.closed fun (t : Tally) =>
    if len < 0 || b.laneStuck l then tallyUnclassified t
    else { t with classes := modAt t.classes (cls - 1) (· + 1), speedSum := t.speedSum + speed, speeds := t.speeds + 1 }

/-- Vehicles that are fully seen leave the pending list, in order. -/
def Block.settleCars (b : Block) (l : Nat) : Block :=
  (b.lane l).cars.foldl (fun (c : Block) (v : Vehicle) =>
    match v.leadOff, v.trailOn with
    | some off, some on =>
      (c.modLane l fun x => { x with cars := x.cars.filter fun y => y.leadOn != v.leadOn }).measure l v off on
    | _, _ => c) b

/-- The lead is present from one stamp to another: what falls before the present interval counts in the closed one
while that waits for its record (R370). -/
def Lane.present (x : Lane) (s e : Nat) : Lane :=
  let c := x.cur.start.getD 0
  let old := min e c - s
  ({ x with cur := { x.cur with occ := x.cur.occ + (e - max s c) } } : Lane).tally true fun (t : Tally) => { t with occ := t.occ + old }

/-- A stamp belongs to the closed interval, which still waits for its record (R369, R370). -/
def Lane.before (x : Lane) (st : Nat) : Bool := x.closed.isSome && x.cur.start.any fun c => decide (st < c)

/-- The lead of a lane turns on: an arrival, in the interval that holds the stamp (R369). -/
def Block.leadOn (b : Block) (l st : Nat) : Block :=
  let old := (b.lane l).before st
  let b1 := (b.add Obj.laneTotal 1 l).modLane l fun x =>
    ({ x with leadSince := some st } : Lane).tally old fun (t : Tally) => { t with count := t.count + 1 }
  if b.get Obj.laneKind l = 1 then b1
  else if b.get Obj.laneTrail l = 255 || b.laneStuck l then b1.modLane l fun x => x.tally old tallyUnclassified
  else b1.modLane l fun x => { x with cars := x.cars ++ [{ leadOn := st, closed := old }] }

/-- The lead of a lane turns off: its presence counts, and the vehicle's release is known. -/
def Block.leadOff (b : Block) (l st : Nat) : Block :=
  let b1 := b.modLane l fun x =>
    { x.present (x.leadSince.getD st) st with
      leadSince := none
      cars := x.cars.map fun (v : Vehicle) => if v.leadOff.isNone then { v with leadOff := some st } else v }
  b1.settleCars l

/-- A vehicle of a lane leaves unclassified. -/
def Block.carLost (b : Block) (l : Nat) (v : Vehicle) : Block :=
  b.modLane l fun x => ({ x with cars := x.cars.filter fun y => y.leadOn != v.leadOn } : Lane).tally v.closed tallyUnclassified

/-- Every pending vehicle of a lane leaves unclassified. -/
def Block.carsLost (b : Block) (l : Nat) : Block := (b.lane l).cars.foldl (fun (c : Block) v => c.carLost l v) b

/-- The vehicles without a trail edge whose MAX_TRAVEL a stamp has passed count unclassified (R369). -/
def Block.carsLate (b : Block) (l : Nat) (late : Nat → Bool) : Block :=
  (b.lane l).cars.foldl (fun (c : Block) (v : Vehicle) => if v.trailOn.isNone && late v.leadOn then c.carLost l v else c) b

/-- The trail of a lane turns on: the oldest vehicle without a trail edge takes it, with a travel above 0 and at most
MAX_TRAVEL; with none pending it is ignored (R369). -/
def Block.trailOn (b : Block) (l st : Nat) : Block :=
  let b1 := b.carsLate l fun on => decide (on + ms16 (b.get Obj.laneMaxTravel l) < st)
  match (b1.lane l).cars.find? fun v => v.trailOn.isNone with
  | none => b1
  | some v =>
    if v.leadOn < st then
      (b1.modLane l fun x => { x with cars := x.cars.map fun (y : Vehicle) =>
        if y.leadOn = v.leadOn then { y with trailOn := some st } else y }).settleCars l
    else b1

/-- The ticks of a detector's glitch filter. -/
def Block.detFilterTicks (b : Block) (d : Nat) : Nat := (b.get Obj.detFilter d * 8 + 24) / 25

/-- The stamp of an edge that has now passed a detector's filter, whose delay it takes back, in 2^-16 ns of presented
time (R341, R368). -/
def Block.detStamp (b : Block) (d : Nat) : Nat := (b.inScaleAgo 0 (gain 0 (b.detFilterTicks d)) / 2 ^ 40).toNat

/-- DETECTOR_EDGE: an edge has passed the filter and is stamped (R368, R369). -/
def Block.detectorEdge (b : Block) (d : Nat) (level : Bool) : Block :=
  let on := level == (b.get Obj.detActiveLevel d == 1)
  if !b.coreA || b.is Obj.detPresent d = on then b
  else
    let st := b.detStamp d
    let b1 := (b.put Obj.detPresent (if on then 1 else 0) d).modField fun f =>
      { f with detSince := f.detSince.set d (if on then some (b.now - b.detFilterTicks d) else none) }
    let b2 := (List.range 8).foldl (fun (c : Block) l =>
      let c1 := if c.get Obj.laneLead l = d then (if on then c.leadOn l st else c.leadOff l st) else c
      if c1.get Obj.laneTrail l = d && c1.get Obj.laneLead l != 255 && on then c1.trailOn l st else c1) b1
    if on then b2 else b2.setAlarm 9 d false

/-- MAX_TRAVEL_EXPIRY: a vehicle whose trail has not turned on within MAX_TRAVEL counts unclassified; an edge that the
trail's filter still holds may be in time (R369). -/
def Block.maxTravel (b : Block) (l : Nat) : Block :=
  let seen := if b.get Obj.laneTrail l < 8 then b.detStamp (b.get Obj.laneTrail l) else b.presented16.toNat
  b.carsLate l fun on => decide (on + ms16 (b.get Obj.laneMaxTravel l) ≤ seen)

/-- STUCK_TIME_EXPIRY: DET_STUCK; the lanes of the detector mark their interval, and what they have pending is not
classified (R368, R370). -/
def Block.stuckTime (b : Block) (d : Nat) : Block :=
  if b.coreA && b.is Obj.detPresent d && b.detStuck d then
    let b1 := b.setAlarm 9 d true
    (List.range 8).foldl (fun (c : Block) l =>
      if c.get Obj.laneLead l = d || c.get Obj.laneTrail l = d then
        (c.carsLost l).modLane l fun x => { x with cur := { x.cur with stuck := true } }
      else c) b1
  else b

/-- The last boundary of intervals at presented time: a whole multiple of INTERVAL minutes of UTC, in 2^-16 ns of
presented time (R370). -/
def Block.lastBoundary (b : Block) : Nat :=
  let len := 60 * max 1 (b.get Obj.interval)
  ms16 (1000 * (b.utcSec.toNat / len * len + b.get Obj.utcOffset))

/-- A lane's interval closes at its end and a new one begins; a presence is split (R370). -/
def Lane.close (x : Lane) (start end_ : Nat) (noTime stuck : Bool) : Lane :=
  let extra := match x.leadSince with
    | some s => end_ - s
    | none => 0
  { closed := some { x.cur with start := some start, occ := x.cur.occ + extra, ended := end_, noTime }
    cur := { start := some end_, stuck }
    cars := x.cars.map fun (v : Vehicle) => { v with closed := true }
    leadSince := x.leadSince.map fun s => max s end_ }

/-- The intervals close at a boundary. -/
def Block.closeIntervals (b : Block) (end_ : Nat) : Block :=
  let valid := b.timeValidNow
  let start := end_ - ms16 (60000 * b.get Obj.interval)
  (List.range 8).foldl (fun (c : Block) l =>
    let stuck := c.laneStuck l
    c.modLane l fun x => x.close (x.cur.start.getD start) end_ (!valid) stuck)
    (b.modField fun f => { f with boundary := some end_, boundaryAt := b.now })

/-- The counts of seven classes as OCT[14], class 1 first. -/
def classOctets (l : List Nat) : Nat := l.foldl (fun v n => v * 65536 + min n 65535) 0

/-- One record enters the ring (R370). -/
def Block.writeInterval (b : Block) (l : Nat) (t : Tally) : Block :=
  let n := b.get Obj.recNext
  let start := t.start.getD 0
  let span := t.ended - start
  let occ := if span = 0 then 0 else min (t.occ * 10000 / span) 65535
  let mean := if t.speeds = 0 then 0 else min (t.speedSum / t.speeds) 65535
  let flags := (if t.gap then 1 else 0) + (if t.stuck then 2 else 0) + (if t.noTime then 4 else 0)
  let b1 := (((b.put Obj.recStart (ofT16 start) n).put Obj.recLane l n).put Obj.recCount (min t.count 65535) n).put
    Obj.recOccupancy occ n
  let b2 := (((b1.put Obj.recMeanSpeed mean n).put Obj.recClasses (classOctets t.classes) n).put Obj.recUnclassified
    (min t.unclassified 65535) n).put Obj.recFlags flags n
  b2.put Obj.recNext ((n + 1) % 1024)

/-- One record for each lane in use; a vehicle of the closed interval not measured by now is unclassified (R370). -/
def Block.writeRecords (b : Block) : Block :=
  (List.range 8).foldl (fun (c : Block) l =>
    match (c.lane l).closed with
    | none => c
    | some t =>
      let late := ((c.lane l).cars.filter fun v => v.closed).length
      let c1 := c.modLane l fun x => { x with closed := none, cars := x.cars.filter fun v => !v.closed }
      if c.get Obj.laneLead l = 255 then c1
      else c1.writeInterval l { t with unclassified := t.unclassified + late }) b

/-- RECORD_HOLD_EXPIRY: the records of the last boundary are written RECORD_HOLD after it (R370). -/
def Block.recordHold (b : Block) : Block :=
  if b.coreA && decide (b.field.boundaryAt + ms (b.get Obj.recordHold) ≤ b.now) then b.writeRecords else b

/-- INTERVAL_BOUNDARY: presented time has reached a boundary that is not yet closed: each lane's counts close and a
new interval begins (R370). Records that still wait are written first. -/
def Block.intervalBoundary (b : Block) : Block :=
  let end_ := b.lastBoundary
  if !b.coreA || b.field.boundary == some end_ then b else b.writeRecords.closeIntervals end_

/-- The detectors stop with Core-A: the interval has a gap, and presence and what is pending are lost (R356, R370). -/
def Block.detectorsGap (b : Block) : Block :=
  let st := b.presented16.toNat
  let b1 := (List.range 8).foldl (fun (c : Block) l =>
    (c.carsLost l).modLane l fun x =>
      let y := match x.leadSince with
        | some s => x.present s st
        | none => x
      { y with leadSince := none, cur := { y.cur with gap := true } }) b
  b1.modField fun f => { f with scanning := false, scanNext := false, detSince := List.replicate 8 none }

/-- The detectors start with Core-A: the interval that runs now has a gap, and one whose end has passed meanwhile
closes at its end and is recorded (R356, R370; DESIGN CHOICE, log entry 206). -/
def Block.detectorsUp (b : Block) : Block :=
  let end_ := b.lastBoundary
  let long := ms16 (60000 * b.get Obj.interval)
  let b1 := b.modField fun f =>
    { f with
      boundary := some end_, boundaryAt := b.now
      lanes := f.lanes.map fun x =>
        match x.cur.start with
        | some s => if s = end_ then x else { x.close s (s + long) (!b.timeValidNow) false with cur := { start := some end_ } }
        | none => { x with cur := { x.cur with start := some end_ } } }
  b1.modField fun f => { f with lanes := f.lanes.map fun x => { x with cur := { x.cur with gap := true } } }

/-! ### The auxiliary ADC and lamp faults (R371 to R373) -/

/-- A channel of the ADC changed. -/
def Block.modAdc (b : Block) (c : Nat) (f : AdcCh → AdcCh) : Block := b.modField fun x => { x with adc := modAt x.adc c f }

/-- The lamp is on (R373). -/
def Block.lampOn (b : Block) : Bool :=
  let r := b.get Obj.lampRelay
  b.is Obj.relayCommand r && b.is Obj.relayPinState r &&
    decide (ms (b.get Obj.settle) ≤ b.now - b.field.relaySince.getD r 0) &&
    (decide (0 < b.dimOut 0) || decide (0 < b.dimOut 1) || decide (0 < b.field.arc))

/-- The time since which a condition holds: kept while it holds, begun when it starts. -/
def since (old : Option Nat) (now : Nat) (on : Bool) : Option Nat :=
  if on then some (old.getD now) else none

/-- A condition has held for a persistence time. -/
def persisted (s : Option Nat) (now len : Nat) : Bool :=
  match s with
  | some t => decide (len ≤ now - t)
  | none => false

/-- The lamp current has a new value: LAMP_FAILED, RELAY_WELDED and the falls of LAMP_CYCLING (R373). -/
def Block.judgeCurrent (b : Block) (v : Int) : Block :=
  let ch := b.get Obj.lampICh
  let r := b.get Obj.lampRelay
  let pers := ms (b.get Obj.adcPersist ch)
  let on := b.lampOn
  let high := decide (b.geti Obj.lampIMin ≤ v)
  let low := since b.field.lampLowFrom b.now (on && !high)
  let off := !b.is Obj.relayCommand r && decide (ms (b.get Obj.settle) ≤ b.now - b.field.commandSince.getD r 0)
  let weld := since b.field.weldFrom b.now (off && decide (b.geti Obj.lampIOff < v))
  let win := secs (b.get Obj.cycleWindow)
  let falls := (if on && b.field.lampHigh && !high then b.now :: b.field.falls else b.field.falls).filter fun t =>
    decide (b.now - t ≤ win)
  let b1 := b.modField fun f => { f with lampHigh := high, lampLowFrom := low, weldFrom := weld, falls := falls }
  let b2 := if high then b1.setAlarm 0 0 false v else if persisted low b.now pers then b1.setAlarm 0 0 true v else b1
  let b3 := if v ≤ b.geti Obj.lampIOff then b2.setAlarm 3 0 false v
    else if persisted weld b.now pers then b2.setAlarm 3 0 true v else b2
  if b.get Obj.cycleCount ≤ falls.length then b3.setAlarm 1 0 true v else b3

/-- The driver temperature has a new value: DRIVER_HOT (R373). -/
def Block.judgeDriver (b : Block) (v : Int) : Block :=
  let ch := b.get Obj.driverTCh
  let hot := since b.field.hotFrom b.now (decide (b.geti Obj.driverTMax < v))
  let b1 := b.modField fun f => { f with hotFrom := hot }
  if persisted hot b.now (ms (b.get Obj.adcPersist ch)) then b1.setAlarm 2 0 true v
  else if v ≤ b.geti Obj.driverTMax - b.geti Obj.adcHyst ch then b1.setAlarm 2 0 false v
  else b1

/-- A value of a channel is judged against its limits (R372). -/
def Block.judgeLimits (b : Block) (c : Nat) (v : Int) : Block :=
  let a := b.field.adc.getD c {}
  let below := since a.below b.now (decide (v < b.geti Obj.adcLimitLo c))
  let above := since a.above b.now (decide (b.geti Obj.adcLimitHi c < v))
  let p := ms (b.get Obj.adcPersist c)
  let low := if a.low then decide (v < b.geti Obj.adcLimitLo c + b.geti Obj.adcHyst c) else persisted below b.now p
  let high := if a.high then decide (b.geti Obj.adcLimitHi c - b.geti Obj.adcHyst c < v) else persisted above b.now p
  let b1 := b.modAdc c fun x => { x with below := below, above := above, low := low, high := high }
  (b1.setAlarm 10 c low v).setAlarm 11 c high v

/-- A channel publishes a value: limits and lamp faults are judged (R372, R373). -/
def Block.publish (b : Block) (c : Nat) (v : Int) : Block :=
  let b1 := (b.puti Obj.adcValue v c).judgeLimits c v
  let b2 := if b.get Obj.lampICh = c then b1.judgeCurrent v else b1
  if b.get Obj.driverTCh = c then b2.judgeDriver v else b2

/-- A value as FX32 holds it; the manual states no result beyond the format, where it is a free value (R42, R372;
DESIGN CHOICE, log entry 207). -/
def Block.fxValue (b : Block) (v : Int) : Int × Block :=
  if -(2 ^ 31) ≤ v && decide (v < 2 ^ 31) then (v, b)
  else (signedOf 4 (Config.freeNat b.fresh % 2 ^ 32), { b with fresh := b.fresh + 1 })

/-- A channel publishes what it has computed, as FX32. -/
def Block.publishFx (b : Block) (c : Nat) (v : Int) : Block :=
  let d := b.fxValue v
  d.2.publish c d.1

/-- A channel's result of a scan (R372): VALUE at every scan, or the root of the mean square over RMS_WINDOW scans. -/
def Block.adcResult (b : Block) (c raw : Nat) : Block :=
  let v := b.geti Obj.adcGain c * (raw : Int) + b.geti Obj.adcOffset c
  let b1 := b.put Obj.adcRaw (min raw 4095) c
  let w := b.get Obj.adcRmsWindow c
  if w = 0 then b1.publishFx c v
  else
    let a := b.field.adc.getD c {}
    let n := a.scans + 1
    let sq := a.sumSq + (v * v).toNat
    if w ≤ n then (b1.modAdc c fun x => { x with scans := 0, sumSq := 0 }).publishFx c (Nat.sqrt (sq / n))
    else b1.modAdc c fun x => { x with scans := n, sumSq := sq }

/-- ADC_SCAN_END: each scanned channel takes its averaged result, and a firing of this tick starts the next scan
(R371, R372). -/
def Block.adcScanEnd (b : Block) (raw : List Nat) : Block :=
  if b.field.scanning && b.coreA && decide (b.scanEnd ≤ b.now) then
    let b1 := b.modField fun f => { f with scanning := f.scanNext, scanAt := if f.scanNext then b.now else f.scanAt, scanNext := false }
    (List.range 13).foldl (fun (c : Block) k => if c.is Obj.adcScan k then c.adcResult k (raw.getD k 0) else c) b1
  else b

/-- ADC_PERSIST_EXPIRY: a channel that has stayed beyond a limit for PERSIST becomes low or high (R372). -/
def Block.adcPersistEnd (b : Block) (c : Nat) (high : Bool) : Block :=
  let a := b.field.adc.getD c {}
  let v := b.geti Obj.adcValue c
  let p := ms (b.get Obj.adcPersist c)
  if !b.coreA then b
  else if high then
    (if persisted a.above b.now p then (b.modAdc c fun x => { x with high := true }).setAlarm 11 c true v else b)
  else if persisted a.below b.now p then (b.modAdc c fun x => { x with low := true }).setAlarm 10 c true v
  else b

/-- CYCLE_WINDOW_EXPIRY: no fall for CYCLE_WINDOW ends LAMP_CYCLING (R373). -/
def Block.cycleEnd (b : Block) : Block :=
  if b.field.falls.all fun t => decide (t + secs (b.get Obj.cycleWindow) ≤ b.now) then
    (b.modField fun f => { f with falls := [] }).setAlarm 1 0 false
  else b

/-! ### CAN FD (R374, R375) -/

/-- The first filter that a received frame matches (R375). -/
def Block.canFilter (b : Block) (ident : Nat) (ide : Bool) : Option Nat :=
  (List.range 16).find? fun f =>
    b.get Obj.canfFilterMask f != 0 && b.is Obj.canfFilterIde f == ide &&
      (ident &&& b.get Obj.canfFilterMask f) == (b.get Obj.canfFilterId f &&& b.get Obj.canfFilterMask f)

/-- A received 29-bit frame is Plais: to this node, or a broadcast notice (R75, R375). -/
def Block.canIsPlais (b : Block) (ident : Nat) (ide : Bool) : Bool :=
  ide && b.is Obj.canEnable && (ident / 2 ^ 17 % 128 == b.get Obj.canNode ||
    (ident / 2 ^ 17 % 128 == 0 && ident / 2 ^ 24 % 4 == 2))

/-- CAN_BUS_OFF (R374). What TEC shows of a count beyond its octet is a free value (log entry 208). -/
def Block.canBusOff (b : Block) : Block :=
  if b.feRuns && b.get Obj.busState != 2 then
    ((({ b with fresh := b.fresh + 1 }.put Obj.tec (Config.freeNat b.fresh % 256)).put Obj.busState 2).add Obj.busOffs).setAlarm 12 0 true
  else b

/-- BUS_OFF_RECOVERY: the port is error active again, its error counts at zero (R374). -/
def Block.canRecover (b : Block) : Block :=
  if b.get Obj.busState = 2 then (((b.put Obj.busState 0).put Obj.tec 0).put Obj.rec 0).setAlarm 12 0 false else b

/-! ### ENABLE of an alarm row (R376) -/

/-- The conditions of an alarm row that hold without a new event are evaluated (R376). -/
def Block.alarmEvaluate (b : Block) (row : Nat) : Block :=
  match row with
  | 4 => (b.relayWear 0).relayWear 1
  | 5 => if b.zxMissing then b.setAlarm 5 0 true else b
  | 6 => b.setAlarm 6 0 b.field.daliDown
  | 9 => if b.coreA then (List.range 8).foldl (fun (c : Block) d => c.setAlarm 9 d (c.detStuck d)) b else b
  | 10 => (List.range 13).foldl (fun (c : Block) k => c.setAlarm 10 k (c.field.adc.getD k {}).low (c.geti Obj.adcValue k)) b
  | 11 => (List.range 13).foldl (fun (c : Block) k => c.setAlarm 11 k (c.field.adc.getD k {}).high (c.geti Obj.adcValue k)) b
  | 12 => b.setAlarm 12 0 (b.get Obj.busState == 2)
  | _ => b

/-- FE runs again: its alarms evaluate what holds (R356). -/
def Block.alarmsResume (b : Block) : Block := (List.range 13).foldl Block.alarmEvaluate b

/-- A write of ENABLE of an alarm row (R376): with 0 it evaluates nothing, no instance stands and ACTIVE reads 0; with
1 it evaluates again (DESIGN CHOICE, log entry 209). -/
def Block.writeAlarmEnable (b : Block) (row v : Nat) : Nat × Block :=
  if v = b.get Obj.alarmEnable row then (0, b)
  else if v = 0 then
    (0, (((b.put Obj.alarmEnable 0 row).put Obj.alarmActive 0 row).put Obj.alarmDetail 0 row).alarmEffect row false b)
  else (0, (b.put Obj.alarmEnable 1 row).alarmEvaluate row)

/-- A write of RATED_OPS or WEAR_WARN: the wear is judged by it (R362). -/
def Block.writeWear (b : Block) (r : Reg) (row v : Nat) : Nat × Block := (0, (b.put r v row).relayWear row)

end Sys2Proof.Machine
end

