-- ==== Sys2Proof/Machine/Point.lean ====
section
/-!
DEFINITION. The commit point's own state: which submission it takes next (R57, R58), the bookkeeping of an access
(R51, R79), the response of a request and its cache (R63 to R66), and how a reset lets the access under way end
(R534).
-/

namespace Sys2Proof.Machine

/-- The result of an access is counted and kept by its port (R51, R79), and the access is activity (R92). -/
def Block.account (b : Block) (p : Port) (code : Nat) : Block :=
  let loc := portLoc p
  let b1 := (b.add Obj.commits).put Obj.lastResult code loc
  let b2 := if code = 0 then b1 else (b1.add Obj.refused).add Obj.errorCount 1 loc
  b2.active

/-! ### Responses (R63 to R66) -/

/-- A record of a response: bit 7 of OP set, the result, the object echoed, VALUE for reads only. -/
def OpRec.answer (o : OpRec) (code : Nat) (value : List Octet) : List Octet :=
  octetsBE 1 (o.op ||| 0x80) ++ octetsBE 1 code ++ octetsBE 2 o.idx ++ octetsBE 1 o.sub ++ [0#8] ++ octetsBE 4 o.row ++
    octetsBE 2 o.off ++ octetsBE 2 value.length ++ value

/-- The octets of a value that a READ record wants: all of them where DLEN is 0 (R63). -/
def OpRec.wanted (o : OpRec) (l : List Octet) : List Octet := if o.dlen = 0 then l else l.take o.dlen

/-- The single record that answers a malformed message (R65). -/
def malformedAnswer : List Octet :=
  ({ op := 0x80, idx := 0, sub := 0, row := 0, off := 0, dlen := 0, value := [] } : OpRec).answer 5 []

/-- The body of a response: a record for each record of the request that has been applied, in its order. -/
def responseBody (ops : List OpRec) (results : List (Nat × Nat × List Octet)) : List Octet :=
  ((List.range ops.length).zip ops).flatMap fun x =>
    match results.find? fun r => r.1 == x.1 with
    | some r => x.2.answer r.2.1 r.2.2
    | none => []

/-- The source of a message: a peer row, whichever its transport, a CAN FD node or the console (R66). -/
def sourceOf : Port → Port
  | .mesh row => .udp row
  | p => p

/-- A response enters its source's cache, which keeps the last 32 (R66). -/
def Block.cacheResponse (b : Block) (p : Port) (tid : Nat) (body : List Octet) : Block :=
  let src := sourceOf p
  let mine := (b.plais.cache.filter fun c => c.src == src && c.tid != tid) ++
    [{ src := src, tid := tid, at_ := b.now, msg := body }]
  { b with plais := { b.plais with
      cache := (b.plais.cache.filter fun c => c.src != src) ++ mine.drop (mine.length - 32) } }

/-! ### The queues of the ports (R57, R58) -/

/-- The number of accesses committed while another waited from which on it is aged (R58). -/
def agedAt : Nat := 64

/-- The commit point is idle: no access is under way, and none waits. -/
def Block.pointIdle (b : Block) : Bool := b.plais.waiting.isEmpty && b.region.commit.isNone

/-- The submission whose access holds the commit point. -/
def Plais.begun (p : Plais) : Option Wait := p.waiting.find? fun w => w.begun

/-- The first of the submissions of a port. -/
def Plais.first (p : Plais) (rank : Nat) : Option Wait := p.waiting.find? fun w => portRank w.port == rank

/-- The first submissions of the ports, in the order of the ports. -/
def Plais.heads (p : Plais) : List Wait := (List.range 16).filterMap p.first

/-- The submission that is taken next: an aged one before any that is not, and by the order of the ports (R58). -/
def Plais.choose (p : Plais) : Option Wait :=
  match p.heads.find? fun w => decide (agedAt ≤ w.age) with
  | some w => some w
  | none => p.heads.head?

/-- The age rule takes a submission that the order of the ports would not have taken. -/
def Plais.byAge (p : Plais) : Bool := p.choose != p.heads.head?

/-- The queues without the first submission of a port. -/
def Plais.without (p : Plais) (w : Wait) : Plais := { p with waiting := p.waiting.erase w }

/-- Every submission that waits is older by the accesses committed. -/
def Plais.older (p : Plais) (n : Nat) : Plais := { p with waiting := p.waiting.map fun w => { w with age := w.age + n } }

/-- A submission joins its port's queue, with the tier that holds when it arrives (R57, R384). -/
def Block.enqueueAsk (b : Block) (w : Wait) : Block := { b with plais := { b.plais with waiting := b.plais.waiting ++ [w] } }

/-- A submission whose access has begun stands at the front of its queue and holds the commit point. -/
def Block.hold (b : Block) (w : Wait) : Block :=
  { b with plais := { b.plais with waiting := { w with begun := true } :: b.plais.waiting } }

/-- The slot of the cullet log that the access of a submission reads first. -/
def Block.slotAsked (b : Block) (w : Wait) : Option Nat :=
  match w.ask with
  | .load k => some k
  | .read idx sub row => if idx = 0x1210 && sub = 1 then some (b.rowFor w.port row) else none
  | .message _ _ _ _ _ _ ((_, o) :: _) =>
    if o.op = 1 && o.idx = 0x1210 && o.sub = 1 then some (b.rowFor w.port o.row) else none
  | _ => none

/-- The access that holds the commit point still does: a region commit before its flip (R161), a read of the slot that
is being written (R407). -/
def Block.pointHeld (b : Block) (w : Wait) : Bool :=
  b.region.commit.isSome || (b.cullet.writing.isSome && b.slotAsked w == b.cullet.writing)

/-! ### A reset and the access under way (R534) -/

/-- A reset waits until the access that has begun has ended: a region commit flips, a read of a slot ends with the
slot's write. A request whose last access this was enters the response cache. -/
def Block.finishBegun (b : Block) : Block :=
  match b.plais.begun with
  | none => if b.region.commit.isSome then b.regionFlip else b
  | some w =>
    let slot := b.slotAsked w
    let b1 := if b.region.commit.isSome then b.regionFlip else if slot == b.cullet.writing then b.crcWritten else b
    let b2 := b1.account w.port 0
    match w.ask with
    | .message _ _ tid _ _ ops [x] =>
      let value := match slot with
        | some k => x.2.wanted (b1.slotOctets k)
        | none => []
      b2.cacheResponse w.port tid (responseBody ops (w.results ++ [(x.1, 0, value)]))
    | _ => b2

end Sys2Proof.Machine
end

