-- ==== Sys2Proof/Machine/Power.lean ====
section
/-!
DEFINITION. Power domains: what each keeps and loses when it powers down and up (R29, R30, R47, R82, R85), the mode
itself and its change (R86, R109, R536), the DRAM domain's layout (R478, R480), and starts and resets (R497 to R502).
Pins that leave the block are numbered in `Out.pin`: 0 MAIN_EN, 1 SEAL_DRV, 2 the line of Ethernet port 0 forced to an
error ending, 3 that of port 1, 4 PPS_OUT, 5 CAN_STB, 6 XSPI_RST_N, 8 to 10 COEX_OUT_H, _M, _L, 16 and 17 RELAY0 and
RELAY1, 32 to 39 TMR_IO0 to TMR_IO7.
-/

namespace Sys2Proof.Machine

/-! ### Domains of a mode -/

/-- The domains of R533 that a mode keeps on, Maintenance apart (R82). -/
def Mode.has (m : Mode) (d : Nat) : Bool :=
  match d with
  | 0 => m != .off
  | 1 => m != .off && m != .hibernate
  | 2 => m == .fieldOnly || m.mains
  | 5 => m == .dayWatch || m.mains
  | _ => m.mains

/-- The values of class None of a domain's objects return to their defaults with its power (R132). -/
def Block.clearDomain (b : Block) (d : Nat) : Block :=
  let other (c : Nat × Nat) : Bool := ownerOf (c.1 / 2 ^ 28) (c.1 / 2 ^ 20 % 256) != d
  { b with regs := { b.regs with
      plain := b.regs.plain.filter fun c => other c || (staticBridge b.regs.plain).contains c
      live := b.regs.live.filter other } }

/-- The engines of a domain lose power. -/
def Block.enginesOff (b : Block) (d : Nat) : Block :=
  { b with cpus := (List.range 12).map fun n => if engineDomain n = d then {} else b.cpu n }

/-- Something in memory is lost at the end of the command. -/
def Block.lose (b : Block) (l : Loss) : Block := { b with losses := b.losses ++ [l] }

/-! ### Each domain down and up -/

/-- The strands of a radio that loses power have no peer to answer: configured ones probe again when it is back. -/
def Block.strandsDown (b : Block) (r : Radio) : Block :=
  (List.range 32).foldl (fun (c : Block) k =>
    if c.strandState k r = 0 then c
    else ((c.remelt 6 fun g => g.radio == r && g.mpdus.any fun m => m.strand == some k).setStrand k r 1).updateLink k) b

/-- A radio's domain powers down. -/
def Block.radioOff (b : Block) (r : Radio) : Block :=
  if b.radioFenced r then b else ((b.strandsDown r).radioDown r).clearDomain (3 + radioNum r)

/-- A radio's domain powers up, unless the radio is fenced (R83). -/
def Block.radioOnUp (b : Block) (r : Radio) : Block := if b.radioFenced r then b else b.radioUp r

/-- The densities of R478. -/
def dramDensities : List Nat := [512, 1024, 1536, 2048, 3072, 4096]

/-- The slices of 1,792 octets of one channel: one for each row of 2,048 octets (R479). -/
def Dram.slices (d : Dram) : Nat := d.mib.getD 0 0 * 512

/-- The slices of one channel's part of the device reserve (R480). -/
def reserveSlices (spill : Nat) : Nat := (1048576 + spill + 1791) / 1792

/-- The octets of the engine region with a spill space. -/
def Dram.engineOctets (d : Dram) (spill : Nat) : Nat := 2 * (d.slices - reserveSlices spill) * 1792

/-- The spill space in force: SPILL_LIMIT if at least 64 MiB of engine region is left, else the largest multiple of
16 MiB that leaves it (R480). -/
def Dram.spillFor (d : Dram) (limit : Nat) : Nat :=
  if 67108864 ≤ d.engineOctets limit then limit
  else
    let most := (List.range 257).filter fun i => decide (67108864 ≤ d.engineOctets (i * 16777216))
    maxOf most * 16777216

/-- The DRAM domain is initialised (R478, R480, R489). -/
def Block.dramUp (b : Block) : Block :=
  let d := b.dram
  let size := (d.mib.getD 0 0 + d.mib.getD 1 0) * 1048576
  let ok := d.mib.getD 0 0 == d.mib.getD 1 0 && dramDensities.contains (d.mib.getD 0 0)
  let f := b.get Obj.fabricFenced
  if ok then
    let spill := d.spillFor (b.get Obj.spillLimit)
    let d1 : Dram :=
      { mib := d.mib, up := true, spill := spill, reserve := reserveSlices spill, interleave := b.is Obj.dramInterleave,
        ues := d.ues, idleFrom := b.now, load := true }
    let b1 := ({ b with dram := d1 }.put Obj.dramState (if bitSet f 15 || bitSet f 16 then 4 else 1)).put Obj.dramSize size
    (b1.put Obj.dramEngineTop (0x100000000 + d.engineOctets spill - 1)).put Obj.spillNow spill
  else ({ b with dram := { mib := d.mib } }.put Obj.dramState 3).put Obj.dramSize size

/-- The DRAM domain powers down: its contents are lost (R488). -/
def Block.dramOff (b : Block) : Block := ({ b with dram := { mib := b.dram.mib } }.clearDomain 6).lose .dram

/-- The Ethernet domain powers down. -/
def Block.ethOff (b : Block) : Block :=
  { b with fwd := { b.fwd with
      line := [none, none], xoff := [(0, 0), (0, 0)], paused := [[], []], low := [false, false] } }.clearDomain 7

/-- The Ethernet domain powers up: its ports look for their partners, with no idle time spent yet (R91). -/
def Block.ethPower (b : Block) : Block :=
  { b with fwd := { b.fwd with low := [false, false], downAt := [b.now, b.now] } }

/-- The plan of a ladder step (R414). -/
def planOf (step : Nat) : Nat := step - 1

/-- The step whose plan is applied (R427). -/
def Block.effStep (b : Block) : Nat := max (b.get Obj.lehrStep) (b.get Obj.thermalStep)

/-- The plan of the step in force is written, four accesses of engine 11 (R414, R420). -/
def Block.writePlan (b : Block) : Block :=
  let step := b.effStep
  ((((b.put Obj.gatherAheadLehr (if step ≤ 1 then 4 else 1)).put Obj.usersLehrH (if step ≤ 2 then 74 else 37)).put
    Obj.usersLehrM (if step ≤ 2 then 18 else 9)).put Obj.stationLehr (if step ≤ 2 then 512 else 256)).add Obj.commits 4

/-- The plan that Core-A serves is the one of the step in force, or that of a power-up when a higher step was kept. -/
def Block.planStands (b : Block) : Bool :=
  (b.effStep ≤ 1 || b.get Obj.gatherAheadLehr == 1) && (b.effStep ≤ 2 || b.get Obj.stationLehr == 256)

/-- A pass starts: it waits for its first sweep. The plan of a LEHR_STEP that Core-A's power-down or a reset outlived
is written again (R418; DEDUCED, log entry 213). -/
def Block.passStart (b : Block) : Block :=
  let b1 := if b.planStands then b else b.writePlan
  { b1 with margin := { b1.margin with
      pass := some { step0 := b1.get Obj.lehrStep }, due := false, tjPass := b1.geti Obj.tjNow } }

/-- Core-A powers down: the fabric's work, the time island and the engines of Core-A, with their memories (R331, R471).
-/
def Block.coreAOff (b : Block) : Block :=
  let b1 := (b.timeDown.tbSwitch.detectorsGap.clearDomain 2).enginesOff 2
  let links := b1.links.map fun l =>
    ({ mgmtTx := l.mgmtTx, mgmtRx := l.mgmtRx, send := l.send, waiting := l.waiting } : Link)
  let held := sumOfList (b1.frames.map fun _ => 1)
  let b2 := { b1 with
    frames := [], gth := {}, fwd := {}, links := links, jobs := [], latches := [], stamps := [[], [], [], [], []]
    unread := List.replicate 8 false, timers := List.replicate 16 {}
    pins := { b1.pins with ppsOut := false, timerOut := [] }
    margin := { b1.margin with pass := none } }
  (b2.put Obj.acceptedHeld (b2.get Obj.acceptedHeld - held)).lose .coreA

/-- Core-A powers up: XSPI_RST_N goes from its release until the boot ROM starts the interface (R504, R516), the time
domains start, MS-L and FE that ran on the Radio L edge's count change to TI_TICKS, and so does a lehr pass, before
acceptance opens (R330, R331, R417). -/
def Block.coreAUp (b : Block) (fromDay : Bool) : Block :=
  let b0 := if fromDay then (b.timeUp fromDay).tbSwitch else b.timeUp fromDay
  let b1 := b0.detectorsUp.put Obj.vcoreNow 750
  (({ b1 with margin := { b1.margin with periodFrom := b1.now } }.emit (.pin 6 false)).emit (.pin 6 true)).passStart

/-- Core-F powers down: with it go the Retained objects, the Plais ports with their caches and notices, a region commit
before its flip, MS-L, FE and the field outputs (R66, R78, R85, R161, R357). -/
def Block.coreFOff (b : Block) : Block :=
  let b1 := (b.fieldRelease.clearDomain 1).enginesOff 1
  { b1 with
    regs := { b1.regs with retained := [] }
    plais := {}
    region := { b1.region with commit := none }
    periods := [], links := List.replicate 32 {}
    field := {}
    mac := { bins := b1.mac.bins, archive := b1.mac.archive } }.lose .coreF |>.emit (.pin 5 true)

/-- Core-F powers up: the time that the Radio L edge would carry starts from the RTC, not valid, and FE applies the
Stored values to its outputs (R331, R357). -/
def Block.coreFUp (b : Block) : Block :=
  { b with time := { b.time with dwBase := b.rtcTime, dwRef := b.now, dwCorr := none, tbBase := 0, tbRef := b.now } }.fieldApply.emit (.pin 5 false)

/-- A domain powers down. -/
def Block.domainDown (b : Block) (d : Nat) : Block :=
  match d with
  | 1 => b.coreFOff
  | 2 => b.coreAOff
  | 3 => b.radioOff .h
  | 4 => b.radioOff .m
  | 5 => b.radioOff .l
  | 6 => b.dramOff
  | _ => b.ethOff

/-- A domain powers up. -/
def Block.domainUp (b : Block) (fromDay : Bool) (d : Nat) : Block :=
  match d with
  | 1 => b.coreFUp
  | 2 => b.coreAUp fromDay
  | 3 => b.radioOnUp .h
  | 4 => b.radioOnUp .m
  | 5 => b.radioOnUp .l
  | 6 => b.dramUp
  | _ => b.ethPower

/-- The domains that mode `a` has and mode `z` has not power down, children before their parent (R30). -/
def Block.downTo (b : Block) (a z : Mode) : Block :=
  ([3, 4, 5, 7, 6, 2, 1].filter fun d => a.has d && !z.has d).foldl Block.domainDown b

/-- The domains that mode `z` has and mode `a` has not power up, a parent before its children (R30). -/
def Block.upTo (b : Block) (a z : Mode) : Block :=
  ([1, 2, 6, 7, 3, 4, 5].filter fun d => z.has d && !a.has d).foldl
    (fun (c : Block) d => c.domainUp (a == .dayWatch) d) b

/-! ### The mode -/

/-- Acceptance is open for what the present mode serves. -/
def Block.openAcceptance (b : Block) : Block := { b with mode := { b.mode with acc := b.ingressOf b.mode.mode } }

/-- Acceptance is closed on every ingress. -/
def Block.closeAcceptance (b : Block) : Block := { b with mode := { b.mode with acc := {} } }

/-- The entry into a mode completes: acceptance opens for what it serves, and a change of mode counts, is noticed and
puts a summary into the cullet log (R109, R122, R536). `left` is the mode left. -/
def Block.entered (b : Block) (left new : Mode) (cause : Nat) : Block :=
  let b1 := { b with mode := { b.mode with
      mode := new, trans := .none, target := new, drain := none, entry := none, waking := none
      lastActivity := b.now, powerFailOwed := b.mode.powerFailOwed } }.openAcceptance
  if left = new then b1
  else
    let b2 := b1.add Obj.transitions
    (b2.notice 0x0401 Obj.modeCurrent noRow [left.num, new.num, cause]).abandonSummary 1

/-- Every enabled link's strands follow their configuration when Core-A serves them (R248). -/
def Block.linksUp (b : Block) : Block :=
  (List.range 32).foldl (fun (c : Block) k => if c.is Obj.caneEnable k then c.configStrands k else c) b

/-- Stations hold no association in a mode that serves none (R83, R89). -/
def Block.stationsLeave (b : Block) : Block := (b.listedRows Obj.staState).foldl Block.departStation b

/-- Day Watch begins: the parent is chosen and polled from now on (R99, R100, R213). -/
def Block.dayBegin (b : Block) : Block :=
  let b1 := b.modMac fun m => { m with polling := false, suspended := false, polled := [], cell := none, pollAt := none }
  b1.modMac fun m => { m with parent := b1.chooseParent }

/-- The target of a request for Full Service: Degraded Service while a unit is fenced (R86, R87), Relay at lehr step 4
(R421; DEDUCED, log entry 41). -/
def Block.serviceTarget (b : Block) (m : Mode) : Mode :=
  if m = .fullService then
    if b.get Obj.lehrStep = 4 then .relay else if b.get Obj.fabricFenced ≠ 0 then .degraded else .fullService
  else m

/-- The device moves from one running mode to another, with no drain to run: domains down, the mode, domains up. -/
def Block.moveTo (b : Block) (target : Mode) (cause : Nat) : Block :=
  let left := b.mode.mode
  let a := b.baseOf left
  let z := b.baseOf target
  let b1 := if z = .fullService || z = .degraded then b else b.stationsLeave
  let b2 := b1.downTo a z
  let b3 := { b2 with mode := { b2.mode with mode := target } }
  let b4 := b3.upTo a z
  let b5 := b4.entered left target cause
  let b6 := if z.mains && !a.mains then b5.linksUp else b5
  if z = .dayWatch && a ≠ .dayWatch then b6.dayBegin else b6

/-! ### Starts (R504) -/

/-- The target that a start may reach: Relay, Full Service and Degraded Service need PWR_OK, and without it the device
comes to UNPOWERED_TARGET (R84; DESIGN CHOICE, log entry 171). -/
def Block.powerFit (b : Block) (m : Mode) : Mode :=
  if m.mains && !b.pins.pwrOk then Mode.ofNum (b.get Obj.unpoweredTarget) else m

/-- A start into Maintenance whose base mode needs a PWR_OK that is gone has Field Only as its base (R84; DESIGN
CHOICE, log entry 171). -/
def Block.baseFit (b : Block) (m : Mode) : Block :=
  if m = .maintenance && (b.baseOf .maintenance).mains && !b.pins.pwrOk then b.put Obj.maintBase 3 else b

/-- The start that a command made due has run: the domains that the target has not go down, its own come up, and the
device is in its target mode (R82, R498, R106). -/
def Block.arrive (b0 : Block) (s : Boot) : Block :=
  let b := b0.baseFit s.target
  let target := b.serviceTarget (b.powerFit s.target)
  let z := b.baseOf target
  let a := b.baseOf s.alive
  let b1 := { b.downTo a z with mode := { b.mode with mode := target } }
  let b2 := b1.upTo a z
  let b3 := b2.entered s.left target s.cause
  let b4 := if z.mains then b3.linksUp else b3
  let b5 := if z = .dayWatch then b4.dayBegin else b4
  match b5.mode.powerFailOwed with
  | none => b5
  | some p =>
    let b6 := b5.notice 0x0405 Obj.lostPowerLast noRow p
    { b6 with mode := { b6.mode with powerFailOwed := none } }

/-! ### Resets (R500 to R502) -/

/-- GD starts at M from its ROM (R497 step 2). -/
def Block.gdStart (b : Block) : Block :=
  b.modCpu 11 fun _ => { run := .running, pc := 0xE00B000000, wdStart := b.now }


/-- The end of a swap with a status (R508, R509, R512). -/
def Block.swapEnd (b : Block) (status : Nat) : Block :=
  let b1 := { b with images := { b.images with swap := none } }.put Obj.swapStatus status
  b1.notice 0x01C0 Obj.swapStatus noRow ([status, 0] ++ bytesBE 2 (b1.get Obj.swapDone))

/-- The request of a swap is withdrawn: an engine that it holds at its safe point runs on with its old image. -/
def Block.swapRelease (b : Block) (w : Swap) : Block :=
  match w.left with
  | n :: _ => b.modCpu n fun c =>
      { c with swapReq := false, run := if w.held && c.run == Run.halted then Run.running else c.run }
  | [] => b

/-- A swap under way ends with a status, if there is one (R509). -/
def Block.swapAbort (b : Block) (status : Nat) : Block :=
  match b.images.swap with
  | some w => (b.swapRelease w).swapEnd status
  | none => b

/-- A reset that ended a swap leaves its SWAP_STATUS and SWAP_DONE, as `c` held them, to be read after it (R509). -/
def Block.swapKept (b : Block) (swap : Option Swap) (c : Block) : Block :=
  match swap with
  | some _ => (b.put Obj.swapStatus (c.get Obj.swapStatus)).put Obj.swapDone (c.get Obj.swapDone)
  | none => b

/-- Debug locks at any reset and when Maintenance ends (R398). -/
def Block.debugSet (b : Block) (new : Nat) : Block :=
  let old := b.get Obj.debugState
  if old = new then b
  else ((b.put Obj.debugState new).post 0x0025 [old, new]).notice 0x030B Obj.debugState noRow [new]

/-- The state of the debug port that the fuses give: Disabled, Locked or Open (R398). -/
def Block.debugFused (b : Block) : Nat :=
  if b.is Obj.debugDisable then 3 else if b.is Obj.sbEnforced then 1 else 0

/-- The RESET record and the reset objects of a start (R409, R511). -/
def Block.resetRecord (b : Block) (source kind : Nat) (before : Mode) : Block :=
  let b1 := b.post 0x0001 [source, kind, before.num, b.get Obj.bootSlot] (first := source != 0)
  let b2 := (b1.put Obj.resetSource source).put Obj.resetKind kind
  b2.add (if kind = 0 then Obj.resetsCold else Obj.resetsWarm)

/-- A region change that never completed is recorded at the first start after it (R161, R409). -/
def Block.regionStart (b : Block) : Block :=
  match b.region.pendingNew with
  | none => b
  | some crc =>
    let b1 := { b with region := { b.region with pendingNew := none, commit := none } }
    let active := match b.region.active with
      | some g => g.crc
      | none => 0
    if active = crc then b1
    else
      let rec_ := ((b.cullet.slots.filter fun s => s.2.type == 0x0030).map fun s => s.2.seq)
      b1.post 0x0032 (bytesLE 8 (maxOf rec_)) (first := true)

/-- Every fenced unit is restored (R24): the bits that named them are recorded and noticed; FE's alarms evaluate again
(R356). -/
def Block.restoreUnits (b : Block) : Block :=
  let f := b.get Obj.fabricFenced
  let bits := (List.range 20).filter fun i => bitSet f i
  let named (i : Nat) : Bool := b.fences.any fun x => x.1 == i
  let pairOf (i : Nat) : Nat := if 12 ≤ i && decide (i < 15) then i - 10 else if 2 ≤ i && decide (i < 5) then i + 10 else i
  let last (i : Nat) : Nat := maxOf ((b.fences.filter fun x => x.1 == i).map (·.2))
  let show_ := bits.filter fun i => named i && (pairOf i == i || !named (pairOf i) || decide (last (pairOf i) < last i) ||
    (decide (last (pairOf i) = last i) && decide (12 ≤ i)))
  let b1 := (b.put Obj.fabricFenced 0).put Obj.gaFallback 0
  let b2 := { b1 with fwd := { b1.fwd with moved := [false, false] } }
  let b3 := if bitSet f 15 || bitSet f 16 then (if b2.dram.up then b2.put Obj.dramState 1 else b2) else b2
  let b4 := show_.foldl (fun (c : Block) i => (c.post 0x0011 [i]).notice 0x0181 Obj.fabricFenced noRow [i]) b3
  if bitSet f 10 then b4.alarmsResume else b4

/-- What a cold reset and a wake from Hibernate clear beside the domains: the None and Retained objects, the fences,
debug and VCORE; the epoch of the cane links rises (R240, R501). -/
def Block.coldState (b : Block) : Block :=
  let b1 := { b with regs := { b.regs with plain := staticBridge b.regs.plain, live := [], retained := [] } }
  let b2 := (b1.put Obj.caneEpoch ((b1.get Obj.caneEpoch + 1) % 65536)).put Obj.vcoreNow 750
  b2.put Obj.debugState (if b.get Obj.debugState = 2 then 2 else b.debugFused)

/-- The objects of class None that live in the Furnace domain are kept as None by a reset too; what the Furnace units
hold themselves is kept (R501). A cold reset with a source of R500: accepted frames held are counted as lost where the
source says so, the records are written, every domain but the Furnace goes through its loss of power, and a start is
due. The device comes back to the mode it was in (DESIGN CHOICE, log entry 42). -/
def Block.coldReset (b : Block) (source : Nat) : Block :=
  let mode := b.mode.mode
  if mode = .off then b
  else if mode = .hibernate then
    -- only GD runs in Hibernate: its fault alone makes a reset there (R22)
    if source = 5 then (b.gdStart.coldState.resetRecord 5 0 .hibernate).regionStart else b
  else
    let b0 := if source = 3 || source = 7 then b.finishBegun else b
    let held := b0.get Obj.acceptedHeld
    let lossy := source == 1 || decide (5 ≤ source)
    let b1 := if lossy then (b0.add Obj.lostCold held).post 0x0012 (bytesLE 4 held) (first := true) else b0
    let b2 := (b1.swapAbort 6).restoreUnits
    let before := b2.mode.mode
    let slot := b2.get Obj.bootSlot
    let b3 := b2.downTo (b2.baseOf mode) .hibernate
    let b4 := if mode == .maintenance && !(b2.baseOf mode).has 2 then b3.coreAOff else b3
    let b5 := (b4.coldState.put Obj.bootSlot slot).put Obj.acceptedHeld 0
    let b6 := (((b5.resetRecord source 0 before).put Obj.bootSlot 0).swapKept b.images.swap b2).regionStart
    let b7 := if b6.get Obj.debugState = 2 then b6.debugSet (if b6.is Obj.sbEnforced then 1 else 0) else b6
    let target := match b.mode.trans with
      | .waking => b.mode.target
      | _ => mode
    let b8 := if source = 5 then b7.gdStart else b7
    { b8 with
      images := { engHash := b8.images.engHash }
      mode := { b8.mode with
        mode := .hibernate, trans := .waking, target := target, drain := none, entry := none, acc := {} }
      boot := some { kind := 0, left := mode, alive := .hibernate, target := target } }

end Sys2Proof.Machine
end

