-- ==== Sys2Proof/Machine/Modes.lean ====
section
/-!
DEFINITION. Modes and faults: fencing and its effects (R128 to R131), warm reset and replay (R125 to R127), drains (R89,
R96), the power-fail path (R90, R132), entry into Hibernate and waking (R101 to R105), mode requests (R86, R87) and
Maintenance (R88).
-/

namespace Sys2Proof.Machine

/-! ### Changes of mode that move no domain -/

/-- The mode changes while the domains, and a transition under way, stay as they are. -/
def Block.modeShift (b : Block) (new : Mode) (cause : Nat) : Block :=
  let left := b.mode.mode
  if left = new then b
  else
    let b1 := { b with mode := { b.mode with
        mode := new, target := if b.mode.trans = Trans.none then new else b.mode.target } }
    ((b1.add Obj.transitions).notice 0x0401 Obj.modeCurrent noRow [left.num, new.num, cause]).abandonSummary 1

/-- A fence takes Full Service to Degraded Service; in Maintenance the base mode moves (R86; DEDUCED, log entry 43). -/
def Block.degrade (b : Block) : Block :=
  match b.mode.mode with
  | .fullService => b.modeShift .degraded 4
  | .maintenance => if b.get Obj.maintBase = 5 then b.put Obj.maintBase 6 else b
  | _ => b

/-- The last fenced unit restored takes Degraded Service back to Full Service (R86). -/
def Block.undegrade (b : Block) : Block :=
  match b.mode.mode with
  | .degraded => b.modeShift .fullService 5
  | .maintenance => if b.get Obj.maintBase = 6 then b.put Obj.maintBase 5 else b
  | _ => b

/-! ### Fencing (R24, R128, R129) -/

/-- The bits of FABRIC_FENCED of a unit: a radio and its sequencer engine are one (R24). -/
def unitBits (bit : Nat) : List Nat :=
  if 2 ≤ bit && decide (bit ≤ 4) then [bit, bit + 10]
  else if 12 ≤ bit && decide (bit ≤ 14) then [bit - 10, bit]
  else [bit]

/-- The engine of a unit is fenced. -/
def Block.engineFenced (b : Block) (n : Nat) : Block := b.modCpu n fun c => { c with run := .fenced }

/-- A fenced radio: its PPDU is cut, cane strands fail over, its destinations depart under code 1, its domain is off
(R83, R129). -/
def Block.fenceRadio (b : Block) (r : Radio) : Block :=
  let b1 := (List.range 32).foldl (fun (c : Block) k => c.failStrand k r 0) (b.radioDown r)
  let b2 := match r with
    | .l => ((b1.listedRows Obj.nbrAddr).foldl Block.departNeighbour b1).modMac fun m => { m with suspended := true }
    | _ => ((b1.listedRows Obj.staState).filter fun row => b1.staRadio row == r).foldl Block.departStation b1
  (b2.clearDomain (3 + radioNum r)).engineFenced (2 + radioNum r)

/-- A fenced Ethernet port (R128, R129): its line ends in error and the frame is sent again in full; with ETH_PAIR its
queues move. -/
def Block.fenceEth (b : Block) (port : Nat) : Block :=
  let onLine := b.fwd.line.getD port none
  let partner := bitSet (b.get Obj.fabricFenced) (17 + (1 - port))
  let b1 := if onLine.isSome then b.emit (.pin (2 + port) true) else b
  let b2 := { b1 with fwd := { b1.fwd with
      line := b1.fwd.line.set port none
      moved := if b1.is Obj.ethPair && !partner then b1.fwd.moved.set port true else b1.fwd.moved } }
  match onLine with
  | none => b2
  | some fid => b2.modFrame fid fun f => { f with state := .queued }

/-- The unfinished misses of a fenced packet engine go back to the miss queue in order (R129). -/
def Block.fencePe (b : Block) (n : Nat) : Block :=
  let misses := b.fwd.misses.map fun (m : Miss) => if m.holder = some n then { m with holder := none, handle := 65535 } else m
  { b with fwd := { b.fwd with misses := misses } }.engineFenced n

/-- What the fencing of a unit does to what it held (R129). -/
def Block.fenceEffect (b : Block) (bit : Nat) : Block :=
  match bit with
  | 2 | 12 => b.fenceRadio .h
  | 3 | 13 => b.fenceRadio .m
  | 4 | 14 => b.fenceRadio .l
  | 5 | 6 | 7 | 8 => b.fencePe bit
  | 9 => (b.engineFenced 9).put Obj.gaFallback 1
  | 10 => (b.engineFenced 10).dimFailsafe
  | 15 | 16 => if b.dram.up then b.put Obj.dramState 4 else b
  | 17 => b.fenceEth 0
  | 18 => b.fenceEth 1
  | 19 => b
  | _ => b.engineFenced bit

/-- A second fence of a pair that the device cannot do without (R131). -/
def pairFenced (f bit : Nat) : Bool :=
  (bit == 0 && bitSet f 1) || (bit == 1 && bitSet f 0) || (bit == 15 && bitSet f 16) || (bit == 16 && bitSet f 15)

/-- The frames whose last copy or path a second fence takes (R131): with both DRAM channels fenced the spilled ones,
with ETH_PAIR and both ports fenced the one that the second port had started from the queues moved to it. -/
def Block.fenceLost (b : Block) (bit : Nat) : List Nat :=
  let f := b.get Obj.fabricFenced
  match bit with
  | 15 | 16 => if pairFenced f bit then b.idsWhere fun g => g.spilled else []
  | 17 | 18 =>
    let other := 1 - (bit - 17)
    match b.fwd.line.getD (bit - 17) none with
    | some fid =>
      if bitSet f (17 + other) && b.is Obj.ethPair then
        b.idsWhere fun g => g.id == fid && b.get Obj.queueBind g.queue == other
      else []
    | none => []
  | _ => []

/-- Frames are lost to a second fault: each counts, the log records them and a notice tells (R131, R136). -/
def Block.loseFrames (b : Block) (ids : List Nat) : Block :=
  if ids.isEmpty then b
  else
    let n := ids.length
    (((b.dropAll ids).add Obj.lostMultifault n).post 0x0012 (bytesLE 4 n) (first := true)).notice 0x0183
      Obj.lostMultifault noRow (bytesBE 4 n)

/-- The second part of a radio's unit fails in the tick in which its other part was fenced: LAST_FENCED names the
RADIO bit (R24). -/
def Block.fenceAgain (b : Block) (bit cause : Nat) : Block :=
  if 12 ≤ bit && decide (bit ≤ 14) && b.fences.contains (bit - 10, b.now) then
    let hist := b.fences.map fun x => if x = (bit - 10, b.now) then (bit, b.now) else x
    ({ b with fences := hist }.put Obj.lastFenced bit).put Obj.lastFenceCause cause
  else b

/-- A unit is fenced with a cause (R24, R128): what it held goes its way, the fence is recorded and noticed, and Full
Service becomes Degraded Service. GD has no unit of its own: its fault makes a cold reset with source 5 (R22). Both
application cores, or both DRAM channels, make one with source 7. The frames that a notice UNIT_FENCED counts as
abandoned are those that left under R121, not those lost under R131. -/
def Block.fence (b : Block) (bit cause : Nat) : Block :=
  let f := b.get Obj.fabricFenced
  if bit = 11 then b.coldReset 5
  else if 20 ≤ bit || !b.coreF then b
  else if bitSet f bit then b.fenceAgain bit cause
  else
    let b1 := (b.swapAbort 5).loseFrames (b.fenceLost bit)
    let held := b1.frames.length
    let b2 := b1.fenceEffect bit
    let mask := (unitBits bit).foldl (fun m i => setBit m i) f
    let n := held - b2.frames.length
    let hist := (b2.fences.filter fun x => decide (b.now < x.2 + secs 86400)) ++ [(bit, b.now)]
    let b3 := { b2 with fences := hist }.put Obj.fabricFenced mask
    let b4 := (((b3.put Obj.lastFenced bit).put Obj.lastFenceCause cause).add Obj.unitFences)
    let b5 := if cause = 1 then b4.add Obj.fabricStallCount else b4
    let b6 := (b5.degrade.post 0x0010 ([bit, cause] ++ bytesLE 4 n) (first := true)).notice 0x0180 Obj.fabricFenced noRow
      ([bit, cause] ++ bytesBE 4 n)
    if pairFenced f bit then b6.coldReset 7 else b6

/-! ### Warm reset and replay (R125, R126) -/

/-- A radio's PPDU on air completes when a warm reset asserts, with the length that it was charged (R125); one whose
ramp-up has not started does not go out. -/
def Block.finishPpdu (b : Block) (r : Radio) : Block :=
  match (b.radio r).air with
  | none => b
  | some a =>
    if !b.onAirNow r then b.uncommit r
    else
      let b1 := if a.started then b else b.carriedOnAir r a.cmd
      let b2 := (b1.rampEnd r).emit (.radio r 14 [a.charge.amount])
      if a.own then b2
      else
        let b3 := b2.txStatus r 0
        if wantsAnswer a.cmd then b3 else (b.cmdFrames a.cmd).foldl (fun (d : Block) i => d.sentNoAck r i) b3

/-- A radio's PPDU on air and its response exchange complete when a warm reset asserts: frames that ask for no
acknowledgement are delivered at its end (R112, R125). What the exchange then brings is in its result buffer. -/
def Block.radioSettles (b : Block) (done : List Nat) (r : Radio) : Block :=
  let mine := match (b.radio r).cmd with
    | some c => (b.cmdFrames c).filter done.contains
    | none => []
  (b.finishPpdu r).modRadio r fun x =>
    { x with
      cmd := none, phase := .idle, own := [], txop := none, rx := none, rx1 := none, deferred := [], seg := none
      quietFrom := b.now, results := if mine.isEmpty then x.results else mine }

/-- An outcome in a result buffer or a completion log resolves its entry (R126 step 4): a strand acknowledgement of a
cane frame ends only the attempt. -/
def Block.replayDone (b : Block) (fid : Nat) : Block :=
  match b.frame? fid with
  | none => b
  | some f =>
    if !f.air then b
    else
      match f.caneLink with
      | some _ => b.modFrame fid fun x => { x with acked := true, attempts := 0 }
      | none => b.deliver fid

/-- Landed frames without an entry are journalled, while there is room (R126 step 4). -/
def Block.journalLanded (b : Block) : Block :=
  radios3.foldl (fun (c : Block) r =>
    (c.frames.filter fun f => f.landed == some r).foldl (fun (d : Block) _ => d.landingDrain r) c) b

/-- The gathers never transmitted are remelted, without a trigger of R255 to count. -/
def Block.remeltAll (b : Block) : Block :=
  ((b.gth.gathers.filter fun g => g.state.unlocked).reverse).foldl (fun (c : Block) g => c.undoGather g) b

/-- Engines halted for a restart keep no work: their misses wait again, their jobs are gone. -/
def Block.enginesHalt (b : Block) : Block :=
  let misses := b.fwd.misses.map fun (m : Miss) => if m.holder.isSome then { m with holder := none, handle := 65535 } else m
  { b with fwd := { b.fwd with misses := misses }, jobs := [], latches := [] }

/-- A warm reset from a source of R500 with its replay: `done` are the frames whose outcomes the result buffers and
completion logs hold, `repaired` the journal lines taken from the mirror. The access at the commit point ends first
(R534); the engines start again with their images checked (R503). -/
def Block.warmReset (b : Block) (source : Nat) (done : List Nat) (repaired : Nat) : Block :=
  let b0 := b.finishBegun
  let before := b0.mode.mode
  let b1 := (b0.swapAbort 6).resetRecord source 1 before
  let b2 := radios3.foldl (fun (c : Block) r => c.radioSettles done r) b1
  let b3 := (b2.ethEnd 0).ethEnd 1
  let melted := sumOfList ((b3.gth.gathers.filter fun g => g.state.unlocked).map fun g => g.mpdus.length)
  let b4 := b3.remeltAll
  let b5 := done.foldl Block.replayDone b4
  let gathers := b5.gth.gathers.map fun (g : Gather) => ({ g with state := GState.sent } : Gather).failOpen
  let b6 := { b5 with gth := { b5.gth with gathers := gathers } }.freeGathers
  let retried := (b6.frames.filter fun f => f.air && !f.acked).length
  let b7 := b6.journalLanded.enginesHalt.add Obj.journalRepaired repaired
  let b8 : Block := { b7 with
    regs := { b7.regs with plain := staticBridge b7.regs.plain }
    plais := { b7.plais with staged := [], snaps := [], asm := [], waiting := [], tier := none }
    links := b7.links.map fun (l : Link) => ({ l with send := l.send.map fun (m : MgmtSend) => ({ m with sent := false } : MgmtSend) } : Link)
    margin := { b7.margin with pass := none, due := b7.coreA } }.swapKept b.images.swap b7
  let b9 := if b8.dram.up then
      ((b8.add Obj.dchSrEntries).add Obj.dchSrEntries 1 1).put Obj.dramSpreadNow (b8.get Obj.dramSpread)
    else b8
  let b10 := (b9.add Obj.warmReplays).notice 0x0182 Obj.warmReplays noRow (bytesBE 4 retried ++ bytesBE 4 melted)
  let back := radios3.filter fun r => b10.radioFenced r
  let b11 := if b10.get Obj.fabricFenced ≠ 0 then b10.restoreUnits.undegrade else b10
  let b12 := back.foldl (fun (c : Block) r => if c.radioOn r then c.radioUp r else c) b11
  let b13 := if b12.get Obj.debugState = 2 then b12.debugSet (if b12.is Obj.sbEnforced then 1 else 0) else b12
  let open_ := match b13.mode.drain with
    | some d => !d.closed
    | none => true
  let b14 := if open_ then b13.openAcceptance else b13
  { b14.fadePause with boot := some { kind := 1, left := before, alive := before, target := before } }

/-- A warm reset asked for while the device runs, or an automatic one (R130, R502). -/
def Block.warmAsked (b : Block) (source : Nat) (done : List Nat) (repaired : Nat) : Block :=
  if b.coreF && b.mode.entry.isNone then b.warmReset source done repaired else b

/-- Some unit has been fenced for RESTORE_DELAY that was not fenced before within 24 h (R130). -/
def Block.mayRestore (b : Block) : Bool :=
  let f := b.get Obj.fabricFenced
  b.get Obj.restorePolicy == 1 && (List.range 20).any fun i =>
    let mine := b.fences.filter fun x => (unitBits i).contains x.1
    let last := maxOf (mine.map (·.2))
    bitSet f i && !mine.isEmpty && decide (last + secs (b.get Obj.restoreDelay) ≤ b.now) &&
      decide ((mine.filter fun x => decide (last < x.2 + secs 86400)).length < 2)

/-! ### Drains (R89, R96, R97) -/

/-- The second of the UTC day of presented time `ticks` from now. -/
def Block.utcSecondOfDay (b : Block) (ticks : Nat) : Nat :=
  (((b.presented + gain 0 ticks) / secUnit - (b.get Obj.utcOffset : Int)) % 86400).toNat

/-- A frame that a drain must see out: every frame, or those for stations (R89). -/
def Drain.covers (d : Drain) (f : Frame) : Bool := d.dawn || decide (f.queue < 4096)

/-- A station leaves on the device's own account: it is told (radio event 5: a disassociation), and departs. -/
def Block.disassociate (b : Block) (row : Nat) : Block :=
  if b.staUsed row then (b.emit (.radio (b.staRadio row) 5 [row])).departStation row else b

/-- Stations whose queues are empty are disassociated once a drain has closed acceptance (R96 step 3). -/
def Block.drainStations (b : Block) : Block :=
  match b.mode.drain with
  | some d =>
    if d.closed then
      (b.listedRows Obj.staState).foldl (fun (c : Block) row =>
        if c.frames.any fun f => f.inScope 2 row then c else c.disassociate row) b
    else b
  | none => b

/-- A drain starts (R96 step 1): T is `deadline`. Cane peers are told when acceptance will close, and each station is
asked to leave (radio event 4: a BSS transition management request). -/
def Block.drainStart (b : Block) (dawn : Bool) (target : Mode) (deadline cause : Nat) : Block :=
  let d : Drain := { dawn, target, start := b.now, deadline, cause }
  let b1 := { b with mode := { b.mode with trans := .draining, target := target, drain := some d } }.active
  let t := b1.utcSecondOfDay (deadline - b.now)
  let b2 := b1.notice 0x0402 Obj.transition noRow ([b.mode.mode.num, target.num] ++ bytesBE 4 t)
  let close := b.get Obj.announceTime
  let b3 := if dawn then
      ((List.range 32).filter fun k => b2.is Obj.caneEnable k).foldl
        (fun (c : Block) k => c.mgmtSend k 2 (octetsBE 4 close)) b2
    else b2
  ((b3.listedRows Obj.staState).filter fun row => b3.get Obj.staState row == 2).foldl
    (fun (c : Block) row => c.emit (.radio (c.staRadio row) 4 [row, close])) b3

/-- DRAIN_ACCEPTANCE_CLOSE: ANNOUNCE_TIME after the drain start acceptance closes on every ingress, or on the
stations' (R96 step 2). -/
def Block.drainClose (b : Block) : Block :=
  match b.mode.drain with
  | some d =>
    if d.closed || decide (b.now < d.start + secs (b.get Obj.announceTime)) then b
    else
      let acc := if d.dawn then ({} : Ingress) else { b.mode.acc with station := false }
      { b with mode := { b.mode with drain := some { d with closedAt := some b.now }, acc := acc } }.drainStations
  | none => b

/-- The frames of a radio whose acknowledgement had begun to arrive by a tick (R97). -/
def Block.ackBegun (b : Block) (tick : Nat) (r : Radio) : List Nat :=
  let u := b.radio r
  match u.cmd, u.rx with
  | some c, some x => if u.phase == .awaiting && decide (x.at_ ≤ tick) then b.cmdFrames c else []
  | _, _ => []

/-- Past the guard of a drain the frames still held are abandoned as a management flush and the remaining stations
leave; a frame whose acknowledgement had begun by the deadline stays until that has ended (R96 step 4, R97). -/
def Block.drainFlush (b : Block) : Block :=
  match b.mode.drain with
  | some d =>
    match d.guardAt with
    | some g =>
      let saved := radios3.flatMap (b.ackBegun g)
      let ids := b.idsWhere fun f => d.covers f && !saved.contains f.id
      let b1 := (b.abandon 3 7 ids).add Obj.drainFlushed ids.length
      let b2 := { b1 with mode := { b1.mode with drain := some { d with flushed := d.flushed + ids.length } } }
      (b2.listedRows Obj.staState).foldl (fun (c : Block) row =>
        if c.frames.any fun f => f.inScope 2 row then c else c.disassociate row) b2
    | none => b
  | none => b

/-- DRAIN_GUARD_DEADLINE: DRAIN_GUARD before T (R96 step 4). -/
def Block.drainGuard (b : Block) : Block :=
  match b.mode.drain with
  | some d =>
    if !d.closed || d.guardAt.isSome || decide (b.now + secs (b.get Obj.drainGuard) < d.deadline) then b
    else { b with mode := { b.mode with drain := some { d with guardAt := some b.now } } }.drainFlush
  | none => b

/-- Wake events are held while a drain runs toward Day Watch, Field Only or Hibernate (R102, R103; DEDUCED, log entry
174). -/
def Block.drainHolds (b : Block) : Bool :=
  match b.mode.drain with
  | some d => d.dawn && (d.target == .hibernate || d.target == .dayWatch || d.target == .fieldOnly)
  | none => false

/-! ### Entry into Hibernate (R102, R104) -/

/-- An entry into Hibernate begins (R104 step 1). -/
def Block.entryStart (b : Block) (cause : Nat) : Block :=
  { b with mode := { b.mode with
      trans := .entering, target := .hibernate, cause := cause, drain := none
      entry := some { start := b.now } } }.active.put Obj.entryAbandoned 0

/-- The records of an entry into Hibernate: the summary of the mode change, then HIBERNATE_ENTRY (R122, R409). -/
def Block.hibernateRecords (b : Block) : Block :=
  let real := b.mode.mode
  let b1 := { b with mode := { b.mode with mode := .hibernate } }.abandonSummary 1
  { b1 with mode := { b1.mode with mode := real } }.post 0x0003 [b1.get Obj.wakeEnable]

/-- MAIN_EN takes a level. The main rails that fall with it are monitored no longer (R520; DEDUCED, log entry 217). -/
def Block.mainEn (b : Block) (v : Bool) : Block :=
  if b.pins.mainEn = v then b
  else { b with pins := { b.pins with mainEn := v, lowRails := if v then b.pins.lowRails else b.pins.lowRails.filter (· == 2) } }.emit (.pin 0 v)

/-- Steps 4 and 5 of R104: records, the duty archive, the field outputs released, every domain but the Furnace off,
MAIN_EN 0. -/
def Block.hibernateDown (b : Block) : Block :=
  let left := b.baseOf b.mode.mode
  let b1 := b.hibernateRecords.dutyFold.stationsLeave
  let b2 := b1.downTo left .hibernate
  let b3 := if left.has 2 || b1.coreA == false then b2 else b2.coreAOff
  let b4 := { b3 with regs := { b3.regs with plain := staticBridge b3.regs.plain, live := [], retained := [] }, images := { engHash := b3.images.engHash } }
  let b5 := { b4 with mode := { b4.mode with mode := .hibernate, acc := {}, drain := none } }
  (b5.mainEn false).put Obj.debugState (b.get Obj.debugState)

/-- The commit point of an entry passes: the wake latch is tested and closed, and the domains power down. -/
def Block.entryCommit (b : Block) (e : Entry) : Block :=
  let b1 := b.hibernateDown
  { b1 with mode := { b1.mode with entry := some { e with committed := true } } }

/-- A wake starts from Hibernate (R105, R498): the cause is recorded and MAIN_EN rises; the rails are awaited. -/
def Block.wakeStart (b : Block) (bits : Nat) (target : Mode) : Block :=
  let b1 := (b.put Obj.wakeCause bits).add Obj.wakeCount
  { b1 with mode := { b1.mode with trans := .waking, target := target, waking := some b.now, held := 0 } }.mainEn true

/-- The target of a wake: NIGHT_TARGET for PWR_OK, UNPOWERED_TARGET for every other source (R86). -/
def Block.wakeTarget (b : Block) (bits : Nat) : Mode :=
  Mode.ofNum (b.get (if bitSet bits 3 then Obj.nightTarget else Obj.unpoweredTarget))

/-- An entry completes (R104 step 5); a wake held since the commit point starts at once, replayed (R102). -/
def Block.entryDone (b : Block) : Block :=
  let held := b.mode.held
  let b1 := { b with mode := { b.mode with trans := .none, target := .hibernate, entry := none, hibSince := b.now } }
  if held = 0 then b1 else b1.wakeStart (held + 64) (b1.wakeTarget held)

/-- The steps of an entry under way that lie before this tick: the commit point 0.6 ms and the end 1.0 ms after its
start. A wake edge in the tick of the commit point counts as before it (R102). -/
def Block.settleEntry (b : Block) : Block :=
  match b.mode.entry with
  | none => b
  | some e =>
    let b1 := if !e.committed && e.start + us 600 < b.now then b.entryCommit e else b
    if (match b1.mode.entry with
      | some x => x.committed
      | none => false) && e.start + us 1000 ≤ b1.now then b1.entryDone else b1

/-- WAKE_ENABLE as it reads: the presence and seal bits are fixed at 1 (R101, R107). -/
def Block.wakeEnabled (b : Block) (bit : Nat) : Bool := bit == 1 || bit == 2 || bitSet (b.get Obj.wakeEnable) bit

/-- An entry into Hibernate is abandoned for wake sources: the device stays in the mode that it was leaving (R102,
R536). -/
def Block.entryAbandon (b : Block) (bits : Nat) : Block :=
  let b1 := { b with mode := { b.mode with trans := .none, target := b.mode.mode, entry := none, drain := none } }
  ((b1.put Obj.entryAbandoned 1).openAcceptance).notice 0x0404 Obj.entryAbandoned noRow
    [b.mode.mode.num, Mode.hibernate.num, bits]

/-- The event of a wake source (R101 to R103): it wakes the device from Hibernate, abandons an entry before its commit
point, or is held after it and during a drain. In any other state it has no effect as a wake. -/
def Block.wakeLatch (b : Block) (bit : Nat) : Block :=
  if !b.wakeEnabled bit then b
  else
    match b.mode.entry with
    | some e =>
      if e.committed then { b with mode := { b.mode with held := setBit b.mode.held bit } } else b.entryAbandon (2 ^ bit)
    | none =>
      if b.drainHolds then { b with mode := { b.mode with held := setBit b.mode.held bit } }
      else
      match b.mode.mode with
      | .hibernate => if b.mode.waking.isSome then b else b.wakeStart (2 ^ bit) (b.wakeTarget (2 ^ bit))
      | _ => b

/-! ### The moves of R86 -/

/-- Core-A powers up from Day Watch on the way to a mode: a start of kind 3 is due (R500, R504). -/
def Block.startCoreA (b : Block) (target : Mode) (cause : Nat) : Block :=
  { b.active with
    mode := { b.active.mode with trans := .waking, target := target }
    boot := some
      { kind := 3, left := .dayWatch, alive := .dayWatch, target := target, cause := cause } }

/-- The device moves to a mode with no drain left to run. -/
def Block.goTo (b : Block) (target : Mode) (cause : Nat) : Block :=
  if target = .hibernate then b.entryStart cause
  else if b.mode.mode = .dayWatch then b.startCoreA target cause
  else b.moveTo target cause

/-- The device moves to a mode, after a drain where accepted work is held (R89). -/
def Block.leaveFor (b : Block) (target : Mode) (cause : Nat) : Block :=
  if b.frames.isEmpty then b.goTo target cause
  else b.drainStart true target (b.now + secs (b.get Obj.drainLead)) cause

/-- PWR_OK high in Day Watch or Field Only takes the device to NIGHT_TARGET (R86). -/
def Block.mainsBack (b : Block) : Block :=
  if b.pins.pwrOk && b.mode.trans = .none && (b.mode.mode = .dayWatch || b.mode.mode = .fieldOnly) && !b.recovery then
    let t := b.serviceTarget (Mode.ofNum (b.get Obj.nightTarget))
    if t = b.mode.mode then b else b.goTo t 2
  else b

/-- The enabled wake sources that were held during a drain. -/
def Block.heldWakes (b : Block) : Nat :=
  ((List.range 6).filter fun i => bitSet b.mode.held i && b.wakeEnabled i).foldl setBit 0

/-- DRAIN_COMPLETE: with no accepted work held, the entry to the target begins (R96 step 5). In Maintenance the base
mode becomes Field Only after a dawn drain, or Relay after a station drain. An entry into Hibernate is abandoned for a
wake source that was held (R102). -/
def Block.drainDone (b : Block) : Block :=
  match b.mode.drain with
  | none => b
  | some d =>
    if !d.closed || b.frames.any (fun f => d.covers f) then b
    else
      let to_ : Mode := if b.mode.mode = .maintenance then .maintenance else d.target
      let b1 := b.drainStations.notice 0x0403 Obj.transition noRow ([b.mode.mode.num, to_.num] ++ bytesBE 4 d.flushed)
      if b.mode.mode = .maintenance then
        let a := b1.baseOf .maintenance
        let z : Mode := if d.dawn then .fieldOnly else .relay
        let b2 := (b1.stationsLeave.downTo a z).put Obj.maintBase z.num
        b2.entered .maintenance .maintenance d.cause
      else if d.target = .hibernate && b.heldWakes ≠ 0 then b1.entryAbandon b.heldWakes
      else b1.goTo d.target d.cause

/-- The transition of a drain under way shows a new target: that of the drain as a function of the one it had. -/
def Block.drainAims (b : Block) (f : Mode → Mode) : Block :=
  match b.mode.drain with
  | some d => { b with mode := { b.mode with target := f d.target, drain := some { d with target := f d.target } } }
  | none => b

/-- With Maintenance end the test transmissions and an unlocked debug port (R165, R398). -/
def Block.maintEnds (b : Block) : Block :=
  let b1 := radios3.foldl (fun (c : Block) r => if c.get (Obj.testMode.of r) = 0 then c else (c.writeTestMode r 0).2) b
  if b1.get Obj.debugState = 2 then b1.debugSet (if b1.is Obj.sbEnforced then 1 else 0) else b1

/-- Leaving Maintenance to its base mode, where a drain that began in Maintenance goes on to DAY_TARGET: Degraded and
Full Service as the fences say, test transmissions end, debug locks (R87, R165, R398). -/
def Block.leaveMaint (b : Block) (cause : Nat) : Block :=
  let base := Mode.ofNum (b.get Obj.maintBase)
  let t := if base = .degraded then b.serviceTarget .fullService else base
  (b.maintEnds.modeShift t cause).drainAims fun x => if x = .maintenance then Mode.ofNum (b.get Obj.dayTarget) else x

/-- Maintenance is entered: the mode left is its base (R86). An entry into Hibernate that has not reached its commit
point ends (DEDUCED, log entry 175); a drain under way goes on, its target kept for a return to the mode left (R88).
-/
def Block.enterMaint (b : Block) : Block :=
  let b0 := if b.mode.entry.isSome then
      { b with mode := { b.mode with trans := .none, target := b.mode.mode, entry := none } }.openAcceptance
    else b
  let b1 := (b0.put Obj.maintBase b.mode.mode.num).modeShift .maintenance 7
  match b1.mode.drain with
  | some _ => { b1 with mode := { b1.mode with target := .maintenance } }
  | none => b1

/-- The presence window is open. -/
def Block.windowNow (b : Block) : Bool := b.window.isSome

/-- The hardware condition of Maintenance, on its rising edge (R88): from Day Watch, Core-A powers up to Field Only
first. -/
def Block.maintCheck (b : Block) : Block :=
  let both := b.pins.maintFitted && b.windowNow
  let rise := both && !b.mode.both
  let b1 := { b with mode := { b.mode with both := both } }
  if rise then
    match b1.mode.mode with
    | .fieldOnly | .relay | .fullService | .degraded => b1.enterMaint
    | .dayWatch =>
      -- accepted work is drained first (R89); an entry into Hibernate before its commit point ends (log entry 175)
      let b2 := { b1 with mode := { b1.mode with entry := none } }
      match b2.mode.drain with
      | some d => { b2 with mode := { b2.mode with target := .fieldOnly, drain := some { d with target := .fieldOnly, cause := 7 } } }
      | none => if b2.mode.trans = .waking then b2 else b2.startCoreA .fieldOnly 7
    | _ => b1
  else b1

/-- A write of MODE_REQUEST (R60, R86, R87, R421): the result code and the effect. -/
def Block.requestMode (b : Block) (v : Nat) : Nat × Block :=
  let m := b.mode.mode
  let base := b.get Obj.maintBase
  let took (c : Block) : Nat × Block := (0, c.put Obj.modeRequest v)
  if v = 0 || decide (6 < v) || (v = 6 && !(m == .maintenance && base == 6)) then (6, b)
  else if b.mode.trans ≠ .none then
    (if v = b.mode.target.num || (v = 5 && b.mode.target = .degraded) then (0, b) else (9, b))
  else if v = m.num || (v = 5 && m = .degraded && b.serviceTarget .fullService = .degraded) then took b
  else if m = .maintenance then
    (if v = base then took (b.leaveMaint 0) else (9, b))
  else if 4 ≤ v && !b.pins.pwrOk then (9, b)
  else if v = 5 && b.get Obj.lehrStep = 4 then (9, b)
  else
    let t := b.serviceTarget (Mode.ofNum v)
    if m.mains then
      if v ≤ 3 then took (b.drainStart true t (b.now + secs (b.get Obj.drainLead)) 0)
      else if v = 4 then took (b.drainStart false t (b.now + secs (b.get Obj.drainLead)) 0)
      else took (b.moveTo t 0)
    else if v ≤ 3 then took (b.leaveFor t 0)
    else took (b.goTo t 0)

/-- DAWN_DRAIN_START: the drain start time of the schedule in a mode that runs it, DRAIN_LEAD before DAWN (R86, R94 to
R96). A station drain under way gives way to it (DEDUCED, log entry 176). -/
def Block.dawnDrain (b : Block) : Block :=
  let free := match b.mode.drain with
    | some d => !d.dawn
    | none => decide (b.mode.trans = .none)
  if b.baseMode.mains && free && b.drainTime then
    let target := if b.mode.mode = .maintenance then .maintenance else Mode.ofNum (b.get Obj.dayTarget)
    b.drainStart true target (b.now + (secs (b.get Obj.drainLead) - b.ticksInSecond)) 1
  else b

/-- CHIP_IDLE_EXPIRY (R92, R93): CHIP_IDLE_TIME after the last activity, entry into Hibernate from Day Watch or Field
Only without PWR_OK. -/
def Block.chipIdle (b : Block) : Block :=
  let m := b.mode.mode
  if (m = .dayWatch || m = .fieldOnly) && b.mode.trans = .none && !b.pins.pwrOk && bitSet (b.get Obj.chipIdleModes) m.num &&
      decide (b.mode.lastActivity + secs (b.get Obj.chipIdleTime) ≤ b.now) then
    b.leaveFor .hibernate 3
  else b

/-! ### The power-fail path (R90, R132) -/

/-- The power-fail path with its trigger, 0 PFW_N and 1 PWR_OK: acceptance closes, the held count is recorded, and the
device powers down to POWERFAIL_TARGET. -/
def Block.powerFail (b : Block) (trigger : Nat) : Block :=
  let m := b.mode.mode
  if m.mains || m = .maintenance then
    let n := b.get Obj.acceptedHeld
    let target := Mode.ofNum (b.get Obj.powerfailTarget)
    let drain := if b.mode.trans = .draining then 1 else 0
    let b0 := if m = .maintenance then b.maintEnds else b
    let b1 := b0.closeAcceptance.postUrgent
      { type := 0x0002, payload := bytesLE 4 n ++ [trigger, m.num, drain], first := true }
    let b2 := ((b1.add Obj.lostPower n).put Obj.lostPowerLast n).put Obj.acceptedHeld 0
    let b3 := { b2 with frames := [], gth := {}, fwd := { b2.fwd with misses := [], filled := [], line := [none, none] } }
    let note := [m.num, target.num] ++ bytesBE 4 n
    let b4 := { b3 with mode := { b3.mode with trans := .none, drain := none, entry := none } }.swapAbort 6
    if target = .hibernate then
      let b5 := b4.hibernateDown
      { b5 with mode := { b5.mode with
          trans := .none, target := .hibernate, hibSince := b.now, powerFailOwed := some note } }
    else (b4.notice 0x0405 Obj.lostPowerLast noRow note).moveTo target 6
  else b

/-- PWR_OK rises (R86): a wake from Hibernate, or the way to NIGHT_TARGET; during a drain it is held (R103). -/
def Block.pwrOkRise (b : Block) : Block :=
  let b1 := { b with pins := { b.pins with pwrOk := true } }
  if b1.drainHolds then { b1 with mode := { b1.mode with held := setBit b1.mode.held 3 } }
  else (b1.wakeLatch 3).mainsBack

/-- PWR_OK falls (R86): ZX_MISSING ends (R360); the chip idle timer starts to run (R92). -/
def Block.pwrOkFall (b : Block) : Block := (({ b with pins := { b.pins with pwrOk := false } }.active).setAlarm 5 0 false).powerFail 1

/-! ### Wake (R498) -/

/-- RAILS_GOOD: the PMIC reports rails good during a wake. The records and the state of a start from Hibernate, and the
start is due (R498, R501). -/
def Block.railsGood (b : Block) (vioB33 : Bool) : Block :=
  if b.mode.mode = .hibernate && b.mode.waking.isSome then
    let b1 := b.put Obj.vioBLevel (if vioB33 then 1 else 0)
    let b2 := (b1.coldState.resetRecord 9 0 .hibernate).regionStart
    let b3 := if b2.get Obj.debugState = 2 then b2.debugSet (if b2.is Obj.sbEnforced then 1 else 0) else b2
    { b3.dutyRestore with
      mode := { b3.mode with waking := none }
      boot := some { kind := 0, left := .hibernate, alive := .hibernate, target := b.mode.target } }
  else b

/-- RAIL_TIMEOUT_EXPIRY: RAIL_TIMEOUT after MAIN_EN (R498). -/
def Block.railTimeout (b : Block) : Block :=
  if b.mode.mode = .hibernate && b.mode.waking.any (fun w => decide (w + ms (b.get Obj.railTimeout) ≤ b.now)) then
    let b1 := { b with mode := { b.mode with trans := .none, target := .hibernate, waking := none } }.mainEn false
    let b2 := ((b1.add Obj.railFails).add Obj.brownouts).put Obj.lastBrownoutRail 15
    b2.post 0x0052 ([15, 0, 0, 0] ++ bytesLE 4 (b.get Obj.railTimeout * 1000)) (first := true)
  else b

/-- DUSK_ALARM (R94, R95): DUSK_LEAD before the scheduled DUSK the RTC alarm wakes the device from Hibernate. -/
def Block.duskAlarm (b : Block) : Block := if b.duskTime then b.wakeLatch 0 else b

/-- WAKE_ALARM_DELAY_EXPIRY: WAKE_ALARM_DELAY seconds after the entry into Hibernate (R101). -/
def Block.wakeAlarm (b : Block) : Block :=
  let d := b.get Obj.wakeAlarmDelay
  if d ≠ 0 && b.mode.mode = .hibernate && b.mode.entry.isNone && decide (b.mode.hibSince + secs d ≤ b.now) then b.wakeLatch 0
  else b

/-- A pin set in WAKE_GPIO_MASK is at its level in WAKE_GPIO_LEVEL (R101); bit n of `levels` is the level of GPIOn. -/
def Block.gpioWakes (b : Block) (levels : Nat) : Bool :=
  (List.range 24).any fun i => bitSet (b.get Obj.wakeGpioMask) i && bitSet (b.get Obj.wakeGpioLevel) i == bitSet levels i

/-- WAKE_EVENT: the event of a wake source, by its bit of WAKE_ENABLE (R101). PWR_OK rises with its own, a pin must be
at its level. -/
def Block.wakeEvent (b : Block) (source levels : Nat) : Block :=
  match source with
  | 3 => b.pwrOkRise
  | 5 => if b.gpioWakes levels then b.wakeLatch 5 else b
  | i => b.wakeLatch i

/-! ### The Furnace supply (R86, R497) -/

/-- What survives the loss of VFUR: MRAM, OTP and the boot flash. The time of a retiring key counts as passed (R314). -/
def Block.vfurFall (b : Block) : Block :=
  { now := b.now, fresh := b.fresh
    regs :=
      { plain := staticBridge b.regs.plain, stored := b.regs.stored, fuse := b.regs.fuse, used := b.regs.used, slots := b.regs.slots }
    pins := { pwrOk := b.pins.pwrOk, maintFitted := b.pins.maintFitted, presenceLow := b.pins.presenceLow }
    cullet := { slots := b.cullet.slots, next := b.cullet.next }
    keys := b.keys.map fun k => { k with oldUntil := 0 }
    region := { active := b.region.active, pendingNew := b.region.pendingNew }
    dram := { mib := b.dram.mib }
    flash := { mib := b.flash.mib, suspend := b.flash.suspend }
    margin := { age := b.margin.age }
    losses := b.losses ++ [.furnace, .coreA, .coreF, .locals, .dram] }

/-- The POWER_FAIL notice that the log still owes (R132): its newest POWER_FAIL record, if no start but that of VFUR
follows it. -/
def Block.failOwed (b : Block) : Option (List Nat) :=
  let l := (b.cullet.slots.filter fun s => s.2.whole).map fun s => s.2
  let last (p : Slot → Bool) : Option Slot := (l.filter p).foldl (fun best s =>
    match best with
    | none => some s
    | some q => if q.seq < s.seq then some s else best) none
  match last fun s => s.type == 0x0002 with
  | none => none
  | some s =>
    if l.any fun q => q.type == 0x0001 && decide (s.seq < q.seq) && q.payload.getD 0 0 != 0 then none
    else some ([s.payload.getD 5 255, b.get Obj.powerfailTarget] ++ (s.payload.take 4).reverse)

/-- What a power-up finds of one place of the MRAM (R475): a cullet slot with such a word holds no record, a Stored
object falls to its other slot, and what the start reads counts in MRAM_UE; a word that only a load reaches counts
there (DEDUCED, log entry 216). -/
def Block.mramFault (b : Block) (f : MramFault) : Block :=
  match f with
  | .corrected => b.add Obj.mramCe
  | .slot idx sub row newer =>
    let s := b.regs.slots
    let k := (idx * 256 + sub) * 1048576 + row
    let s1 := if newer then { s with newBad := dropKey s.newBad k ++ [k] } else { s with oldBad := dropKey s.oldBad k ++ [k] }
    { b with regs := { b.regs with slots := s1 } }.add Obj.mramUe
  | .word a =>
    let w := a / 8 * 8
    if 0x20000000 ≤ w && decide (w < 0x20400000) then
      let s := b.regs.slots
      let b1 := { b with regs := { b.regs with slots := { s with bad := dropKey s.bad w ++ [w] } } }
      if w < 0x20040000 then
        let i := (w - 0x20000000) / 128
        let slots := match assocGet b1.cullet.slots i with
          | some x => assocPut b1.cullet.slots i { x with whole := false }
          | none => b1.cullet.slots
        { b1 with cullet := { b1.cullet with slots := slots } }.add Obj.mramUe
      else if 0x200C0000 ≤ w && decide (w < 0x200C4000) then b1.add Obj.mramUe
      else b1
    else b

/-- VFUR_RISE (R497): GD starts, the RTC starts from 0, the first seal check is due at the first RTC tick, the log is
scanned, the owed records are written, identity is checked, and the device is in Hibernate. A wake source that is
active already then wakes it. -/
def Block.vfurRise (b : Block) (active : Nat) (faults : List MramFault) : Block :=
  if b.mode.mode ≠ .off then b
  else
    let b0 := { b with
      time := { rtcBase := 0, rtcRef := b.now, vfurAt := b.now, dwRef := b.now }
      pins := { b.pins with presenceStuck := b.pins.presenceLow.isSome, pressed := false }
      sealing := { nextCheck := b.now + 9766 }
      mode := { mode := .hibernate, target := .hibernate, hibSince := b.now } }
    let b1 := (faults.foldl Block.mramFault b0.gdStart).culletScan
    let kept := b1.failOwed
    let owed := match b1.cullet.newest with
      | some s => s.type != 0x0002 && s.type != 0x0003
      | none => false
    let b2 := if owed then
        { b1.writeNow { type := 0x0002, payload := [255, 255, 255, 255, 2, 255, 255], first := true, flags := 8 } with
          mode := { b1.mode with powerFailOwed := some [255, 1, 255, 255, 255, 255] } }
      else { b1 with mode := { b1.mode with powerFailOwed := kept } }
    let b3 := b2.resetRecord 0 0 .off
    let b4 := match b3.cullet.queue with
      | [] => b3
      | p :: rest => { b3 with cullet := { b3.cullet with queue := rest } }.writeNow p
    let ids : List Reg := [Obj.lotId, Obj.wafer, Obj.dieX, Obj.dieY, Obj.testSite, Obj.testDate, Obj.eui64,
      Obj.strainBaseline, Obj.baselineS]
    let crc := crc32 ((ids.map fun r => b4.regOctets r).flatten)
    let fused := b4.get Obj.identityCrc
    let b5 := if crc = fused then b4.put Obj.identityOk 1
      else (b4.put Obj.identityOk 0).writeNow
        { type := 0x0014, payload := bytesLE 4 fused ++ bytesLE 4 crc, first := true }
    let b6 := (b5.regionStart.dutyStart.barAllDfs).put Obj.debugState b5.debugFused
    let b7 := { b6 with pins := { b6.pins with pwrOk := b6.pins.pwrOk || bitSet active 3 } }
    let bits := (List.range 6).filter fun i => bitSet active i && b7.wakeEnabled i
    if bits.isEmpty then b7
    else
      let mask := bits.foldl setBit 0
      b7.wakeStart mask (b7.wakeTarget mask)

/-! ### Brown-outs (R520) and other resets -/

/-- BROWNOUT: a rail stays below its limit; the main rails are monitored while MAIN_EN is 1 (DEDUCED, log entry 217).
VCORE, VSRAM and VFUR make a cold reset with source 8. -/
def Block.brownout (b : Block) (rail lowest dur : Nat) : Block :=
  if b.mode.mode = .off || 7 ≤ rail || (rail ≠ 2 && !b.pins.mainEn) then b
  else
    let b0 := { b with pins := { b.pins with lowRails := if b.pins.lowRails.contains rail then b.pins.lowRails
        else b.pins.lowRails ++ [rail] } }
    let b1 := (b0.add Obj.brownouts).put Obj.lastBrownoutRail rail
    let b2 := b1.post 0x0052 ([rail, 0] ++ bytesLE 2 (min lowest 65535) ++ bytesLE 4 (min dur 0xFFFFFFFF)) (first := true)
    if rail ≤ 2 then b2.coldReset 8 else b2

/-- BROWNOUT_END: the rail is back above its limit. -/
def Block.brownoutEnd (b : Block) (rail : Nat) : Block :=
  { b with pins := { b.pins with lowRails := b.pins.lowRails.filter (· != rail) } }

end Sys2Proof.Machine
end

