-- ==== Sys2Proof/Machine/Presence.lean ====
section
/-!
DEFINITION. Presence, the maintenance jumper, the seal loop, key slots, anti-rollback, the debug port and identity
bindings (R381 to R401). The actions of written objects answer a result code of R67 with the block after the write.
-/

namespace Sys2Proof.Machine

/-! ### The presence window (R381 to R383) -/

/-- The presence window closes with a cause: 0 expiry, 1 long hold, 2 PRESENCE_CLOSE. -/
def Block.closeWindow (b : Block) (cause : Nat) : Block :=
  match b.window with
  | none => b
  | some _ => ({ b with window := none }.notice 0x0302 Obj.windowOpen noRow [cause]).maintCheck

/-- PRESENCE_N after its filter. A high input may be pressed again. -/
def Block.presenceEdge (b : Block) (low : Bool) : Block :=
  let p := b.pins
  if low then { b with pins := { p with presenceLow := some (p.presenceLow.getD b.now) } }
  else { b with pins := { p with presenceLow := none, presenceStuck := false, pressed := false } }

/-- What a press event does: the window opens, the press is recorded and noticed (R381). -/
def Block.pressEvent (b : Block) : Block :=
  let len := b.get Obj.presenceWindow
  let b1 := { b with window := some (b.now + secs len) }.add Obj.presenceSeq
  let seq := b1.get Obj.presenceSeq
  let seal_ := b1.get Obj.sealState
  let b2 := b1.post 0x0020 (bytesLE 4 seq ++ bytesLE 2 len ++ [seal_])
  (b2.notice 0x0301 Obj.presenceSeq noRow (bytesBE 4 seq ++ bytesBE 2 len ++ [seal_])).maintCheck.active

/-- A press event, one for each time that PRESENCE_N goes low and stays so for 0.5 s (R381). It wakes the device
first, and acts then (R102); during a drain that holds wake events it waits for the target mode (R103). -/
def Block.presencePress (b : Block) : Block :=
  if b.mode.mode = .off || b.pins.presenceStuck || b.pins.pressed ||
      !b.pins.presenceLow.any (fun w => decide (w + ms 500 ≤ b.now)) then b
  else
    let b1 := { b with pins := { b.pins with pressed := true } }
    if b1.drainHolds then b1.wakeLatch 1 else (b1.wakeLatch 1).pressEvent

/-- PRESENCE_N has been low for 10 s (R382): the window closes, and the input must go high before another press. -/
def Block.presenceHold (b : Block) : Block :=
  if b.mode.mode = .off || b.pins.presenceStuck || !b.pins.presenceLow.any (fun w => decide (w + secs 10 ≤ b.now)) then b
  else { b with pins := { b.pins with presenceStuck := b.pins.presenceLow.isSome } }.closeWindow 1

/-- The window expires at its end (R382). -/
def Block.windowExpiry (b : Block) : Block := if b.window.any fun w => decide (w ≤ b.now) then b.closeWindow 0 else b

/-- A write of PRESENCE_CLOSE (R382). -/
def Block.writePresenceClose (b : Block) (v : Nat) : Nat × Block := (0, if v = 1 then b.closeWindow 2 else b)

/-! ### The maintenance jumper (R385) -/

/-- MAINT_N takes a level after its filter. -/
def Block.maintChange (b : Block) (fitted : Bool) : Block :=
  if b.pins.maintFitted = fitted then b
  else if b.mode.mode = .off then { b with pins := { b.pins with maintFitted := fitted } }
  else
    let b1 := { b with pins := { b.pins with maintFitted := fitted } }.post 0x0021 [if fitted then 1 else 0]
    let b2 := (b1.notice (if fitted then 0x0303 else 0x0304) Obj.maintFitted).maintCheck.active
    if !fitted && b2.mode.mode = .maintenance then b2.leaveMaint 7 else b2

/-! ### The seal loop (R387 to R390) -/

/-- The number of ones of a 16-bit word. -/
def onesOf (w : BitVec 16) : Nat := ((List.range 16).filter fun i => w.getLsbD i).length

/-- A word that GD does not reject (R388). -/
def sealUsable (w : BitVec 16) : Bool := decide (4 ≤ onesOf w) && decide (onesOf w ≤ 12)

/-- The chips of a word, most significant bit first: one for each bit, or two with Manchester coding (R388). -/
def sealChips (manchester : Bool) (w : BitVec 16) : List Bool :=
  (List.range 16).flatMap fun i =>
    let bit := w.getLsbD (15 - i)
    if manchester then [bit, !bit] else [bit]

/-- A check passes when every sample matches its chip. -/
def Block.sealPass (b : Block) (w : BitVec 16) (samples : List Bool) : Bool :=
  samples == sealChips (b.get Obj.sealCoding == 1) w

/-- The cause that a failed confirming check gives (R389). -/
def sealCause (samples : List Bool) : Nat :=
  if samples.all (!·) then 1 else if samples.all (·) then 2 else 3

/-- The seal is intact. -/
def Block.sealIntact (b : Block) : Block := { b with sealing := { b.sealing with confirm := none, passes := 0 } }.put Obj.sealState 1

/-- What a seal event does (R389). -/
def Block.sealBroken (b : Block) (cause : Nat) : Block :=
  let b2 := ((b.put Obj.sealState 2).put Obj.sealTripped 1).add Obj.sealEvents
  let b3 := (b2.put Obj.sealLastCause cause).post 0x0022 [cause] (first := true)
  (b3.notice 0x0305 Obj.sealState noRow [cause]).active

/-- A seal event (R389). During a drain that holds wake events it waits for the target mode (R103). -/
def Block.sealEvent (b : Block) (cause : Nat) : Block :=
  let b1 := { b with sealing := { b.sealing with confirm := none, passes := 0 } }
  if b1.drainHolds then
    let b2 := b1.wakeLatch 2
    { b2 with mode := { b2.mode with heldSeal := some (b2.mode.heldSeal.getD cause) } }
  else (b1.wakeLatch 2).sealBroken cause

/-- The wake events that a drain held are delivered to their owners once the device is in its target mode, or stays in
the mode that it was leaving (R102, R103). -/
def Block.deliverHeld (b : Block) : Block :=
  if b.mode.held = 0 || b.mode.trans ≠ .none then b
  else
    let held := b.mode.held
    let seal_ := b.mode.heldSeal
    let b1 := { b with mode := { b.mode with held := 0, heldSeal := none } }
    let b2 := if bitSet held 3 then (b1.wakeLatch 3).mainsBack else b1
    let b3 := match seal_ with
      | some cause => (b2.wakeLatch 2).sealBroken cause
      | none => b2
    if bitSet held 1 then (b3.wakeLatch 1).pressEvent else b3

/-- The next check of the schedule is SEAL_PERIOD after this one's time (R388). -/
def Block.sealNext (b : Block) : Block :=
  { b with sealing := { b.sealing with nextCheck := b.sealing.nextCheck + ms (b.get Obj.sealPeriod) } }

/-- SEAL_DRV carries the chips of a word, and is low between checks (R388). -/
def Block.sealSend (b : Block) (w : BitVec 16) : Block :=
  ((sealChips (b.get Obj.sealCoding == 1) w).foldl (fun (c : Block) x => c.emit (.pin 1 x)) b).emit (.pin 1 false)

/-- SEAL_CHECK: a check of the SEAL_PERIOD schedule, once its time has come, with the word sent and the samples taken
(R388, R389). A word with fewer than 4 ones or zeros is redrawn and makes no check. -/
def Block.sealCheck (b : Block) (w : BitVec 16) (samples : List Bool) : Block :=
  if b.mode.mode = .off || !b.is Obj.sealEnable || !sealUsable w || decide (b.now < b.sealing.nextCheck) then b
  else
    let b1 := b.sealNext.sealSend w
    let pass := b1.sealPass w samples
    if b1.get Obj.sealState = 2 then
      if !pass then { b1 with sealing := { b1.sealing with passes := 0 } }
      else if b1.sealing.passes < 2 then { b1 with sealing := { b1.sealing with passes := b1.sealing.passes + 1 } }
      else b1.sealIntact.notice 0x0306 Obj.sealState
    else if pass then b1.sealIntact
    else { b1 with sealing := { b1.sealing with confirm := some (b1.now + ms 10) } }

/-- SEAL_CONFIRM_CHECK: the confirming check 10 ms after a failed one (R389). -/
def Block.sealConfirm (b : Block) (w : BitVec 16) (samples : List Bool) : Block :=
  if b.mode.mode = .off || !b.is Obj.sealEnable || !b.sealing.confirm.any (fun t => decide (t ≤ b.now)) || !sealUsable w then b
  else
    let b1 := b.sealSend w
    if b1.sealPass w samples then b1.sealIntact else b1.sealEvent (sealCause samples)

/-- The record of a seal setting and the restart of the check schedule at the next RTC tick (R387, R388). -/
def Block.sealConfig (b : Block) (enableWrite : Bool) : Block :=
  let b1 := b.post 0x0023 ([b.get Obj.sealEnable, b.get Obj.sealCoding, b.get Obj.sealSample, 0] ++
    bytesLE 2 (b.get Obj.sealPeriod))
  if b1.is Obj.sealEnable then
    let b2 := { b1 with sealing := { b1.sealing with nextCheck := b1.nextRtcTick } }
    if enableWrite then { b2 with sealing := { nextCheck := b1.nextRtcTick } }.put Obj.sealState 0 else b2
  else if enableWrite then { b1 with sealing := {} }.put Obj.sealState 0
  else b1

/-- A write of SEAL_ENABLE, SEAL_PERIOD or SEAL_CODING (R387). -/
def Block.writeSeal (b : Block) (r : Reg) (v : Nat) : Nat × Block := (0, (b.put r v).sealConfig (r.sub == 1))

/-- A write of SEAL_CLEAR (R389). -/
def Block.writeSealClear (b : Block) (v : Nat) : Nat × Block :=
  if v ≠ 1 then (0, b)
  else if b.get Obj.sealState = 2 then (9, b)
  else (0, ((b.put Obj.sealTripped 0).post 0x0024 (bytesLE 4 (b.get Obj.presenceSeq))).notice 0x0307 Obj.sealTripped)

/-! ### Key slots and anti-rollback (R394 to R397) -/

/-- The first 8 octets of a slot's hash, as KEY_SLOT records them. -/
def Block.slotHead (b : Block) (s : Nat) : List Nat := bytesBE 8 (b.get Obj.slotKeyHash s / 256 ^ 24)

/-- The record and the notice of a programmed slot. -/
def Block.keyRecord (b : Block) (s : Nat) : Block :=
  let st := b.get Obj.slotKeyState s
  (b.post 0x0026 ([s, st] ++ b.slotHead s)).notice 0x0308 Obj.slotKeyState s [s, st]

/-- Another slot than `s` is in state 1. -/
def Block.otherActive (b : Block) (s : Nat) : Bool :=
  (List.range 4).any fun i => i != s && b.get Obj.slotKeyState i == 1

/-- A write of KEY_HASH: the slot is fused and read back (R395). The first slot burns SB_ENFORCED. Where the read-back
does not match, what the slot then reads is left open. -/
def Block.writeKeyHash (b : Block) (s v : Nat) (readBack : Bool) : Nat × Block :=
  if b.get Obj.slotKeyState s ≠ 0 then (9, b)
  else if v = 0 then (6, b)
  else
    let (k, b0) := b.draw
    let held := if readBack then v else Config.freeNat k % 256 ^ 32
    let b1 := (b0.put Obj.slotKeyHash held s).put Obj.slotKeyState (if readBack then 1 else 2) s
    let b2 := b1.keyRecord s
    let b3 := if b2.is Obj.sbEnforced then b2 else b2.put Obj.sbEnforced 1
    let b4 := if b3.get Obj.debugState = 0 then b3.debugSet 1 else b3
    (if readBack then 0 else 9, b4)

/-- A write of REVOKE (R396). -/
def Block.writeRevoke (b : Block) (s v : Nat) : Nat × Block :=
  if v ≠ 1 then (0, b)
  else if !b.otherActive s || b.get Obj.bootKeyUsed = s then (9, b)
  else
    let b1 := b.put Obj.slotKeyState 2 s
    (0, (b1.post 0x0026 ([s, 2] ++ b1.slotHead s)).notice 0x0309 Obj.slotKeyState s [s])

/-- A write of ROLLBACK_SET (R397). -/
def Block.writeRollback (b : Block) (v : Nat) : Nat × Block :=
  let old := b.get Obj.rollback
  if old < v && decide (v ≤ b.get Obj.runningSecVersion) then
    (0, ((b.put Obj.rollback v).post 0x0027 [old, v]).notice 0x030A Obj.rollback noRow [old, v])
  else (6, b)

/-! ### The debug port (R398) -/

/-- A write of DEBUG_UNLOCK. -/
def Block.writeUnlock (b : Block) (v : Nat) : Nat × Block :=
  if v ≠ 1 then (0, b)
  else match b.get Obj.debugState with
    | 3 => (9, b)
    | 1 => (0, b.debugSet 2)
    | _ => (0, b)

/-- A write of DEBUG_LOCK. -/
def Block.writeDebugLock (b : Block) (v : Nat) : Nat × Block :=
  (0, if v = 1 && b.get Obj.debugState = 2 then b.debugSet 1 else b)

/-- A write of DEBUG_DISABLE. -/
def Block.writeDebugDisable (b : Block) (v : Nat) : Nat × Block :=
  (0, if v = 1 then (b.put Obj.debugDisable 1).debugSet 3 else b)

/-! ### Identity bindings (R393) -/

/-- A write of an identity binding. -/
def Block.writeBinding (b : Block) (r : Reg) (v : Nat) : Nat × Block :=
  let old := crc32 (b.regOctets r)
  let b1 := (b.put r v).add Obj.bindingSeq
  let seq := b1.get Obj.bindingSeq
  let b2 := b1.post 0x0028 (bytesLE 4 seq ++ [r.sub, 0] ++ bytesLE 4 old ++ bytesLE 4 (crc32 (b1.regOctets r)))
  (0, b2.notice 0x030C Obj.bindingSeq noRow (bytesBE 4 seq))

end Sys2Proof.Machine
end

