-- ==== Sys2Proof/Machine/Margins.lean ====
section
/-!
DEFINITION. The speed factor, strain sweeps, the lehr pass and its ladder, the margin estimate and the thermal ladder
(R413 to R427). Factors are exact: sv in units of 10^-4, st in units of 1/1,040,000, baselines in units of 2^-14, FX32
values in units of 2^-16, temperatures in 0.1 °C.
-/

namespace Sys2Proof.Machine

/-! ### The speed model (R413) -/

/-- sv of a VCORE in mV, in units of 10^-4: linear between the table's points, the end values outside. -/
def svOf (v : Nat) : Nat :=
  if v ≤ 700 then 8800
  else if v ≤ 750 then 8800 + 24 * (v - 700)
  else if v ≤ 800 then 10000 + 22 * (v - 750)
  else if v ≤ 820 then 11100 + 20 * (v - 800)
  else if v ≤ 850 then 11500 + 20 * (v - 820)
  else 12100

/-- st of a junction temperature in 0.1 °C, in units of 1/1,040,000. -/
def stOf (t : Int) : Nat :=
  if t ≤ -400 then 967200
  else if t ≤ 250 then 967200 + 112 * (t + 400).toNat
  else if t ≤ 1050 then 1040000 + 39 * (t - 250).toNat
  else if t ≤ 1250 then 1071200 + 52 * (t - 1050).toNat
  else 1081600

/-- The fused baseline of a cell in units of 2^-14 (R391). -/
def Block.baseline (b : Block) (cell : Nat) : Nat := octFieldBE (b.get Obj.strainBaseline) 96 (2 * cell) 2

/-- loss_cell in units of 2^-16, from CELL_S in the same units (R416). A cell with no baseline shows no loss. -/
def lossOf (base v : Nat) (t : Int) (cellS : Nat) : Int :=
  let full := base * svOf v * stOf t
  if full = 0 then 0 else 65536 - ((cellS * 16384 * 10000 * 1040000 / full : Nat) : Int)

/-! ### Plans (R414, R420, R421) -/

/-- A speed, in units of 2^-16, meets a plan's need raised by `percent` (R414, R419). -/
def Block.planMet (b : Block) (speed plan percent : Nat) : Bool :=
  decide (b.get Obj.planSReq plan * (100 + percent) ≤ speed * 100)

/-- The plan of the step in force is written where it changes, and its entry into or exit from Relay is asked
for (R420, R421). `old` is the step that was in force. -/
def Block.applyPlan (b : Block) (old : Nat) : Block :=
  let step := b.effStep
  if planOf step = planOf old then b
  else
    let b2 := b.writePlan
    let m := b2.mode.mode
    if step = 4 then
      if (m = .fullService || m = .degraded) && b2.mode.trans = Trans.none then
        b2.drainStart false .relay (b2.now + secs (b2.get Obj.drainLead)) 4
      else b2
    else if old = 4 && m = .relay && b2.mode.trans = Trans.none && b2.get Obj.nightTarget = 5 then
      b2.moveTo (b2.serviceTarget .fullService) 5
    else b2

/-- LEHR_STEP takes a value, and the plan follows. -/
def Block.setStep (b : Block) (v : Nat) : Block :=
  let old := b.effStep
  let b1 := b.put Obj.lehrStep v
  if b1.effStep = old then b1 else b1.applyPlan old

/-! ### The margin estimate (R425) -/

/-- Years until plan 0 fails at −40 °C with VCORE at `v`, in units of 2^-16: the loss allowed over the loss now, to the
fourth power, times the effective age, less that age; 100 at most. Years are of 8,766 h. -/
def marginYears (base v margin ageLoss ageHours : Nat) : Nat :=
  let full := base * 93 * svOf v
  let need := 82 * (100 + margin) * 16384 * 100
  if full ≤ need then 0
  else
    let allowed := (full - need) * 65536 / full
    if ageLoss = 0 then 6553600
    else if allowed ≤ ageLoss then 0
    else min 6553600 ((allowed ^ 4 - ageLoss ^ 4) * ageHours * 65536 / (ageLoss ^ 4 * 8766))

/-- The cell with the greatest loss of the last sweep. -/
def Block.worstCell (b : Block) : Nat :=
  (List.range 48).foldl (fun k i => if b.geti Obj.cellCellLoss k < b.geti Obj.cellCellLoss i then i else k) 0

/-- The two figures at the end of a pass, and MARGIN_LOW. -/
def Block.estimate (b : Block) : Block :=
  let hours := b.get Obj.effectiveAge
  if hours < 1000 then (b.put Obj.marginYears 6553600).put Obj.marginYearsNom 6553600
  else
    let base := b.baseline b.worstCell
    let loss := (b.geti Obj.ageLoss).toNat
    let at_ (v : Nat) : Nat := marginYears base v (b.get Obj.lehrMargin) loss hours
    let y := at_ (b.get Obj.vcoreMax)
    let b1 := (b.put Obj.marginYears y).put Obj.marginYearsNom (at_ (b.get Obj.vcoreMin))
    if y < b.get Obj.marginWarn then b1.notice 0x0503 Obj.marginYears noRow (bytesBE 4 y) else b1

/-! ### The pass (R417 to R419) -/

/-- A pass is due: it starts now, or when Core-A is on and no transition and no other pass is under way. -/
def Block.passDue (b : Block) : Block := { b with margin := { b.margin with due := true } }

/-- A pass that is due starts where it may (R417). -/
def Block.passMay (b : Block) : Block :=
  if b.margin.due && b.coreA && b.margin.pass.isNone && b.mode.trans = Trans.none then b.passStart else b

/-- The pass goes on with another state of its own. -/
def Block.setPass (b : Block) (p : Pass) : Block := { b with margin := { b.margin with pass := some p } }

/-- The end of every pass (R419). -/
def Block.passEnd (b : Block) (p : Pass) : Block :=
  let b1 := { b with margin := { b.margin with pass := none } }
  let b2 := ((b1.add Obj.lehrPasses).put Obj.lehrLast (time112 b1.presented)).estimate
  let step := b2.get Obj.lehrStep
  let tj := unsignedOf 1 (b2.geti Obj.tjNow / 10)
  let b3 := b2.post 0x0050 (bytesLE 4 (b2.get Obj.sMin) ++ bytesLE 2 (b2.get Obj.vcoreNow) ++ [step, tj] ++
    bytesLE 4 (b2.get Obj.marginYears))
  if step = p.step0 then b3
  else b3.notice 0x0501 Obj.lehrStep noRow ([p.step0, step] ++ bytesBE 2 (b3.get Obj.vcoreNow) ++ bytesBE 4 (b3.get Obj.sMin))

/-- A PMBus VOUT_COMMAND write of VCORE to its page: acknowledged, or failed after its two retries (R422). -/
def Block.vcoreTo (b : Block) (v : Nat) (ok : Bool) : Block :=
  let w := Out.pmbus (b.get Obj.vcorePage) v
  if ok then (b.emit w).put Obj.vcoreNow v else (((b.emit w).emit w).emit w).add Obj.pmbusFail

/-- VCORE moves to a value 5 mV at a time; a write that fails ends the move (R422). -/
def Block.vcoreWalk (b : Block) (v : Nat) (ok : Bool) : Nat → Block
  | 0 => b
  | k + 1 =>
    let now := b.get Obj.vcoreNow
    if now = v then b
    else
      let b1 := b.vcoreTo (if v < now then max v (now - 5) else min v (now + 5)) ok
      if ok then b1.vcoreWalk v ok k else b1

/-- The rung of the pass is set, and VCORE_SETTLE runs from now (R418). -/
def Block.settleStart (b : Block) (p : Pass) : Block := b.setPass { p with settling := true, since := b.now }

/-- A plan rung of the climb (R418): steps rise until S_MIN meets the plan, or the ladder ends short. -/
def Block.climbPlans (b : Block) (p : Pass) : Nat → Block
  | 0 => b.passEnd p
  | k + 1 =>
    let step := b.get Obj.lehrStep
    if b.planMet (b.get Obj.sMin) (planOf step) (b.get Obj.lehrMargin) then (b.put Obj.lehrShort 0).passEnd p
    else if step < 4 then (b.setStep (max step 1 + 1)).climbPlans p k
    else
      ((b.put Obj.lehrShort 1).notice 0x0502 Obj.lehrShort noRow
        (bytesBE 4 (b.get Obj.sMin) ++ bytesBE 4 (b.get Obj.planSReq 3))).passEnd p

/-- One rung of the climb: by voltage where a rung is left and not barred, else by the plan (R418, R422, R427). -/
def Block.climb (b : Block) (p : Pass) (ok : Bool) : Block :=
  let step := b.get Obj.lehrStep
  let v := b.get Obj.vcoreNow
  let p1 := { p with climbed := true }
  if v < b.get Obj.vcoreMax && b.get Obj.thermalStep = 0 && decide (step ≤ 1) && !p.noRung then
    let b1 := b.vcoreTo (min (v + 5) (b.get Obj.vcoreMax)) ok
    if ok then (b1.setStep 1).settleStart p1
    else b1.climbPlans { p1 with noRung := true } 6
  else b.climbPlans p1 6

/-- The relaxing of plans at the present voltage (R419 step 1). -/
def Block.relax (b : Block) : Nat → Block
  | 0 => b
  | k + 1 =>
    let step := b.get Obj.lehrStep
    if 2 ≤ step && b.planMet (b.get Obj.sMin) (planOf (step - 1)) (b.get Obj.lehrMargin + b.get Obj.lehrHyst) then
      (b.setStep (step - 1)).relax k
    else b

/-- A voltage rung of the descent, or the end of the pass (R419 steps 2 and 3, R427). -/
def Block.descend (b : Block) (p : Pass) (ok : Bool) : Block :=
  let step := b.get Obj.lehrStep
  let v := b.get Obj.vcoreNow
  let low := b.get Obj.vcoreMin
  if (step = 1 || decide (0 < b.get Obj.thermalStep)) && decide (low < v) then
    let b1 := b.vcoreTo (max low (v - 5)) ok
    if ok then b1.settleStart { p with trial := true } else b1.passEnd p
  else if step = 1 then (b.setStep 0).passEnd p
  else b.passEnd p

/-- What a sweep of the cells measures (R415, R416). -/
def Block.sweep (b : Block) (cells : List Nat) : Block :=
  let at_ (i : Nat) : Nat := cells.getD i 0
  let b1 := (List.range 48).foldl (fun (c : Block) i =>
    (c.put Obj.cellCellS (at_ i) i).puti Obj.cellCellLoss
      (lossOf (c.baseline i) (c.get Obj.vcoreNow) (c.geti Obj.tjNow) (at_ i)) i) b
  let low := (List.range 48).foldl (fun k i => if at_ i < at_ k then i else k) 0
  let worst := (List.range 48).foldl (fun (m : Int) i => max m (b1.geti Obj.cellCellLoss i)) 0
  ((b1.put Obj.sMin (at_ low)).put Obj.sMinCell low).puti Obj.ageLoss worst

/-- STRAIN_SWEEP_DONE: a sweep of the pass ends. `ok` tells whether PMBus acknowledges the rung that the pass asks for
next. -/
def Block.sweepDone (b : Block) (cells : List Nat) (ok : Bool) : Block :=
  match b.margin.pass with
  | none => b
  | some p =>
    if p.settling then b
    else
      let b1 := b.sweep cells
      let met := b1.planMet (b1.get Obj.sMin) (planOf (b1.get Obj.lehrStep)) (b1.get Obj.lehrMargin)
      if p.trial then
        if met then b1.descend { p with trial := false } ok
        else (b1.vcoreTo (min (b1.get Obj.vcoreNow + 5) (b1.get Obj.vcoreMax)) ok).passEnd p
      else if !met then b1.climb p ok
      else if p.climbed then (b1.put Obj.lehrShort 0).passEnd p
      else ((b1.put Obj.lehrShort 0).relax 4).descend p ok

/-- VCORE_SETTLE_EXPIRY: VCORE_SETTLE after a rung, the pass sweeps again (R418). -/
def Block.settleEnd (b : Block) : Block :=
  match b.margin.pass with
  | some p =>
    if p.settling && p.since + us (b.get Obj.vcoreSettle) ≤ b.now then b.setPass { p with settling := false } else b
  | none => b

/-- LEHR_PERIOD_EXPIRY, LEHR_PERIOD after the last one or after the power-up of Core-A (R417; DEDUCED, log entry 213).
-/
def Block.lehrPeriodEnd (b : Block) : Block :=
  if b.coreA && b.margin.periodFrom + secs (b.get Obj.lehrPeriod) ≤ b.now then
    { b with margin := { b.margin with periodFrom := b.now } }.passDue
  else b

/-- A write of LEHR_RUN (R417, R60). -/
def Block.writeLehrRun (b : Block) (v : Nat) : Nat × Block :=
  if v ≠ 1 then (0, b)
  else if b.margin.pass.isSome then (9, b)
  else (0, b.passDue)

/-- A write of VCORE_MIN or VCORE_MAX: VCORE moves into the new range at once, and a pass follows (R422). -/
def Block.writeVcore (b : Block) (r : Reg) (v : Nat) (ok : Bool) : Nat × Block :=
  let b1 := b.put r v
  let now := b1.get Obj.vcoreNow
  let out := if r.sub = 3 then decide (v < now) else decide (now < v)
  (0, if out then (b1.vcoreWalk v ok 32).passDue else b1)

/-! ### Heat (R424, R426, R427) -/

/-- The largest x below `lo + 2^k` with x^100 ≤ n, found bit by bit from `lo`. -/
def rootFrom (n lo : Nat) : Nat → Nat
  | 0 => lo
  | k + 1 => if (lo + 2 ^ k) ^ 100 ≤ n then rootFrom n (lo + 2 ^ k) k else rootFrom n lo k

/-- 2^((TJ − 90) / 10) s in units of 2^-16 s, TJ in 0.1 °C (R424). -/
def ageGain (tj : Int) : Nat :=
  let n := tj - 900
  let q := n / 100
  let x := rootFrom (2 ^ (1600 + (n % 100).toNat)) 65536 16
  if 0 ≤ q then x * 2 ^ q.toNat else x / 2 ^ (-q).toNat

/-- EFFECTIVE_AGE after one second of Core-A power. -/
def Block.ageBy (b : Block) (tj : Int) : Block :=
  let a := b.margin.age + ageGain tj
  let hour := 3600 * 65536
  { b with margin := { b.margin with age := a % hour } }.add Obj.effectiveAge (a / hour)

/-- THERMAL_STEP takes a value (R426, R427). -/
def Block.setThermal (b : Block) (v : Nat) : Block :=
  let old := b.get Obj.thermalStep
  if v = old then b
  else
    let eff := b.effStep
    let tj := unsignedOf 2 (b.geti Obj.tjNow)
    let b1 := b.put Obj.thermalStep v
    let b2 := if b1.effStep = eff then b1 else b1.applyPlan eff
    let b3 := if old = 0 then b2.add Obj.thermalEvents else b2
    let b4 := if old = 0 || v = 0 then
        b3.post 0x0051 (bytesLE 2 (b3.get Obj.tjPeak) ++ [v, if v = 0 then 1 else 0]) (first := true)
      else b3
    (b4.notice 0x0504 Obj.thermalStep noRow ([old, v] ++ bytesBE 2 tj)).passDue

/-- A junction reading of a powered radio becomes its DIE_TEMP. -/
def Block.dieRead (b : Block) (r : Radio) (t : Int) : Block :=
  if b.radioOn r then b.puti (Obj.dieTemp.of r) (t * 65536 / 10) else b

/-- A thermal check is due: 1 s after the last one (R426). -/
def Block.checkDue (b : Block) : Bool := b.margin.checkAt.all fun t => decide (t + secs 1 ≤ b.now)

/-- THERMAL_CHECK: the junction is read, the age counted, the ladder moved (R424, R426). -/
def Block.thermalCheck (b0 : Block) (ch8 h m l : Int) : Block :=
  if !b0.coreF || !b0.checkDue then b0
  else
    let b : Block := { b0 with margin := { b0.margin with checkAt := some b0.now } }
    let b1 := ((b.dieRead .h h).dieRead .m m).dieRead .l l
    let b2 := if b1.coreA && b1.is Obj.adcScan 8 then
        let (k, c) := b1.draw
        (c.puti Obj.adcValue (ch8 * 65536 / 10) 8).put Obj.adcRaw (Config.freeNat k % 65536) 8
      else b1
    let reads := (if b.coreA then [ch8] else []) ++ (if b.radioOn .h then [h] else []) ++
      (if b.radioOn .m then [m] else []) ++ (if b.radioOn .l then [l] else [])
    let tj := match reads with
      | [] => b.geti Obj.tjNow
      | x :: rest => rest.foldl max x
    let b3 := b2.puti Obj.tjNow tj
    let b4 := b3.puti Obj.tjPeak (max (b3.geti Obj.tjPeak) tj)
    let b5 := if b4.coreA then b4.ageBy tj else b4
    let step := b5.get Obj.thermalStep
    let cool (x : Option Nat) (c : Block) : Block := { c with margin := { c.margin with coolFrom := x } }
    let b6 :=
      if 10 * (b5.get Obj.thermalEnter : Int) ≤ tj then (cool none b5).setThermal (min 4 (step + 1))
      else if tj ≤ 10 * (b5.get Obj.thermalExit : Int) then
        let since := b5.margin.coolFrom.getD b5.now
        if 0 < step && since + secs (b5.get Obj.thermalHold) ≤ b5.now then (cool (some b5.now) b5).setThermal (step - 1)
        else cool (some since) b5
      else cool none b5
    if 10 * (b6.get Obj.lehrTempStep : Int) ≤ (tj - b6.margin.tjPass).natAbs then b6.passDue else b6

end Sys2Proof.Machine
end

