-- ==== Sys2Proof/Machine/Ops.lean ====
section
/-!
DEFINITION. Exceptions of the engines: their codes, the entry and the return (R445 to R447). One operation serves every
instruction that takes an exception, and one serves XRET.
-/

namespace Sys2Proof.Machine

/-- The exceptions of R446. -/
inductive Exc where
  | illegal | emulate | priv | trap | misalign | unmapped | privilege | domainOff | dramUe | bcdDigit | mcall
  deriving DecidableEq, Repr

/-- The code of an exception (R446). -/
def Exc.code : Exc → Nat
  | .illegal => 1
  | .emulate => 2
  | .priv => 3
  | .trap => 4
  | .misalign => 5
  | .unmapped => 6
  | .privilege => 7
  | .domainOff => 8
  | .dramUe => 9
  | .bcdDigit => 10
  | .mcall => 11

/-- The privilege that handles an exception taken at a privilege (R446). -/
def Exc.handledAt (e : Exc) (p : Priv) : Priv :=
  match e with
  | .mcall => .m
  | .emulate | .priv => .f
  | _ => if p = .m then .m else .f

/-- EPRIV of a privilege (R437). -/
def Priv.num : Priv → BitVec 2
  | .a => 0
  | .f => 1
  | .m => 2

/-- The engines that may reach A (R17, R438). -/
def hasA (n : Nat) : Bool := n ≤ 1 || n == 10

/-- EPRIV as an engine holds it after a write: on an engine that never reaches A, a write of 0 leaves it at 1 (R438). -/
def eprivOf (n : Nat) (v : BitVec 2) : BitVec 2 := if v = 0 && !hasA n then 1 else v

/-- The vector base of an entry (R445). -/
def Cpu.vector (c : Cpu) (p : Priv) : Word := if p = .m then Config.vectorM else c.xvec

/-- An engine at the entry of an exception (R445). -/
def Cpu.enter (c : Cpu) (e : Exc) (eaddr : Word) : Cpu :=
  let p := e.handledAt c.priv
  { c with
    epc := c.pc.setWidth 64
    ecause := BitVec.ofNat 64 e.code
    eaddr := eaddr
    epriv := c.priv.num
    ef := c.flags.word.setWidth 8
    exl := true
    priv := p
    pc := (c.vector p + BitVec.ofNat 64 (0x40 * e.code)).setWidth 40 }

/-- The counts of an entry (R464): EXCEPTIONS, LAST_ECAUSE, LAST_EPC, and MOULD_TRAPS for EMULATE. -/
def Block.countEntry (b : Block) (n : Nat) (e : Exc) : Block :=
  let b1 := (b.add (Obj.engExceptions.eng n)).put (Obj.engLastEcause.eng n) e.code
  let b2 := b1.put (Obj.engLastEpc.eng n) (b.cpu n).pc.toNat
  if e = .emulate then b2.add (Obj.engMouldTraps.eng n) else b2

/-- An engine takes an exception (R445). While EXL is 1 it is a double exception: the engine halts and its unit is
fenced with cause 3; on GD it is a Furnace fault (R447). -/
def Block.takeException (b : Block) (n : Nat) (e : Exc) (eaddr : Word) : Block :=
  if (b.cpu n).exl then (b.modCpu n fun c => { c with run := .halted }).fence n 3
  else (b.countEntry n e).modCpu n fun c => c.enter e eaddr

/-- The privilege that XRET returns to. EPRIV 3 names none; the choice is then open, the free value `k` (R437). -/
def Cpu.returnPriv (c : Cpu) (k : Nat) : Priv :=
  if c.epriv = 0 then .a else if c.epriv = 1 then .f else if c.epriv = 2 then .m
  else if Config.freeBool k then .m else .f

/-- XRET: F from EF, privilege from EPRIV, EXL clear, and on at EPC (R445). E stays as it is: only the event rules
change it (R437, R453; DEDUCED, log entry 49). -/
def Cpu.xret (c : Cpu) (k : Nat) : Cpu :=
  { c with flags := c.flags.write (c.ef.setWidth 64), priv := c.returnPriv k, exl := false, pc := c.epc.setWidth 40 }

/-- An engine returns from an exception, and the instruction retires (R445, R464). -/
def Block.exceptionReturn (b : Block) (n : Nat) : Block :=
  let k := b.fresh
  let b1 := if (b.cpu n).epriv = 3 then { b with fresh := k + 1 } else b
  (b1.modCpu n fun c => c.xret k).add (Obj.engRetired.eng n)

end Sys2Proof.Machine
end

