-- ==== Sys2Proof/Machine/Memory.lean ====
section
/-!
DEFINITION. The memories of the block: the octets that a list holds in one canonical form, the DRAM controller
(R478 to R489), the working store's and the boot flash's own events (R470, R492, R493) and the customer store (R476).
-/

namespace Sys2Proof.Machine

/-! ### Memory as a list -/

/-- What an octet that nothing has written reads as: 0xFF in the boot flash, 0 elsewhere (PRESUMED, log entry 15). -/
def blankAt (a : Nat) : Octet := if 0x40000000 ≤ a && decide (a < 0x80000000) then 0xFF#8 else 0#8

/-- The octet at an address. -/
def memGet (m : List Host.Cell) (a : Nat) : Octet := (assocGet m a).getD (blankAt a)

/-- Memory with one octet written; an octet that holds its blank value is not listed. -/
def memPut (m : List Host.Cell) (a : Nat) (v : Octet) : List Host.Cell :=
  if v = blankAt a then assocDel m a else assocPut m a v

/-- Memory with octets written from an address up. -/
def memStore (m : List Host.Cell) (a : Nat) : List Octet → List Host.Cell
  | [] => m
  | v :: rest => memStore (memPut m a v) (a + 1) rest

/-- `k` octets from an address up. -/
def memLoad (m : List Host.Cell) (a : Nat) : Nat → List Octet
  | 0 => []
  | k + 1 => memGet m a :: memLoad m (a + 1) k

/-- Memory with the octets from `lo` below `hi` blank. -/
def memClear (m : List Host.Cell) (lo hi : Nat) : List Host.Cell := m.filter fun c => decide (c.1 < lo) || decide (hi ≤ c.1)

/-- The canonical form: addresses strictly rising, and no octet listed that holds its blank value. -/
def memWf (m : List Host.Cell) : Bool := assocSorted m && m.all fun c => c.2 != blankAt c.1

/-- The base of the local memory of an engine (R31). -/
def localBase (n : Nat) : Nat := 0xE000000000 + n * 0x1000000

/-- Memory with the local memories of some engines emptied. -/
def memClearLocals (m : List Host.Cell) (l : List Nat) : List Host.Cell :=
  l.foldl (fun m n => memClear m (localBase n) (localBase (n + 1))) m

/-- The engines of a domain. -/
def enginesOf (d : Nat) : List Nat := (List.range 12).filter fun n => engineDomain n == d

/-- What a loss empties (R34, R471, R488, R501): a domain's part of the working store with its engines' local memories.
-/
def memLose (m : List Host.Cell) (l : Loss) : List Host.Cell :=
  match l with
  | .coreA => memClearLocals (memClear m 0x10000000 0x10580000) (enginesOf 2)
  | .coreF => memClearLocals (memClear m 0x10580000 0x10600000) (enginesOf 1)
  | .locals => memClearLocals m (List.range 11)
  | .dram => memClear m 0x100000000 0x300000000
  | .furnace => memClear m 0xE00B000000 0xE00B801000

/-- The engines whose general registers a loss takes. -/
def Loss.engines (l : Loss) : List Nat :=
  match l with
  | .coreA => enginesOf 2
  | .coreF => enginesOf 1
  | .furnace => [11]
  | .locals | .dram => []

/-! ### The DRAM layout (R479, R480) -/

/-- The engine slices of one channel. -/
def Dram.engineSlices (d : Dram) : Nat := d.slices - d.reserve

/-- Where an address of the DRAM window lies: channel, bank, row and column, or nothing beyond the usable range. The
reserve of channel A comes first, then that of channel B. -/
def Dram.placeOf (d : Dram) (addr : Nat) : Option (Nat × Nat × Nat × Nat) :=
  let o := addr - 0x100000000
  let k := o / 1792
  let ec := d.engineSlices
  if addr < 0x100000000 || 2 * d.slices ≤ k then none
  else
    let cj : Nat × Nat :=
      if k < 2 * ec then (if d.interleave then (k % 2, k / 2) else (k / ec, k % ec))
      else ((k - 2 * ec) / d.reserve, ec + (k - 2 * ec) % d.reserve)
    some (cj.1, cj.2 % 8, cj.2 / 8, 64 * (o % 1792 / 64) + o % 64)

/-- An address of the device reserve, whose items are mirrored. -/
def Dram.mirrored (d : Dram) (addr : Nat) : Bool :=
  decide (0x100000000 + d.engineOctets d.spill ≤ addr) && decide (addr < 0x100000000 + 2 * d.slices * 1792)

/-- A channel is fenced (R24). -/
def Block.chFenced (b : Block) (ch : Nat) : Bool := bitSet (b.get Obj.fabricFenced) (15 + ch)

/-- The DRAM domain serves now: initialised and not in self-refresh (R478, R488). -/
def Block.dramActive (b : Block) : Bool := b.dram.up && (b.get Obj.dramState == 1 || b.get Obj.dramState == 4)

/-- The DRAM controller changed. -/
def Block.modDram (b : Block) (f : Dram → Dram) : Block := { b with dram := f b.dram }

/-! ### Errors (R485) -/

/-- The channel's recent uncorrectable errors reach UE_FENCE_COUNT within 60 s, and it is fenced with cause 5. -/
def Block.ueFence (b : Block) (ch : Nat) : Block :=
  let mine := b.dram.ues.filter fun u => u.1 == ch && decide (b.now < u.2 + secs 60)
  if b.get Obj.ueFenceCount ≤ mine.length then
    (b.modDram fun d => { d with ues := d.ues.filter fun u => u.1 != ch }).fence (15 + ch) 5
  else b

/-- An uncorrectable word of a channel: the record and the count (R485 step 3). -/
def Block.dramError (b : Block) (ch addr : Nat) (mirror : Bool) : Block :=
  let b1 := (b.add Obj.dchUeCount 1 ch).post 0x0013 ([ch, if mirror then 1 else 0] ++ bytesLE 5 addr) (first := true)
  (b1.modDram fun d => { d with ues := d.ues ++ [(ch, b.now)] }).ueFence ch

/-! ### Service (R482, R483) -/

/-- The row of a request: channel, bank and row. -/
def Dram.rowOf (d : Dram) (r : DramReq) : Option (Nat × Nat × Nat) := (d.placeOf r.addr).map fun p => (p.1, p.2.1, p.2.2.1)

/-- A request may be served now: its channel serves, or the other holds its mirror, and no earlier request of its row
holds it back. An earlier pending write orders every later request of its row, and a write waits for every earlier one.
-/
def Block.dramEligible (b : Block) (r : DramReq) : Bool :=
  let d := b.dram
  match d.placeOf r.addr with
  | none => true
  | some p =>
    let training := d.training == some p.1 && !(d.mirrored r.addr && !r.write)
    let before := d.reqs.filter fun q => decide (q.id < r.id) && d.rowOf q == d.rowOf r
    !training && !before.any fun q => q.write || r.write

/-- Whether a request goes before another: by class, then age, then requester (R482). -/
def DramReq.before (a c : DramReq) : Bool :=
  decide (a.cls < c.cls) ||
    (a.cls == c.cls && (decide (a.at_ < c.at_) || (a.at_ == c.at_ && (decide (a.requester < c.requester) ||
      (a.requester == c.requester && decide (a.id < c.id))))))

/-- The request to serve next. -/
def Block.dramNext (b : Block) : Option DramReq :=
  (b.dram.reqs.filter b.dramEligible).foldl (fun (x : Option DramReq) r =>
    match x with
    | some y => if r.before y then some r else some y
    | none => some r) none

/-- The requester of a read meets DRAM_UE: an engine takes exception 0x09 at the instruction that waits for it (R35,
R445, R485). -/
def Block.dramFails (b : Block) (r : DramReq) : Block :=
  if 5 ≤ r.requester && decide (r.requester < 17) && !r.write && (b.cpu (r.requester - 5)).run == Run.running then
    b.takeException (r.requester - 5) .dramUe (BitVec.ofNat 64 r.addr)
  else b

/-- A request is served: 0 well, a corrected error counted, 1 from the mirror, 2 with DRAM_UE (R129, R485). -/
def Block.dramServe (b : Block) (r : DramReq) : Block :=
  let b1 := b.modDram fun d => { d with reqs := d.reqs.filter fun q => q.id != r.id, idleFrom := b.now }
  match b1.dram.placeOf r.addr with
  | none => b1
  | some p =>
    let other := b1.dram.mirrored r.addr && !b1.chFenced (1 - p.1)
    let b2 := b1.emit (.dram r.id p.1 (if other then 1 else 2))
    let b3 := if other then b2 else b2.dramFails r
    if b1.chFenced p.1 then b3
    else if r.ue && !r.write then b3.dramError p.1 r.addr other
    else (if r.ce && !r.write then b1.add Obj.dchCeCount 1 p.1 else b1).emit (.dram r.id p.1 0)

/-- The controller serves what it can. -/
def Block.dramDrain (b : Block) : Nat → Block
  | 0 => b
  | k + 1 =>
    if b.dramActive then
      match b.dramNext with
      | some r => (b.dramServe r).dramDrain k
      | none => b
    else b

/-- The controller serves every request that need not wait. It does so when a tick ends, since the requests of one
tick are ordered by class and requester whatever the order in which they are told (R482). -/
def Block.dramRun (b : Block) : Block := b.dramDrain b.dram.reqs.length

/-- Self-refresh ends: DRAM_SPREAD applies (R429), and what waited can be served. -/
def Block.dramExit (b : Block) : Block :=
  if b.dram.up && b.get Obj.dramState = 2 then
    let st := if b.chFenced 0 || b.chFenced 1 then 4 else 1
    let b1 := (b.put Obj.dramState st).put Obj.dramSpreadNow (b.get Obj.dramSpread)
    b1.modDram fun d => { d with waking := false, idleFrom := b.now }
  else b

/-- An access of an engine that does not queue: it cancels an entry into self-refresh, ends self-refresh, and the idle
timer starts again (R91, R488). -/
def Block.dramTouch (b : Block) : Block :=
  (b.dramExit).modDram fun d => { d with entering := none, idleFrom := b.now }

/-- DRAM_REQUEST: a request arrives, and cancels an entry into self-refresh that has not reached its commit point
(R482, R488). One beyond the usable range raises UNMAPPED at the engine that asks (R32) and is none of the
controller's. Requesters are numbered in the order of R482: edges H and M 0 and 1, the gather builder 2, the buffer
allocator 3, the queue manager 4, engine n at 5 + n, scrub 17. -/
def Block.dramRequest (b : Block) (cls requester addr : Nat) (write ce ue : Bool) : Block :=
  if !b.dram.up then b
  else if (b.dram.placeOf addr).isNone then
    if 5 ≤ requester && decide (requester < 17) && (b.cpu (requester - 5)).run == Run.running then
      b.takeException (requester - 5) .unmapped (BitVec.ofNat 64 addr)
    else b
  else
    let r : DramReq := { id := b.dram.nextReq, cls := min cls 3, requester, addr, write, ce, ue, at_ := b.now }
    b.modDram fun d => { d with
      reqs := d.reqs ++ [r], nextReq := d.nextReq + 1, idleFrom := b.now, entering := none
      waking := d.waking || b.get Obj.dramState == 2 }

/-- DRAM_SELF_REFRESH_EXIT: 5 µs after the first request (R488). -/
def Block.dramSelfRefreshExit (b : Block) : Block := if b.dram.waking then b.dramExit else b

/-- DRAM_IDLE_EXPIRY: DRAM_IDLE after the last request, an entry into self-refresh starts (R91, R488). -/
def Block.dramIdle (b : Block) : Block :=
  if b.dramActive && b.dram.reqs.isEmpty && b.dram.training.isNone && b.dram.entering.isNone &&
      decide (b.dram.idleFrom + us (b.get Obj.dramIdle) ≤ b.now) then
    b.modDram fun d => { d with entering := some b.now }
  else b

/-- The commit point of an entry into self-refresh, 0.2 µs after its start (R488). -/
def Block.dramSettle (b : Block) : Block :=
  match b.dram.entering with
  | none => b
  | some s =>
    if s + 64 ≤ b.now then
      let b1 := (b.modDram fun d => { d with entering := none, entered := s }).put Obj.dramState 2
      [0, 1].foldl (fun (c : Block) ch => if c.chFenced ch then c else c.add Obj.dchSrEntries 1 ch) b1
    else b

/-- AGE_LIMIT of a class (R495). -/
def Block.ageLimit (b : Block) (cls : Nat) : Nat :=
  us (b.get (match cls with
    | 0 => Obj.ageLimit1
    | 1 => Obj.ageLimit2
    | 2 => Obj.ageLimit3
    | _ => Obj.ageLimit4))

/-- DRAM_AGE_PROMOTE: a request has waited past its class's limit (R482). A request that came in class 0 counts in
DEADLINE_LATE, once (DEDUCED, log entry 215). -/
def Block.dramPromote (b : Block) (id : Nat) : Block :=
  match b.dram.reqs.find? fun r => r.id == id with
  | none => b
  | some r =>
    if r.late || decide (b.now < r.at_ + b.ageLimit r.cls) then b
    else
      let b1 := b.modDram fun d => { d with reqs := d.reqs.map fun q => if q.id = id then { q with cls := 0, late := true } else q }
      if r.cls = 0 then b1.add Obj.deadlineLate else b1

/-- DRAM_SCRUB: the patrol scrub reads a word (R486). -/
def Block.dramScrubbed (b : Block) (ch addr : Nat) (ce ue : Bool) : Block :=
  if !b.dramActive || b.chFenced ch || (b.dram.placeOf addr).isNone then b
  else if ue then b.dramError ch addr (b.dram.mirrored addr && !b.chFenced (1 - ch))
  else if ce then b.add Obj.dchCeCount 1 ch
  else b

/-- DRAM_REFRESH: a refresh of a bank falls due; at most 8 are postponed (R487). -/
def Block.dramRefreshDue (b : Block) (ch bank : Nat) (postpone : Bool) : Block :=
  if !b.dramActive || b.chFenced ch then b
  else
    let k := 8 * ch + bank
    let n := assocNat b.dram.postponed k
    if postpone && decide (n < 8) then b.modDram fun d => { d with postponed := assocPut d.postponed k (n + 1) }
    else if postpone then b
    else b.modDram fun d => { d with postponed := assocDel d.postponed k }

/-- DRAM_RETRAIN_START (R489): the two channels never retrain at once. -/
def Block.retrainStart (b : Block) (ch : Nat) : Block :=
  if b.dramActive && b.dram.training.isNone && !b.chFenced ch then b.modDram fun d => { d with training := some ch } else b

/-- DRAM_RETRAIN_DONE: what waited can be served; a second failure in a row fences the channel (R485, R489). -/
def Block.retrainDone (b : Block) (ch : Nat) (ok : Bool) : Block :=
  if b.dram.training = some ch then
    let n := if ok then 0 else b.dram.fails.getD ch 0 + 1
    let b1 := (b.modDram fun d => { d with training := none, fails := d.fails.set ch (n % 2) }).add Obj.dchRetrains 1 ch
    if n = 2 then b1.fence (15 + ch) 5 else b1
  else b

/-! ### The working store and the boot flash -/

/-- WS_SCRUB: what the working store's scrub, or an access, finds (R470). A journal line needs its mirror. -/
def Block.wsScrubbed (b : Block) (e : WsError) : Block :=
  let fault (c : Block) : Block := (c.add Obj.wsUe).coldReset 6
  if !b.coreF then b
  else
    match e with
    | .corrected => b.add Obj.wsCe
    | .journalLine => if b.dram.up then b.add Obj.journalRepaired else fault b
    | .spilledBuffer => b
    | .elsewhere => fault b

/-- The boot flash is fenced. -/
def Block.flashFenced (b : Block) : Bool := bitSet (b.get Obj.fabricFenced) 19

/-- XSPI_READ_TIMEOUT: a window read misses XSPI_TIMEOUT; its retry after the interface reset, if it fails as well,
fences the boot flash (R492). -/
def Block.flashTimeout (b : Block) : Block :=
  if !b.coreA || b.flashFenced then b
  else
    let again := match b.flash.retryAt with
      | some t => decide (b.now ≤ t + us (b.get Obj.xspiTimeout + 20))
      | none => false
    if again then { b with flash := { b.flash with retryAt := none } }.fence 19 6
    else { b with flash := { b.flash with retryAt := some b.now } }

/-- The octets of an operation's place: the octets programmed, the sector or the block (R493). -/
def FlashOp.span (f : FlashOp) : Nat × Nat :=
  match f.op with
  | 1 => (f.offset, f.data.length)
  | 2 => (f.offset / 4096 * 4096, 4096)
  | _ => (f.offset / 65536 * 65536, 65536)

/-- What a read of the window meets while an operation runs: its page, sector or block raises UNMAPPED (R493). -/
def FlashOp.blocks (f : FlashOp) (o : Nat) : Bool :=
  match f.op with
  | 1 => decide (f.offset / 256 = o / 256)
  | _ => decide (f.span.1 ≤ o) && decide (o < f.span.1 + f.span.2)

/-- A write of XSPI_OP by a port whose number is `loc` (R493). An operation outside the flash, or a program that crosses
a page, ends at once with status 3. -/
def Block.writeXspiOp (b : Block) (p : Port) (loc v : Nat) : Nat × Block :=
  if !b.flash.suspend then (6, b)
  else if b.flash.op.isSome || b.flashFenced then (9, b)
  else
    let o := b.get Obj.xspiOffset loc
    let len := b.get Obj.xspiLen loc
    let data := (octetsBE 256 (b.get Obj.xspiData loc)).take len
    let f : FlashOp := { port := p, op := v, offset := o, data := if v = 1 then data else [] }
    let bad := b.flash.mib * 1048576 < f.span.1 + f.span.2 || (v = 1 && (o % 256 + len > 256 || len = 0))
    if bad then (0, b.put Obj.xspiOpStatus 3)
    else (0, { b with flash := { b.flash with op := some f } }.put Obj.xspiOp v)

/-- The memory after an operation of the boot flash: a program clears bits, an erase sets them. After a flash error or
a timeout the octets of the operation hold what the manual leaves open, free values from number `k` on. -/
def flashApply (m : List Host.Cell) (f : FlashOp) (status k : Nat) : List Host.Cell :=
  let lo := 0x40000000 + f.span.1
  let hi := lo + f.span.2
  if status = 0 then
    if f.op = 1 then memStore m lo ((List.range f.data.length).map fun i => f.data.getD i 0xFF &&& memGet m (lo + i))
    else memClear m lo hi
  else
    (m.filter fun c => decide (c.1 < lo)) ++
      (((List.range f.span.2).map fun i => (lo + i, Config.freeOctet (k + i))).filter fun c => c.2 != blankAt c.1) ++
      (m.filter fun c => decide (hi ≤ c.1))

/-- XSPI_OP_DONE: a flash operation ends with a status (R493, R496). -/
def State.flashDone (s : State) (status : Nat) : State :=
  match s.blk.flash.op with
  | none => s
  | some f =>
    let b := { s.blk with flash := { s.blk.flash with op := none } }
    let b1 := (b.put Obj.xspiOp 0).put Obj.xspiOpStatus (min status 3)
    { s with
      blk := if status = 0 then b1 else { b1 with fresh := b1.fresh + f.span.2 }
      mem := flashApply s.mem f status s.blk.fresh }

/-- The words of a range of MRAM that do not correct and of which the range holds a part only. -/
def Slots.torn (s : Slots) (a len : Nat) : List Nat :=
  s.bad.filter fun w => decide (a < w + 8) && decide (w < a + len) && (decide (w < a) || decide (a + len < w + 8))

/-- Octets written to the customer store (R473, R476). The other octets of a word that did not correct, which the
write cannot merge, take free values, and the word counts in MRAM_UE (R475; DESIGN CHOICE, log entry 216). -/
def State.csStore (s : State) (a : Nat) (l : List Octet) : State :=
  let torn := s.blk.regs.slots.torn a l.length
  let k := s.blk.fresh
  let mem := torn.zipIdx.foldl (fun m w => memStore m w.1 ((List.range 8).map fun i => Config.freeOctet (k + 8 * w.2 + i))) s.mem
  let words := if l.isEmpty then 0 else (a + l.length - 1) / 8 - a / 8 + 1
  let b := ({ s.blk with fresh := k + 8 * torn.length }.add Obj.mramUe torn.length).mramWrote words
  { s with
    mem := memStore mem a l
    blk := { b with regs := { b.regs with slots := b.regs.slots.mend a l.length } } }

/-- A write of CS_WRITE by a port: the staged octets go to the customer store whole (R476). -/
def State.writeCs (s : State) (loc v : Nat) : Nat × State :=
  let o := s.blk.get Obj.csOffset loc
  let len := s.blk.get Obj.csLen loc
  if v ≠ 1 then (0, s)
  else if 3391488 < o + len then (6, s)
  else (0, s.csStore (0x200C4000 + o) ((octetsBE 256 (s.blk.get Obj.csData loc)).take len))

end Sys2Proof.Machine
end

