-- ==== Sys2Proof/Machine/Operands.lean ====
section
/-!
DEFINITION. The operand forms of Barune (R436, R440, R441): general registers, immediates, the address of a memory
operand and the targets of branches and jumps.
-/

namespace Sys2Proof.Machine

/-- A general register of an engine (R436): g0 reads 0. -/
def State.reg (s : State) (n r : Nat) : Word := if r = 0 then 0 else (s.regs[32 * n + r]?).getD 0

/-- A general register written; writes to g0 are discarded (R436). -/
def State.setReg (s : State) (n r : Nat) (v : Word) : State :=
  if r = 0 then s else { s with regs := s.regs.setIfInBounds (32 * n + r) v }

/-- IMM16 sign-extended (R440). -/
def sext16 (imm : BitVec 16) : Word := imm.signExtend 64

/-- IMM16 zero-extended: ANDI, ORI, XORI (R441). -/
def zext16 (imm : BitVec 16) : Word := imm.setWidth 64

/-- The address of a memory operand: base plus IMM16 (R440). -/
def State.memAddr (s : State) (n ra : Nat) (imm : BitVec 16) : Word := s.reg n ra + sext16 imm

/-- The target of a branch: a signed count of words from the branch's own address, on 40 bits (R440). -/
def branchTarget (pc : BitVec 40) (offset : BitVec 22) : BitVec 40 := pc + (offset.signExtend 40 <<< 2)

/-- The target of JAL: a signed count of words from its own address, on 40 bits (R440). -/
def jumpTarget (pc : BitVec 40) (offset : BitVec 26) : BitVec 40 := pc + (offset.signExtend 40 <<< 2)

/-- The target of JALR: ra + IMM16, on the 40 bits of the program counter (R436, R441). -/
def State.jalrTarget (s : State) (n ra : Nat) (imm : BitVec 16) : BitVec 40 := (s.reg n ra + sext16 imm).setWidth 40

/-- MOVZ: IMM16 at halfword `h`, 0 elsewhere (R441). -/
def movzOf (h : Nat) (imm : BitVec 16) : Word := zext16 imm <<< (16 * h)

/-- MOVK: IMM16 in place of halfword `h` of a value (R441). -/
def movkOf (old : Word) (h : Nat) (imm : BitVec 16) : Word :=
  (old &&& ~~~((0xFFFF#64) <<< (16 * h))) ||| movzOf h imm

end Sys2Proof.Machine
end

