-- ==== Sys2Proof/Machine/Images.lean ====
section
/-!
DEFINITION. Images: SHA-256, the checks of a slot (R506), loading (R507), the boot ROM's run (R503 to R505), hitless
swaps and trials (R508 to R510), mould rows (R460 to R462) and the engines' CONTROL and watchdogs (R455, R464).
-/

namespace Sys2Proof.Machine

/-! ### SHA-256 (FIPS 180-4) -/

/-- A 32-bit rotation to the right. -/
def rotr32 (x n : Nat) : Nat := x / 2 ^ n + x % 2 ^ n * 2 ^ (32 - n)

/-- The largest number that agrees with `x` above bit `k` and whose power to the `e` does not exceed `n`. -/
def rootBits (e n : Nat) : Nat → Nat → Nat
  | 0, x => x
  | k + 1, x => rootBits e n k (if (x + 2 ^ k) ^ e ≤ n then x + 2 ^ k else x)

/-- The first 32 bits of the fraction of the root of `p`: the square root (`e` = 2) or the cube root (`e` = 3). -/
def rootFraction (e p : Nat) : Nat := rootBits e (p * 2 ^ (32 * e)) 38 0 % 2 ^ 32

/-- The primes below 312, the first 64. -/
def shaPrimes : List Nat :=
  (List.range 312).filter fun n => 2 ≤ n && (List.range 18).all fun d => d < 2 || n ≤ d || n % d != 0

/-- The constants of the 64 rounds: the cube roots of the first 64 primes. -/
def shaConstants : List Nat := shaPrimes.map (rootFraction 3)

/-- The initial hash value: the square roots of the first 8 primes. -/
def shaInit : List Nat := (shaPrimes.take 8).map (rootFraction 2)

/-- The exclusive or of a word rotated by three amounts. -/
def shaMix (x i j k : Nat) : Nat := rotr32 x i ^^^ (rotr32 x j ^^^ rotr32 x k)

/-- One round on the eight working words, with the sum of its constant and its word of the schedule. -/
def shaRound (kw : Nat) : List Nat → List Nat
  | [a, b, c, d, e, f, g, h] =>
    let choice := g ^^^ (e &&& (f ^^^ g))
    let t := h + shaMix e 6 11 25 + choice + kw
    let majority := (a &&& (b ||| c)) ||| (b &&& c)
    [(t + shaMix a 2 13 22 + majority) % 2 ^ 32, a, b, c, (d + t) % 2 ^ 32, e, f, g]
  | l => l

/-- The next window of 16 words of the schedule. -/
def shaSlide (w : List Nat) : List Nat :=
  let x := w.getD 1 0
  let y := w.getD 14 0
  let low := rotr32 x 7 ^^^ (rotr32 x 18 ^^^ x / 8)
  let high := rotr32 y 17 ^^^ (rotr32 y 19 ^^^ y / 1024)
  w.tail ++ [(w.getD 0 0 + w.getD 9 0 + low + high) % 2 ^ 32]

/-- One block of 16 words folded into the hash: the window of the schedule slides along the constants. -/
def shaBlock (s w : List Nat) : List Nat :=
  let t := shaConstants.foldl (fun (q : List Nat × List Nat) k => (shaRound (k + q.2.headD 0) q.1, shaSlide q.2)) (s, w)
  List.zipWith (fun x y => (x + y) % 2 ^ 32) s t.1

/-- The octets behind a message: a one bit, zeros to the last 8 octets of a block, and the length in bits. -/
def shaPad (n : Nat) : List Octet :=
  0x80#8 :: List.replicate ((119 - n % 64) % 64) 0#8 ++ octetsBE 8 (8 * n)

/-- The SHA-256 of octets. -/
def sha256 (l : List Octet) : List Octet :=
  let p := l ++ shaPad l.length
  let word := fun i => ofOctetsBE ((p.drop (4 * i)).take 4)
  let blocks := (List.range (p.length / 64)).map fun n => (List.range 16).map fun i => word (16 * n + i)
  (blocks.foldl shaBlock shaInit).flatMap (octetsBE 4)

/-! ### Mould rows (R460 to R462, R465) -/

/-- A micro-operation of a row: octets 4k to 4k + 3 of UOPS, little-endian. -/
def uopWord (uops k : Nat) : BitVec 32 := BitVec.ofNat 32 (octFieldLE uops 128 (4 * k) 4)

/-- OP of a micro-operation. -/
def uopOp (w : BitVec 32) : Nat := (w.extractLsb' 27 5).toNat

/-- DST of a micro-operation. -/
def uopDst (w : BitVec 32) : Nat := (w.extractLsb' 23 4).toNat

/-- Source A, or the COND of SKIP. -/
def uopA (w : BitVec 32) : Nat := (w.extractLsb' 19 4).toNat

/-- Source B. -/
def uopB (w : BitVec 32) : Nat := (w.extractLsb' 15 4).toNat

/-- SETF. -/
def uopSetf (w : BitVec 32) : Bool := w.getLsbD 14

/-- IMM13, unsigned bits. -/
def uopImm (w : BitVec 32) : BitVec 13 := w.extractLsb' 0 13

/-- A micro-operation stores. -/
def uopStores (w : BitVec 32) : Bool := decide (21 ≤ uopOp w) && decide (uopOp w ≤ 24)

/-- A micro-operation that keeps R460. -/
def uopOk (w : BitVec 32) : Bool :=
  decide (uopOp w ≤ 26) && (decide (uopDst w ≤ 10) || uopDst w == 13) && (uopOp w == 25 || uopA w != 15) && uopB w != 15 &&
    (!uopSetf w || (decide (1 ≤ uopOp w) && decide (uopOp w ≤ 16)))

/-- A row that keeps R460 and R461: at most 32 micro-operations and 8 stores. -/
def mouldOk (len uops : Nat) : Bool :=
  let ws := (List.range len).map (uopWord uops)
  decide (len ≤ 32) && ws.all uopOk && decide ((ws.filter uopStores).length ≤ 8)

/-- The 132 octets of a row as R507 lays them out; a row that is not VALID shows LENGTH 0. -/
def Block.mouldOctets (b : Block) (n m : Nat) : List Octet :=
  octetsBE 1 (if b.is (Obj.mouldValid.eng n) m then b.get (Obj.mouldLength.eng n) m else 0) ++ [0#8, 0#8, 0#8] ++
    octetsBE 128 (b.get (Obj.mouldUops.eng n) m)

/-- The hash of an engine (R503): the ranges that KIND 1 sections loaded, in table order, then its mould table. -/
def State.engineHash (s : State) (n : Nat) : List Octet :=
  let ranges := s.blk.images.loaded.filter fun r => r.1 == n
  sha256 ((ranges.flatMap fun r => memLoad s.mem r.2.1 r.2.2) ++ (List.range 16).flatMap (s.blk.mouldOctets n))

/-- The engine's hash is written to the retained SRAM. -/
def State.recordHash (s : State) (n : Nat) : State :=
  { s with blk := { s.blk with images := { s.blk.images with engHash := s.blk.images.engHash.set n (some (s.engineHash n)) } } }

/-- A write of a mould row's subindex by an engine port at F or M (R462): the row takes effect whole, and the engine's
hash follows it. -/
def State.writeMould (s : State) (r : Reg) (n m v : Nat) : Nat × State :=
  let b := s.blk.put r v m
  if mouldOk (b.get (Obj.mouldLength.eng n) m) (b.get (Obj.mouldUops.eng n) m) then
    let s1 := { s with blk := b }
    (0, if (s.blk.images.engHash.getD n none).isSome then s1.recordHash n else s1)
  else (6, s)

/-! ### A slot and its checks (R506) -/

/-- A section entry (R507). -/
structure Section where
  kind : Nat
  engine : Nat
  offset : Nat
  len : Nat
  dest : Nat
  flags : Nat
  entry : Nat
  deriving DecidableEq, Repr

/-- The base of a slot in the flash. -/
def Block.slotBase (b : Block) (slot : Nat) : Nat := b.get (if slot = 0 then Obj.slotABase else Obj.slotBBase)

/-- `k` octets of the flash from an offset. -/
def State.flashLoad (s : State) (o k : Nat) : List Octet := memLoad s.mem (0x40000000 + o) k

/-- A field of the flash in Plais order. -/
def State.flashField (s : State) (o k : Nat) : Nat := ofOctetsBE (s.flashLoad o k)

/-- The number of sections of the image at `base`. -/
def State.sectionCount (s : State) (base : Nat) : Nat := s.flashField (base + 6) 2

/-- The section entry at an offset. -/
def State.sectionAt (s : State) (o : Nat) : Section :=
  { kind := s.flashField o 1, engine := s.flashField (o + 1) 1, offset := s.flashField (o + 4) 4
    len := s.flashField (o + 8) 4, dest := s.flashField (o + 12) 5, flags := s.flashField (o + 17) 1
    entry := s.flashField (o + 18) 5 }

/-- The section table of the image at `base`. -/
def State.sectionsAt (s : State) (base : Nat) : List Section :=
  (List.range (s.sectionCount base)).map fun i => s.sectionAt (base + 64 + 32 * i)

/-- The size of an engine's local memory (R15). -/
def localSize (n : Nat) : Nat :=
  if n ≤ 1 then 524288 else if n ≤ 3 then 131072 else if n ≤ 10 then 65536 else 32768

/-- A range of addresses lies within a region that begins at `lo` and ends below `hi`. -/
def rangeIn (a len lo hi : Nat) : Bool := decide (lo ≤ a) && decide (a + len ≤ hi)

/-- The rows of a mould table as its section holds them. -/
def State.mouldRowsOk (s : State) (base : Nat) (x : Section) : Bool :=
  (List.range 16).all fun m =>
    let o := base + x.offset + 132 * m
    mouldOk (s.flashField o 1) (s.flashField (o + 4) 128)

/-- A section lies within the slot and fits its target (R506 check 5, R507). No section is for GD (R497). -/
def State.sectionOk (s : State) (base : Nat) (x : Section) : Bool :=
  let b := s.blk
  decide (x.engine ≤ 10) && decide (x.offset + x.len ≤ b.get Obj.slotSize) &&
    (match x.kind with
     | 1 => rangeIn x.dest x.len (localBase x.engine) (localBase x.engine + localSize x.engine)
     | 2 => rangeIn x.dest x.len 0x10540000 0x10580000 || rangeIn x.dest x.len 0x105A0000 0x10600000
     | 3 => x.len == 2112 && x.dest == 0 && s.mouldRowsOk base x
     | 4 =>
       let d := { b.dram with reserve := reserveSlices (b.dram.spillFor (b.get Obj.spillLimit)) }
       rangeIn x.dest x.len 0x100000000 (0x100000000 + 2 * d.engineSlices * 1792)
     | _ => false)

/-- The key slot in state 1 whose hash a public key has. -/
def Block.keySlot (b : Block) (pubkey : List Octet) : Option Nat :=
  let h := ofOctetsBE (sha256 pubkey)
  (List.range 4).find? fun i => b.get Obj.slotKeyState i == 1 && b.get Obj.slotKeyHash i == h

/-- The checks of a slot in their order (R506): its status for SLOT_STATUS, and the key slot that verified it. -/
def State.checkSlot (s : State) (slot : Nat) : Nat × Nat :=
  let b := s.blk
  let base := b.slotBase slot
  if b.flashFenced then (7, 255)
  else
    let n := s.sectionCount base
    let table := 64 + 32 * n
    let header := s.flashField base 4 == 0x55484C49 && s.flashField (base + 4) 2 == 1 && decide (1 ≤ n) &&
      decide (n ≤ 32) && s.flashField (base + 60) 4 == crc32 (s.flashLoad base 60)
    if !header then (2, 255)
    else
      let pubkey := s.flashLoad (base + table) 64
      let key := b.keySlot pubkey
      let signed := key.isSome && Config.ecdsaVerify pubkey (s.flashLoad base (table + 64)) (s.flashLoad (base + table + 64) 64)
      if b.is Obj.sbEnforced && !signed then (3, 255)
      else if s.flashField (base + 12) 1 < b.get Obj.rollback then (4, 255)
      else
        let l := s.sectionsAt base
        let body := l.flatMap fun x => s.flashLoad (base + x.offset) x.len
        if s.flashLoad (base + 20) 32 ≠ sha256 body then (5, 255)
        else if l.all (s.sectionOk base) then (1, if b.is Obj.sbEnforced then key.getD 255 else 255)
        else (6, 255)

/-- SLOT_STATUS shows a slot's check. -/
def Block.slotStatusSet (b : Block) (slot st : Nat) : Block :=
  let v := b.get Obj.slotStatus
  b.put Obj.slotStatus (if slot = 0 then v / 256 * 256 + st else v % 256 + 256 * st)

/-! ### Loading (R503, R507) -/

/-- The mould table of an engine takes the rows of its section. -/
def State.loadMould (s : State) (base : Nat) (x : Section) : State :=
  let b := (List.range 16).foldl (fun (c : Block) m =>
    let o := base + x.offset + 132 * m
    let len := s.flashField o 1
    ((c.put (Obj.mouldValid.eng x.engine) (if len = 0 then 0 else 1) m).put (Obj.mouldLength.eng x.engine) len m).put
      (Obj.mouldUops.eng x.engine) (s.flashField (o + 4) 128) m) s.blk
  { s with blk := b }

/-- A section is loaded; its ranges in a local memory become read-only at F and A. -/
def State.loadSection (s : State) (base : Nat) (x : Section) : State :=
  let s1 := if x.kind = 3 then s.loadMould base x
    else { s with mem := memStore s.mem x.dest (s.flashLoad (base + x.offset) x.len) }
  let im := s1.blk.images
  let im1 := if x.kind = 1 then { im with loaded := im.loaded ++ [(x.engine, x.dest, x.len)] } else im
  let im2 := if bitSet x.flags 0 then { im1 with engEntry := im1.engEntry.set x.engine (some x.entry) } else im1
  let b := { s1.blk with images := im2 }
  { s1 with blk := if bitSet x.flags 0 then b.put (Obj.engStartPc.eng x.engine) x.entry else b }

/-- What an engine had loaded is forgotten before it is loaded anew. -/
def State.unload (s : State) (n : Nat) : State :=
  let im := s.blk.images
  { s with blk := { s.blk with images := { im with
      loaded := im.loaded.filter fun r => r.1 != n
      engEntry := im.engEntry.set n none } } }

/-- An engine holds the image of a slot. -/
def State.imageOf (s : State) (n slot : Nat) : State :=
  let sec := s.flashField (s.blk.slotBase slot + 12) 1
  let im := s.blk.images
  { s with blk := { s.blk with images := { im with engSlot := im.engSlot.set n slot, engSec := im.engSec.set n sec } } }

/-- RUNNING_SEC_VERSION and RUNNING_BUILD follow the images running (R509, R511). -/
def State.runningNow (s : State) : State :=
  let im := s.blk.images
  let secs_ := ((List.range 11).filter fun n => im.engSlot.getD n 255 != 255).map fun n => im.engSec.getD n 0
  let low := match secs_ with
    | [] => 0
    | x :: rest => rest.foldl min x
  let slot := im.engSlot.getD 0 255
  let b := s.blk.put Obj.runningSecVersion low
  { s with blk := if slot = 255 then b else b.put Obj.runningBuild (s.flashField (s.blk.slotBase slot + 16) 4) }

/-- An engine starts at F at an address, its RETIRED at 0 (R464, R504). -/
def Block.startAt (b : Block) (n pc : Nat) : Block :=
  (b.modCpu n fun _ =>
    { run := .running, pc := BitVec.ofNat 40 pc, priv := .f, wdStart := b.now
      epriv := if n ≤ 1 || n = 10 then 2 else 1
      xvec := BitVec.ofNat 64 (b.get (Obj.engXvecF.eng n)) }).put (Obj.engRetired.eng n) 0

/-- An engine starts at its entry point with its start kind in g1 and RESET_SOURCE in g2; without a START section it
stays halted (R504, R507). -/
def State.startEngine (s : State) (n kind : Nat) : State :=
  match s.blk.images.engEntry.getD n none with
  | some pc =>
    let s1 := { s with blk := s.blk.startAt n pc }.setReg n 1 (BitVec.ofNat 64 kind)
    s1.setReg n 2 (BitVec.ofNat 64 (s.blk.get Obj.resetSource))
  | none => { s with blk := s.blk.modCpu n fun c => { c with run := .halted } }

/-! ### The boot ROM (R504, R505) -/

/-- The sections that a start loads: those of CORE_F for Day Watch, the others when Core-A powers up from it, and none
of KIND 4 before DRAM training. -/
def startSections (kind : Nat) (dayWatch : Bool) (l : List Section) : List Section :=
  l.filter fun x => x.kind != 4 &&
    (if kind = 3 then !bitSet x.flags 1 else if dayWatch then bitSet x.flags 1 else true)

/-- The engines that a start starts. -/
def startEngines (kind : Nat) (dayWatch : Bool) : List Nat :=
  if kind = 3 then enginesOf 2 else if dayWatch then enginesOf 1 else List.range 11

/-- A slot that passed its checks is loaded, hashed and started (R503, R504 steps 4 and 5). -/
def State.bootFrom (s : State) (kind slot key : Nat) (dayWatch : Bool) : State :=
  let base := s.blk.slotBase slot
  let ns := startEngines kind dayWatch
  let l := startSections kind dayWatch (s.sectionsAt base)
  let s1 := ns.foldl State.unload s
  let s2 := l.foldl (fun (t : State) x => t.loadSection base x) s1
  let s3 := (ns.filter fun n => l.any fun x => x.engine == n).foldl (fun (t : State) n => (t.imageOf n slot).recordHash n) s2
  let s4 := ns.foldl (fun (t : State) n => if bitSet (t.blk.get Obj.fabricFenced) n then t else t.startEngine n kind) s3
  let s5 := s4.runningNow
  let b := (((s5.blk.put Obj.bootState 1).put Obj.bootSlot slot).put Obj.bootKeyUsed key).put Obj.xspiSize s5.blk.flash.mib
  { s5 with blk :=
      { b with images := { b.images with
          trial := if slot = b.get Obj.bootPrefer then none else if kind = 3 then b.images.trial else some b.now } } }

/-- Recovery (R505): the boot ROM stays on AC0, or on AC1 while AC0 is fenced, and every other engine is halted. -/
def State.recover (s : State) : State :=
  let n := if bitSet (s.blk.get Obj.fabricFenced) 0 then 1 else 0
  let b := (List.range 11).foldl (fun (c : Block) i =>
    if bitSet (c.get Obj.fabricFenced) i then c else c.modCpu i fun x => { x with run := .halted }) s.blk
  let b1 := b.modCpu n fun _ => { run := .running, pc := 0, priv := .m, wdStart := b.now }
  { s with blk := (b1.put Obj.bootState 2).put Obj.xspiSize b.flash.mib }

/-- The boot ROM's run of a start of kind 0 or 3: the slot is chosen and checked, the other is tried after a failure,
and with both failed the device is in recovery (R504, R505). A Core-A power-up keeps to the slot of the last start. -/
def State.bootRun (s : State) (kind : Nat) (dayWatch : Bool) : State :=
  let prefer := s.blk.get Obj.bootPrefer
  let first := if kind = 3 then s.blk.get Obj.bootSlot else if s.blk.is Obj.bootTrial then 1 - prefer else prefer
  let s0 := if kind = 3 then s else { s with blk := s.blk.put Obj.bootTrial 0 }
  let c1 := s0.checkSlot first
  let s1 := { s0 with blk := s0.blk.slotStatusSet first c1.1 }
  if c1.1 = 1 then s1.bootFrom kind first c1.2 dayWatch
  else
    let s2 := { s1 with blk := s1.blk.add Obj.fallbacks }
    let c2 := s2.checkSlot (1 - first)
    let s3 := { s2 with blk := s2.blk.slotStatusSet (1 - first) c2.1 }
    if c2.1 = 1 then s3.bootFrom kind (1 - first) c2.2 dayWatch else s3.recover

/-- An engine at a warm reset (R503): it restarts when its hash checks; else it is loaded again from BOOT_SLOT, or
fenced with cause 4. -/
def State.warmEngine (s : State) (n : Nat) : State :=
  if !s.blk.domainOn (engineDomain n) || bitSet (s.blk.get Obj.fabricFenced) n then s
  else
    match s.blk.images.engHash.getD n none with
    | none => s.startEngine n 1
    | some h =>
      if s.engineHash n = h then s.startEngine n 1
      else
        let slot := s.blk.get Obj.bootSlot
        let base := s.blk.slotBase slot
        if (s.checkSlot slot).1 = 1 then
          let l := (s.sectionsAt base).filter fun x => x.engine == n && (x.kind == 1 || x.kind == 3)
          let s1 := l.foldl (fun (t : State) x => t.loadSection base x) (s.unload n)
          ((s1.imageOf n slot).recordHash n).startEngine n 1
        else { s with blk := s.blk.fence n 4 }

/-- The sections of KIND 4 are loaded after DRAM training (R507). -/
def State.loadDram (s : State) : State :=
  if s.blk.dram.load then
    let base := s.blk.slotBase (s.blk.get Obj.bootSlot)
    let s1 := { s with blk := s.blk.modDram fun d => { d with load := false } }
    if s1.blk.get Obj.bootState = 1 then
      ((s1.sectionsAt base).filter fun x => x.kind == 4).foldl (fun (t : State) x => t.loadSection base x) s1
    else s1
  else s

/-- The start that a command made due runs (R126, R504): its images, then the device's arrival in its mode. In recovery
the device stays with Core-F and Core-A on, as in Field Only (R505). -/
def State.runBoot (s : State) : State :=
  match s.blk.boot with
  | none => s
  | some x =>
    let s0 := { s with blk := { s.blk.fadeResume with boot := none } }
    if x.kind = 1 then
      let s1 := (List.range 11).foldl State.warmEngine s0
      if s1.blk.recovery then s1.recover else s1
    else
      let s1 := s0.bootRun x.kind (s0.blk.baseOf x.target == .dayWatch)
      let y := if s1.blk.recovery then { x with target := .fieldOnly } else x
      let b := s1.blk.arrive y
      { s1 with blk := if y.cause = 7 && !b.recovery then b.enterMaint else b }

/-! ### Hitless swap (R508 to R510) -/

/-- A swap that has succeeded restores every fenced unit: its radios power up again (R24). -/
def Block.swapRestores (b : Block) : Block :=
  if b.get Obj.fabricFenced = 0 then b
  else
    let back := radios3.filter fun r => b.radioFenced r
    back.foldl (fun (c : Block) r => if c.radioOn r then c.radioUp r else c) b.restoreUnits.undegrade

/-- The next engine of a swap is asked to halt at its safe point, or the swap is complete. -/
def Block.swapNext (b : Block) : Block :=
  match b.images.swap with
  | none => b
  | some w =>
    match w.left with
    | n :: _ =>
      let b1 := { b with images := { b.images with swap := some { w with from_ := b.now, held := false } } }
      (b1.modCpu n fun c => { c with swapReq := true }).event n 17
    | [] =>
      let b1 := (b.swapEnd 2).swapRestores
      let b2 := if w.back then
          b1.notice 0x01C1 Obj.bootSlot noRow ([w.slot] ++ bytesBE 4 (b1.get Obj.runningBuild))
        else b1
      if w.whole then
        { b2 with images := { b2.images with trial := if w.slot = b2.get Obj.bootPrefer then none else some b2.now } }
      else b2

/-- The engines of the units that a swap has restored start again as at a warm reset (R24; DEDUCED, log entry 118). -/
def State.restartFenced (s : State) : State :=
  (List.range 11).foldl (fun (t : State) n =>
    if (t.blk.cpu n).run = .fenced && !bitSet (t.blk.get Obj.fabricFenced) n then t.warmEngine n else t) s

/-- The engines of a mask, in ascending number. -/
def maskEngines (mask : Nat) : List Nat := (List.range 11).filter fun n => bitSet mask n

/-- A swap of some engines to a slot starts: the slot is checked first (R508). -/
def State.swapStart (s : State) (slot : Nat) (engines : List Nat) (back : Bool) : State :=
  let c := s.checkSlot slot
  let b := (s.blk.slotStatusSet slot c.1).put Obj.swapDone 0
  if c.1 ≠ 1 then { s with blk := b.swapEnd 4 }
  else
    let l := s.sectionsAt (b.slotBase slot)
    let whole := l.all fun x => engines.contains x.engine
    let w : Swap := { slot, left := engines, from_ := b.now, back, whole }
    let b1 := ({ b with images := { b.images with swap := some w } }.put Obj.swapStatus 1).put Obj.bootKeyUsed c.2
    { s with blk := b1.swapNext }.restartFenced

/-- A write of SWAP_GO (R508). -/
def State.writeSwapGo (s : State) (v : Nat) : Nat × State :=
  let mask := s.blk.get Obj.swapMask
  if v ≠ 1 then (0, s)
  else if s.blk.images.swap.isSome || s.blk.flashFenced ||
      (maskEngines mask).any (fun n => bitSet (s.blk.get Obj.fabricFenced) n) then (9, s)
  else (0, s.swapStart (s.blk.get Obj.swapSlot) (maskEngines mask) false)

/-- SWAP_ENGINE_LOADED: the engine halted at its safe point is loaded and started with g1 = 2, and the next one is
asked. -/
def State.swapLoaded (s : State) : State :=
  match s.blk.images.swap with
  | none => s
  | some w =>
    match w.left with
    | [] => s
    | n :: rest =>
      if !w.held then s
      else
        let base := s.blk.slotBase w.slot
        let l := (s.sectionsAt base).filter fun x => x.engine == n
        let s1 := if l.isEmpty then s
          else ((l.foldl (fun (t : State) x => t.loadSection base x) (s.unload n)).imageOf n w.slot).recordHash n
        let pc := s1.blk.get (Obj.engStartPc.eng n)
        let s2 := ({ s1 with blk := s1.blk.startAt n pc }.setReg n 1 2).runningNow
        let b := (s2.blk.put Obj.swapDone (setBit (s2.blk.get Obj.swapDone) n)).add Obj.swaps
        { s2 with blk := { b with images := { b.images with swap := some { w with left := rest, held := false } } }.swapNext }.restartFenced

/-- SWAP_WAIT_EXPIRY: SWAP_WAIT after its request the engine did not reach SAFEPT; its request is withdrawn and the
swap ends (R509). -/
def Block.swapTimeout (b : Block) : Block :=
  match b.images.swap with
  | some w =>
    if w.held || decide (b.now < w.from_ + ms (b.get Obj.swapWait)) then b else (b.swapRelease w).swapEnd 3
  | none => b

/-- A write of BOOT_CONFIRM (R510). -/
def Block.writeBootConfirm (b : Block) (v : Nat) : Nat × Block :=
  if v = 1 && b.images.trial.isSome then
    let slot := b.images.engSlot.getD 0 255
    (0, { b with images := { b.images with trial := none } }.put Obj.bootPrefer (if slot = 255 then b.get Obj.bootSlot else slot))
  else (0, b)

/-- CONFIRM_TIME_EXPIRY: a trial that nobody confirmed within CONFIRM_TIME is swapped back, once no swap runs (R510). -/
def State.confirmExpiry (s : State) : State :=
  let b := s.blk
  match b.images.trial with
  | none => s
  | some start =>
    if b.images.swap.isSome || !b.coreF || decide (b.now < start + secs (b.get Obj.confirmTime)) then s
    else
      let prefer := b.get Obj.bootPrefer
      let ns := (List.range 11).filter fun n =>
        b.images.engSlot.getD n 255 == 1 - prefer && !bitSet (b.get Obj.fabricFenced) n && b.domainOn (engineDomain n)
      let b1 := { b with images := { b.images with trial := none } }.add Obj.fallbacks
      { s with blk := b1 }.swapStart prefer ns true

/-! ### CONTROL and the watchdog (R455, R464) -/

/-- The engine is one that a swap holds at its safe point. -/
def Block.swapHolds (b : Block) (n : Nat) : Bool :=
  match b.images.swap with
  | some w => w.held && w.left.head? == some n
  | none => false

/-- The engine executes instructions or waits in one. -/
def Run.active : Run → Bool
  | .running | .wfe | .wuntil _ => true
  | _ => false

/-- RUN_STATE (R464). -/
def Block.runState (b : Block) (n : Nat) : Nat :=
  if !b.domainOn (engineDomain n) then 0
  else
    match (b.cpu n).run with
    | .off => 1
    | .halted => 1
    | .running => 2
    | .wfe | .wuntil _ => 3
    | .fenced => 4

/-- A write of CONTROL of engine `n` (R464): 1 halt, 2 run from START_PC, 3 resume. -/
def Block.writeControl (b : Block) (n v : Nat) : Nat × Block :=
  let c := b.cpu n
  if n = 11 then (3, b)
  else if c.run = Run.fenced || b.swapHolds n then (9, b)
  else
    match v with
    | 1 => (0, if c.run.active then b.modCpu n fun c => { c with run := .halted } else b)
    | 2 => (0, b.startAt n (b.get (Obj.engStartPc.eng n)))
    | 3 => (0, if c.run = Run.halted then b.modCpu n fun c => { c with run := .running, wdStart := b.now } else b)
    | _ => (0, b)

/-- WATCHDOG has passed since the watchdog's last start, on the clock of the engine's TB: RTC ticks on GD (R455,
R456). A resumed engine's watchdog starts anew (DEDUCED, log entry 214). -/
def Block.watchdogPast (b : Block) (n : Nat) : Bool :=
  let w := b.get (Obj.engWatchdog.eng n)
  let from_ := (b.cpu n).wdStart
  w != 0 &&
    (if n = 11 then decide (w * 32768 ≤ (b.uptime - rtcTicks (from_ - b.time.vfurAt)) * 1000000) else decide (from_ + us w ≤ b.now))

/-- WATCHDOG_EXPIRY: the engine's watchdog runs out; its unit is fenced with cause 2, and on GD it is a Furnace fault.
-/
def Block.watchdogEnd (b : Block) (n : Nat) : Block :=
  if b.domainOn (engineDomain n) && (b.cpu n).run.active && b.watchdogPast n then
    (b.modCpu n fun c => { c with run := .halted }).fence n 2
  else b

end Sys2Proof.Machine
end

