-- ==== Sys2Proof/Machine/Map.lean ====
section
/-!
DEFINITION. The address map as the engines see it (R31 to R35), with the rights of R33, R34, R439 and R469: where an
access leads or which bus error it raises, and what is read and written there.
-/

namespace Sys2Proof.Machine

/-- What an address leads to. `plain` is memory that the state lists; `open_` holds what only units of the device
write, and reads as free values (what only the units know of the buffer pool, the gather region and the MRAM, log
entry 110); the others are the boot ROM and GD's, the queue journal, the cullet partition, the cullet record queue,
the Furnace's own records in the retained SRAM, the receive record before a delivered frame, and the dictionary
window. -/
inductive Place where
  | plain | open_ | rom | cullet | records | sram | journal | stamp (fid at_ : Nat) | window
  deriving DecidableEq, Repr

/-- What an access is for. -/
inductive Access3 where
  | fetch | load | store | atomic
  deriving DecidableEq, Repr

/-- An access writes. -/
def Access3.writes : Access3 → Bool
  | .store | .atomic => true
  | .fetch | .load => false

/-- An address within the buffer, headroom included, of a frame that a receive ring of the engine holds (R469). -/
def Block.ownBuffer (b : Block) (n a len : Nat) : Option Frame :=
  b.frames.find? fun f =>
    (b.fwd.filled.any fun x => x.1 / 8 == n && x.2.2 == f.id) &&
      decide (bufferOf f.id - 16 ≤ a) && decide (a + len ≤ bufferOf f.id + f.pkt.len)

/-- The receive ring that holds a frame asks for receive records (R335). -/
def Block.recordsOn (b : Block) (fid : Nat) : Bool :=
  b.fwd.filled.any fun x => x.2.2 == fid && bitSet (b.get Obj.tsmTsMode x.1) 3

/-- The buffer pool and the landing regions (R469). -/
def Block.placeBuffer (b : Block) (n a len : Nat) (priv : Priv) (k : Access3) : Except Exc Place :=
  if k.writes then .error .privilege
  else
    match b.ownBuffer n a len with
    | some f =>
      if b.recordsOn f.id && decide (a + len ≤ bufferOf f.id) then .ok (.stamp f.id (bufferOf f.id - 16)) else .ok .open_
    | none =>
      if (n ≤ 1 && priv != .a) || (5 ≤ n && decide (n ≤ 8)) then .ok .open_ else .error .privilege

/-- The gather region, the queue journal from 0x1030_0000 on, and the retained objects (R467, R469). -/
def placeInner (n a : Nat) (priv : Priv) (k : Access3) : Except Exc Place :=
  if n ≤ 1 && priv != .a && !k.writes then
    .ok (if 0x10300000 ≤ a && decide (a < 0x10400000) then .journal else .open_)
  else .error .privilege

/-- A firmware region: every engine reads and writes it (R469). -/
def placeFirmware : Except Exc Place := .ok .plain

/-- The working store (R467, R469). -/
def Block.placeStore (b : Block) (n a len : Nat) (priv : Priv) (k : Access3) : Except Exc Place :=
  if a < 0x10580000 then
    if !b.coreA then .error .domainOff
    else if a < 0x10200000 then b.placeBuffer n a len priv k
    else if a < 0x10400000 then placeInner n a priv k
    else if a < 0x10540000 then b.placeBuffer n a len priv k
    else placeFirmware
  else if !b.coreF then .error .domainOff
  else if a < 0x10590000 then b.placeBuffer n a len priv k
  else if a < 0x105A0000 then placeInner n a priv k
  else placeFirmware

/-- The word of MRAM at an address does not correct (R475). -/
def Block.mramBad (b : Block) (a : Nat) : Bool := b.regs.slots.bad.contains (a / 8 * 8)

/-- The MRAM (R31, R472): a store gives UNMAPPED, and so does a word that does not correct (R475). The persistent
values and the regulatory partition read as free values (log entry 110). -/
def Block.placeMram (b : Block) (a : Nat) (k : Access3) : Except Exc Place :=
  if !b.coreA then .error .domainOff
  else if k.writes || b.mramBad a then .error .unmapped
  else if a < 0x20040000 then .ok .cullet
  else if a < 0x200C4000 then .ok .open_
  else .ok .plain

/-- The xSPI window (R31, R492, R493): past the installed flash, under an operation, or fenced, it gives UNMAPPED, and
so does a store (DESIGN CHOICE, log entry 170). -/
def Block.placeFlash (b : Block) (a : Nat) (k : Access3) : Except Exc Place :=
  let o := a - 0x40000000
  if !b.coreA then .error .domainOff
  else if k.writes || b.flashFenced || decide (b.flash.mib * 1048576 ≤ o) then .error .unmapped
  else
    match b.flash.op with
    | some f => if f.blocks o then .error .unmapped else .ok .plain
    | none => .ok .plain

/-- The DRAM window (R32, R478, R480): the device reserve gives PRIVILEGE, what lies above the usable part UNMAPPED,,
and an access to a fenced channel DRAM_UE (R21, R129). -/
def Block.placeDram (b : Block) (a : Nat) : Except Exc Place :=
  if !b.domainOn 6 then .error .domainOff
  else if !b.dram.up then .error .unmapped
  else
    match b.dram.placeOf a with
    | none => .error .unmapped
    | some p =>
      if b.dram.mirrored a then .error .privilege
      else if b.chFenced p.1 then .error .dramUe
      else .ok .plain

/-- A range that a section of KIND 1 loaded is read-only to its engine at F and A (R503). -/
def Block.isLoaded (b : Block) (n a len : Nat) : Bool :=
  b.images.loaded.any fun x => x.1 == n && decide (x.2.1 < a + len) && decide (a < x.2.1 + x.2.2)

/-- The Furnace retained SRAM (R33, R34), by offset. -/
def placeSram (n o : Nat) (priv : Priv) (k : Access3) : Except Exc Place :=
  let ac := decide (n ≤ 1) && priv != .a
  if n != 11 && !ac then .error .privilege
  else if 0xB80 ≤ o then .ok .plain
  else if !k.writes then .ok .sram
  else if o < 0x160 then (if ac && priv == .m then .ok .sram else .error .privilege)
  else if 0x180 ≤ o && n == 11 then .ok .sram
  else .error .privilege

/-- The local memories (R31, R33, R34). -/
def Block.placeLocal (b : Block) (n a len : Nat) (priv : Priv) (k : Access3) : Except Exc Place :=
  let e := (a - 0xE000000000) / 0x1000000
  let o := (a - 0xE000000000) % 0x1000000
  if 12 ≤ e then .error .unmapped
  else if e = 11 && 0x800000 ≤ o && decide (o < 0x801000) then placeSram n (o - 0x800000) priv k
  else if localSize e ≤ o then .error .unmapped
  else if !b.domainOn (engineDomain e) then .error .domainOff
  else if e = n then
    if n = 11 && o < 0x4000 then (if k.writes then .error .privilege else .ok .rom)
    else if n = 11 && 0x7000 ≤ o then .ok .records
    else if k.writes && priv != .m && b.isLoaded n a len then .error .privilege
    else .ok .plain
  else if e != 11 && n ≤ 1 && priv != .a && (b.cpu e).run == Run.halted then .ok .plain
  else .error .privilege

/-- The applet rule: at A, only the applet's range and the dictionary window (R439). -/
def Block.appletOk (b : Block) (n a len : Nat) : Bool :=
  let base := b.get (Obj.engAppletBase.eng n)
  (decide (base ≤ a) && decide (a + len ≤ base + b.get (Obj.engAppletSize.eng n))) ||
    (decide (0xF000000000 ≤ a) && decide (a < 0xF010000000))

/-- Where an access of an engine leads, or the bus error it raises (R31 to R35, R439, R451, R469). A store to the boot
ROM gives UNMAPPED (DESIGN CHOICE, log entry 170). -/
def Block.placeOf (b : Block) (n : Nat) (priv : Priv) (k : Access3) (a len : Nat) : Except Exc Place :=
  let p : Except Exc Place :=
    if 2 ^ 40 ≤ a then .error .unmapped
    else if a < 0x40000 then
      if !b.coreA then .error .domainOff else if k.writes then .error .unmapped else .ok .rom
    else if 0x10000000 ≤ a && decide (a < 0x10600000) then b.placeStore n a len priv k
    else if k == .atomic then
      (if 0xE000000000 ≤ a && decide (a < 0xF000000000) then b.placeLocal n a len priv k else .error .unmapped)
    else if 0x20000000 ≤ a && decide (a < 0x20400000) then b.placeMram a k
    else if 0x40000000 ≤ a && decide (a < 0x80000000) then b.placeFlash a k
    else if 0x100000000 ≤ a && decide (a < 0x300000000) then b.placeDram a
    else if 0xE000000000 ≤ a && decide (a < 0xF000000000) then b.placeLocal n a len priv k
    else if 0xF000000000 ≤ a && decide (a < 0xF010000000) then .ok .window
    else .error .unmapped
  if priv == .a && !b.appletOk n a len then .error .privilege else p

/-! ### What is held there -/

/-- The image hashes, the reserved octets, the DFS barred list and the duty-bin archive as the retained SRAM holds them
(R34, R164, R206). -/
def Block.sramOctets (b : Block) : List Octet :=
  let hashes := (List.range 11).flatMap fun n => (b.images.engHash.getD n none).getD (List.replicate 32 0)
  let bars := (List.range 99).flatMap fun i => octetsLE 4 (assocNat b.region.barred i)
  let rows := (List.range 16).flatMap fun r =>
    match assocGet b.mac.archive r with
    | some x => octetsLE 8 x.rtc ++ (x.data ++ x.ack).map fun v => BitVec.ofNat 8 v
    | none => List.replicate 128 0
  hashes ++ List.replicate 32 0 ++ List.replicate 16 0 ++ bars ++ List.replicate 100 0 ++ rows

/-- The retained SRAM's records with the header of the barred list and what lies behind its entries, which memory
holds (R34). -/
def State.sramAll (s : State) : List Octet :=
  let l := s.blk.sramOctets
  l.take 0x180 ++ memLoad s.mem 0xE00B800180 16 ++ (l.drop 0x190).take 0x18C ++ memLoad s.mem 0xE00B80031C 100 ++ l.drop 0x380

/-- One row of the archive from its octets. -/
def Block.archiveFrom (b : Block) (l : List Octet) : ArchiveRow :=
  let rtc := ofOctetsLE (l.take 8)
  let v := (l.drop 8).map (·.toNat)
  { rtc := rtc, sec := b.lifeSec - ((b.rtcSec : Int) - rtc), data := v.take 60, ack := v.drop 60 }

/-- The retained SRAM's records after an engine has written some of their octets. -/
def Block.sramWrite (b : Block) (l : List Octet) : Block :=
  let hash := (List.range 12).map fun n => if n < 11 then some ((l.drop (32 * n)).take 32) else none
  let bars := (List.range 99).filterMap fun i =>
    let v := ofOctetsLE ((l.drop (0x190 + 4 * i)).take 4)
    if v = 0 then none else some (i, v)
  let rows := (List.range 16).filterMap fun r =>
    let x := (l.drop (0x380 + 128 * r)).take 128
    if x.all (· == 0) then none else some (r, b.archiveFrom x)
  { b with
    images := { b.images with engHash := hash }
    region := { b.region with barred := bars }
    mac := { b.mac with archive := rows } }

/-- The receive record of a frame (R335). -/
def Frame.record (f : Frame) : List Octet :=
  match f.stamp with
  | some (t, ingress) =>
    octetsLE 8 (t / 2 ^ 48) ++ octetsLE 4 (t / 65536 % 2 ^ 32) ++ octetsLE 2 (t % 65536) ++
      octetsLE 2 (0x8000 + ingress * 4096)
  | none => List.replicate 16 0

/-- `k` octets read at a place. What only the device writes reads as free values. -/
def State.readPlace (s : State) (p : Place) (a k : Nat) : List Octet × State :=
  match p with
  | .plain => (memLoad s.mem a k, s)
  | .rom => ((List.range k).map fun i => Config.romOctet (a + i), s)
  | .open_ => ((List.range k).map fun i => Config.freeOctet (s.blk.fresh + i),
      { s with blk := { s.blk with fresh := s.blk.fresh + k } })
  | .cullet => (((s.blk.slotOctets ((a - 0x20000000) / 128)).drop (a % 128)).take k, s)
  | .records => ((s.blk.queueOctets.drop (a - 0xE00B007000)).take k, s)
  | .sram => ((s.sramAll.drop (a - 0xE00B800000)).take k, s)
  | .journal =>
    let o := a - 0x10300000
    let l := (List.range ((k + 14) / 8)).flatMap fun i => octetsLE 8 (s.blk.journalEntry (o / 8 + i))
    ((l.drop (o % 8)).take k, s)
  | .stamp fid from_ =>
    match s.blk.frame? fid with
    | some f => ((f.record.drop (a - from_)).take k, s)
    | none => (List.replicate k 0, s)
  | .window => (List.replicate k 0, s)

/-- Octets written in the retained SRAM of the Furnace (R34): what the units hold there takes them, and the rest is
memory. -/
def State.sramStore (s : State) (o : Nat) (l : List Octet) : State :=
  let old := s.sramAll
  let new := old.take o ++ l ++ old.drop (o + l.length)
  { s with
    blk := s.blk.sramWrite new
    mem := memStore (memStore s.mem 0xE00B800180 ((new.drop 0x180).take 16)) 0xE00B80031C ((new.drop 0x31C).take 100) }

/-- Octets written at a place that takes them. The record queue takes posts alone; a store of GD's firmware there is
discarded (DESIGN CHOICE, log entry 212). -/
def State.writePlace (s : State) (p : Place) (a : Nat) (l : List Octet) : State :=
  match p with
  | .plain => { s with mem := memStore s.mem a l }
  | .sram => s.sramStore (a - 0xE00B800000) l
  | _ => s

end Sys2Proof.Machine
end

