-- ==== Sys2Proof/Machine/Rings.lean ====
section
/-!
DEFINITION. Descriptor rings and doorbells (R287 to R290): what the device reads of a frame in memory, the transmit
doorbell, the fill of a receive ring, and the writes of a ring's objects.
-/

namespace Sys2Proof.Machine

/-! ### A frame as its octets give it -/

/-- A field of `n` octets at position `i`, most significant first. -/
def fieldAt (l : List Octet) (i n : Nat) : Nat := ofOctetsBE ((l.drop i).take n)

/-- The one's complement sum of a header's 16-bit words. -/
def onesSum (l : List Octet) : Nat :=
  let s := sumOfList ((List.range (l.length / 2)).map fun i => fieldAt l (2 * i) 2)
  let t := s % 65536 + s / 65536
  t % 65536 + t / 65536

/-- The ports of a transport header (R275). -/
def portsOf (proto : Nat) (l : List Octet) : Nat × Nat :=
  if proto = 6 || proto = 17 || proto = 136 || proto = 132 then (fieldAt l 0 2, fieldAt l 2 2) else (0, 0)

/-- An IPv4 header (R274 step 2). -/
def ip4Of (l : List Octet) : IpInfo :=
  let ihl := fieldAt l 0 1 % 16
  let total := fieldAt l 2 2
  let proto := fieldAt l 9 1
  let frag := fieldAt l 6 2 % 16384
  let p := if frag % 8192 = 0 then portsOf proto (l.drop (4 * ihl)) else (0, 0)
  { ver := 4, proto := proto, sport := p.1, dport := p.2, src := fieldAt l 12 4, dst := fieldAt l 16 4
    ttl := fieldAt l 8 1, dscp := fieldAt l 1 1 / 4, csum := fieldAt l 10 2, odd := decide (5 < ihl) || frag != 0
    bad := fieldAt l 0 1 / 16 != 4 || decide (ihl < 5) || decide (l.length < total) || decide (total < 4 * ihl) ||
      onesSum (l.take (4 * ihl)) != 65535 }

/-- The options of a Hop-by-Hop header are padding only: at most `fuel` options. -/
def onlyPadding : Nat → List Octet → Bool
  | 0, l => l.isEmpty
  | _, [] => true
  | fuel + 1, o :: rest =>
    if o = 0 then onlyPadding fuel rest
    else if o = 1 then onlyPadding fuel (rest.drop (fieldAt rest 0 1 + 1))
    else false

/-- The next headers that are extension headers (R274 step 2). -/
def isExtension (h : Nat) : Bool := [0, 43, 44, 50, 51, 60, 135, 139, 140].contains h

/-- An IPv6 header (R274 step 2). -/
def ip6Of (l : List Octet) : IpInfo :=
  let first := fieldAt l 6 1
  let rest := l.drop 40
  let hbh := 8 * (fieldAt rest 1 1 + 1)
  let padded := first == 0 && onlyPadding hbh ((rest.take hbh).drop 2)
  let proto := if padded then fieldAt rest 0 1 else first
  let p := portsOf proto (if padded then rest.drop hbh else rest)
  { ver := 6, proto := proto, sport := p.1, dport := p.2, src := fieldAt l 8 16, dst := fieldAt l 24 16
    ttl := fieldAt l 7 1, dscp := fieldAt l 0 2 / 64 % 64, odd := (first == 0 && !padded) || isExtension proto
    bad := fieldAt l 0 1 / 16 != 6 || decide (l.length < 40 + fieldAt l 4 2) }

/-- A PTP message as its octets give it, behind a UDP checksum or none. -/
def ptpFrom (sum : Option Nat) (m : List Octet) : PtpInfo :=
  { mtype := fieldAt m 0 1 % 16, seqId := fieldAt m 30 2, corr := fieldAt m 8 8, origin := fieldAt m 34 10, udpSum := sum }

/-- A UDP datagram to port 319 carries a PTP message of the event transport (R332, R333). -/
def ptpUdp (l : List Octet) : Option PtpInfo :=
  if fieldAt l 2 2 = 319 then some (ptpFrom (some (fieldAt l 6 2)) (l.drop 8)) else none

/-- A PTP message on an event transport (R332, R333): EtherType 0x88F7 behind the outermost tag or one more, or UDP
port 319 over IPv4 or over IPv6 without extension headers. -/
def ptpOf (etype : Nat) (ip : Option IpInfo) (l : List Octet) : Option PtpInfo :=
  if etype = 0x88F7 then some (ptpFrom none l)
  else if (etype = 0x8100 || etype = 0x88A8) && fieldAt l 2 2 = 0x88F7 then some (ptpFrom none (l.drop 4))
  else match ip with
    | some i =>
      if i.bad then none
      else if i.ver = 4 then
        (if fieldAt l 9 1 = 17 && fieldAt l 6 2 % 8192 = 0 then ptpUdp (l.drop (4 * (fieldAt l 0 1 % 16))) else none)
      else if fieldAt l 6 1 = 17 then ptpUdp (l.drop 40) else none
    | none => none

/-- A frame of `len` octets, FCS included, as its octets give it: its outermost tag is parsed (R263). -/
def packetFrom (l : List Octet) (len : Nat) : Packet :=
  let tagged := fieldAt l 12 2 == 0x8100 || fieldAt l 12 2 == 0x88A8
  let at_ := if tagged then 16 else 12
  let etype := fieldAt l at_ 2
  let body := (l.drop (at_ + 2)).take (len - at_ - 6)
  let ip := if etype = 0x0800 then some (ip4Of body) else if etype = 0x86DD then some (ip6Of body) else none
  { dst := fieldAt l 0 6, src := fieldAt l 6 6
    vlan := if tagged then some (fieldAt l 14 2 % 4096, fieldAt l 14 2 / 8192) else none
    ip := ip, ptp := ptpOf etype ip body, len := len }

/-! ### The transmit doorbell (R288, R289) -/

/-- The address of descriptor `i` of a ring. -/
def Block.descAt (b : Block) (row i : Nat) : Nat := b.get Obj.ringBase row + 16 * (i % b.get Obj.ringSize row)

/-- What the doorbell does with one frame: its STATUS and what changes. A frame dropped for a full journal counts in
JOURNAL_DROPS, one dropped for want of buffer space in no counter (R39, R124; DESIGN CHOICE, log entry 128). -/
def State.ringFrame (s : State) (row d : Nat) : Nat × State :=
  let len := d / 2 ^ 74 % 2 ^ 14
  let direct := bitSet d 73
  let q := d / 2 ^ 60 % 2 ^ 13
  let cls := d / 2 ^ 52 % 256
  if len < 64 || 9216 < len || (direct && (5632 ≤ q || 7 < cls || s.blk.tooLong q len)) then (3, s)
  else
    let c : Ctx := .engine (row / 8) (row % 8)
    let d1 := s.blk.police c len
    if !d1.1 then (4, { s with blk := d1.2 })
    else
      match d1.2.place len, d1.2.journalFree with
      | some spill, true =>
        let fid := s.blk.nextFrame
        let pkt := packetFrom (memLoad s.mem (d / 2 ^ 88) len) len
        let b1 := (d1.2.accept c pkt none spill).modFrame fid fun f => { f with cookie := some (row, d % 2 ^ 48) }
        (1, { s with blk := if direct then b1.enqueue fid q else b1 })
      | some _, false => (2, { s with blk := d1.2.add Obj.journalDrops })
      | none, _ => (2, { s with blk := d1.2 })

/-- The device takes descriptor `i`: STATUS is written back and HEAD passes it. -/
def State.takeDesc (s : State) (row i : Nat) : State :=
  let a := s.blk.descAt row i
  let d := ofOctetsLE (memLoad s.mem a 16)
  let r := s.ringFrame row d
  let d1 := d - (d / 2 ^ 48 % 16) * 2 ^ 48 + r.1 * 2 ^ 48
  { r.2 with
    mem := memStore r.2.mem a (octetsLE 16 d1)
    blk := r.2.blk.put Obj.ringHead ((i + 1) % r.2.blk.get Obj.ringSize row) row }

/-- The descriptors from HEAD on, `n` of them, in ring order. -/
def State.takeDescs (s : State) (row : Nat) : Nat → State
  | 0 => s
  | n + 1 => (s.takeDesc row (s.blk.get Obj.ringHead row)).takeDescs row n

/-- A write of TAIL of a transmit ring (R289): the descriptors from HEAD to TAIL − 1 are taken and the engine's RING
event is set. HEAD and TAIL are descriptor numbers below SIZE (DEDUCED, log entry 44). While acceptance is closed the
descriptors wait (R536). -/
def State.doorbell (s : State) (row tail : Nat) : Nat × State :=
  let size := s.blk.get Obj.ringSize row
  if size ≤ tail then (6, s)
  else
    let b := s.blk.put Obj.ringTail tail row
    if !b.is Obj.ringEnable row || !b.mode.acc.engine then (0, { s with blk := b })
    else
      let n := (tail + size - b.get Obj.ringHead row) % size
      let s1 := { s with blk := b }.takeDescs row n
      (0, if n = 0 then s1 else { s1 with blk := s1.blk.event (row / 8) 14 })

/-- Acceptance reopens: the descriptors that waited are taken (R536). -/
def State.ringsOpen (s : State) : State :=
  if !s.blk.mode.acc.engine then s
  else
    (s.blk.listedRows Obj.ringEnable).foldl (fun (t : State) row =>
      if row % 8 < 4 && t.blk.domainOn (engineDomain (row / 8)) && t.blk.get Obj.ringTail row ≠ t.blk.get Obj.ringHead row
      then (t.doorbell row (t.blk.get Obj.ringTail row)).2 else t) s

/-! ### Receive rings (R288, R290) -/

/-- A receive descriptor of a frame. -/
def Block.rxDescriptor (b : Block) (f : Frame) : Nat :=
  let ns := if b.timeValidNow then time112 (b.presented - gain 0 (b.now - f.at_)) / 65536 % 2 ^ 32 else 0
  bufferOf f.id * 2 ^ 88 + f.pkt.len % 2 ^ 14 * 2 ^ 74 + f.queue % 2 ^ 13 * 2 ^ 61 +
    (b.ctxRow f.ctx).getD 0x1FFF * 2 ^ 48 + ns

/-- The next frame of a ring's bound queues; those whose lifetime has passed are abandoned under code 2 on the way
(R121, R284). At most `fuel` are looked at. -/
def Block.rxPick (b : Block) (row : Nat) : Nat → Option Frame × Block
  | 0 => (none, b)
  | fuel + 1 =>
    match b.pickBound (0x100 + row) fun _ => true with
    | none => (none, b)
    | some (f, b1) => if b.expired f then (b.abandon 2 9 [f.id]).rxPick row fuel else (some f, b1)

/-- RX_RING_FILL: the device fills the descriptor at TAIL with the next frame of the ring's bound queues, unless the
ring is full (R284, R290). -/
def State.rxFill (s : State) (row : Nat) : State :=
  let b := s.blk
  let size := b.get Obj.ringSize row
  let tail := b.get Obj.ringTail row
  if !b.rxRing row || (tail + 1) % size = b.get Obj.ringHead row then s
  else
    match b.rxPick row (b.frames.length + 1) with
    | (none, b1) => { s with blk := b1 }
    | (some f, b1) =>
      let b2 := { b1 with fwd := { b1.fwd with filled := b1.fwd.filled ++ [(row, tail, f.id)] } }
      let b3 := (b2.modFrame f.id fun x => { x with air := true }).put Obj.ringTail ((tail + 1) % size) row
      { s with
        mem := memStore s.mem (b.descAt row tail) (octetsLE 16 (b.rxDescriptor f))
        blk := (b3.emit (.frame f.queue f.id)).event (row / 8) 14 }

/-! ### Writes of a ring's objects (R287, R290, R295, R469) -/

/-- A ring may lie at an address: in a firmware region or in the engine part of DRAM (R469). -/
def Block.ringPlace (b : Block) (a len : Nat) : Bool :=
  rangeIn a len 0x10540000 0x10580000 || rangeIn a len 0x105A0000 0x10600000 ||
    rangeIn a len 0x100000000 (b.get Obj.dramEngineTop + 1)

/-- A ring holds frames that it has delivered to the engine. -/
def Block.ringHolds (b : Block) (row : Nat) : Bool := b.fwd.filled.any fun x => x.1 == row

/-- A write of HEAD by the ring's engine: a position past the descriptors filled answers RANGE (DEDUCED, log entry
44). -/
def Block.writeRxHead (b : Block) (row head : Nat) : Nat × Block :=
  let size := b.get Obj.ringSize row
  let old := b.get Obj.ringHead row
  if size ≤ head || decide ((b.get Obj.ringTail row + size - old) % size < (head + size - old) % size) then (6, b)
  else (0, b.rxHead row head)

/-- A write of an object of a ring. -/
def State.writeRing (s : State) (r : Reg) (row v : Nat) : Nat × State :=
  let b := s.blk
  let on := b.is Obj.ringEnable row
  match r.sub with
  | 1 =>
    if v % 16 ≠ 0 || !b.ringPlace v (16 * b.get Obj.ringSize row) then (6, s)
    else if on then (9, s)
    else (0, { s with blk := b.put r v row })
  | 2 =>
    if !(List.range 9).any (fun i => v == 16 * 2 ^ i) then (6, s)
    else if on then (9, s)
    else (0, { s with blk := b.put r v row })
  | 3 =>
    if v = 1 then
      if on then (9, s)
      else if !b.ringPlace (b.get Obj.ringBase row) (16 * b.get Obj.ringSize row) then (6, s)
      else (0, { s with blk := b.put r 1 row })
    else if 4 ≤ row % 8 && b.ringHolds row then (9, s)
    else (0, { s with blk := b.put r 0 row })
  | 4 => let d := b.writeRxHead row v; (d.1, { s with blk := d.2 })
  | _ => s.doorbell row v

end Sys2Proof.Machine
end

