-- ==== Sys2Proof/Machine/Access.lean ====
section
/-!
DEFINITION. Finding an object by index and subindex, its range, the Kraith block and the customer objects, the checks of
R44, and what a read of each object gives.
-/

namespace Sys2Proof.Machine

/-! ### The objects of an index (R41, R80, R81) -/

/-- The subindices of the Kraith block and of CUSTOMER_DEF in order. -/
def kraithRegs : List Reg :=
  [Obj.krIndex, Obj.krSub, Obj.krType, Obj.krSize, Obj.krAccess, Obj.krPersist, Obj.krRows, Obj.krDomain, Obj.krMin,
   Obj.krMax, Obj.krDefault, Obj.krName]

/-- The limits of a subindex of CUSTOMER_DEF (R42, R81). INDEX 0 is a row that declares nothing. -/
def custRng (sub : Nat) : Rng :=
  match sub with
  | 1 => .spanOr 0xA000 0xAFFF 0
  | 3 => .span 1 14
  | 4 => .span 0 256
  | 5 => .set [1, 2, 5, 6]
  | 6 => .span 0 2
  | 8 => .span 0 7
  | _ => .any

/-- CUSTOMER_DEF 0x1022 (R81). -/
def custRegs : List Reg :=
  kraithRegs.map fun r => { r with idx := 0x1022, acc := .rwp1, home := .stored, rows := 1024, rng := custRng r.sub }

/-- The number of a radio object's radio, by its index. -/
def radioOfIdx (idx : Nat) : Nat := (idx - 0x2000) / 0x400

/-- The radio of a number. -/
def radioAt : Nat → Radio
  | 0 => .h
  | 1 => .m
  | _ => .l

/-- A radio object at the index of radio `k`, with that radio's range (R41, R167). -/
def Reg.onRadio (r : Reg) (k : Nat) : Reg :=
  { r with idx := r.idx + 0x400 * k, rng := if k = 0 then r.rng else r.alts.getD (k - 1) r.rng }

/-- The objects of the device at an index. -/
def deviceRegs (idx : Nat) : List Reg :=
  if 0x2000 ≤ idx && decide (idx < 0x2C00) then
    let k := radioOfIdx idx
    let shared := ((Obj.pageOf ((idx - 0x400 * k) / 256)).filter fun r => r.idx == idx - 0x400 * k && bitSet r.radios k).map
      fun r => r.onRadio k
    if k = 0 then shared else shared ++ (Obj.pageOf (idx / 256)).filter fun r => r.idx == idx
  else if 0x7000 ≤ idx && decide (idx < 0x7200) then
    if idx % 16 = 0 && decide (idx < 0x70C0) then Obj.page70.map fun r => r.eng ((idx - 0x7000) / 16) else []
  else if 0x7200 ≤ idx && decide (idx < 0x7400) then
    if idx % 16 = 0 && decide (idx < 0x72B0) then Obj.page72.map fun r => r.eng ((idx - 0x7200) / 16) else []
  else if idx = 0x1022 then custRegs
  else (Obj.pageOf (idx / 256)).filter fun r => r.idx == idx

/-- The field of a CUSTOMER_DEF row. -/
def Block.cust (b : Block) (sub row : Nat) : Nat :=
  match custRegs.find? fun r => r.sub == sub with
  | some r => b.get r row
  | none => 0

/-- The element type that a type code names, and whether the size fits it (R42). -/
def kindOf (code size : Nat) : Option Kind :=
  match code with
  | 1 => if size = 1 then some .bool else none
  | 2 | 3 | 4 | 5 => if size = 2 ^ (code - 2) then some .u else none
  | 6 | 7 | 8 | 9 => if size = 2 ^ (code - 6) then some .i else none
  | 10 => if size = 4 then some .fx else none
  | 11 => if size = 4 then some .bcd else none
  | 12 => if 0 < size then some .oct else none
  | 13 => if 0 < size && decide (size < 256) then some .str else none
  | 14 => if size = 14 then some .time else none
  | _ => none

/-- The declared range of a customer object: MIN to MAX for a numeric type (R80). -/
def custRange (k : Kind) (lo hi : Nat) : Rng :=
  match k with
  | .i | .fx => .span (signedOf 8 lo) (signedOf 8 hi)
  | .bool | .u | .bcd => .span lo hi
  | .oct | .str | .time => .any

/-- The customer object that a row of CUSTOMER_DEF declares (R81). DEFAULT holds the object's octets, most significant
first, zero-padded, or its first 16 (DESIGN CHOICE, log entry 18). -/
def Block.custObject (b : Block) (row : Nat) : Option Reg :=
  let size := b.cust 4 row
  let acc : Option Access := match b.cust 5 row with
    | 1 => some .ro
    | 2 => some .rw
    | 5 => some .rwp1
    | 6 => some .rwp2
    | _ => none
  let home : Home := match b.cust 6 row with
    | 1 => .retained
    | 2 => .stored
    | _ => .none
  match kindOf (b.cust 3 row) size, acc with
  | some k, some a =>
    if b.cust 1 row = 0 || b.cust 2 row = 0 then none
    else some { idx := b.cust 1 row, sub := b.cust 2 row, name := "", kind := k, size := size, acc := a, home := home,
                rows := b.cust 7 row
                dflt := .const (if size ≤ 16 then b.cust 11 row / 256 ^ (16 - size) else b.cust 11 row * 256 ^ (size - 16))
                rng := custRange k (b.cust 9 row) (b.cust 10 row) }
  | _, _ => none

/-- The rows of CUSTOMER_DEF that are in use, in order. -/
def Block.custRows (b : Block) : List Nat :=
  match custRegs with
  | r :: _ => b.listedRows r
  | [] => []

/-- The customer objects declared, each with its row; of two rows that name one subindex the first counts. -/
def Block.custObjects (b : Block) : List (Nat × Reg) :=
  (b.custRows.filterMap fun row => (b.custObject row).map fun r => (row, r)).foldl
    (fun l x => if l.any fun (y : Nat × Reg) => y.2.idx == x.2.idx && y.2.sub == x.2.sub then l else l ++ [x]) []

/-- The subindices defined at an index, the descriptor apart. -/
def Block.regsAt (b : Block) (idx : Nat) : List Reg :=
  if 0xA000 ≤ idx && decide (idx < 0xB000) then (b.custObjects.map (·.2)).filter fun r => r.idx == idx
  else deviceRegs idx

/-- The object descriptor, subindex 0 of an index (R40). -/
def descriptor (idx : Nat) : Reg :=
  { idx := idx, sub := 0, name := "", kind := .u, size := 4, acc := .ro, home := .fuse }

/-- The index of an object of Radio H at Radio M or L, where none of its subindices is that radio's (R167, R193). -/
def otherRadio (idx : Nat) : Bool :=
  decide (0x2400 ≤ idx) && decide (idx < 0x2C00) && !(deviceRegs (idx - 0x400 * radioOfIdx idx)).isEmpty

/-- An object by index and subindex: NO_OBJECT or NO_SUB where it is not defined (R41, R44, R167). -/
def Block.find (b : Block) (idx sub : Nat) : Except Nat Reg :=
  match b.regsAt idx with
  | [] => .error (if otherRadio idx then 2 else 1)
  | l =>
    if sub = 0 then .ok (descriptor idx)
    else match l.find? fun r => r.sub == sub with
      | some r => .ok r
      | none => .error 2

/-! ### The Kraith block (R80) -/

/-- The order of the Kraith block: by index, then by subindex. -/
def Reg.before (r s : Reg) : Bool := decide (r.idx * 256 + r.sub ≤ s.idx * 256 + s.sub)

/-- Objects with the descriptor of each of their indices, in order. -/
def withDescriptors (l : List Reg) : List Reg :=
  let idxs := l.foldl (fun (x : List Nat) r => if x.contains r.idx then x else x ++ [r.idx]) []
  sortBy Reg.before (l ++ idxs.map descriptor)

/-- Every index at which the device defines objects. -/
def deviceIndices : List Nat :=
  let plain := (Obj.all.map (·.idx)).foldl (fun (x : List Nat) i => if x.contains i then x else x ++ [i]) []
  let radio := (plain.filter fun i => decide (0x2000 ≤ i) && decide (i < 0x2400)).flatMap fun i => [i + 0x400, i + 0x800]
  let engs := (List.range 11).flatMap fun n => [0x7010 + 16 * n, 0x7200 + 16 * (n % 11)]
  (plain ++ radio ++ engs ++ [0x1022]).foldl (fun (x : List Nat) i => if x.contains i then x else x ++ [i]) []

/-- The rows of the Kraith block: the device's objects, then the customer's. -/
def Block.kraith (b : Block) : List Reg :=
  withDescriptors (deviceIndices.flatMap deviceRegs) ++ withDescriptors (b.custObjects.map (·.2))

/-- The row count of an object: that of the Kraith block is the number of its rows (R40, R80). -/
def Block.rowsOf (b : Block) (r : Reg) : Nat := if r.idx = 0x1020 then b.kraith.length else r.rows

/-- The value of the descriptor of an index (R40). -/
def Block.descriptorValue (b : Block) (idx : Nat) : Nat :=
  let l := b.regsAt idx
  let rows := match l with
    | r :: _ => b.rowsOf r
    | [] => 0
  rows * 65536 + maxOf (l.map (·.sub)) * 256 + (if rows = 0 then 0 else 128)

/-- TYPE of the Kraith block (R42, R80). -/
def Reg.typeCode (r : Reg) : Nat :=
  match r.kind with
  | .bool => 1
  | .u => if r.size = 1 then 2 else if r.size = 2 then 3 else if r.size = 4 then 4 else 5
  | .i => if r.size = 1 then 6 else if r.size = 2 then 7 else if r.size = 4 then 8 else 9
  | .fx => 10
  | .bcd => 11
  | .oct => 12
  | .str => 13
  | .time => 14

/-- The code of an access right (R43). -/
def Access.code : Access → Nat
  | .ro => 1
  | .rw => 2
  | .wo => 3
  | .w1 => 4
  | .rwp1 => 5
  | .rwp2 => 6
  | .wop2 => 7

/-- The code of a persistence class (R47). -/
def Home.code : Home → Nat
  | .none | .live | .furnace => 0
  | .retained => 1
  | .stored => 2
  | .fuse => 3

/-- The lowest and highest value of an object (R42, R80). -/
def Reg.bounds (r : Reg) : Int × Int :=
  let full : Int × Int := match r.kind with
    | .bool => (0, 1)
    | .i | .fx => (-(2 ^ (8 * r.size - 1)), 2 ^ (8 * r.size - 1) - 1)
    | .bcd => (0, 0x99999999)
    | _ => (0, r.top)
  match r.rng with
  | .any => full
  | .span lo hi => (lo, hi)
  | .set l => (l.foldl min (l.headD 0), l.foldl max (l.headD 0))
  | .mask m => (0, m)
  | .spanOr lo hi x => (min lo x, max hi x)
  | .mult _ lo hi => (lo, hi)
  | .bands l => (l.foldl (fun m x => min m (x.1 : Int)) ((l.headD (0, 0)).1 : Int), l.foldl (fun m x => max m (x.2 : Int)) 0)

/-- An object of a numeric type has MIN and MAX (R80). -/
def Reg.numeric (r : Reg) : Bool :=
  match r.kind with
  | .oct | .str | .time => false
  | _ => true

/-- A name in 24 octets, padded with zeros. -/
def nameValue (s : String) : Nat :=
  let l := s.toList.map fun c => BitVec.ofNat 8 c.toNat
  ofOctetsBE ((l ++ List.replicate 24 0#8).take 24)

/-- One subindex of one row of the Kraith block. What the manual lists nothing for, a descriptor's class and name, is
open; the default of an object whose rows differ in it is row 0's (DESIGN CHOICE, log entry 18). -/
def Block.kraithField (b : Block) (r : Reg) (sub : Nat) : Nat :=
  if r.sub = 0 && (sub = 6 || sub = 12) then Config.kraithOpen sub r.idx
  else if r.sub = 0 && sub = 11 then b.descriptorValue r.idx * 256 ^ 12
  else
    match sub with
    | 1 => r.idx
    | 2 => r.sub
    | 3 => r.typeCode
    | 4 => r.size
    | 5 => r.acc.code
    | 6 => r.home.code
    | 7 => if r.sub = 0 then b.descriptorValue r.idx / 65536 else b.rowsOf r
    | 8 => ownerOf r.idx r.sub
    | 9 => if r.numeric then unsignedOf 8 r.bounds.1 else 0
    | 10 => if r.numeric then unsignedOf 8 r.bounds.2 else 0
    | 11 => if r.size ≤ 16 then r.default 0 * 256 ^ (16 - r.size) else r.default 0 / 256 ^ (r.size - 16)
    | _ =>
      match b.custObjects.find? fun x => x.2.idx == r.idx && x.2.sub == r.sub with
      | some x => b.cust 12 x.1
      | none => nameValue r.name

/-- A row of the Kraith block as its 67 octets in Plais order (R80). -/
def Block.kraithRow (b : Block) (r : Reg) : List Octet :=
  kraithRegs.flatMap fun k => octetsBE k.size (b.kraithField r k.sub)

/-! ### Ranges (R42) -/

/-- A value as the integer that ranges are stated over. -/
def Reg.asInt (r : Reg) (v : Nat) : Int :=
  match r.kind with
  | .i | .fx => signedOf r.size v
  | _ => v

/-- A value lies within a stated range. -/
def Rng.ok (g : Rng) (x : Int) : Bool :=
  match g with
  | .any => true
  | .span lo hi => decide (lo ≤ x) && decide (x ≤ hi)
  | .set l => l.contains x
  | .mask m => x.toNat &&& m == x.toNat
  | .spanOr lo hi y => (decide (lo ≤ x) && decide (x ≤ hi)) || x == y
  | .mult k lo hi => decide ((lo : Int) ≤ x) && decide (x ≤ (hi : Int)) && x % (k : Int) == 0
  | .bands l => l.any fun w => decide ((w.1 : Int) ≤ x) && decide (x ≤ (w.2 : Int))

/-- A value is one of the type (R42). -/
def Reg.typeOk (r : Reg) (v : Nat) : Bool :=
  match r.kind with
  | .bool => decide (v ≤ 1)
  | .bcd => (List.range 8).all fun i => decide (v / 16 ^ i % 16 ≤ 9)
  | .str =>
    let l := (octetsBE r.size v).map (·.toNat)
    let text := l.takeWhile (· ≠ 0)
    text.all (fun c => decide (0x20 ≤ c) && decide (c ≤ 0x7E)) && (l.drop text.length).all (· == 0)
  | .time => decide (v / 65536 % 2 ^ 32 ≤ 999999999)
  | _ => true

/-- A value is within the type and the stated range of the object. -/
def Reg.inRange (r : Reg) (v : Nat) : Bool := decide (v ≤ r.top) && r.typeOk v && r.rng.ok (r.asInt v)

/-! ### The checks of an access (R44) -/

/-- The tier that an access arriving now has (R383, R384). -/
def Block.tierNow (b : Block) : Nat :=
  if !b.windowNow then 0 else if b.pins.maintFitted && b.mode.mode == .maintenance then 2 else 1

/-- A Plais peer row is enabled. -/
def Block.adopted (b : Block) : Bool := (List.range 16).any fun r => b.is Obj.peerEnable r

/-- The tier of the access being checked: the one that held when it arrived (R384). -/
def Block.tierHeld (b : Block) : Nat := b.plais.tier.getD b.tierNow

/-- The Plais peer rights permit an access (R70): before adoption only the peer table and the cipher contexts, while
the window was open when the access arrived; then writes with RIGHTS 1. The job object 0x7410 is no cipher context
(DEDUCED, log entry 165). -/
def Block.linkPermits (b : Block) (p : Port) (idx : Nat) (wr : Bool) : Bool :=
  match p with
  | .udp row | .mesh row =>
    if b.adopted then b.is Obj.peerEnable row && (!wr || b.get Obj.peerRights row == 1)
    else b.tierHeld != 0 && (idx == 0x1014 || idx == 0x7400 || idx == 0x7401)
  | _ => true

/-- The engines that may run cipher jobs: AC0, AC1 and PE0 to PE3 (R315). -/
def jobEngine (n : Nat) : Bool := decide (n < 2) || (decide (5 ≤ n) && decide (n ≤ 8))

/-- An object that a port may not write whatever its right: GAIN and OFFSET of the ADC's internal channels (R372),
CONTROL of GD (R464), HEAD and TAIL of a ring but the doorbell of its engine (R287, R295), the job of a port that is
not AC0's, AC1's or a packet engine's (R315; DEDUCED, log entry 198), and mould rows but through an engine port at F
or M (R462). -/
def Block.closedTo (b : Block) (p : Port) (r : Reg) (row : Nat) : Bool :=
  (r.idx == 0x6300 && (r.sub == 4 || r.sub == 5) && decide (8 ≤ row)) || (r.idx == 0x70B0 && r.sub == 2) ||
    (r.idx == 0x7410 && !jobEngine (portEng p)) ||
    (r.idx == 0x4410 && ((r.sub == 4 && (portEng p != row / 8 || decide (row % 8 < 4))) ||
      (r.sub == 5 && (portEng p != row / 8 || decide (4 ≤ row % 8))))) ||
    (decide (0x7200 ≤ r.idx) && decide (r.idx < 0x7400) && (portEng p == 12 || (b.cpu (portEng p)).priv == .a))

/-- The right of an object permits the direction: 0, or READ_ONLY, WRITE_ONLY or WRITE_ONCE_USED (R43, R46, R76). -/
def Block.rightCode (b : Block) (p : Port) (r : Reg) (row : Nat) (wr : Bool) : Nat :=
  if wr then
    if r.acc = .ro || b.closedTo p r row || (portNum p == 1 && !b.is Obj.canWriteEnable) then 3
    else if r.acc = .w1 && b.regs.used.contains (r.key row) then 12
    else 0
  else
    match r.acc with
    | .wo | .wop2 => 4
    | _ => 0

/-- The tier checks of a write, steps 7 and 8 (R43, R44, R45). -/
def Block.tierCode (b : Block) (r : Reg) : Nat :=
  match r.acc with
  | .rwp1 => if b.tierHeld = 0 then 7 else 0
  | .rwp2 | .wop2 => if b.tierHeld = 0 then 7 else if b.tierHeld = 2 then 0 else 8
  | _ => 0

/-- The objects that recovery admits, on the console (R505). -/
def recoveryAdmits (p : Port) (idx : Nat) : Bool :=
  portNum p == 0 &&
    (idx == 0x1600 || idx == 0x1601 || (decide (0x1610 ≤ idx) && decide (idx ≤ 0x1612)) || idx == 0x1630)

/-- Rows that an object does not have: the reserved alarm rows, and RAISE of the device's own rows (R376, R380). -/
def noSuchRow (r : Reg) (row : Nat) : Bool :=
  r.idx == 0x6500 && r.sub != 0 && ((decide (13 ≤ row) && decide (row ≤ 23)) || (r.sub == 8 && decide (row < 24)))

/-- Steps 1 to 8 of R44: the object and the row in its store, or the result. During an entry into Hibernate every access
but a read of 0x1300 answers BUSY (R104). A port-local object stands at the port's own row. -/
def Block.checkAccess (b : Block) (p : Port) (idx sub row : Nat) (wr : Bool) : Except Nat (Reg × Nat) :=
  if b.mode.entry.isSome && (wr || idx != 0x1300) then .error 9
  else if b.recovery && !recoveryAdmits p idx then .error 9
  else
    match b.find idx sub with
    | .error e => .error e
    | .ok r =>
      let rows := b.rowsOf r
      let w := b.rowFor p row
      if noSuchRow r w then .error 2
      else if rows ≠ 0 && decide (rows ≤ w) then .error 11
      else if !b.domainOn (ownerOf idx sub) then .error 10
      else
        let at_ := if r.loc then portRow p r else if rows = 0 then 0 else w
        let rc := b.rightCode p r at_ wr
        let tc := if wr then b.tierCode r else 0
        if rc ≠ 0 then .error rc
        else if !b.linkPermits p idx wr then .error 14
        else if tc ≠ 0 then .error tc
        else .ok (r, at_)

/-- Steps 9 and 10 of R44: the length and the range of a value. -/
def Reg.valueCode (r : Reg) (len v : Nat) : Nat := if len ≠ r.size then 5 else if !r.inRange v then 6 else 0

/-! ### Reads -/

/-- The two bits of a domain (R108). -/
def domainBits (on low fenced : Bool) : Nat := if fenced then 3 else if !on then 0 else if low then 2 else 1

/-- DOMAIN_STATE (R108). -/
def Block.domainState (b : Block) : Nat :=
  let f := b.get Obj.fabricFenced
  let listens := b.pollOpen || b.mac.lost.any b.listening || b.parentListens
  let eth := domainBits (b.domainOn 7) (b.fwd.low.all id) (b.domainOn 7 && bitSet f 17 && bitSet f 18)
  let dram := domainBits (b.domainOn 6) (b.get Obj.dramState == 2) (bitSet f 15 && bitSet f 16)
  let m := domainBits (b.domainOn 4) (b.radio .m).low (bitSet f 13)
  let h := domainBits (b.domainOn 3) (b.radio .h).low (bitSet f 12)
  let l := domainBits (b.domainOn 5) (b.baseMode == .dayWatch && !listens) (bitSet f 14)
  eth * 16384 + dram * 4096 + m * 1024 + h * 256 + l * 64 + domainBits b.coreA false false * 16 +
    domainBits b.coreF false false * 4 + 1

/-- Whole seconds since a tick. -/
def Block.secsSince (b : Block) (t : Nat) : Nat := (b.now - t) / 320000000

/-- The unit of a policer: that of the context rows that name it. -/
def Block.polUnitOf (b : Block) (pol : Nat) : Nat :=
  maxOf ((b.listedRows Obj.ictxKind).map fun r =>
    if b.get Obj.ictxPolicer r = pol then unitOfCtx (b.get Obj.ictxKind r) (b.get Obj.ictxKey r) else 0)

/-- Low objects that a unit computes: identity, presence, the log and the modes. -/
def Block.viewLow (b : Block) (p : Port) (r : Reg) (row : Nat) : Option Nat :=
  match r.idx, r.sub with
  | 0x1010, 1 => some (portNum p)
  | 0x1020, sub => (b.kraith[row]?).map fun k => b.kraithField k sub
  | 0x1021, 1 => some b.kraith.length
  | 0x1021, 2 => some (crc32 (b.kraith.flatMap b.kraithRow))
  | 0x1100, 1 => some b.tierNow
  | 0x1100, 2 => some (if b.windowNow then 1 else 0)
  | 0x1100, 3 => some (match b.window with
      | some end_ => max 1 ((end_ - b.now + 319999999) / 320000000)
      | none => 0)
  | 0x1100, 7 => some (if b.pins.maintFitted then 1 else 0)
  | 0x1200, 1 => some (b.cullet.next % 2 ^ 32)
  | 0x1200, 2 => some (b.cullet.next / 2 ^ 32)
  | 0x1200, 5 => some b.cullet.queue.length
  | 0x1210, 1 => some (ofOctetsBE (b.slotOctets row))
  | 0x1300, 1 => some b.mode.mode.num
  | 0x1300, 3 => some b.mode.trans.num
  | 0x1300, 4 => some (if b.mode.trans = .none then b.mode.mode.num else b.mode.target.num)
  | 0x1301, 1 => some b.domainState
  | 0x1403, 6 => some (if b.margin.pass.isSome then 1 else 0)
  | 0x1611, 3 => some (b.get Obj.rollback)
  | _, _ => none

/-- Objects of the radios, the MAC, the links and forwarding that a unit computes. -/
def Block.viewMac (b : Block) (r : Reg) (row : Nat) : Option Nat :=
  match r.idx, r.sub with
  | 0x2D00, 1 | 0x2D00, 2 | 0x2D00, 3 | 0x2D00, 4 | 0x2D00, 5 | 0x2D00, 6 => some (b.blankShown (r.sub - 1))
  | 0x2010, 2 => some b.cacStateNow
  | 0x2010, 3 => some b.nopRemain
  | 0x2C00, 8 => some b.stageCrc
  | 0x3100, 6 => some (if b.staUsed row then b.secsSince (assocNat b.mac.heardSta row) else 0)
  | 0x3200, 10 => some (if b.nbrUsed row then b.secsSince (assocNat b.mac.heardNbr row) else 0)
  | 0x3300, 1 => some ((b.dutyUsed row).1 / 10)
  | 0x3300, 2 => some ((b.dutyUsed row).2 / 10)
  | 0x3502, 7 => some b.asnNow
  | 0x3601, 8 => some ((b.link (row / 8)).held.filter fun h => h.stream == row % 8).length
  | 0x3700, 6 => some (b.gth.gathers.length)
  | 0x3700, 7 => some b.gatherStore
  | 0x4300, 6 => some (if b.get Obj.bridgeState row = 0 then 0 else min 65535 (b.secsSince (assocNat b.fwd.bridgeSeen row)))
  | 0x4420, 7 => some b.bufferPercent
  | 0x4500, 4 => some (unsignedOf 4 ((b.shapNow row).tokens / tokenUnit))
  | 0x4600, 5 => some (b.polUnitOf row)
  | _, _ => none

/-- Objects of the time island, the field units, the engines and the memories that a unit computes. -/
def Block.viewTime (b : Block) (r : Reg) (row : Nat) : Option Nat :=
  match r.idx, r.sub with
  | 0x5000, 10 => some (time112 ((b.time.dom row).at b.now))
  | 0x5000, 15 => some (if b.get Obj.domState row = 3 then b.secsSince (b.time.dom row).since else 0)
  | 0x5010, 6 => some (time112 b.presented)
  | 0x5010, 7 => some (unsignedOf 8 (b.offset / 2 ^ 40))
  | 0x5030, 1 => some (b.rtc % 2 ^ 32)
  | 0x5030, 2 => some (b.rtc / 2 ^ 32)
  | 0x5030, 3 => some (b.uptime % 2 ^ 32)
  | 0x5030, 4 => some (b.uptime / 2 ^ 32 % 2 ^ 32)
  | 0x5030, 5 => some b.tiTicks
  | 0x5200, 2 => some (b.stamps.getD row []).length
  | 0x5300, 7 => some (b.countNow row)
  | 0x5310, 2 => some (if b.is Obj.pairLink row then b.wholeCount (2 * row) else b.countNow (2 * row))
  | 0x6100, 9 => some b.dimNowValue
  | 0x6500, 8 => some (b.get Obj.alarmDetail row % 2)
  | 0x8000, 1 =>
    let st := b.get Obj.dramState
    some (if st = 2 && decide (b.now < b.dram.entered + 128) then (if b.chFenced 0 || b.chFenced 1 then 4 else 1) else st)
  | 0x8200, 1 => some b.regs.slots.words
  | _, _ => none

/-- Objects of an engine that it computes (R464). -/
def Block.viewEngine (b : Block) (r : Reg) : Option Nat :=
  if 0x7000 ≤ r.idx && decide (r.idx < 0x7200) then
    let n := (r.idx - 0x7000) / 16
    match r.sub with
    | 1 => some (b.runState n)
    | 15 => some (if b.runState n = 1 || b.runState n = 4 then (b.cpu n).pc.toNat else 0)
    | _ => none
  else none

/-- The value that an object's row shows, with no effect of the read. -/
def Block.view (b : Block) (p : Port) (r : Reg) (row : Nat) : Nat :=
  if r.sub = 0 then b.descriptorValue r.idx
  else
    match b.viewLow p r row, b.viewMac r row, b.viewTime r row, b.viewEngine r with
    | some v, _, _, _ => v
    | none, some v, _, _ => v
    | none, none, some v, _ => v
    | none, none, none, some v => v
    | none, none, none, none => b.get r row

/-- A read of an object's row: the result, the value and what the read changes: MISS_TAKE (R281), MAX_OCTETS and
MAX_SOJOURN (R291), LATE (R339), a capture's TIME (R341), POP and OVERFLOW (R337), EVENTS and a linked COUNT (R349,
R354), TJ_PEAK (R427). -/
def Block.readReg (b : Block) (p : Port) (r : Reg) (row : Nat) : Nat × Nat × Block :=
  let v := b.view p r row
  match r.idx, r.sub with
  | 0x1410, 2 => (0, v, b.put r (b.get Obj.tjNow) row)
  | 0x4120, 1 => let d := b.missTake (portEng p); (0, d.1, d.2)
  | 0x4701, 4 | 0x4701, 5 => (0, v, b.put r 0 row)
  | 0x5100, 9 => (0, v, b.put r 0 row)
  | 0x5110, 5 => (0, v, { b with unread := b.unread.set row false })
  | 0x5200, 1 => b.popStamp row
  | 0x5200, 3 => (0, v, b.put r 0 row)
  | 0x5300, 7 =>
    if row % 2 = 1 && b.is Obj.pairLink (row / 2) then let d := b.readHigh p (row / 2); (0, d.1, d.2)
    else if b.is Obj.pairLink (row / 2) then (0, v, b.latchHigh p (row / 2))
    else (0, v, b)
  | 0x5300, 9 => (0, v, b.modTimer row fun c => { c with unread := false })
  | 0x5300, 10 => let d := b.readEvents row; (0, d.1, d.2)
  | _, _ => (0, v, b)

end Sys2Proof.Machine
end

