-- ==== Sys2Proof/Machine/Commit.lean ====
section
/-!
DEFINITION. The commit point: what a write of each object does once steps 1 to 10 of R44 have passed (step 11, the state
of the owning function, answers here), the bookkeeping of an access, the restore of defaults and the customer objects
(R48 to R60, R79 to R81).
-/

namespace Sys2Proof.Machine

/-- A write that only changes the object. -/
def Block.plainWrite (b : Block) (r : Reg) (row v : Nat) : Nat × Block := (0, b.put r v row)

/-- A write that only changes the object, where a relation between objects then holds; else RANGE. -/
def Block.rangeWrite (b : Block) (r : Reg) (row v : Nat) (ok : Block → Bool) : Nat × Block :=
  let b1 := b.put r v row
  if ok b1 then (0, b1) else (6, b)

/-! ### Dictionary, presence, modes, boot (0x1000 to 0x1FFF) -/

/-- A write of a Plais peer row (R71, R301). -/
def Block.writePeer (b : Block) (r : Reg) (row v : Nat) : Nat × Block :=
  let b1 := b.put r v row
  let rx := b1.get Obj.peerCtxRx row
  let tx := b1.get Obj.peerCtxTx row
  let touched := r.sub == 1 || r.sub == 3 || r.sub == 4
  if touched && b1.is Obj.peerEnable row && (rx == tx || !b1.usersSingle [rx, tx]) then (6, b) else (0, b1)

/-- ANNOUNCE_TIME plus DRAIN_GUARD is less than DRAIN_LEAD (R98). -/
def Block.drainTimesOk (b : Block) : Bool :=
  decide (b.get Obj.announceTime + b.get Obj.drainGuard < b.get Obj.drainLead)

/-- 2 × XSPI_TIMEOUT + 100 µs stays within FABRIC_STALL_LIMIT (R23, R496). -/
def Block.stallOk (b : Block) : Bool := decide (2 * b.get Obj.xspiTimeout + 100 ≤ b.get Obj.fabricStallLimit)

/-- The clock limit of the XSPI slew group in MHz (R430, R491). -/
def slewLimit : Nat → Nat
  | 0 => 25
  | 1 => 66
  | 2 => 133
  | _ => 200

/-- The slots neither overlap nor pass XSPI_SIZE (R512). -/
def Block.slotsOk (b : Block) : Bool :=
  let x := b.get Obj.slotABase
  let y := b.get Obj.slotBBase
  let z := b.get Obj.slotSize
  (decide (x + z ≤ y) || decide (y + z ≤ x)) && decide (max x y + z ≤ b.get Obj.xspiSize * 1048576)

/-- A write of FLUSH_ACTION: the scope of 1 to 5 and FLUSH_TARGET (R123). -/
def Block.writeFlush (b : Block) (v : Nat) : Nat × Block :=
  if v = 0 then (0, b) else if 5 < v then (6, b) else (0, b.flush v (b.get Obj.flushTarget))

/-- A write of COLD_RESET: BUSY while accepted work is held (R502). -/
def Block.writeColdReset (b : Block) (v : Nat) : Nat × Block :=
  if v ≠ 1 then (0, b) else if 0 < b.get Obj.acceptedHeld then (9, b) else (0, b.coldReset 3)

/-- A write of WARM_RESET (R502), with what the result buffers hold and the journal lines repaired. -/
def Block.writeWarmReset (b : Block) (v : Nat) (done : List Nat) (repaired : Nat) : Nat × Block :=
  (0, if v = 1 then b.warmReset 2 done repaired else b)

/-- A write of SLEW of the XSPI group, subindex 1: a lowered step lowers the clock to its limit (R430, R491). -/
def Block.writeSlew1 (b : Block) (r : Reg) (v : Nat) : Nat × Block :=
  let b1 := b.put r v
  (0, b1.put Obj.xspiClk (min (b1.get Obj.xspiClk) (slewLimit v)))

/-- The slew of the XSPI group, group 0 at subindex 1 (R430). -/
def xspiSlew : Reg := Obj.slew1

/-- Writes of 0x1000 to 0x12FF. -/
def Block.writeIdent (b : Block) (r : Reg) (row v : Nat) : Nat × Block :=
  match r.idx, r.sub with
  | 0x1008, _ => b.writeBinding r v
  | 0x1014, _ => b.writePeer r row v
  | 0x1100, 5 => b.writePresenceClose v
  | 0x1101, 7 => b.writeSealClear v
  | 0x1101, 4 => b.plainWrite r row v
  | 0x1101, _ => b.writeSeal r v
  | _, _ => b.plainWrite r row v

/-- Writes of 0x1300 to 0x1FFF. -/
def Block.writeModes (b : Block) (r : Reg) (row v : Nat) (p : Port) : Nat × Block :=
  match r.idx, r.sub with
  | 0x1300, 2 => b.requestMode v
  | 0x1311, 2 | 0x1311, 3 | 0x1311, 4 => b.rangeWrite r row v Block.drainTimesOk
  | 0x1320, 2 => b.writeDwParent v
  | 0x1330, 1 => b.plainWrite r row (v ||| 6)
  | 0x1402, 2 | 0x1402, 3 => b.writeVcore r v true
  | 0x1403, 6 => b.writeLehrRun v
  | 0x1410, 3 | 0x1410, 4 => b.rangeWrite r row v fun c => decide (c.get Obj.thermalExit + 4 ≤ c.get Obj.thermalEnter)
  | 0x1430, 1 => b.writeSlew1 r v
  | 0x1520, 1 => b.writeFlush v
  | 0x1540, 1 => b.rangeWrite r row v Block.stallOk
  | 0x1600, 3 => b.writeWarmReset v [] 0
  | 0x1600, 4 => b.writeColdReset v
  | 0x1601, 1 | 0x1601, 2 | 0x1601, 3 => b.rangeWrite r row v Block.slotsOk
  | 0x1601, 6 => b.writeBootConfirm v
  | 0x1610, 1 => b.writeKeyHash row v true
  | 0x1610, 3 => b.writeRevoke row v
  | 0x1611, 3 => b.writeRollback v
  | 0x1612, 2 => b.writeUnlock v
  | 0x1612, 3 => b.writeDebugLock v
  | 0x1612, 4 => b.writeDebugDisable v
  | 0x1630, 1 => b.rangeWrite r row v fun c => decide (v ≤ slewLimit (c.get xspiSlew))
  | 0x1630, 2 => b.rangeWrite r row v Block.stallOk
  | 0x1630, 6 => b.writeXspiOp p (portLoc p) v
  | _, _ => b.plainWrite r row v

/-! ### Radios and region (0x2000 to 0x2FFF) -/

/-- RAMP_PROFILE is non-decreasing and ends at 255 (R152). -/
def profileOk (v : Nat) : Bool :=
  let l := (octetsBE 32 v).map (·.toNat)
  ((List.range 31).all fun i => decide (l.getD i 0 ≤ l.getD (i + 1) 0)) && l.getD 31 0 == 255

/-- The number of bits set below bit 32. -/
def onesIn (v : Nat) : Nat := ((List.range 32).filter fun i => bitSet v i).length

/-- A write of REGION_COMMIT as one of a commit group: the flip follows at once, with nothing between (R59; DESIGN
CHOICE, log entry 45). -/
def Block.commitAndFlip (b : Block) (p : Port) (v : Nat) : Nat × Block :=
  match b.regionCommit (portNum p) v with
  | (some e, c) => (e, c)
  | (none, c) => (0, c.regionFlip)

/-- Writes of 0x2000 to 0x2BFF: the objects of radio `k`, by the index of Radio H. -/
def Block.writeRadio (b : Block) (r : Reg) (k row v : Nat) : Nat × Block :=
  let x := radioAt k
  match r.idx - 0x400 * k, r.sub with
  | 0x2000, 1 => b.writeTune Obj.tuneFreq x v
  | 0x2000, 2 => b.writeTune Obj.tuneBw x v
  | 0x2001, 1 => b.plainWrite r row (v ||| 16)
  | 0x2002, 5 => if k = 2 then (0, b) else b.plainWrite r row v
  | 0x2003, 4 => b.writeFemPolarity x v
  | 0x2003, 1 => if profileOk v then b.plainWrite r row v else (6, b)
  | 0x2005, 1 => b.writeTestMode x v
  | 0x2030, 1 | 0x2030, 2 =>
    if k = 1 then (0, (b.put r v row).checkSplit)
    else if r.sub = 1 then (if 12 < onesIn v then (6, b) else b.plainWrite r row v)
    else b.plainWrite r row v
  | 0x2040, 1 =>
    if k = 2 then (if onesIn v < 12 || 20 < onesIn v then (6, b) else b.plainWrite r row v) else b.writeBssEnable x row v
  | 0x2040, s =>
    if k ≠ 2 && (s = 2 || s = 3 || s = 4 || s = 9 || s = 10) then
      (if b.is (Obj.bssEnable.of x) row then (9, b) else b.plainWrite r row v)
    else b.plainWrite r row v
  | _, _ => b.plainWrite r row v

/-- Writes of 0x2C00 to 0x2FFF. -/
def Block.writeRegion (b : Block) (r : Reg) (row v : Nat) (p : Port) : Nat × Block :=
  match r.idx, r.sub with
  | 0x2C00, 6 => b.commitAndFlip p v
  | 0x2C00, 7 => if v = 1 then b.regionClear else (0, b)
  | 0x2D00, 1 | 0x2D00, 2 | 0x2D00, 3 | 0x2D00, 4 | 0x2D00, 5 | 0x2D00, 6 =>
    let d := b.writeBlankBy (r.sub - 1) v
    (d.1, d.2.applyBlanks)
  | 0x2D00, 9 => b.writeCoexPolarity v
  | _, _ => b.plainWrite r row v

/-! ### Medium access and cane links (0x3000 to 0x3FFF) -/

/-- ECWMAX is not below ECWMIN, for the device's own rows and the advertised ones (R194). -/
def Block.ecwOk (b : Block) (row : Nat) : Bool :=
  decide (b.get Obj.edcaEcwmin row ≤ b.get Obj.edcaEcwmax row) &&
    decide (b.get Obj.edcaAdvEcwmin row ≤ b.get Obj.edcaAdvEcwmax row)

/-- The contexts of the strands that a link uses. -/
def Block.linkCtxs (b : Block) (k : Nat) : List Nat :=
  (radios3.filter fun x => b.strandOn k x).flatMap fun x => [b.get (strandCtx x).1 k, b.get (strandCtx x).2 k]

/-- A write of a cane link row (R229, R258, R301). -/
def Block.writeLinkRow (b : Block) (r : Reg) (k v : Nat) : Nat × Block :=
  let b1 := b.put r v k
  let on := b.is Obj.caneEnable k
  match r.sub with
  | 1 =>
    if v = 0 && b.frames.any (fun f => f.ofLink k) then (9, b)
    else if !b1.usersSingle (b1.linkCtxs k) then (6, b)
    else (0, b1.configStrands k)
  | 3 => if !b1.usersSingle (b1.linkCtxs k) then (6, b) else (0, b1.configStrands k)
  | 17 => (0, if v = 1 then b.deleteLink k else b)
  | 6 =>
    if v ≠ 65535 && (List.range 32).any (fun j => j != k && b.get Obj.caneLNbr j == v) then (6, b)
    else if on then (9, b)
    else (0, b1)
  | 2 | 4 | 5 | 7 | 8 | 9 | 10 | 11 | 12 | 18 => if on then (9, b) else (0, b1)
  | _ => (0, b1)

/-- Writes of 0x3000 to 0x3FFF. -/
def Block.writeMac (b : Block) (r : Reg) (row v : Nat) : Nat × Block :=
  match r.idx, r.sub with
  | 0x3010, _ => b.rangeWrite r row v fun c => c.ecwOk row
  | 0x3100, 7 => b.writeKick row v
  | 0x3200, 1 => b.writeNbrAddr row v
  | 0x3200, 12 => b.writeRemove row v
  | 0x3200, _ => b.writeNbr r row v
  | 0x3600, _ => b.writeLinkRow r row v
  | _, _ => b.plainWrite r row v

/-! ### Forwarding (0x4000 to 0x4FFF) -/

/-- A port's link goes down: a frame that was on its line waits in its queue again, to be sent in full, and no pause
lasts. -/
def Block.lineDown (b : Block) (port : Nat) : Block :=
  let b0 := { b with fwd := { b.fwd with paused := b.fwd.paused.set port [], xoff := b.fwd.xoff.set port (0, 0) } }
  let b1 := match b0.fwd.line.getD port none with
    | some fid => ({ b0 with fwd := { b0.fwd with line := b0.fwd.line.set port none } }).modFrame fid fun f =>
        { f with state := .queued }
    | none => b0
  if b1.get Obj.ethLink port = 0 then b1
  else { b1 with fwd := { b1.fwd with downAt := b1.fwd.downAt.set port b1.now } }.put Obj.ethLink 0 port

/-- A write of MODE of a port: MODE 2 needs port 0 alone; the link goes down and comes up in the new mode (R266). -/
def Block.writeEthMode (b : Block) (r : Reg) (row v : Nat) : Nat × Block :=
  let b1 := b.put r v row
  if (v = 2 && (row = 1 || b.get Obj.ethMode 1 ≠ 0)) || (row = 1 && v ≠ 0 && b.get Obj.ethMode 0 = 2) then (6, b)
  else
    let b2 := b1.lineDown row
    (0, { b2 with fwd := { b2.fwd with low := b2.fwd.low.set row false } })

/-- No two rows of the ingress contexts share KIND and KEY, and each policer is bound in one unit (R267, R268): the
wildcard of the BSSs, which the edges of Radio H and M share, binds none (DEDUCED, log entry 194). -/
def Block.ictxOk (b : Block) (row : Nat) : Bool :=
  let kind := b.get Obj.ictxKind row
  let key := b.get Obj.ictxKey row
  let pol := b.get Obj.ictxPolicer row
  let rows := (b.listedRows Obj.ictxKind).filter fun r => r != row && b.get Obj.ictxKind r != 0
  kind == 0 ||
    (!(rows.any fun r => b.get Obj.ictxKind r == kind && b.get Obj.ictxKey r == key) &&
      (pol == 65535 || unitOfCtx kind key != 8 && rows.all fun r =>
        b.get Obj.ictxPolicer r != pol ||
          unitOfCtx (b.get Obj.ictxKind r) (b.get Obj.ictxKey r) == unitOfCtx kind key))

/-- No other valid route has the family, prefix and length of a row (R277). -/
def Block.routeOk (b : Block) (row : Nat) : Bool :=
  !b.is Obj.routeValid row || !((b.listedRows Obj.routeValid).any fun r =>
    r != row && b.get Obj.routeFamily r == b.get Obj.routeFamily row &&
      b.get Obj.routePrefix r == b.get Obj.routePrefix row && b.get Obj.routeLen r == b.get Obj.routeLen row)

/-- A route's LEN fits its FAMILY (R294). -/
def Block.routeLenOk (b : Block) (row : Nat) : Bool :=
  decide (b.get Obj.routeLen row ≤ if b.get Obj.routeFamily row = 4 then 32 else 128)

/-- A write of a route row (R277). -/
def Block.writeRoute (b : Block) (r : Reg) (row v : Nat) : Nat × Block :=
  let d := b.rangeWrite r row v fun c => c.routeOk row && (r.sub = 2 || c.routeLenOk row)
  if d.1 = 0 && (r.sub = 2 || r.sub = 3 || r.sub = 4) && b.is Obj.routeValid row && b.get r row ≠ v then (9, b) else d

/-- No other row of the bridge table has the key of a row (R278). -/
def Block.bridgeOk (b : Block) (row : Nat) : Bool :=
  b.get Obj.bridgeState row == 0 || !((b.listedRows Obj.bridgeState).any fun r =>
    r != row && b.get Obj.bridgeState r != 0 && b.get Obj.bridgeBd r == b.get Obj.bridgeBd row &&
      b.get Obj.bridgeMac r == b.get Obj.bridgeMac row)

/-- A write of a bridge row: STATE 0 frees it (R278). -/
def Block.writeBridge (b : Block) (r : Reg) (row v : Nat) : Nat × Block :=
  if r.sub = 1 && v = 0 then (0, b.freeBridge row)
  else
    let d := b.rangeWrite r row v fun c => c.bridgeOk row
    if d.1 = 0 && b.get Obj.bridgeState row = 0 then
      (0, { d.2 with fwd := { d.2.fwd with bridgeSeen := assocPut d.2.fwd.bridgeSeen row b.now } })
    else d

/-- A static row of the bridge table keeps its copy in MRAM (R294, R472). -/
def Block.writeBridgeRow (b : Block) (r : Reg) (row v : Nat) : Nat × Block :=
  let d := b.writeBridge r row v
  if d.1 = 0 && (b.get Obj.bridgeState row = 2 || d.2.get Obj.bridgeState row = 2) then (0, d.2.mramWrote (Config.mramWords 4)) else d

/-- A write of INSERT by a port (R276). -/
def Block.writeInsert (b : Block) (loc v : Nat) : Nat × Block :=
  if v ≠ 1 then (0, b)
  else
    let d := b.insertFlow (b.get Obj.stgStageKey loc) (b.get Obj.stgStageAction loc) (b.get Obj.stgStageTarget loc)
      (b.get Obj.stgStageClass loc) (b.get Obj.stgStageIdle loc)
    (d.1, d.2.2.put Obj.stgInsertRow d.2.1 loc)

/-- A write of RATE or BURST of a shaper: it applies from the next accrual, the tokens clipped to the new BURST
(R286). -/
def Block.writeShaper (b : Block) (r : Reg) (row v : Nat) : Nat × Block :=
  let k := b.shapNow row
  let b1 := { b with fwd := { b.fwd with shap := assocPut b.fwd.shap row k } }.put r v row
  (0, { b1 with fwd := { b1.fwd with shap := assocPut b1.fwd.shap row (b1.shapNow row) } })

/-- A write of RATE or BURST of a policer (R269; DEDUCED, log entry 46). -/
def Block.writePolicer (b : Block) (r : Reg) (row v : Nat) : Nat × Block :=
  let k := (b.polBucket row).accrue (b.get Obj.polRate row) (b.get Obj.polBurst row) b.now
  let b1 := { b with fwd := { b.fwd with pol := assocPut b.fwd.pol row k } }.put r v row
  let k1 := k.accrue (b1.get Obj.polRate row) (b1.get Obj.polBurst row) b.now
  (0, { b1 with fwd := { b1.fwd with pol := assocPut b1.fwd.pol row k1 } })

/-- Writes of 0x4000 to 0x4FFF, but for the rings. -/
def Block.writeForward (b : Block) (r : Reg) (row v : Nat) (p : Port) : Nat × Block :=
  match r.idx, r.sub with
  | 0x4000, 1 => b.writeEthMode r row v
  | 0x4002, _ => if (octetsBE r.size v).all fun o => decide (o.toNat ≤ 7) then b.plainWrite r row v else (6, b)
  | 0x4010, _ => b.rangeWrite r row v fun c => c.ictxOk row
  | 0x4100, 1 => if v = 1 then (6, b) else (0, b.freeFlow row)
  | 0x4101, 1 => if octAt v 40 3 ≠ 0 then (6, b) else b.plainWrite r row v
  | 0x4101, 6 => b.writeInsert (portLoc p) v
  | 0x4120, 2 => b.verdict (portEng p) v
  | 0x4200, _ => b.writeRoute r row v
  | 0x4300, _ => b.writeBridgeRow r row v
  | 0x4400, 1 => b.writeShaperOf r row v
  | 0x4400, 6 => if b.frames.any (fun f => f.queue == row) then (9, b) else b.plainWrite r row v
  | 0x4420, 4 | 0x4420, 5 => b.rangeWrite r row v fun c => decide (c.get Obj.xoffLevel < c.get Obj.xonLevel)
  | 0x4500, 1 | 0x4500, 2 => b.writeShaper r row v
  | 0x4600, 1 | 0x4600, 2 => b.writePolicer r row v
  | 0x4702, 4 => (0, if v = 1 then b.clearHist row else b)
  | 0x4702, _ => (0, (b.put r v row).clearHist row)
  | _, _ => b.plainWrite r row v

/-! ### Time and the field side (0x5000 to 0x6FFF) -/

/-- Writes of 0x5000 to 0x5FFF. -/
def Block.writeTime (b : Block) (r : Reg) (row v : Nat) : Nat × Block :=
  match r.idx, r.sub with
  | 0x5000, 1 => b.writeSource row v
  | 0x5000, 9 => b.writeOffsetIn row v
  | 0x5010, 1 => b.writePresentSel v
  | 0x5010, 3 => b.writeStepAllow v
  | 0x5010, 4 => b.writeSlew v
  | 0x5010, 9 => b.writePresentSet v
  | 0x5100, 1 => b.writeTrigEnable row v
  | 0x5100, _ => b.writeTrig r row v
  | 0x5300, 1 => b.writeTmrEnable row v
  | 0x5300, 2 | 0x5300, 3 | 0x5300, 4 | 0x5300, 7 => b.writeTmr r row v
  | 0x5300, 5 => b.writePeriod row v
  | 0x5300, 6 => b.writeCompare row v
  | 0x5300, 13 => (0, (b.put r v row).pwmLevel row)
  | 0x5310, 1 => b.writeLink row v
  | 0x5320, 2 => (0, if v = 1 then b.globalStart else b)
  | _, _ => b.plainWrite r row v

/-- The vehicle length bounds rise strictly (R379). -/
def Block.boundsOk (b : Block) : Bool :=
  let l := lenBounds.map fun r => b.get r
  (List.range 5).all fun i => decide (l.getD i 0 < l.getD (i + 1) 0)

/-- Writes of 0x6000 to 0x6FFF. -/
def Block.writeField (b : Block) (r : Reg) (row v : Nat) : Nat × Block :=
  match r.idx, r.sub with
  | 0x6000, 1 => (0, (b.put r v).daliShow)
  | 0x6010, 3 => b.writeDaliState row v
  | 0x6010, _ => b.writeDaliRow r row v
  | 0x6100, 2 => b.writeDim 0 v
  | 0x6100, 3 => b.writeDim 1 v
  | 0x6100, 1 | 0x6100, 5 | 0x6100, 7 | 0x6100, 8 => b.writeDimSet r v
  | 0x6110, 1 => b.writeRelay row v
  | 0x6110, 7 | 0x6110, 8 => b.writeWear r row v
  | 0x6120, 1 => b.writeZxEdges v
  | 0x6202, 7 => if v ≠ 0 && 60 % v = 0 then b.plainWrite r row v else (6, b)
  | 0x6202, 8 => b.plainWrite r row v
  | 0x6202, _ => b.rangeWrite r row v Block.boundsOk
  | 0x6400, 2 => if v < b.get Obj.nominalRate then (6, b) else b.plainWrite r row v
  | 0x6500, 1 => b.writeAlarmEnable row v
  | 0x6500, 5 => b.writeAlarmClear row v
  | 0x6500, 8 => b.writeAlarmRaise row v
  | _, _ => b.plainWrite r row v

/-! ### Engines, cipher and memory (0x7000 to 0x8FFF) -/

/-- An engine's configuration may change: it neither runs nor waits (R464). -/
def Block.engineIdle (b : Block) (n : Nat) : Bool := b.runState n != 2 && b.runState n != 3

/-- Writes of an engine's objects (R464). A watchdog that WATCHDOG 0 has stopped starts anew (R455; DEDUCED, log entry
214). -/
def Block.writeEngine (b : Block) (r : Reg) (v : Nat) : Nat × Block :=
  let n := (r.idx - 0x7000) / 16
  match r.sub with
  | 2 => b.writeControl n v
  | 3 => if !b.engineIdle n then (9, b) else b.plainWrite r 0 (if n = 11 then v % 2 else v)
  | 4 => if 2 ^ 40 ≤ v then (6, b) else if !b.engineIdle n then (9, b) else b.plainWrite r 0 v
  | 5 => if v % 0x400 ≠ 0 then (6, b) else if !b.engineIdle n then (9, b) else b.plainWrite r 0 v
  | 6 => if v % 4096 ≠ 0 then (6, b) else if !b.engineIdle n then (9, b) else b.plainWrite r 0 v
  | 7 =>
    if v % 4096 ≠ 0 || (v ≠ 0 && !hasA n) then (6, b)
    else if !b.engineIdle n then (9, b)
    else b.plainWrite r 0 v
  | 9 => (0, (if b.get r = 0 then b.modCpu n fun c => { c with wdStart := b.now } else b).put r v)
  | _ => b.plainWrite r 0 v

/-- A write of BIND: one context for each station, BSS and neighbour, one user for each context (R301). -/
def Block.writeBind (b : Block) (row v : Nat) : Nat × Block :=
  let b1 := b.put Obj.ctxBind v row
  let who := v % 2 ^ 24
  let most : Nat := match v / 2 ^ 24 with
    | 1 => 512
    | 2 => 32
    | 3 => 1024
    | _ => 2 ^ 24
  if 3 < v / 2 ^ 24 || decide (most ≤ who) then (6, b)
  else if v / 2 ^ 24 = 0 then (0, b1)
  else if b.boundRows.any (fun r => r != row && b.get Obj.ctxBind r == v) || !b1.usersSingle [row] then (6, b)
  else (0, b1.keysBound)

/-- A write of NEXT_KEY stages the next key (R313); a 128-bit key has octets 16 to 31 at 0 (R300). -/
def Block.writeNextKey (b : Block) (row v : Nat) : Nat × Block :=
  if keyLen (b.get Obj.ctxAlg row) = 16 && v % 2 ^ 128 ≠ 0 then (6, b)
  else (0, b.setKeyCtx { b.keyCtx row with next := some v })

/-- Writes of 0x7400 to 0x7FFF. -/
def Block.writeCipher (b : Block) (r : Reg) (row v : Nat) (p : Port) : Nat × Block :=
  let bound (d : Nat × Block) : Nat × Block := (d.1, if d.1 = 0 then d.2.keysBound else d.2)
  match r.idx, r.sub with
  | 0x7400, 1 => if b.get Obj.ctxState row ≠ 0 then (9, b) else b.plainWrite r row v
  | 0x7400, 2 => bound (b.writeKey row v)
  | 0x7400, 6 => b.writeBind row v
  | 0x7400, 9 => b.writeNextKey row v
  | 0x7400, 11 => if v = 1 then bound (b.rekey row) else (0, b)
  | 0x7400, 13 => (0, if v = 1 then b.eraseKey row else b)
  | 0x7410, 1 => if octAt v 32 3 ≠ 0 || octAt v 32 23 ≠ 0 then (6, b) else b.plainWrite r row v
  | 0x7410, 2 => if v = 1 then b.runJob (portEng p) (portLoc p) else (0, b)
  | _, _ => b.plainWrite r row v

/-! ### The whole dictionary -/

/-- A write to a row of CUSTOMER_DEF: the declaration applies and the object takes its default (R81). -/
def Block.writeCust (b : Block) (r : Reg) (row v : Nat) : Nat × Block :=
  let b1 := b.put r v row
  let drop (c : Block) (o : Option Reg) : Block :=
    match o with
    | none => c
    | some x =>
      let keep (l : List (Nat × Nat)) : List (Nat × Nat) := l.filter fun k => k.1 / 1048576 != x.idx * 256 + x.sub
      { c with
        regs := { c.regs with
          plain := keep c.regs.plain, retained := keep c.regs.retained, stored := keep c.regs.stored
          slots := { c.regs.slots with older := keep c.regs.slots.older } } }
  (0, drop (drop b1 (b.custObject row)) (b1.custObject row))

/-- What a write of an object's row does in the units of the block (step 11 of R44 and the commit). -/
def Block.applyWrite (b : Block) (p : Port) (r : Reg) (row v : Nat) : Nat × Block :=
  if r.idx = 0x1022 then b.writeCust r row v
  else if r.idx < 0x1300 then b.writeIdent r row v
  else if r.idx < 0x2000 then b.writeModes r row v p
  else if r.idx < 0x2C00 then b.writeRadio r (radioOfIdx r.idx) row v
  else if r.idx < 0x3000 then b.writeRegion r row v p
  else if r.idx < 0x4000 then b.writeMac r row v
  else if r.idx < 0x5000 then b.writeForward r row v p
  else if r.idx < 0x6000 then b.writeTime r row v
  else if r.idx < 0x7000 then b.writeField r row v
  else if r.idx < 0x7200 then b.writeEngine r v
  else if r.idx < 0x8000 then b.writeCipher r row v p
  else b.plainWrite r row v

/-- A step of a block, in a state. -/
def State.lift (s : State) (d : Nat × Block) : Nat × State := (d.1, { s with blk := d.2 })

/-- What a write of an object's row does. -/
def State.commitWrite (s : State) (p : Port) (r : Reg) (row v : Nat) : Nat × State :=
  if 0x7200 ≤ r.idx && decide (r.idx < 0x7400) then s.writeMould r ((r.idx - 0x7200) / 16) row v
  else if r.idx = 0x4410 then s.writeRing r row v
  else if r.idx = 0x1620 && r.sub = 3 then s.writeSwapGo v
  else if r.idx = 0x8210 && r.sub = 4 then s.writeCs (portLoc p) v
  else s.lift (s.blk.applyWrite p r row v)

/-! ### Defaults (R49) -/

/-- The object and row of a key of the stores. -/
def Block.ofKey (b : Block) (k : Nat) : Option (Reg × Nat) :=
  match b.find (k / 2 ^ 28) (k / 1048576 % 256) with
  | .ok r => some (r, k % 1048576)
  | .error _ => none

/-- The objects that a restore sets: RW and RWP1 ones that are not Fuse, customer objects only with 0x02. -/
def restores (all : Bool) (r : Reg) : Bool :=
  (r.acc == .rw || r.acc == .rwp1) && r.home != .fuse && r.sub != 0 && (all || decide (r.idx < 0xA000))

/-- The values that differ from a default, of the classes None, Retained and Stored. -/
def RegFile.listed (f : RegFile) : List Nat := (f.plain ++ f.live ++ f.retained ++ f.stored).map (·.1)

/-- One object's row goes to its default: as a write of the default does where the state admits one, else the value
alone (DESIGN CHOICE, log entry 47). PRESENT_SET only reads its default: no time is loaded. -/
def State.restoreOne (s : State) (p : Port) (all : Bool) (k : Nat) : State :=
  match s.blk.ofKey k with
  | none => s
  | some (r, row) =>
    if !restores all r then s
    else
      let v := r.default row
      let d := if r.idx = 0x5010 && r.sub = 9 then (9, s) else s.commitWrite p r row v
      { d.2 with blk := d.2.blk.put r v row }

/-- The keys of COUNT of the 16 timer channels, whose values the timers hold (R354). -/
def countKeys : List Nat := (List.range 16).map fun c => Obj.tmrCount.key c

/-- A write of DEFAULTS_RESTORE (R49). -/
def State.restore (s : State) (p : Port) (v : Nat) : Nat × State :=
  if v = 0 then (0, s)
  else (0, (sortBy (fun x y => decide (x ≤ y)) (s.blk.regs.listed ++ countKeys)).foldl
    (fun (t : State) k => t.restoreOne p (v == 2) k) s)

/-! ### The commit point -/

/-- The cursor of a port after an access through it to the table's highest subindex (R50). -/
def Block.stepCursor (b : Block) (p : Port) (idx sub row : Nat) : Block :=
  let loc := cursorLoc p
  let l := b.regsAt idx
  let table := match l with
    | r :: _ => b.rowsOf r != 0
    | [] => false
  if row = noRow && table && b.is Obj.cursorAutoinc (portLoc p) && sub = maxOf (l.map (·.sub)) then
    b.put Obj.rowCursor ((b.get Obj.rowCursor loc + 1) % 2 ^ 32) loc
  else b

/-- Steps 1 to 10 of R44 for a write. -/
def Block.checkWrite (b : Block) (p : Port) (idx sub row len v : Nat) : Except Nat (Reg × Nat) :=
  match b.checkAccess p idx sub row true with
  | .error e => .error e
  | .ok (r, at_) =>
    let c := r.valueCode len v
    if c = 0 then .ok (r, at_) else .error c

/-- Octets staged for another object are discarded by a store to this one (R53, R64). -/
def Block.dropStaged (b : Block) (p : Port) : Block :=
  { b with plais := { b.plais with staged := b.plais.staged.filter fun x => x.port != portBuf p } }

/-- The first write of a W1 object leaves its mark (R46). -/
def Block.markUsed (b : Block) (r : Reg) (row : Nat) : Block :=
  if r.acc = .w1 then { b with regs := { b.regs with used := b.regs.used ++ [r.key row] } }.mramWrote (Config.mramWords 5) else b

/-- The act of a unit on a write through the commit point, as an act of the whole machine. -/
def unitAct (f : Block → Nat → Nat × Block) (s : State) (_ : Reg) (row : Nat) : Nat × State := s.lift (f s.blk row)

/-- The act of an object written generally. DEFAULTS_RESTORE is one commit of its own. -/
def State.anyWrite (p : Port) (v : Nat) (s : State) (r : Reg) (row : Nat) : Nat × State :=
  if r.idx = 0x1011 && r.sub = 7 then s.restore p v else s.commitWrite p r row v

/-- The act of an object written with what its command tells of the unit's surroundings. -/
def State.actWrite (p : Port) (v : Nat) (act : Act) (s : State) (r : Reg) (row : Nat) : Nat × State :=
  match act with
  | .plain | .window => s.anyWrite p v r row
  | .warm done repaired => s.lift (s.blk.writeWarmReset v done repaired)
  | .keyHash ok => s.lift (s.blk.writeKeyHash row v ok)
  | .vcore ok => if r.sub = 2 || r.sub = 3 then s.lift (s.blk.writeVcore r v ok) else s.anyWrite p v r row

/-- A write through the commit point, done at once (R44): the result and the state. -/
def State.writeVia (s : State) (p : Port) (idx sub row len v : Nat) (act : Act) : Nat × State :=
  let d := match s.blk.checkWrite p idx sub row len v with
    | .error e => (e, s)
    | .ok (r, at_) =>
      let d := s.actWrite p v act r at_
      if d.1 = 0 then (0, { d.2 with blk := d.2.blk.markUsed r at_ }) else d
  (d.1, { d.2 with blk := (d.2.blk.account p d.1).stepCursor p idx sub row })

/-- A read through the commit point, done at once: the result, the value and the object's size. -/
def Block.read (b : Block) (p : Port) (idx sub row : Nat) : (Nat × Nat × Nat) × Block :=
  let d : (Nat × Nat × Nat) × Block :=
    match b.checkAccess p idx sub row false with
    | .error e => ((e, 0, 0), b)
    | .ok (r, at_) =>
      let x := b.readReg p r at_
      ((x.1, x.2.1, r.size), x.2.2)
  (d.1, (d.2.account p d.1.1).stepCursor p idx sub row)

/-! ### Accesses that hold the commit point (R161, R407) -/

/-- A write of REGION_COMMIT that starts a commit, where it does: nothing is answered before the flip (R161). -/
def Block.beginCommit (b : Block) (p : Port) (idx sub row len v : Nat) : Option Block :=
  if idx = 0x2C00 && sub = 6 then
    match b.checkWrite p idx sub row len v with
    | .error _ => none
    | .ok _ =>
      match b.regionCommit (portNum p) v with
      | (none, c) => some c
      | (some _, _) => none
  else none

/-- A read that passes steps 1 to 8 of R44 and meets the slot of the cullet log that is being written (R407). -/
def Block.meetsWrite (b : Block) (p : Port) (idx sub row : Nat) : Bool :=
  idx == 0x1210 && sub == 1 &&
    match b.checkAccess p idx sub row false with
    | .ok (_, at_) => b.cullet.writing == some at_
    | .error _ => false

/-- A submission of this moment by a port. -/
def Block.waitOf (b : Block) (p : Port) (ask : Ask) : Wait := { port := p, ask := ask, tier := b.tierNow }

/-- A single access ends: its port is answered with a result and a value. A store through an engine's window is
answered to the engine alone, in LAST_RESULT (R55). -/
def Block.answer (b : Block) (p : Port) (act : Act) (code value : Nat) : Block :=
  if act = .window then b else b.emit (.result p code value)

/-- One write that the commit point takes: it begins a region commit, or is done and answered. -/
def State.takeWrite (s : State) (p : Port) (idx sub row len v : Nat) (act : Act) : State :=
  match s.blk.beginCommit p idx sub row len v with
  | some b => { s with blk := b.hold (s.blk.waitOf p (.write idx sub row len v act)) }
  | none =>
    let d := s.writeVia p idx sub row len v act
    { d.2 with blk := d.2.blk.answer p act d.1 0 }

/-- One read that the commit point takes: it waits for the end of a record's write, or is done and answered. -/
def State.takeRead (s : State) (p : Port) (idx sub row : Nat) : State :=
  if s.blk.meetsWrite p idx sub row then { s with blk := s.blk.hold (s.blk.waitOf p (.read idx sub row)) }
  else
    let d := s.blk.read p idx sub row
    { s with blk := d.2.emit (.result p d.1.1 d.1.2.1) }

/-- A command that is one write by a port: nothing happens at a port that is not served. An idle commit point takes
the access at once; else it joins its port's queue (R57). -/
def State.portWrite (s : State) (p : Port) (idx sub row len v : Nat) (act : Act) : State :=
  if !s.blk.portOpen p then s
  else if s.blk.pointIdle then s.takeWrite p idx sub row len v act
  else { s with blk := s.blk.enqueueAsk (s.blk.waitOf p (.write idx sub row len v act)) }

/-- A command that is one read by a port. -/
def State.portRead (s : State) (p : Port) (idx sub row : Nat) : State :=
  if !s.blk.portOpen p then s
  else if s.blk.pointIdle then s.takeRead p idx sub row
  else { s with blk := s.blk.enqueueAsk (s.blk.waitOf p (.read idx sub row)) }

/-- The size of an object, for a command that writes it whole. -/
def Block.sizeAt (b : Block) (idx sub : Nat) : Nat :=
  match b.find idx sub with
  | .ok r => r.size
  | .error _ => 0

/-- A command that writes an object whole. -/
def State.set (s : State) (p : Port) (idx sub row v : Nat) : State :=
  s.portWrite p idx sub row (s.blk.sizeAt idx sub) v .plain

end Sys2Proof.Machine
end

