-- ==== Sys2Proof/Machine/Plais.lean ====
section
/-!
DEFINITION. Plais: operation records and commit groups (R59, R63 to R66), the security of network messages (R68 to R70),
the four transports (R72 to R76), and the sending and acknowledgement of notices (R77, R78).
-/

namespace Sys2Proof.Machine

/-! ### Sending -/

/-- The nonce of a Plais message: the context's salt followed by COUNTER (R68). -/
def Block.plaisNonce (b : Block) (ctx counter : Nat) : Nat := b.get Obj.ctxSalt ctx * 2 ^ 64 + counter

/-- The largest message of UDP in octets, its tag included (R72). -/
def udpMost : Nat := 1424

/-- A message for a peer row: in clear before adoption, else sealed under CTX_TX with its next counter value; nothing
where the counter is exhausted or no key is held (R68, R303), or where the message would be longer than `most` (DESIGN
CHOICE, log entry 164). -/
def Block.peerMessage (b : Block) (row type tid : Nat) (body : List Octet) (sec : Bool) (most : Nat) :
    Option (List Octet) × Block :=
  if most < 16 + body.length + (if sec then 16 else 0) then (none, b)
  else if !sec then
    let h : Header := { type := type, tid := tid, len := body.length, long := true, keyId := row }
    (some (h.octets ++ body), b)
  else
    let ctx := b.get Obj.peerCtxTx row
    match b.takeCounter ctx with
    | (none, b1) => (none, b1)
    | (some c, b1) =>
      let h : Header := { type := type, sec := true, tid := tid, len := body.length, long := true, keyId := row, counter := c }
      (some (h.octets ++ Config.cipherSeal (b.get Obj.ctxAlg ctx) ((b.keyCtx ctx).key.getD 0) (b.plaisNonce ctx c)
        h.octets body 16), b1)

/-- A message of a type leaves by a reply path. -/
def Block.sendReply (b : Block) (to_ : Reply) (row type tid : Nat) (body : List Octet) (sec : Bool) : Block :=
  match to_ with
  | .console => b.sendConsole type tid body
  | .can node => b.sendCan node type tid body
  | .udp addr port =>
    match b.peerMessage row type tid body sec udpMost with
    | (some m, b1) => b1.emit (.udp addr port m)
    | (none, b1) => b1
  | .mesh link =>
    match b.peerMessage row type tid body sec (2 ^ 16 + 31) with
    | (some m, b1) => b1.mgmtSend link 1 m
    | (none, b1) => b1

/-! ### Operation records (R63 to R65) -/

/-- The records of a body, at most `fuel` of them; nothing where a record overruns the body. An unknown OP carries DLEN
octets of VALUE; a READ carries none. -/
def parseOps : Nat → List Octet → Option (List OpRec)
  | _, [] => some []
  | 0, _ => none
  | fuel + 1, l =>
    let f (i n : Nat) : Nat := ofOctetsBE ((l.drop i).take n)
    let n := if f 0 1 = 1 then 0 else f 12 2
    if l.length < 14 + n then none
    else
      let o : OpRec :=
        { op := f 0 1, idx := f 2 2, sub := f 4 1, row := f 6 4, off := f 10 2, dlen := f 12 2
          value := (l.drop 14).take n }
      (parseOps fuel (l.drop (14 + n))).map (o :: ·)

/-- The key under which a port stages octets for an object and row; ROW counts for a table alone (R63, R64). -/
def Block.stageKey (b : Block) (o : OpRec) : Nat :=
  let table := match b.find o.idx o.sub with
    | .ok r => b.rowsOf r != 0
    | .error _ => false
  (o.idx * 256 + o.sub) * 2 ^ 32 + (if table then o.row else 0)

/-- The octets that a port has staged for an object and row. -/
def Block.stagedOf (b : Block) (p : Port) (key : Nat) : List (Nat × Octet) :=
  match b.plais.staged.find? fun x => x.port == portBuf p && x.key == key with
  | some x => x.octets
  | none => []

/-- Octets staged by a port at an offset; those of another object are discarded (R53, R64). -/
def Block.stage (b : Block) (p : Port) (key off : Nat) (l : List Octet) : Block :=
  let old := b.stagedOf p key
  let new := (l.zip (List.range l.length)).foldl (fun m x => assocPut m (off + x.2) x.1) old
  let b1 := b.dropStaged p
  { b1 with plais := { b1.plais with staged := b1.plais.staged ++ [{ port := portBuf p, key := key, octets := new }] } }

/-- The staged octets from 0 up to an offset, if every one is staged. -/
def stagedUpTo (l : List (Nat × Octet)) (off : Nat) : Option (List Octet) :=
  let m := (List.range off).filterMap fun i => assocGet l i
  if m.length = off then some m else none

/-- The snapshot in a port's read buffer (R54): of a row, or, for an access through the cursor, of whichever row the
cursor's read of octet 0 took (DESIGN CHOICE, log entry 166). -/
def Block.snapOf (b : Block) (p : Port) (idx sub row : Nat) : Option Snapshot :=
  b.plais.snaps.find? fun x => x.port == portBuf p &&
    (if row = noRow then x.key / 1048576 == idx * 256 + sub else x.key == (idx * 256 + sub) * 1048576 + row)

/-- A snapshot into a port's read buffer. -/
def Block.setSnap (b : Block) (p : Port) (key : Nat) (l : List Octet) : Block :=
  { b with plais := { b.plais with
      snaps := (b.plais.snaps.filter fun x => x.port != portBuf p) ++ [{ port := portBuf p, key := key, octets := l }] } }

/-- A read of later octets of a value: those of the snapshot that the port holds, or STALE (R54, R64). The cursor
stays, which the read of octet 0 has moved on. -/
def Block.readSnap (b : Block) (p : Port) (idx sub row : Nat) : (Nat × List Octet) × Block :=
  let snap := match b.find idx sub with
    | .ok r => b.snapOf p idx sub (if r.loc then portRow p r else if b.rowsOf r = 0 then 0 else row)
    | .error _ => none
  let at_ := match snap with
    | some x => x.key % 1048576
    | none => row
  let d : Nat × List Octet :=
    match b.checkAccess p idx sub at_ false, snap with
    | .error e, _ => (e, [])
    | .ok _, some x => (0, x.octets)
    | .ok _, none => (13, [])
  (d, b.account p d.1)

/-- A READ record (R63, R64). -/
def Block.opRead (b : Block) (p : Port) (o : OpRec) : (Nat × List Octet) × Block :=
  if o.off = 0 then
    match b.checkAccess p o.idx o.sub o.row false, b.read p o.idx o.sub o.row with
    | .ok (r, at_), ((0, v, size), b1) =>
      let l := octetsBE size v
      ((0, o.wanted l), b1.setSnap p (r.key at_) l)
    | _, ((code, _, _), b1) => ((code, []), b1)
  else
    let d := b.readSnap p o.idx o.sub o.row
    ((d.1.1, if d.1.1 = 0 then o.wanted (d.1.2.drop o.off) else []), d.2)

/-- The octets that a WRITE record writes: those staged before its offset and those it carries; nothing where some are
not staged (R64). -/
def Block.opOctets (b : Block) (p : Port) (o : OpRec) : List Octet :=
  if o.off = 0 then o.value
  else match stagedUpTo (b.stagedOf p (b.stageKey o)) o.off with
    | some l => l ++ o.value
    | none => []

/-- A WRITE record (R64): the staged octets and those it carries make the whole value. -/
def State.opWrite (s : State) (p : Port) (o : OpRec) : Nat × State :=
  let l := s.blk.opOctets p o
  State.writeVia { s with blk := s.blk.dropStaged p } p o.idx o.sub o.row l.length (ofOctetsBE l) .plain

/-- A WRITE_PART record: staged, unless no write of the message can pass (R64, R70, R76, R104, R505). The checks of R44
fall to the WRITE that ends it. -/
def Block.opPart (b : Block) (p : Port) (o : OpRec) : Nat × Block :=
  let noCan := match p with
    | .can _ => !b.is Obj.canWriteEnable
    | _ => false
  if b.mode.entry.isSome || (b.recovery && !recoveryAdmits p o.idx) then (9, b)
  else if noCan then (3, b)
  else if !b.linkPermits p o.idx true then (14, b)
  else (0, b.stage p (b.stageKey o) o.off o.value)

/-- The record writes the value 0 to the first subindex of a route row, which clears it (R277). -/
def OpRec.clears (o : OpRec) : Bool := o.op == 2 && o.idx == 0x4200 && o.sub == 1 && o.value.all (· == 0)

/-- The record writes WARM_RESET or COLD_RESET. -/
def OpRec.resets (o : OpRec) : Bool := o.op == 2 && o.idx == 0x1600 && (o.sub == 3 || o.sub == 4)

/-- One record of a message applied: its result, its value and the state. -/
def State.opApply (s : State) (p : Port) (o : OpRec) : (Nat × List Octet) × State :=
  match o.op with
  | 1 => let d := s.blk.opRead p o; (d.1, { s with blk := d.2 })
  | 2 => let d := s.opWrite p o; ((d.1, []), d.2)
  | 3 => let d := s.blk.opPart p o; ((d.1, []), { s with blk := d.2 })
  | _ => ((5, []), s)

/-- A reset has taken effect: what still waits is discarded (R534). -/
def State.resetDue (s : State) : Bool := s.blk.boot.isSome || !s.blk.coreF

/-- Records applied in an order, each with its place in the message; a reset discards those behind it. -/
def State.opsRun (s : State) (p : Port) (l : List (Nat × OpRec)) : List (Nat × Nat × List Octet) × State :=
  l.foldl (fun (d : List (Nat × Nat × List Octet) × State) x =>
    if d.2.resetDue then d
    else
      let e := d.2.opApply p x.2
      (d.1 ++ [(x.1, e.1.1, e.1.2)], e.2)) ([], s)

/-- Two records name one row of one index. -/
def OpRec.sameRow (o q : OpRec) : Bool := o.idx == q.idx && o.row == q.row

/-- The writes of a commit group in the order in which each is checked and applied: message order, but that a record
which clears a route row comes first where no earlier record of the group writes that row, so that a route can be
replaced in one group (R59, R277), and a reset comes last (DEDUCED, log entry 55). -/
def groupOrder (l : List (Nat × OpRec)) : List (Nat × OpRec) :=
  let writes := l.filter fun x => x.2.op == 2 || x.2.op == 3
  let early (x : Nat × OpRec) : Bool := x.2.clears && !writes.any fun y => decide (y.1 < x.1) && y.2.sameRow x.2
  writes.filter early ++ (writes.filter fun x => !early x && !x.2.resets) ++ writes.filter fun x => x.2.resets

/-- A write that a failed group refuses is an access like any other: it is counted, and its cursor steps (R50, R51). -/
def Block.refused (b : Block) (p : Port) (o : OpRec) (code : Nat) : Block :=
  if o.op = 2 then (b.account p code).stepCursor p o.idx o.sub o.row else b

/-- The writes of a commit group (R59): every one is checked, the effects of those before it in view; if one fails
none is applied and those that passed answer BUSY. -/
def State.groupRun (s : State) (p : Port) (l : List (Nat × OpRec)) : List (Nat × Nat × List Octet) × State :=
  let order := groupOrder l
  let t := s.opsRun p order
  if t.1.any fun x => x.2.1 != 0 then
    let codes := t.1.map fun x => (x.1, if x.2.1 = 0 then 9 else x.2.1, x.2.2)
    (codes, { s with blk := (order.zip codes).foldl (fun (b : Block) x => b.refused p x.1.2 x.2.2.1) (s.blk.dropStaged p) })
  else t

/-! ### Requests and the response cache (R66) -/

/-- The response that a source's cache holds under a TID, up to the tick in which RESP_CACHE_TIME ends (R10, R66). -/
def Block.cached (b : Block) (p : Port) (tid : Nat) : Option Cached :=
  b.plais.cache.find? fun c =>
    c.src == sourceOf p && c.tid == tid && decide (b.now - c.at_ ≤ secs (b.get Obj.respCacheTime))

/-- A cached response ages out once RESP_CACHE_TIME has passed. -/
def Block.cacheExpiry (b : Block) (p : Port) (tid : Nat) : Block :=
  { b with plais := { b.plais with cache := b.plais.cache.filter fun c =>
      !(c.src == sourceOf p && c.tid == tid && decide (secs (b.get Obj.respCacheTime) ≤ b.now - c.at_)) } }

/-- `n` octets behind a header are what its LEN and SEC say, and SEC is set on the long header alone (R65). -/
def Header.fits (h : Header) (n : Nat) : Bool := n == h.len + (if h.sec then 16 else 0) && !(h.sec && !h.long)

/-- The records of a request, or nothing where it is malformed (R65). `body` is its body in clear, `fits` that its
length does. -/
def Header.records (h : Header) (body : List Octet) (fits : Bool) : Option (List OpRec) :=
  if !fits then none
  else
    match parseOps h.len body with
    | some ops => if h.group && decide (32 < (ops.filter fun o => o.op == 2).length) then none else some ops
    | none => none

/-- A malformed message is answered (R65). -/
def Block.malformed (b : Block) (to_ : Reply) (row : Nat) (h : Header) : Block :=
  b.sendReply to_ row 1 h.tid malformedAnswer h.sec

/-- A repeat of a request that the commit point has not finished is held with it (R66). -/
def Block.joinRepeat (b : Block) (p : Port) (to_ : Reply) (h : Header) : Option Block :=
  let isCopy (w : Wait) : Bool :=
    match w.ask with
    | .message _ _ tid _ _ _ _ => sourceOf w.port == sourceOf p && tid == h.tid
    | _ => false
  let joined (w : Wait) : Wait := if isCopy w then { w with repeats := w.repeats ++ [(to_, h.sec)] } else w
  if b.plais.waiting.any isCopy then some { b with plais := { b.plais with waiting := b.plais.waiting.map joined } } else none

/-- The records that a request applies next: the writes of a group together, else one. -/
def nextOps (group : Bool) (left : List (Nat × OpRec)) : List (Nat × OpRec) × List (Nat × OpRec) :=
  let writes := left.filter fun x => x.2.op == 2 || x.2.op == 3
  if group && !writes.isEmpty then (writes, left.filter fun x => !(x.2.op == 2 || x.2.op == 3))
  else (left.take 1, left.drop 1)

/-- The first of a request's records, where it begins an access that holds the commit point. -/
def Block.beginOp (b : Block) (p : Port) (group : Bool) (left : List (Nat × OpRec)) : Option Block :=
  match nextOps group left with
  | ([(_, o)], _) =>
    if o.op = 1 && o.off = 0 then (if b.meetsWrite p o.idx o.sub o.row then some b else none)
    else if o.op = 2 && !group then
      let l := b.opOctets p o
      (b.beginCommit p o.idx o.sub o.row l.length (ofOctetsBE l)).map fun c => c.dropStaged p
    else none
  | _ => none

/-- A request has had all its records applied: the response is cached and sent, with the repeats that were held. A
cold reset leaves neither; a warm one leaves it cached and unsent (R66, R534). -/
def State.finishRequest (s : State) (w : Wait) (to_ : Reply) (row tid : Nat) (sec : Bool) (ops : List OpRec)
    (results : List (Nat × Nat × List Octet)) : State :=
  let body := responseBody ops results
  if !s.blk.coreF || s.blk.boot.any fun x => x.kind == 0 then s
  else
    let b := s.blk.cacheResponse w.port tid body
    if b.boot.isSome then { s with blk := b }
    else
      { s with
        blk := w.repeats.foldl (fun (c : Block) x => (c.add Obj.dupRequest).sendReply x.1 row 1 tid body x.2)
          (b.sendReply to_ row 1 tid body sec) }

/-- The access that held the commit point has ended with a result: a region commit has flipped. -/
def State.endBegun (s : State) (w : Wait) : Option Wait × State :=
  let b := s.blk.account w.port 0
  match w.ask with
  | .write idx sub row _ _ act => (none, { s with blk := (b.stepCursor w.port idx sub row).answer w.port act 0 0 })
  | .message to_ peer tid sec group ops (x :: rest) =>
    (some { w with begun := false, results := w.results ++ [(x.1, 0, [])], ask := .message to_ peer tid sec group ops rest },
      { s with blk := b.stepCursor w.port x.2.idx x.2.sub x.2.row })
  | _ => (none, s)

/-- A submission whose access writes: what has begun with it is a region commit. -/
def Wait.writes (w : Wait) : Bool :=
  match w.ask with
  | .write _ _ _ _ _ _ => true
  | .message _ _ _ _ _ _ ((_, o) :: _) => o.op == 2
  | _ => false

/-- The commit point takes the next access of a submission: what is left of the submission, and the state. An access
that holds the commit point is left with its mark. -/
def State.serve (s : State) (w : Wait) : Option Wait × State :=
  if w.begun && w.writes then s.endBegun w
  else
    match w.ask with
    | .write idx sub row len v act =>
      match s.blk.beginCommit w.port idx sub row len v with
      | some b => (some { w with begun := true }, { s with blk := b })
      | none =>
        let d := s.writeVia w.port idx sub row len v act
        (none, { d.2 with blk := d.2.blk.answer w.port act d.1 0 })
    | .read idx sub row =>
      if s.blk.meetsWrite w.port idx sub row then (some { w with begun := true }, s)
      else
        let d := s.blk.read w.port idx sub row
        (none, { s with blk := d.2.emit (.result w.port d.1.1 d.1.2.1) })
    | .load _ => (none, s)
    | .message to_ peer tid sec group ops left =>
      match s.blk.beginOp w.port group left with
      | some b => (some { w with begun := true }, { s with blk := b })
      | none =>
        let n := nextOps group left
        let d := if group && n.1.any (fun x => x.2.op == 2 || x.2.op == 3) then s.groupRun w.port n.1 else s.opsRun w.port n.1
        let results := w.results ++ d.1
        if n.2.isEmpty || d.2.resetDue then (none, d.2.finishRequest w to_ peer tid sec ops results)
        else (some { w with begun := false, results := results, ask := .message to_ peer tid sec group ops n.2 }, d.2)

/-- The tier that an access is checked under, set for a submission and taken off again (R384). -/
def State.tierAs (s : State) (t : Option Nat) : State := { s with blk := { s.blk with plais := { s.blk.plais with tier := t } } }

/-- The number of accesses that the commit point has counted. -/
def State.committed (s : State) : Nat := s.blk.get Obj.commits

/-- The commit point takes what waits, access by access, until nothing waits or an access holds it (R57, R58). -/
def State.servePoint : Nat → State → State
  | 0, s => s
  | fuel + 1, s =>
    let held := s.blk.plais.begun
    match (match held with
      | some w => if s.blk.pointHeld w then none else some w
      | none => if s.blk.region.commit.isSome then none else s.blk.plais.choose) with
    | none => s
    | some w =>
      let b := if held.isNone && s.blk.plais.byAge then s.blk.add Obj.aged else s.blk
      let d := (({ s with blk := { b with plais := b.plais.without w } } : State).tierAs (some w.tier)).serve w
      let t := d.2.tierAs none
      let p := match d.1 with
        | some x => if t.resetDue then t.blk.plais else { t.blk.plais with waiting := x :: t.blk.plais.waiting }
        | none => t.blk.plais
      State.servePoint fuel { t with blk := { t.blk with plais := p.older (t.committed - s.committed) } }

/-- How many accesses wait at most. -/
def Plais.backlog (p : Plais) : Nat :=
  sumOfList (p.waiting.map fun w =>
    match w.ask with
    | .message _ _ _ _ _ _ left => left.length + 2
    | _ => 2)

/-- The commit point works until it is idle or held. -/
def State.point (s : State) : State := s.servePoint s.blk.plais.backlog

/-- A request is handled (R59, R63 to R66): a repeat gets the cached response, or waits with the first copy; else its
records go to the commit point. -/
def State.request (s : State) (p : Port) (to_ : Reply) (row : Nat) (h : Header) (body : List Octet) (fits : Bool) : State :=
  match s.blk.cached p h.tid, s.blk.joinRepeat p to_ h with
  | some c, _ => { s with blk := (s.blk.add Obj.dupRequest).sendReply to_ row 1 h.tid c.msg h.sec }
  | none, some b => { s with blk := b }
  | none, none =>
    match h.records body fits with
    | none => { s with blk := (s.blk.cacheResponse p h.tid malformedAnswer).malformed to_ row h }
    | some ops =>
      let w := s.blk.waitOf p (.message to_ row h.tid h.sec h.group ops ((List.range ops.length).zip ops))
      State.point { s with blk := s.blk.enqueueAsk w }

/-! ### Notices: acknowledgement and sending (R78) -/

/-- A number stands at or before another in the 32-bit notice sequence. -/
def seqAtOrBefore (a b : Nat) : Bool := decide ((b + 2 ^ 32 - a) % 2 ^ 32 < 2 ^ 31)

/-- A notice acknowledgement: every notice sent to the destination at or below its SEQ is acknowledged. -/
def Block.noticeAck (b : Block) (d : Dest) (seq : Nat) : Block :=
  let q := b.plais.queueOf d
  let left := q.queue.filter fun (n : Notice) => !(n.sentAt.isSome && seqAtOrBefore n.seq seq)
  if left.length = q.queue.length then b else { b with plais := b.plais.setQueue { q with queue := left } }

/-- The notice destination behind a port. -/
def portDest : Port → Option Dest
  | .console => some .console
  | .can n => some (.can n)
  | .udp r | .mesh r => some (.peer r)
  | .engine _ => none

/-- The number that an IPv6 address held in an OCT value gives, and the UDP port of Plais, for a notice (R72, R77). -/
def Block.noticeReply (b : Block) (d : Dest) : Option Reply :=
  match d with
  | .console => if b.portOpen .console then some .console else none
  | .can node => if b.portOpen (.can node) then some (.can node) else none
  | .peer row =>
    let link := b.get Obj.peerCaneLink row
    if !b.is Obj.peerEnable row then none
    else if link ≠ 255 && b.is Obj.meshEnable then
      if b.portOpen (.mesh row) && !(b.upStrands link).isEmpty then some (.mesh link) else none
    else if b.portOpen (.udp row) then some (.udp (b.get Obj.peerAddr row) (b.get Obj.udpPort)) else none

/-- The counter of a destination's transmit context is exhausted (R68). -/
def Block.destExhausted (b : Block) (d : Dest) : Bool :=
  match d with
  | .peer row => b.get Obj.ctxState (b.get Obj.peerCtxTx row) != 1
  | _ => false

/-- The peer row of a destination. -/
def Dest.row : Dest → Nat
  | .peer row => row
  | _ => 0

/-- A notice goes to a destination by a path. -/
def Block.sendNotice (b : Block) (d : Dest) (to_ : Reply) (n : Notice) : Block :=
  b.sendReply to_ d.row 2 (n.seq % 65536) n.body (match d with | .peer _ => true | _ => false)

/-- One notice of a queue changed. -/
def Block.modNotice (b : Block) (d : Dest) (seq : Nat) (f : Notice → Notice) : Block :=
  let q := b.plais.queueOf d
  let new := q.queue.map fun (n : Notice) => if n.seq == seq then f n else n
  { b with plais := b.plais.setQueue { q with queue := new } }

/-- The next notices of one destination are sent in order, while fewer than 8 are unacknowledged. A notice that the
exhausted counter of its peer holds back is counted once and waits (R68, R78). -/
def Block.pumpDest (b : Block) (d : Dest) : Nat → Block
  | 0 => b
  | fuel + 1 =>
    let q := (b.plais.queueOf d).queue
    match q.find? fun n => n.sentAt.isNone, b.noticeReply d with
    | some n, some to_ =>
      if 8 ≤ (q.filter fun n => n.sentAt.isSome).length then b
      else if b.destExhausted d then
        if n.tried then b else (b.modNotice d n.seq fun x => { x with tried := true }).sendNotice d to_ n
      else ((b.modNotice d n.seq fun x => { x with sentAt := some b.now }).sendNotice d to_ n).pumpDest d fuel
    | _, _ => b

/-- Every destination's notices are sent on. -/
def Block.pump (b : Block) : Block :=
  (b.plais.queues.map (·.dest)).foldl (fun (c : Block) d => c.pumpDest d 8) b

/-- NOTICE_RETRY has passed since a tick. -/
def Block.retryDue (b : Block) (sentAt : Nat) : Bool := decide (sentAt + ms (b.get Obj.noticeRetry) ≤ b.now)

/-- NOTICE_RETRY after its last transmission the oldest unacknowledged notice is sent again (R78). -/
def Block.noticeRetry (b : Block) (d : Dest) : Block :=
  match (b.plais.queueOf d).queue.find? fun n => n.sentAt.isSome, b.noticeReply d with
  | some n, some to_ =>
    if n.sentAt.any b.retryDue then (b.modNotice d n.seq fun x => { x with sentAt := some b.now }).sendNotice d to_ n else b
  | _, _ => b

/-! ### Messages taken whole -/

/-- A frame or message is discarded and counted (R79). -/
def Block.frameDiscard (b : Block) : Block := b.add Obj.frameDiscard

/-- A message of an entitled source: a malformed one is answered, a request handled, a notice acknowledgement covers
its notices, and nothing else is taken (R62, R65, R78). `body` is the body in clear, `fits` that its length is what
the header says. -/
def State.message (s : State) (p : Port) (to_ : Reply) (row : Nat) (h : Header) (body : List Octet) (fits : Bool) : State :=
  match h.type with
  | 0 => s.request p to_ row h body fits
  | 3 =>
    match portDest p with
    | some d =>
      if !fits then { s with blk := s.blk.malformed to_ row h }
      else if h.len = 4 then { s with blk := s.blk.noticeAck d (ofOctetsBE body) }
      else s
    | none => s
  | _ => if fits then s else { s with blk := s.blk.malformed to_ row h }

/-- A message with the short header, on the console or CAN FD. -/
def State.short (s : State) (p : Port) (to_ : Reply) (m : List Octet) : State :=
  if !s.blk.portOpen p then s
  else
    match Header.parse false m with
    | none => { s with blk := s.blk.frameDiscard }
    | some h => s.message p to_ 0 h (m.drop 6) (h.fits (m.length - 6))

/-- The record of accepted counters of a key after a counter, or nothing where R69 refuses it. -/
def AuthRec.accept (a : Option AuthRec) (c : Nat) : Option AuthRec :=
  match a with
  | none => some { highest := c, below := 0 }
  | some a =>
    if a.highest < c then
      some { highest := c, below := (a.below * 2 + 1) * 2 ^ (min 64 (c - a.highest) - 1) % 2 ^ 64 }
    else
      let d := a.highest - c
      if d = 0 || 64 ≤ d || bitSet a.below (d - 1) then none else some { a with below := setBit a.below (d - 1) }

/-- A protected message opened under a key of CTX_RX of its row: its body where the tag is good (R68). -/
def Block.openUnder (b : Block) (ctx key : Nat) (h : Header) (m : List Octet) : Option (List Octet) :=
  if m.length < 32 then none
  else Config.cipherOpen (b.get Obj.ctxAlg ctx) key (b.plaisNonce ctx h.counter) (m.take 16) (m.drop 16) 16

/-- A protected message opened under the current key of CTX_RX, else under the retiring one (R68, R314): its body, and
whether the retiring key opened it. -/
def Block.openMessage (b : Block) (h : Header) (m : List Octet) : Option (List Octet × Bool) :=
  let ctx := b.get Obj.peerCtxRx h.keyId
  let k := b.keyCtx ctx
  match k.key.bind fun key => b.openUnder ctx key h m, k.old.bind fun key => b.openUnder ctx key h m with
  | some l, _ => some (l, false)
  | none, some l => some (l, true)
  | none, none => none

/-- The record of the key that opened a message takes its counter, and is written to MRAM; nothing where R69 refuses
it. -/
def Block.acceptCounter (b : Block) (h : Header) (old : Bool) : Option Block :=
  let k := b.keyCtx (b.get Obj.peerCtxRx h.keyId)
  (AuthRec.accept (if old then k.authOld else k.auth) h.counter).map fun a =>
    (b.setKeyCtx (if old then { k with authOld := some a } else { k with auth := some a })).mramWrote (Config.mramWords 1)

/-- A network message passes R69: once a row is enabled, SEC with an enabled row, a good tag and a new counter, which
is recorded; before, no SEC. Its body in clear and the block, or nothing. -/
def Block.authentic (b : Block) (h : Header) (m : List Octet) : Option (List Octet × Block) :=
  if !b.adopted then (if h.sec then none else some (m.drop 16, b))
  else if !h.sec || decide (16 ≤ h.keyId) || !b.is Obj.peerEnable h.keyId then none
  else
    match b.openMessage h m with
    | none => none
    | some (body, old) => (b.acceptCounter h old).map fun c => (body, c)

/-- The peer row that a network message speaks for: KEY_ID, which is ignored before adoption (R70; DESIGN CHOICE, log
entry 48). -/
def Block.speaker (b : Block) (h : Header) : Nat := if b.adopted then h.keyId else 0

/-- A network message (R69, R70): discarded and counted, or handled. -/
def State.network (s : State) (mesh : Bool) (to_ : Reply) (m : List Octet) : State :=
  match Header.parse true m with
  | none => { s with blk := s.blk.frameDiscard }
  | some h =>
    let row := s.blk.speaker h
    match s.blk.authentic h m with
    | none => { s with blk := s.blk.add Obj.authDiscard }
    | some (body, b) =>
      State.message { s with blk := b } (if mesh then .mesh row else .udp row) to_ row h body (h.fits (m.length - 16))

/-- A UDP datagram on UDP_PORT (R72). -/
def State.udpDatagram (s : State) (addr port : Nat) (m : List Octet) : State :=
  if !s.blk.portOpen (.udp 0) then s
  else if udpMost < m.length then { s with blk := s.blk.frameDiscard }
  else s.network false (.udp addr port) m

/-- A Plais message that a cane link has released (R73). -/
def State.meshMessage (s : State) (link : Nat) (m : List Octet) : State :=
  if !s.blk.portOpen (.mesh 0) then s else s.network true (.mesh link) m

/-- A request taken whole at a port, its transport's checks passed (R63). `addr` and `port` are the source of one that
came over UDP, which its response goes to (R72). -/
def State.plaisRequest (s : State) (p : Port) (addr port : Nat) (m : List Octet) : State :=
  let long (to_ : Reply) (row : Nat) : State :=
    if !s.blk.portOpen p then s
    else match Header.parse true m with
      | none => { s with blk := s.blk.frameDiscard }
      | some h => s.message p to_ row h ((m.drop 16).take (m.length - 16 - (if h.sec then 16 else 0))) (h.fits (m.length - 16))
  match p with
  | .console => s.short p .console m
  | .can node => s.short p (.can node) m
  | .udp row => long (.udp addr port) row
  | .mesh row => long (.mesh (s.blk.get Obj.peerCaneLink row)) row
  | .engine _ => s

/-- A frame on UART0 (R74). -/
def State.consoleIn (s : State) (frame : List Octet) : State :=
  if !s.blk.portOpen .console then s
  else
    match consoleMessage frame with
    | none => { s with blk := s.blk.frameDiscard }
    | some m => s.short .console .console m

/-! ### CAN FD (R75, R76) -/

/-- The length that a message takes on CAN FD with the padding of its last segment. -/
def canTotal (n : Nat) : Nat := n / 64 * 64 + canPadded (n % 64)

/-- A message assembled from its segments: LEN gives its true length. -/
def canMessage (l : List Octet) : List Octet :=
  match Header.parse false l with
  | some h => if canTotal (6 + h.len) = l.length then l.take (6 + h.len) else l
  | none => l

/-- The assembly under way of a source and TID_LO. -/
def Block.asmOf (b : Block) (src tid : Nat) : Option CanAsm := b.plais.asm.find? fun a => a.src == src && a.tidLo == tid

/-- The assembly of a source and TID_LO dropped. -/
def Block.dropAsm (b : Block) (src tid : Nat) : Block :=
  { b with plais := { b.plais with asm := b.plais.asm.filter fun a => !(a.src == src && a.tidLo == tid) } }

/-- A segment joins a message, whose last segment completes it. -/
def State.canTake (s : State) (a : CanAsm) (ending : Bool) : State :=
  let b := s.blk.dropAsm a.src a.tidLo
  if ending then State.short { s with blk := b } (.can a.src) (.can a.src) (canMessage a.data)
  else { s with blk := { b with plais := { b.plais with asm := b.plais.asm ++ [a] } } }

/-- A Plais segment for this node (R76): a segment out of order discards the incomplete message, counted; a segment 0
starts a new one. Requests and notice acknowledgements are taken, of a source from 1 to 127 (DESIGN CHOICE, log entry
167). -/
def State.canSegment (s : State) (ident : Nat) (data : List Octet) : State :=
  let src := ident / 2 ^ 10 % 128
  let seg := ident / 16 % 32
  let tid := ident % 16
  let ending := bitSet ident 9
  let kind := ident / 2 ^ 24 % 4
  if !s.blk.portOpen (.can src) || ident / 2 ^ 17 % 128 ≠ s.blk.get Obj.canNode || kind = 1 || kind = 2 || src = 0 then s
  else
    match s.blk.asmOf src tid with
    | none =>
      if seg = 0 then s.canTake { src := src, tidLo := tid, start := s.blk.now, next := 1, data := data } ending else s
    | some a =>
      if seg = a.next then s.canTake { a with next := a.next + 1, data := a.data ++ data } ending
      else
        let s1 := { s with blk := (s.blk.dropAsm src tid).frameDiscard }
        if seg = 0 then s1.canTake { src := src, tidLo := tid, start := s.blk.now, next := 1, data := data } ending else s1

/-- 100 ms after segment 0 an incomplete message is discarded and counted (R76). -/
def Block.canTimeout (b : Block) (src tid : Nat) : Block :=
  match b.asmOf src tid with
  | some a => if a.start + ms 100 ≤ b.now then (b.dropAsm src tid).frameDiscard else b
  | none => b

end Sys2Proof.Machine
end

