-- ==== Sys2Proof/Machine/Settle.lean ====
section
/-!
DEFINITION. How a command runs: the time that has passed before it, and what its effect makes the units do by
themselves before the next command.
-/

namespace Sys2Proof.Machine

/-! ### Before a command -/

/-- Nothing that an earlier command made leave the block is shown any longer. -/
def Block.begin (b : Block) : Block := { b with outs := [] }

/-- Time passes: at the end of a tick the DRAM controller serves what has reached it; then a load of the RTC that
waited, the commit point of an entry into self-refresh and the points of an entry into Hibernate fall due (R104, R329,
R482, R488). -/
def Block.tick (b : Block) (t : Nat) : Block :=
  let b1 := if t = 0 then b.begin else b.begin.dramRun
  { b1 with now := b1.now + t }.dramSettle.settleRtc.settleEntry

/-! ### After a command -/

/-- A radio has a BSS or a strand enabled, a tune to make or a command to send (R91). -/
def Block.radioAsked (b : Block) (r : Radio) : Bool :=
  (b.listedRows (Obj.bssEnable.of r)).any (fun k => b.is (Obj.bssEnable.of r) k) ||
    (List.range 32).any (fun k => b.strandOn k r) || (b.radio r).tuneDue || (b.radio r).cmd.isSome || !(b.radio r).own.isEmpty

/-- A radio in low power that is asked for leaves it: its synthesiser tunes again (R91). -/
def Block.radioAwake (b : Block) (r : Radio) : Block :=
  if (b.radio r).low && b.radioAsked r then b.modRadio r fun u => { u with low := false, tuneDue := true } else b

/-- The flow control of a port has nothing to send (R265). -/
def Block.flowStays (b : Block) (port : Nat) : Bool :=
  (b.fwd.xoff.getD port (0, 0)).1 == b.xoffNext port

/-- No transmit ring holds descriptors that acceptance would take now (R536). -/
def Block.ringsStay (b : Block) : Bool :=
  !b.mode.acc.engine || (b.listedRows Obj.ringEnable).all fun row =>
    4 ≤ row % 8 || b.get Obj.ringTail row == b.get Obj.ringHead row

/-- RESET_N or a low VCORE, VSRAM or VFUR holds every domain but the Furnace in reset (R499, R520). -/
def Block.held (b : Block) : Bool := b.pins.resetLow || b.pins.lowRails.any (fun r => decide (r ≤ 2))

/-- RESET_N has stopped every domain but the Furnace: nothing there happens until its release (R499). -/
def Block.frozen (b : Block) : Bool := b.pins.resetLow && b.coreF

/-- FE and MS-L stand at their safe points from 0.4 ms after the start of an entry into Hibernate (R104 step 2); an
entry that is abandoned lets them go on (R102). -/
def Block.entryHolds (b : Block) (n : Nat) : Bool :=
  (n == 4 || n == 10) && b.mode.entry.any fun e => decide (e.start + us 400 ≤ b.now)

/-- An engine executes nothing whatever its own state: RESET_N holds it (GD runs on, R499), or an entry into Hibernate
does. -/
def Block.stilled (b : Block) (n : Nat) : Bool := (b.frozen && n != 11) || b.entryHolds n

/-- Nothing is left for the units to do by themselves. -/
def Block.quiet (b : Block) : Bool :=
  b.losses.isEmpty && (b.boot.isNone || b.held) && b.inbox.isEmpty && !b.dram.load &&
    (match b.mode.drain with
     | some d => !d.closed
     | none => true) &&
    !b.margin.due && b.ringsStay && b.flowStays 0 && b.flowStays 1 &&
    (b.plais.queues.all fun q => q.queue.all fun n => n.sentAt.isSome) && b.plais.waiting.isEmpty &&
    (b.radios.all fun u => !u.low) && (b.links.all fun l => l.strands.all fun x => x.returning.isNone) && b.mode.held == 0 && !b.parentMissing &&
    !b.mac.slotDue && !b.ppsGated && b.rowHeld

/-- The general registers of an engine hold 0 again. -/
def State.clearRegs (s : State) (n : Nat) : State :=
  (List.range 32).foldl (fun (t : State) r => t.setReg n r 0) s

/-- What the losses of a command take from the memory and from the engines (R471, R501). -/
def State.takeLosses (s : State) : State :=
  let s1 := s.blk.losses.foldl (fun (t : State) l =>
    l.engines.foldl State.clearRegs { t with mem := memLose t.mem l }) s
  { s1 with blk := { s1.blk with losses := [] } }

/-- The Plais messages that links have released are handled. -/
def State.takeInbox (s : State) : State :=
  s.blk.inbox.foldl (fun (t : State) x => t.meshMessage x.1 x.2) { s with blk := { s.blk with inbox := [] } }

/-- The units' own work in the block: failovers that have ended, frames and stations that a drain lets go, a parent to
choose, a lehr pass that is due, TSCH's trigger row and slots, a gated PPS_OUT, flow control, radios asked for, and
notices. -/
def Block.selfWork (b : Block) : Block :=
  ((radios3.foldl Block.radioAwake ((b.ppsHold.holdRow.slotStarts.failoversDone.drainFlush.drainStations.parentFound.passMay.flowControl 0).flowControl 1))).pump

/-- The start that a command made due runs, unless a reset holds it, with the sections that follow the DRAM's
training. -/
def State.boots (s : State) : State := if s.blk.held then s else s.runBoot.loadDram.takeLosses

/-- What a command leaves to the units, done. -/
def State.settleWork (s : State) : State :=
  let s0 := s.point.takeInbox.takeLosses
  let s1 := s0.boots
  let s2 := { s1 with blk := s1.blk.deliverHeld }.boots
  let s3 := { s2 with blk := s2.blk.selfWork }.ringsOpen
  { s3 with blk := s3.blk.pump }

/-- The units do by themselves what a command has made due; in reset there is nothing but the losses. -/
def State.settle (s : State) : State :=
  if s.blk.quiet then s else if s.blk.frozen then s.takeLosses else s.settleWork

/-! ### Commands -/

/-- A command of the block that comes after a time. -/
def State.timed (s : State) (t : Nat) (f : Block → Block) : State := { s with blk := f (s.blk.tick t) }.settle

/-- A command of the whole machine that comes after a time. -/
def State.timedAll (s : State) (t : Nat) (f : State → State) : State := (f { s with blk := s.blk.tick t }).settle

/-- The outcome of a command that the Furnace takes, whatever RESET_N holds (R499). -/
def State.furnace (s : State) (t : Nat) (f : Block → Block) : Host.Outcome State Fault Refusal := .next (s.timed t f)

/-- The outcome of a command of the block that comes after a time. While RESET_N holds the block, time alone passes. -/
def State.at (s : State) (t : Nat) (f : Block → Block) : Host.Outcome State Fault Refusal :=
  .next (if s.blk.frozen then s.timed t id else s.timed t f)

/-- The outcome of a command of the whole machine that comes after a time. -/
def State.atAll (s : State) (t : Nat) (f : State → State) : Host.Outcome State Fault Refusal :=
  .next (if s.blk.frozen then s.timed t id else s.timedAll t f)

/-- A port writes an object whole. -/
def State.setObj (s : State) (p : Port) (r : Reg) (row v : Nat) : State :=
  s.portWrite p r.idx r.sub row r.size v .plain

/-- A port writes a row of a per-engine or per-row object at its row, else the only one. -/
def State.setOne (s : State) (p : Port) (r : Reg) (v : Nat) : State := s.setObj p r noRow v

end Sys2Proof.Machine
end

