-- ==== Sys2Proof/Machine/Engine.lean ====
section
/-!
DEFINITION. How an engine executes an instruction: the fetch, the exceptions, the retirement, and the memory accesses of
loads, stores and atomics with those through the dictionary window (R52 to R56, R436, R439, R445, R451).
-/

namespace Sys2Proof.Machine

/-! ### Completion and exceptions -/

/-- The control state of an engine changed. -/
def State.modCpu (s : State) (n : Nat) (f : Cpu → Cpu) : State := { s with blk := s.blk.modCpu n f }

/-- The flags of an engine replaced. -/
def State.setFlags (s : State) (n : Nat) (f : Flags) : State := s.modCpu n fun c => { c with flags := f }

/-- An instruction completes and the next one follows it: RETIRED counts it (R464). -/
def State.retire (s : State) (n : Nat) : State :=
  { s with blk := (s.blk.modCpu n fun c => { c with pc := c.pc + 4 }).add (Obj.engRetired.eng n) }

/-- An instruction completes and the program goes on at a target. -/
def State.jump (s : State) (n : Nat) (target : BitVec 40) : State :=
  { s with blk := (s.blk.modCpu n fun c => { c with pc := target }).add (Obj.engRetired.eng n) }

/-- An engine takes an exception (R445); a double exception fences its unit, and the units follow (R447). -/
def State.raise (s : State) (n : Nat) (e : Exc) (eaddr : Word) : State :=
  let t := { s with blk := s.blk.takeException n e eaddr }
  if (s.blk.cpu n).exl then t.settle else t

/-- An exception for which the manual gives EADDR no value: a free value (R437, R445; DESIGN CHOICE, log entry 12). -/
def State.raiseOpen (s : State) (n : Nat) (e : Exc) : State :=
  let k := s.blk.fresh
  State.raise { s with blk := { s.blk with fresh := k + 1 } } n e (BitVec.ofNat 64 (Config.freeNat k))

/-- An exception with the instruction word in EADDR (R437). -/
def State.raiseWord (s : State) (n : Nat) (e : Exc) (o : Op) : State := s.raise n e ((encode o).setWidth 64)

/-- The privilege of an engine. -/
def State.priv (s : State) (n : Nat) : Priv := (s.blk.cpu n).priv

/-- A reserved instruction: EMULATE at A, ILLEGAL at F and M (R442). -/
def State.reserved (s : State) (n : Nat) (o : Op) : State :=
  s.raiseWord n (if s.priv n = .a then .emulate else .illegal) o

/-- A profile of an engine is enabled: 0 E, 1 D (R464). GD has no D profile. -/
def Block.profile (b : Block) (n k : Nat) : Bool :=
  bitSet (b.get (Obj.engProfiles.eng n)) k && !(n == 11 && k == 1)

/-! ### Fetch -/

/-- An access to the DRAM window restarts its idle timer, and ends self-refresh (R91, R488). -/
def State.touch (s : State) (a : Nat) : State :=
  if 0x100000000 ≤ a && decide (a < 0x300000000) then { s with blk := s.blk.dramTouch } else s

/-- A bus error of an access: a word of MRAM that does not correct counts in MRAM_UE (R475). -/
def State.errorAt (s : State) (e : Exc) (a : Nat) : State :=
  if e == .unmapped && s.blk.mramBad a then { s with blk := s.blk.add Obj.mramUe } else s

/-- The exception that the fetch at an engine's program counter raises, if any (R436, R439). -/
def Block.fetchFault (b : Block) (n : Nat) : Option Exc :=
  let c := b.cpu n
  if c.pc.toNat % 4 ≠ 0 then some .misalign
  else
    match b.placeOf n c.priv .fetch c.pc.toNat 4 with
    | .error e => some e
    | .ok _ => none

/-- An engine executes an instruction. One that does not run, or that is stilled, executes none; one whose fetch fails
takes that exception, with the address it fetched from in EADDR. -/
def State.instr (s : State) (n : Eng) (f : State → State) : Host.Outcome State Fault Refusal :=
  let s1 : State := { s with blk := s.blk.begin }
  let c := s1.blk.cpu n
  if c.run ≠ .running || s1.blk.stilled n then .next s1
  else
    match s1.blk.fetchFault n with
    | some e => .next ((s1.errorAt e c.pc.toNat).raise n e (c.pc.setWidth 64))
    | none => .next (f (s1.touch c.pc.toNat))

/-! ### The dictionary window (R52 to R56) -/

/-- The octets of a value as the window shows them: little-endian, octet strings in order, TIME112 field by field (R7,
R52). -/
def Reg.windowOctets (r : Reg) (v : Nat) : List Octet :=
  match r.kind with
  | .oct | .str => octetsBE r.size v
  | .time => octetsLE 8 (v / 2 ^ 48) ++ octetsLE 4 (v / 65536 % 2 ^ 32) ++ octetsLE 2 (v % 65536)
  | _ => octetsLE r.size v

/-- The value of octets that the window took. -/
def Reg.ofWindow (r : Reg) (l : List Octet) : Nat :=
  match r.kind with
  | .oct | .str => ofOctetsBE l
  | .time => ofOctetsLE (l.take 8) * 2 ^ 48 + ofOctetsLE ((l.drop 8).take 4) * 65536 + ofOctetsLE (l.drop 12)
  | _ => ofOctetsLE l

/-- An address lies in the dictionary window. -/
def inWindow (a : Nat) : Bool := decide (0xF000000000 ≤ a) && decide (a < 0xF010000000)

/-- The index of a window address. -/
def winIdx (a : Nat) : Nat := a / 0x1000 % 0x10000

/-- The subindex of a window address. -/
def winSub (a : Nat) : Nat := a / 0x10 % 0x100

/-- The octet of a value that a window address names: SEG_OFFSET counts for a value over 16 octets. -/
def Block.winOctet (b : Block) (n : Eng) (size a : Nat) : Nat :=
  a % 16 + (if 16 < size then b.get Obj.segOffset (portLoc (.engine n)) else 0)

/-- A window load: the value, 0 where the result is not OK; DOMAIN_OFF raises the bus error (R52, R54, R55). A port that
the mode does not serve gives DOMAIN_OFF too (R82; DEDUCED, log entry 51). -/
def State.windowLoad (s : State) (n : Eng) (a k : Nat) : Except Exc Nat × State :=
  let b := s.blk
  let p : Port := .engine n
  let idx := winIdx a
  let sub := winSub a
  let size := b.sizeAt idx sub
  let o := b.winOctet n size a
  let answer (code : Nat) (l : List Octet) (c : Block) : Except Exc Nat × State :=
    (if code = 10 then .error .domainOff else .ok (if code = 0 then ofOctetsLE ((l.drop o).take k) else 0),
      { s with blk := c })
  if !b.portOpen p then (.error .domainOff, s)
  else if o = 0 then
    match b.checkAccess p idx sub noRow false, b.read p idx sub noRow with
    | .ok (r, at_), ((0, v, _), b1) => answer 0 (r.windowOctets v) (b1.setSnap p (r.key at_) (r.windowOctets v))
    | _, ((code, _, _), b1) => answer code [] b1
  else if size ≤ o then
    match b.checkAccess p idx sub noRow false with
    | .ok _ => answer 0 [] (b.account p 0)
    | .error e => answer e [] (b.account p e)
  else
    let d := b.readSnap p idx sub noRow
    answer d.1.1 d.1.2 d.2

/-- The key under which the window stages octets. -/
def winKey (idx sub : Nat) : Nat := (idx * 256 + sub) * 2 ^ 32 + noRow

/-- A window store that reaches the commit point: every one but a part of a value over 8 octets (R53). -/
def Block.winSubmits (b : Block) (n : Eng) (a k : Nat) : Bool :=
  let size := b.sizeAt (winIdx a) (winSub a)
  let o := b.winOctet n size a
  size ≤ 8 || k != 8 || (decide (o < size) && decide (size ≤ o + 8))

/-- A value that an engine's window submits to the commit point, which takes it at once where it is idle (R53, R57). -/
def State.windowSubmit (s : State) (n : Eng) (idx sub len v : Nat) : State :=
  if s.blk.pointIdle then s.takeWrite (.engine n) idx sub noRow len v .window
  else { s with blk := s.blk.enqueueAsk (s.blk.waitOf (.engine n) (.write idx sub noRow len v .window)) }

/-- A store to another object discards what an engine has staged; one to SEG_OFFSET only selects the segment of the
object (R53; DEDUCED, log entry 168). -/
def Block.storeDrops (b : Block) (n : Eng) (idx sub : Nat) : Block :=
  if idx = 0x1010 && sub = 4 then b else b.dropStaged (.engine n)

/-- A window store (R53): a value of 8 octets or less takes one store of its width at offset 0; a longer one is staged
in stores of 8 octets and submitted by the one that covers its last octet. Octets past the value are ignored. -/
def State.windowStore (s : State) (n : Eng) (a k v : Nat) : State :=
  let p : Port := .engine n
  let idx := winIdx a
  let sub := winSub a
  let bare : State := { s with blk := s.blk.storeDrops n idx sub }
  match s.blk.find idx sub with
  | .error _ => bare.windowSubmit n idx sub k v
  | .ok r =>
    let o := s.blk.winOctet n r.size a
    if r.size ≤ 8 then
      if o = 0 && k = r.size then bare.windowSubmit n idx sub k (r.ofWindow (octetsLE k v))
      else bare.windowSubmit n idx sub 0 0
    else if k ≠ 8 then bare.windowSubmit n idx sub 0 0
    else if r.size ≤ o then s
    else
      let b1 := s.blk.stage p (winKey idx sub) o ((octetsLE 8 v).take (r.size - o))
      if o + 8 < r.size then { s with blk := b1 }
      else
        match stagedUpTo (b1.stagedOf p (winKey idx sub)) r.size with
        | some l => bare.windowSubmit n idx sub r.size (r.ofWindow l)
        | none => bare.windowSubmit n idx sub 0 0

/-- A window load that the commit point cannot take now: it has other work, or the load meets the slot of the cullet
log that is being written (R57, R407). -/
def State.loadStands (s : State) (n : Eng) (a k : Nat) : Bool :=
  inWindow a && a % k == 0 && s.blk.portOpen (.engine n) &&
    (!s.blk.pointIdle ||
      (s.blk.winOctet n (s.blk.sizeAt (winIdx a) (winSub a)) a == 0 && s.blk.meetsWrite (.engine n) (winIdx a) (winSub a) noRow))

/-- An engine stands at its load: a load that an idle commit point has begun holds it until the slot is written. The
load takes effect when the engine executes it then (DEDUCED, log entry 169). -/
def State.standAtLoad (s : State) (n : Eng) : State :=
  match s.blk.pointIdle, s.blk.cullet.writing with
  | true, some k => { s with blk := s.blk.hold (s.blk.waitOf (.engine n) (.load k)) }
  | _, _ => s

/-- The bus error of a window store (R55, R56): PRIVILEGE at A outside the customer objects, DOMAIN_OFF. -/
def Block.windowFault (b : Block) (n : Eng) (priv : Priv) (a k : Nat) : Option Exc :=
  let idx := winIdx a
  if priv = .a && !(decide (0xA000 ≤ idx) && decide (idx < 0xB000)) then some .privilege
  else if !b.portOpen (.engine n) then some .domainOff
  else if !b.winSubmits n a k then none
  else
    match b.checkAccess (.engine n) idx (winSub a) noRow true with
    | .error 10 => some .domainOff
    | _ => none

/-! ### Loads and stores -/

/-- A load of `k` octets: the number they give, or the exception (R35, R436, R446). -/
def State.loadAt (s : State) (n : Eng) (a k : Nat) : Except Exc Nat × State :=
  if a % k ≠ 0 then (.error .misalign, s)
  else
    match s.blk.placeOf n (s.priv n) .load a k with
    | .error e => (.error e, s.errorAt e a)
    | .ok .window => s.windowLoad n a k
    | .ok p =>
      let d := (s.touch a).readPlace p a k
      (.ok (ofOctetsLE d.1), d.2)

/-- The exception that a store of `k` octets raises, if any. -/
def State.storeFault (s : State) (n : Eng) (a k : Nat) : Option Exc :=
  if a % k ≠ 0 then some .misalign
  else
    match s.blk.placeOf n (s.priv n) .store a k with
    | .error e => some e
    | .ok .window => s.blk.windowFault n (s.priv n) a k
    | .ok _ => none

/-- A store that raises none, performed. -/
def State.storeDo (s : State) (n : Eng) (a k v : Nat) : State :=
  match s.blk.placeOf n (s.priv n) .store a k with
  | .ok .window => (s.windowStore n a k v).settle
  | .ok p => (s.touch a).writePlace p a (octetsLE k v)
  | .error _ => s

/-- A store through the window that answers DOMAIN_OFF is an access of its port all the same: counted, its cursor
steps, and what the port had staged is discarded (R50, R51, R53). -/
def Block.storeRefused (b : Block) (n : Eng) (a : Nat) : Block :=
  ((b.storeDrops n (winIdx a) (winSub a)).account (.engine n) 10).stepCursor (.engine n) (winIdx a) (winSub a) noRow

/-- A store that raises an exception. -/
def State.storeRaise (s : State) (n : Eng) (a : Nat) (e : Exc) : State :=
  State.raise (if inWindow a && e == .domainOff then { s with blk := s.blk.storeRefused n a } else s) n e (BitVec.ofNat 64 a)

/-- A load instruction: its value, extended, goes to rd. -/
def State.loadTo (s : State) (n : Eng) (rd : GReg) (addr : Word) (k : Nat) (ext : Nat → Word) : State :=
  if s.loadStands n addr.toNat k then s.standAtLoad n
  else
    match s.loadAt n addr.toNat k with
    | (.ok v, t) =>
      let u := (t.setReg n rd (ext v)).retire n
      if inWindow addr.toNat then u.settle else u
    | (.error e, t) => t.raise n e addr

/-- A store instruction: the low `k` octets of a register. -/
def State.storeFrom (s : State) (n : Eng) (rd : GReg) (addr : Word) (k : Nat) : State :=
  match s.storeFault n addr.toNat k with
  | some e => s.storeRaise n addr.toNat e
  | none => (s.storeDo n addr.toNat k (s.reg n rd).toNat).retire n

/-- Earlier accesses of an engine through its window wait for the commit point. -/
def Block.windowBusy (b : Block) (n : Eng) : Bool := b.plais.waiting.any fun w => w.port == .engine n

/-- What a fence orders behind the engine's earlier window accesses: the engine stands at the instruction until they
are answered (R449 to R451). -/
def State.ordered (s : State) (n : Eng) (f : State → State) : State := if s.blk.windowBusy n then s else f s

/-- An atomic on an aligned 8-octet word (R451): the old value goes to rd, and the word becomes what `f` makes of it, or
stays where `f` gives nothing. -/
def State.atomic (s : State) (n : Eng) (rd ra : GReg) (f : Word → Option Word) : State :=
  let addr := s.reg n ra
  let a := addr.toNat
  if a % 8 ≠ 0 then s.raise n .misalign addr
  else
    match s.blk.placeOf n (s.priv n) .atomic a 8 with
    | .error e => s.raise n e addr
    | .ok p =>
      let d := s.readPlace p a 8
      let old : Word := BitVec.ofNat 64 (ofOctetsLE d.1)
      let t := match f old with
        | some v => d.2.writePlace p a (octetsLE 8 v.toNat)
        | none => d.2
      (t.setReg n rd old).retire n

end Sys2Proof.Machine
end

