-- ==== Sys2Proof/Machine/Arith.lean ====
section
/-!
DEFINITION. The instructions that compute: ALU, immediates, shifts, moves, multiplication and division (R441, R443) and
the decimal instructions of the D profile (R457, R458).
-/

namespace Sys2Proof.Machine

/-! ### Shared operations -/

/-- A register result with its flags, and the instruction completes. -/
def State.compute (s : State) (n : Eng) (rd : GReg) (v : Word) (f : Flags) : State :=
  ((s.setReg n rd v).setFlags n f).retire n

/-- The flags of an engine. -/
def State.flags (s : State) (n : Nat) : Flags := (s.blk.cpu n).flags

/-- An addition with carry-in, or a subtraction as the addition of the complement: the flags and DCV (R443). -/
def State.sum (s : State) (n : Eng) (rd : GReg) (a b : Word) (c sub : Bool) : State :=
  (s.compute n rd (sumOf a b c) ((s.flags n).sum a b c)).modCpu n fun x => { x with dcv := dcvOf a b c sub }

/-- A logical result: Z and N from it, V 0 (R443). -/
def State.logic (s : State) (n : Eng) (rd : GReg) (v : Word) : State := s.compute n rd v ((s.flags n).logic v)

/-- A shift by an amount mod 64 (R443). -/
def State.shift (s : State) (n : Eng) (rd : GReg) (k : Shift) (a : Word) (amount : Nat) : State :=
  s.compute n rd (k.apply a (amount % 64)) ((s.flags n).shift k a (amount % 64))

/-- A move: a register and no flag (R443). -/
def State.move (s : State) (n : Eng) (rd : GReg) (v : Word) : State := (s.setReg n rd v).retire n

/-- A decimal instruction on two operands (R457): reserved without the D profile, BCD_DIGIT for a digit above 9. -/
def State.decimal (s : State) (n : Eng) (o : Op) (a b : Word) (f : State → State) : State :=
  if !s.blk.profile n 1 then s.reserved n o
  else if badDigits a 16 || badDigits b 16 then s.raiseOpen n .bcdDigit
  else f s

/-! ### ALU -/

/-- ADD: ra + rb. -/
def execAdd (n : Eng) (rd ra rb : GReg) (s : State) : Host.Outcome State Fault Refusal :=
  s.instr n fun s => s.sum n rd (s.reg n ra) (s.reg n rb) false false

/-- ADC: ra + rb + C. -/
def execAdc (n : Eng) (rd ra rb : GReg) (s : State) : Host.Outcome State Fault Refusal :=
  s.instr n fun s => s.sum n rd (s.reg n ra) (s.reg n rb) (s.flags n).c false

/-- SUB: ra − rb, as ra + not rb + 1. -/
def execSub (n : Eng) (rd ra rb : GReg) (s : State) : Host.Outcome State Fault Refusal :=
  s.instr n fun s => s.sum n rd (s.reg n ra) (~~~s.reg n rb) true true

/-- SBC: ra + not rb + C. -/
def execSbc (n : Eng) (rd ra rb : GReg) (s : State) : Host.Outcome State Fault Refusal :=
  s.instr n fun s => s.sum n rd (s.reg n ra) (~~~s.reg n rb) (s.flags n).c true

/-- CMP: the flags of SUB, no register. -/
def execCmp (n : Eng) (ra rb : GReg) (s : State) : Host.Outcome State Fault Refusal :=
  s.instr n fun s => s.sum n 0 (s.reg n ra) (~~~s.reg n rb) true true

/-- AND. -/
def execAnd (n : Eng) (rd ra rb : GReg) (s : State) : Host.Outcome State Fault Refusal :=
  s.instr n fun s => s.logic n rd (s.reg n ra &&& s.reg n rb)

/-- OR. -/
def execOr (n : Eng) (rd ra rb : GReg) (s : State) : Host.Outcome State Fault Refusal :=
  s.instr n fun s => s.logic n rd (s.reg n ra ||| s.reg n rb)

/-- XOR. -/
def execXor (n : Eng) (rd ra rb : GReg) (s : State) : Host.Outcome State Fault Refusal :=
  s.instr n fun s => s.logic n rd (s.reg n ra ^^^ s.reg n rb)

/-- SHL by rb. -/
def execShl (n : Eng) (rd ra rb : GReg) (s : State) : Host.Outcome State Fault Refusal :=
  s.instr n fun s => s.shift n rd .shl (s.reg n ra) (s.reg n rb).toNat

/-- SHR by rb. -/
def execShr (n : Eng) (rd ra rb : GReg) (s : State) : Host.Outcome State Fault Refusal :=
  s.instr n fun s => s.shift n rd .shr (s.reg n ra) (s.reg n rb).toNat

/-- SAR by rb. -/
def execSar (n : Eng) (rd ra rb : GReg) (s : State) : Host.Outcome State Fault Refusal :=
  s.instr n fun s => s.shift n rd .sar (s.reg n ra) (s.reg n rb).toNat

/-- ROR by rb. -/
def execRor (n : Eng) (rd ra rb : GReg) (s : State) : Host.Outcome State Fault Refusal :=
  s.instr n fun s => s.shift n rd .ror (s.reg n ra) (s.reg n rb).toNat

/-- CLZ: leading zeros of ra. -/
def execClz (n : Eng) (rd ra : GReg) (s : State) : Host.Outcome State Fault Refusal :=
  s.instr n fun s => s.logic n rd (clzOf (s.reg n ra))

/-- POPC: bits set in ra. -/
def execPopc (n : Eng) (rd ra : GReg) (s : State) : Host.Outcome State Fault Refusal :=
  s.instr n fun s => s.logic n rd (popcOf (s.reg n ra))

/-! ### Immediates -/

/-- ADDI: ra + IMM16. -/
def execAddi (n : Eng) (rd ra : GReg) (imm : BitVec 16) (s : State) : Host.Outcome State Fault Refusal :=
  s.instr n fun s => s.sum n rd (s.reg n ra) (sext16 imm) false false

/-- CMPI: the flags of ra − IMM16. -/
def execCmpi (n : Eng) (ra : GReg) (imm : BitVec 16) (s : State) : Host.Outcome State Fault Refusal :=
  s.instr n fun s => s.sum n 0 (s.reg n ra) (~~~sext16 imm) true true

/-- ANDI: IMM16 zero-extended. -/
def execAndi (n : Eng) (rd ra : GReg) (imm : BitVec 16) (s : State) : Host.Outcome State Fault Refusal :=
  s.instr n fun s => s.logic n rd (s.reg n ra &&& zext16 imm)

/-- ORI: IMM16 zero-extended. -/
def execOri (n : Eng) (rd ra : GReg) (imm : BitVec 16) (s : State) : Host.Outcome State Fault Refusal :=
  s.instr n fun s => s.logic n rd (s.reg n ra ||| zext16 imm)

/-- XORI: IMM16 zero-extended. -/
def execXori (n : Eng) (rd ra : GReg) (imm : BitVec 16) (s : State) : Host.Outcome State Fault Refusal :=
  s.instr n fun s => s.logic n rd (s.reg n ra ^^^ zext16 imm)

/-- SHI with kind SHL. -/
def execShiShl (n : Eng) (rd ra : GReg) (amount : Fin 64) (s : State) : Host.Outcome State Fault Refusal :=
  s.instr n fun s => s.shift n rd .shl (s.reg n ra) amount.val

/-- SHI with kind SHR. -/
def execShiShr (n : Eng) (rd ra : GReg) (amount : Fin 64) (s : State) : Host.Outcome State Fault Refusal :=
  s.instr n fun s => s.shift n rd .shr (s.reg n ra) amount.val

/-- SHI with kind SAR. -/
def execShiSar (n : Eng) (rd ra : GReg) (amount : Fin 64) (s : State) : Host.Outcome State Fault Refusal :=
  s.instr n fun s => s.shift n rd .sar (s.reg n ra) amount.val

/-- SHI with kind ROR. -/
def execShiRor (n : Eng) (rd ra : GReg) (amount : Fin 64) (s : State) : Host.Outcome State Fault Refusal :=
  s.instr n fun s => s.shift n rd .ror (s.reg n ra) amount.val

/-- MOVZ: IMM16 in halfword h, 0 elsewhere. -/
def execMovz (n : Eng) (rd : GReg) (h : Fin 4) (imm : BitVec 16) (s : State) : Host.Outcome State Fault Refusal :=
  s.instr n fun s => s.move n rd (movzOf h.val imm)

/-- MOVK: IMM16 into halfword h of rd. -/
def execMovk (n : Eng) (rd : GReg) (h : Fin 4) (imm : BitVec 16) (s : State) : Host.Outcome State Fault Refusal :=
  s.instr n fun s => s.move n rd (movkOf (s.reg n rd) h.val imm)

/-! ### Multiplication and division -/

/-- MUL: the low 64 bits of the product. -/
def execMul (n : Eng) (rd ra rb : GReg) (s : State) : Host.Outcome State Fault Refusal :=
  s.instr n fun s => s.compute n rd (s.reg n ra * s.reg n rb) ((s.flags n).mul (s.reg n ra) (s.reg n rb))

/-- MULHU: the high 64 bits of the unsigned product. -/
def execMulhu (n : Eng) (rd ra rb : GReg) (s : State) : Host.Outcome State Fault Refusal :=
  s.instr n fun s => s.move n rd (BitVec.ofNat 64 ((s.reg n ra).toNat * (s.reg n rb).toNat / 2 ^ 64))

/-- MULHS: the high 64 bits of the signed product. -/
def execMulhs (n : Eng) (rd ra rb : GReg) (s : State) : Host.Outcome State Fault Refusal :=
  s.instr n fun s => s.move n rd (BitVec.ofInt 64 ((s.reg n ra).toInt * (s.reg n rb).toInt / 2 ^ 64))

/-- DIVU: the unsigned quotient; V 1 for a division by 0. -/
def execDivu (n : Eng) (rd ra rb : GReg) (s : State) : Host.Outcome State Fault Refusal :=
  s.instr n fun s =>
    s.compute n rd (divuOf (s.reg n ra) (s.reg n rb))
      ((s.flags n).div (divuOf (s.reg n ra) (s.reg n rb)) (s.reg n rb == 0))

/-- DIVS: the signed quotient; V 1 for a division by 0 or of −2^63 by −1. -/
def execDivs (n : Eng) (rd ra rb : GReg) (s : State) : Host.Outcome State Fault Refusal :=
  s.instr n fun s =>
    s.compute n rd (divsOf (s.reg n ra) (s.reg n rb))
      ((s.flags n).div (divsOf (s.reg n ra) (s.reg n rb)) (s.reg n rb == 0 || divsOver (s.reg n ra) (s.reg n rb)))

/-- REMU: the unsigned remainder; V 1 for a division by 0. -/
def execRemu (n : Eng) (rd ra rb : GReg) (s : State) : Host.Outcome State Fault Refusal :=
  s.instr n fun s =>
    s.compute n rd (remuOf (s.reg n ra) (s.reg n rb))
      ((s.flags n).div (remuOf (s.reg n ra) (s.reg n rb)) (s.reg n rb == 0))

/-- REMS: the signed remainder; V 1 for a division by 0. V counts −2^63 by −1 for DIVS alone. -/
def execRems (n : Eng) (rd ra rb : GReg) (s : State) : Host.Outcome State Fault Refusal :=
  s.instr n fun s =>
    s.compute n rd (remsOf (s.reg n ra) (s.reg n rb))
      ((s.flags n).div (remsOf (s.reg n ra) (s.reg n rb)) (s.reg n rb == 0))

/-! ### The D profile -/

/-- The decimal sum into rd with its flags. -/
def State.bcdSum (s : State) (n : Eng) (rd ra rb : GReg) (c : Bool) : State :=
  let r := bcdAdd (s.reg n ra) (s.reg n rb) c
  s.compute n rd r.1 ((s.flags n).dadd r.1 r.2)

/-- The decimal difference into rd with its flags. -/
def State.bcdDiff (s : State) (n : Eng) (rd ra rb : GReg) (borrow : Bool) : State :=
  let r := bcdSub (s.reg n ra) (s.reg n rb) borrow
  s.compute n rd r.1 ((s.flags n).dsub r.1 r.2)

/-- DADD: ra + rb in decimal. -/
def execDadd (n : Eng) (rd ra rb : GReg) (s : State) : Host.Outcome State Fault Refusal :=
  s.instr n fun s => s.decimal n (.dadd rd ra rb) (s.reg n ra) (s.reg n rb) fun s => s.bcdSum n rd ra rb false

/-- DADD.X: ra + rb + C in decimal. -/
def execDaddX (n : Eng) (rd ra rb : GReg) (s : State) : Host.Outcome State Fault Refusal :=
  s.instr n fun s => s.decimal n (.daddX rd ra rb) (s.reg n ra) (s.reg n rb) fun s => s.bcdSum n rd ra rb (s.flags n).c

/-- DSUB: ra − rb in decimal. -/
def execDsub (n : Eng) (rd ra rb : GReg) (s : State) : Host.Outcome State Fault Refusal :=
  s.instr n fun s => s.decimal n (.dsub rd ra rb) (s.reg n ra) (s.reg n rb) fun s => s.bcdDiff n rd ra rb false

/-- DSUB.X: ra − rb − not C in decimal. -/
def execDsubX (n : Eng) (rd ra rb : GReg) (s : State) : Host.Outcome State Fault Refusal :=
  s.instr n fun s => s.decimal n (.dsubX rd ra rb) (s.reg n ra) (s.reg n rb) fun s => s.bcdDiff n rd ra rb (!(s.flags n).c)

/-- DCMP: the flags of DSUB, no register. -/
def execDcmp (n : Eng) (ra rb : GReg) (s : State) : Host.Outcome State Fault Refusal :=
  s.instr n fun s => s.decimal n (.dcmp ra rb) (s.reg n ra) (s.reg n rb) fun s => s.bcdDiff n 0 ra rb false

/-- DADJ: the decimal adjustment of ra by DCV and C (R458). -/
def execDadj (n : Eng) (rd ra : GReg) (s : State) : Host.Outcome State Fault Refusal :=
  s.instr n fun s =>
    if !s.blk.profile n 1 then s.reserved n (.dadj rd ra)
    else
      let dcv := (s.blk.cpu n).dcv
      let r := dadj dcv (s.reg n ra) (s.flags n).c 16
      s.compute n rd r.1 ((s.flags n).dadj dcv r.1 r.2)

end Sys2Proof.Machine
end

