-- ==== Sys2Proof/Machine/Clocks.lean ====
section
/-!
DEFINITION. The commands of network time, triggers, captures and timers (R321 to R355).
-/

namespace Sys2Proof.Machine

/-! ### Time domains and presented time -/

/-- OFFSET_IN: a port writes a sample of a domain (R324, R325). -/
def execOffsetIn (t : Nat) (p : Port) (dom : Fin 2) (value : Nat) (s : State) : Host.Outcome State Fault Refusal :=
  s.atAll t fun x => x.setObj p Obj.domOffsetIn dom.val value

/-- SOURCE_WRITE: a port writes SOURCE of a domain (R326). -/
def execSourceWrite (t : Nat) (p : Port) (dom : Fin 2) (value : Nat) (s : State) : Host.Outcome State Fault Refusal :=
  s.atAll t fun x => x.setObj p Obj.domSource dom.val value

/-- SOURCE_TIMEOUT_EXPIRY (R326, R327). -/
def execSourceTimeoutExpiry (t : Nat) (dom : Fin 2) (s : State) : Host.Outcome State Fault Refusal :=
  s.at t fun b => b.sourceTimeout dom.val

/-- HOLDOVER_LIMIT_EXPIRY (R323). -/
def execHoldoverLimitExpiry (t : Nat) (s : State) : Host.Outcome State Fault Refusal := s.at t Block.holdoverLimit

/-- PRESENT_SEL_WRITE (R327). -/
def execPresentSelWrite (t : Nat) (p : Port) (value : Nat) (s : State) : Host.Outcome State Fault Refusal :=
  s.atAll t fun x => x.setOne p Obj.presentSel value

/-- STEP_ALLOW_WRITE (R328). -/
def execStepAllowWrite (t : Nat) (p : Port) (value : Nat) (s : State) : Host.Outcome State Fault Refusal :=
  s.atAll t fun x => x.setOne p Obj.stepAllow value

/-- PRESENT_SET (R329). -/
def execPresentSet (t : Nat) (p : Port) (value : Nat) (s : State) : Host.Outcome State Fault Refusal :=
  s.atAll t fun x => x.setOne p Obj.presentSet value

/-- RTC_ALIGN (R330). -/
def execRtcAlign (t : Nat) (s : State) : Host.Outcome State Fault Refusal := s.at t Block.rtcAlign

/-! ### Triggers -/

/-- TRIGGER_FIRE (R338, R340). -/
def execTriggerFire (t : Nat) (row : Fin 16) (s : State) : Host.Outcome State Fault Refusal :=
  s.at t fun b => b.trigFire row.val

/-- PPS_OUT_FALL (R340). -/
def execPpsOutFall (t : Nat) (s : State) : Host.Outcome State Fault Refusal := s.at t Block.ppsFall

/-- TRIGGER_ENABLE: a port writes ENABLE of a trigger (R338, R339). -/
def execTriggerEnable (t : Nat) (p : Port) (row : Fin 16) (value : Nat) (s : State) :
    Host.Outcome State Fault Refusal :=
  s.atAll t fun x => x.setObj p Obj.trigEnable row.val value

/-- LATE_READ (R339, R352). -/
def execLateRead (t : Nat) (p : Port) (row : Fin 16) (s : State) : Host.Outcome State Fault Refusal :=
  s.atAll t fun x => x.portRead p Obj.trigLate.idx Obj.trigLate.sub row.val

/-! ### Captures and timestamp queues -/

/-- CAPTURE_EDGE (R341). -/
def execCaptureEdge (t : Nat) (ch : Fin 8) (rising : Bool) (s : State) : Host.Outcome State Fault Refusal :=
  s.at t fun b => b.capture ch.val rising

/-- CAPTURE_TIME_READ (R341). -/
def execCaptureTimeRead (t : Nat) (p : Port) (ch : Fin 8) (s : State) : Host.Outcome State Fault Refusal :=
  s.atAll t fun x => x.portRead p Obj.capTime.idx Obj.capTime.sub ch.val

/-- POP (R337). -/
def execPop (t : Nat) (p : Port) (q : Fin 5) (s : State) : Host.Outcome State Fault Refusal :=
  s.atAll t fun x => x.portRead p Obj.tsqPop.idx Obj.tsqPop.sub q.val

/-- OVERFLOW_READ (R337). -/
def execOverflowRead (t : Nat) (p : Port) (q : Fin 5) (s : State) : Host.Outcome State Fault Refusal :=
  s.atAll t fun x => x.portRead p Obj.tsqOverflow.idx Obj.tsqOverflow.sub q.val

/-! ### Timers -/

/-- TIMER_RELOAD (R342, R345). -/
def execTimerReload (t : Nat) (ch : Fin 16) (s : State) : Host.Outcome State Fault Refusal :=
  s.at t fun b => b.timerReload ch.val

/-- TIMER_COMPARE (R343). -/
def execTimerCompare (t : Nat) (ch : Fin 16) (s : State) : Host.Outcome State Fault Refusal :=
  s.at t fun b => b.timerCompare ch.val

/-- TIMER_PIN_CAPTURE (R342). -/
def execTimerPinCapture (t : Nat) (ch : Fin 16) (s : State) : Host.Outcome State Fault Refusal :=
  s.at t fun b => b.timerCapture ch.val

/-- TMR_IO_COUNT_EDGE (R342). -/
def execTmrIoCountEdge (t : Nat) (ch : Fin 16) (rising : Bool) (s : State) : Host.Outcome State Fault Refusal :=
  s.at t fun b => b.countEdge ch.val rising

/-- TIMER_COMPARE_WRITE: a port writes COMPARE (R343, R344). -/
def execTimerCompareWrite (t : Nat) (p : Port) (ch : Fin 16) (value : Nat) (s : State) :
    Host.Outcome State Fault Refusal :=
  s.atAll t fun x => x.setObj p Obj.tmrCompare ch.val value

/-- TIMER_PERIOD_WRITE: a port writes PERIOD (R345). -/
def execTimerPeriodWrite (t : Nat) (p : Port) (ch : Fin 16) (value : Nat) (s : State) :
    Host.Outcome State Fault Refusal :=
  s.atAll t fun x => x.setObj p Obj.tmrPeriod ch.val value

/-- GLOBAL_GO: a port writes 1 (R348). -/
def execGlobalGo (t : Nat) (p : Port) (s : State) : Host.Outcome State Fault Refusal :=
  s.atAll t fun x => x.setOne p Obj.globalGo 1

/-- COUNT_LOW_READ: a port reads COUNT of the even channel of a pair (R349). -/
def execCountLowRead (t : Nat) (p : Port) (pair : Fin 4) (s : State) : Host.Outcome State Fault Refusal :=
  s.atAll t fun x => x.portRead p Obj.tmrCount.idx Obj.tmrCount.sub (2 * pair.val)

/-- EVENTS_READ (R354). -/
def execEventsRead (t : Nat) (p : Port) (ch : Fin 16) (s : State) : Host.Outcome State Fault Refusal :=
  s.atAll t fun x => x.portRead p Obj.tmrEvents.idx Obj.tmrEvents.sub ch.val

end Sys2Proof.Machine
end

