-- ==== Sys2Proof/Machine/Control.lean ====
section
/-!
DEFINITION. Branches and jumps, the system instructions, the control registers, and the event instructions of the E
profile (R437, R438, R441, R444, R445, R453, R454, R466).
-/

namespace Sys2Proof.Machine

/-! ### Branches and jumps -/

/-- The program counter of an engine. -/
def State.pc (s : State) (n : Nat) : BitVec 40 := (s.blk.cpu n).pc

/-- B.cond: to the target where the condition holds, else on. -/
def execBCond (n : Eng) (cond : BitVec 4) (offset : BitVec 22) (s : State) : Host.Outcome State Fault Refusal :=
  s.instr n fun s => if (s.blk.cpu n).flags.cond cond then s.jump n (branchTarget (s.pc n) offset) else s.retire n

/-- JAL: the return address goes to g31. -/
def execJal (n : Eng) (offset : BitVec 26) (s : State) : Host.Outcome State Fault Refusal :=
  s.instr n fun s => (s.setReg n 31 ((s.pc n + 4).setWidth 64)).jump n (jumpTarget (s.pc n) offset)

/-- JALR: the return address goes to rd; the target is ra + IMM16, ra as it was. -/
def execJalr (n : Eng) (rd ra : GReg) (imm : BitVec 16) (s : State) : Host.Outcome State Fault Refusal :=
  s.instr n fun s => (s.setReg n rd ((s.pc n + 4).setWidth 64)).jump n (s.jalrTarget n ra imm)

/-! ### System instructions -/

/-- An instruction that A may not execute raises PRIV there (R438). -/
def State.notAtA (s : State) (n : Eng) (o : Op) (f : State → State) : State :=
  if s.priv n = .a then s.raiseWord n .priv o else f s

/-- A reserved word: ILLEGAL at F and M, EMULATE at A (R442). -/
def execReservedInstruction (n : Eng) (word : BitVec 32) (s : State) : Host.Outcome State Fault Refusal :=
  s.instr n fun s => s.reserved n (.reserved word)

/-- NOP. -/
def execNop (n : Eng) (s : State) : Host.Outcome State Fault Refusal := s.instr n fun s => s.retire n

/-- TRAP: the TRAP exception. The manual gives its EADDR no value. -/
def execTrap (n : Eng) (_code : BitVec 5) (s : State) : Host.Outcome State Fault Refusal :=
  s.instr n fun s => s.raiseOpen n .trap

/-- MCALL: the MCALL exception, PRIV at A. -/
def execMcall (n : Eng) (s : State) : Host.Outcome State Fault Refusal :=
  s.instr n fun s => s.notAtA n .mcall fun s => s.raiseOpen n .mcall

/-- XRET: the return from an exception, PRIV at A. -/
def execXret (n : Eng) (s : State) : Host.Outcome State Fault Refusal :=
  s.instr n fun s => s.notAtA n .xret fun s => { s with blk := s.blk.exceptionReturn n }

/-- HALT: the engine halts behind the instruction, PRIV at A. -/
def execHalt (n : Eng) (s : State) : Host.Outcome State Fault Refusal :=
  s.instr n fun s => s.notAtA n .halt fun s => (s.retire n).modCpu n fun c => { c with run := .halted }

/-- A swap request that is pending halts the engine at its safe point (R466, R508). -/
def Block.swapHold (b : Block) (n : Nat) : Block :=
  let b1 := b.modCpu n fun c => { c with run := .halted, swapReq := false }
  { b1 with images := { b1.images with swap := b1.images.swap.map fun w => { w with held := true } } }

/-- SAFEPT: a NOP without a pending swap request; with one, the engine halts here. -/
def execSafept (n : Eng) (s : State) : Host.Outcome State Fault Refusal :=
  s.instr n fun s =>
    let t := s.retire n
    if (s.blk.cpu n).swapReq then { t with blk := t.blk.swapHold n } else t

/-- WDKICK: the watchdog starts again (R455). -/
def execWdkick (n : Eng) (s : State) : Host.Outcome State Fault Refusal :=
  s.instr n fun s => (s.retire n).modCpu n fun c => { c with wdStart := s.blk.now }

/-! ### Control registers (R437) -/

/-- A control register may be read or written at a privilege. -/
def crAdmits (cr : Nat) (p : Priv) (write : Bool) : Bool :=
  match cr with
  | 0 | 5 => true
  | 1 | 2 => !write
  | 3 | 4 | 8 | 9 | 10 | 11 | 12 => p != .a
  | 6 | 7 | 13 | 14 | 15 => false
  | _ => p == .m

/-- ESTATUS: EPRIV in bits 1 and 0, EXL in bit 2, EF in bits 15 to 8. -/
def Cpu.estatus (c : Cpu) : Word :=
  c.epriv.setWidth 64 ||| (bitOf 64 c.exl <<< 2) ||| (c.ef.setWidth 64 <<< 8)

/-- What a control register reads. -/
def Block.crRead (b : Block) (n : Nat) (cr : Nat) : Word :=
  let c := b.cpu n
  match cr with
  | 0 => c.flags.word.setWidth 64
  | 1 => BitVec.ofNat 64 n
  | 2 => b.tb n
  | 3 => c.eventSrc.setWidth 64
  | 4 => c.evmask.setWidth 64
  | 5 => c.dcv.setWidth 64
  | 8 => c.epc
  | 9 => c.ecause
  | 10 => c.eaddr
  | 11 => c.estatus
  | 12 => c.xvec
  | _ => c.monitor.getD (cr - 16) 0

/-- A control register written (R437, R438, R453): EVENT_SRC by write 1 to clear, XVEC aligned to 0x400. -/
def Cpu.crWrite (c : Cpu) (n cr : Nat) (v : Word) : Cpu :=
  match cr with
  | 0 => { c with flags := c.flags.write v }
  | 3 => { c with eventSrc := c.eventSrc &&& ~~~(v.setWidth 32) }
  | 4 => { c with evmask := v.setWidth 32 }
  | 5 => { c with dcv := v.setWidth 17 }
  | 8 => { c with epc := v }
  | 9 => { c with ecause := v }
  | 10 => { c with eaddr := v }
  | 11 => { c with epriv := eprivOf n (v.setWidth 2), exl := v.getLsbD 2, ef := (v >>> 8).setWidth 8 }
  | 12 => { c with xvec := v &&& ~~~(0x3FF#64) }
  | _ => { c with monitor := c.monitor.set (cr - 16) v }

/-- An access to a control register that the table does not allow: PRIV at A, ILLEGAL at F and M (R437). -/
def State.crRefused (s : State) (n : Eng) (o : Op) : State :=
  s.raiseWord n (if s.priv n = .a then .priv else .illegal) o

/-- CRD: a control register into rd. -/
def execCrd (n : Eng) (rd : GReg) (cr : Fin 32) (s : State) : Host.Outcome State Fault Refusal :=
  s.instr n fun s =>
    if crAdmits cr (s.priv n) false then s.move n rd (s.blk.crRead n cr) else s.crRefused n (.crd rd cr)

/-- CWR: ra into a control register. -/
def execCwr (n : Eng) (cr : Fin 32) (ra : GReg) (s : State) : Host.Outcome State Fault Refusal :=
  s.instr n fun s =>
    if crAdmits cr (s.priv n) true then (s.modCpu n fun c => c.crWrite n cr (s.reg n ra)).retire n
    else s.crRefused n (.cwr cr ra)

/-! ### Events (R453, R454) -/

/-- An instruction of the E profile; reserved where the profile is disabled (R442). -/
def State.eProfile (s : State) (n : Eng) (o : Op) (f : State → State) : State :=
  if s.blk.profile n 0 then f s else s.reserved n o

/-- WFE: clears E and goes on, or waits for it. -/
def execWfe (n : Eng) (s : State) : Host.Outcome State Fault Refusal :=
  s.instr n fun s => s.eProfile n .wfe fun s =>
    if (s.blk.cpu n).flags.e then (s.setFlags n { (s.blk.cpu n).flags with e := false }).retire n
    else s.modCpu n fun c => { c with run := .wfe }

/-- SEV: this engine's bit of EVENT_SRC in every engine named in ra; at A, PRIV for one outside SEV_ALLOW (R438). -/
def execSev (n : Eng) (ra : GReg) (s : State) : Host.Outcome State Fault Refusal :=
  s.instr n fun s => s.eProfile n (.sev ra) fun s =>
    let mask := (s.reg n ra).toNat % 4096
    let allow := s.blk.get (Obj.engSevAllow.eng n)
    if s.priv n = .a && (List.range 12).any fun k => bitSet mask k && !bitSet allow k then s.raiseWord n .priv (.sev ra)
    else
      let t := s.retire n
      { t with blk := t.blk.eventAll mask n }

/-- WUNTIL: goes on once E is 1 or TB reaches the target, with C telling whether the target is reached; else it waits.
-/
def execWuntil (n : Eng) (ra : GReg) (s : State) : Host.Outcome State Fault Refusal :=
  s.instr n fun s => s.eProfile n (.wuntil ra) fun s =>
    let target := s.reg n ra
    let f := (s.blk.cpu n).flags
    let past := reached (s.blk.tb n) target
    if f.e || past then (s.setFlags n { f with c := past }).retire n
    else s.modCpu n fun c => { c with run := .wuntil target }

end Sys2Proof.Machine
end

