-- ==== Sys2Proof/Machine/DayCycle.lean ====
section
/-!
DEFINITION. The commands of modes and the lighting day cycle (R86 to R105, R498).
-/

namespace Sys2Proof.Machine

/-- A port requests a mode (R87). -/
def State.requestVia (s : State) (p : Port) (v : Nat) : State := s.setOne p Obj.modeRequest v

/-- MODE_REQUEST_HIBERNATE: a write of 1 (R87). -/
def execModeRequestHibernate (t : Nat) (p : Port) (s : State) : Host.Outcome State Fault Refusal :=
  s.atAll t fun x => x.requestVia p 1

/-- MODE_REQUEST_DAY_WATCH: a write of 2 (R87). -/
def execModeRequestDayWatch (t : Nat) (p : Port) (s : State) : Host.Outcome State Fault Refusal :=
  s.atAll t fun x => x.requestVia p 2

/-- MODE_REQUEST_FIELD_ONLY: a write of 3 (R87). -/
def execModeRequestFieldOnly (t : Nat) (p : Port) (s : State) : Host.Outcome State Fault Refusal :=
  s.atAll t fun x => x.requestVia p 3

/-- MODE_REQUEST_RELAY: a write of 4 (R87). -/
def execModeRequestRelay (t : Nat) (p : Port) (s : State) : Host.Outcome State Fault Refusal :=
  s.atAll t fun x => x.requestVia p 4

/-- MODE_REQUEST_FULL_SERVICE: a write of 5 (R87). -/
def execModeRequestFullService (t : Nat) (p : Port) (s : State) : Host.Outcome State Fault Refusal :=
  s.atAll t fun x => x.requestVia p 5

/-- MODE_REQUEST_DEGRADED: a write of 6 (R87). -/
def execModeRequestDegraded (t : Nat) (p : Port) (s : State) : Host.Outcome State Fault Refusal :=
  s.atAll t fun x => x.requestVia p 6

/-- DAWN_DRAIN_START: the drain start time of the schedule (R95, R96). -/
def execDawnDrainStart (t : Nat) (s : State) : Host.Outcome State Fault Refusal := s.at t Block.dawnDrain

/-- DRAIN_ACCEPTANCE_CLOSE: ANNOUNCE_TIME after the drain start (R96, R97). -/
def execDrainAcceptanceClose (t : Nat) (s : State) : Host.Outcome State Fault Refusal := s.at t Block.drainClose

/-- DRAIN_GUARD_DEADLINE: DRAIN_GUARD before T (R96). -/
def execDrainGuardDeadline (t : Nat) (s : State) : Host.Outcome State Fault Refusal := s.at t Block.drainGuard

/-- DRAIN_COMPLETE: no accepted work is held (R96). -/
def execDrainComplete (t : Nat) (s : State) : Host.Outcome State Fault Refusal := s.at t Block.drainDone

/-- DUSK_ALARM (R95, R101). -/
def execDuskAlarm (t : Nat) (s : State) : Host.Outcome State Fault Refusal := s.furnace t Block.duskAlarm

/-- WAKE_ALARM_DELAY_EXPIRY (R101). -/
def execWakeAlarmDelayExpiry (t : Nat) (s : State) : Host.Outcome State Fault Refusal := s.furnace t Block.wakeAlarm

/-- WAKE_EVENT: a wake source, by its bit of WAKE_ENABLE, with the levels of the GPIO pins (R101, R102). -/
def execWakeEvent (t source gpio : Nat) (s : State) : Host.Outcome State Fault Refusal :=
  s.furnace t fun b => b.wakeEvent source gpio

/-- RAILS_GOOD: the PMIC reports rails good; `vioB33` tells the level of VIO_B (R498, R519). -/
def execRailsGood (t : Nat) (vioB33 : Bool) (s : State) : Host.Outcome State Fault Refusal :=
  s.furnace t fun b => b.railsGood vioB33

/-- RAIL_TIMEOUT_EXPIRY (R498). -/
def execRailTimeoutExpiry (t : Nat) (s : State) : Host.Outcome State Fault Refusal := s.furnace t Block.railTimeout

end Sys2Proof.Machine
end

