-- ==== Sys2Proof/Machine/FieldCmds.lean ====
section
/-!
DEFINITION. The commands of the lamp, the detectors, the field bus, the alarms and the cullet log (R356 to R380, R402 to
R408).
-/

namespace Sys2Proof.Machine

/-! ### Lamp and relays -/

/-- DIM_LEVEL_WRITE: a port writes the level of a dimming output (R358). -/
def execDimLevelWrite (t : Nat) (p : Port) (out : Fin 2) (value : Nat) (s : State) : Host.Outcome State Fault Refusal :=
  s.atAll t fun x => x.setOne p (if out = 0 then Obj.dim0Level else Obj.dim1Level) value

/-- ZX_EDGE (R360). -/
def execZxEdge (t : Nat) (rising : Bool) (s : State) : Host.Outcome State Fault Refusal := s.at t fun b => b.zxEdge rising

/-- ZX_TIMEOUT_EXPIRY (R360). -/
def execZxTimeoutExpiry (t : Nat) (s : State) : Host.Outcome State Fault Refusal := s.at t Block.zxTimeout

/-- RELAY_COMMAND_WRITE: a port writes COMMAND of a relay (R361). -/
def execRelayCommandWrite (t : Nat) (p : Port) (r : Fin 2) (value : Nat) (s : State) :
    Host.Outcome State Fault Refusal :=
  s.atAll t fun x => x.setObj p Obj.relayCommand r.val value

/-- RELAY_SWITCH (R361, R362). -/
def execRelaySwitch (t : Nat) (r : Fin 2) (s : State) : Host.Outcome State Fault Refusal :=
  s.at t fun b => b.relaySwitch r.val

/-! ### DALI -/

/-- DALI_SUBMIT: a port writes STATE of a DALI row (R364). -/
def execDaliSubmit (t : Nat) (p : Port) (row value : Nat) (s : State) : Host.Outcome State Fault Refusal :=
  s.atAll t fun x => x.setObj p Obj.daliState row value

/-- DALI_ROW_START (R364). -/
def execDaliRowStart (t : Nat) (s : State) : Host.Outcome State Fault Refusal := s.at t Block.daliStart

/-- DALI_ROW_END (R364). -/
def execDaliRowEnd (t : Nat) (e : DaliEnd) (s : State) : Host.Outcome State Fault Refusal := s.at t fun b => b.daliEnd e

/-- DALI_COLLISION (R365). -/
def execDaliCollision (t : Nat) (s : State) : Host.Outcome State Fault Refusal := s.at t Block.daliCollision

/-- DALI_BUS_DOWN (R366). -/
def execDaliBusDown (t : Nat) (s : State) : Host.Outcome State Fault Refusal := s.at t Block.daliDown

/-- DALI_BUS_UP (R366). -/
def execDaliBusUp (t : Nat) (s : State) : Host.Outcome State Fault Refusal := s.at t Block.daliUp

/-- DALI_POLL: the reply of each polled short address, or none (R367). -/
def execDaliPoll (t : Nat) (replies : List (Nat × Option Nat)) (s : State) : Host.Outcome State Fault Refusal :=
  s.at t fun b => b.daliPoll replies

/-! ### Detectors -/

/-- DETECTOR_EDGE (R368, R369). -/
def execDetectorEdge (t : Nat) (d : Fin 8) (level : Bool) (s : State) : Host.Outcome State Fault Refusal :=
  s.at t fun b => b.detectorEdge d.val level

/-- MAX_TRAVEL_EXPIRY (R369). -/
def execMaxTravelExpiry (t : Nat) (lane : Fin 8) (s : State) : Host.Outcome State Fault Refusal :=
  s.at t fun b => b.maxTravel lane.val

/-- STUCK_TIME_EXPIRY (R368). -/
def execStuckTimeExpiry (t : Nat) (d : Fin 8) (s : State) : Host.Outcome State Fault Refusal :=
  s.at t fun b => b.stuckTime d.val

/-- INTERVAL_BOUNDARY (R370). -/
def execIntervalBoundary (t : Nat) (s : State) : Host.Outcome State Fault Refusal := s.at t Block.intervalBoundary

/-- RECORD_HOLD_EXPIRY (R370). -/
def execRecordHoldExpiry (t : Nat) (s : State) : Host.Outcome State Fault Refusal := s.at t Block.recordHold

/-! ### The auxiliary ADC -/

/-- ADC_SCAN_END: the thirteen values of a scan (R371, R372). -/
def execAdcScanEnd (t : Nat) (raw : List Nat) (s : State) : Host.Outcome State Fault Refusal :=
  s.at t fun b => b.adcScanEnd raw

/-- ADC_PERSIST_EXPIRY: a channel has stayed above or below its limit (R372). -/
def execAdcPersistExpiry (t : Nat) (ch : Fin 13) (high : Bool) (s : State) : Host.Outcome State Fault Refusal :=
  s.at t fun b => b.adcPersistEnd ch.val high

/-- CYCLE_WINDOW_EXPIRY (R373). -/
def execCycleWindowExpiry (t : Nat) (s : State) : Host.Outcome State Fault Refusal := s.at t Block.cycleEnd

/-! ### CAN FD -/

/-- A received CAN frame, of at most 8 octets while FD_ENABLE is 0, is activity (R92, R380); it is a Plais segment, or
goes to FE's firmware with the first filter that it matches, or is dropped (R76, R375). -/
def State.canReceived (s : State) (ident : Nat) (ide : Bool) (data : List Octet) : State :=
  let b := s.blk
  if !b.feRuns || 2 ≤ b.get Obj.busState || (!b.is Obj.fdEnable && decide (8 < data.length)) then s
  else
    let s1 : State := { s with blk := b.active }
    if b.canIsPlais ident ide then s1.canSegment ident data
    else
      match b.canFilter ident ide with
      | some f => { s1 with blk := s1.blk.emit (.canIn f ident data) }
      | none => s1

/-- CAN_FRAME_RECEIVED (R375). -/
def execCanFrameReceived (t ident : Nat) (ide : Bool) (data : List Octet) (s : State) :
    Host.Outcome State Fault Refusal :=
  s.atAll t fun x => x.canReceived ident ide data

/-- CAN_BUS_OFF (R374). -/
def execCanBusOff (t : Nat) (s : State) : Host.Outcome State Fault Refusal := s.at t Block.canBusOff

/-- BUS_OFF_RECOVERY (R374). -/
def execBusOffRecovery (t : Nat) (s : State) : Host.Outcome State Fault Refusal := s.at t Block.canRecover

/-! ### Alarms -/

/-- ALARM_CLEAR: a port writes 1 to CLEAR of an alarm row (R376). -/
def execAlarmClear (t : Nat) (p : Port) (row : Nat) (s : State) : Host.Outcome State Fault Refusal :=
  s.atAll t fun x => x.setObj p Obj.alarmClear row 1

/-- ALARM_RAISE_WRITE: a port writes RAISE of an alarm row (R376). -/
def execAlarmRaiseWrite (t : Nat) (p : Port) (row value : Nat) (s : State) : Host.Outcome State Fault Refusal :=
  s.atAll t fun x => x.setObj p Obj.alarmRaise row value

/-! ### The cullet log -/

/-- CULLET_RECORD_WRITE (R405, R406). -/
def execCulletRecordWrite (t : Nat) (s : State) : Host.Outcome State Fault Refusal := s.furnace t Block.recordWrite

/-- CULLET_CRC_WRITTEN (R405). -/
def execCulletCrcWritten (t : Nat) (s : State) : Host.Outcome State Fault Refusal := s.furnace t Block.crcWritten

end Sys2Proof.Machine
end

