-- ==== Sys2Proof/Machine/DictCmds.lean ====
section
/-!
DEFINITION. The commands of the dictionary and of Plais (R44 to R81).
-/

namespace Sys2Proof.Machine

/-- DICT_WRITE: one write by a port, of `len` octets (R44, R57); a row of 0xFFFF_FFFF is the port's cursor. -/
def execDictWrite (t : Nat) (p : Port) (index sub row len value : Nat) (s : State) :
    Host.Outcome State Fault Refusal :=
  s.atAll t fun x => x.portWrite p index sub row len value .plain

/-- A store of an engine to the dictionary window, as an event of the window: the store or its bus error (R52, R53). -/
def State.storeEvent (s : State) (n : Eng) (addr width value : Nat) : State :=
  if !inWindow addr || width = 0 || (s.blk.cpu n).run ≠ .running then s
  else
    match s.storeFault n addr width with
    | some e => s.storeRaise n addr e
    | none => s.storeDo n addr width value

/-- WINDOW_STORE (R53). -/
def execWindowStore (t : Nat) (n : Eng) (addr width value : Nat) (s : State) : Host.Outcome State Fault Refusal :=
  s.atAll t fun x => x.storeEvent n addr width value

/-- PLAIS_REQUEST: a message taken whole at a port, with its source where it came over UDP (R62, R63, R72). -/
def execPlaisRequest (t : Nat) (p : Port) (addr port : Nat) (msg : List Octet) (s : State) : Host.Outcome State Fault Refusal :=
  s.atAll t fun x => x.plaisRequest p addr port msg

/-- UDP_DATAGRAM_RECEIVED (R69, R72). -/
def execUdpDatagramReceived (t addr port : Nat) (msg : List Octet) (s : State) : Host.Outcome State Fault Refusal :=
  s.atAll t fun x => x.udpDatagram addr port msg

/-- CONSOLE_FRAME_RECEIVED (R74). -/
def execConsoleFrameReceived (t : Nat) (frame : List Octet) (s : State) : Host.Outcome State Fault Refusal :=
  s.atAll t fun x => x.consoleIn frame

/-- CAN_SEGMENT_RECEIVED: a received frame with a 29-bit identifier of the Plais layout (R75, R76). -/
def execCanSegmentReceived (t ident : Nat) (data : List Octet) (s : State) : Host.Outcome State Fault Refusal :=
  s.atAll t fun x => x.canReceived ident true data

/-- CAN_MESSAGE_TIMEOUT (R76). -/
def execCanMessageTimeout (t src tidLo : Nat) (s : State) : Host.Outcome State Fault Refusal :=
  s.at t fun b => b.canTimeout src tidLo

/-- RESP_CACHE_EXPIRY (R66). -/
def execRespCacheExpiry (t : Nat) (p : Port) (tid : Nat) (s : State) : Host.Outcome State Fault Refusal :=
  s.at t fun b => b.cacheExpiry p tid

/-- NOTICE_RETRY_EXPIRY (R78). -/
def execNoticeRetryExpiry (t : Nat) (p : Port) (s : State) : Host.Outcome State Fault Refusal :=
  s.at t fun b =>
    match portDest p with
    | some d => b.noticeRetry d
    | none => b

/-- NOTICE_ACK_RECEIVED (R78). -/
def execNoticeAckReceived (t : Nat) (p : Port) (seq : Nat) (s : State) : Host.Outcome State Fault Refusal :=
  s.at t fun b =>
    match portDest p with
    | some d => b.noticeAck d seq
    | none => b

/-- DEFAULTS_RESTORE: a port writes it (R49). -/
def execDefaultsRestore (t : Nat) (p : Port) (value : Nat) (s : State) : Host.Outcome State Fault Refusal :=
  s.atAll t fun x => x.setOne p Obj.defaultsRestore value

/-- CUSTOMER_DECLARE: a port writes a field of a CUSTOMER_DEF row (R81). -/
def execCustomerDeclare (t : Nat) (p : Port) (row sub len value : Nat) (s : State) : Host.Outcome State Fault Refusal :=
  s.atAll t fun x => x.portWrite p 0x1022 sub row len value .plain

end Sys2Proof.Machine
end

