-- ==== Sys2Proof/Machine/Identity.lean ====
section
/-!
DEFINITION. The commands of presence, the seal, keys, debug and bindings (R381 to R401).
-/

namespace Sys2Proof.Machine

/-- MAINT_N_FITTED (R88, R385). -/
def execMaintNFitted (t : Nat) (s : State) : Host.Outcome State Fault Refusal :=
  s.furnace t fun b => b.maintChange true

/-- MAINT_N_REMOVED (R88, R385). -/
def execMaintNRemoved (t : Nat) (s : State) : Host.Outcome State Fault Refusal :=
  s.furnace t fun b => b.maintChange false

/-- PRESENCE_PRESS: PRESENCE_N has been low for 0.5 s (R381). -/
def execPresencePress (t : Nat) (s : State) : Host.Outcome State Fault Refusal :=
  s.furnace t Block.presencePress

/-- PRESENCE_LONG_HOLD: PRESENCE_N has been low for 10 s (R382). -/
def execPresenceLongHold (t : Nat) (s : State) : Host.Outcome State Fault Refusal :=
  s.furnace t Block.presenceHold

/-- PRESENCE_WINDOW_EXPIRY (R382). -/
def execPresenceWindowExpiry (t : Nat) (s : State) : Host.Outcome State Fault Refusal :=
  s.furnace t Block.windowExpiry

/-- PRESENCE_N_EDGE: the level of PRESENCE_N after its filter (R381, R382). -/
def execPresenceNEdge (t : Nat) (low : Bool) (s : State) : Host.Outcome State Fault Refusal :=
  s.furnace t fun b => b.presenceEdge low

/-- PRESENCE_CLOSE: a port writes 1 (R382). -/
def execPresenceClose (t : Nat) (p : Port) (s : State) : Host.Outcome State Fault Refusal :=
  s.atAll t fun x => x.setOne p Obj.presenceClose 1

/-- SEAL_CHECK: the word sent on SEAL_DRV and the samples of SEAL_SNS (R388). -/
def execSealCheck (t : Nat) (word : BitVec 16) (samples : List Bool) (s : State) : Host.Outcome State Fault Refusal :=
  s.furnace t fun b => b.sealCheck word samples

/-- SEAL_CONFIRM_CHECK (R389). -/
def execSealConfirmCheck (t : Nat) (word : BitVec 16) (samples : List Bool) (s : State) :
    Host.Outcome State Fault Refusal :=
  s.furnace t fun b => b.sealConfirm word samples

/-- SEAL_ENABLE_WRITE: a port writes SEAL_ENABLE, SEAL_PERIOD or SEAL_CODING, by its subindex of 0x1101 (R387). -/
def execSealEnableWrite (t : Nat) (p : Port) (sub value : Nat) (s : State) : Host.Outcome State Fault Refusal :=
  s.atAll t fun x => x.set p 0x1101 sub noRow value

/-- SEAL_CLEAR: a port writes 1 (R389). -/
def execSealClear (t : Nat) (p : Port) (s : State) : Host.Outcome State Fault Refusal :=
  s.atAll t fun x => x.setOne p Obj.sealClear 1

/-- KEY_HASH_PROGRAM: a port writes KEY_HASH of a slot; `readBackOk` tells whether the fuses read back right (R395). -/
def execKeyHashProgram (t : Nat) (p : Port) (slot value : Nat) (readBackOk : Bool) (s : State) :
    Host.Outcome State Fault Refusal :=
  s.atAll t fun x => x.portWrite p Obj.slotKeyHash.idx Obj.slotKeyHash.sub slot Obj.slotKeyHash.size value
    (.keyHash readBackOk)

/-- REVOKE: a port writes 1 to REVOKE of a slot (R396). -/
def execRevoke (t : Nat) (p : Port) (slot : Nat) (s : State) : Host.Outcome State Fault Refusal :=
  s.atAll t fun x => x.setObj p Obj.slotRevoke slot 1

/-- ROLLBACK_SET: a port writes a value (R397). -/
def execRollbackSet (t : Nat) (p : Port) (value : Nat) (s : State) : Host.Outcome State Fault Refusal :=
  s.atAll t fun x => x.setOne p Obj.rollbackSet value

/-- DEBUG_UNLOCK: a port writes 1 (R398). -/
def execDebugUnlock (t : Nat) (p : Port) (s : State) : Host.Outcome State Fault Refusal :=
  s.atAll t fun x => x.setOne p Obj.debugUnlock 1

/-- DEBUG_LOCK: a port writes 1 (R398). -/
def execDebugLock (t : Nat) (p : Port) (s : State) : Host.Outcome State Fault Refusal :=
  s.atAll t fun x => x.setOne p Obj.debugLock 1

/-- DEBUG_DISABLE: a port writes 1 (R398). -/
def execDebugDisable (t : Nat) (p : Port) (s : State) : Host.Outcome State Fault Refusal :=
  s.atAll t fun x => x.setOne p Obj.debugDisable 1

/-- BINDING_WRITE: a port writes an identity binding, by its subindex of 0x1008 (R393). -/
def execBindingWrite (t : Nat) (p : Port) (sub value : Nat) (s : State) : Host.Outcome State Fault Refusal :=
  s.atAll t fun x => x.set p 0x1008 sub noRow value

end Sys2Proof.Machine
end

