-- ==== Sys2Proof/Machine/Links.lean ====
section
/-!
DEFINITION. The commands of cane links and of the cipher engine (R229 to R250, R299 to R316).
-/

namespace Sys2Proof.Machine

/-! ### Cane links -/

/-- A control frame of a link's peer is received on a strand: the strand is configured and its radio on (R229, R238). -/
def Block.hearsLink (b : Block) (k : Nat) (x : Radio) : Bool := k < 32 && b.strandOn k x && b.radioOn x

/-- A control frame received on a strand: its header is read, and what it says is done (R234). A PROBE is answered on
the strand by its acknowledgement, which leaves as TYPE 4 of no cane frame. -/
def Block.caneHeard (b : Block) (k : Nat) (x : Radio) (header : List Octet) : Block :=
  if !b.hearsLink k x then b
  else
    let b1 := (b.strandHears k x b.now).caneControl k (caneRead header)
    match caneRead header with
    | .probe .. => b1.emit (.cane k x 4 7 (b.peerAddr k x) [])
    | _ => b1

/-- CANE_ACK_RECEIVED (R236, R243). -/
def execCaneAckReceived (t link : Nat) (strand : Radio) (header : List Octet) (s : State) :
    Host.Outcome State Fault Refusal :=
  s.at t fun b => b.caneHeard link strand header

/-- CANE_NACK_RECEIVED (R237, R245). -/
def execCaneNackReceived (t link : Nat) (strand : Radio) (header : List Octet) (s : State) :
    Host.Outcome State Fault Refusal :=
  s.at t fun b => b.caneHeard link strand header

/-- CANE_PROBE_RECEIVED (R237, R240). -/
def execCaneProbeReceived (t link : Nat) (strand : Radio) (header : List Octet) (s : State) :
    Host.Outcome State Fault Refusal :=
  s.at t fun b => b.caneHeard link strand header

/-- ACK_DELAY_EXPIRY (R243). -/
def execAckDelayExpiry (t link : Nat) (s : State) : Host.Outcome State Fault Refusal := s.at t fun b => b.ackDelayEnd link

/-- HOLD_TIME_EXPIRY (R244). -/
def execHoldTimeExpiry (t link stream : Nat) (s : State) : Host.Outcome State Fault Refusal :=
  s.at t fun b => b.holdExpiry link stream

/-- A frame that no ACK has covered RESEND_TIME after its last transmission is sent again (R245). -/
def Block.resendEnd (b : Block) (fid : Nat) : Block :=
  match b.frame? fid with
  | none => b
  | some f =>
    if 4352 ≤ f.queue && decide (f.queue < 4608) && f.air && !f.resend && f.cseq.isSome &&
        decide (f.lastTx + ms (b.get Obj.caneResendTime ((f.queue - 4352) / 8)) ≤ b.now) then
      b.resend ((f.queue - 4352) / 8) fid
    else b

/-- RESEND_TIME_EXPIRY (R245). -/
def execResendTimeExpiry (t fid : Nat) (s : State) : Host.Outcome State Fault Refusal := s.at t fun b => b.resendEnd fid

/-- The end of STRAND_DEAD_TIME of a strand (R248, R260): since the peer was last heard, and since something has been
outstanding. -/
def Block.deadTime (b : Block) (k : Nat) (x : Radio) : Nat :=
  let s := b.strandOf k x
  max s.heardAt (s.owedAt.getD b.now) + ms (b.get (if x == .l then Obj.strandDeadTimeL else Obj.strandDeadTimeHm))

/-- Nothing has been heard on a strand that is up for STRAND_DEAD_TIME while a frame or a probe to the peer is
outstanding; a reception that started no later may be the peer's (R248). -/
def Block.strandSilent (b : Block) (k : Nat) (x : Radio) : Block :=
  let end_ := b.deadTime k x
  if k < 32 && b.strandState k x == 2 && b.strandOwed k x && decide (end_ ≤ b.now) && !b.hearing x end_ then b.failStrand k x 2
  else b

/-- STRAND_DEAD_TIME_EXPIRY (R248). -/
def execStrandDeadTimeExpiry (t link : Nat) (strand : Radio) (s : State) : Host.Outcome State Fault Refusal :=
  s.at t fun b => b.strandSilent link strand

/-- PROBE_INTERVAL_EXPIRY: a PROBE is to be sent (R248). -/
def execProbeIntervalExpiry (t link : Nat) (strand : Radio) (s : State) : Host.Outcome State Fault Refusal :=
  s.at t fun b => if b.hearsLink link strand then b.probeExpiry link strand else b

/-- DELETE: a port writes 1 to DELETE of a link (R250). -/
def execDelete (t : Nat) (p : Port) (row : Nat) (s : State) : Host.Outcome State Fault Refusal :=
  s.atAll t fun x => x.setObj p Obj.caneDelete row 1

/-! ### Keys -/

/-- REKEY: a port writes 1 to REKEY of a context (R313). -/
def execRekey (t : Nat) (p : Port) (row : Nat) (s : State) : Host.Outcome State Fault Refusal :=
  s.atAll t fun x => x.setObj p Obj.ctxRekey row 1

/-- KEY_WRITE: a port writes KEY of a context (R302). -/
def execKeyWrite (t : Nat) (p : Port) (row value : Nat) (s : State) : Host.Outcome State Fault Refusal :=
  s.atAll t fun x => x.setObj p Obj.ctxKey row value

/-- ERASE: a port writes 1 to ERASE of a context (R302). -/
def execErase (t : Nat) (p : Port) (row : Nat) (s : State) : Host.Outcome State Fault Refusal :=
  s.atAll t fun x => x.setObj p Obj.ctxErase row 1

/-- RETIRING_KEY_CLEAR (R314). -/
def execRetiringKeyClear (t row : Nat) (s : State) : Host.Outcome State Fault Refusal :=
  s.at t fun b => b.retireClear row

/-! ### Jobs (R315, R316) -/

/-- JOB_RUN: an engine's port writes 1 to RUN (R316). -/
def execJobRun (t : Nat) (p : Port) (s : State) : Host.Outcome State Fault Refusal :=
  s.atAll t fun x => x.setOne p Obj.jobRun 1

/-- Octets that a job reads with its engine's rights at F. An address that is not mapped reads as 0 (R31); what the
rights do not reach reads as free values (log entry 148). -/
def State.jobRead (s : State) (n : Eng) (a : Nat) : Nat → List Octet × State
  | 0 => ([], s)
  | k + 1 =>
    let d : List Octet × State :=
      match s.blk.placeOf n .f .load a 1 with
      | .ok p => s.readPlace p a 1
      | .error .unmapped => ([0#8], s)
      | .error _ => s.readPlace .open_ a 1
    let e := State.jobRead d.2 n (a + 1) k
    (d.1 ++ e.1, e.2)

/-- Octets that a job writes with its engine's rights at F. -/
def State.jobWrite (s : State) (n : Eng) (a : Nat) (l : List Octet) : State :=
  (l.zipIdx).foldl (fun (t : State) x =>
    match t.blk.placeOf n .f .store (a + x.2) 1 with
    | .ok p => t.writePlace p (a + x.2) [x.1]
    | .error _ => t) s

/-- A job ends: JOB_STATUS takes its result. -/
def Block.jobEnds (b : Block) (n : Eng) (status : Nat) : Block :=
  { b with jobs := b.jobs.filter fun j => j.engine != n.val }.put Obj.jobJobStatus status (portLoc (.engine n))

/-- JOB_DONE: the text is sealed or opened, and the output written; where the MIC fails nothing is written (R315). -/
def State.jobDone (s : State) (n : Eng) : State :=
  match s.blk.jobs.find? fun j => j.engine == n.val with
  | none => s
  | some j =>
    let fld := octFieldLE j.job 32
    let row := fld 0 2
    let alg := s.blk.get Obj.ctxAlg row
    let nonce := s.blk.plaisNonce row j.counter
    let out := fld 18 5
    let sealing := fld 2 1 == 0
    let d := s.jobRead n (fld 4 5) (fld 9 2)
    let e := d.2.jobRead n (fld 11 5) (fld 16 2 + if sealing then 0 else 16)
    if sealing then
      let u := e.2.jobWrite n out ((Config.cipherSeal alg j.key nonce d.1 e.1 16).take (fld 16 2 + 16))
      { u with blk := u.blk.jobEnds n 0 }
    else
      match Config.cipherOpen alg j.key nonce d.1 e.1 16 with
      | some text =>
        let u := e.2.jobWrite n out (text.take (fld 16 2))
        { u with blk := u.blk.jobEnds n 0 }
      | none => { e.2 with blk := e.2.blk.jobEnds n 6 }

/-- JOB_DONE (R316). -/
def execJobDone (t : Nat) (n : Eng) (s : State) : Host.Outcome State Fault Refusal := s.atAll t fun x => x.jobDone n

end Sys2Proof.Machine
end

