-- ==== Sys2Proof/Machine/LoadStore.lean ====
section
/-!
DEFINITION. Loads, stores, atomics and fences (R441, R448 to R452). One core at a time executes its instructions in
order, so the fences and the acquire and release forms have only the accesses to order that wait for the commit point.
-/

namespace Sys2Proof.Machine

/-- A loaded number zero-extended. -/
def zeroExt (v : Nat) : Word := BitVec.ofNat 64 v

/-- A loaded number sign-extended from 32, 16 or 8 bits. -/
def signExt (w v : Nat) : Word := (BitVec.ofNat w v).signExtend 64

/-- LD64. -/
def execLd64 (n : Eng) (rd ra : GReg) (imm : BitVec 16) (s : State) : Host.Outcome State Fault Refusal :=
  s.instr n fun s => s.loadTo n rd (s.memAddr n ra imm) 8 zeroExt

/-- LD32U. -/
def execLd32u (n : Eng) (rd ra : GReg) (imm : BitVec 16) (s : State) : Host.Outcome State Fault Refusal :=
  s.instr n fun s => s.loadTo n rd (s.memAddr n ra imm) 4 zeroExt

/-- LD32S. -/
def execLd32s (n : Eng) (rd ra : GReg) (imm : BitVec 16) (s : State) : Host.Outcome State Fault Refusal :=
  s.instr n fun s => s.loadTo n rd (s.memAddr n ra imm) 4 (signExt 32)

/-- LD16U. -/
def execLd16u (n : Eng) (rd ra : GReg) (imm : BitVec 16) (s : State) : Host.Outcome State Fault Refusal :=
  s.instr n fun s => s.loadTo n rd (s.memAddr n ra imm) 2 zeroExt

/-- LD16S. -/
def execLd16s (n : Eng) (rd ra : GReg) (imm : BitVec 16) (s : State) : Host.Outcome State Fault Refusal :=
  s.instr n fun s => s.loadTo n rd (s.memAddr n ra imm) 2 (signExt 16)

/-- LD8U. -/
def execLd8u (n : Eng) (rd ra : GReg) (imm : BitVec 16) (s : State) : Host.Outcome State Fault Refusal :=
  s.instr n fun s => s.loadTo n rd (s.memAddr n ra imm) 1 zeroExt

/-- LD8S. -/
def execLd8s (n : Eng) (rd ra : GReg) (imm : BitVec 16) (s : State) : Host.Outcome State Fault Refusal :=
  s.instr n fun s => s.loadTo n rd (s.memAddr n ra imm) 1 (signExt 8)

/-- LDACQ: a 64-bit load performed before every later access (R450). -/
def execLdacq (n : Eng) (rd ra : GReg) (imm : BitVec 16) (s : State) : Host.Outcome State Fault Refusal :=
  s.instr n fun s => s.loadTo n rd (s.memAddr n ra imm) 8 zeroExt

/-- ST64. -/
def execSt64 (n : Eng) (rd ra : GReg) (imm : BitVec 16) (s : State) : Host.Outcome State Fault Refusal :=
  s.instr n fun s => s.storeFrom n rd (s.memAddr n ra imm) 8

/-- ST32. -/
def execSt32 (n : Eng) (rd ra : GReg) (imm : BitVec 16) (s : State) : Host.Outcome State Fault Refusal :=
  s.instr n fun s => s.storeFrom n rd (s.memAddr n ra imm) 4

/-- ST16. -/
def execSt16 (n : Eng) (rd ra : GReg) (imm : BitVec 16) (s : State) : Host.Outcome State Fault Refusal :=
  s.instr n fun s => s.storeFrom n rd (s.memAddr n ra imm) 2

/-- ST8. -/
def execSt8 (n : Eng) (rd ra : GReg) (imm : BitVec 16) (s : State) : Host.Outcome State Fault Refusal :=
  s.instr n fun s => s.storeFrom n rd (s.memAddr n ra imm) 1

/-- STREL: a 64-bit store performed after every earlier access, those through the window too (R450). -/
def execStrel (n : Eng) (rd ra : GReg) (imm : BitVec 16) (s : State) : Host.Outcome State Fault Refusal :=
  s.instr n fun s => s.ordered n fun s => s.storeFrom n rd (s.memAddr n ra imm) 8

/-- CAS: rb is written where [ra] equals rd. -/
def execCas (n : Eng) (rd ra rb : GReg) (s : State) : Host.Outcome State Fault Refusal :=
  s.instr n fun s => s.ordered n fun s => s.atomic n rd ra fun old => if old = s.reg n rd then some (s.reg n rb) else none

/-- AADD: rb is added to [ra]. -/
def execAadd (n : Eng) (rd ra rb : GReg) (s : State) : Host.Outcome State Fault Refusal :=
  s.instr n fun s => s.ordered n fun s => s.atomic n rd ra fun old => some (old + s.reg n rb)

/-- ASWAP: rb is written to [ra]. -/
def execAswap (n : Eng) (rd ra rb : GReg) (s : State) : Host.Outcome State Fault Refusal :=
  s.instr n fun s => s.ordered n fun s => s.atomic n rd ra fun _ => some (s.reg n rb)

/-- FENCE: every earlier window access is answered first (R449). -/
def execFence (n : Eng) (s : State) : Host.Outcome State Fault Refusal :=
  s.instr n fun s => s.ordered n fun s => s.retire n

/-- FENCE.S. -/
def execFenceS (n : Eng) (s : State) : Host.Outcome State Fault Refusal := s.instr n fun s => s.retire n

/-- FENCE.D: every earlier window access is acknowledged first (R449). -/
def execFenceD (n : Eng) (s : State) : Host.Outcome State Fault Refusal :=
  s.instr n fun s => s.ordered n fun s => s.retire n

end Sys2Proof.Machine
end

