-- ==== Sys2Proof/Machine/Medium.lean ====
section
/-!
DEFINITION. The commands of medium access, of stations and neighbours (R194 to R228).
-/

namespace Sys2Proof.Machine

/-! ### Access to the medium -/

/-- BACKOFF_SLOT (R195). -/
def execBackoffSlot (t : Nat) (r : Radio) (s : State) : Host.Outcome State Fault Refusal := s.at t fun b => b.backoffSlot r

/-- CCA_BUSY (R195). -/
def execCcaBusy (t : Nat) (r : Radio) (s : State) : Host.Outcome State Fault Refusal := s.at t fun b => b.ccaBusy r

/-- CSMA_CCA_END; `draw` is the draw of the next back-off (R198). -/
def execCsmaCcaEnd (t : Nat) (busy : Bool) (draw : Nat) (s : State) : Host.Outcome State Fault Refusal :=
  s.at t fun b => b.csmaEnd busy draw

/-- ACK_WAIT_EXPIRY (R199). -/
def execAckWaitExpiry (t : Nat) (s : State) : Host.Outcome State Fault Refusal := s.at t Block.ackWaitEnd

/-- LOWBAND_ACK_RECEIVED, with its Frame Pending bit (R199, R213). -/
def execLowbandAckReceived (t : Nat) (pending : Bool) (s : State) : Host.Outcome State Fault Refusal :=
  s.at t fun b => b.lowAck pending

/-- DUTY_BIN_BOUNDARY (R203). -/
def execDutyBinBoundary (t : Nat) (s : State) : Host.Outcome State Fault Refusal := s.at t Block.dutyBoundary

/-! ### Children and neighbours -/

/-- INDIRECT_ENQUEUE (R207). -/
def execIndirectEnqueue (t nbr : Nat) (s : State) : Host.Outcome State Fault Refusal :=
  s.at t fun b => b.indirectEnqueue nbr

/-- CHILD_POLL: the form of the poll's PPDU, its sequence number, and the length of its acknowledgement in µs (R176,
R208). -/
def execChildPoll (t nbr : Nat) (form : PpduForm) (seq ackAir : Nat) (s : State) : Host.Outcome State Fault Refusal :=
  s.at t fun b => b.childPoll nbr form seq ackAir

/-- CHILD_PERSIST_EXPIRY (R121). -/
def execChildPersistExpiry (t fid : Nat) (s : State) : Host.Outcome State Fault Refusal :=
  s.at t fun b => b.childPersist fid

/-- INACTIVITY_EXPIRY (R210). -/
def execInactivityExpiry (t : Nat) (who : Sender) (s : State) : Host.Outcome State Fault Refusal :=
  s.at t fun b => b.inactivity who

/-- GUARD_EXPIRY: `interval` is the time without contact in ticks (R211). -/
def execGuardExpiry (t nbr interval : Nat) (s : State) : Host.Outcome State Fault Refusal :=
  s.at t fun b => b.guardExpiry nbr interval

/-- LOST_PARTNER_LISTEN (R212). -/
def execLostPartnerListen (t nbr : Nat) (heard : Bool) (s : State) : Host.Outcome State Fault Refusal :=
  s.at t fun b => b.lostListen nbr heard

/-- SCAN_DWELL_END (R212). -/
def execScanDwellEnd (t nbr : Nat) (heard : Bool) (s : State) : Host.Outcome State Fault Refusal :=
  s.at t fun b => b.scanDwell nbr heard

/-- SCAN_INTERVAL_EXPIRY (R212). -/
def execScanIntervalExpiry (t nbr : Nat) (s : State) : Host.Outcome State Fault Refusal := s.at t fun b => b.scanAgain nbr

/-- DW_POLL: whether the parent's beacon was heard, its time correction in 2^-16 ns, the parent's channel in kHz and
the PPDU of the Data Request (R139, R213, R331). -/
def execDwPoll (t : Nat) (heard : Bool) (correction : Int) (freq : Nat) (request : Ppdu) (s : State) :
    Host.Outcome State Fault Refusal :=
  s.at t fun b => b.dwPoll heard correction freq request

/-- DW_TIME_VALID_EXPIRY (R331). -/
def execDwTimeValidExpiry (t : Nat) (s : State) : Host.Outcome State Fault Refusal := s.at t Block.dwValidEnd

/-- EB_SEND: the PPDU of the enhanced beacon (R222). -/
def execEbSend (t : Nat) (beacon : Ppdu) (s : State) : Host.Outcome State Fault Refusal := s.at t fun b => b.ebSend beacon

/-- REMOVE: a port writes 1 to REMOVE of a neighbour row (R223). -/
def execRemove (t : Nat) (p : Port) (row : Nat) (s : State) : Host.Outcome State Fault Refusal :=
  s.atAll t fun x => x.setObj p Obj.nbrRemove row 1

/-- NEIGHBOUR_ADMIT: a port writes ADDR of a neighbour row (R223). -/
def execNeighbourAdmit (t : Nat) (p : Port) (row addr : Nat) (s : State) : Host.Outcome State Fault Refusal :=
  s.atAll t fun x => x.setObj p Obj.nbrAddr row addr

/-! ### Stations -/

/-- ROUND_START (R214, R215). -/
def execRoundStart (t : Nat) (r : Radio) (s : State) : Host.Outcome State Fault Refusal := s.at t fun b => b.roundStart r

/-- ASSOC_REQUEST, with whether the station asks for U-APSD (R216, R217). -/
def execAssocRequest (t : Nat) (r : Radio) (bss addr : Nat) (uapsd : Bool) (s : State) : Host.Outcome State Fault Refusal :=
  s.at t fun b => b.assocRequest r bss addr uapsd

/-- DISASSOC_RECEIVED: the station departs (R121). -/
def execDisassocReceived (t row : Nat) (s : State) : Host.Outcome State Fault Refusal :=
  s.at t fun b => b.departStation row

/-- PROBE_REQUEST (R227). -/
def execProbeRequest (t : Nat) (r : Radio) (ssid len : Nat) (s : State) : Host.Outcome State Fault Refusal :=
  s.at t fun b => b.probeRequest r ssid len

/-- TWT_SETUP, for an individual agreement or a broadcast one (R218). -/
def execTwtSetup (t row sp : Nat) (broadcast : Bool) (s : State) : Host.Outcome State Fault Refusal :=
  s.at t fun b => b.twtSetup row sp broadcast

/-- TWT_LEAD_START (R218). -/
def execTwtLeadStart (t row : Nat) (s : State) : Host.Outcome State Fault Refusal := s.at t fun b => b.twtLeadStart row

/-- TWT_SP_START (R218). -/
def execTwtSpStart (t row : Nat) (attended : Bool) (s : State) : Host.Outcome State Fault Refusal :=
  s.at t fun b => b.twtSpStart row attended

/-- TBTT: the PPDU of the beacon (R227). -/
def execTbtt (t : Nat) (r : Radio) (bss : Nat) (beacon : Ppdu) (s : State) : Host.Outcome State Fault Refusal :=
  s.at t fun b => b.tbtt r bss beacon

/-- BSS_ENABLE_WRITE: a port writes ENABLE of a BSS row (R227). -/
def execBssEnableWrite (t : Nat) (p : Port) (r : Radio) (bss value : Nat) (s : State) :
    Host.Outcome State Fault Refusal :=
  s.atAll t fun x => x.setObj p (Obj.bssEnable.of r) bss value

/-- KICK: a port writes 1 to KICK of a station row (R223). -/
def execKick (t : Nat) (p : Port) (row : Nat) (s : State) : Host.Outcome State Fault Refusal :=
  s.atAll t fun x => x.setObj p Obj.staKick row 1

end Sys2Proof.Machine
end

