-- ==== Sys2Proof/Machine/Mould.lean ====
section
/-!
DEFINITION. Mould instructions (R459 to R463): the micro-operations of a row, run as one instruction.
-/

namespace Sys2Proof.Machine

/-- A mould instruction under way: the start values of rd, ra and rb, IMM9, the flags at its start, t0 to t7, the values
that rd, ra and rb take at its end, the flags and DCV at its end, the stores to perform, micro-operations still to skip,
and the machine, which only its loads change before the end. -/
structure MouldRun where
  st : State
  rd : Word
  ra : Word
  rb : Word
  imm9 : Word
  f0 : Flags
  t : List Word := List.replicate 8 0
  outs : List (Option Word) := [none, none, none]
  flags : Flags
  dcv : BitVec 17
  stores : List (Nat × Nat × Nat) := []
  skip : Nat := 0

/-- A source (R460). -/
def MouldRun.src (m : MouldRun) (code : Nat) (imm13 : BitVec 13) : Word :=
  match code with
  | 8 => m.rd
  | 9 => m.ra
  | 10 => m.rb
  | 11 => m.f0.word.setWidth 64
  | 12 => imm13.signExtend 64
  | 13 => 0
  | 14 => m.imm9
  | k => m.t.getD k 0

/-- A result at its destination: t0 to t7 at once, rd, ra and rb at the end, 13 nowhere. -/
def MouldRun.dst (m : MouldRun) (code : Nat) (v : Word) : MouldRun :=
  if code < 8 then { m with t := m.t.set code v }
  else if code ≤ 10 then { m with outs := m.outs.set (code - 8) (some v) }
  else m

/-- The flags that a micro-operation with SETF leaves take effect at the end (R461). -/
def MouldRun.setF (m : MouldRun) (setf : Bool) (f : Flags) : MouldRun := if setf then { m with flags := f } else m

/-- An addition or a subtraction: the flags and DCV of the matching instruction (R443). -/
def MouldRun.add (m : MouldRun) (dst : Nat) (setf : Bool) (a b : Word) (c sub : Bool) : MouldRun :=
  let m1 := (m.dst dst (sumOf a b c)).setF setf (m.flags.sum a b c)
  if setf then { m1 with dcv := dcvOf a b c sub } else m1

/-- The low 8, 4 or 2 octets of a value reversed. -/
def swapOctets (a : Word) (k : Nat) : Word :=
  BitVec.ofNat 64 (a.toNat / 256 ^ k * 256 ^ k + ofOctetsBE (octetsLE k a.toNat))

/-- A free value taken by a mould instruction (DESIGN CHOICE, log entry 12). -/
def MouldRun.free (m : MouldRun) : Word × MouldRun :=
  (BitVec.ofNat 64 (Config.freeNat m.st.blk.fresh),
    { m with st := { m.st with blk := { m.st.blk with fresh := m.st.blk.fresh + 1 } } })

/-- The flags under SETF of a word that no instruction matches, BSWAP or EXT: free flags (R460; DESIGN CHOICE, log
entry 52). -/
def MouldRun.freeFlags (m : MouldRun) (setf : Bool) : MouldRun :=
  if setf then let d := m.free; { d.2 with flags := d.2.flags.write d.1 } else m

/-- BSWAP by IMM13 0, 1 or 2; another IMM13 gives a free value (R460; DESIGN CHOICE, log entry 52). -/
def MouldRun.bswap (m : MouldRun) (dst : Nat) (setf : Bool) (a : Word) (imm : Nat) : MouldRun :=
  let d : Word × MouldRun := match imm with
    | 0 => (swapOctets a 8, m)
    | 1 => (swapOctets a 4, m)
    | 2 => (swapOctets a 2, m)
    | _ => m.free
  (d.2.dst dst d.1).freeFlags setf

/-- EXT: the bits of A from IMM13[5:0] on, IMM13[12:6] of them. -/
def extOf (a : Word) (imm : Nat) : Word :=
  (a >>> (imm % 64)) &&& BitVec.ofNat 64 (2 ^ (imm / 64) - 1)

/-- A load of a micro-operation, zero-extended. -/
def MouldRun.load (m : MouldRun) (n : Eng) (dst : Nat) (a : Word) (k : Nat) : Except Exc MouldRun × MouldRun :=
  match m.st.loadAt n a.toNat k with
  | (.ok v, t) => (.ok ({ m with st := t }.dst dst (BitVec.ofNat 64 v)), m)
  | (.error e, t) => (.error e, { m with st := t })

/-- A store of a micro-operation: checked now, performed at the end. -/
def MouldRun.store (m : MouldRun) (n : Eng) (a : Word) (k : Nat) (v : Word) : Except Exc MouldRun × MouldRun :=
  match m.st.storeFault n a.toNat k with
  | some e => (.error e, m)
  | none => (.ok { m with stores := m.stores ++ [(a.toNat, k, v.toNat)] }, m)

/-- One micro-operation (R460): what it leaves, or the exception with what its loads have done. -/
def MouldRun.uop (m : MouldRun) (n : Eng) (w : BitVec 32) : Except Exc MouldRun × MouldRun :=
  let imm := uopImm w
  let a := m.src (uopA w) imm
  let b := m.src (uopB w) imm
  let d := uopDst w
  let sf := uopSetf w
  let at_ : Word := a + imm.signExtend 64
  let ok (x : MouldRun) : Except Exc MouldRun × MouldRun := (.ok x, m)
  match uopOp w with
  | 0 => ok (m.dst d a)
  | 1 => ok (m.add d sf a b false false)
  | 2 => ok (m.add d sf a b m.f0.c false)
  | 3 => ok (m.add d sf a (~~~b) true true)
  | 4 => ok (m.add d sf a (~~~b) m.f0.c true)
  | 5 => ok ((m.dst d (a &&& b)).setF sf (m.flags.logic (a &&& b)))
  | 6 => ok ((m.dst d (a ||| b)).setF sf (m.flags.logic (a ||| b)))
  | 7 => ok ((m.dst d (a ^^^ b)).setF sf (m.flags.logic (a ^^^ b)))
  | 8 => ok ((m.dst d (Shift.apply .shl a (b.toNat % 64))).setF sf (m.flags.shift .shl a (b.toNat % 64)))
  | 9 => ok ((m.dst d (Shift.apply .shr a (b.toNat % 64))).setF sf (m.flags.shift .shr a (b.toNat % 64)))
  | 10 => ok ((m.dst d (Shift.apply .sar a (b.toNat % 64))).setF sf (m.flags.shift .sar a (b.toNat % 64)))
  | 11 => ok ((m.dst d (Shift.apply .ror a (b.toNat % 64))).setF sf (m.flags.shift .ror a (b.toNat % 64)))
  | 12 => ok ((m.dst d (a * b)).setF sf (m.flags.mul a b))
  | 13 => ok (m.bswap d sf a imm.toNat)
  | 14 => ok ((m.dst d (extOf a imm.toNat)).freeFlags sf)
  | 15 => ok ((m.dst d (clzOf a)).setF sf (m.flags.logic (clzOf a)))
  | 16 => ok ((m.dst d (popcOf a)).setF sf (m.flags.logic (popcOf a)))
  | 17 => m.load n d at_ 1
  | 18 => m.load n d at_ 2
  | 19 => m.load n d at_ 4
  | 20 => m.load n d at_ 8
  | 21 => m.store n at_ 1 b
  | 22 => m.store n at_ 2 b
  | 23 => m.store n at_ 4 b
  | 24 => m.store n at_ 8 b
  | 25 => ok (if m.f0.cond (BitVec.ofNat 4 (uopA w)) then { m with skip := imm.toNat % 32 } else m)
  | 26 => ok { m with flags := m.flags.write a }
  | _ => ok m

/-- The micro-operations of a row in order, those that SKIP names left out. -/
def MouldRun.run (m : MouldRun) (n : Eng) : List (BitVec 32) → Except Exc MouldRun × MouldRun
  | [] => (.ok m, m)
  | w :: ws =>
    if 0 < m.skip then MouldRun.run { m with skip := m.skip - 1 } n ws
    else
      match m.uop n w with
      | (.ok x, _) => x.run n ws
      | (.error e, x) => (.error e, x)

/-- The end of a mould instruction (R461): the stores in order, then rd, ra and rb, the flags and DCV. -/
def MouldRun.finish (m : MouldRun) (n : Eng) (mould : Nat) (rd ra rb : GReg) : State :=
  let s1 := m.stores.foldl (fun (t : State) x => t.storeDo n x.1 x.2.1 x.2.2) m.st
  let w (t : State) (i : Nat) (r : GReg) : State :=
    match m.outs.getD i none with
    | some v => t.setReg n r v
    | none => t
  let s2 := w (w (w s1 0 rd) 1 ra) 2 rb
  let s3 := s2.modCpu n fun c => { c with flags := { m.flags with e := c.flags.e }, dcv := m.dcv }
  ({ s3 with blk := s3.blk.add (Obj.mouldExecuted.eng n) 1 mould }.retire n).settle

/-- A mould instruction: EMULATE at A, reserved where its row is not VALID and on GD; else its row runs. An exception
at a micro-operation has the instruction's word in EADDR and leaves registers, flags and memory (R442, R459, R461). -/
def execMouldInstruction (n : Eng) (m : Fin 16) (rd ra rb : GReg) (imm9 : BitVec 9) (s : State) :
    Host.Outcome State Fault Refusal :=
  s.instr n fun s =>
    let o : Op := .mouldInstruction m rd ra rb imm9
    if s.priv n = .a || n.val = 11 || !s.blk.is (Obj.mouldValid.eng n) m then s.reserved n o
    else
      let len := s.blk.get (Obj.mouldLength.eng n) m
      let uops := s.blk.get (Obj.mouldUops.eng n) m
      let c := s.blk.cpu n
      let start : MouldRun :=
        { st := s, rd := s.reg n rd, ra := s.reg n ra, rb := s.reg n rb, imm9 := imm9.signExtend 64, f0 := c.flags
          flags := c.flags, dcv := c.dcv }
      match start.run n ((List.range len).map (uopWord uops)) with
      | (.ok x, _) => x.finish n m rd ra rb
      | (.error e, x) => x.st.raiseWord n e o

end Sys2Proof.Machine
end

