-- ==== Sys2Proof/Machine/Network.lean ====
section
/-!
DEFINITION. The commands of Ethernet, of reception, of classification and forwarding, of the rings, the sampler and
flushes (R111 to R123, R184 to R193, R264 to R292).
-/

namespace Sys2Proof.Machine

/-! ### Ethernet -/

/-- ETH_FRAME_RECEIVED; `pause` gives what a PAUSE or PFC frame pauses (R264, R265). -/
def execEthFrameReceived (t : Nat) (port : Fin 2) (pkt : Packet) (fcsOk : Bool) (pause : Option (List (Nat × Nat))) (s : State) :
    Host.Outcome State Fault Refusal :=
  s.at t fun b => b.ethReceive port.val pkt fcsOk pause

/-- PAUSE_REFRESH (R265). -/
def execPauseRefresh (t : Nat) (port : Fin 2) (s : State) : Host.Outcome State Fault Refusal :=
  s.at t fun b => b.pauseRefresh port.val

/-- PAUSE_QUANTA_EXPIRY: a received pause ends for the priorities of a mask (R264). -/
def execPauseQuantaExpiry (t : Nat) (port : Fin 2) (mask : Nat) (s : State) : Host.Outcome State Fault Refusal :=
  s.at t fun b => b.pauseEnd port.val mask

/-- ETH_MODE_WRITE: a port writes MODE of an Ethernet port (R266). -/
def execEthModeWrite (t : Nat) (p : Port) (row value : Nat) (s : State) : Host.Outcome State Fault Refusal :=
  s.atAll t fun x => x.setObj p Obj.ethMode row value

/-- ETH_TX_START: a free port picks its next frame; one whose lifetime is over is abandoned and the next picked (R121,
R284). -/
def execEthTxStart (t : Nat) (port : Fin 2) (s : State) : Host.Outcome State Fault Refusal :=
  s.at t fun b => b.ethStart port.val (b.frames.length + 1)

/-- ETH_TX_END: the frame on the line is delivered (R112). -/
def execEthTxEnd (t : Nat) (port : Fin 2) (s : State) : Host.Outcome State Fault Refusal :=
  s.at t fun b => b.ethEnd port.val

/-! ### Reception -/

/-- RX_SYNC_CONFIRM (R184 to R187). -/
def execRxSyncConfirm (t : Nat) (r : Radio) (branch : Nat) (seen : SyncSeen) (s : State) :
    Host.Outcome State Fault Refusal :=
  s.at t fun b => b.syncConfirm r branch seen

/-- RX_HEADER_DECODED (R171, R192, R271). -/
def execRxHeaderDecoded (t : Nat) (r : Radio) (head : RxHead) (s : State) : Host.Outcome State Fault Refusal :=
  s.at t fun b => b.headerDecoded r head

/-- RX_PPDU_END (R189 to R192, R200, R270). -/
def execRxPpduEnd (t : Nat) (r : Radio) (info : RxInfo) (mpdus : List RxMpdu) (s : State) :
    Host.Outcome State Fault Refusal :=
  s.at t fun b => b.ppduEnd r info mpdus

/-- LANDING_DRAIN (R273). -/
def execLandingDrain (t : Nat) (r : Radio) (s : State) : Host.Outcome State Fault Refusal :=
  s.at t fun b => b.landingDrain r

/-! ### Classification and verdicts -/

/-- CLASSIFY_FRAME (R274 to R280). -/
def execClassifyFrame (t fid : Nat) (s : State) : Host.Outcome State Fault Refusal := s.at t fun b => b.classify fid

/-- A flow row whose IDLE is not 0 and that no frame has hit for that long is freed (R276). -/
def Block.flowIdleEnd (b : Block) (row : Nat) : Block :=
  if b.is Obj.flowValid row && b.get Obj.flowIdle row != 0 &&
      decide (assocNat b.fwd.flowHit row + secs (b.get Obj.flowIdle row) ≤ b.now) then b.freeFlow row
  else b

/-- FLOW_IDLE_EXPIRY (R276). -/
def execFlowIdleExpiry (t row : Nat) (s : State) : Host.Outcome State Fault Refusal := s.at t fun b => b.flowIdleEnd row

/-- A learned row of the bridge ages out BRIDGE_AGE after its source was seen last; a static one does not (R278). -/
def Block.bridgeAgeEnd (b : Block) (row : Nat) : Block :=
  if b.get Obj.bridgeState row = 1 && decide (assocNat b.fwd.bridgeSeen row + secs (b.get Obj.bridgeAge4301) ≤ b.now) then
    b.freeBridge row
  else b

/-- BRIDGE_AGE_EXPIRY (R278). -/
def execBridgeAgeExpiry (t row : Nat) (s : State) : Host.Outcome State Fault Refusal := s.at t fun b => b.bridgeAgeEnd row

/-- INSERT: a port writes 1 (R276). -/
def execInsert (t : Nat) (p : Port) (s : State) : Host.Outcome State Fault Refusal :=
  s.atAll t fun x => x.setOne p Obj.stgInsert 1

/-- MISS_TAKE: an engine's port reads it (R281). -/
def execMissTake (t : Nat) (p : Port) (s : State) : Host.Outcome State Fault Refusal :=
  s.atAll t fun x => x.portRead p Obj.missTake.idx Obj.missTake.sub noRow

/-- VERDICT: an engine's port writes it (R281). -/
def execVerdict (t : Nat) (p : Port) (value : Nat) (s : State) : Host.Outcome State Fault Refusal :=
  s.atAll t fun x => x.setOne p Obj.verdict value

/-- SHAPER_RELEASE (R285). -/
def execShaperRelease (t shaper : Nat) (s : State) : Host.Outcome State Fault Refusal :=
  s.at t fun b => b.shaperRelease shaper

/-! ### Rings -/

/-- TX_RING_DOORBELL: an engine writes TAIL of a transmit ring (R289). -/
def execTxRingDoorbell (t : Nat) (p : Port) (row tail : Nat) (s : State) : Host.Outcome State Fault Refusal :=
  s.atAll t fun x => x.setObj p Obj.ringTail row tail

/-- RX_RING_FILL (R290). -/
def execRxRingFill (t row : Nat) (s : State) : Host.Outcome State Fault Refusal := s.atAll t fun x => x.rxFill row

/-- RX_RING_HEAD_WRITE: an engine writes HEAD of a receive ring (R290). -/
def execRxRingHeadWrite (t : Nat) (p : Port) (row head : Nat) (s : State) : Host.Outcome State Fault Refusal :=
  s.atAll t fun x => x.setObj p Obj.ringHead row head

/-! ### The sampler -/

/-- SAMPLE_PASS (R291, R292). -/
def execSamplePass (t : Nat) (s : State) : Host.Outcome State Fault Refusal := s.at t Block.samplePass

/-- MAX_OCTETS_READ: a port reads MAX_OCTETS or MAX_SOJOURN of a queue, by its subindex (R291). -/
def execMaxOctetsRead (t : Nat) (p : Port) (sub row : Nat) (s : State) : Host.Outcome State Fault Refusal :=
  s.atAll t fun x => x.portRead p Obj.sampMaxOctets.idx sub row

/-- HIST_CLEAR: a port writes 1 (R292). -/
def execHistClear (t : Nat) (p : Port) (row : Nat) (s : State) : Host.Outcome State Fault Refusal :=
  s.atAll t fun x => x.setObj p Obj.histHistClear row 1

/-! ### Flushes and abandonment -/

/-- A port writes FLUSH_ACTION; the target stands in FLUSH_TARGET (R123). -/
def State.flushVia (s : State) (p : Port) (scope : Nat) : State := s.setOne p Obj.flushAction scope

/-- FLUSH_QUEUE (R123). -/
def execFlushQueue (t : Nat) (p : Port) (s : State) : Host.Outcome State Fault Refusal := s.atAll t fun x => x.flushVia p 1

/-- FLUSH_STATION (R123). -/
def execFlushStation (t : Nat) (p : Port) (s : State) : Host.Outcome State Fault Refusal :=
  s.atAll t fun x => x.flushVia p 2

/-- FLUSH_NEIGHBOUR (R123). -/
def execFlushNeighbour (t : Nat) (p : Port) (s : State) : Host.Outcome State Fault Refusal :=
  s.atAll t fun x => x.flushVia p 3

/-- FLUSH_CANE_LINK (R123). -/
def execFlushCaneLink (t : Nat) (p : Port) (s : State) : Host.Outcome State Fault Refusal :=
  s.atAll t fun x => x.flushVia p 4

/-- FLUSH_ALL (R123). -/
def execFlushAll (t : Nat) (p : Port) (s : State) : Host.Outcome State Fault Refusal := s.atAll t fun x => x.flushVia p 5

/-- ABANDON_NOTICE_PERIOD_END: the period of a destination and a reason (R122). -/
def execAbandonNoticePeriodEnd (t dest code : Nat) (s : State) : Host.Outcome State Fault Refusal :=
  s.at t fun b => b.periodEnd dest code

/-- The summary record 3,600 s after the last; with no supply there is no log (R122). -/
def Block.hourlySummary (b : Block) : Block :=
  if b.mode.mode = .off || decide (b.now < b.mode.hourAt + secs 3600) then b
  else { b with mode := { b.mode with hourAt := b.now } }.abandonSummary 0

/-- ABANDON_SUMMARY: 3,600 s have passed (R122). -/
def execAbandonSummary (t : Nat) (s : State) : Host.Outcome State Fault Refusal := s.furnace t Block.hourlySummary

end Sys2Proof.Machine
end

