-- ==== Sys2Proof/Machine/Service.lean ====
section
/-!
DEFINITION. The commands of margins, of the memories, of images and of the engines' control (R413 to R427, R467 to R496,
R464, R506 to R512).
-/

namespace Sys2Proof.Machine

/-! ### Margins -/

/-- LEHR_PERIOD_EXPIRY (R417). -/
def execLehrPeriodExpiry (t : Nat) (s : State) : Host.Outcome State Fault Refusal := s.at t Block.lehrPeriodEnd

/-- LEHR_RUN: a port writes 1 (R417). -/
def execLehrRun (t : Nat) (p : Port) (s : State) : Host.Outcome State Fault Refusal :=
  s.atAll t fun x => x.setOne p Obj.lehrRun 1

/-- STRAIN_SWEEP_DONE: the counts of the strain cells, and whether the PMIC answers (R416 to R419). -/
def execStrainSweepDone (t : Nat) (cells : List Nat) (pmbusOk : Bool) (s : State) : Host.Outcome State Fault Refusal :=
  s.at t fun b => b.sweepDone cells pmbusOk

/-- VCORE_SETTLE_EXPIRY (R418). -/
def execVcoreSettleExpiry (t : Nat) (s : State) : Host.Outcome State Fault Refusal := s.at t Block.settleEnd

/-- VCORE_LIMIT_WRITE: a port writes VCORE_MIN or VCORE_MAX, by its subindex of 0x1402; `pmbusOk` tells whether the PMIC
takes the steps (R422). -/
def execVcoreLimitWrite (t : Nat) (p : Port) (sub value : Nat) (pmbusOk : Bool) (s : State) :
    Host.Outcome State Fault Refusal :=
  s.atAll t fun x => x.portWrite p 0x1402 sub noRow (x.blk.sizeAt 0x1402 sub) value (.vcore pmbusOk)

/-- THERMAL_CHECK: channel 8 of the ADC and the die temperatures (R426, R427). -/
def execThermalCheck (t : Nat) (ch8 dieH dieM dieL : Int) (s : State) : Host.Outcome State Fault Refusal :=
  s.furnace t fun b => b.thermalCheck ch8 dieH dieM dieL

/-! ### Working store and MRAM -/

/-- WS_SCRUB (R470). -/
def execWsScrub (t : Nat) (e : WsError) (s : State) : Host.Outcome State Fault Refusal := s.at t fun b => b.wsScrubbed e

/-- CS_WRITE: a port writes 1 (R476). -/
def execCsWrite (t : Nat) (p : Port) (s : State) : Host.Outcome State Fault Refusal :=
  s.atAll t fun x => x.setOne p Obj.csWrite 1

/-! ### DRAM -/

/-- DRAM_REQUEST (R482). -/
def execDramRequest (t cls requester addr : Nat) (write ce ue : Bool) (s : State) : Host.Outcome State Fault Refusal :=
  s.at t fun b => b.dramRequest cls requester addr write ce ue

/-- DRAM_AGE_PROMOTE (R482). -/
def execDramAgePromote (t id : Nat) (s : State) : Host.Outcome State Fault Refusal := s.at t fun b => b.dramPromote id

/-- DRAM_SCRUB (R486). -/
def execDramScrub (t : Nat) (ch : Fin 2) (addr : Nat) (ce ue : Bool) (s : State) : Host.Outcome State Fault Refusal :=
  s.at t fun b => b.dramScrubbed ch.val addr ce ue

/-- DRAM_REFRESH (R487). -/
def execDramRefresh (t : Nat) (ch : Fin 2) (bank : Fin 8) (postpone : Bool) (s : State) :
    Host.Outcome State Fault Refusal :=
  s.at t fun b => b.dramRefreshDue ch.val bank.val postpone

/-- DRAM_RETRAIN_START (R489). -/
def execDramRetrainStart (t : Nat) (ch : Fin 2) (s : State) : Host.Outcome State Fault Refusal :=
  s.at t fun b => b.retrainStart ch.val

/-- DRAM_RETRAIN_DONE (R489). -/
def execDramRetrainDone (t : Nat) (ch : Fin 2) (ok : Bool) (s : State) : Host.Outcome State Fault Refusal :=
  s.at t fun b => b.retrainDone ch.val ok

/-! ### Boot flash -/

/-- XSPI_READ_TIMEOUT (R492). -/
def execXspiReadTimeout (t : Nat) (s : State) : Host.Outcome State Fault Refusal := s.at t Block.flashTimeout

/-- A port writes XSPI_OP (R493). -/
def State.flashVia (s : State) (p : Port) (op : Nat) : State := s.setOne p Obj.xspiOp op

/-- XSPI_PROGRAM (R493). -/
def execXspiProgram (t : Nat) (p : Port) (s : State) : Host.Outcome State Fault Refusal :=
  s.atAll t fun x => x.flashVia p 1

/-- XSPI_SECTOR_ERASE (R493). -/
def execXspiSectorErase (t : Nat) (p : Port) (s : State) : Host.Outcome State Fault Refusal :=
  s.atAll t fun x => x.flashVia p 2

/-- XSPI_BLOCK_ERASE (R493). -/
def execXspiBlockErase (t : Nat) (p : Port) (s : State) : Host.Outcome State Fault Refusal :=
  s.atAll t fun x => x.flashVia p 3

/-- XSPI_OP_DONE (R493). -/
def execXspiOpDone (t status : Nat) (s : State) : Host.Outcome State Fault Refusal := s.atAll t fun x => x.flashDone status

/-! ### Images and swaps -/

/-- SWAP_GO: a port writes 1 (R508). -/
def execSwapGo (t : Nat) (p : Port) (s : State) : Host.Outcome State Fault Refusal :=
  s.atAll t fun x => x.setOne p Obj.swapGo 1

/-- SWAP_ENGINE_LOADED (R508). -/
def execSwapEngineLoaded (t : Nat) (s : State) : Host.Outcome State Fault Refusal := s.atAll t State.swapLoaded

/-- SWAP_WAIT_EXPIRY (R509). -/
def execSwapWaitExpiry (t : Nat) (s : State) : Host.Outcome State Fault Refusal := s.at t Block.swapTimeout

/-- BOOT_CONFIRM: a port writes 1 (R510). -/
def execBootConfirm (t : Nat) (p : Port) (s : State) : Host.Outcome State Fault Refusal :=
  s.atAll t fun x => x.setOne p Obj.bootConfirm 1

/-- CONFIRM_TIME_EXPIRY (R510). -/
def execConfirmTimeExpiry (t : Nat) (s : State) : Host.Outcome State Fault Refusal := s.atAll t State.confirmExpiry

/-! ### Engine control -/

/-- A port writes CONTROL of an engine (R464). -/
def State.controlVia (s : State) (p : Port) (n : Eng) (v : Nat) : State := s.setOne p (Obj.engControl.eng n.val) v

/-- ENGINE_HALT (R464). -/
def execEngineHalt (t : Nat) (p : Port) (n : Eng) (s : State) : Host.Outcome State Fault Refusal :=
  s.atAll t fun x => x.controlVia p n 1

/-- ENGINE_RUN (R464). -/
def execEngineRun (t : Nat) (p : Port) (n : Eng) (s : State) : Host.Outcome State Fault Refusal :=
  s.atAll t fun x => x.controlVia p n 2

/-- ENGINE_RESUME (R464). -/
def execEngineResume (t : Nat) (p : Port) (n : Eng) (s : State) : Host.Outcome State Fault Refusal :=
  s.atAll t fun x => x.controlVia p n 3

/-- MOULD_ROW_WRITE: a port writes a subindex of a row of an engine's mould table (R462). -/
def execMouldRowWrite (t : Nat) (p : Port) (n : Eng) (row sub value : Nat) (s : State) :
    Host.Outcome State Fault Refusal :=
  s.atAll t fun x => x.set p (Obj.mouldValid.eng n.val).idx sub row value

/-- ENGINE_EVENT: an event source of an engine, by its bit of EVENT_SRC; bits 31 to 19 are reserved (R453, R454). -/
def execEngineEvent (t : Nat) (n : Eng) (bit : Fin 32) (s : State) : Host.Outcome State Fault Refusal :=
  s.at t fun b => if 18 < bit.val then b else b.event n.val bit.val

/-- WUNTIL_TARGET: TB reaches the target of a waiting engine (R456). -/
def execWuntilTarget (t : Nat) (n : Eng) (s : State) : Host.Outcome State Fault Refusal :=
  s.at t fun b => b.tryWake n.val

/-- WATCHDOG_EXPIRY (R455). -/
def execWatchdogExpiry (t : Nat) (n : Eng) (s : State) : Host.Outcome State Fault Refusal :=
  s.furnace t fun b => if b.frozen && n.val != 11 then b else b.watchdogEnd n.val

end Sys2Proof.Machine
end

