-- ==== Sys2Proof/Machine/Supplies.lean ====
section
/-!
DEFINITION. The commands of supplies, resets, faults and idle timers (R21, R86 to R93, R128 to R130, R488, R497 to R502,
R520, R525).
-/

namespace Sys2Proof.Machine

/-! ### Supplies and clocks -/

/-- VFUR_RISE: the Furnace starts, and finds what it finds of the MRAM (R475, R497). -/
def execVfurRise (t activeWakes : Nat) (faults : List MramFault) (s : State) : Host.Outcome State Fault Refusal :=
  s.furnace t fun b => b.vfurRise activeWakes faults

/-- VFUR_FALL: the device goes Off (R86). -/
def execVfurFall (t : Nat) (s : State) : Host.Outcome State Fault Refusal := s.furnace t Block.vfurFall

/-- The source of the RTC, with no step (R525); unpowered there is none. -/
def Block.rtcFrom (b : Block) (source : Nat) : Block :=
  if b.mode.mode = .off then b else b.put Obj.rtcSource source

/-- RTC_CRYSTAL_STABLE (R497, R525). -/
def execRtcCrystalStable (t : Nat) (s : State) : Host.Outcome State Fault Refusal := s.furnace t fun b => b.rtcFrom 1

/-- RTC_CRYSTAL_STOP (R525). -/
def execRtcCrystalStop (t : Nat) (s : State) : Host.Outcome State Fault Refusal := s.furnace t fun b => b.rtcFrom 0

/-- PWR_OK_RISE (R86). -/
def execPwrOkRise (t : Nat) (s : State) : Host.Outcome State Fault Refusal := s.furnace t Block.pwrOkRise

/-- PWR_OK_FALL: the power-fail path (R86, R90). -/
def execPwrOkFall (t : Nat) (s : State) : Host.Outcome State Fault Refusal := s.furnace t Block.pwrOkFall

/-- PFW_N_ASSERT: the power-fail path (R90). -/
def execPfwNAssert (t : Nat) (s : State) : Host.Outcome State Fault Refusal := s.furnace t fun b => b.powerFail 0

/-- BROWNOUT (R520). -/
def execBrownout (t rail lowest dur : Nat) (s : State) : Host.Outcome State Fault Refusal :=
  s.furnace t fun b => b.brownout rail lowest dur

/-- BROWNOUT_END: the rail is back above its limit (R520). -/
def execBrownoutEnd (t rail : Nat) (s : State) : Host.Outcome State Fault Refusal :=
  s.furnace t fun b => b.brownoutEnd rail

/-! ### Resets -/

/-- RESET_N goes low: every domain but the Furnace is held (R499). In Hibernate it has no effect. -/
def Block.resetAssert (b : Block) : Block := { b with pins := { b.pins with resetLow := true } }

/-- RESET_N_ASSERT (R499). -/
def execResetNAssert (t : Nat) (s : State) : Host.Outcome State Fault Refusal := s.furnace t Block.resetAssert

/-- The release of RESET_N: a cold reset with source 1, but in Hibernate or Off (R499). -/
def Block.resetRelease (b : Block) : Block := { b with pins := { b.pins with resetLow := false } }.coldReset 1

/-- RESET_N_RELEASE (R499, R500). -/
def execResetNRelease (t : Nat) (s : State) : Host.Outcome State Fault Refusal := s.furnace t Block.resetRelease

/-- WARM_RESET: a port writes 1 to WARM_RESET (R502); `done` are the frames that the result buffers show resolved and
`repaired` the journal lines that the replay repairs (R125, R126). -/
def execWarmReset (t : Nat) (p : Port) (done : List Nat) (repaired : Nat) (s : State) :
    Host.Outcome State Fault Refusal :=
  s.atAll t fun x => x.portWrite p Obj.warmReset.idx Obj.warmReset.sub noRow 1 1 (.warm done repaired)

/-- COLD_RESET: a port writes 1 to COLD_RESET (R502). -/
def execColdReset (t : Nat) (p : Port) (s : State) : Host.Outcome State Fault Refusal :=
  s.atAll t fun x => x.setOne p Obj.coldReset 1

/-- The automatic restore, RESTORE_DELAY after a fence (R130). -/
def Block.restoreDelayEnd (b : Block) (done : List Nat) (repaired : Nat) : Block :=
  if b.mayRestore then b.warmAsked 4 done repaired else b

/-- RESTORE_DELAY_EXPIRY (R130). -/
def execRestoreDelayExpiry (t : Nat) (done : List Nat) (repaired : Nat) (s : State) :
    Host.Outcome State Fault Refusal :=
  s.at t fun b => b.restoreDelayEnd done repaired

/-! ### Faults of units -/

/-- The domain of a unit, by its bit of FABRIC_FENCED (R24). -/
def unitDomain (bit : Nat) : Nat :=
  if bit < 12 then engineDomain bit
  else if bit < 15 then bit - 9
  else if bit < 17 then 6
  else if bit < 19 then 7
  else 2

/-- A unit fails its stall timer or its own check. -/
def Block.unitFails (b : Block) (bit cause : Nat) : Block :=
  if bit < 20 && b.domainOn (unitDomain bit) then b.fence bit cause else b

/-- FABRIC_STALL_EXPIRY (R21). -/
def execFabricStallExpiry (t unit : Nat) (s : State) : Host.Outcome State Fault Refusal :=
  s.at t fun b => b.unitFails unit 1

/-- UNIT_SELF_CHECK_FAIL: a radio edge, an Ethernet port, or xSPI reads (R128). -/
def Block.selfCheckFail (b : Block) (c : SelfCheck) : Block :=
  match c with
  | .radio r => b.unitFails (12 + radioNum r) 4
  | .ethernet port => b.unitFails (17 + port.val) 4
  | .flash => b.unitFails 19 6

/-- UNIT_SELF_CHECK_FAIL (R128). -/
def execUnitSelfCheckFail (t : Nat) (c : SelfCheck) (s : State) : Host.Outcome State Fault Refusal :=
  s.at t fun b => b.selfCheckFail c

/-! ### Idle timers (R91, R92, R488) -/

/-- A link can be up at a speed in a mode: 10G in mode 1, 2.5G in mode 3, 1G or less in mode 4, any in mode 2 (R263,
R293). -/
def speedFits (mode speed : Nat) : Bool :=
  match mode with
  | 1 => speed == 1
  | 2 => decide (speed ≤ 6)
  | 3 => speed == 3
  | 4 => decide (4 ≤ speed) && decide (speed ≤ 6)
  | _ => false

/-- A port's link goes down, or up at a speed of its mode (R91, R263, R266). A frame that was on the line is sent
again in full. -/
def Block.linkChange (b : Block) (port speed : Nat) : Block :=
  if !b.ethServes port || (speed ≠ 0 && !speedFits (b.get Obj.ethMode port) speed) then b
  else if speed = 0 then b.lineDown port
  else { b with fwd := { b.fwd with low := b.fwd.low.set port false } }.put Obj.ethLink speed port

/-- ETH_LINK_CHANGE (R91). -/
def execEthLinkChange (t : Nat) (port : Fin 2) (speed : Nat) (s : State) : Host.Outcome State Fault Refusal :=
  s.at t fun b => b.linkChange port.val speed

/-- A port whose link has been down for ETH_IDLE goes to low power (R91). -/
def Block.ethIdle (b : Block) (port : Nat) : Block :=
  if b.ethServes port && b.get Obj.ethLink port == 0 &&
      decide (b.fwd.downAt.getD port 0 + secs (b.get Obj.ethIdle) ≤ b.now) then { b with fwd := { b.fwd with low := b.fwd.low.set port true } }
  else b

/-- ETH_IDLE_EXPIRY (R91). -/
def execEthIdleExpiry (t : Nat) (port : Fin 2) (s : State) : Host.Outcome State Fault Refusal :=
  s.at t fun b => b.ethIdle port.val

/-- Radio H or M with no BSS and no strand enabled for RADIO_IDLE goes to low power: synthesiser and receivers off
(R91). -/
def Block.radioIdle (b : Block) (r : Radio) : Block :=
  if r ≠ .l && b.radioOn r && !b.radioAsked r && !(b.radio r).inPpdu &&
      decide ((b.radio r).idleFrom + ms (b.get Obj.radioIdle) ≤ b.now) then
    ((b.put (Obj.synthState.of r) 0).modRadio r fun u => { u with low := true, freq := 0, seg := none }).femDrive r b.now
  else b

/-- RADIO_IDLE_EXPIRY (R91). -/
def execRadioIdleExpiry (t : Nat) (r : Radio) (s : State) : Host.Outcome State Fault Refusal :=
  s.at t fun b => b.radioIdle r

/-- DRAM_IDLE_EXPIRY: the controller enters self-refresh (R488). -/
def execDramIdleExpiry (t : Nat) (s : State) : Host.Outcome State Fault Refusal := s.at t Block.dramIdle

/-- DRAM_SELF_REFRESH_EXIT (R488). -/
def execDramSelfRefreshExit (t : Nat) (s : State) : Host.Outcome State Fault Refusal := s.at t Block.dramSelfRefreshExit

/-- CHIP_IDLE_EXPIRY: entry into Hibernate begins (R92). -/
def execChipIdleExpiry (t : Nat) (s : State) : Host.Outcome State Fault Refusal := s.at t Block.chipIdle

end Sys2Proof.Machine
end

