-- ==== Sys2Proof/Machine/Tap.lean ====
section
/-!
DEFINITION. The debug port (R398, R399): the TAP halts and steps engines and reaches the address map with the rights of
AC0 at F.
-/

namespace Sys2Proof.Machine

/-! ### One instruction of an engine -/

/-- An engine executes one instruction (R442 to R463). -/
def State.runOp (s : State) (n : Eng) (o : Op) : Host.Outcome State Fault Refusal :=
  match o with
  | .reserved word => execReservedInstruction n word s
  | .nop => execNop n s
  | .trap code => execTrap n code s
  | .mcall => execMcall n s
  | .xret => execXret n s
  | .halt => execHalt n s
  | .safept => execSafept n s
  | .wdkick => execWdkick n s
  | .fence => execFence n s
  | .fenceS => execFenceS n s
  | .fenceD => execFenceD n s
  | .crd rd cr => execCrd n rd cr s
  | .cwr cr ra => execCwr n cr ra s
  | .add rd ra rb => execAdd n rd ra rb s
  | .adc rd ra rb => execAdc n rd ra rb s
  | .sub rd ra rb => execSub n rd ra rb s
  | .sbc rd ra rb => execSbc n rd ra rb s
  | .cmp ra rb => execCmp n ra rb s
  | .and rd ra rb => execAnd n rd ra rb s
  | .or rd ra rb => execOr n rd ra rb s
  | .xor rd ra rb => execXor n rd ra rb s
  | .shl rd ra rb => execShl n rd ra rb s
  | .shr rd ra rb => execShr n rd ra rb s
  | .sar rd ra rb => execSar n rd ra rb s
  | .ror rd ra rb => execRor n rd ra rb s
  | .clz rd ra => execClz n rd ra s
  | .popc rd ra => execPopc n rd ra s
  | .addi rd ra imm => execAddi n rd ra imm s
  | .cmpi ra imm => execCmpi n ra imm s
  | .andi rd ra imm => execAndi n rd ra imm s
  | .ori rd ra imm => execOri n rd ra imm s
  | .xori rd ra imm => execXori n rd ra imm s
  | .shiShl rd ra amount => execShiShl n rd ra amount s
  | .shiShr rd ra amount => execShiShr n rd ra amount s
  | .shiSar rd ra amount => execShiSar n rd ra amount s
  | .shiRor rd ra amount => execShiRor n rd ra amount s
  | .movz rd h imm => execMovz n rd h imm s
  | .movk rd h imm => execMovk n rd h imm s
  | .mul rd ra rb => execMul n rd ra rb s
  | .mulhu rd ra rb => execMulhu n rd ra rb s
  | .mulhs rd ra rb => execMulhs n rd ra rb s
  | .divu rd ra rb => execDivu n rd ra rb s
  | .divs rd ra rb => execDivs n rd ra rb s
  | .remu rd ra rb => execRemu n rd ra rb s
  | .rems rd ra rb => execRems n rd ra rb s
  | .ld64 rd ra imm => execLd64 n rd ra imm s
  | .ld32u rd ra imm => execLd32u n rd ra imm s
  | .ld32s rd ra imm => execLd32s n rd ra imm s
  | .ld16u rd ra imm => execLd16u n rd ra imm s
  | .ld16s rd ra imm => execLd16s n rd ra imm s
  | .ld8u rd ra imm => execLd8u n rd ra imm s
  | .ld8s rd ra imm => execLd8s n rd ra imm s
  | .ldacq rd ra imm => execLdacq n rd ra imm s
  | .st64 rd ra imm => execSt64 n rd ra imm s
  | .st32 rd ra imm => execSt32 n rd ra imm s
  | .st16 rd ra imm => execSt16 n rd ra imm s
  | .st8 rd ra imm => execSt8 n rd ra imm s
  | .strel rd ra imm => execStrel n rd ra imm s
  | .cas rd ra rb => execCas n rd ra rb s
  | .aadd rd ra rb => execAadd n rd ra rb s
  | .aswap rd ra rb => execAswap n rd ra rb s
  | .bCond cond offset => execBCond n cond offset s
  | .jal offset => execJal n offset s
  | .jalr rd ra imm => execJalr n rd ra imm s
  | .wfe => execWfe n s
  | .sev ra => execSev n ra s
  | .wuntil ra => execWuntil n ra s
  | .dadd rd ra rb => execDadd n rd ra rb s
  | .daddX rd ra rb => execDaddX n rd ra rb s
  | .dsub rd ra rb => execDsub n rd ra rb s
  | .dsubX rd ra rb => execDsubX n rd ra rb s
  | .dcmp ra rb => execDcmp n ra rb s
  | .dadj rd ra => execDadj n rd ra s
  | .mouldInstruction m rd ra rb imm9 => execMouldInstruction n m rd ra rb imm9 s

/-- The word at an engine's program counter; where the fetch fails there is none, and the instruction takes its
exception first. -/
def State.wordAt (s : State) (n : Eng) : BitVec 32 :=
  let c := s.blk.cpu n.val
  match s.blk.placeOf n.val c.priv .fetch c.pc.toNat 4 with
  | .ok p => BitVec.ofNat 32 (ofOctetsLE (s.readPlace p c.pc.toNat 4).1)
  | .error _ => 0

/-! ### The debug port -/

/-- The full TAP: the states Open and Unlocked, while Core-F is on. -/
def Block.tapFull (b : Block) : Bool := b.coreF && (b.get Obj.debugState == 0 || b.get Obj.debugState == 2)

/-- A halted engine executes the instruction at its program counter and halts again (R398). -/
def State.tapStep (s : State) (n : Eng) : State :=
  if (s.blk.cpu n.val).run ≠ .halted || !s.blk.domainOn (engineDomain n.val) then s
  else
    let s1 := s.modCpu n.val fun c => { c with run := .running }
    match s1.runOp n (decodeWord (s1.wordAt n)) with
    | .next u => if (u.blk.cpu n.val).run.active then u.modCpu n.val fun c => { c with run := .halted } else u
    | _ => s

/-- An address of the regulatory region (R472). -/
def regulatoryAddr (a : Nat) : Bool := decide (0x200C0000 ≤ a) && decide (a < 0x200C4000)

/-- What the TAP inspects of an engine: a general register, 32 the program counter, or from 64 on a control register
(R398). -/
def State.tapItem (s : State) (n : Eng) (item : Nat) : Nat :=
  if item < 32 then (s.reg n.val item).toNat
  else if item = 32 then (s.blk.cpu n.val).pc.toNat
  else (s.blk.crRead n.val (item - 64)).toNat

/-- The octet that the TAP reads at an address, with the rights of AC0 at F; at a bus error, and in the regulatory
region (R399), it shows 0 (R31). A read of the window that an access under way holds up shows nothing (DESIGN CHOICE,
log entry 113). -/
def State.tapRead (s : State) (a : Nat) : State :=
  if regulatoryAddr a then { s with blk := s.blk.emit (.tap 0) }
  else
  match s.blk.placeOf 0 .f .load a 1 with
  | .error e => { s with blk := (s.errorAt e a).blk.emit (.tap 0) }
  | .ok .window =>
    if s.loadStands ⟨0, by omega⟩ a 1 then s
    else
      match s.windowLoad 0 a 1 with
      | (.ok v, u) => { u with blk := u.blk.emit (.tap v) }
      | (.error _, u) => { u with blk := u.blk.emit (.tap 0) }
  | .ok p =>
    let d := (s.touch a).readPlace p a 1
    { d.2 with blk := d.2.blk.emit (.tap (ofOctetsLE d.1)) }

/-- The objects whose writes program fuses, which the debug port does not reach (R399). -/
def programsFuses (a : Nat) : Bool :=
  inWindow a && (winIdx a == 0x1610 || winIdx a == 0x1611 || (winIdx a == 0x1612 && winSub a == 4))

/-- An octet that the TAP writes at an address, with the rights of AC0 at F (R398, R399). -/
def State.tapWrite (s : State) (a : Nat) (v : Octet) : State :=
  if programsFuses a then s
  else
    match s.blk.placeOf 0 .f .store a 1 with
    | .error _ => s
    | .ok .window => if (s.blk.windowFault 0 .f a 1).isSome then s else (s.windowStore 0 a 1 v.toNat)
    | .ok p => (s.touch a).writePlace p a [v]

/-- An operation of the TAP. In the states Locked and Disabled, IDCODE and BYPASS alone are served (R398). -/
def State.tap (s : State) (op : TapOp) : State :=
  let b := s.blk
  if !b.coreF then s
  else
    match op with
    | .idcode => { s with blk := b.emit (.tap (b.get Obj.jtagIdcode)) }
    | .bypass => { s with blk := b.emit (.tap 0) }
    | .halt n =>
      if b.tapFull && (b.cpu n.val).run.active then s.modCpu n.val fun c => { c with run := .halted } else s
    | .step n => if b.tapFull then s.tapStep n else s
    | .inspect n item => if b.tapFull then { s with blk := b.emit (.tap (s.tapItem n item)) } else s
    | .readMem a => if b.tapFull then s.tapRead a else s
    | .writeMem a v => if b.tapFull then s.tapWrite a v else s

/-- TAP_ACCESS (R398). -/
def execTapAccess (t : Nat) (op : TapOp) (s : State) : Host.Outcome State Fault Refusal := s.atAll t fun x => x.tap op

end Sys2Proof.Machine
end

