-- ==== Sys2Proof/Machine/Transmit.lean ====
section
/-!
DEFINITION. The commands of gathers, of transmission, of the radio front ends and of the regulatory region (R141 to
R167, R194 to R197, R251 to R257).
-/

namespace Sys2Proof.Machine

/-! ### Gathers -/

/-- GATHER_SELECT (R251, R252). -/
def execGatherSelect (t : Nat) (r : Radio) (users : Nat) (multiUser : Bool) (mimo dur : Nat) (picks : List Pick)
    (s : State) : Host.Outcome State Fault Refusal :=
  s.at t fun b => b.gatherSelect r users multiUser mimo dur picks

/-- GATHER_SEAL_DONE (R253, R308). -/
def execGatherSealDone (t gid : Nat) (s : State) : Host.Outcome State Fault Refusal := s.at t fun b => b.gatherSealed gid

/-- GATHER_AGE_EXPIRY (R255). -/
def execGatherAgeExpiry (t gid : Nat) (s : State) : Host.Outcome State Fault Refusal := s.at t fun b => b.gatherAged gid

/-! ### Transmission -/

/-- TX_COMMAND (R143, R149, R168, R204). -/
def execTxCommand (t : Nat) (r : Radio) (c : TxCmd) (s : State) : Host.Outcome State Fault Refusal :=
  s.at t fun b => b.txCommand r c

/-- TX_COMMIT (R253, R254). -/
def execTxCommit (t : Nat) (r : Radio) (s : State) : Host.Outcome State Fault Refusal := s.at t fun b => b.txCommit r

/-- PPDU_FIRST_SAMPLE (R253). -/
def execPpduFirstSample (t : Nat) (r : Radio) (s : State) : Host.Outcome State Fault Refusal :=
  s.at t fun b => b.firstSample r

/-- PPDU_TX_END: `detector` are the readings of the power detector, in 0.001 dB of dBm, by chain (R112, R150, R203). -/
def execPpduTxEnd (t : Nat) (r : Radio) (detector : List Int) (s : State) : Host.Outcome State Fault Refusal :=
  s.at t fun b => b.txEnd r detector

/-- RESPONSE_RECEIVED: the frames that the response acknowledges, and the MCS that the sequencer then chooses for
receivers (R112, R196, R255). -/
def execResponseReceived (t : Nat) (r : Radio) (acked : List Nat) (mcs : List (Nat × Nat)) (s : State) :
    Host.Outcome State Fault Refusal :=
  s.at t fun b => b.responseReceived r acked mcs

/-- RESPONSE_TIMEOUT, and the MCS that the sequencer then chooses (R196, R255). -/
def execResponseTimeout (t : Nat) (r : Radio) (mcs : List (Nat × Nat)) (s : State) : Host.Outcome State Fault Refusal :=
  s.at t fun b => b.responseTimeout r mcs

/-- RETRY_HOLD_EXPIRY (R197). -/
def execRetryHoldExpiry (t queue : Nat) (s : State) : Host.Outcome State Fault Refusal := s.at t fun b => b.holdEnd queue

/-! ### Synthesiser and calibration -/

/-- SYNTH_LOCK (R143). -/
def execSynthLock (t : Nat) (r : Radio) (s : State) : Host.Outcome State Fault Refusal := s.at t fun b => b.synthLock r

/-- LOCK_TIMEOUT_EXPIRY (R143). -/
def execLockTimeoutExpiry (t : Nat) (r : Radio) (s : State) : Host.Outcome State Fault Refusal :=
  s.at t fun b => b.lockTimeout r

/-- LOCK_LOST (R144). -/
def execLockLost (t : Nat) (r : Radio) (s : State) : Host.Outcome State Fault Refusal := s.at t fun b => b.lockLost r

/-- TUNE_WRITE: a port writes an object of 0x2000 of a radio, by its subindex (R141). -/
def execTuneWrite (t : Nat) (p : Port) (r : Radio) (sub value : Nat) (s : State) : Host.Outcome State Fault Refusal :=
  s.atAll t fun x => x.set p (Obj.tuneFreq.of r).idx sub noRow value

/-- TUNE_START (R141, R145, R173). -/
def execTuneStart (t : Nat) (r : Radio) (s : State) : Host.Outcome State Fault Refusal := s.at t fun b => b.tuneStart r

/-- CAL_SEGMENT_START; `ahead` are the ticks to the sequencer's next event (R146). -/
def execCalSegmentStart (t : Nat) (r : Radio) (kind chain ahead : Nat) (s : State) : Host.Outcome State Fault Refusal :=
  s.at t fun b => b.calStart r kind chain ahead

/-- CAL_SEGMENT_END; `last` tells that every segment of the calibration has completed (R145, R147). -/
def execCalSegmentEnd (t : Nat) (r : Radio) (last : Bool) (s : State) : Host.Outcome State Fault Refusal :=
  s.at t fun b => b.calEnd r last

/-- CAL_STARVE_EXPIRY (R148). -/
def execCalStarveExpiry (t : Nat) (r : Radio) (kind : Nat) (s : State) : Host.Outcome State Fault Refusal :=
  s.at t fun b => b.calStarve r kind

/-- CAL_PERIOD_EXPIRY: the period of a calibration has passed, or a temperature step calls for it (R145). -/
def execCalPeriodExpiry (t : Nat) (r : Radio) (kind : Nat) (tempStep : Bool) (s : State) :
    Host.Outcome State Fault Refusal :=
  s.at t fun b => b.calPeriod r kind tempStep

/-- PA_SUPPLY_READ (R150). -/
def execPaSupplyRead (t : Nat) (r : Radio) (mv : Nat) (s : State) : Host.Outcome State Fault Refusal :=
  s.at t fun b => b.paSupply r mv

/-! ### Coexistence -/

/-- COEX_IN_CHANGE (R155). -/
def execCoexInChange (t : Nat) (input : Fin 2) (level : Bool) (s : State) : Host.Outcome State Fault Refusal :=
  s.at t fun b => b.coexIn input.val level

/-- BLANK_TAIL_EXPIRY (R155). -/
def execBlankTailExpiry (t source : Nat) (s : State) : Host.Outcome State Fault Refusal :=
  s.at t fun b => b.blankOff source

/-! ### The regulatory region -/

/-- REGION_COMMIT: a port writes it; it is answered at once where it is refused, else after the flip (R161 steps 1 to
3). -/
def execRegionCommit (t : Nat) (p : Port) (crc : Nat) (s : State) : Host.Outcome State Fault Refusal :=
  s.atAll t fun x => x.setOne p Obj.regionCommit crc

/-- REGION_FLIP: the write that started the commit is then answered, and the commit point goes on (R161 step 4). -/
def execRegionFlip (t : Nat) (s : State) : Host.Outcome State Fault Refusal := s.at t Block.regionFlip

/-- SHADOW_LOAD: whether the active half checks, and the CRC read (R160, R161 step 5). -/
def execShadowLoad (t : Nat) (r : Radio) (activeOk : Bool) (crcRead : Nat) (s : State) : Host.Outcome State Fault Refusal :=
  s.at t fun b => b.shadowLoad r activeOk crcRead

/-- SHADOW_CRC_CHECK: whether the shadow and the active half check, and the CRC read (R160). -/
def execShadowCrcCheck (t : Nat) (r : Radio) (shadowOk activeOk : Bool) (crcRead : Nat) (s : State) :
    Host.Outcome State Fault Refusal :=
  s.at t fun b => b.shadowCheck r shadowOk activeOk crcRead

/-- REGION_CLEAR: a port writes 1 (R162). -/
def execRegionClear (t : Nat) (p : Port) (s : State) : Host.Outcome State Fault Refusal :=
  s.atAll t fun x => x.setOne p Obj.regionClear 1

/-- RADAR_DETECTED: the subchannels of a mask (R164). -/
def execRadarDetected (t mask : Nat) (s : State) : Host.Outcome State Fault Refusal := s.at t fun b => b.radar mask

/-- CAC_EXPIRY (R164). -/
def execCacExpiry (t : Nat) (s : State) : Host.Outcome State Fault Refusal := s.at t Block.cacEnd

/-- NOP_EXPIRY: the bar of a subchannel ends (R164). -/
def execNopExpiry (t sub : Nat) (s : State) : Host.Outcome State Fault Refusal := s.at t fun b => b.nopEnd sub

/-- TEST_MODE_WRITE: a port writes TEST_MODE of a radio (R165). -/
def execTestModeWrite (t : Nat) (p : Port) (r : Radio) (value : Nat) (s : State) : Host.Outcome State Fault Refusal :=
  s.atAll t fun x => x.setOne p (Obj.testMode.of r) value

end Sys2Proof.Machine
end

