-- ==== Sys2Proof/Machine/Dispatch.lean ====
section
/-!
DEFINITION. The dispatch of a command to its meaning: one arm for each constructor of `Instr`.
-/

namespace Sys2Proof.Machine

/-- The effect of a command on everything but the queue of commands. -/
def exec (i : Instr) (s : State) : Host.Outcome State Fault Refusal :=
  match i with
  | .vfurRise t activeWakes faults => Sys2Proof.Machine.execVfurRise t activeWakes faults s
  | .vfurFall t => Sys2Proof.Machine.execVfurFall t s
  | .rtcCrystalStable t => Sys2Proof.Machine.execRtcCrystalStable t s
  | .rtcCrystalStop t => Sys2Proof.Machine.execRtcCrystalStop t s
  | .pwrOkRise t => Sys2Proof.Machine.execPwrOkRise t s
  | .pwrOkFall t => Sys2Proof.Machine.execPwrOkFall t s
  | .pfwNAssert t => Sys2Proof.Machine.execPfwNAssert t s
  | .brownout t rail lowest dur => Sys2Proof.Machine.execBrownout t rail lowest dur s
  | .resetNRelease t => Sys2Proof.Machine.execResetNRelease t s
  | .warmReset t p done repaired => Sys2Proof.Machine.execWarmReset t p done repaired s
  | .coldReset t p => Sys2Proof.Machine.execColdReset t p s
  | .restoreDelayExpiry t done repaired => Sys2Proof.Machine.execRestoreDelayExpiry t done repaired s
  | .fabricStallExpiry t unit => Sys2Proof.Machine.execFabricStallExpiry t unit s
  | .unitSelfCheckFail t c => Sys2Proof.Machine.execUnitSelfCheckFail t c s
  | .ethLinkChange t port speed => Sys2Proof.Machine.execEthLinkChange t port speed s
  | .ethIdleExpiry t port => Sys2Proof.Machine.execEthIdleExpiry t port s
  | .radioIdleExpiry t r => Sys2Proof.Machine.execRadioIdleExpiry t r s
  | .dramIdleExpiry t => Sys2Proof.Machine.execDramIdleExpiry t s
  | .dramSelfRefreshExit t => Sys2Proof.Machine.execDramSelfRefreshExit t s
  | .chipIdleExpiry t => Sys2Proof.Machine.execChipIdleExpiry t s
  | .modeRequestHibernate t p => Sys2Proof.Machine.execModeRequestHibernate t p s
  | .modeRequestDayWatch t p => Sys2Proof.Machine.execModeRequestDayWatch t p s
  | .modeRequestFieldOnly t p => Sys2Proof.Machine.execModeRequestFieldOnly t p s
  | .modeRequestRelay t p => Sys2Proof.Machine.execModeRequestRelay t p s
  | .modeRequestFullService t p => Sys2Proof.Machine.execModeRequestFullService t p s
  | .modeRequestDegraded t p => Sys2Proof.Machine.execModeRequestDegraded t p s
  | .dawnDrainStart t => Sys2Proof.Machine.execDawnDrainStart t s
  | .drainAcceptanceClose t => Sys2Proof.Machine.execDrainAcceptanceClose t s
  | .drainGuardDeadline t => Sys2Proof.Machine.execDrainGuardDeadline t s
  | .drainComplete t => Sys2Proof.Machine.execDrainComplete t s
  | .duskAlarm t => Sys2Proof.Machine.execDuskAlarm t s
  | .wakeAlarmDelayExpiry t => Sys2Proof.Machine.execWakeAlarmDelayExpiry t s
  | .wakeEvent t source gpio => Sys2Proof.Machine.execWakeEvent t source gpio s
  | .railsGood t vioB33 => Sys2Proof.Machine.execRailsGood t vioB33 s
  | .railTimeoutExpiry t => Sys2Proof.Machine.execRailTimeoutExpiry t s
  | .maintNFitted t => Sys2Proof.Machine.execMaintNFitted t s
  | .maintNRemoved t => Sys2Proof.Machine.execMaintNRemoved t s
  | .presencePress t => Sys2Proof.Machine.execPresencePress t s
  | .presenceLongHold t => Sys2Proof.Machine.execPresenceLongHold t s
  | .presenceWindowExpiry t => Sys2Proof.Machine.execPresenceWindowExpiry t s
  | .presenceClose t p => Sys2Proof.Machine.execPresenceClose t p s
  | .sealCheck t word samples => Sys2Proof.Machine.execSealCheck t word samples s
  | .sealConfirmCheck t word samples => Sys2Proof.Machine.execSealConfirmCheck t word samples s
  | .sealEnableWrite t p sub value => Sys2Proof.Machine.execSealEnableWrite t p sub value s
  | .sealClear t p => Sys2Proof.Machine.execSealClear t p s
  | .keyHashProgram t p slot value readBackOk => Sys2Proof.Machine.execKeyHashProgram t p slot value readBackOk s
  | .revoke t p slot => Sys2Proof.Machine.execRevoke t p slot s
  | .rollbackSet t p value => Sys2Proof.Machine.execRollbackSet t p value s
  | .debugUnlock t p => Sys2Proof.Machine.execDebugUnlock t p s
  | .debugLock t p => Sys2Proof.Machine.execDebugLock t p s
  | .debugDisable t p => Sys2Proof.Machine.execDebugDisable t p s
  | .bindingWrite t p sub value => Sys2Proof.Machine.execBindingWrite t p sub value s
  | .dictWrite t p index sub row len value => Sys2Proof.Machine.execDictWrite t p index sub row len value s
  | .windowStore t n addr width value => Sys2Proof.Machine.execWindowStore t n addr width value s
  | .plaisRequest t p addr port msg => Sys2Proof.Machine.execPlaisRequest t p addr port msg s
  | .udpDatagramReceived t addr port msg => Sys2Proof.Machine.execUdpDatagramReceived t addr port msg s
  | .consoleFrameReceived t frame => Sys2Proof.Machine.execConsoleFrameReceived t frame s
  | .canSegmentReceived t ident data => Sys2Proof.Machine.execCanSegmentReceived t ident data s
  | .canMessageTimeout t src tidLo => Sys2Proof.Machine.execCanMessageTimeout t src tidLo s
  | .respCacheExpiry t p tid => Sys2Proof.Machine.execRespCacheExpiry t p tid s
  | .noticeRetryExpiry t p => Sys2Proof.Machine.execNoticeRetryExpiry t p s
  | .noticeAckReceived t p seq => Sys2Proof.Machine.execNoticeAckReceived t p seq s
  | .defaultsRestore t p value => Sys2Proof.Machine.execDefaultsRestore t p value s
  | .customerDeclare t p row sub len value => Sys2Proof.Machine.execCustomerDeclare t p row sub len value s
  | .ethFrameReceived t port pkt fcsOk pause => Sys2Proof.Machine.execEthFrameReceived t port pkt fcsOk pause s
  | .pauseRefresh t port => Sys2Proof.Machine.execPauseRefresh t port s
  | .ethModeWrite t p row value => Sys2Proof.Machine.execEthModeWrite t p row value s
  | .ethTxStart t port => Sys2Proof.Machine.execEthTxStart t port s
  | .ethTxEnd t port => Sys2Proof.Machine.execEthTxEnd t port s
  | .rxSyncConfirm t r branch seen => Sys2Proof.Machine.execRxSyncConfirm t r branch seen s
  | .rxHeaderDecoded t r head => Sys2Proof.Machine.execRxHeaderDecoded t r head s
  | .rxPpduEnd t r info mpdus => Sys2Proof.Machine.execRxPpduEnd t r info mpdus s
  | .landingDrain t r => Sys2Proof.Machine.execLandingDrain t r s
  | .classifyFrame t fid => Sys2Proof.Machine.execClassifyFrame t fid s
  | .flowIdleExpiry t row => Sys2Proof.Machine.execFlowIdleExpiry t row s
  | .bridgeAgeExpiry t row => Sys2Proof.Machine.execBridgeAgeExpiry t row s
  | .insert t p => Sys2Proof.Machine.execInsert t p s
  | .missTake t p => Sys2Proof.Machine.execMissTake t p s
  | .verdict t p value => Sys2Proof.Machine.execVerdict t p value s
  | .shaperRelease t shaper => Sys2Proof.Machine.execShaperRelease t shaper s
  | .txRingDoorbell t p row tail => Sys2Proof.Machine.execTxRingDoorbell t p row tail s
  | .rxRingFill t row => Sys2Proof.Machine.execRxRingFill t row s
  | .rxRingHeadWrite t p row head => Sys2Proof.Machine.execRxRingHeadWrite t p row head s
  | .samplePass t => Sys2Proof.Machine.execSamplePass t s
  | .maxOctetsRead t p sub row => Sys2Proof.Machine.execMaxOctetsRead t p sub row s
  | .histClear t p row => Sys2Proof.Machine.execHistClear t p row s
  | .flushQueue t p => Sys2Proof.Machine.execFlushQueue t p s
  | .flushStation t p => Sys2Proof.Machine.execFlushStation t p s
  | .flushNeighbour t p => Sys2Proof.Machine.execFlushNeighbour t p s
  | .flushCaneLink t p => Sys2Proof.Machine.execFlushCaneLink t p s
  | .flushAll t p => Sys2Proof.Machine.execFlushAll t p s
  | .abandonNoticePeriodEnd t dest code => Sys2Proof.Machine.execAbandonNoticePeriodEnd t dest code s
  | .abandonSummary t => Sys2Proof.Machine.execAbandonSummary t s
  | .gatherSelect t r users multiUser mimo dur picks => Sys2Proof.Machine.execGatherSelect t r users multiUser mimo dur picks s
  | .gatherSealDone t gid => Sys2Proof.Machine.execGatherSealDone t gid s
  | .gatherAgeExpiry t gid => Sys2Proof.Machine.execGatherAgeExpiry t gid s
  | .txCommand t r c => Sys2Proof.Machine.execTxCommand t r c s
  | .txCommit t r => Sys2Proof.Machine.execTxCommit t r s
  | .ppduFirstSample t r => Sys2Proof.Machine.execPpduFirstSample t r s
  | .ppduTxEnd t r detector => Sys2Proof.Machine.execPpduTxEnd t r detector s
  | .responseReceived t r acked mcs => Sys2Proof.Machine.execResponseReceived t r acked mcs s
  | .responseTimeout t r mcs => Sys2Proof.Machine.execResponseTimeout t r mcs s
  | .retryHoldExpiry t queue => Sys2Proof.Machine.execRetryHoldExpiry t queue s
  | .synthLock t r => Sys2Proof.Machine.execSynthLock t r s
  | .lockTimeoutExpiry t r => Sys2Proof.Machine.execLockTimeoutExpiry t r s
  | .lockLost t r => Sys2Proof.Machine.execLockLost t r s
  | .tuneWrite t p r sub value => Sys2Proof.Machine.execTuneWrite t p r sub value s
  | .tuneStart t r => Sys2Proof.Machine.execTuneStart t r s
  | .calSegmentStart t r kind chain ahead => Sys2Proof.Machine.execCalSegmentStart t r kind chain ahead s
  | .calSegmentEnd t r last => Sys2Proof.Machine.execCalSegmentEnd t r last s
  | .calStarveExpiry t r kind => Sys2Proof.Machine.execCalStarveExpiry t r kind s
  | .paSupplyRead t r mv => Sys2Proof.Machine.execPaSupplyRead t r mv s
  | .coexInChange t input level => Sys2Proof.Machine.execCoexInChange t input level s
  | .blankTailExpiry t source => Sys2Proof.Machine.execBlankTailExpiry t source s
  | .regionCommit t p crc => Sys2Proof.Machine.execRegionCommit t p crc s
  | .regionFlip t => Sys2Proof.Machine.execRegionFlip t s
  | .shadowLoad t r activeOk crcRead => Sys2Proof.Machine.execShadowLoad t r activeOk crcRead s
  | .shadowCrcCheck t r shadowOk activeOk crcRead => Sys2Proof.Machine.execShadowCrcCheck t r shadowOk activeOk crcRead s
  | .regionClear t p => Sys2Proof.Machine.execRegionClear t p s
  | .radarDetected t mask => Sys2Proof.Machine.execRadarDetected t mask s
  | .cacExpiry t => Sys2Proof.Machine.execCacExpiry t s
  | .nopExpiry t sub => Sys2Proof.Machine.execNopExpiry t sub s
  | .testModeWrite t p r value => Sys2Proof.Machine.execTestModeWrite t p r value s
  | .backoffSlot t r => Sys2Proof.Machine.execBackoffSlot t r s
  | .ccaBusy t r => Sys2Proof.Machine.execCcaBusy t r s
  | .csmaCcaEnd t busy draw => Sys2Proof.Machine.execCsmaCcaEnd t busy draw s
  | .ackWaitExpiry t => Sys2Proof.Machine.execAckWaitExpiry t s
  | .lowbandAckReceived t pending => Sys2Proof.Machine.execLowbandAckReceived t pending s
  | .dutyBinBoundary t => Sys2Proof.Machine.execDutyBinBoundary t s
  | .indirectEnqueue t nbr => Sys2Proof.Machine.execIndirectEnqueue t nbr s
  | .childPoll t nbr form seq ackAir => Sys2Proof.Machine.execChildPoll t nbr form seq ackAir s
  | .childPersistExpiry t fid => Sys2Proof.Machine.execChildPersistExpiry t fid s
  | .inactivityExpiry t who => Sys2Proof.Machine.execInactivityExpiry t who s
  | .guardExpiry t nbr interval => Sys2Proof.Machine.execGuardExpiry t nbr interval s
  | .lostPartnerListen t nbr heard => Sys2Proof.Machine.execLostPartnerListen t nbr heard s
  | .scanDwellEnd t nbr heard => Sys2Proof.Machine.execScanDwellEnd t nbr heard s
  | .scanIntervalExpiry t nbr => Sys2Proof.Machine.execScanIntervalExpiry t nbr s
  | .dwPoll t heard correction freq request => Sys2Proof.Machine.execDwPoll t heard correction freq request s
  | .dwTimeValidExpiry t => Sys2Proof.Machine.execDwTimeValidExpiry t s
  | .roundStart t r => Sys2Proof.Machine.execRoundStart t r s
  | .assocRequest t r bss addr uapsd => Sys2Proof.Machine.execAssocRequest t r bss addr uapsd s
  | .disassocReceived t row => Sys2Proof.Machine.execDisassocReceived t row s
  | .probeRequest t r ssid len => Sys2Proof.Machine.execProbeRequest t r ssid len s
  | .twtSetup t row sp broadcast => Sys2Proof.Machine.execTwtSetup t row sp broadcast s
  | .twtLeadStart t row => Sys2Proof.Machine.execTwtLeadStart t row s
  | .twtSpStart t row attended => Sys2Proof.Machine.execTwtSpStart t row attended s
  | .tbtt t r bss beacon => Sys2Proof.Machine.execTbtt t r bss beacon s
  | .ebSend t beacon => Sys2Proof.Machine.execEbSend t beacon s
  | .bssEnableWrite t p r bss value => Sys2Proof.Machine.execBssEnableWrite t p r bss value s
  | .kick t p row => Sys2Proof.Machine.execKick t p row s
  | .remove t p row => Sys2Proof.Machine.execRemove t p row s
  | .neighbourAdmit t p row addr => Sys2Proof.Machine.execNeighbourAdmit t p row addr s
  | .caneAckReceived t link strand header => Sys2Proof.Machine.execCaneAckReceived t link strand header s
  | .caneNackReceived t link strand header => Sys2Proof.Machine.execCaneNackReceived t link strand header s
  | .caneProbeReceived t link strand header => Sys2Proof.Machine.execCaneProbeReceived t link strand header s
  | .ackDelayExpiry t link => Sys2Proof.Machine.execAckDelayExpiry t link s
  | .holdTimeExpiry t link stream => Sys2Proof.Machine.execHoldTimeExpiry t link stream s
  | .resendTimeExpiry t fid => Sys2Proof.Machine.execResendTimeExpiry t fid s
  | .strandDeadTimeExpiry t link strand => Sys2Proof.Machine.execStrandDeadTimeExpiry t link strand s
  | .probeIntervalExpiry t link strand => Sys2Proof.Machine.execProbeIntervalExpiry t link strand s
  | .delete t p row => Sys2Proof.Machine.execDelete t p row s
  | .rekey t p row => Sys2Proof.Machine.execRekey t p row s
  | .keyWrite t p row value => Sys2Proof.Machine.execKeyWrite t p row value s
  | .erase t p row => Sys2Proof.Machine.execErase t p row s
  | .retiringKeyClear t row => Sys2Proof.Machine.execRetiringKeyClear t row s
  | .jobRun t p => Sys2Proof.Machine.execJobRun t p s
  | .jobDone t n => Sys2Proof.Machine.execJobDone t n s
  | .offsetIn t p dom value => Sys2Proof.Machine.execOffsetIn t p dom value s
  | .sourceWrite t p dom value => Sys2Proof.Machine.execSourceWrite t p dom value s
  | .sourceTimeoutExpiry t dom => Sys2Proof.Machine.execSourceTimeoutExpiry t dom s
  | .holdoverLimitExpiry t => Sys2Proof.Machine.execHoldoverLimitExpiry t s
  | .presentSelWrite t p value => Sys2Proof.Machine.execPresentSelWrite t p value s
  | .stepAllowWrite t p value => Sys2Proof.Machine.execStepAllowWrite t p value s
  | .presentSet t p value => Sys2Proof.Machine.execPresentSet t p value s
  | .rtcAlign t => Sys2Proof.Machine.execRtcAlign t s
  | .triggerFire t row => Sys2Proof.Machine.execTriggerFire t row s
  | .ppsOutFall t => Sys2Proof.Machine.execPpsOutFall t s
  | .triggerEnable t p row value => Sys2Proof.Machine.execTriggerEnable t p row value s
  | .lateRead t p row => Sys2Proof.Machine.execLateRead t p row s
  | .captureEdge t ch rising => Sys2Proof.Machine.execCaptureEdge t ch rising s
  | .captureTimeRead t p ch => Sys2Proof.Machine.execCaptureTimeRead t p ch s
  | .pop t p q => Sys2Proof.Machine.execPop t p q s
  | .overflowRead t p q => Sys2Proof.Machine.execOverflowRead t p q s
  | .timerReload t ch => Sys2Proof.Machine.execTimerReload t ch s
  | .timerCompare t ch => Sys2Proof.Machine.execTimerCompare t ch s
  | .timerPinCapture t ch => Sys2Proof.Machine.execTimerPinCapture t ch s
  | .timerCompareWrite t p ch value => Sys2Proof.Machine.execTimerCompareWrite t p ch value s
  | .timerPeriodWrite t p ch value => Sys2Proof.Machine.execTimerPeriodWrite t p ch value s
  | .globalGo t p => Sys2Proof.Machine.execGlobalGo t p s
  | .countLowRead t p pair => Sys2Proof.Machine.execCountLowRead t p pair s
  | .eventsRead t p ch => Sys2Proof.Machine.execEventsRead t p ch s
  | .dimLevelWrite t p out value => Sys2Proof.Machine.execDimLevelWrite t p out value s
  | .zxEdge t rising => Sys2Proof.Machine.execZxEdge t rising s
  | .zxTimeoutExpiry t => Sys2Proof.Machine.execZxTimeoutExpiry t s
  | .relayCommandWrite t p r value => Sys2Proof.Machine.execRelayCommandWrite t p r value s
  | .relaySwitch t r => Sys2Proof.Machine.execRelaySwitch t r s
  | .daliSubmit t p row value => Sys2Proof.Machine.execDaliSubmit t p row value s
  | .daliRowStart t => Sys2Proof.Machine.execDaliRowStart t s
  | .daliRowEnd t e => Sys2Proof.Machine.execDaliRowEnd t e s
  | .daliCollision t => Sys2Proof.Machine.execDaliCollision t s
  | .daliBusDown t => Sys2Proof.Machine.execDaliBusDown t s
  | .daliBusUp t => Sys2Proof.Machine.execDaliBusUp t s
  | .daliPoll t replies => Sys2Proof.Machine.execDaliPoll t replies s
  | .detectorEdge t d level => Sys2Proof.Machine.execDetectorEdge t d level s
  | .maxTravelExpiry t lane => Sys2Proof.Machine.execMaxTravelExpiry t lane s
  | .stuckTimeExpiry t d => Sys2Proof.Machine.execStuckTimeExpiry t d s
  | .intervalBoundary t => Sys2Proof.Machine.execIntervalBoundary t s
  | .recordHoldExpiry t => Sys2Proof.Machine.execRecordHoldExpiry t s
  | .adcScanEnd t raw => Sys2Proof.Machine.execAdcScanEnd t raw s
  | .adcPersistExpiry t ch high => Sys2Proof.Machine.execAdcPersistExpiry t ch high s
  | .cycleWindowExpiry t => Sys2Proof.Machine.execCycleWindowExpiry t s
  | .canFrameReceived t ident ide data => Sys2Proof.Machine.execCanFrameReceived t ident ide data s
  | .canBusOff t => Sys2Proof.Machine.execCanBusOff t s
  | .alarmClear t p row => Sys2Proof.Machine.execAlarmClear t p row s
  | .alarmRaiseWrite t p row value => Sys2Proof.Machine.execAlarmRaiseWrite t p row value s
  | .culletRecordWrite t => Sys2Proof.Machine.execCulletRecordWrite t s
  | .culletCrcWritten t => Sys2Proof.Machine.execCulletCrcWritten t s
  | .lehrPeriodExpiry t => Sys2Proof.Machine.execLehrPeriodExpiry t s
  | .lehrRun t p => Sys2Proof.Machine.execLehrRun t p s
  | .strainSweepDone t cells pmbusOk => Sys2Proof.Machine.execStrainSweepDone t cells pmbusOk s
  | .vcoreSettleExpiry t => Sys2Proof.Machine.execVcoreSettleExpiry t s
  | .vcoreLimitWrite t p sub value pmbusOk => Sys2Proof.Machine.execVcoreLimitWrite t p sub value pmbusOk s
  | .thermalCheck t ch8 dieH dieM dieL => Sys2Proof.Machine.execThermalCheck t ch8 dieH dieM dieL s
  | .wsScrub t e => Sys2Proof.Machine.execWsScrub t e s
  | .csWrite t p => Sys2Proof.Machine.execCsWrite t p s
  | .dramRequest t cls requester addr write ce ue => Sys2Proof.Machine.execDramRequest t cls requester addr write ce ue s
  | .dramAgePromote t id => Sys2Proof.Machine.execDramAgePromote t id s
  | .dramScrub t ch addr ce ue => Sys2Proof.Machine.execDramScrub t ch addr ce ue s
  | .dramRefresh t ch bank postpone => Sys2Proof.Machine.execDramRefresh t ch bank postpone s
  | .dramRetrainStart t ch => Sys2Proof.Machine.execDramRetrainStart t ch s
  | .dramRetrainDone t ch ok => Sys2Proof.Machine.execDramRetrainDone t ch ok s
  | .xspiReadTimeout t => Sys2Proof.Machine.execXspiReadTimeout t s
  | .xspiProgram t p => Sys2Proof.Machine.execXspiProgram t p s
  | .xspiSectorErase t p => Sys2Proof.Machine.execXspiSectorErase t p s
  | .xspiBlockErase t p => Sys2Proof.Machine.execXspiBlockErase t p s
  | .xspiOpDone t status => Sys2Proof.Machine.execXspiOpDone t status s
  | .swapGo t p => Sys2Proof.Machine.execSwapGo t p s
  | .swapEngineLoaded t => Sys2Proof.Machine.execSwapEngineLoaded t s
  | .swapWaitExpiry t => Sys2Proof.Machine.execSwapWaitExpiry t s
  | .bootConfirm t p => Sys2Proof.Machine.execBootConfirm t p s
  | .confirmTimeExpiry t => Sys2Proof.Machine.execConfirmTimeExpiry t s
  | .engineHalt t p n => Sys2Proof.Machine.execEngineHalt t p n s
  | .engineRun t p n => Sys2Proof.Machine.execEngineRun t p n s
  | .engineResume t p n => Sys2Proof.Machine.execEngineResume t p n s
  | .mouldRowWrite t p n row sub value => Sys2Proof.Machine.execMouldRowWrite t p n row sub value s
  | .engineEvent t n bit => Sys2Proof.Machine.execEngineEvent t n bit s
  | .wuntilTarget t n => Sys2Proof.Machine.execWuntilTarget t n s
  | .watchdogExpiry t n => Sys2Proof.Machine.execWatchdogExpiry t n s
  | .reservedInstruction n word => Sys2Proof.Machine.execReservedInstruction n word s
  | .nop n => Sys2Proof.Machine.execNop n s
  | .trap n code => Sys2Proof.Machine.execTrap n code s
  | .mcall n => Sys2Proof.Machine.execMcall n s
  | .xret n => Sys2Proof.Machine.execXret n s
  | .halt n => Sys2Proof.Machine.execHalt n s
  | .safept n => Sys2Proof.Machine.execSafept n s
  | .wdkick n => Sys2Proof.Machine.execWdkick n s
  | .fence n => Sys2Proof.Machine.execFence n s
  | .fenceS n => Sys2Proof.Machine.execFenceS n s
  | .fenceD n => Sys2Proof.Machine.execFenceD n s
  | .crd n rd cr => Sys2Proof.Machine.execCrd n rd cr s
  | .cwr n cr ra => Sys2Proof.Machine.execCwr n cr ra s
  | .add n rd ra rb => Sys2Proof.Machine.execAdd n rd ra rb s
  | .adc n rd ra rb => Sys2Proof.Machine.execAdc n rd ra rb s
  | .sub n rd ra rb => Sys2Proof.Machine.execSub n rd ra rb s
  | .sbc n rd ra rb => Sys2Proof.Machine.execSbc n rd ra rb s
  | .cmp n ra rb => Sys2Proof.Machine.execCmp n ra rb s
  | .and n rd ra rb => Sys2Proof.Machine.execAnd n rd ra rb s
  | .or n rd ra rb => Sys2Proof.Machine.execOr n rd ra rb s
  | .xor n rd ra rb => Sys2Proof.Machine.execXor n rd ra rb s
  | .shl n rd ra rb => Sys2Proof.Machine.execShl n rd ra rb s
  | .shr n rd ra rb => Sys2Proof.Machine.execShr n rd ra rb s
  | .sar n rd ra rb => Sys2Proof.Machine.execSar n rd ra rb s
  | .ror n rd ra rb => Sys2Proof.Machine.execRor n rd ra rb s
  | .clz n rd ra => Sys2Proof.Machine.execClz n rd ra s
  | .popc n rd ra => Sys2Proof.Machine.execPopc n rd ra s
  | .addi n rd ra imm => Sys2Proof.Machine.execAddi n rd ra imm s
  | .cmpi n ra imm => Sys2Proof.Machine.execCmpi n ra imm s
  | .andi n rd ra imm => Sys2Proof.Machine.execAndi n rd ra imm s
  | .ori n rd ra imm => Sys2Proof.Machine.execOri n rd ra imm s
  | .xori n rd ra imm => Sys2Proof.Machine.execXori n rd ra imm s
  | .shiShl n rd ra amount => Sys2Proof.Machine.execShiShl n rd ra amount s
  | .shiShr n rd ra amount => Sys2Proof.Machine.execShiShr n rd ra amount s
  | .shiSar n rd ra amount => Sys2Proof.Machine.execShiSar n rd ra amount s
  | .shiRor n rd ra amount => Sys2Proof.Machine.execShiRor n rd ra amount s
  | .movz n rd h imm => Sys2Proof.Machine.execMovz n rd h imm s
  | .movk n rd h imm => Sys2Proof.Machine.execMovk n rd h imm s
  | .mul n rd ra rb => Sys2Proof.Machine.execMul n rd ra rb s
  | .mulhu n rd ra rb => Sys2Proof.Machine.execMulhu n rd ra rb s
  | .mulhs n rd ra rb => Sys2Proof.Machine.execMulhs n rd ra rb s
  | .divu n rd ra rb => Sys2Proof.Machine.execDivu n rd ra rb s
  | .divs n rd ra rb => Sys2Proof.Machine.execDivs n rd ra rb s
  | .remu n rd ra rb => Sys2Proof.Machine.execRemu n rd ra rb s
  | .rems n rd ra rb => Sys2Proof.Machine.execRems n rd ra rb s
  | .ld64 n rd ra imm => Sys2Proof.Machine.execLd64 n rd ra imm s
  | .ld32u n rd ra imm => Sys2Proof.Machine.execLd32u n rd ra imm s
  | .ld32s n rd ra imm => Sys2Proof.Machine.execLd32s n rd ra imm s
  | .ld16u n rd ra imm => Sys2Proof.Machine.execLd16u n rd ra imm s
  | .ld16s n rd ra imm => Sys2Proof.Machine.execLd16s n rd ra imm s
  | .ld8u n rd ra imm => Sys2Proof.Machine.execLd8u n rd ra imm s
  | .ld8s n rd ra imm => Sys2Proof.Machine.execLd8s n rd ra imm s
  | .ldacq n rd ra imm => Sys2Proof.Machine.execLdacq n rd ra imm s
  | .st64 n rd ra imm => Sys2Proof.Machine.execSt64 n rd ra imm s
  | .st32 n rd ra imm => Sys2Proof.Machine.execSt32 n rd ra imm s
  | .st16 n rd ra imm => Sys2Proof.Machine.execSt16 n rd ra imm s
  | .st8 n rd ra imm => Sys2Proof.Machine.execSt8 n rd ra imm s
  | .strel n rd ra imm => Sys2Proof.Machine.execStrel n rd ra imm s
  | .cas n rd ra rb => Sys2Proof.Machine.execCas n rd ra rb s
  | .aadd n rd ra rb => Sys2Proof.Machine.execAadd n rd ra rb s
  | .aswap n rd ra rb => Sys2Proof.Machine.execAswap n rd ra rb s
  | .bCond n cond offset => Sys2Proof.Machine.execBCond n cond offset s
  | .jal n offset => Sys2Proof.Machine.execJal n offset s
  | .jalr n rd ra imm => Sys2Proof.Machine.execJalr n rd ra imm s
  | .wfe n => Sys2Proof.Machine.execWfe n s
  | .sev n ra => Sys2Proof.Machine.execSev n ra s
  | .wuntil n ra => Sys2Proof.Machine.execWuntil n ra s
  | .dadd n rd ra rb => Sys2Proof.Machine.execDadd n rd ra rb s
  | .daddX n rd ra rb => Sys2Proof.Machine.execDaddX n rd ra rb s
  | .dsub n rd ra rb => Sys2Proof.Machine.execDsub n rd ra rb s
  | .dsubX n rd ra rb => Sys2Proof.Machine.execDsubX n rd ra rb s
  | .dcmp n ra rb => Sys2Proof.Machine.execDcmp n ra rb s
  | .dadj n rd ra => Sys2Proof.Machine.execDadj n rd ra s
  | .mouldInstruction n m rd ra rb imm9 => Sys2Proof.Machine.execMouldInstruction n m rd ra rb imm9 s
  | .presenceNEdge t low => Sys2Proof.Machine.execPresenceNEdge t low s
  | .resetNAssert t => Sys2Proof.Machine.execResetNAssert t s
  | .busOffRecovery t => Sys2Proof.Machine.execBusOffRecovery t s
  | .pauseQuantaExpiry t port mask => Sys2Proof.Machine.execPauseQuantaExpiry t port mask s
  | .calPeriodExpiry t r kind tempStep => Sys2Proof.Machine.execCalPeriodExpiry t r kind tempStep s
  | .tapAccess t op => Sys2Proof.Machine.execTapAccess t op s
  | .tmrIoCountEdge t ch rising => Sys2Proof.Machine.execTmrIoCountEdge t ch rising s
  | .brownoutEnd t rail => Sys2Proof.Machine.execBrownoutEnd t rail s

end Sys2Proof.Machine
end

