-- ==== Sys2Proof/Safety.lean ====
section
/-!
DEFINITION. The terms that claims about the block are stated in: what a safe run is, what it is for a command to take
its effect, and for an engine to complete an instruction or take an exception.
-/

namespace Sys2Proof.Machine

/-- A run is safe when no number of steps ends in a fault or a refusal. -/
def State.safe (s : State) : Prop := ∀ k, ∃ t, Sys2Proof.core.run k s = .next t

/-- A command takes its effect: `exec` answers the state that the effect leaves, after the units have done by
themselves what it made due (`State.settle`). The effect leaves the queue, the general registers and the memory as
they are, and the block as `P` says. -/
def Takes (c : Instr) (s : State) (P : Block → Prop) : Prop :=
  ∃ u : State, exec c s = .next u.settle ∧ u.pending = s.pending ∧ u.regs = s.regs ∧ u.mem = s.mem ∧ P u.blk

/-- A timed command takes its effect on the block as it is when the command comes. RESET_N does not hold the block, or
the Furnace takes the command whatever RESET_N says (R499). -/
def TakesAt (c : Instr) (s : State) (t : Nat) (f : Block → Block) : Prop :=
  s.blk.frozen = false → Takes c s fun b => b = f (s.blk.tick t)

/-- A timed command of the Furnace takes its effect, whatever RESET_N says (R499). -/
def TakesInFurnace (c : Instr) (s : State) (t : Nat) (f : Block → Block) : Prop := Takes c s fun b => b = f (s.blk.tick t)

/-- The block after an access by a port has been counted and answered with a result and a value (R44, R51, R79). -/
def Block.answered (b : Block) (p : Port) (idx sub row code value : Nat) : Block :=
  ((b.account p code).stepCursor p idx sub row).emit (.result p code value)

/-- A command that is one write by a port, with what its command tells of the unit's surroundings (R44, R57): nothing
at a port that is not served; behind what holds the commit point it waits; a refusal of steps 1 to 10 is answered;
else `f` gives the result of step 11, which the port is answered, and what the write leaves, with the mark of a W1
object (R46). -/
def Writes (c : Instr) (s : State) (t : Nat) (p : Port) (idx sub row len v : Nat)
    (f : Block → Reg → Nat → Nat × Block) (act : Act := .plain) : Prop :=
  s.blk.frozen = false →
    (∀ b : Block, b = s.blk.tick t →
      (b.portOpen p = false → Takes c s fun x => x = b) ∧
      (b.portOpen p → b.pointIdle = false →
        Takes c s fun x => x = b.enqueueAsk (b.waitOf p (.write idx sub row len v act))) ∧
      (b.portOpen p → b.pointIdle →
        (∀ e, b.checkWrite p idx sub row len v = .error e → Takes c s fun x => x = b.answered p idx sub row e 0) ∧
        (∀ r k, b.checkWrite p idx sub row len v = .ok (r, k) →
          Takes c s fun x => x =
            (if (f b r k).1 = 0 then (f b r k).2.markUsed r k else (f b r k).2).answered p idx sub row (f b r k).1 0)))

/-- A command that is one read by a port (R44, R57, R407): nothing at a port that is not served; behind what holds the
commit point it waits; a refusal of steps 1 to 8 is answered; the slot of the cullet log that is being written holds
it; else `f` gives the value, which the port is answered with result OK, and what the read leaves. -/
def Reads (c : Instr) (s : State) (t : Nat) (p : Port) (idx sub row : Nat) (f : Block → Reg → Nat → Nat × Block) : Prop :=
  s.blk.frozen = false →
    (∀ b : Block, b = s.blk.tick t →
      (b.portOpen p = false → Takes c s fun x => x = b) ∧
      (b.portOpen p → b.pointIdle = false → Takes c s fun x => x = b.enqueueAsk (b.waitOf p (.read idx sub row))) ∧
      (b.portOpen p → b.pointIdle →
        (∀ e, b.checkAccess p idx sub row false = .error e → Takes c s fun x => x = b.answered p idx sub row e 0) ∧
        (b.meetsWrite p idx sub row → Takes c s fun x => x = b.hold (b.waitOf p (.read idx sub row))) ∧
        (∀ r k, b.checkAccess p idx sub row false = .ok (r, k) → b.meetsWrite p idx sub row = false →
          Takes c s fun x => x = (f b r k).2.answered p idx sub row 0 (f b r k).1)))

/-- The machine in which an engine executes an instruction: what left the block is shown no longer, and a fetch from
DRAM has ended self-refresh (R488). -/
def State.fetched (s : State) (n : Eng) : State :=
  ({ s with blk := s.blk.begin } : State).touch (s.blk.cpu n).pc.toNat

/-- An engine executes an instruction: it runs, neither RESET_N nor an entry into Hibernate holds it, and its fetch
raises no exception. -/
def State.ready (s : State) (n : Eng) : Prop :=
  (s.blk.cpu n).run = .running ∧ s.blk.stilled n = false ∧ s.blk.begin.fetchFault n = none

/-- From the machine `s0` in which it executes, an instruction completes: the register `rd` takes `v` (nothing where
it is g0), the engine's control state changes by `f`, RETIRED counts it, and every other register, engine, object and
octet of memory stays. -/
def CompletesFrom (i : Instr) (s s0 : State) (n : Eng) (rd : GReg) (v : Word) (f : Cpu → Cpu) : Prop :=
  ∃ t : State, exec i s = .next t ∧ t.pending = s.pending ∧ t.mem = s0.mem ∧
    (∀ m r, m < 12 → r < 32 → t.reg m r = if m = n.val ∧ r = rd.val ∧ r ≠ 0 then v else s0.reg m r) ∧
    t.blk = ({ s0.blk with cpus := s0.blk.cpus.modify n f } : Block).add (Obj.engRetired.eng n)

/-- An instruction of an engine completes from the machine as fetched. -/
def Completes (i : Instr) (s : State) (n : Eng) (rd : GReg) (v : Word) (f : Cpu → Cpu) : Prop :=
  CompletesFrom i s (s.fetched n) n rd v f

/-- The control state of an engine at the entry of an exception (R445): what EPC, ECAUSE, EADDR, EPRIV, EXL and EF
hold, and where the program goes on. -/
def entered (e : Exc) (eaddr : Word) (c : Cpu) : Cpu :=
  { c with
    epc := c.pc.setWidth 64, ecause := BitVec.ofNat 64 e.code, eaddr := eaddr, epriv := c.priv.num
    ef := c.flags.word.setWidth 8, exl := true, priv := e.handledAt c.priv
    pc := ((if e.handledAt c.priv = .m then Config.vectorM else c.xvec) + BitVec.ofNat 64 (0x40 * e.code)).setWidth 40 }

/-- From the machine `s0` in which it executes, an instruction takes an exception: the entry of R445, counted by R464,
with registers and memory as they are. -/
def ExceptsFrom (i : Instr) (s s0 : State) (n : Eng) (e : Exc) (eaddr : Word) : Prop :=
  ∃ t : State, exec i s = .next t ∧ t.pending = s.pending ∧ t.mem = s0.mem ∧ t.regs = s0.regs ∧
    t.blk = { s0.blk.countEntry n e with cpus := s0.blk.cpus.modify n (entered e eaddr) }

/-- An instruction of an engine takes an exception in the machine as fetched. -/
def Excepts (i : Instr) (s : State) (n : Eng) (e : Exc) (eaddr : Word) : Prop := ExceptsFrom i s (s.fetched n) n e eaddr

/-- A state with one more free value taken. -/
def State.drawn (s : State) : State := { s with blk := { s.blk with fresh := s.blk.fresh + 1 } }

end Sys2Proof.Machine
end

