-- ==== Sys2Proof/Certificates/Slice0/Obligations.lean ====
section
/-!
DEFINITION. The statements for the provers. A clause about a command of the block says what the command leaves before
the units do by themselves what it made due (`State.settle`, of which SettledStateStays tells); a clause about an
instruction of an engine gives the whole next state.
-/

open Sys2Proof Sys2Proof.Machine

namespace Sys2Proof.Claims

/-- The flags of an addition a + b + c (R443), over exact numbers. -/
def addFlags (f : Flags) (a b : Word) (c : Nat) : Flags :=
  { v := decide (a.toInt + b.toInt + c < -(2 ^ 63)) || decide (2 ^ 63 ≤ a.toInt + b.toInt + c)
    c := decide (2 ^ 64 ≤ a.toNat + b.toNat + c)
    z := decide ((a.toNat + b.toNat + c) % 2 ^ 64 = 0)
    n := decide (2 ^ 63 ≤ (a.toNat + b.toNat + c) % 2 ^ 64)
    h := decide (16 ≤ a.toNat % 16 + b.toNat % 16 + c)
    e := f.e }

/-- The flags of a subtraction a − b − k, k the borrow that comes in (R443): C is 1 when there is no borrow. -/
def subFlags (f : Flags) (a b : Word) (k : Nat) : Flags :=
  { v := decide (a.toInt - b.toInt - k < -(2 ^ 63)) || decide (2 ^ 63 ≤ a.toInt - b.toInt - k)
    c := decide (b.toNat + k ≤ a.toNat)
    z := decide ((a.toInt - b.toInt - k) % 2 ^ 64 = 0)
    n := decide (2 ^ 63 ≤ (a.toInt - b.toInt - k) % 2 ^ 64)
    h := decide (b.toNat % 16 + k ≤ a.toNat % 16)
    e := f.e }

/-- DCV after an addition (R437, R443): bit i is the carry out of nibble i, bit 16 is 0. -/
def addNibbles (d : BitVec 17) (a b : Word) (c : Nat) : Prop :=
  (∀ i : Fin 16, d.getLsbD i = decide (16 ^ (i.val + 1) ≤ a.toNat % 16 ^ (i.val + 1) + b.toNat % 16 ^ (i.val + 1) + c)) ∧
    d.getLsbD 16 = false

/-- DCV after a subtraction: bit i is 1 when nibble i borrows nothing, bit 16 is 1. -/
def subNibbles (d : BitVec 17) (a b : Word) (k : Nat) : Prop :=
  (∀ i : Fin 16, d.getLsbD i = decide (b.toNat % 16 ^ (i.val + 1) + k ≤ a.toNat % 16 ^ (i.val + 1))) ∧
    d.getLsbD 16 = true

/-- The control state after an instruction that changes only the flags. -/
def withFlags (f : Flags → Flags) (c : Cpu) : Cpu := { c with pc := c.pc + 4, flags := f c.flags }

/-- An addition completes: its result, its flags and DCV. -/
def Adds (i : Instr) (s : State) (n : Eng) (rd : GReg) (a b : Word) (c : Nat) : Prop :=
  ∃ d : BitVec 17, addNibbles d a b c ∧
    Completes i s n rd (BitVec.ofNat 64 (a.toNat + b.toNat + c)) fun x =>
      { x with pc := x.pc + 4, flags := addFlags x.flags a b c, dcv := d }

/-- A subtraction completes: its result, its flags and DCV. -/
def Subtracts (i : Instr) (s : State) (n : Eng) (rd : GReg) (a b : Word) (k : Nat) : Prop :=
  ∃ d : BitVec 17, subNibbles d a b k ∧
    Completes i s n rd (BitVec.ofInt 64 (a.toInt - b.toInt - k)) fun x =>
      { x with pc := x.pc + 4, flags := subFlags x.flags a b k, dcv := d }

/-- A result that sets Z and N, and V to the value given; C and H stay. -/
def zn (v : Bool) (r : Word) (f : Flags) : Flags := { f with z := decide (r = 0), n := r.msb, v := v }

/-- A command that is one write by a port, as `Writes` says of it, where the write that passes steps 1 to 10 acts on
the whole machine: `P` says what it then does. -/
def Asked (c : Instr) (s : State) (t : Nat) (p : Port) (idx sub row len v : Nat) (P : Reg → Nat → Prop) : Prop :=
  s.blk.frozen = false →
    (∀ b : Block, b = s.blk.tick t →
      (b.portOpen p = false → Takes c s fun x => x = b) ∧
      (b.portOpen p → b.pointIdle = false →
        Takes c s fun x => x = b.enqueueAsk (b.waitOf p (.write idx sub row len v .plain))) ∧
      (b.portOpen p → b.pointIdle →
        (∀ e, b.checkWrite p idx sub row len v = .error e → Takes c s fun x => x = b.answered p idx sub row e 0) ∧
        (∀ r k, b.checkWrite p idx sub row len v = .ok (r, k) → P r k)))

/-- The level of chip `k` of a seal check (R388): most significant bit first, one chip for each bit, or with
Manchester coding two, a 1 as high then low. -/
def chipAt (coding : Nat) (w : BitVec 16) (k : Nat) : Bool :=
  if coding = 1 then w.getLsbD (15 - k / 2) != decide (k % 2 = 1) else w.getLsbD (15 - k)

/-- A seal check passes: every sample matches its chip (R388). -/
def sealMatches (coding : Nat) (w : BitVec 16) (samples : List Bool) : Prop :=
  samples.length = (if coding = 1 then 32 else 16) ∧ ∀ k < samples.length, samples[k]? = some (chipAt coding w k)

/-- A word with at least 4 ones and at least 4 zeros (R388). -/
def sealWord (w : BitVec 16) : Prop :=
  4 ≤ (List.range 16).countP w.getLsbD ∧ (List.range 16).countP w.getLsbD ≤ 12

/-- A station, neighbour or link has departed (R121 code 1): nothing in its scope is held, and every other frame is. -/
def departed (scope target : Nat) (b x : Block) : Prop :=
  (∀ f ∈ x.frames, f.inScope scope target = false) ∧
    ∀ f ∈ b.frames, (∀ g ∈ b.frames, g.inScope scope target → g.id ≠ f.id) → ∃ g ∈ x.frames, g.id = f.id ∧ g.pkt = f.pkt

/-- The same frames are held, with their packets. -/
def sameFrames (b x : Block) : Prop := x.frames.map (fun f => (f.id, f.pkt)) = b.frames.map fun f => (f.id, f.pkt)

/-- An alarm row is evaluated (R356, R376): FE runs its units and the row is enabled. -/
def alarmsRun (b : Block) (row : Nat) : Prop := b.feRuns = true ∧ b.is Obj.alarmEnable row = true

/-- An instance of an alarm row is active: its bit of DETAIL (R376). -/
def alarmBit (b : Block) (row bit : Nat) : Bool := (b.get Obj.alarmDetail row).testBit bit

end Sys2Proof.Claims

open Sys2Proof.Claims

/-! ### The block as a whole -/

/-- A step is `exec` of the command at the front of the queue with the queue's rest; with none the block idles (the
model's choice, log entry 10). With nothing left for the units to do by themselves, `State.settle` changes nothing. -/
def Obligations.EachStepRunsTheCommandAtTheFront : Prop :=
  (∀ (c : Instr) (s : State), step { s with pending := c :: s.pending } = exec c s) ∧
    (∀ s : State, s.pending = [] → step s = .next s) ∧ ∀ s : State, s.blk.quiet → s.settle = s

/-- Before power comes (R82, R497): no command waits, the device is Off with every pin low, no engine runs, no frame is
held, and memory lists nothing, which is its canonical form. Where it goes past the manual it rests on the model's
choices of log entries 1, 2 and 15. -/
def Obligations.ResetIsTheDeviceWithoutPower : Prop :=
  let s := State.reset
  s.pending = [] ∧ s.blk.mode.mode = .off ∧ s.blk.mode.trans = .none ∧ s.blk.now = 0 ∧ s.blk.pins = {} ∧
    s.blk.pins.pwrOk = false ∧ s.blk.frames = [] ∧ s.blk.coreF = false ∧ s.blk.coreA = false ∧ s.mem = [] ∧
    memWf s.mem = true ∧ (∀ n < 12, (s.blk.cpu n).run = .off ∧ ∀ r < 32, s.reg n r = 0) ∧ ∀ n, s.blk.domainOn (engineDomain n) = false

/-- Every command completes, from every state: `exec` answers a next state in which the queue is as it was, a step takes
one command off it, and no run ends in a fault or a refusal. Where it goes past the manual it rests on the model's
choices of log entries 21 and 22. -/
def Obligations.EveryCommandCompletesAndKeepsTheQueue : Prop :=
  (∀ (c : Instr) (s : State), ∃ t, exec c s = .next t ∧ t.pending = s.pending) ∧
    (∀ s : State, ∃ t, step s = .next t ∧ t.pending = s.pending.tail) ∧ ∀ s : State, s.safe

/-- Every step keeps memory in its canonical form (R31, R467): addresses strictly rising, and no octet listed that holds
its blank value. Where it goes past the manual it rests on the model's choices of log entry 15. -/
def Obligations.EveryStepKeepsMemoryCanonical : Prop :=
  ∀ s t : State, memWf s.mem = true → step s = .next t → memWf t.mem = true

/-- Words and instructions (R440 to R442, R454, R457, R459): every instruction, with every operand at every value its
fields allow, is read back from its word, and a word that is no instruction's stays itself. Where it goes past the
manual it rests on the model's choices of log entry 50. -/
def Obligations.EveryInstructionIsReadBackFromItsWord : Prop :=
  (∀ (i : Instr) (n : Eng) (o : Op), opOf i = some (n, o) → (∀ w, o ≠ .reserved w) → decodeWord (encode o) = o) ∧
    ∀ w v : BitVec 32, decodeWord w = .reserved v → v = w

/-! ### Engines: arithmetic (R441, R443) -/

/-- ADD, ADC and ADDI, SUB, SBC, CMP and CMPI (R443): the result mod 2^64, Z and N from it, C the carry out of bit 63
or "no borrow", V signed overflow, H that of nibble 0, DCV the 16 nibble carries with KIND; ADC adds C, SBC takes one
more away where C is 0; the compares write no register. -/
def Obligations.AdditionsAndSubtractionsGiveResultsFlagsAndNibbles : Prop :=
  (∀ (s : State) (n : Eng), s.ready n →
    let a := fun r : GReg => (s.fetched n).reg n r
    let c := if ((s.fetched n).flags n).c then 1 else 0
    (∀ rd ra rb, Adds (.add n rd ra rb) s n rd (a ra) (a rb) 0) ∧
    (∀ rd ra rb, Adds (.adc n rd ra rb) s n rd (a ra) (a rb) c) ∧
    (∀ rd ra imm, Adds (.addi n rd ra imm) s n rd (a ra) (sext16 imm) 0)) ∧
  (∀ (s : State) (n : Eng), s.ready n →
    let a := fun r : GReg => (s.fetched n).reg n r
    let k := if ((s.fetched n).flags n).c then 0 else 1
    (∀ rd ra rb, Subtracts (.sub n rd ra rb) s n rd (a ra) (a rb) 0) ∧
    (∀ rd ra rb, Subtracts (.sbc n rd ra rb) s n rd (a ra) (a rb) k) ∧
    (∀ ra rb, Subtracts (.cmp n ra rb) s n 0 (a ra) (a rb) 0) ∧
    (∀ ra imm, Subtracts (.cmpi n ra imm) s n 0 (a ra) (sext16 imm) 0))


/-- AND, OR, XOR, their immediates, CLZ, POPC and the shifts (R441, R443): each bit of the result, Z and N from it, V
0, DCV and H unchanged; a shift takes its amount mod 64, and C is the last bit shifted out; an amount of 0 and the
others leave C. -/
def Obligations.LogicalInstructionsAndShiftsComplete : Prop :=
  (∀ (s : State) (n : Eng), s.ready n →
    let a := fun r : GReg => (s.fetched n).reg n r
    let out := fun (i : Instr) (rd : GReg) (p : Word → Prop) =>
      ∃ v : Word, p v ∧ Completes i s n rd v (withFlags (zn false v))
    (∀ rd ra rb, out (.and n rd ra rb) rd fun v => ∀ j, v.getLsbD j = ((a ra).getLsbD j && (a rb).getLsbD j)) ∧
    (∀ rd ra rb, out (.or n rd ra rb) rd fun v => ∀ j, v.getLsbD j = ((a ra).getLsbD j || (a rb).getLsbD j)) ∧
    (∀ rd ra rb, out (.xor n rd ra rb) rd fun v => ∀ j, v.getLsbD j = ((a ra).getLsbD j ^^ (a rb).getLsbD j)) ∧
    (∀ rd ra imm, out (.andi n rd ra imm) rd fun v => ∀ j, v.getLsbD j = ((a ra).getLsbD j && imm.getLsbD j)) ∧
    (∀ rd ra imm, out (.ori n rd ra imm) rd fun v => ∀ j, v.getLsbD j = ((a ra).getLsbD j || imm.getLsbD j)) ∧
    (∀ rd ra imm, out (.xori n rd ra imm) rd fun v => ∀ j, v.getLsbD j = ((a ra).getLsbD j ^^ imm.getLsbD j)) ∧
    (∀ rd ra, out (.clz n rd ra) rd fun v =>
      v.toNat ≤ 64 ∧ (∀ j, 64 - v.toNat ≤ j → (a ra).getLsbD j = false) ∧
        (v.toNat < 64 → (a ra).getLsbD (63 - v.toNat) = true)) ∧
    (∀ rd ra, out (.popc n rd ra) rd fun v => v.toNat = ((List.range 64).filter fun j => (a ra).getLsbD j).length)) ∧
  (∀ (s : State) (n : Eng), s.ready n →
    let a := fun r : GReg => (s.fetched n).reg n r
    let out := fun (i : Instr) (rd : GReg) (v : Word) (k : Nat) (last : Bool) =>
      Completes i s n rd v (withFlags fun f => zn false v { f with c := if k = 0 then f.c else last })
    let shl := fun (i : Instr) (rd : GReg) (x : Word) (k : Nat) =>
      ∃ v : Word, (∀ j, j < 64 → v.getLsbD j = (decide (k ≤ j) && x.getLsbD (j - k))) ∧ out i rd v k (x.getLsbD (64 - k))
    let shr := fun (i : Instr) (rd : GReg) (x : Word) (k : Nat) =>
      ∃ v : Word, (∀ j, j < 64 → v.getLsbD j = x.getLsbD (j + k)) ∧ out i rd v k (x.getLsbD (k - 1))
    let sar := fun (i : Instr) (rd : GReg) (x : Word) (k : Nat) =>
      ∃ v : Word, (∀ j, j < 64 → v.getLsbD j = if j + k < 64 then x.getLsbD (j + k) else x.msb) ∧
        out i rd v k (x.getLsbD (k - 1))
    let ror := fun (i : Instr) (rd : GReg) (x : Word) (k : Nat) =>
      ∃ v : Word, (∀ j, j < 64 → v.getLsbD j = x.getLsbD ((j + k) % 64)) ∧ out i rd v k (x.getLsbD (k - 1))
    (∀ rd ra rb, shl (.shl n rd ra rb) rd (a ra) ((a rb).toNat % 64)) ∧
    (∀ rd ra rb, shr (.shr n rd ra rb) rd (a ra) ((a rb).toNat % 64)) ∧
    (∀ rd ra rb, sar (.sar n rd ra rb) rd (a ra) ((a rb).toNat % 64)) ∧
    (∀ rd ra rb, ror (.ror n rd ra rb) rd (a ra) ((a rb).toNat % 64)) ∧
    (∀ rd ra (k : Fin 64), shl (.shiShl n rd ra k) rd (a ra) k) ∧
    (∀ rd ra (k : Fin 64), shr (.shiShr n rd ra k) rd (a ra) k) ∧
    (∀ rd ra (k : Fin 64), sar (.shiSar n rd ra k) rd (a ra) k) ∧
    (∀ rd ra (k : Fin 64), ror (.shiRor n rd ra k) rd (a ra) k))


/-- Multiplication and division (R441, R443): products from exact numbers, MULHU and MULHS changing no flag; division by 0
gives all ones for a quotient and the dividend for a remainder and sets V, and DIVS of −2^63 by −1 gives −2^63, V 1, with remainder
0. -/
def Obligations.MultiplicationAndDivisionComplete : Prop :=
  ∀ (s : State) (n : Eng), s.ready n →
    let a := fun r : GReg => (s.fetched n).reg n r
    let move := fun (c : Cpu) => { c with pc := c.pc + 4 }
    let edge := fun x y : Word => x.toInt = -(2 ^ 63) ∧ y.toInt = -1
    (∀ rd ra rb, Completes (.mul n rd ra rb) s n rd (BitVec.ofNat 64 ((a ra).toNat * (a rb).toNat)) (withFlags fun f =>
      zn (decide ((a ra).toInt * (a rb).toInt < -(2 ^ 63) ∨ 2 ^ 63 ≤ (a ra).toInt * (a rb).toInt))
        (BitVec.ofNat 64 ((a ra).toNat * (a rb).toNat)) f)) ∧
    (∀ rd ra rb, Completes (.mulhu n rd ra rb) s n rd (BitVec.ofNat 64 ((a ra).toNat * (a rb).toNat / 2 ^ 64)) move) ∧
    (∀ rd ra rb, Completes (.mulhs n rd ra rb) s n rd (BitVec.ofInt 64 ((a ra).toInt * (a rb).toInt / 2 ^ 64)) move) ∧
    (∀ rd ra rb, ∃ q : Word, (if a rb = 0 then q = BitVec.allOnes 64 else q.toNat = (a ra).toNat / (a rb).toNat) ∧
      Completes (.divu n rd ra rb) s n rd q (withFlags (zn (decide (a rb = 0)) q))) ∧
    (∀ rd ra rb, ∃ q : Word, (if a rb = 0 then q = BitVec.allOnes 64 else if edge (a ra) (a rb) then q.toInt = -(2 ^ 63)
        else q.toInt = (a ra).toInt.tdiv (a rb).toInt) ∧
      Completes (.divs n rd ra rb) s n rd q (withFlags (zn (decide (a rb = 0 ∨ edge (a ra) (a rb))) q))) ∧
    (∀ rd ra rb, ∃ q : Word, (if a rb = 0 then q = a ra else q.toNat = (a ra).toNat % (a rb).toNat) ∧
      Completes (.remu n rd ra rb) s n rd q (withFlags (zn (decide (a rb = 0)) q))) ∧
    (∀ rd ra rb, ∃ q : Word, (if a rb = 0 then q = a ra else q.toInt = (a ra).toInt.tmod (a rb).toInt) ∧
      Completes (.rems n rd ra rb) s n rd q (withFlags (zn (decide (a rb = 0)) q)))

/-! ### Engines: moves, branches and control registers (R437, R440, R441, R444) -/

/-- MOVZ, MOVK, the fences, NOP and WDKICK, the branches and the jumps (R437, R440, R441, R444, R449, R455): none
changes a flag, DCV or memory; FENCE and FENCE.D complete once the engine's window accesses are answered, and stand
until then; a branch is taken as COND says, to its own address plus four times the signed offset on 40 bits; after a
compare the conditions read as comparisons, and SKIP of a mould row takes the same COND. -/
def Obligations.MovesAndBranchesComplete : Prop :=
  ∀ (s : State) (n : Eng), s.ready n →
    let a := fun r : GReg => (s.fetched n).reg n r
    let c0 := (s.fetched n).blk.cpu n
    let on := fun (c : Cpu) => { c with pc := c.pc + 4 }
    let go := fun (target : BitVec 40) (c : Cpu) => { c with pc := target }
    let taken : Flags → BitVec 4 → Bool := fun f k =>
      match k.toNat with
      | 0 => f.z
      | 1 => f.c
      | 2 => f.n
      | 3 => f.v
      | 4 => f.c && !f.z
      | 5 => f.n == f.v
      | 6 => !f.z && f.n == f.v
      | 7 => f.e
      | 8 => !f.z
      | 9 => !f.c
      | 10 => !f.n
      | 11 => !f.v
      | 12 => !f.c || f.z
      | 13 => f.n != f.v
      | 14 => f.z || f.n != f.v
      | _ => true
    (∀ rd h imm, ∃ v : Word,
      (∀ j, j < 64 → v.getLsbD j = (decide (16 * h.val ≤ j ∧ j < 16 * h.val + 16) && imm.getLsbD (j - 16 * h.val))) ∧
      Completes (.movz n rd h imm) s n rd v on) ∧
    (∀ rd h imm, ∃ v : Word,
      (∀ j, j < 64 → v.getLsbD j =
        if 16 * h.val ≤ j ∧ j < 16 * h.val + 16 then imm.getLsbD (j - 16 * h.val) else (a rd).getLsbD j) ∧
      Completes (.movk n rd h imm) s n rd v on) ∧
    Completes (.nop n) s n 0 0 on ∧ Completes (.fenceS n) s n 0 0 on ∧
    ((s.fetched n).blk.windowBusy n = false → Completes (.fence n) s n 0 0 on ∧ Completes (.fenceD n) s n 0 0 on) ∧
    ((s.fetched n).blk.windowBusy n → exec (.fence n) s = .next (s.fetched n) ∧ exec (.fenceD n) s = .next (s.fetched n)) ∧
    Completes (.wdkick n) s n 0 0 (fun c => { c with pc := c.pc + 4, wdStart := (s.fetched n).blk.now }) ∧
    (∀ k (offset : BitVec 22), Completes (.bCond n k offset) s n 0 0
      (if taken c0.flags k then go (BitVec.ofInt 40 (c0.pc.toNat + 4 * offset.toInt)) else on)) ∧
    (∀ offset : BitVec 26, Completes (.jal n offset) s n 31 ((c0.pc + 4).setWidth 64)
      (go (BitVec.ofInt 40 (c0.pc.toNat + 4 * offset.toInt)))) ∧
    (∀ rd ra imm, Completes (.jalr n rd ra imm) s n rd ((c0.pc + 4).setWidth 64)
      (go (BitVec.ofInt 40 ((a ra).toNat + imm.toInt)))) ∧
    (∀ (m : MouldRun) (w : BitVec 32), uopOp w = 25 → m.uop n w =
      (.ok (if taken m.f0 (BitVec.ofNat 4 (uopA w)) then { m with skip := (uopImm w).toNat % 32 } else m), m)) ∧
    ∀ (f : Flags) (x y : Word),
      let holds := fun k => taken (subFlags f x y 0) k
      holds 0 = decide (x = y) ∧ holds 8 = decide (x ≠ y) ∧
        holds 4 = decide (y.toNat < x.toNat) ∧ holds 1 = decide (y.toNat ≤ x.toNat) ∧
        holds 9 = decide (x.toNat < y.toNat) ∧ holds 12 = decide (x.toNat ≤ y.toNat) ∧
        holds 6 = decide (y.toInt < x.toInt) ∧ holds 5 = decide (y.toInt ≤ x.toInt) ∧
        holds 13 = decide (x.toInt < y.toInt) ∧ holds 14 = decide (x.toInt ≤ y.toInt)

/-- CRD and CWR (R437): what each control register reads, what a write leaves in it, and the exception that an access
which the table does not allow raises: PRIV at A, ILLEGAL at F and M, with the instruction word in EADDR. Where it goes
past the manual it rests on the model's choices of log entry 108. -/
def Obligations.ControlRegistersReadAndWrite : Prop :=
  ∀ (s : State) (n : Eng), s.ready n →
    let c := (s.fetched n).blk.cpu n
    let shown : Nat → Word := fun k =>
      match k with
      | 0 => c.flags.word.setWidth 64
      | 1 => BitVec.ofNat 64 n.val
      | 2 => (s.fetched n).blk.tb n
      | 3 => c.eventSrc.setWidth 64
      | 4 => c.evmask.setWidth 64
      | 5 => c.dcv.setWidth 64
      | 8 => c.epc
      | 9 => c.ecause
      | 10 => c.eaddr
      | 11 => BitVec.ofNat 64 (c.epriv.toNat + (if c.exl then 4 else 0) + 256 * c.ef.toNat)
      | 12 => c.xvec
      | k => c.monitor.getD (k - 16) 0
    let readable : Nat → Bool := fun k =>
      k == 0 || k == 1 || k == 2 || k == 5 || (c.priv != .a && (k == 3 || k == 4 || (8 ≤ k && k ≤ 12))) ||
        (c.priv == .m && 16 ≤ k)
    let writable : Nat → Bool := fun k => readable k && k != 1 && k != 2
    let wrote (k : Nat) (v : Word) (x : Cpu) : Cpu :=
      match k with
      | 0 => { x with flags := { v := v.getLsbD 0, c := v.getLsbD 1, z := v.getLsbD 2, n := v.getLsbD 3, h := v.getLsbD 4,
                                 e := x.flags.e } }
      | 3 => { x with eventSrc := x.eventSrc &&& ~~~(v.setWidth 32) }
      | 4 => { x with evmask := v.setWidth 32 }
      | 5 => { x with dcv := v.setWidth 17 }
      | 8 => { x with epc := v }
      | 9 => { x with ecause := v }
      | 10 => { x with eaddr := v }
      | 11 => { x with epriv := (if v.toNat % 4 = 0 ∧ n ≠ 0 ∧ n ≠ 1 ∧ n ≠ 10 then 1 else v.setWidth 2)
                       exl := v.getLsbD 2, ef := BitVec.ofNat 8 (v.toNat / 256) }
      | 12 => { x with xvec := BitVec.ofNat 64 (v.toNat / 0x400 * 0x400) }
      | k => { x with monitor := x.monitor.set (k - 16) v }
    let e : Exc := if c.priv = .a then .priv else .illegal
    (∀ rd (k : Fin 32), readable k → Completes (.crd n rd k) s n rd (shown k) fun x => { x with pc := x.pc + 4 }) ∧
    (∀ (k : Fin 32) ra, writable k →
      Completes (.cwr n k ra) s n 0 0 fun x => { wrote k ((s.fetched n).reg n ra) x with pc := x.pc + 4 }) ∧
    (∀ rd (k : Fin 32), ¬ readable k → c.exl = false →
      Excepts (.crd n rd k) s n e ((encode (.crd rd k)).setWidth 64)) ∧
    (∀ (k : Fin 32) ra, ¬ writable k → c.exl = false →
      Excepts (.cwr n k ra) s n e ((encode (.cwr k ra)).setWidth 64))

/-! ### Engines: memory (R35, R436, R439, R441, R446, R451) -/

/-- The loads (R35, R436, R441, R446): the octets at the address, least significant first, zero- or sign-extended;
MISALIGN for an address that is not a multiple of the width, and the bus error where the map gives one, with the address
in EADDR. At a place that is not plain memory the value is what that place reads as. Where it goes past the manual it
rests on the model's choices of log entries 15, 109, 110, 169 and 170. -/
def Obligations.LoadsReadMemoryOrRaise : Prop :=
  ∀ (s : State) (n : Eng) (rd ra : GReg) (imm : BitVec 16), s.ready n →
    let s0 := s.fetched n
    let addr : Word := BitVec.ofInt 64 ((s0.reg n ra).toNat + imm.toInt)
    let a := addr.toNat
    let c := s0.blk.cpu n
    let load := fun (i : Instr) (k : Nat) (signed : Bool) =>
      (a % k ≠ 0 → c.exl = false → Excepts i s n .misalign addr) ∧
      (a % k = 0 → ∀ e, s0.blk.placeOf n c.priv .load a k = .error e → c.exl = false →
        ExceptsFrom i s (s0.errorAt e a) n e addr) ∧
      (a % k = 0 → ∀ p, s0.blk.placeOf n c.priv .load a k = .ok p → inWindow a = false →
        let d := (s0.touch a).readPlace p a k
        CompletesFrom i s d.2 n rd
          (if signed then BitVec.signExtend 64 (BitVec.ofNat (8 * k) (ofOctetsLE d.1)) else BitVec.ofNat 64 (ofOctetsLE d.1))
          fun x => { x with pc := x.pc + 4 }) ∧
      (a % k = 0 → s0.blk.placeOf n c.priv .load a k = .ok .plain → inWindow a = false →
        ∃ v : Word, (∀ j, j < 8 * k → v.getLsbD j = (memGet s0.mem (a + j / 8)).getLsbD (j % 8)) ∧
          (∀ j, 8 * k ≤ j → j < 64 → v.getLsbD j = (signed && (memGet s0.mem (a + k - 1)).getLsbD 7)) ∧
          CompletesFrom i s (s0.touch a) n rd v fun x => { x with pc := x.pc + 4 })
    load (.ld64 n rd ra imm) 8 false ∧ load (.ldacq n rd ra imm) 8 false ∧ load (.ld32u n rd ra imm) 4 false ∧
    load (.ld32s n rd ra imm) 4 true ∧ load (.ld16u n rd ra imm) 2 false ∧ load (.ld16s n rd ra imm) 2 true ∧
    load (.ld8u n rd ra imm) 1 false ∧ load (.ld8s n rd ra imm) 1 true

/-- The stores (R436, R441, R446, R450): the low octets of the register, least significant first, at the address that
a load would read; every other octet, every register, flag and engine stays. STREL stands until the engine's window
accesses are answered. -/
def Obligations.StoresWriteTheirOctetsAndNoOthers : Prop :=
  ∀ (s : State) (n : Eng) (rd ra : GReg) (imm : BitVec 16), s.ready n →
    let s0 := s.fetched n
    let addr := s0.memAddr n ra imm
    let a := addr.toNat
    let c := s0.blk.cpu n
    let store := fun (i : Instr) (k : Nat) =>
      (a % k ≠ 0 → c.exl = false → Excepts i s n .misalign addr) ∧
      (a % k = 0 → ∀ e, s0.blk.placeOf n c.priv .store a k = .error e → inWindow a = false → c.exl = false →
        Excepts i s n e addr) ∧
      (a % k = 0 → s0.blk.placeOf n c.priv .store a k = .ok .plain →
        ∃ t : State, exec i s = .next t ∧ t.pending = s.pending ∧ t.regs = s0.regs ∧
          (∀ j, j < k → memGet t.mem (a + j) = BitVec.ofNat 8 ((s0.reg n rd).toNat / 256 ^ j)) ∧
          (∀ x, x < a ∨ a + k ≤ x → memGet t.mem x = memGet s0.mem x) ∧
          t.blk = ({ (s0.touch a).blk with
            cpus := (s0.touch a).blk.cpus.modify n fun x => { x with pc := x.pc + 4 } } : Block).add (Obj.engRetired.eng n))
    store (.st64 n rd ra imm) 8 ∧ store (.st32 n rd ra imm) 4 ∧ store (.st16 n rd ra imm) 2 ∧ store (.st8 n rd ra imm) 1 ∧
    (s0.blk.windowBusy n = false → store (.strel n rd ra imm) 8) ∧
    (s0.blk.windowBusy n → exec (.strel n rd ra imm) s = .next s0)

/-- The atomics (R449, R451): each waits for the engine's window accesses to be answered. CAS writes rb where the word
equals rd, AADD the sum, ASWAP rb; each returns the old word in rd. An address that is not aligned to 8 raises MISALIGN,
and one outside the working store and the local memories UNMAPPED. Where it goes past the manual it rests on the model's
choices of log entry 109. -/
def Obligations.AtomicsReturnTheOldWord : Prop :=
  ∀ (s : State) (n : Eng) (rd ra rb : GReg), s.ready n →
    let s0 := s.fetched n
    let addr := s0.reg n ra
    let a := addr.toNat
    let c := s0.blk.cpu n
    let old : Word := BitVec.ofNat 64 (ofOctetsLE (memLoad s0.mem a 8))
    let atomic := fun (i : Instr) (new : Word) =>
      (a % 8 ≠ 0 → c.exl = false → Excepts i s n .misalign addr) ∧
      (a % 8 = 0 → ∀ e, s0.blk.placeOf n c.priv .atomic a 8 = .error e → c.exl = false → Excepts i s n e addr) ∧
      (a % 8 = 0 → s0.blk.placeOf n c.priv .atomic a 8 = .ok .plain →
        ∃ t : State, exec i s = .next t ∧ t.pending = s.pending ∧
          (∀ j, j < 8 → memGet t.mem (a + j) = BitVec.ofNat 8 (new.toNat / 256 ^ j)) ∧
          (∀ x, x < a ∨ a + 8 ≤ x → memGet t.mem x = memGet s0.mem x) ∧
          (∀ m r, m < 12 → r < 32 → t.reg m r = if m = n.val ∧ r = rd.val ∧ r ≠ 0 then old else s0.reg m r) ∧
          t.blk = ({ s0.blk with cpus := s0.blk.cpus.modify n fun x => { x with pc := x.pc + 4 } } : Block).add
            (Obj.engRetired.eng n))
    (s0.blk.windowBusy n → exec (.cas n rd ra rb) s = .next s0 ∧ exec (.aadd n rd ra rb) s = .next s0 ∧
      exec (.aswap n rd ra rb) s = .next s0) ∧
    (s0.blk.windowBusy n = false → atomic (.cas n rd ra rb) (if old = s0.reg n rd then s0.reg n rb else old) ∧
    atomic (.aadd n rd ra rb) (old + s0.reg n rb) ∧
    atomic (.aswap n rd ra rb) (s0.reg n rb)) ∧
    (c.priv ≠ .a → a % 8 = 0 → a < 2 ^ 40 → 0x40000 ≤ a → ¬ (0x10000000 ≤ a ∧ a < 0x10600000) →
      ¬ (0xE000000000 ≤ a ∧ a < 0xF000000000) → s0.blk.placeOf n c.priv .atomic a 8 = .error .unmapped)

/-! ### Engines: exceptions, waits and events (R438, R442, R445 to R447, R453, R454, R466) -/

/-- Taking an exception (R438, R439, R442, R445, R447): an engine that does not run executes nothing, one whose fetch
fails takes that exception; TRAP, MCALL, a reserved word and the instructions that A may not execute raise theirs, with
the entry that R445 describes, the open EADDR of TRAP and MCALL a free value; with EXL 1 the engine halts and its unit
is fenced with cause 3, shown for TRAP and for a reserved word. Where it goes past the manual it rests on the model's
choices of log entry 105. -/
def Obligations.ExceptionsAreEnteredAndDoubleOnesFence : Prop :=
  (∀ (s : State) (n : Eng), s.ready n →
    let s0 := s.fetched n
    let c := s0.blk.cpu n
    c.exl = false →
    let open_ : Word := BitVec.ofNat 64 (Config.freeNat s0.blk.fresh)
    (∀ word, Excepts (.reservedInstruction n word) s n (if c.priv = .a then .emulate else .illegal) (word.setWidth 64)) ∧
    (∀ code, ExceptsFrom (.trap n code) s s0.drawn n .trap open_) ∧
    (c.priv ≠ .a → ExceptsFrom (.mcall n) s s0.drawn n .mcall open_) ∧
    (c.priv = .a → Excepts (.mcall n) s n .priv (BitVec.ofNat 64 0x00000002) ∧
      Excepts (.xret n) s n .priv (BitVec.ofNat 64 0x00000003) ∧
      Excepts (.halt n) s n .priv (BitVec.ofNat 64 0x00000004))) ∧
  (∀ (s : State) (i : Instr) (n : Eng) (o : Op), opOf i = some (n, o) →
    let s1 : State := { s with blk := s.blk.begin }
    let c := s.blk.cpu n
    (c.run ≠ .running ∨ s.blk.stilled n → exec i s = .next s1) ∧
    (∀ e, c.run = .running → s.blk.stilled n = false → s.blk.begin.fetchFault n = some e → c.exl = false →
      ExceptsFrom i s (s1.errorAt e c.pc.toNat) n e (c.pc.setWidth 64))) ∧
  (∀ (s : State) (n : Eng) (code : BitVec 5) (word : BitVec 32), s.ready n → ((s.fetched n).blk.cpu n).exl = true →
    let ends (i : Instr) (s0 : State) : Prop :=
      ∃ u : State, exec i s = .next u.settle ∧ u.pending = s.pending ∧ u.mem = s0.mem ∧ u.regs = s0.regs ∧
        u.blk = ({ s0.blk with cpus := s0.blk.cpus.modify n fun x => { x with run := .halted } } : Block).fence n 3
    ends (.trap n code) (s.fetched n).drawn ∧ ends (.reservedInstruction n word) (s.fetched n)) ∧
  (∀ (w : Block) (n : Eng) (e : Exc) (addr : Word), (w.cpu n).exl = true →
    w.takeException n e addr = ({ w with cpus := w.cpus.modify n fun x => { x with run := .halted } } : Block).fence n 3) ∧
  ∀ w : Block, w.fence 11 3 = w.coldReset 5


/-- XRET (R437, R445): F from EF but for E, the privilege that EPRIV names, EXL clear, and on at EPC. Where it goes past
the manual it rests on the model's choices of log entries 49 and 106. -/
def Obligations.XretRestoresFlagsPrivilegeAndPlace : Prop :=
  ∀ (s : State) (n : Eng), s.ready n →
    let c := (s.fetched n).blk.cpu n
    c.priv ≠ .a → c.epriv ≠ 3 →
      Completes (.xret n) s n 0 0 fun x =>
        { x with
          flags := { v := x.ef.getLsbD 0, c := x.ef.getLsbD 1, z := x.ef.getLsbD 2, n := x.ef.getLsbD 3, h := x.ef.getLsbD 4
                     e := x.flags.e }
          priv := if c.epriv = 0 then .a else if c.epriv = 1 then .f else .m
          exl := false, pc := x.epc.setWidth 40 }

/-- HALT, SAFEPT, the waits and SEV (R438, R453, R454, R466): HALT stops the engine behind itself; SAFEPT is a NOP
without a swap request and halts with one; WFE consumes E or waits, WUNTIL keeps E and reports the time in C or waits,
not retired; without the E profile they are reserved (R442). SEV sets this engine's bit of EVENT_SRC in every engine
named whose domain is on, and E where EVMASK has the bit and the engine runs; engines not named keep their control
state. Where it goes past the manual it rests on the model's choices of log entries 49 and 107. -/
def Obligations.HaltSafeptWaitsAndEvents : Prop :=
  (∀ (s : State) (n : Eng), s.ready n →
    let s0 := s.fetched n
    let c := s0.blk.cpu n
    let profiled := (s0.blk.get (Obj.engProfiles.eng n)).testBit 0
    let waits (i : Instr) (r : Run) : Prop :=
      exec i s = .next { s0 with blk := { s0.blk with cpus := s0.blk.cpus.modify n fun x => { x with run := r } } }
    (c.priv ≠ .a → Completes (.halt n) s n 0 0 fun x => { x with pc := x.pc + 4, run := .halted }) ∧
    (c.swapReq = false → Completes (.safept n) s n 0 0 fun x => { x with pc := x.pc + 4 }) ∧
    (c.swapReq = true → ∃ t, exec (.safept n) s = .next t ∧ t.mem = s0.mem ∧ t.regs = s0.regs ∧
      t.blk.cpus = s0.blk.cpus.modify n (fun x => { x with pc := x.pc + 4, run := .halted, swapReq := false }) ∧
      t.blk.images.swap = s0.blk.images.swap.map fun w => { w with held := true }) ∧
    (profiled → c.flags.e = true → Completes (.wfe n) s n 0 0 (withFlags fun f => { f with e := false })) ∧
    (profiled → c.flags.e = false → waits (.wfe n) .wfe) ∧
    (∀ ra : GReg, profiled →
      let past := decide ((s0.blk.tb n - s0.reg n ra).toNat < 2 ^ 63)
      ((c.flags.e || past) = true → Completes (.wuntil n ra) s n 0 0 (withFlags fun f => { f with c := past })) ∧
      ((c.flags.e || past) = false → waits (.wuntil n ra) (.wuntil (s0.reg n ra)))) ∧
    (∀ ra : GReg, ¬ profiled → c.exl = false →
      Excepts (.wfe n) s n (if c.priv = .a then .emulate else .illegal) 0xE0000000#64 ∧
      Excepts (.wuntil n ra) s n (if c.priv = .a then .emulate else .illegal) ((encode (.wuntil ra)).setWidth 64))) ∧
  (∀ (s : State) (n : Eng) (ra : GReg), s.ready n →
    let s0 := s.fetched n
    let mask := (s0.reg n ra).toNat % 4096
    (s0.blk.get (Obj.engProfiles.eng n)).testBit 0 →
    ((s0.blk.cpu n).priv = .a → ∀ k, k < 12 → mask.testBit k → (s0.blk.get (Obj.engSevAllow.eng n)).testBit k) →
    s0.blk.cpus.length = 12 →
    ∃ t, exec (.sev n ra) s = .next t ∧ t.pending = s.pending ∧ t.mem = s0.mem ∧ t.regs = s0.regs ∧
      (∀ k, k < 12 → mask.testBit k → s0.blk.domainOn (engineDomain k) → (t.blk.cpu k).eventSrc.getLsbD n = true ∧
        ((s0.blk.cpu k).run = .running → (s0.blk.cpu k).evmask.getLsbD n = true → (t.blk.cpu k).flags.e = true)) ∧
      (∀ k, k < 12 → k ≠ n.val → ¬ mask.testBit k → t.blk.cpu k = s0.blk.cpu k))


/-! ### Engines: the D profile and moulds (R457 to R461) -/

/-- DADD, DADD.X, DSUB, DSUB.X, DCMP and DADJ (R457, R458): on digits 0 to 9 the decimal result mod 10^16, C the
decimal carry or "no borrow", N 0 or not C, V 0, and a digit above 9 raises BCD_DIGIT; DADJ adds 6 from digit 0 up
where a nibble carried or is above 9 after an addition, takes 6 away where one borrowed after a subtraction, C set by
a carry out of bit 63, H nibble carry 0, N and V 0. -/
def Obligations.DecimalInstructionsComputeAndAdjust : Prop :=
  (∀ (s : State) (n : Eng), s.ready n → n ≠ 11 → ((s.fetched n).blk.get (Obj.engProfiles.eng n)).testBit 1 →
    let s0 := s.fetched n
    let a := fun r : GReg => s0.reg n r
    let dig := fun (w : Word) (i : Nat) => w.toNat / 16 ^ i % 16
    let good := fun w : Word => ∀ i, i < 16 → dig w i ≤ 9
    let val := fun w : Word => ((List.range 16).map fun i => dig w i * 10 ^ i).sum
    let c := if ((s0.blk.cpu n).flags).c then 1 else 0
    let adds := fun (i : Instr) (rd ra rb : GReg) (k : Nat) => good (a ra) → good (a rb) →
      let t := val (a ra) + val (a rb) + k
      ∃ v : Word, good v ∧ val v = t % 10 ^ 16 ∧ Completes i s n rd v (withFlags fun f =>
        { f with c := decide (10 ^ 16 ≤ t), z := decide (t % 10 ^ 16 = 0), n := false, v := false })
    let subs := fun (i : Instr) (rd ra rb : GReg) (k : Nat) => good (a ra) → good (a rb) →
      ∃ v : Word, good v ∧ (val v : Int) = ((val (a ra) : Int) - val (a rb) - k) % 10 ^ 16 ∧
        Completes i s n rd v (withFlags fun f =>
          { f with c := decide (val (a rb) + k ≤ val (a ra)), z := decide (val v = 0), n := !decide (val (a rb) + k ≤ val (a ra))
                   v := false })
    let bad := fun (i : Instr) (ra rb : GReg) => ¬ (good (a ra) ∧ good (a rb)) → (s0.blk.cpu n).exl = false →
      ExceptsFrom i s s0.drawn n .bcdDigit (BitVec.ofNat 64 (Config.freeNat s0.blk.fresh))
    ∀ rd ra rb, adds (.dadd n rd ra rb) rd ra rb 0 ∧ adds (.daddX n rd ra rb) rd ra rb c ∧
      subs (.dsub n rd ra rb) rd ra rb 0 ∧ subs (.dsubX n rd ra rb) rd ra rb (1 - c) ∧ subs (.dcmp n ra rb) 0 ra rb 0 ∧
      bad (.dadd n rd ra rb) ra rb ∧ bad (.daddX n rd ra rb) ra rb ∧ bad (.dsub n rd ra rb) ra rb ∧
      bad (.dsubX n rd ra rb) ra rb ∧ bad (.dcmp n ra rb) ra rb) ∧
  (∀ (s : State) (n : Eng) (rd ra : GReg), s.ready n → n ≠ 11 →
    ((s.fetched n).blk.get (Obj.engProfiles.eng n)).testBit 1 →
    let s0 := s.fetched n
    let c0 := s0.blk.cpu n
    ∃ (r : Nat → Nat) (c : Nat → Bool), r 0 = (s0.reg n ra).toNat ∧ c 0 = c0.flags.c ∧
      (∀ i, i < 16 →
        let fix := if c0.dcv.getLsbD 16 then !c0.dcv.getLsbD i else c0.dcv.getLsbD i || decide (9 < r i / 16 ^ i % 16)
        let sum := r i + 6 * 16 ^ i
        r (i + 1) = (if fix then (if c0.dcv.getLsbD 16 then (r i + 2 ^ 64 - 6 * 16 ^ i) % 2 ^ 64 else sum % 2 ^ 64) else r i) ∧
        c (i + 1) = (c i || (fix && !c0.dcv.getLsbD 16 && decide (2 ^ 64 ≤ sum)))) ∧
      Completes (.dadj n rd ra) s n rd (BitVec.ofNat 64 (r 16)) (withFlags fun f =>
        { f with c := c 16, z := decide (r 16 = 0), h := c0.dcv.getLsbD 0, n := false, v := false }))


/-- Mould instructions (R442, R459, R461): EMULATE at A, reserved on GD and where the row is not VALID; a row of LENGTH
1 that adds A = ra and B = rb into rd without SETF completes with their sum, and a row of LENGTH 0 changes nothing;
EXECUTED counts both. Where it goes past the manual it rests on the model's choices of log entries 52 and 112. -/
def Obligations.MouldRowsRunAsOneInstruction : Prop :=
  ∀ (s : State) (n : Eng) (m : Fin 16) (rd ra rb : GReg) (imm : BitVec 9), s.ready n →
    let s0 := s.fetched n
    let c := s0.blk.cpu n
    let i : Instr := .mouldInstruction n m rd ra rb imm
    let word := (encode (.mouldInstruction m rd ra rb imm)).setWidth 64
    let valid := s0.blk.get (Obj.mouldValid.eng n) m ≠ 0
    let len := s0.blk.get (Obj.mouldLength.eng n) m
    let ends (rw : State) : Prop :=
      ∃ u : State, exec i s = .next u.settle ∧ u.pending = s.pending ∧ u.mem = s0.mem ∧ u.regs = rw.regs ∧
        u.blk = (({ s0.blk with cpus := s0.blk.cpus.modify n fun x => { x with pc := x.pc + 4 } } : Block).add
          (Obj.mouldExecuted.eng n) 1 m).add (Obj.engRetired.eng n)
    (c.exl = false → c.priv = .a → Excepts i s n .emulate word) ∧
    (c.exl = false → c.priv ≠ .a → n = 11 ∨ ¬ valid → Excepts i s n .illegal word) ∧
    (c.priv ≠ .a → n ≠ 11 → valid → len = 0 → ends s0) ∧
    (c.priv ≠ .a → n ≠ 11 → valid → len = 1 → uopWord (s0.blk.get (Obj.mouldUops.eng n) m) 0 = 0x0C4D0000#32 →
      ends (s0.setReg n rd (s0.reg n ra + s0.reg n rb)))

/-! ### Supplies, resets and faults (R21, R86, R90 to R92, R128 to R130, R488, R497 to R502, R520, R525) -/

/-- VFUR_RISE, VFUR_FALL and the RTC crystal (R47, R86, R388, R497, R525): whatever the MRAM holds, the Furnace starts
in Hibernate with the first seal check due at the first RTC tick, and an active presence input wakes it; without VFUR
nothing is left but MRAM, the fuses, the flash and the cullet log; the crystal changes RTC_SOURCE alone, where there is
power. Where it goes past the manual it rests on the model's choices of log entries 1, 163 and 216. -/
def Obligations.FurnaceSupplyCommands : Prop :=
  ∀ (s : State) (t active : Nat) (faults : List MramFault),
    let b := s.blk.tick t
    (b.mode.mode = .off → Takes (.vfurRise t active faults) s fun c =>
      c.mode.mode = .hibernate ∧ c.sealing.nextCheck = b.now + 9766 ∧
        (active = 0 → c.mode.trans = .none ∧ c.mode.waking = none) ∧
        (active.testBit 1 → c.mode.trans = .waking ∧ c.mode.waking = some b.now ∧ c.pins.mainEn = true)) ∧
    (b.mode.mode ≠ .off → Takes (.vfurRise t active faults) s fun c => c = b) ∧
    (Takes (.vfurFall t) s fun c =>
      c.mode = {} ∧ c.regs.stored = b.regs.stored ∧ c.regs.fuse = b.regs.fuse ∧ c.regs.retained = [] ∧ c.regs.live = [] ∧
        c.regs.furnace = [] ∧ c.frames = [] ∧ c.cpus = List.replicate 12 {} ∧ c.cullet.slots = b.cullet.slots ∧
        c.region.active = b.region.active) ∧
    (b.mode.mode ≠ .off →
      (Takes (.rtcCrystalStable t) s fun c => c = b.put Obj.rtcSource 1) ∧
      (Takes (.rtcCrystalStop t) s fun c => c = b.put Obj.rtcSource 0)) ∧
    (b.mode.mode = .off → (Takes (.rtcCrystalStable t) s fun c => c = b) ∧ (Takes (.rtcCrystalStop t) s fun c => c = b))

/-- PWR_OK, PFW_N and brown-outs (R86, R90, R103, R132, R360, R520). A fall of PWR_OK, or PFW_N, in a mains mode drops
the frames held, keeps their number in LOST_POWER_LAST, and takes the device to POWERFAIL_TARGET, with a notice owed
when that is Hibernate; in a mode without mains PFW_N changes nothing, and the fall only the pin, the chip idle timer
and the alarm ZX_MISSING, which ends. A rise of PWR_OK is held in a drain toward an unpowered mode, wakes the device
from Hibernate toward NIGHT_TARGET where WAKE_ENABLE has it, takes it there from Day Watch and Field Only, and in a
mains mode is only the pin's. A brown-out of a monitored rail counts, its rail is shown and kept low until its end; VIO
rails change no mode, and VCORE, VSRAM or VFUR make a cold reset with source 8 of a device that runs. Where it goes past
the manual it rests on the model's choices of log entries 73, 77 and 217. -/
def Obligations.PowerFailsAndBrownoutsAreHandled : Prop :=
  ∀ (s : State) (t rail lowest dur : Nat),
    let b := s.blk.tick t
    let note := [b.mode.mode.num, 1] ++ bytesBE 4 (b.get Obj.acceptedHeld)
    (b.mode.mode.mains → b.get Obj.powerfailTarget = 1 →
      (Takes (.pfwNAssert t) s fun x =>
        x.mode.mode = .hibernate ∧ x.mode.target = .hibernate ∧ x.mode.trans = .none ∧ x.mode.entry = none ∧
          x.mode.hibSince = b.now ∧ x.mode.powerFailOwed = some note ∧ x.pins.mainEn = false ∧ x.frames = [] ∧
          x.get Obj.lostPowerLast = b.get Obj.acceptedHeld) ∧
      (Takes (.pwrOkFall t) s fun x =>
        x.mode.mode = .hibernate ∧ x.mode.target = .hibernate ∧ x.mode.trans = .none ∧ x.mode.entry = none ∧
          x.mode.hibSince = b.now ∧ x.mode.powerFailOwed = some note ∧ x.pins.mainEn = false ∧ x.pins.pwrOk = false ∧
          x.frames = [] ∧ x.get Obj.lostPowerLast = b.get Obj.acceptedHeld)) ∧
    (b.mode.mode.mains → b.get Obj.powerfailTarget = 2 →
      (Takes (.pfwNAssert t) s fun x =>
        x.mode.mode = .dayWatch ∧ x.mode.trans = .none ∧ x.frames = [] ∧ x.get Obj.lostPowerLast = b.get Obj.acceptedHeld) ∧
      (Takes (.pwrOkFall t) s fun x =>
        x.mode.mode = .dayWatch ∧ x.mode.trans = .none ∧ x.pins.pwrOk = false ∧ x.frames = [] ∧
          x.get Obj.lostPowerLast = b.get Obj.acceptedHeld)) ∧
    (b.mode.mode.mains = false → b.mode.mode ≠ .maintenance →
      (Takes (.pfwNAssert t) s fun x => x = b) ∧
      (Takes (.pwrOkFall t) s fun x =>
        x.pins = { b.pins with pwrOk := false } ∧ x.mode = { b.mode with lastActivity := b.now } ∧ x.frames = b.frames ∧
          (alarmsRun b 5 → alarmBit x 5 0 = false))) ∧
    (b.drainHolds → Takes (.pwrOkRise t) s fun x =>
      x = { b with pins := { b.pins with pwrOk := true }, mode := { b.mode with held := setBit b.mode.held 3 } }) ∧
    (b.mode.mode = .hibernate → b.mode.drain = none → b.mode.entry = none → b.mode.waking = none → b.wakeEnabled 3 →
      Takes (.pwrOkRise t) s fun x =>
        x.pins.pwrOk = true ∧ x.pins.mainEn = true ∧ x.mode.mode = .hibernate ∧ x.mode.trans = .waking ∧ x.mode.waking = some b.now ∧
          x.mode.target = Mode.ofNum (b.get Obj.nightTarget) ∧ x.get Obj.wakeCause = 8) ∧
    (b.mode.mode = .fieldOnly → b.mode.drain = none → b.mode.entry = none → b.mode.trans = .none → b.recovery = false →
      b.get Obj.nightTarget = 4 → Takes (.pwrOkRise t) s fun x =>
        x.pins.pwrOk = true ∧ x.mode.mode = .relay ∧ x.mode.trans = .none) ∧
    (b.mode.mode = .dayWatch → b.mode.drain = none → b.mode.entry = none → b.mode.trans = .none → b.recovery = false →
      b.get Obj.nightTarget = 4 → Takes (.pwrOkRise t) s fun x =>
        x.pins.pwrOk = true ∧ x.mode.mode = .dayWatch ∧ x.mode.trans = .waking ∧ x.mode.target = .relay ∧
          x.boot.map (·.target) = some .relay) ∧
    (b.mode.mode.mains → b.mode.drain = none → b.mode.entry = none → Takes (.pwrOkRise t) s fun x =>
      x = { b with pins := { b.pins with pwrOk := true } }) ∧
    ((b.mode.mode = .off ∨ 7 ≤ rail ∨ (rail ≠ 2 ∧ b.pins.mainEn = false)) → Takes (.brownout t rail lowest dur) s fun x => x = b) ∧
    (b.mode.mode ≠ .off → b.pins.mainEn = true → 3 ≤ rail → rail < 7 → Takes (.brownout t rail lowest dur) s fun x =>
      x.mode = b.mode ∧ x.frames = b.frames ∧ rail ∈ x.pins.lowRails ∧ x.get Obj.lastBrownoutRail = rail ∧
        x.get Obj.brownouts = Obj.brownouts.raised (b.get Obj.brownouts + 1)) ∧
    (b.mode.mode ≠ .off → b.mode.mode ≠ .hibernate → rail ≤ 2 → (rail = 2 ∨ b.pins.mainEn = true) →
      Takes (.brownout t rail lowest dur) s fun x =>
        rail ∈ x.pins.lowRails ∧ x.mode.mode = .hibernate ∧ x.mode.trans = .waking ∧ x.mode.acc = {} ∧ x.get Obj.resetSource = 8 ∧
          x.get Obj.resetKind = 0 ∧ x.boot.map (·.kind) = some 0) ∧
    (Takes (.brownoutEnd t rail) s fun x =>
      x = { b with pins := { b.pins with lowRails := b.pins.lowRails.filter (· != rail) } })


/-- The resets (R130, R499, R500, R502): RESET_N low holds the device, and its release makes a cold reset with source 1
of a device that runs; a write of COLD_RESET makes one with source 3 unless accepted work is held, which answers BUSY; a
write of WARM_RESET makes a warm reset with source 2, and RESTORE_DELAY one with source 4 while the policy asks for it.
A cold reset closes acceptance and ends drains and entries; both kinds show their source and leave a start due. Where it
goes past the manual it rests on the model's choices of log entries 40, 42, 66 and 74. -/
def Obligations.ResetsLeaveAStartDueWithTheirSource : Prop :=
  ∀ (s : State) (t : Nat) (p : Port) (done : List Nat) (repaired : Nat),
    let b := s.blk.tick t
    let running := fun c : Block => c.mode.mode ≠ .off ∧ c.mode.mode ≠ .hibernate
    let cold := fun (source : Nat) (x : Block) =>
      x.mode.mode = .hibernate ∧ x.mode.trans = .waking ∧ x.mode.acc = {} ∧ x.mode.drain = none ∧ x.mode.entry = none ∧
        x.get Obj.resetSource = source ∧ x.get Obj.resetKind = 0 ∧ x.boot.map (·.kind) = some 0
    let warm := fun (source : Nat) (x : Block) =>
      x.get Obj.resetSource = source ∧ x.get Obj.resetKind = 1 ∧ x.boot.map (·.kind) = some 1
    (Takes (.resetNAssert t) s fun x => x = { b with pins := { b.pins with resetLow := true } }) ∧
    (running b → Takes (.resetNRelease t) s fun x => cold 1 x ∧ x.pins.resetLow = false) ∧
    (¬ running b → Takes (.resetNRelease t) s fun x => x = { b with pins := { b.pins with resetLow := false } }) ∧
    Writes (.coldReset t p) s t p 0x1600 4 noRow 1 1 (fun w _ _ =>
      if 0 < w.get Obj.acceptedHeld then (9, w) else (0, w.coldReset 3)) ∧
    (∀ c : Block, running c → cold 3 (c.coldReset 3)) ∧
    Writes (.warmReset t p done repaired) s t p 0x1600 3 noRow 1 1 (fun w _ _ => (0, w.warmReset 2 done repaired))
      (.warm done repaired) ∧
    (∀ c : Block, warm 2 (c.warmReset 2 done repaired)) ∧
    (s.blk.frozen = false → b.mayRestore → b.coreF → b.mode.entry = none →
      Takes (.restoreDelayExpiry t done repaired) s fun x => warm 4 x) ∧
    (s.blk.frozen = false → ¬ b.mayRestore → Takes (.restoreDelayExpiry t done repaired) s fun x => x = b)

/-- A stall and a failed self-check fence their unit (R21, R22, R24, R128, R131): its bits are set in FABRIC_FENCED
beside those that were, LAST_FENCED names it, LAST_FENCE_CAUSE is 1 for a stall, 4 for a radio or an Ethernet port and 6
for the boot flash. A stall of GD, or of the second unit of a pair that the device needs, makes a cold reset with source
5 or 7. A unit that is fenced already, or whose domain is off, is left as it is. Where it goes past the manual it rests
on the model's choices of log entries 67, 68 and 219. -/
def Obligations.FailedUnitsAreFenced : Prop :=
  ∀ (s : State) (t unit : Nat) (r : Radio) (port : Fin 2), s.blk.frozen = false →
    let b := s.blk.tick t
    let f := b.get Obj.fabricFenced
    (unit < 20 → unit ≠ 11 → b.domainOn (unitDomain unit) = true → f.testBit unit = false → b.coreF →
      pairFenced f unit = false → Takes (.fabricStallExpiry t unit) s fun x =>
        (∀ i, (x.get Obj.fabricFenced).testBit i = (f.testBit i || (unitBits unit).contains i)) ∧
          x.get Obj.lastFenced = unit ∧ x.get Obj.lastFenceCause = 1) ∧
    (unit < 20 → unit ≠ 11 → b.domainOn (unitDomain unit) = true → f.testBit unit = false → b.coreF →
      pairFenced f unit → Takes (.fabricStallExpiry t unit) s fun x =>
        x.mode.mode = .hibernate ∧ x.mode.trans = .waking ∧ x.mode.acc = {} ∧ x.get Obj.resetSource = 7) ∧
    (b.mode.mode ≠ .off → Takes (.fabricStallExpiry t 11) s fun x => x.mode.mode = .hibernate ∧ x.get Obj.resetSource = 5) ∧
    (20 ≤ unit ∨ b.domainOn (unitDomain unit) = false → Takes (.fabricStallExpiry t unit) s fun x => x = b) ∧
    (unit < 20 → unit ≠ 11 → f.testBit unit → (unit < 12 ∨ 14 < unit) → Takes (.fabricStallExpiry t unit) s fun x => x = b) ∧
    (b.domainOn (3 + radioNum r) = true → f.testBit (12 + radioNum r) = false →
      Takes (.unitSelfCheckFail t (.radio r)) s fun x =>
        (x.get Obj.fabricFenced).testBit (12 + radioNum r) = true ∧ (x.get Obj.fabricFenced).testBit (2 + radioNum r) = true ∧
          x.get Obj.lastFenced = 12 + radioNum r ∧ x.get Obj.lastFenceCause = 4) ∧
    (b.domainOn (3 + radioNum r) = false → Takes (.unitSelfCheckFail t (.radio r)) s fun x => x = b) ∧
    (b.domainOn 7 = true → f.testBit (17 + port.val) = false → Takes (.unitSelfCheckFail t (.ethernet port)) s fun x =>
        (x.get Obj.fabricFenced).testBit (17 + port.val) = true ∧ x.get Obj.lastFenced = 17 + port.val ∧
          x.get Obj.lastFenceCause = 4 ∧ x.fwd.line.getD port.val none = none) ∧
    (b.domainOn 7 = false → Takes (.unitSelfCheckFail t (.ethernet port)) s fun x => x = b) ∧
    (b.coreA → f.testBit 19 = false → Takes (.unitSelfCheckFail t .flash) s fun x =>
        (x.get Obj.fabricFenced).testBit 19 = true ∧ x.get Obj.lastFenced = 19 ∧ x.get Obj.lastFenceCause = 6) ∧
    (b.coreA = false ∨ f.testBit 19 → Takes (.unitSelfCheckFail t .flash) s fun x => x = b)

/-- The idle timers (R91, R92, R93, R488): a port whose link has been down and a radio that has been unused for their
times go to low power, a link change sets its speed or, where the link falls, forgets what paused it and starts the idle
time, the idle DRAM enters self-refresh and leaves it for a request, and an idle chip leaves Day Watch and Field Only
for Hibernate where CHIP_IDLE_MODES and the supply allow. A timer that has not run out changes nothing. Where it goes
past the manual it rests on the model's choices of log entry 78. -/
def Obligations.IdleTimersEnterLowPower : Prop :=
  ∀ (s : State) (t : Nat), s.blk.frozen = false →
    let b := s.blk.tick t
    (∀ (port : Fin 2) (speed : Nat), b.ethServes port.val → speed ≠ 0 → speedFits (b.get Obj.ethMode port) speed →
      Takes (.ethLinkChange t port speed) s fun x =>
        x = ({ b with fwd := { b.fwd with low := b.fwd.low.set port.val false } } : Block).put Obj.ethLink speed port) ∧
    (∀ port : Fin 2, b.ethServes port.val → b.fwd.line.getD port.val none = none → b.get Obj.ethLink port ≠ 0 →
      Takes (.ethLinkChange t port 0) s fun x =>
        x = ({ b with fwd := { b.fwd with
          paused := b.fwd.paused.set port.val [], xoff := b.fwd.xoff.set port.val (0, 0)
          downAt := b.fwd.downAt.set port.val b.now } } : Block).put Obj.ethLink 0 port) ∧
    (∀ port : Fin 2, b.ethServes port.val → b.get Obj.ethLink port = 0 →
      b.fwd.downAt.getD port.val 0 + secs (b.get Obj.ethIdle) ≤ b.now →
      Takes (.ethIdleExpiry t port) s fun x => x = { b with fwd := { b.fwd with low := b.fwd.low.set port.val true } }) ∧
    (∀ port : Fin 2, b.now < b.fwd.downAt.getD port.val 0 + secs (b.get Obj.ethIdle) →
      Takes (.ethIdleExpiry t port) s fun x => x = b) ∧
    (∀ r : Radio, r ≠ .l → b.radioOn r → b.radioAsked r = false → (b.radio r).inPpdu = false →
      (b.radio r).idleFrom + ms (b.get Obj.radioIdle) ≤ b.now →
      Takes (.radioIdleExpiry t r) s fun x =>
        x.get (Obj.synthState.of r) = 0 ∧
          x.radios = b.radios.modify (radioNum r) fun u => { u with low := true, freq := 0, seg := none }) ∧
    (∀ r : Radio, r = .l ∨ b.now < (b.radio r).idleFrom + ms (b.get Obj.radioIdle) →
      Takes (.radioIdleExpiry t r) s fun x => x = b) ∧
    (b.dramActive → b.dram.reqs = [] → b.dram.training = none → b.dram.entering = none →
      b.dram.idleFrom + us (b.get Obj.dramIdle) ≤ b.now → Takes (.dramIdleExpiry t) s fun x =>
        x = { b with dram := { b.dram with entering := some b.now } }) ∧
    (b.dram.waking → b.dram.up → b.get Obj.dramState = 2 →
      Takes (.dramSelfRefreshExit t) s fun x =>
        x.dram = { b.dram with waking := false, idleFrom := b.now } ∧ x.get Obj.dramSpreadNow = b.get Obj.dramSpread ∧
          x.get Obj.dramState = (if b.chFenced 0 || b.chFenced 1 then 4 else 1)) ∧
    (∀ m : Mode, m = .fieldOnly ∨ m = .dayWatch → b.mode.mode = m → b.mode.trans = .none → b.pins.pwrOk = false →
      (b.get Obj.chipIdleModes).testBit m.num → b.frames = [] →
      b.mode.lastActivity + secs (b.get Obj.chipIdleTime) ≤ b.now → Takes (.chipIdleExpiry t) s fun x =>
        x.mode.trans = .entering ∧ x.mode.target = .hibernate ∧ x.mode.entry = some { start := b.now } ∧
          x.mode.mode = m ∧ x.get Obj.entryAbandoned = 0) ∧
    (b.pins.pwrOk = true ∨ b.now < b.mode.lastActivity + secs (b.get Obj.chipIdleTime) →
      Takes (.chipIdleExpiry t) s fun x => x = b)

/-! ### Modes, the day cycle and wakes (R83 to R105, R498, R536) -/

/-- Mode requests (R60, R86, R87): each is one write of MODE_REQUEST. A request of the mode in force only reads back,
one under way for another target or without what it needs is BUSY, 6 outside Maintenance is out of RANGE, a mode without
mains traffic is reached through a drain, Relay opens to Full Service at once, PWR_OK lets the unpowered modes reach
Relay, and with nothing held they change among themselves and begin the entry into Hibernate. A request of MAINT_BASE
leaves Maintenance, one of 6 to Full Service where no unit is fenced. Where it goes past the manual it rests on the
model's choices of log entries 40, 41, 43 and 171. -/
def Obligations.ModeRequestsFollowTheTable : Prop :=
  (∀ (s : State) (t : Nat) (p : Port),
    (Writes (.modeRequestHibernate t p) s t p 0x1300 2 noRow 1 1 fun w _ _ => w.requestMode 1) ∧
    (Writes (.modeRequestDayWatch t p) s t p 0x1300 2 noRow 1 2 fun w _ _ => w.requestMode 2) ∧
    (Writes (.modeRequestFieldOnly t p) s t p 0x1300 2 noRow 1 3 fun w _ _ => w.requestMode 3) ∧
    (Writes (.modeRequestRelay t p) s t p 0x1300 2 noRow 1 4 fun w _ _ => w.requestMode 4) ∧
    (Writes (.modeRequestFullService t p) s t p 0x1300 2 noRow 1 5 fun w _ _ => w.requestMode 5) ∧
    (Writes (.modeRequestDegraded t p) s t p 0x1300 2 noRow 1 6 fun w _ _ => w.requestMode 6)) ∧
  ∀ w : Block,
    let m := w.mode.mode
    let base := w.get Obj.maintBase
    let drains := fun (v : Nat) (dawn : Bool) (to_ : Mode) =>
      (w.requestMode v).1 = 0 ∧ (w.requestMode v).2.mode.trans = .draining ∧ (w.requestMode v).2.mode.mode = m ∧
        (w.requestMode v).2.mode.acc = w.mode.acc ∧ (w.requestMode v).2.mode.drain =
          some { dawn := dawn, target := to_, start := w.now, deadline := w.now + secs (w.get Obj.drainLead) }
    (¬ (m = .maintenance ∧ base = 6) → w.requestMode 6 = (6, w)) ∧
    (∀ v, 1 ≤ v → v ≤ 5 → w.mode.trans ≠ .none → v ≠ w.mode.target.num → ¬ (v = 5 ∧ w.mode.target = .degraded) →
      w.requestMode v = (9, w)) ∧
    (∀ v, 1 ≤ v → v ≤ 5 → w.mode.trans = .none → v = m.num → w.requestMode v = (0, w.put Obj.modeRequest v)) ∧
    (∀ v, 1 ≤ v → v ≤ 5 → w.mode.trans = .none → m = .maintenance → v ≠ base → w.requestMode v = (9, w)) ∧
    (∀ v, 1 ≤ v → v ≤ 5 → w.mode.trans = .none → m = .maintenance → v = base →
      (w.requestMode v).1 = 0 ∧ (w.requestMode v).2.mode.mode = Mode.ofNum v) ∧
    (w.mode.trans = .none → m = .maintenance → base = 6 → w.get Obj.lehrStep ≠ 4 → (w.requestMode 6).1 = 0 ∧
      (w.requestMode 6).2.mode.mode = if w.get Obj.fabricFenced = 0 then .fullService else .degraded) ∧
    (∀ v, v = 4 ∨ v = 5 → w.mode.trans = .none → m ∈ [Mode.dayWatch, .fieldOnly] → w.pins.pwrOk = false →
      w.requestMode v = (9, w)) ∧
    (∀ v, 1 ≤ v → v ≤ 3 → w.mode.trans = .none → m.mains → drains v true (Mode.ofNum v)) ∧
    (w.mode.trans = .none → m ∈ [Mode.fullService, .degraded] → w.pins.pwrOk → drains 4 false .relay) ∧
    (w.mode.trans = .none → m = .relay → w.pins.pwrOk → w.get Obj.lehrStep ≠ 4 → (w.requestMode 5).1 = 0 ∧
      (w.requestMode 5).2.mode.mode = if w.get Obj.fabricFenced = 0 then .fullService else .degraded) ∧
    (w.mode.trans = .none → m = .fieldOnly → w.pins.pwrOk →
      (w.requestMode 4).1 = 0 ∧ (w.requestMode 4).2.mode.mode = .relay ∧ (w.requestMode 4).2.mode.trans = .none) ∧
    (w.mode.trans = .none → m = .dayWatch → w.pins.pwrOk →
      (w.requestMode 4).1 = 0 ∧ (w.requestMode 4).2.mode.trans = .waking ∧ (w.requestMode 4).2.mode.target = .relay ∧
        (w.requestMode 4).2.boot = some { kind := 3, left := .dayWatch, alive := .dayWatch, target := .relay, cause := 0 }) ∧
    (w.mode.trans = .none → m = .fieldOnly → w.frames = [] →
      (w.requestMode 2).1 = 0 ∧ (w.requestMode 2).2.mode.mode = .dayWatch ∧ (w.requestMode 2).2.mode.trans = .none) ∧
    (w.mode.trans = .none → m = .dayWatch → w.frames = [] →
      (w.requestMode 3).1 = 0 ∧ (w.requestMode 3).2.mode.trans = .waking ∧ (w.requestMode 3).2.mode.target = .fieldOnly) ∧
    (w.mode.trans = .none → m ∈ [Mode.dayWatch, .fieldOnly] → w.frames = [] → (w.requestMode 1).1 = 0 ∧
      (w.requestMode 1).2.mode.mode = m ∧ (w.requestMode 1).2.mode.trans = .entering ∧
        (w.requestMode 1).2.mode.entry = some { start := w.now })

/-- The dawn drain step by step (R86, R89, R94 to R97, R102): the schedule starts it toward DAY_TARGET, and a station
drain under way gives way to it; ANNOUNCE_TIME later acceptance closes on every ingress (a station drain closes the
stations' alone); DRAIN_GUARD before its end the guard abandons what is still held as a management flush and counts it,
but for frames whose acknowledgement has begun; with nothing left the device is in the target, or begins its entry into
Hibernate. Outside their conditions the commands change nothing. Where it goes past the manual it rests on the model's
choices of log entries 72, 174, 176 and 181. -/
def Obligations.DrainsRunTheirStepsInOrder : Prop :=
  ∀ (s : State) (t : Nat), s.blk.frozen = false →
    let b := s.blk.tick t
    (b.mode.mode.mains → b.mode.trans = .none ∧ b.mode.drain = none ∨ (∃ d, b.mode.drain = some d ∧ d.dawn = false) →
      b.drainTime → Takes (.dawnDrainStart t) s fun x =>
        x.mode.mode = b.mode.mode ∧ x.mode.trans = .draining ∧ x.mode.acc = b.mode.acc ∧ x.mode.drain = some
          { dawn := true, target := Mode.ofNum (b.get Obj.dayTarget), start := b.now
            deadline := b.now + (secs (b.get Obj.drainLead) - b.ticksInSecond), cause := 1 }) ∧
    (b.drainTime = false → Takes (.dawnDrainStart t) s fun x => x = b) ∧
    (∀ d, b.mode.drain = some d → d.closed = false → d.start + secs (b.get Obj.announceTime) ≤ b.now →
      Takes (.drainAcceptanceClose t) s fun x =>
        x.mode.drain = some { d with closedAt := some b.now } ∧
          x.mode.acc = if d.dawn then {} else { b.mode.acc with station := false }) ∧
    (∀ d, b.mode.drain = some d → d.closed ∨ b.now < d.start + secs (b.get Obj.announceTime) →
      Takes (.drainAcceptanceClose t) s fun x => x = b) ∧
    (∀ d, b.mode.drain = some d → d.closed → d.guardAt = none → d.deadline ≤ b.now + secs (b.get Obj.drainGuard) →
      Takes (.drainGuardDeadline t) s fun x =>
        let saved := radios3.flatMap (b.ackBegun b.now)
        let n := (b.frames.filter fun f => d.covers f && !saved.contains f.id).length
        x.mode.drain = some { d with guardAt := some b.now, flushed := d.flushed + n } ∧
          x.get Obj.drainFlushed = Obj.drainFlushed.raised (b.get Obj.drainFlushed + n) ∧
          ∀ f ∈ x.frames, d.covers f = false ∨ f.id ∈ saved) ∧
    (∀ d, b.mode.drain = some d → d.closed = false ∨ d.guardAt ≠ none ∨ b.now + secs (b.get Obj.drainGuard) < d.deadline →
      Takes (.drainGuardDeadline t) s fun x => x = b) ∧
    (∀ d, b.mode.drain = some d → d.closed → b.mode.mode.mains → (∀ f ∈ b.frames, d.covers f = false) →
      d.target ∈ [Mode.dayWatch, .fieldOnly, .relay] → Takes (.drainComplete t) s fun x =>
        x.mode.mode = d.target ∧ x.mode.trans = .none ∧ x.mode.drain = none) ∧
    (∀ d, b.mode.drain = some d → d.closed → b.mode.mode ≠ .maintenance → (∀ f ∈ b.frames, d.covers f = false) →
      d.target = .hibernate → b.heldWakes = 0 → Takes (.drainComplete t) s fun x =>
        x.mode.mode = b.mode.mode ∧ x.mode.trans = .entering ∧ x.mode.entry = some { start := b.now } ∧ x.mode.drain = none) ∧
    (∀ d f, b.mode.drain = some d → f ∈ b.frames → d.covers f → Takes (.drainComplete t) s fun x => x = b) ∧
    (b.mode.drain = none → (Takes (.drainAcceptanceClose t) s fun x => x = b) ∧
      (Takes (.drainGuardDeadline t) s fun x => x = b) ∧ (Takes (.drainComplete t) s fun x => x = b))

/-- Wakes and the wait for the rails (R86, R94, R95, R101, R102, R498, R500): the dusk alarm and WAKE_ALARM_DELAY are
the RTC's source 0, and with PWR_OK's event the pin itself rises. An enabled source wakes the device from Hibernate
toward its target, records its cause and raises MAIN_EN; before the commit point of an entry it abandons the entry,
after it it is held; a source that is not enabled, or comes in a running mode, does nothing as a wake. Rails good make a
start from Hibernate due, with a RESET record of source 9 counted among the cold ones, the level of VIO_B shown; the
time-out leaves the device in Hibernate with MAIN_EN 0 and a brown-out of rail 15; without a wake neither does anything.
Where it goes past the manual it rests on the model's choices of log entries 41, 71 and 174. -/
def Obligations.WakesFollowTheLatchAndRailsGoodStartsTheDevice : Prop :=
  (∀ (s : State) (t bit gpio : Nat),
    let b := s.blk.tick t
    let asleep := b.mode.entry = none ∧ b.mode.drain = none ∧ b.mode.mode = .hibernate ∧ b.mode.waking = none
    let late := b.get Obj.wakeAlarmDelay ≠ 0 ∧ b.mode.hibSince + secs (b.get Obj.wakeAlarmDelay) ≤ b.now
    (asleep → b.wakeEnabled 0 → b.duskTime → Takes (.duskAlarm t) s fun x =>
      x.mode.mode = .hibernate ∧ x.mode.trans = .waking ∧ x.mode.waking = some b.now ∧ x.pins.mainEn = true ∧
        x.mode.target = Mode.ofNum (b.get Obj.unpoweredTarget) ∧ x.get Obj.wakeCause = 1 ∧
        x.get Obj.wakeCount = Obj.wakeCount.raised (b.get Obj.wakeCount + 1)) ∧
    (b.duskTime = false ∨ b.wakeEnabled 0 = false → Takes (.duskAlarm t) s fun x => x = b) ∧
    (asleep → b.wakeEnabled 0 → late → Takes (.wakeAlarmDelayExpiry t) s fun x =>
      x.mode.mode = .hibernate ∧ x.mode.trans = .waking ∧ x.mode.waking = some b.now ∧ x.pins.mainEn = true ∧
        x.mode.target = Mode.ofNum (b.get Obj.unpoweredTarget) ∧ x.get Obj.wakeCause = 1 ∧
        x.get Obj.wakeCount = Obj.wakeCount.raised (b.get Obj.wakeCount + 1)) ∧
    (¬ late ∨ b.wakeEnabled 0 = false → Takes (.wakeAlarmDelayExpiry t) s fun x => x = b) ∧
    (asleep → b.wakeEnabled bit → (bit = 5 → b.gpioWakes gpio) → Takes (.wakeEvent t bit gpio) s fun x =>
      x.mode.mode = .hibernate ∧ x.mode.trans = .waking ∧ x.mode.waking = some b.now ∧ x.pins.mainEn = true ∧
        x.pins.pwrOk = (b.pins.pwrOk || decide (bit = 3)) ∧
        x.mode.target = Mode.ofNum (b.get (if bit = 3 then Obj.nightTarget else Obj.unpoweredTarget)) ∧
        x.get Obj.wakeCause = 2 ^ bit ∧ x.get Obj.wakeCount = Obj.wakeCount.raised (b.get Obj.wakeCount + 1)) ∧
    (∀ e, bit ≠ 3 → bit ≠ 5 → b.wakeEnabled bit → b.mode.entry = some e → e.committed = false →
      Takes (.wakeEvent t bit gpio) s fun x =>
        x.mode.mode = b.mode.mode ∧ x.mode.entry = none ∧ x.mode.trans = .none ∧ x.get Obj.entryAbandoned = 1) ∧
    (∀ e, bit ≠ 3 → bit ≠ 5 → b.wakeEnabled bit → b.mode.entry = some e → e.committed → Takes (.wakeEvent t bit gpio) s fun x =>
      x = { b with mode := { b.mode with held := setBit b.mode.held bit } }) ∧
    (bit ≠ 3 → b.wakeEnabled bit = false ∨ (bit = 5 ∧ b.gpioWakes gpio = false) ∨
        (b.mode.entry = none ∧ b.drainHolds = false ∧ b.mode.mode ≠ .hibernate) →
      Takes (.wakeEvent t bit gpio) s fun x => x = b)) ∧
  (∀ (s : State) (t : Nat) (vio : Bool),
    let b := s.blk.tick t
    (b.mode.mode = .hibernate → b.mode.waking ≠ none → Takes (.railsGood t vio) s fun x =>
      x.mode.mode = .hibernate ∧ x.mode.waking = none ∧ x.get Obj.resetSource = 9 ∧ x.get Obj.resetKind = 0 ∧
        x.get Obj.vioBLevel = (if vio then 1 else 0) ∧
        x.boot = some { kind := 0, left := .hibernate, alive := .hibernate, target := b.mode.target }) ∧
    (∀ w, b.mode.mode = .hibernate → b.mode.waking = some w → w + ms (b.get Obj.railTimeout) ≤ b.now →
      Takes (.railTimeoutExpiry t) s fun x =>
        x.mode.mode = .hibernate ∧ x.mode.waking = none ∧ x.mode.trans = .none ∧ x.pins.mainEn = false ∧
          x.boot = b.boot ∧ x.get Obj.lastBrownoutRail = 15 ∧
          x.get Obj.railFails = Obj.railFails.raised (b.get Obj.railFails + 1)) ∧
    (b.mode.mode ≠ .hibernate ∨ b.mode.waking = none →
      (Takes (.railsGood t vio) s fun x => x = b) ∧ (Takes (.railTimeoutExpiry t) s fun x => x = b)))

/-! ### Presence, the seal, keys and debug (R381 to R401) -/

/-- The presence window and the jumper (R86, R88, R103, R381 to R385): PRESENCE_N low for 0.5 s is one press, which
opens the window for PRESENCE_WINDOW and counts, or is held during a drain toward an unpowered mode; expiry, 10 s of low
and a write of PRESENCE_CLOSE close it; a held button must go high before another press. The jumper fitted while the
window is open, or a press while it is fitted, enters Maintenance with the mode left as its base; removing it goes back.
Outside their conditions the commands change nothing. Where it goes past the manual it rests on the model's choices of
log entries 43, 80, 174 and 175. -/
def Obligations.PresenceOpensTheWindowAndTheJumperMaintenance : Prop :=
  ∀ (s : State) (t : Nat) (p : Port),
    let b := s.blk.tick t
    let base := [Mode.fieldOnly, .relay, .fullService, .degraded]
    let enters := fun x : Block => x.mode.mode = .maintenance ∧ x.get Obj.maintBase = b.mode.mode.num
    (∀ w, b.mode.mode ≠ .off → b.pins.presenceStuck = false → b.pins.pressed = false → b.pins.presenceLow = some w →
      w + ms 500 ≤ b.now → b.drainHolds = false → Takes (.presencePress t) s fun x =>
        x.window = some (b.now + secs (b.get Obj.presenceWindow)) ∧ x.mode.lastActivity = b.now ∧ x.pins.pressed = true ∧
          x.get Obj.presenceSeq = Obj.presenceSeq.raised (b.get Obj.presenceSeq + 1) ∧
          (b.mode.mode ∈ base → b.mode.entry = none → b.mode.both = false → b.pins.maintFitted → enters x)) ∧
    (∀ w, b.mode.mode ≠ .off → b.pins.presenceStuck = false → b.pins.pressed = false → b.pins.presenceLow = some w →
      w + ms 500 ≤ b.now → b.drainHolds → b.mode.entry = none → Takes (.presencePress t) s fun x =>
        x = { b with pins := { b.pins with pressed := true }, mode := { b.mode with held := setBit b.mode.held 1 } }) ∧
    (b.mode.mode = .off ∨ b.pins.presenceStuck ∨ b.pins.pressed ∨ (∀ w, b.pins.presenceLow = some w → b.now < w + ms 500) →
      Takes (.presencePress t) s fun x => x = b) ∧
    (∀ w, b.mode.mode ≠ .off → b.pins.presenceStuck = false → b.pins.presenceLow = some w → w + secs 10 ≤ b.now →
      Takes (.presenceLongHold t) s fun x => x.window = none ∧ x.pins = { b.pins with presenceStuck := true }) ∧
    (b.mode.mode = .off ∨ b.pins.presenceStuck ∨ (∀ w, b.pins.presenceLow = some w → b.now < w + secs 10) →
      Takes (.presenceLongHold t) s fun x => x = b) ∧
    (∀ w, b.window = some w → w ≤ b.now → Takes (.presenceWindowExpiry t) s fun x =>
      x.window = none ∧ x.mode = { b.mode with both := false }) ∧
    ((∀ w, b.window = some w → b.now < w) → Takes (.presenceWindowExpiry t) s fun x => x = b) ∧
    Writes (.presenceClose t p) s t p 0x1100 5 noRow 1 1 (fun w _ _ => (0, w.closeWindow 2)) ∧
    (∀ (w : Block) (cause : Nat), (w.closeWindow cause).window = none) ∧
    (Takes (.presenceNEdge t true) s fun x =>
      x = { b with pins := { b.pins with presenceLow := some (b.pins.presenceLow.getD b.now) } }) ∧
    (Takes (.presenceNEdge t false) s fun x =>
      x = { b with pins := { b.pins with presenceLow := none, presenceStuck := false, pressed := false } }) ∧
    (b.pins.maintFitted = false → b.mode.mode ∈ base → b.mode.entry = none → b.mode.both = false → b.window ≠ none →
      Takes (.maintNFitted t) s fun x => enters x ∧ x.pins.maintFitted = true) ∧
    (b.pins.maintFitted = false → b.window = none → Takes (.maintNFitted t) s fun x =>
      x.mode.mode = b.mode.mode ∧ x.pins = { b.pins with maintFitted := true }) ∧
    (b.pins.maintFitted → b.mode.mode = .maintenance → b.get Obj.maintBase ∈ [3, 4, 5] →
      Takes (.maintNRemoved t) s fun x => x.mode.mode = Mode.ofNum (b.get Obj.maintBase) ∧ x.pins.maintFitted = false) ∧
    (b.pins.maintFitted → b.mode.mode ≠ .maintenance → Takes (.maintNRemoved t) s fun x =>
      x.mode.mode = b.mode.mode ∧ x.pins = { b.pins with maintFitted := false }) ∧
    (b.pins.maintFitted → Takes (.maintNFitted t) s fun x => x = b) ∧
    (b.pins.maintFitted = false → Takes (.maintNRemoved t) s fun x => x = b)

/-- The seal loop (R387 to R389): once its time has come, a check sends the chips of its word on SEAL_DRV and passes
when every sample matches its chip. A pass shows the seal intact, a failure asks for a confirming check 10 ms later,
whose failure is a seal event with its cause. While the seal is broken, three passes in a row show it intact and a
failure starts their count again. Every write of a seal setting makes a record, and clearing the trip is BUSY while the
seal is broken. Where it goes past the manual it rests on the model's choices of log entry 81. -/
def Obligations.SealChecksDecideTheSealState : Prop :=
  ∀ (s : State) (t : Nat) (p : Port) (word : BitVec 16) (samples : List Bool),
    let b := s.blk.tick t
    let able := b.mode.mode ≠ .off ∧ b.is Obj.sealEnable ∧ sealWord word
    let runs := able ∧ b.sealing.nextCheck ≤ b.now
    let confirms := able ∧ ∃ w, b.sealing.confirm = some w ∧ w ≤ b.now
    let pass := sealMatches (b.get Obj.sealCoding) word samples
    let next := b.sealing.nextCheck + ms (b.get Obj.sealPeriod)
    let broken := b.get Obj.sealState = 2
    (runs → ¬ broken → pass → Takes (.sealCheck t word samples) s fun x =>
      x.get Obj.sealState = 1 ∧ x.sealing = { confirm := none, passes := 0, nextCheck := next } ∧
        x.outs = b.outs ++ (List.range (if b.get Obj.sealCoding = 1 then 32 else 16)).map
          (fun k => Out.pin 1 (chipAt (b.get Obj.sealCoding) word k)) ++ [Out.pin 1 false]) ∧
    (runs → ¬ broken → ¬ pass → Takes (.sealCheck t word samples) s fun x =>
      x.get Obj.sealState = b.get Obj.sealState ∧
        x.sealing = { confirm := some (b.now + ms 10), passes := b.sealing.passes, nextCheck := next }) ∧
    (runs → broken → ¬ pass → Takes (.sealCheck t word samples) s fun x =>
      x.get Obj.sealState = 2 ∧ x.sealing = { confirm := b.sealing.confirm, passes := 0, nextCheck := next }) ∧
    (runs → broken → pass → b.sealing.passes < 2 → Takes (.sealCheck t word samples) s fun x =>
      x.get Obj.sealState = 2 ∧ x.sealing = { confirm := b.sealing.confirm, passes := b.sealing.passes + 1, nextCheck := next }) ∧
    (runs → broken → pass → 2 ≤ b.sealing.passes → Takes (.sealCheck t word samples) s fun x =>
      x.get Obj.sealState = 1 ∧ x.sealing = { confirm := none, passes := 0, nextCheck := next }) ∧
    (¬ runs → Takes (.sealCheck t word samples) s fun x => x = b) ∧
    (confirms → pass → Takes (.sealConfirmCheck t word samples) s fun x =>
      x.get Obj.sealState = 1 ∧ x.sealing.confirm = none) ∧
    (confirms → ¬ pass → b.drainHolds = false → Takes (.sealConfirmCheck t word samples) s fun x =>
      x.get Obj.sealState = 2 ∧ x.get Obj.sealTripped = 1 ∧ x.sealing.confirm = none ∧
        x.get Obj.sealEvents = Obj.sealEvents.raised (b.get Obj.sealEvents + 1) ∧
        x.get Obj.sealLastCause = if true ∉ samples then 1 else if false ∉ samples then 2 else 3) ∧
    (¬ confirms → Takes (.sealConfirmCheck t word samples) s fun x => x = b) ∧
    (∀ v, ∀ sub ∈ [1, 2, 3], Writes (.sealEnableWrite t p sub v) s t p 0x1101 sub noRow (b.sizeAt 0x1101 sub) v
      fun w r _ => (0, (w.put r v).sealConfig (r.sub == 1))) ∧
    (∀ (w : Block) (e : Bool),
      (w.sealConfig e).cullet = (w.post 0x0023 ([w.get Obj.sealEnable, w.get Obj.sealCoding, w.get Obj.sealSample, 0] ++
        bytesLE 2 (w.get Obj.sealPeriod))).cullet ∧
      (w.sealConfig e).get Obj.sealState = (if e then 0 else w.get Obj.sealState) ∧
      (w.sealConfig e).get Obj.sealTripped = w.get Obj.sealTripped ∧
      (w.is Obj.sealEnable → (w.sealConfig e).sealing.nextCheck = w.nextRtcTick)) ∧
    Writes (.sealClear t p) s t p 0x1101 7 noRow 1 1 (fun w _ _ => w.writeSealClear 1) ∧
    (∀ w : Block, w.get Obj.sealState = 2 → w.writeSealClear 1 = (9, w)) ∧
    (∀ w : Block, w.get Obj.sealState ≠ 2 → (w.writeSealClear 1).1 = 0 ∧ (w.writeSealClear 1).2.get Obj.sealTripped = 0)

/-- Key slots, anti-rollback, the debug port and identity bindings (R393, R395 to R399): a blank slot takes a hash and
the first burns SB_ENFORCED; a read-back that does not match leaves the slot in state 2, its hash a free value, and
answers BUSY; the last active slot and the slot in use are not revoked; ROLLBACK rises to at most the security version
that runs. DEBUG_UNLOCK opens a locked port, DEBUG_LOCK locks an unlocked one, DEBUG_DISABLE ends it for ever; a limited
TAP answers IDCODE and BYPASS and nothing else; no state reaches the fuses. A binding takes its value and counts in
BINDING_SEQ. Where it goes past the manual it rests on the model's choices of log entries 82, 83, 211 and 222. -/
def Obligations.FusesGoForwardAndTheDebugPortFollowsItsState : Prop :=
  ((∀ (s : State) (t slot v : Nat) (p : Port) (ok : Bool),
    Writes (.keyHashProgram t p slot v ok) s t p 0x1610 1 slot 32 v (fun w _ k => w.writeKeyHash k v ok) (.keyHash ok) ∧
    Writes (.revoke t p slot) s t p 0x1610 3 slot 1 1 (fun w _ k => w.writeRevoke k 1) ∧
    Writes (.rollbackSet t p v) s t p 0x1611 3 noRow 1 v (fun w _ _ => w.writeRollback v)) ∧
  ∀ (w : Block) (k v : Nat) (ok : Bool), k < 4 →
    (w.get Obj.slotKeyState k ≠ 0 → w.writeKeyHash k v ok = (9, w)) ∧
    (w.get Obj.slotKeyState k = 0 → w.writeKeyHash k 0 ok = (6, w)) ∧
    (w.get Obj.slotKeyState k = 0 → v ≠ 0 →
      let x := w.writeKeyHash k v ok
      x.1 = (if ok then 0 else 9) ∧ x.2.get Obj.slotKeyState k = (if ok then 1 else 2) ∧ x.2.is Obj.sbEnforced ∧
        x.2.get Obj.slotKeyHash k = (if ok then v else Config.freeNat w.fresh % 256 ^ 32) ∧
        (w.get Obj.debugState = 0 → x.2.get Obj.debugState = 1)) ∧
    Obj.slotRevoke.acc = .wop2 ∧
    ((∀ i < 4, i ≠ k → w.get Obj.slotKeyState i ≠ 1) ∨ w.get Obj.bootKeyUsed = k → w.writeRevoke k 1 = (9, w)) ∧
    (∀ i < 4, i ≠ k → w.get Obj.slotKeyState i = 1 → w.get Obj.bootKeyUsed ≠ k →
      (w.writeRevoke k 1).1 = 0 ∧ (w.writeRevoke k 1).2.get Obj.slotKeyState k = 2) ∧
    (w.get Obj.rollback < v → v ≤ w.get Obj.runningSecVersion →
      (w.writeRollback v).1 = 0 ∧ (w.writeRollback v).2.get Obj.rollback = v) ∧
    (v ≤ w.get Obj.rollback ∨ w.get Obj.runningSecVersion < v → w.writeRollback v = (6, w))) ∧
  (∀ (s : State) (t v : Nat) (p : Port),
    let b := s.blk.tick t
    Writes (.debugUnlock t p) s t p 0x1612 2 noRow 1 1 (fun w _ _ =>
      if w.get Obj.debugState = 3 then (9, w) else (0, if w.get Obj.debugState = 1 then w.debugSet 2 else w)) ∧
    Writes (.debugLock t p) s t p 0x1612 3 noRow 1 1 (fun w _ _ =>
      (0, if w.get Obj.debugState = 2 then w.debugSet 1 else w)) ∧
    Writes (.debugDisable t p) s t p 0x1612 4 noRow 1 1 (fun w _ _ => (0, (w.put Obj.debugDisable 1).debugSet 3)) ∧
    (∀ (w : Block) (n : Nat), (w.debugSet n).get Obj.debugState = n) ∧
    (∀ (w : Block) (n : Nat), w.get Obj.debugState = n → w.debugSet n = w) ∧
    (∀ sub ∈ [1, 2, 3], Writes (.bindingWrite t p sub v) s t p 0x1008 sub noRow (b.sizeAt 0x1008 sub) v
      fun w r _ => w.writeBinding r v) ∧
    (∀ (w : Block), ∀ r ∈ [Obj.assetTag, Obj.poleRef, Obj.ownerId],
      (w.writeBinding r v).1 = 0 ∧ (w.writeBinding r v).2.get r = v ∧
        (w.writeBinding r v).2.get Obj.bindingSeq = Obj.bindingSeq.raised (w.get Obj.bindingSeq + 1)) ∧
    (s.blk.frozen = false →
      (b.coreF → Takes (.tapAccess t .idcode) s fun x => x = b.emit (.tap (b.get Obj.jtagIdcode))) ∧
      (b.coreF → Takes (.tapAccess t .bypass) s fun x => x = b.emit (.tap 0)) ∧
      (∀ op, op ≠ .idcode → op ≠ .bypass → b.coreF = false ∨ b.get Obj.debugState ∈ [1, 3] →
        Takes (.tapAccess t op) s fun x => x = b) ∧
      (∀ n : Eng, b.coreF → b.get Obj.debugState ∈ [0, 2] → (b.cpu n).run = .running →
        Takes (.tapAccess t (.halt n)) s fun x => x = b.modCpu n fun c => { c with run := .halted }) ∧
      (∀ (n : Eng) (item : Nat), b.coreF → b.get Obj.debugState ∈ [0, 2] → item < 32 →
        Takes (.tapAccess t (.inspect n item)) s fun x => x = b.emit (.tap (s.reg n.val item).toNat)) ∧
      (∀ n : Eng, b.coreF → b.get Obj.debugState ∈ [0, 2] →
        Takes (.tapAccess t (.inspect n 32)) s fun x => x = b.emit (.tap (b.cpu n).pc.toNat)) ∧
      (∀ (a : Nat) (o : Octet), programsFuses a → Takes (.tapAccess t (.writeMem a o)) s fun x => x = b)))

/-! ### The dictionary and Plais (R41 to R81) -/

/-- The checks of a write come in the order of R44, the first that fails gives the result (R41, R43 to R46, R50, R61,
R70, R76): index, subindex, row, domain, right, peer rights, window, jumper and mode, length, range. Where it goes past
the manual it rests on the model's choices of log entries 60, 165 and 222. -/
def Obligations.ChecksComeInOrderAndTheFirstThatFailsDecides : Prop :=
  ∀ (w : Block) (p : Port) (idx sub row len v : Nat), w.mode.entry = none → w.recovery = false → w.plais.tier = none →
    (w.regsAt idx = [] → w.checkWrite p idx sub row len v = .error (if otherRadio idx then 2 else 1)) ∧
    (w.regsAt idx ≠ [] → sub ≠ 0 → (∀ r ∈ w.regsAt idx, r.sub ≠ sub) → w.checkWrite p idx sub row len v = .error 2) ∧
    (∀ r : Reg, w.find idx sub = .ok r → r.idx ≠ 0x6500 →
      let k := if row = noRow then w.get Obj.rowCursor (cursorLoc p) else row
      let place := if r.loc then portRow p r else if w.rowsOf r = 0 then 0 else k
      let shutCan := portNum p = 1 ∧ w.get Obj.canWriteEnable = 0
      let codes : List Nat :=
        [if w.rowsOf r ≠ 0 ∧ w.rowsOf r ≤ k then 11 else 0,
         if w.domainOn (ownerOf idx sub) then 0 else 10,
         if r.acc = .ro ∨ w.closedTo p r place ∨ shutCan then 3 else if r.acc = .w1 ∧ r.key place ∈ w.regs.used then 12 else 0,
         if w.linkPermits p idx true then 0 else 14,
         if r.acc ∈ [Access.rwp1, .rwp2, .wop2] ∧ w.window = none then 7 else 0,
         if r.acc ∈ [Access.rwp2, .wop2] ∧ ¬ (w.pins.maintFitted ∧ w.mode.mode = .maintenance) then 8 else 0,
         if len = r.size then 0 else 5,
         if r.inRange v then 0 else 6]
      w.checkWrite p idx sub row len v = match codes.find? (· ≠ 0) with
        | some e => .error e
        | none => .ok (r, place))

/-- Writes through the commit point and stores to the dictionary window (R44, R49, R51 to R53, R55, R57, R79, R81): a
write that a check refuses changes nothing but what counts it, one at a port that is not served does nothing, one that
passes has its object's effect; a restore of defaults visits the listed objects whose right and class it covers and
leaves each at its default. In the window, address bits give index and subindex; a value of up to 8 octets takes one
store of its width at offset 0, and every other store to it is an access with TYPE_LENGTH's empty value, which waits
like any other while the commit point has work; a store that the window refuses with a bus error takes the exception.
Where it goes past the manual it rests on the model's choices of log entries 47, 60, 64, 168 and 169. -/
def Obligations.WritesAndWindowStoresAreCheckedAndApplied : Prop :=
  (∀ (s : State) (t : Nat) (p : Port) (idx sub row len v : Nat),
    let b := s.blk.tick t
    (idx < 0x7200 → idx ≠ 0x4410 → ¬ (idx = 0x1620 ∧ sub = 3) → ¬ (idx = 0x1011 ∧ sub = 7) → ¬ (idx = 0x2C00 ∧ sub = 6) →
      Writes (.dictWrite t p idx sub row len v) s t p idx sub row len v fun w r k => w.applyWrite p r k v) ∧
    Writes (.dictWrite t p 0x1302 1 row 4 v) s t p 0x1302 1 row 4 v (fun w _ _ => (0, w.put Obj.chipIdleTime v)) ∧
    Writes (.dictWrite t p 0x1540 1 row 4 v) s t p 0x1540 1 row 4 v (fun w _ _ =>
      if 2 * w.get Obj.xspiTimeout + 100 ≤ v then (0, w.put Obj.fabricStallLimit v) else (6, w)) ∧
    Writes (.customerDeclare t p row sub len v) s t p 0x1022 sub row len v (fun w r k => w.writeCust r k v) ∧
    (∀ (w : Block) (r : Reg) (k : Nat), w.custObject k = none → (w.put r v k).custObject k = none →
      w.writeCust r k v = (0, w.put r v k)) ∧
    Writes (.defaultsRestore t p 0) s t p 0x1011 7 noRow 1 0 (fun w _ _ => (0, w)) ∧
    (s.blk.frozen = false → b.portOpen p = false → Takes (.defaultsRestore t p v) s fun x => x = b) ∧
    (s.blk.frozen = false → b.portOpen p → b.pointIdle → ∀ r k, v ≠ 0 → b.checkWrite p 0x1011 7 noRow 1 v = .ok (r, k) →
      ∃ u : State, exec (.defaultsRestore t p v) s = .next u.settle ∧
        let d := ({ s with blk := b } : State).restore p v
        d.1 = 0 ∧ u = { d.2 with blk := d.2.blk.answered p 0x1011 7 noRow 0 0 }) ∧
    (∀ (u : State) (all : Bool) (r : Reg) (k row : Nat), u.blk.ofKey k = some (r, row) →
      (restores all r → (u.restoreOne p all k).blk.get r row = r.default row) ∧
      (restores all r = false → u.restoreOne p all k = u)) ∧
    (∀ (all : Bool) (r : Reg), restores all r = true ↔
      (r.acc = .rw ∨ r.acc = .rwp1) ∧ r.home ≠ .fuse ∧ r.sub ≠ 0 ∧ (all ∨ r.idx < 0xA000))) ∧
  ((∀ (s : State) (t : Nat) (n : Eng) (a k v : Nat), s.blk.frozen = false →
    let x : State := { s with blk := s.blk.tick t }
    (inWindow a = false ∨ k = 0 ∨ (x.blk.cpu n).run ≠ .running → Takes (.windowStore t n a k v) s fun y => y = x.blk) ∧
    (inWindow a → k ≠ 0 → (x.blk.cpu n).run = .running →
      (∀ e, x.storeFault n a k = some e → exec (.windowStore t n a k v) s = .next (x.storeRaise n a e).settle) ∧
      (x.storeFault n a k = none → x.blk.placeOf n (x.priv n) .store a k = .ok .window →
        exec (.windowStore t n a k v) s = .next (x.windowStore n a k v).settle.settle))) ∧
  ∀ (x : State) (n : Eng) (idx sub off k v : Nat) (r : Reg), idx < 0x10000 → sub < 0x100 → off < 16 →
    let a := 0xF000000000 + idx * 0x1000 + sub * 0x10 + off
    let p := Port.engine n
    let y := x.blk.storeDrops n idx sub
    let len := if off = 0 ∧ k = r.size then k else 0
    let value := if off = 0 ∧ k = r.size then r.ofWindow (octetsLE k v) else 0
    inWindow a = true ∧ (x.blk.find idx sub = .ok r → r.size ≤ 8 →
      (y.pointIdle = false →
        x.windowStore n a k v = { x with blk := y.enqueueAsk (y.waitOf p (.write idx sub noRow len value .window)) }) ∧
      (y.pointIdle →
        (∀ e, y.checkWrite p idx sub noRow len value = .error e →
          x.windowStore n a k v = { x with blk := (y.account p e).stepCursor p idx sub noRow }) ∧
        (∀ q j, y.checkWrite p idx sub noRow len value = .ok (q, j) → idx < 0x7200 → idx ≠ 0x4410 →
          ¬ (idx = 0x1620 ∧ sub = 3) → ¬ (idx = 0x1011 ∧ sub = 7) → ¬ (idx = 0x2C00 ∧ sub = 6) →
          let e := y.applyWrite p q j value
          x.windowStore n a k v =
            { x with blk := ((if e.1 = 0 then e.2.markUsed q j else e.2).account p e.1).stepCursor p idx sub noRow }))))

/-- Messages on each transport (R10, R62 to R66, R69, R72, R74 to R76): a console frame of a message is that message, a
bad one is counted; a single segment on CAN FD is its message; a datagram that is too long or has no header is counted,
one that fails authentication is counted apart. A repeat within RESP_CACHE_TIME, or in the tick of its end, gets its
response again; one that comes while the first copy waits is held with it; a malformed request applies nothing. A
request that writes one object leaves it with its value, its response cached and sent. Where it goes past the manual it
rests on the model's choices of log entries 55, 56, 59, 61, 164 and 167. -/
def Obligations.RequestsAreAppliedOnceAndAnswered : Prop :=
  ∀ (s : State) (t addr port : Nat), s.blk.frozen = false →
    let b := s.blk.tick t
    let x : State := { s with blk := b }
    (∀ m, exec (.consoleFrameReceived t (consoleFrame m)) s = exec (.plaisRequest t .console addr port m) s) ∧
    (∀ f, b.coreF → b.pins.resetLow = false → consoleMessage f = none →
      Takes (.consoleFrameReceived t f) s fun y => y = b.add Obj.frameDiscard) ∧
    (∀ m, b.coreF → b.pins.resetLow = false → m.length < 6 →
      Takes (.plaisRequest t .console addr port m) s fun y => y = b.add Obj.frameDiscard) ∧
    (∀ (h : Header) (body : List Octet), b.coreF → b.pins.resetLow = false → h.type = 0 → h.long = false → h.keyId = 0 →
      h.counter = 0 → h.tid < 65536 → h.len < 65536 →
      exec (.plaisRequest t .console addr port (h.octets ++ body)) s =
        .next (x.request .console .console 0 h body (h.fits body.length)).settle) ∧
    (∀ (u : State) (p : Port) (to_ : Reply) (row : Nat) (h : Header) (body : List Octet) (fits : Bool),
      (∀ c, u.blk.cached p h.tid = some c → u.request p to_ row h body fits =
        { u with blk := (u.blk.add Obj.dupRequest).sendReply to_ row 1 h.tid c.msg h.sec }) ∧
      (∀ c, u.blk.cached p h.tid = none → u.blk.joinRepeat p to_ h = some c → u.request p to_ row h body fits = { u with blk := c }) ∧
      (u.blk.cached p h.tid = none → u.blk.joinRepeat p to_ h = none → fits = false → u.request p to_ row h body fits =
        { u with blk := (u.blk.cacheResponse p h.tid malformedAnswer).sendReply to_ row 1 h.tid malformedAnswer h.sec }) ∧
      ((u.blk.cacheResponse p h.tid body).cached p h.tid = some ⟨sourceOf p, h.tid, u.blk.now, body⟩)) ∧
    (∀ (u : State) (tid v : Nat), u.blk.plais.waiting = [] → u.blk.region.commit = none → u.blk.mode.entry = none →
      u.blk.recovery = false → u.blk.coreF → u.blk.boot = none → u.blk.cached .console tid = none → 10 ≤ v → v ≤ 86400 →
      let o : OpRec := { op := 2, idx := 0x1302, sub := 1, row := noRow, off := 0, dlen := 4, value := octetsBE 4 v }
      let body := [2#8, 0#8, 0x13#8, 0x02#8, 1#8, 0#8] ++ octetsBE 4 noRow ++ octetsBE 2 0 ++ octetsBE 2 4 ++ octetsBE 4 v
      let z := (u.request .console .console 0 { type := 0, tid := tid, len := 18 } body true).blk
      z.get Obj.chipIdleTime = v ∧ z.cached .console tid = some ⟨.console, tid, u.blk.now, o.answer 0 []⟩ ∧
        z.outs = u.blk.outs ++
          [.console (consoleFrame (({ type := 1, tid := tid, len := 14 } : Header).octets ++ o.answer 0 []))]) ∧
    (∀ (ident : Nat) (d : List Octet), let src := ident / 2 ^ 10 % 128
      b.feRuns → b.get Obj.busState < 2 → b.is Obj.fdEnable ∨ d.length ≤ 8 → b.canIsPlais ident true → b.portOpen (.can src) →
      ident / 2 ^ 17 % 128 = b.get Obj.canNode → ident / 2 ^ 24 % 4 = 0 → ident / 16 % 32 = 0 → ident.testBit 9 → src ≠ 0 →
      b.asmOf src (ident % 16) = none →
      exec (.canSegmentReceived t ident d) s =
        .next (({ s with blk := b.active } : State).plaisRequest (.can src) addr port (canMessage d)).settle) ∧
    (∀ m, b.portOpen (.udp 0) → 1424 < m.length →
      Takes (.udpDatagramReceived t addr port m) s fun y => y = b.add Obj.frameDiscard) ∧
    (∀ m h, b.portOpen (.udp 0) → m.length ≤ 1424 → Header.parse true m = some h →
      b.authentic h m = none → Takes (.udpDatagramReceived t addr port m) s fun y => y = b.add Obj.authDiscard) ∧
    (∀ m h l c, b.portOpen (.udp 0) → m.length ≤ 1424 → Header.parse true m = some h →
      b.authentic h m = some (l, c) → h.type = 0 → exec (.udpDatagramReceived t addr port m) s =
        .next (({ s with blk := c } : State).request (.udp (b.speaker h)) (.udp addr port) (b.speaker h) h l
          (h.fits (m.length - 16))).settle)

/-- The timers of Plais and notice acknowledgements (R66, R76, R78): 100 ms after its segment 0 an incomplete CAN FD
message is discarded and counted, a cached response whose time has passed is dropped, NOTICE_RETRY after its last
sending the oldest notice that waits for its acknowledgement is sent again, and an acknowledgement covers what was sent
up to its SEQ and nothing else. Where it goes past the manual it rests on the model's choices of log entry 57. -/
def Obligations.PlaisTimersAndNoticeAcknowledgements : Prop :=
  ∀ (s : State) (t : Nat) (p : Port) (d : Dest), s.blk.frozen = false → portDest p = some d →
    let b := s.blk.tick t
    let q := b.plais.queueOf d
    let life := secs (b.get Obj.respCacheTime)
    (∀ src tid a, b.asmOf src tid = some a → a.start + ms 100 ≤ b.now → Takes (.canMessageTimeout t src tid) s fun x =>
      x.asmOf src tid = none ∧ x.get Obj.frameDiscard = Obj.frameDiscard.raised (b.get Obj.frameDiscard + 1)) ∧
    (∀ src tid, (∀ a, b.asmOf src tid = some a → b.now < a.start + ms 100) → Takes (.canMessageTimeout t src tid) s fun x => x = b) ∧
    (∀ tid, Takes (.respCacheExpiry t p tid) s fun x =>
      (∀ c ∈ x.plais.cache, c.src = sourceOf p → c.tid = tid → b.now - c.at_ < life) ∧
        (∀ c ∈ b.plais.cache, b.now - c.at_ < life → c ∈ x.plais.cache) ∧
        ∀ p2 k, (sourceOf p2, k) ≠ (sourceOf p, tid) → x.cached p2 k = b.cached p2 k) ∧
    ((∀ n ∈ q.queue, n.sentAt = none) → Takes (.noticeRetryExpiry t p) s fun x => x = b) ∧
    (∀ n w to_, q.queue.find? (fun n => n.sentAt.isSome) = some n → n.sentAt = some w → b.noticeReply d = some to_ →
      (w + ms (b.get Obj.noticeRetry) ≤ b.now → Takes (.noticeRetryExpiry t p) s fun x =>
        x = (b.modNotice d n.seq fun y => { y with sentAt := some b.now }).sendNotice d to_ n) ∧
      (b.now < w + ms (b.get Obj.noticeRetry) → Takes (.noticeRetryExpiry t p) s fun x => x = b)) ∧
    (∀ seq, Takes (.noticeAckReceived t p seq) s fun x =>
      (x.plais.queueOf d).queue = q.queue.filter fun n =>
        n.sentAt = none ∨ ¬ (seq + 2 ^ 32 - n.seq) % 2 ^ 32 < 2 ^ 31)

/-- No COUNTER is accepted twice under the key that accepted it, whatever messages come between, and none that is 64
or more below the highest (R69). -/
def Obligations.NoPlaisCounterIsAcceptedTwice : Prop :=
  ∀ (c : Nat) (a : Option AuthRec) (a1 : AuthRec) (later : List Nat), AuthRec.accept a c = some a1 →
    let take := fun (x : AuthRec) (k : Nat) => (AuthRec.accept (some x) k).getD x
    let final := later.foldl take a1
    AuthRec.accept (some final) c = none ∧ c ≤ final.highest ∧
      ∀ k, k + 64 ≤ final.highest → AuthRec.accept (some final) k = none

/-- COBS and the CRC of the console lose nothing (R74): what a message is framed as is read back as that message, and
no octet before the closing zero is zero. -/
def Obligations.ConsoleFramesReadBack : Prop :=
  ∀ m : List Octet, consoleMessage (consoleFrame m) = some m ∧ (consoleFrame m).getLast? = some 0 ∧
    ∀ o ∈ (consoleFrame m).dropLast, o ≠ 0

/-! ### Ethernet, reception, classification, rings and flushes (R111 to R123, R184 to R201, R264 to R295) -/

/-- Ethernet ports and shapers (R112, R121, R264 to R266, R284 to R286): a frame is checked, a PAUSE consumed,
acceptance gated, and the frame accepted whole; a PAUSE acts under the port's own flow control until its quanta run out;
a free port takes the frame that its bound queues offer and abandons one past its lifetime; the end of the line
delivers; a shaper with tokens at 0 or more releases the head of the next queue of its round and charges its counted
length. Where it goes past the manual it rests on the model's choices of log entries 25, 26, 38, 39, 130 and 195. -/
def Obligations.EthernetPortsAcceptAndDeliverFrames : Prop :=
  (∀ (s : State) (t : Nat) (port : Fin 2) (pkt : Packet), s.blk.frozen = false →
    let b := s.blk.tick t
    let p := port.val
    (∀ ok pause, b.ethUp p = false → Takes (.ethFrameReceived t port pkt ok pause) s fun x => x = b) ∧
    (b.ethUp p →
      (∀ pause, Takes (.ethFrameReceived t port pkt false pause) s fun x => x = b.add Obj.ethRxFcsDrop 1 p) ∧
      (∀ pause, b.get Obj.ethMaxFrame p < pkt.len → Takes (.ethFrameReceived t port pkt true pause) s fun x =>
        x = b.add Obj.ethRxLongDrop 1 p) ∧
      (pkt.len ≤ b.get Obj.ethMaxFrame p →
        let c := b.add Obj.ethRxFrames 1 p
        (∀ l, Takes (.ethFrameReceived t port pkt true (some l)) s fun x => x = c.pauseRx p l) ∧
        ((c.accNow (c.lineStart p pkt.len)).eth = false → b.mode.drain = none → b.boot = none →
          Takes (.ethFrameReceived t port pkt true none) s fun x => x = c) ∧
        ((c.accNow (c.lineStart p pkt.len)).eth → c.ctxRow (ethCtx p pkt) = none → c.poolUsed + pkt.len ≤ 2097152 →
          c.journalFree → Takes (.ethFrameReceived t port pkt true none) s fun x =>
            (∃ f, x.frames = b.frames ++ [f] ∧ f.id = b.nextFrame ∧ f.ctx = ethCtx p pkt ∧ f.pkt = pkt ∧ f.at_ = b.now ∧
              f.queue = 8191 ∧ f.landed = none ∧ f.spilled = false ∧ f.stamp = some (c.rxPortStamp p pkt.len, p)) ∧
            x.get Obj.acceptedTotal = Obj.acceptedTotal.raised (b.get Obj.acceptedTotal + 1)))) ∧
    (∀ mask, Takes (.pauseQuantaExpiry t port mask) s fun x => x = { b with fwd := { b.fwd with
      paused := modAt b.fwd.paused p fun l => l.filter fun y => !(bitSet mask y.1 && decide (y.2 ≤ b.now)) } }) ∧
    (b.xoffNow p ≠ 0 → (b.fwd.xoff.getD p (0, 0)).2 + (b.quantaTicks p 65535 + 1) / 2 ≤ b.now → Takes (.pauseRefresh t port) s
      fun x => x = ({ b with fwd := { b.fwd with xoff := b.fwd.xoff.set p (b.xoffNow p, b.now) } } : Block).emit
        (.pause p (b.xoffNow p) 65535)) ∧
    (b.xoffNow p = 0 ∨ b.now < (b.fwd.xoff.getD p (0, 0)).2 + (b.quantaTicks p 65535 + 1) / 2 →
      Takes (.pauseRefresh t port) s fun x => x = b) ∧
    (b.ethUp p = false ∨ b.fwd.line.getD p none ≠ none ∨ b.boundHeads p = [] →
      Takes (.ethTxStart t port) s fun x => x = b) ∧
    (∀ f c, b.ethUp p → b.fwd.line.getD p none = none → b.pickBound p (fun f => !b.isPaused p f.pkt) = some (f, c) →
      (b.expired f = false → Takes (.ethTxStart t port) s fun x =>
        x = (({ c with fwd := { c.fwd with line := c.fwd.line.set p (some f.id) } } : Block).lineFrame p f).emit
            (.frame f.queue f.id) ∧
          x.fwd.line = b.fwd.line.set p (some f.id) ∧ x.fwd.turn = assocPut b.fwd.turn p f.queue) ∧
      (b.expired f → Takes (.ethTxStart t port) s fun x => x = (b.abandon 2 9 [f.id]).ethStart p b.frames.length)) ∧
    (∀ fid, b.fwd.line.getD p none = some fid → Takes (.ethTxEnd t port) s fun x =>
      x.fwd.line = b.fwd.line.set p none ∧ x.frame? fid = none ∧
        x.fwd.completed = (modAt b.fwd.completed p fun l => (l ++ [fid]).drop (l.length - 63)) ∧
        x.get Obj.ethTxFrames p = Obj.ethTxFrames.raised (b.get Obj.ethTxFrames p + 1)) ∧
    (b.fwd.line.getD p none = none → Takes (.ethTxEnd t port) s fun x => x = b) ∧
    (∀ row f, b.shaperNext row = some f → 0 ≤ (b.shapNow row).tokens → Takes (.shaperRelease t row) s fun x =>
      x.frames = (b.frames.map fun g => if g.id = f.id then { g with released := true } else g) ∧
        assocGet x.fwd.shap row = some ⟨(b.shapNow row).tokens -
          max 1 ((f.pkt.len : Int) + b.geti Obj.ovhOverhead (b.get Obj.shaperProfile row)) * 2560000000, b.now⟩ ∧
        x.fwd.round = b.fwd.round.filter (· != f.queue) ++ [f.queue]) ∧
    (∀ row, (b.shapNow row).tokens < 0 ∨ b.shaperNext row = none → Takes (.shaperRelease t row) s fun x => x = b)) ∧
  (∀ (s : State) (t : Nat) (q : Port) (row v : Nat),
    Writes (.ethModeWrite t q row v) s t q 0x4000 1 row 1 v fun w r k => w.writeEthMode r k v) ∧
  (∀ (w : Block) (k v : Nat), k < 2 →
    let bad := (v = 2 ∧ (k = 1 ∨ w.get Obj.ethMode 1 ≠ 0)) ∨ (k = 1 ∧ v ≠ 0 ∧ w.get Obj.ethMode 0 = 2)
    (bad → w.writeEthMode Obj.ethMode k v = (6, w)) ∧
    (¬ bad → (w.writeEthMode Obj.ethMode k v).1 = 0 ∧ (w.writeEthMode Obj.ethMode k v).2.get Obj.ethMode k = v ∧
      (w.writeEthMode Obj.ethMode k v).2.get Obj.ethLink k = 0)) ∧
  ∀ (w : Block) (k quanta : Nat) (l : List (Nat × Nat)),
    (w.get Obj.ethFlowCtrl k = 1 → w.fwd.paused.length = 2 → k < 2 →
      (w.pauseRx k [(8, quanta)]).fwd.paused.getD k [] =
        if quanta = 0 then assocDel (w.fwd.paused.getD k []) 8
        else assocPut (w.fwd.paused.getD k []) 8 (w.now + w.quantaTicks k quanta)) ∧
    (w.get Obj.ethFlowCtrl k = 0 → (w.pauseRx k l).fwd.paused = w.fwd.paused) ∧
    (∀ pkt, w.get Obj.ethFlowCtrl k = 0 → w.isPaused k pkt = false)

/-- Reception on a radio (R114, R117, R171, R177 to R181, R183, R184, R186, R190 to R192, R270 to R273): a confirmed
sync of a branch that searches owns an idle receiver, a stronger one captures it, a blank of the same tick ends it; a
failed header frees the receiver, an unsupported format and a length out of range are reported, a good one reserves its
length in landing; in reach mode headers are checked bit by bit and a frame has the symbols of its fields; the end of a
PPDU gives its status and hands its MPDUs to the responder, which marks nothing whose FCS or sender fails, accepts a new
frame and no duplicate; the oldest landed frame moves out when there is room. Where it goes past the manual it rests on
the model's choices of log entries 136, 142, 155, 157, 178, 185 and 190. -/
def Obligations.ReceptionAcceptsNewFramesOnce : Prop :=
  (∀ (s : State) (t : Nat) (r : Radio), s.blk.frozen = false →
    let b := s.blk.tick t
    (∀ branch seen,
      let m1 := branch == branchM1
      let able := b.radioOn r ∧ b.searches r branch ∧ b.confirms r branch seen ∧ b.blinded r m1 = false ∧
        (b.radio r).doneAt ≠ some b.now
      (¬ able → Takes (.rxSyncConfirm t r branch seen) s fun x => x = b) ∧
      (able → b.blankedNow r m1 → Takes (.rxSyncConfirm t r branch seen) s fun x =>
        x = ((b.ownRx r branch seen).endRx r m1 3).add (blankedReg r)) ∧
      (able → b.isBlanked r m1 → b.blankedNow r m1 = false → Takes (.rxSyncConfirm t r branch seen) s fun x => x = b) ∧
      (able → b.isBlanked r m1 = false → (b.radio r).rxOf m1 = none → Takes (.rxSyncConfirm t r branch seen) s fun x =>
        x = b.ownRx r branch seen) ∧
      (∀ y, able → b.isBlanked r m1 = false → (b.radio r).rxOf m1 = some y → y.at_ ≠ b.now ∨ y.head.isSome →
        (b.get (Obj.captureEnable.of r) ≠ 0 → y.power + 4 * (b.get (Obj.captureThreshold.of r) : Int) ≤ seen.power →
          r ≠ .l ∨ branch ≠ y.branch → Takes (.rxSyncConfirm t r branch seen) s fun x =>
            x = ((b.endRx r m1 4).add (Obj.rxCaptured.of r)).ownRx r branch seen) ∧
        (b.get (Obj.captureEnable.of r) = 0 → Takes (.rxSyncConfirm t r branch seen) s fun x => x = b))) ∧
    (∀ head,
      let m1 := r == .m && head.form.format == fmtOqpsk24
      ((b.radio r).rxOf m1 = none → Takes (.rxHeaderDecoded t r head) s fun x => x = b) ∧
      (∀ y, (b.radio r).rxOf m1 = some y → y.head.isSome → Takes (.rxHeaderDecoded t r head) s fun x => x = b) ∧
      (∀ y, (b.radio r).rxOf m1 = some y → y.head = none →
        let h := headerSays r y.branch head
        let known := b.modRadio r fun u => u.setRx m1 (some { y with head := some h.2 })
        let fits := formOk r (b.radio r).split false h.2.form
        let goodLen := h.2.len ≠ 0 ∧ h.2.len ≤ psduMax h.2.form
        (h.1 = false → Takes (.rxHeaderDecoded t r head) s fun x => x = (b.endRx r m1 2).add (Obj.rxHdrFail.of r)) ∧
        (h.1 → fits = false → Takes (.rxHeaderDecoded t r head) s fun x =>
          x = ((known.endRx r m1 5).add (Obj.rxUnsupported.of r)).holdCca r head.dur) ∧
        (h.1 → fits → ¬ goodLen → Takes (.rxHeaderDecoded t r head) s fun x =>
          x = (known.endRx r m1 6).add (Obj.rxLength.of r)) ∧
        (h.1 → fits → goodLen → Takes (.rxHeaderDecoded t r head) s fun x =>
          x = b.modRadio r fun u => u.setRx m1 (some { y with
            head := some h.2
            reserved := decide (b.landingUsed r + b.landingReserved r + RxHead.needs h.2 ≤ (landingRegion r).1)
            octets := RxHead.needs h.2, taps := h.2.ltf.map fun l => smoothTaps (b.smoothWidth r h.2.form) l })))) ∧
    (∀ info ms,
      let m1 := r == .m && info.m1
      ((b.radio r).rxOf m1 = none → Takes (.rxPpduEnd t r info ms) s fun x => x = b) ∧
      (∀ y, (b.radio r).rxOf m1 = some y → y.head = none → Takes (.rxPpduEnd t r info ms) s fun x => x = b) ∧
      (∀ y h, (b.radio r).rxOf m1 = some y → y.head = some h → info.soft = [] →
        let b1 := ((b.decode r y h info).modRadio r fun u =>
          ({ u with quietFrom := b.now, doneAt := some b.now } : RadioUnit).setRx m1 none).freeze r b.now
        let n := b1.rxCount r m1 h info ms
        let b2 := (n.2.edgeResult r 11 [y.word r n.1 info, b.rxStamp (2 + radioNum r) y.first 1]).splitFollow
        (n.1 = 1 → Takes (.rxPpduEnd t r info ms) s fun x => x = ms.foldl (fun (c : Block) m => c.heardFrom
          { r, m1, start := y.at_, first := y.first, room := y.reserved
            ack := b2.ackCmd r h.form [] 0 (ms.any b2.pendingFor) info.ackAir } m) b2) ∧
        (∀ m, ms = [m] → n.1 ≠ 1 → m.ackReq = false → Takes (.rxPpduEnd t r info ms) s fun x =>
          x = (b2.respond { r, m1, start := y.at_, first := y.first, room := y.reserved
                            ack := b2.ackCmd r h.form [] 0 (b2.pendingFor m) info.ackAir } m).2))) ∧
    (∀ f spill, b.oldestLanded r = some f → b.place f.pkt.len = some spill → b.journalFree →
      Takes (.landingDrain t r) s fun x => x = b.modFrame f.id fun y => { y with landed := none, spilled := spill }) ∧
    ((∀ f ∈ b.frames, f.landed ≠ some r) → Takes (.landingDrain t r) s fun x => x = b)) ∧
  ((∀ (fcs32 whiten : Bool) (code len : Nat), code < 4 → (if fcs32 then 4 else 2) ≤ len → len < 2048 →
      reachHeaderOk code (reachHeader fcs32 whiten code len) ∧ reachLength (reachHeader fcs32 whiten code len) = len) ∧
    (∀ (preamble sync code : Nat) (fcs32 whiten : Bool) (psdu : List Octet),
      (reachFrame preamble sync code fcs32 whiten psdu).length = reachSymbols preamble psdu.length)) ∧
  ∀ (w : Block) (p : PpduSeen) (m : RxMpdu) (row : Nat) (pkt : Packet),
    let w0 := w.heardFrom p m
    let x := w.respond p m
    (m.fcsOk = false → x = (Mark.none, w0)) ∧ (w0.senderKnown p.r p.m1 m = false → x = (Mark.none, w0)) ∧
    (m.fcsOk → w0.senderKnown p.r p.m1 m → m.sender = .station row → m.body = .data pkt → m.prot = none → m.group = false →
      m.ackReq = false →
      (m.seq ∈ w0.dupSeen row m.tid → x = (Mark.again, w0.add Obj.dupDiscards)) ∧
      (m.seq ∉ w0.dupSeen row m.tid → (w0.accNow p.start).station = false → w0.ctxRow (.station row m.tid) = none →
        x = (Mark.none, w0)) ∧
      (m.seq ∉ w0.dupSeen row m.tid → (w0.accNow p.start).station → w0.ctxRow (.station row m.tid) = none → p.room →
        w0.reserveFits p.r (.station row m.tid) pkt.len → x.1 = Mark.marked ∧ x.2.nextFrame = w0.nextFrame + 1 ∧
          m.seq ∈ x.2.dupSeen row m.tid ∧
          ∃ f ∈ x.2.frames, f.id = w0.nextFrame ∧ f.ctx = .station row m.tid ∧ f.pkt = pkt ∧ f.landed = some p.r))

/-- Classification and the miss port (R110, R118, R274 to R281): a frame whose turn it is is classified, one that goes
nowhere is discarded and counted, a bridged frame joins the queue of its row's destination, a routed one that of its
route's next hop, rewritten, or the miss queue with its exception; idle flows and aged learned rows go free, static ones
stay; a flow is inserted in the lowest free way of its bucket; a miss is taken in order by a packet engine, and only the
engine that holds it gives its verdict. Where it goes past the manual it rests on the model's choices of log entries 17,
29, 173, 192 and 196. -/
def Obligations.ClassificationAndTheMissPort : Prop :=
  (∀ (s : State) (t : Nat), s.blk.frozen = false →
    let b := s.blk.tick t
    (∀ fid, b.frame? fid = none → Takes (.classifyFrame t fid) s fun x => x = b) ∧
    (∀ fid f, b.frame? fid = some f → b.mayClassify f = false → Takes (.classifyFrame t fid) s fun x => x = b) ∧
    (∀ fid f, b.frame? fid = some f → b.mayClassify f → b.ctxRow f.ctx = none → b.routed f.ctx f.pkt = none →
      Takes (.classifyFrame t fid) s fun x => x = (b.deliver f.id).add Obj.classDiscard) ∧
    (∀ fid f z row bd q, b.frame? fid = some f → b.mayClassify f → b.ctxZone f.ctx = (z, bd, false) → bd ≠ 65535 →
      b.routed f.ctx f.pkt = none → groupMac f.pkt.dst = false → b.bridgeRow bd f.pkt.dst = some row →
      b.egress (b.get Obj.bridgeDestKind row) (b.get Obj.bridgeDest row) (b.classOf none f.pkt) = some q →
      b.queueUsed q → b.tooLong q f.pkt.len = false → Takes (.classifyFrame t fid) s fun x => x = b.enqueue f.id q) ∧
    (∀ fid f z bd ip, b.frame? fid = some f → b.mayClassify f → b.ctxZone f.ctx = (z, bd, false) →
      b.routed f.ctx f.pkt = some ip →
      (∀ code, b.routeVerdict z ip f.pkt = (.exception code, none) → Takes (.classifyFrame t fid) s fun x =>
        x = b.miss f code) ∧
      (∀ q, b.routeVerdict z ip f.pkt = (.queue q, none) → Takes (.classifyFrame t fid) s fun x =>
        x = (b.modFrame f.id fun y => { y with
          pkt := b.rewrite ((b.routeFor ip).map fun r => b.get Obj.routeNexthop r) q y.pkt }).enqueue f.id q)) ∧
    (∀ row, b.is Obj.flowValid row → b.get Obj.flowIdle row ≠ 0 →
      assocNat b.fwd.flowHit row + secs (b.get Obj.flowIdle row) ≤ b.now → Takes (.flowIdleExpiry t row) s fun x =>
        x = b.freeFlow row) ∧
    (∀ row, b.get Obj.flowIdle row = 0 ∨ b.now < assocNat b.fwd.flowHit row + secs (b.get Obj.flowIdle row) →
      Takes (.flowIdleExpiry t row) s fun x => x = b) ∧
    (∀ row, b.get Obj.bridgeState row = 1 → assocNat b.fwd.bridgeSeen row + secs (b.get Obj.bridgeAge4301) ≤ b.now →
      Takes (.bridgeAgeExpiry t row) s fun x => x = b.freeBridge row) ∧
    (∀ row, b.get Obj.bridgeState row ≠ 1 ∨ b.now < assocNat b.fwd.bridgeSeen row + secs (b.get Obj.bridgeAge4301) →
      Takes (.bridgeAgeExpiry t row) s fun x => x = b)) ∧
  (∀ (s : State) (t v : Nat) (p : Port),
    Writes (.insert t p) s t p 0x4101 6 noRow 1 1 (fun w _ _ => w.writeInsert (portLoc p) 1) ∧
    Reads (.missTake t p) s t p 0x4120 1 noRow (fun w _ _ => w.missTake (portEng p)) ∧
    Writes (.verdict t p v) s t p 0x4120 2 noRow 16 v (fun w _ _ => w.verdict (portEng p) v)) ∧
  ∀ (w : Block) (key action target cls idle row n v : Nat),
    ((w.freeFlow row).get Obj.flowValid row = 0 ∧ (w.freeBridge row).get Obj.bridgeState row = 0) ∧
    (w.flowHitRow key ≠ none → w.insertFlow key action target cls idle = (6, 0xFFFFFFFF, w)) ∧
    (w.flowHitRow key = none →
      let base := 4 * flowBucket key
      let x := w.insertFlow key action target cls idle
      ((∀ i < 4, w.is Obj.flowValid (base + i)) → x = (9, 0xFFFFFFFF, w)) ∧
      (∀ i < 4, w.is Obj.flowValid (base + i) = false → (∀ j < i, w.is Obj.flowValid (base + j)) →
        x.1 = 0 ∧ x.2.1 = base + i ∧ x.2.2.flowHitRow key = some (base + i) ∧
          x.2.2.get Obj.flowAction (base + i) = action ∧ x.2.2.get Obj.flowTarget (base + i) = target)) ∧
    (n < 5 ∨ 8 < n ∨ (∀ m ∈ w.fwd.misses, m.holder ≠ none) → w.missTake n = (65535 * 2 ^ 240, w)) ∧
    (∀ m, 5 ≤ n → n ≤ 8 → (w.fwd.misses.filter fun m => m.holder == some n).length < 4 →
      w.fwd.misses.find? (fun m => m.holder.isNone) = some m →
      (w.missTake n).2.frames = w.frames ∧ (w.missTake n).2.fwd.misses = w.fwd.misses.map fun y =>
        if y.fid = m.fid then { y with holder := some n, handle := w.fwd.nextHandle % 65535 } else y) ∧
    (2 < octFieldLE v 16 2 1 → w.verdict n v = (6, w)) ∧
    ((w.verdict n v).1 ≠ 6 → (∀ m ∈ w.fwd.misses, m.holder = some n → m.handle ≠ octFieldLE v 16 0 2) →
      w.verdict n v = (13, w))

/-- Descriptor rings and the sampler (R287 to R292): only the ring's engine moves its HEAD and TAIL; a doorbell out of
range is refused, one descriptor taken moves HEAD past it and writes nothing but that descriptor; the fill of a receive
ring writes its descriptor at TAIL; a HEAD write delivers; a sample that is due shows every queue's depth; a read of a
maximum restarts it, and HIST_CLEAR zeroes every bin. Where it goes past the manual it rests on the model's choices of
log entries 44, 127, 128, 132 and 197. -/
def Obligations.RingsMoveDescriptorsAndTheSamplerCounts : Prop :=
  (∀ (s : State) (t row v : Nat) (p : Port),
    let b := s.blk.tick t
    let x : State := { s with blk := b }
    (s.blk.frozen = false →
      (b.portOpen p = false → Takes (.txRingDoorbell t p row v) s fun y => y = b) ∧
      (b.portOpen p → b.pointIdle = false → Takes (.txRingDoorbell t p row v) s fun y =>
        y = b.enqueueAsk (b.waitOf p (.write 0x4410 5 row 2 v .plain))) ∧
      (b.portOpen p → b.pointIdle →
        (∀ e, b.checkWrite p 0x4410 5 row 2 v = .error e → Takes (.txRingDoorbell t p row v) s fun y =>
          y = b.answered p 0x4410 5 row e 0) ∧
        (∀ r k, b.checkWrite p 0x4410 5 row 2 v = .ok (r, k) → exec (.txRingDoorbell t p row v) s =
          .next ({ (x.doorbell k v).2 with
            blk := (x.doorbell k v).2.blk.answered p 0x4410 5 row (x.doorbell k v).1 0 } : State).settle)) ∧
      (b.rxRing row = false ∨ (b.get Obj.ringTail row + 1) % b.get Obj.ringSize row = b.get Obj.ringHead row →
        Takes (.rxRingFill t row) s fun y => y = b) ∧
      (∀ f c, b.rxRing row → (b.get Obj.ringTail row + 1) % b.get Obj.ringSize row ≠ b.get Obj.ringHead row →
        b.rxPick row (b.frames.length + 1) = (some f, c) →
        ∃ u : State, exec (.rxRingFill t row) s = .next u.settle ∧ u.pending = s.pending ∧ u.regs = s.regs ∧
          u.mem = memStore s.mem (b.get Obj.ringBase row + 16 * (b.get Obj.ringTail row % b.get Obj.ringSize row))
            (octetsLE 16 (b.rxDescriptor f)) ∧
          u.blk.fwd.filled = c.fwd.filled ++ [(row, b.get Obj.ringTail row, f.id)] ∧
          u.blk.get Obj.ringTail row = (b.get Obj.ringTail row + 1) % b.get Obj.ringSize row) ∧
      (b.coreA = false ∨ b.now < b.sampleDue → Takes (.samplePass t) s fun y => y = b) ∧
      (b.coreA → b.sampleDue ≤ b.now → Takes (.samplePass t) s fun y =>
        y.get Obj.sampleLate =
          (if b.sampleDue < b.now then Obj.sampleLate.raised (b.get Obj.sampleLate + 1) else b.get Obj.sampleLate) ∧
          y.fwd.sampleDue = some (b.sampleDue + us (b.get Obj.samplePeriod)) ∧
          ∀ q < 5632, y.get Obj.sampDepthFrames q = (b.frames.filter fun f => f.queue = q).length)) ∧
    Writes (.rxRingHeadWrite t p row v) s t p 0x4410 4 row 2 v (fun y _ k => y.writeRxHead k v) ∧
    Reads (.maxOctetsRead t p 4 row) s t p 0x4701 4 row (fun y r k => (y.get r k, y.put r 0 k)) ∧
    Reads (.maxOctetsRead t p 5 row) s t p 0x4701 5 row (fun y r k => (y.get r k, y.put r 0 k)) ∧
    Writes (.histClear t p row) s t p 0x4702 4 row 1 1 (fun y _ k => (0, y.clearHist k))) ∧
  (∀ (w : Block) (p : Port) (row v : Nat), w.mode.entry = none → w.recovery = false → w.domainOn (ownerOf 0x4410 5) → row < 96 →
    (portEng p ≠ row / 8 ∨ 4 ≤ row % 8 → w.checkWrite p 0x4410 5 row 2 v = .error 3) ∧
    (portEng p ≠ row / 8 ∨ row % 8 < 4 → w.checkWrite p 0x4410 4 row 2 v = .error 3)) ∧
  (∀ (w : Block) (h i : Nat), h < 16 → i < 32 → (w.clearHist h).get (binReg i) h = 0) ∧
  (∀ (s : State) (row tail i : Nat), row < 96 →
    (s.blk.get Obj.ringSize row ≤ tail → s.doorbell row tail = (6, s)) ∧
    (tail < s.blk.get Obj.ringSize row → s.blk.is Obj.ringEnable row = false ∨ s.blk.mode.acc.engine = false →
      s.doorbell row tail = (0, { s with blk := s.blk.put Obj.ringTail tail row })) ∧
    (s.takeDesc row i).blk.get Obj.ringHead row = (i + 1) % s.blk.get Obj.ringSize row ∧
    (let a := s.blk.get Obj.ringBase row + 16 * (i % s.blk.get Obj.ringSize row)
      ∀ x, x < a ∨ a + 16 ≤ x → memGet (s.takeDesc row i).mem x = memGet s.mem x)) ∧
  ∀ (w : Block) (row head : Nat), w.get Obj.ringSize row ≤ head → w.writeRxHead row head = (6, w)

/-- Flushes and the notices of abandonment (R121 to R123): each flush is one write of FLUSH_ACTION, after which nothing
in its scope is held; a period that has run its time without a frame ends, else one notice covers its frames; the hourly
summary is one record of the four counters. Where it goes past the manual it rests on the model's choices of log entries
131 and 152. -/
def Obligations.FlushesLeaveNothingInTheirScope : Prop :=
  (∀ (s : State) (t : Nat) (p : Port),
    Writes (.flushQueue t p) s t p 0x1520 1 noRow 1 1 (fun w _ _ => (0, w.flush 1 (w.get Obj.flushTarget))) ∧
    Writes (.flushStation t p) s t p 0x1520 1 noRow 1 2 (fun w _ _ => (0, w.flush 2 (w.get Obj.flushTarget))) ∧
    Writes (.flushNeighbour t p) s t p 0x1520 1 noRow 1 3 (fun w _ _ => (0, w.flush 3 (w.get Obj.flushTarget))) ∧
    Writes (.flushCaneLink t p) s t p 0x1520 1 noRow 1 4 (fun w _ _ => (0, w.flush 4 (w.get Obj.flushTarget))) ∧
    Writes (.flushAll t p) s t p 0x1520 1 noRow 1 5 (fun w _ _ => (0, w.flush 5 (w.get Obj.flushTarget)))) ∧
  (∀ (w : Block) (scope target : Nat), (w.flush scope target).mode = w.mode ∧
    (∀ f ∈ (w.flush scope target).frames, f.inScope scope target = false) ∧
    (∀ f ∈ w.frames, (∀ g ∈ w.frames, g.inScope scope target → g.id ≠ f.id) →
      ∃ g ∈ (w.flush scope target).frames, g.id = f.id ∧ g.pkt = f.pkt ∧ g.queue = f.queue)) ∧
  (∀ (s : State) (t dest code : Nat), s.blk.frozen = false →
    let b := s.blk.tick t
    let is_ := fun q : Period => q.dest == dest && q.code == code
    (b.periods.find? is_ = none → Takes (.abandonNoticePeriodEnd t dest code) s fun x => x = b) ∧
    (∀ q, b.periods.find? is_ = some q →
      (b.now < q.start + ms (b.get Obj.abandonNoticePeriod) →
        Takes (.abandonNoticePeriodEnd t dest code) s fun x => x = b) ∧
      (q.start + ms (b.get Obj.abandonNoticePeriod) ≤ b.now → q.frames = 0 →
        Takes (.abandonNoticePeriodEnd t dest code) s fun x =>
          x = { b with periods := b.periods.filter fun q => !is_ q }) ∧
      (q.start + ms (b.get Obj.abandonNoticePeriod) ≤ b.now → q.frames ≠ 0 →
        Takes (.abandonNoticePeriodEnd t dest code) s fun x =>
          x.periods = (b.periods.filter fun q => !is_ q) ++ [{ q with start := b.now, frames := 0, entries := [] }] ∧
            x.frames = b.frames))) ∧
  ∀ (s : State) (t : Nat), let b := s.blk.tick t
    (b.mode.mode = .off ∨ b.now < b.mode.hourAt + secs 3600 → Takes (.abandonSummary t) s fun x => x = b) ∧
    (b.mode.mode ≠ .off → b.mode.hourAt + secs 3600 ≤ b.now → Takes (.abandonSummary t) s fun x =>
      x = ({ b with mode := { b.mode with hourAt := b.now } } : Block).post 0x0060
        (bytesLE 4 (b.get Obj.abandonDeparted) ++ bytesLE 4 (b.get Obj.abandonLifetime) ++
          bytesLE 4 (b.get Obj.abandonFlush) ++ bytesLE 4 (b.get Obj.abandonPersist) ++
          bytesLE 4 (b.get Obj.drainFlushed) ++ [b.mode.mode.num, 0]))

/-! ### Gathers, transmission, front ends, calibration, coexistence, region (R112, R137 to R167, R194 to R197, R251 to
R257) -/

/-- Gathers (R215, R251 to R257, R302, R303, R308): the select stage takes the frames offered, builds one gather and
leaves its frames held; a sealed gather is staged and takes one counter for each new MPDU, and one whose context gives
none is undone; an aged gather is undone and its frames stay. No remelt undoes a gather that is locked or sent. Where it
goes past the manual it rests on the model's choices of log entries 138, 178 and 191. -/
def Obligations.GathersAreBuiltSealedAndUndone : Prop :=
  (∀ (s : State) (t : Nat), s.blk.frozen = false →
    let b := s.blk.tick t
    (∀ (r : Radio) (users : Nat) (multi : Bool) (mimo dur : Nat) (picks : List Pick),
      let fs := b.takePicks r picks
      let recvs := (fs.filterMap fun f => (b.recvOf f).map (·.1)).eraseDups
      let ahead := (b.gth.gathers.filter fun g => g.radio == r && g.state != .sent).length
      let held := b.is Obj.gaFallback && (b.radio r).txop.isNone
      fs.length ≤ 256 ∧
      (r = .l ∨ b.radioOn r = false ∨ fs = [] ∨ held ∨ (multi ∧ b.userCap r < max users recvs.length) ∨
          b.mimoOk r multi mimo = false ∨ (multi = false ∧ 1 < recvs.length) ∨ 64 ≤ b.gth.gathers.length ∨
          1048576 < b.gatherStore + sumOfList (fs.map (·.pkt.len)) ∨
          min (b.get Obj.gatherAhead) (b.get Obj.gatherAheadLehr) ≤ ahead →
        Takes (.gatherSelect t r users multi mimo dur picks) s fun x => x = b) ∧
      (r ≠ .l → b.radioOn r → fs ≠ [] → held = false → (multi → max users recvs.length ≤ b.userCap r) →
        b.mimoOk r multi mimo → (multi = false → recvs.length ≤ 1) → b.gth.gathers.length < 64 →
        b.gatherStore + sumOfList (fs.map (·.pkt.len)) ≤ 1048576 →
        ahead < min (b.get Obj.gatherAhead) (b.get Obj.gatherAheadLehr) →
        Takes (.gatherSelect t r users multi mimo dur picks) s fun x =>
          x.gth.nextId = b.gth.nextId + 1 ∧ x.frames.map (·.id) = b.frames.map (·.id) ∧
          x.get Obj.gathersBuilt = Obj.gathersBuilt.raised (b.get Obj.gathersBuilt + 1) ∧
          ∃ g ∈ x.gth.gathers, g.id = b.gth.nextId ∧ g.radio = r ∧ g.state = .built ∧
            g.multi = (multi && decide (1 < max users recvs.length)) ∧ g.mpdus.map (·.fid) = fs.map fun f => some f.id)) ∧
    (∀ gid, b.gather? gid = none → Takes (.gatherSealDone t gid) s fun x => x = b) ∧
    (∀ gid g, b.gather? gid = some g →
      let staged := fun l : List Mpdu => fun h : Gather => { h with mpdus := l, state := .staged, sealedAt := b.now }
      (g.state ≠ .built → Takes (.gatherSealDone t gid) s fun x => x = b) ∧
      (g.state = .built → (∀ m ∈ g.mpdus, m.retry ∨ b.sealCtx g.radio m.recv = none) →
        Takes (.gatherSealDone t gid) s fun x => x = b.modGather gid (staged g.mpdus)) ∧
      (∀ m row, g.state = .built → g.mpdus = [m] → m.retry = false → b.sealCtx g.radio m.recv = some row →
        (b.get Obj.ctxState row = 1 → Takes (.gatherSealDone t gid) s fun x =>
          x = (b.consume row (b.get Obj.ctxTxNext row)).modGather gid
            (staged [{ m with pn := some (b.get Obj.ctxTxNext row), ctx := row }])) ∧
        (b.get Obj.ctxState row ≠ 1 → Takes (.gatherSealDone t gid) s fun x => ∀ h ∈ x.gth.gathers, h.id ≠ gid))) ∧
    (∀ gid, (∀ g ∈ b.gth.gathers, g.id = gid →
        (g.state ≠ .sealed ∧ g.state ≠ .staged) ∨ b.now < g.sealedAt + us (b.get Obj.gatherAge)) →
      Takes (.gatherAgeExpiry t gid) s fun x => x.gth = b.gth ∧ x.frames = b.frames) ∧
    (∀ gid g, b.gth.gathers.filter (fun g => g.id == gid) = [g] → g.state = .staged →
      g.sealedAt + us (b.get Obj.gatherAge) ≤ b.now → Takes (.gatherAgeExpiry t gid) s fun x =>
        (∀ h ∈ x.gth.gathers, h.id ≠ gid) ∧ x.frames.map (·.id) = b.frames.map (·.id) ∧
          x.get Obj.remeltCause8 = Obj.remeltCause8.raised (b.get Obj.remeltCause8 + 1))) ∧
  ∀ (w : Block) (code : Nat) (sel : Gather → Bool), (w.gth.gathers.map (·.id)).Nodup →
    (w.remelt code sel).frames.map (·.id) = w.frames.map (·.id) ∧
    (∀ h ∈ (w.remelt code sel).gth.gathers, ∃ g ∈ w.gth.gathers, g.id = h.id ∧ g.state = h.state) ∧
    (∀ g ∈ w.gth.gathers, g.state.unlocked → sel g → ∀ h ∈ (w.remelt code sel).gth.gathers, h.id ≠ g.id) ∧
    ∀ g ∈ w.gth.gathers, g.state.unlocked = false → ∃ h ∈ (w.remelt code sel).gth.gathers, h.id = g.id ∧ h.state = g.state

/-- Transmission (R27, R112, R143, R147, R149, R159, R161, R166, R195 to R197, R204, R253): a command that can be sent
waits at an idle edge; the commit leaves it while it may not go, ends it with the status of the first check that fails,
abandons late frames, or commits and locks its gather; the first sample makes what it carries sent; its end delivers
what needs no acknowledgement or waits; the response delivers what it acknowledges, and a timeout loses no frame; the
end of a hold offers its queue again. Where it goes past the manual it rests on the model's choices of log entries 34,
161, 183, 184 and 185. -/
def Obligations.TransmissionRunsFromCommandToResponse : Prop :=
  (∀ (s : State) (t : Nat) (r : Radio), s.blk.frozen = false →
    let b := s.blk.tick t
    let u := b.radio r
    (∀ c, b.radioOn r = false ∨ u.phase ≠ .idle ∨ commandable c = false ∨ b.cmdValid r c = false →
      Takes (.txCommand t r c) s fun x => x = b) ∧
    (∀ c, b.radioOn r → u.phase = .idle → commandable c → b.cmdValid r c → Takes (.txCommand t r c) s fun x =>
      x = b.takeCmd r c (b.cmdAc c) ∧ x.frames = b.frames ∧ x.gth = b.gth ∧
        (b.radios.length = 3 → (x.radio r).cmd = some c ∧ (x.radio r).phase = .waiting ∧ (x.radio r).waitFrom = b.now)) ∧
    (u.cmd = none → Takes (.txCommit t r) s (fun x => x = b) ∧
      (∀ acked, Takes (.responseReceived t r acked []) s fun x => x = b) ∧ Takes (.responseTimeout t r []) s fun x => x = b) ∧
    (u.air = none → Takes (.ppduFirstSample t r) s (fun x => x = b) ∧
      ∀ detector, Takes (.ppduTxEnd t r detector) s fun x => x = b) ∧
    (∀ c, u.cmd = some c →
      let ch := b.occupied r c.ppdu.form
      let st := b.channelStatus r ch.1 ch.2
      let late := b.lateFrames c
      let short := b.dutyShort r ch.1 ch.2 c.isAck (b.paOn r (b.airOf c.ppdu) c.kind)
      let loses := c.kind == .contended && u.busy b.now
      (b.mayCommit r c = false → Takes (.txCommit t r) s fun x => x = b) ∧
      (b.mayCommit r c → b.cmdValid r c = false → Takes (.txCommit t r) s fun x => x = b.endCmd r) ∧
      (b.mayCommit r c → b.cmdValid r c → loses → Takes (.txCommit t r) s fun x => x = b.loseTurn r c) ∧
      (b.mayCommit r c → b.cmdValid r c → loses = false →
        (b.waitsForSibling c → Takes (.txCommit t r) s fun x => x = b) ∧
        (b.waitsForSibling c = false → b.hasTurn r c = false → Takes (.txCommit t r) s fun x => x = b.giveUpTurn r c) ∧
        (b.waitsForSibling c = false → b.hasTurn r c →
          (st ≠ 0 → Takes (.txCommit t r) s fun x => x = (b.txStatus r st).endCmd r) ∧
          (st = 0 → late ≠ [] → Takes (.txCommit t r) s fun x => x = (b.abandon 2 9 late).endCmd r) ∧
          (st = 0 → late = [] → short ≠ [] → Takes (.txCommit t r) s fun x =>
            x = b.deferCmd r c short ∧ x.frames = b.frames) ∧
          (∀ gid, st = 0 → late = [] → short = [] → c.what = .gather gid → Takes (.txCommit t r) s fun x =>
            x = (b.dropSegment r).commitPpdu r c) ∧
          (∀ k n a, st = 0 → late = [] → short = [] → c.what = .mgmt k n a → Takes (.txCommit t r) s fun x =>
            x = (b.dropSegment r).commitMgmt r c k n) ∧
          (∀ k, st = 0 → late = [] → short = [] → c.what = .caneCtl k 4 → Takes (.txCommit t r) s fun x =>
            x = (b.dropSegment r).commitPpdu r c) ∧
          (∀ fid f, st = 0 → late = [] → short = [] → c.what = .frame fid → r = .l → b.frame? fid = some f →
            (b.dropSegment .l).lowCtx f = none → f.pn = none → Takes (.txCommit t r) s fun x =>
              x = ((b.dropSegment .l).lowPlace f).commitPpdu .l c)))) ∧
    (∀ a, u.air = some a →
      (a.started ∨ b.now < a.rampAt + 32 * a.ramp.up → Takes (.ppduFirstSample t r) s fun x => x = b) ∧
      (a.started = false → a.rampAt + 32 * a.ramp.up ≤ b.now →
        (Takes (.ppduFirstSample t r) s fun x =>
          x = ((b.modRadio r fun y => { y with air := some { a with started := true } }).emit
            (.radio r 13 (b.airValues a.cmd))).carriedOnAir r a.cmd) ∧
        (∀ gid g, a.cmd.what = .gather gid → b.gather? gid = some g → Takes (.ppduFirstSample t r) s fun x =>
          (∀ h ∈ x.gth.gathers, h.id = gid → h.state = .sent) ∧
            x.get Obj.gathersSent = Obj.gathersSent.raised (b.get Obj.gathersSent + 1) ∧
            ∀ f ∈ x.frames, some f.id ∈ g.mpdus.map (·.fid) → f.air ∧ f.state = .sent) ∧
        (∀ fid, a.cmd.what = .frame fid → Takes (.ppduFirstSample t r) s fun x =>
          ∀ f ∈ x.frames, f.id = fid → f.air ∧ f.state = .sent ∧ f.lastTx = b.now) ∧
        (∀ k n q l m l', a.cmd.what = .mgmt k n q → (b.link k).send = l ++ m :: l' → m.cseq = n →
          (∀ y ∈ l ++ l', y.cseq ≠ n) → Takes (.ppduFirstSample t r) s fun x =>
            (x.link k).send = l ++ { m with sent := true, acked := false, lastTx := b.now, numbered := true } :: l' ∧
              x.frames = b.frames ∧ ∃ addr snap,
                .cane k r 0 7 addr (snap ++ (caneDataHeader 15 n false m.again q ++ BitVec.ofNat 8 m.kind :: m.payload)) ∈
                  x.outs)) ∧
      (∀ detector, a.started = false → Takes (.ppduTxEnd t r detector) s fun x => x = b) ∧
      (∀ detector, a.started → b.radios.length = 3 →
        (a.own → Takes (.ppduTxEnd t r detector) s fun x => (x.radio r).air = none ∧ (x.radio r).phase = u.phase ∧
          (x.radio r).cmd = u.cmd ∧ x.frames = b.frames) ∧
        (a.own = false → wantsAnswer a.cmd → Takes (.ppduTxEnd t r detector) s fun x => (x.radio r).air = none ∧
          (x.radio r).phase = .awaiting ∧ (x.radio r).cmd = u.cmd ∧
          (x.radio r).endAt = b.now - 32 * a.ramp.down ∧ x.frames = b.frames) ∧
        (∀ fid, a.own = false → a.cmd.what = .frame fid → a.cmd.noAck → (b.frame? fid).isSome →
          (∀ f ∈ b.frames, f.id = fid → ¬ (4352 ≤ f.queue ∧ f.queue < 4608)) → Takes (.ppduTxEnd t r detector) s fun x =>
            x.frame? fid = none ∧ x.get Obj.deliveredTotal = Obj.deliveredTotal.raised (b.get Obj.deliveredTotal + 1)))) ∧
    (∀ c gid, u.cmd = some c → c.what = .gather gid → u.phase = .awaiting → u.own = [] → r ≠ .l → b.radios.length = 3 →
      (∀ acked, Takes (.responseReceived t r acked []) s fun x => (x.radio r).phase = .idle ∧ (x.radio r).cmd = none ∧
        (∀ fid ∈ b.cmdFrames c, fid ∈ acked → (∀ f ∈ b.frames, f.id = fid → ¬ (4352 ≤ f.queue ∧ f.queue < 4608)) →
          x.frame? fid = none) ∧
        ∀ f ∈ b.frames, (f.id ∉ acked ∨ f.id ∉ b.cmdFrames c) → ∃ g ∈ x.frames, g.id = f.id ∧ g.pkt = f.pkt) ∧
      (b.now < u.answerBy r ∨ b.hearing r (u.answerBy r) → Takes (.responseTimeout t r []) s fun x => x = b) ∧
      (u.answerBy r ≤ b.now → b.hearing r (u.answerBy r) = false → Takes (.responseTimeout t r []) s fun x =>
        (x.radio r).phase = .idle ∧ (x.radio r).cmd = none ∧ sameFrames b x)) ∧
    (∀ q, (∀ e, assocGet b.fwd.holds q = some e → b.now < e) → Takes (.retryHoldExpiry t q) s fun x => x = b) ∧
    (∀ q e, assocGet b.fwd.holds q = some e → e ≤ b.now → Takes (.retryHoldExpiry t q) s fun x =>
      x = { b with fwd := { b.fwd with holds := assocDel b.fwd.holds q } } ∧ x.queueHeld q = false)) ∧
  (∀ (w : Block) (r : Radio) (c : TxCmd) (gid : Nat), w.radios.length = 3 → w.pins.coexOut.length = 4 →
    c.what = .gather gid →
    let x := w.commitPpdu r c
    x.frames = w.frames ∧ x.gth = (w.modGather gid fun g => { g with state := .locked }).gth ∧
      (x.radio r).phase = .onAir ∧ x.pins.coexOut.getD (radioNum r) false = true ∧
      blankSource r c.ppdu.form.format ∈ x.coex.blanks ∧
      ∃ a, (x.radio r).air = some a ∧ a.cmd = c ∧ a.own = false ∧ a.started = false ∧
        a.rampAt = w.now + (if c.kind = .immediate then 0 else us (w.get Obj.coexLead))) ∧
  ∀ (w : Block) (fid : Nat) (f : Frame), w.frame? fid = some f →
    let row := w.retryRow f.queue
    (f.attempts + 1 < w.get Obj.retryRetryLimit row → w.attemptFailed fid =
      w.modFrame fid fun x => { x with attempts := x.attempts + 1 }) ∧
    (w.get Obj.retryRetryLimit row ≤ f.attempts + 1 →
      (w.attemptFailed fid).queueHeld f.queue ∧ (w.attemptFailed fid).get Obj.retryExhausted =
        Obj.retryExhausted.raised (w.get Obj.retryExhausted + 1))

/-- Synthesisers, calibration and coexistence (R141 to R148, R150, R155 to R158): a write of 0x2000 requests a tune,
which starts once the radio is free; lock comes after the VCO selection and is recorded with its time, a timeout ends
the waiting command and a loss of lock counts and tunes again; a segment that is due and finds the medium free runs
once, counts or is abandoned, and the last one completes its calibration; a line at its active level blanks, and its
release blanks until the tail has passed. Where it goes past the manual it rests on the model's choices of log entries
35, 36, 144, 150, 177, 188 and 218. -/
def Obligations.FrontEndsTuneCalibrateAndBlank : Prop :=
  (∀ (s : State) (t : Nat) (r : Radio), s.blk.frozen = false →
    let b := s.blk.tick t
    let u := b.radio r
    let st := b.get (Obj.synthState.of r)
    let settling := b.radioOn r = true ∧ (st = 1 ∨ st = 3)
    (settling → u.isDue 4 = false → Takes (.synthLock t r) s fun x =>
      x.get (Obj.synthState.of r) = 2 ∧ x.get (Obj.tuneTimeLast.of r) = min ((b.now - u.tuneFrom) / 320) 65535 ∧
        x.radios = b.radios) ∧
    (¬ settling ∨ u.isDue 4 → Takes (.synthLock t r) s fun x => x = b) ∧
    (let from_ := if st = 1 then u.tuneFrom else u.waitFrom
      let due := from_ + us (b.get (Obj.lockTimeout.of r)) ≤ b.now
      (¬ settling ∨ ¬ due → Takes (.lockTimeoutExpiry t r) s fun x => x = b) ∧
      (settling → due → u.phase ≠ .waiting → Takes (.lockTimeoutExpiry t r) s fun x =>
        x = b.put (Obj.synthState.of r) 3) ∧
      (settling → due → u.phase = .waiting → u.own = [] → b.radios.length = 3 → Takes (.lockTimeoutExpiry t r) s fun x =>
        x.get (Obj.synthState.of r) = 3 ∧ (x.radio r).phase = .idle ∧ (x.radio r).cmd = none ∧
          x.get (Obj.txStatusCount1.of r) = (Obj.txStatusCount1.of r).raised (b.get (Obj.txStatusCount1.of r) + 1))) ∧
    (b.radioOn r = false ∨ st ≠ 2 → Takes (.lockLost t r) s fun x => x = b) ∧
    (b.radioOn r → st = 2 → Takes (.lockLost t r) s fun x =>
      x.get (Obj.synthState.of r) = 1 ∧
        x.get (Obj.lockLosses.of r) = (Obj.lockLosses.of r).raised (b.get (Obj.lockLosses.of r) + 1) ∧
        sameFrames b x ∧ (u.air = none → x = (b.add (Obj.lockLosses.of r)).settleOn r u.freq u.bw)) ∧
    (b.radioOn r = false ∨ u.tuneDue = false ∨ u.inPpdu ∨ u.seg ≠ none → Takes (.tuneStart t r) s fun x => x = b) ∧
    (b.radioOn r → u.tuneDue → u.inPpdu = false → u.seg = none → b.radios.length = 3 → Takes (.tuneStart t r) s fun x =>
      (x.radio r).tuneDue = false ∧ (x.radio r).freq = b.get (Obj.tuneFreq.of r) ∧ x.get (Obj.synthState.of r) = 1 ∧
        (x.get (Obj.calStatus.of r)).testBit 0 = false ∧ (x.get (Obj.calStatus.of r)).testBit 4 = false ∧
        (x.radio r).isDue 4 ∧ ((b.get (Obj.calEnable.of r)).testBit 0 → (x.radio r).isDue 0)) ∧
    (∀ kind chain ahead,
      let free := if kind = 4 then st == 1 || st == 3 else !u.tuneDue && b.calFree r (u.forced.contains kind) ahead
      let able := b.radioOn r ∧ chain < chainCount r ∧ u.isDue kind ∧ u.seg = none ∧ free
      (¬ able → Takes (.calSegmentStart t r kind chain ahead) s fun x => x = b) ∧
      (able → Takes (.calSegmentStart t r kind chain ahead) s fun x => x =
        b.modRadio r fun y => { y with seg := some { kind, chain, at_ := b.now, forced := u.forced.contains kind } })) ∧
    (∀ last, u.seg = none → Takes (.calSegmentEnd t r last) s fun x => x = b) ∧
    (∀ last sg, u.seg = some sg →
      let w := b.modRadio r fun y => { y with seg := none, delayed := y.delayed || (sg.forced && y.cmd.isSome) }
      (sg.abandon → Takes (.calSegmentEnd t r last) s fun x => x = w.add (Obj.calAbandoned.of r)) ∧
      (sg.abandon = false → Takes (.calSegmentEnd t r last) s fun x => (x.radio r).seg = none ∧
        x.get (Obj.calSegments.of r) = (Obj.calSegments.of r).raised (b.get (Obj.calSegments.of r) + 1) ∧
        (sg.forced → x.get (Obj.calForced.of r) = (Obj.calForced.of r).raised (b.get (Obj.calForced.of r) + 1)) ∧
        (last → (x.get (Obj.calStatus.of r)).testBit sg.kind ∧ (x.radio r).isDue sg.kind = false ∧
          sg.kind ∉ (x.radio r).forced))) ∧
    (∀ kind,
      let starved := (assocGet u.due kind).any fun d => decide (d + ms (b.get (Obj.calStarve.of r)) ≤ b.now)
      (starved → kind ∉ u.forced → Takes (.calStarveExpiry t r kind) s fun x =>
        x = b.modRadio r fun y => { y with forced := y.forced ++ [kind] }) ∧
      (starved = false ∨ kind ∈ u.forced → Takes (.calStarveExpiry t r kind) s fun x => x = b)) ∧
    (∀ kind,
      let old := (u.lastCal kind).all fun y => decide (y.at_ + secs (b.get (Obj.calPeriod.of r)) ≤ b.now)
      let moved := (u.lastCal kind).all fun y => b.tempStep r y.temp
      (b.radioOn r = false ∨ calPeriodic kind = false ∨ old = false →
        Takes (.calPeriodExpiry t r kind false) s fun x => x = b) ∧
      (b.radioOn r = false ∨ calOnTemp kind = false ∨ moved = false →
        Takes (.calPeriodExpiry t r kind true) s fun x => x = b) ∧
      (b.radioOn r → calPeriodic kind → old → Takes (.calPeriodExpiry t r kind false) s fun x => x = b.calDue r kind) ∧
      (b.radioOn r → calOnTemp kind → moved → Takes (.calPeriodExpiry t r kind true) s fun x =>
        (x.get (Obj.calStatus.of r)).testBit kind = false ∧ x.radios = (b.calDue r kind).radios)) ∧
    (∀ mv, Takes (.paSupplyRead t r mv) s fun x => x =
      if b.radioOn r ∧ (r = .l ∨ b.get (Obj.paSupplyPage.of r) ≠ 255) then b.modRadio r fun y => { y with paMv := mv } else b) ∧
    (∀ (input : Fin 2) (level : Bool),
      let active := level != (b.get Obj.coexPolarity).testBit input
      let src := 4 + input.val
      let w : Block := { b with pins :=
        if input = 0 then { b.pins with coexIn0 := level } else { b.pins with coexIn1 := level } }
      (active → src ∉ b.coex.blanks → Takes (.coexInChange t input level) s fun x => x = w.blankOn src ∧ src ∈ x.coex.blanks) ∧
      (active → src ∈ b.coex.blanks → Takes (.coexInChange t input level) s fun x =>
        src ∈ x.coex.blanks ∧ ∀ y ∈ x.coex.tails, y.1 ≠ src) ∧
      (active = false → Takes (.coexInChange t input level) s fun x =>
        (if input = 0 then x.pins.coexIn0 else x.pins.coexIn1) = level ∧ x.radios = b.radios ∧
          x.coex.blanks = b.coex.blanks ∧ (src ∈ b.coex.blanks → ∃ y ∈ x.coex.tails, y.1 = src))) ∧
    ∀ source,
      let done := b.coex.tails.any fun y => y.1 == source && decide (y.2 + us (b.get Obj.blankTail) ≤ b.now)
      (done → Takes (.blankTailExpiry t source) s fun x =>
        source ∉ x.coex.blanks ∧ (∀ y ∈ x.coex.tails, y.1 ≠ source) ∧ x.radios = b.radios) ∧
      (done = false → Takes (.blankTailExpiry t source) s fun x => x = b)) ∧
  ∀ (s : State) (t : Nat) (p : Port) (r : Radio) (v : Nat),
    Writes (.tuneWrite t p r 1 v) s t p (0x2000 + 0x400 * radioNum r) 1 noRow 4 v (fun w _ _ =>
      (0, (w.put (Obj.tuneFreq.of r) v).modRadio r fun y => { y with tuneDue := true })) ∧
    Writes (.tuneWrite t p r 2 v) s t p (0x2000 + 0x400 * radioNum r) 2 noRow 2 v (fun w _ _ =>
      (0, (w.put (Obj.tuneBw.of r) v).modRadio r fun y => { y with tuneDue := true }))

/-- The region (R159 to R165): a commit is refused with RANGE for a wrong CRC or a wrong row, else its image waits for
the flip, which makes it active, counts it and makes every running edge's load due; an edge loads at a PPDU boundary; a
bad active half stops transmission and a bad shadow is loaded again; a radar detection bars its subchannels for
NOP_TIME; CAC_TIME without radar makes the channel available; a write of TEST_MODE stops a test transmission and starts
the one asked for. Where it goes past the manual it rests on the model's choices of log entries 45, 153, 179, 186, 187
and 216. -/
def Obligations.RegionCommitsAtomicallyAndBarsChannels : Prop :=
  (∀ (s : State) (t : Nat), s.blk.frozen = false →
    let b := s.blk.tick t
    (∀ (p : Port) (crc : Nat),
      (b.portOpen p = false → Takes (.regionCommit t p crc) s fun x => x = b) ∧
      (b.portOpen p → b.pointIdle = false → Takes (.regionCommit t p crc) s fun x =>
        x = b.enqueueAsk (b.waitOf p (.write 0x2C00 6 noRow 4 crc .plain))) ∧
      (b.portOpen p → b.pointIdle →
        (∀ e, b.checkWrite p 0x2C00 6 noRow 4 crc = .error e → Takes (.regionCommit t p crc) s fun x =>
          x = b.answered p 0x2C00 6 noRow e 0) ∧
        (∀ r k, b.checkWrite p 0x2C00 6 noRow 4 crc = .ok (r, k) →
          (crc ≠ b.stageCrc ∨ b.stagedRegion.edgesOk = false → Takes (.regionCommit t p crc) s fun x =>
            x = b.answered p 0x2C00 6 noRow 6 0) ∧
          (crc = b.stageCrc → b.stagedRegion.edgesOk → Takes (.regionCommit t p crc) s fun x =>
            x.region = { b.region with commit := some { image := b.stagedRegion }, pendingNew := some crc } ∧
              x.get Obj.regionState = b.get Obj.regionState ∧ x.radios = b.radios ∧ x.pointIdle = false)))) ∧
    (b.region.commit = none → Takes (.regionFlip t) s fun x => x = b) ∧
    (∀ c, b.region.commit = some c → Takes (.regionFlip t) s fun x =>
      x.region.active = some c.image ∧ x.region.commit = none ∧ x.region.pendingNew = none ∧
        x.get Obj.regionCode = c.image.code ∧ x.get Obj.regionVersion = c.image.version ∧ x.get Obj.regionCrc = c.image.crc ∧
        x.get Obj.regionState = 1 ∧ x.get Obj.regionChanges = Obj.regionChanges.raised (b.get Obj.regionChanges + 1) ∧
        ∀ r : Radio, b.radioOn r → b.radios.length = 3 → (x.radio r).loadDue = some b.now) ∧
    (∀ r : Radio,
      let u := b.radio r
      (∀ ok crc, b.radioOn r = false ∨ u.loadDue = none ∨ u.inPpdu → Takes (.shadowLoad t r ok crc) s fun x => x = b) ∧
      (∀ crc, b.radioOn r → u.loadDue ≠ none → u.inPpdu = false → b.radios.length = 3 → b.halfBad = false →
        Takes (.shadowLoad t r true crc) s fun x => (x.radio r).shadow = b.region.active ∧ (x.radio r).loadDue = none) ∧
      (∀ crc, b.radioOn r → u.loadDue ≠ none → u.inPpdu = false →
        Takes (.shadowLoad t r false crc) s fun x => x.get Obj.regionState = 2) ∧
      (∀ ok crc, b.radioOn r → b.get Obj.regionState ≠ 0 → Takes (.shadowCrcCheck t r ok false crc) s fun x =>
        x = b.regionFault crc ∧ x.get Obj.regionState = 2) ∧
      (∀ crc, b.radioOn r → b.get Obj.regionState ≠ 0 → b.halfBad = false →
        Takes (.shadowCrcCheck t r false true crc) s fun x =>
          x = (b.modRadio r fun y => { y with shadow := b.region.active, loadDue := none }).loadsSettle) ∧
      (∀ crc, b.halfBad = false → Takes (.shadowCrcCheck t r true true crc) s fun x => x = b) ∧
      (∀ ok ok1 crc, b.radioOn r = false ∨ b.get Obj.regionState = 0 →
        Takes (.shadowCrcCheck t r ok ok1 crc) s fun x => x = b)) ∧
    (∀ mask, b.radioOn .h = false ∨ b.radarOn = false → Takes (.radarDetected t mask) s fun x => x = b) ∧
    (∀ mask g, b.radioOn .h → b.radarOn → (b.radio .h).shadow = some g → Takes (.radarDetected t mask) s fun x =>
      x.get (Obj.radarEvents.of .h) = (Obj.radarEvents.of .h).raised (b.get (Obj.radarEvents.of .h) + 1) ∧
        (∀ i < 99, mask.testBit i → assocGet x.region.barred i = some (b.rtcSec + g.nop)) ∧
        (∀ i, mask.testBit i = false → assocGet x.region.barred i = assocGet b.region.barred i) ∧
        sameFrames b x) ∧
    (∀ d g, b.radioOn .h → b.region.cacFrom = some d → (b.radio .h).shadow = some g →
      (d + secs g.cac ≤ b.now → Takes (.cacExpiry t) s fun x =>
        x = { b with region := { b.region with cacFrom := none, cacDone := true } }) ∧
      (b.now < d + secs g.cac → Takes (.cacExpiry t) s fun x => x = b)) ∧
    (b.radioOn .h = false ∨ b.region.cacFrom = none → Takes (.cacExpiry t) s fun x => x = b) ∧
    (∀ sub, (∀ e, assocGet b.region.barred sub = some e → b.rtcSec < e) → Takes (.nopExpiry t sub) s fun x => x = b) ∧
    ∀ sub e, assocGet b.region.barred sub = some e → e ≤ b.rtcSec → Takes (.nopExpiry t sub) s fun x =>
      x.region.barred = assocDel b.region.barred sub ∧ assocGet x.region.barred sub = none ∧ x.frames = b.frames) ∧
  (∀ (s : State) (t v : Nat) (p : Port) (r : Radio),
    Writes (.regionClear t p) s t p 0x2C00 7 noRow 1 1 (fun w _ _ => w.regionClear) ∧
    Writes (.testModeWrite t p r v) s t p (0x2005 + 0x400 * radioNum r) 1 noRow 1 v (fun w _ _ => w.writeTestMode r v)) ∧
  ∀ (w : Block) (r : Radio) (v : Nat),
    (w.region.commit ≠ none ∨ w.region.loads → w.regionClear = (9, w)) ∧
    (∀ g, w.region.commit = none → w.region.loads = false → w.region.active = some g → (w.regionClear).1 = 0 ∧
      (w.regionClear).2.get Obj.cacTime = g.cac ∧ (w.regionClear).2.get Obj.stageCode = g.code ∧
      (w.regionClear).2.region = w.region) ∧
    (w.writeTestMode r v).1 = 0 ∧ (w.writeTestMode r v).2.get (Obj.testMode.of r) = v ∧
    (v = 0 ∨ w.radioOn r = false → (w.writeTestMode r v).2 = (w.stopTest r 0).put (Obj.testMode.of r) v) ∧
    (v ≠ 0 → w.radioOn r → (w.radio r).cmd = none → (w.radio r).phase = .idle → w.radios.length = 3 →
      ∃ c, ((w.writeTestMode r v).2.radio r).cmd = some c ∧ c.what = .testWave ∧ c.kind = .test ∧
        ((w.writeTestMode r v).2.radio r).phase = .waiting)

/-! ### Medium access, neighbours and stations (R194 to R228) -/

/-- Access to the medium and the duty bins (R194, R195, R198 to R201, R203, R204, R222): each ready EDCA function counts
down, the highest at zero wins and the others double their window; CSMA-CA backs off until its limit; an acknowledgement
delivers and its absence is a failed attempt; bins that leave the window change no sum, and a charge adds to every row
it overlaps; the numbers of a neighbour's frames are accepted, duplicate or stale by their distance. Where it goes past
the manual it rests on the model's choices of log entries 21, 33, 35, 135 and 140. -/
def Obligations.MediumAccessCountsDownChargesAndTestsNumbers : Prop :=
  (∀ (s : State) (t : Nat) (r : Radio), s.blk.frozen = false →
    let b := s.blk.tick t
    let idle := ((b.radio r).frozenAt.map fun f => b.now - f).getD (secs 3600)
    let counts := fun ac : Nat => (b.edca r ac).live = true ∧ b.aifs r ac ≤ idle
    let ready := fun ac : Nat => counts ac ∧ (b.edca r ac).count ≤ 1
    (r = .l ∨ b.radioOn r = false ∨ (b.radio r).busy b.now → Takes (.backoffSlot t r) s fun x => x = b) ∧
    (r ≠ .l → b.radioOn r → (b.radio r).busy b.now = false → Takes (.backoffSlot t r) s fun x => x.frames = b.frames ∧
      (∀ ac < 4, ¬ counts ac → x.edca r ac = b.edca r ac) ∧
      (∀ ac < 4, counts ac → ¬ ready ac → x.edca r ac = { b.edca r ac with count := (b.edca r ac).count - 1 }) ∧
      ((∀ ac < 4, ¬ ready ac) → x.outs = b.outs) ∧
      (∀ ac < 4, ready ac → (∀ k < 4, ac < k → ¬ ready k) →
        x.outs = b.outs ++ [.radio r 2 [ac]] ∧ (x.edca r ac).live = false ∧
        (b.radios.length = 3 → (x.radio r).txop = some (ac, b.txopEnd r ac)) ∧
          ∀ k < ac, ready k → (x.edca r k).live ∧
            (x.edca r k).ecw = min ((b.edca r k).ecw + 1) (b.get Obj.edcaEcwmax (edcaRow r k)))) ∧
    (b.radioOn r = false → Takes (.ccaBusy t r) s fun x => x = b) ∧
    (b.radioOn r → Takes (.ccaBusy t r) s fun x => x = b.freeze r b.now ∧ (b.radios.length = 3 →
      (x.radio r).frozenAt = some (max b.now (max (b.radio r).ccaUntil ((b.radio r).frozenAt.getD 0)))))) ∧
  (∀ (s : State) (t : Nat), s.blk.frozen = false →
    let b := s.blk.tick t
    let u := b.radio .l
    (∀ busy draw, u.cmd = none → Takes (.csmaCcaEnd t busy draw) s fun x => x = b) ∧
    (∀ busy draw c, u.cmd = some c →
        u.phase ≠ .waiting ∨ c.kind ≠ .contended ∨ u.txop.isSome ∨ b.mac.csma = none →
      Takes (.csmaCcaEnd t busy draw) s fun x => x = b) ∧
    (∀ draw c nb be d, u.cmd = some c → u.phase = .waiting → c.kind = .contended → u.txop = none →
        b.mac.csma = some (nb, be, d) →
      let e := min (be + 1) (b.get Obj.maxBe)
      (u.busy b.now = false → Takes (.csmaCcaEnd t false draw) s fun x =>
        x = (b.modRadio .l fun y => { y with txop := some (0, 0) }).emit (.radio .l 2 [])) ∧
      (∀ busy : Bool, (busy ∨ u.busy b.now) → nb + 1 ≤ b.get Obj.maxBackoffs → Takes (.csmaCcaEnd t busy draw) s fun x =>
        x = (b.modRadio .l fun y => { y with txop := none }).modMac fun m => { m with csma := some (nb + 1, e, draw % 2 ^ e) }) ∧
      (∀ busy : Bool, (busy ∨ u.busy b.now) → b.get Obj.maxBackoffs < nb + 1 → u.own = [] → b.radios.length = 3 →
        Takes (.csmaCcaEnd t busy draw) s fun x =>
          x.mac.csma = none ∧ (x.radio .l).phase = .idle ∧ (x.radio .l).cmd = none ∧ sameFrames b x)) ∧
    (u.phase ≠ .awaiting ∨ b.now < b.ackBy ∨ b.hearing .l b.ackBy → Takes (.ackWaitExpiry t) s fun x => x = b) ∧
    (u.phase ≠ .awaiting → ∀ pending, Takes (.lowbandAckReceived t pending) s fun x => x = b) ∧
    (b.ackBy ≤ b.now → b.hearing .l b.ackBy = false → Takes (.ackWaitExpiry t) s fun x =>
      x = b.endExchange .l [] false false) ∧
    (∀ pending, Takes (.lowbandAckReceived t pending) s fun x => x = b.endExchange .l [] true pending) ∧
    (∀ c fid, u.phase = .awaiting → u.cmd = some c → c.what = .frame fid → u.own = [] → b.radios.length = 3 →
      (b.ackBy ≤ b.now → b.hearing .l b.ackBy = false → Takes (.ackWaitExpiry t) s fun x =>
        (x.radio .l).phase = .idle ∧ (x.radio .l).cmd = none ∧ sameFrames b x) ∧
      (∀ f pending, b.frame? fid = some f → 4608 ≤ f.queue → f.queue < 5632 →
        Takes (.lowbandAckReceived t pending) s fun x => (x.radio .l).phase = .idle ∧ x.frame? fid = none ∧
          x.get Obj.deliveredTotal = Obj.deliveredTotal.raised (b.get Obj.deliveredTotal + 1))) ∧
    (∀ c row pending, u.phase = .awaiting → u.cmd = some c → c.what = .dataRequest row →
      Takes (.lowbandAckReceived t pending) s fun x => x.mac.polling = pending ∧ x.frames = b.frames) ∧
    (b.mac.binAt = some b.lifeSec → Takes (.dutyBinBoundary t) s fun x => x = b) ∧
    (b.mac.binAt ≠ some b.lifeSec → b.radios.length = 3 → Takes (.dutyBinBoundary t) s fun x =>
      let w := (b.modMac fun m => { m with binAt := some b.lifeSec }).dutyPrune
      let short := fun (r : Radio) (c : TxCmd) => w.dutyShort r (w.occupied r c.ppdu.form).1 (w.occupied r c.ppdu.form).2 c.isAck
        (w.paOn r (w.airOf c.ppdu) c.kind)
      x.frames = b.frames ∧ x.mac.bins = w.mac.bins ∧ x.mac.binAt = some b.lifeSec ∧
        ∀ r c, (c ∈ (x.radio r).deferred ↔ c ∈ (b.radio r).deferred ∧ short r c ≠ []) ∧
          (c ∈ (b.radio r).deferred → short r c = [] → commandable c → .radio r 7 [] ∈ x.outs)) ∧
    (∀ beacon,
      let due := b.mac.ebAt = none ∨ ∃ e, b.mac.ebAt = some e ∧ e + ms (b.get Obj.ebInterval) ≤ b.now
      (b.baseMode.mains = false ∨ b.radioOn .l = false ∨ ¬ due → Takes (.ebSend t beacon) s fun x => x = b) ∧
      (b.baseMode.mains → b.radioOn .l → due → Takes (.ebSend t beacon) s fun x =>
        let c : TxCmd := { what := .enhBeacon, ppdu := beacon, power := ownPower, noAck := true }
        x = (b.modMac fun m => { m with ebAt := some b.now }).sendOwn .l c ∧ (b.radios.length = 3 →
          if u.phase = .idle then (x.radio .l).cmd = some c ∧ (x.radio .l).phase = .waiting
          else (x.radio .l).own = u.own ++ [c])))) ∧
  (∀ (w : Block) (r : Radio) (c : TxCmd), w.radios.length = 3 →
    let u := w.radio r
    let y := (w.sendOwn r c).radio r
    (u.phase = .idle → y.cmd = some c ∧ y.phase = .waiting ∧ y.waitFrom = w.now ∧ y.own = u.own) ∧
    (u.phase ≠ .idle → y.cmd = u.cmd ∧ y.phase = u.phase ∧ y.own = u.own ++ [c])) ∧
  (∀ (w : Block) (row : Nat), assocSorted w.mac.bins → w.dutyPrune.dutyUsed row = w.dutyUsed row) ∧
  (∀ (w : Block) (r : Radio) (centre bw n row : Nat), row ∈ (w.dutyRows r centre bw).map (·.1) →
    (∀ y ∈ w.mac.rowBins row, ¬ (y.span = 1 ∧ y.sec = w.lifeSec)) →
    (w.dutyCharge r centre bw false n).2.dutyUsed row = ((w.dutyUsed row).1 + n, (w.dutyUsed row).2) ∧
      (w.dutyCharge r centre bw true n).2.dutyUsed row = ((w.dutyUsed row).1, (w.dutyUsed row).2 + n)) ∧
  ∀ rx hist d : Nat, d < 256 →
    let y := seqTest rx hist ((rx + d) % 256)
    (d = 0 → y = .duplicate) ∧
    (1 ≤ d → d ≤ 127 → y = .accept ((rx + d) % 65536) ((hist * 2 ^ d ||| 2 ^ (d - 1)) % 65536)) ∧
    (128 ≤ d → d < 240 → y = .stale) ∧
    (240 ≤ d → y = if hist.testBit (255 - d) then .duplicate else .accept rx (hist ||| 2 ^ (255 - d)))

/-- Neighbours and children (R121, R207 to R213, R223, R331): a child's next frame takes a free slot of its indirect
queue; a poll is answered with Frame Pending; persistence and inactivity abandon; the lost-partner procedure listens,
scans, and ends with its record; Day Watch polls correct the time; a neighbour is admitted with an address no other row
has, and removed. Where it goes past the manual it rests on the model's choices of log entries 36, 139, 141 and 145. -/
def Obligations.NeighboursAreServedLostAndRemoved : Prop :=
  (∀ (s : State) (t row : Nat), s.blk.frozen = false →
    let b := s.blk.tick t
    let child := b.isChild row = true ∧ b.radioOn .l = true
    let next := (b.nbrQueue row).find? fun f => f.indirect.isNone
    (¬ child ∨ next = none ∨ 4 ≤ (b.indirectOf row).length ∨ 2048 ≤ (b.frames.filter fun g => g.indirect.isSome).length →
      Takes (.indirectEnqueue t row) s fun x => x = b) ∧
    (∀ f, child → next = some f → (b.indirectOf row).length < 4 → (b.frames.filter fun g => g.indirect.isSome).length < 2048 →
      Takes (.indirectEnqueue t row) s fun x =>
        x = (b.modFrame f.id fun y => { y with indirect := some b.now }).showIndirect row) ∧
    (∀ form seq ackAir,
      let b1 := ((b.hearNbr row b.now).partnerHeard row).timeInCell row tsTxOffset b.now
      let pend := !(b1.indirectOf row).isEmpty
      let ack := b1.ackCmd .l form [(row, seq, 1)] seq pend ackAir
      let d := b1.seqCheck row seq
      (¬ child → Takes (.childPoll t row form seq ackAir) s fun x => x = b) ∧
      (child → d.1 = none → Takes (.childPoll t row form seq ackAir) s fun x => x = d.2) ∧
      (child → d.1 ≠ none → b1.ackPasses .l ack = false → Takes (.childPoll t row form seq ackAir) s fun x =>
        x = b1.add Obj.ackRefused) ∧
      (child → d.1 ≠ none → b1.ackPasses .l ack → Takes (.childPoll t row form seq ackAir) s fun x =>
        sameFrames b x ∧ (row ∈ x.mac.polled ↔ row ∈ b.mac.polled ∨ pend = true) ∧
          assocGet x.mac.heardNbr row = some b.now)) ∧
    (∀ fid, (∀ f, b.frame? fid = some f → ∀ e, f.indirect = some e → b.now < e + secs (b.get Obj.childPersist) ∨
        b.hearing .l (e + secs (b.get Obj.childPersist)) ∨ f.queue - 4608 ∈ b.mac.polled) →
      Takes (.childPersistExpiry t fid) s fun x => x = b) ∧
    (∀ fid f e, b.frames.filter (fun f => f.id == fid) = [f] → f.indirect = some e →
        e + secs (b.get Obj.childPersist) ≤ b.now → b.hearing .l (e + secs (b.get Obj.childPersist)) = false →
        f.queue - 4608 ∉ b.mac.polled → f.queue < 5632 →
      Takes (.childPersistExpiry t fid) s fun x => x.frame? fid = none ∧
        x.get Obj.abandonPersist = Obj.abandonPersist.raised (b.get Obj.abandonPersist + 1)) ∧
    (
      let due := assocNat b.mac.heardSta row + secs (b.get Obj.staIdleTime)
      (b.now < due ∨ b.hearing (b.staRadio row) due → Takes (.inactivityExpiry t (.station row)) s fun x => x = b) ∧
      (due ≤ b.now → b.hearing (b.staRadio row) due = false → Takes (.inactivityExpiry t (.station row)) s fun x =>
        x = b.departStation row ∧ (b.staUsed row → row < 512 → departed 2 row b x ∧ x.get Obj.staState row = 0))) ∧
    (
      let due := assocNat b.mac.heardNbr row + b.nbrTimeoutOf row
      (b.now < due ∨ b.hearing .l due → Takes (.inactivityExpiry t (.neighbour row)) s fun x => x = b) ∧
      (due ≤ b.now → b.hearing .l due = false → Takes (.inactivityExpiry t (.neighbour row)) s fun x =>
        x = b.departNeighbour row ∧ (b.nbrUsed row → row < 1024 → departed 3 row b x ∧ x.get Obj.nbrAddr row = 0))) ∧
    (∀ interval,
      let heard := ∃ e, assocGet b.mac.heardNbr row = some e ∧ b.now - 2 * b.guard (b.elapsedOf row) ≤ e
      (b.nbrUsed row = false ∨ b.radioOn .l = false ∨ heard ∨ b.hearing .l b.now ∨ b.lostOf row ≠ none →
        Takes (.guardExpiry t row interval) s fun x => x = b) ∧
      (b.nbrUsed row → b.radioOn .l → ¬ heard → b.hearing .l b.now = false → b.lostOf row = none →
        Takes (.guardExpiry t row interval) s fun x =>
          x.lostOf row = some ⟨row, 1, 0, b.now, b.elapsedOf row, us interval, b.now⟩ ∧ x.regs = b.regs)) ∧
    (b.lostOf row = none → ∀ heard, Takes (.lostPartnerListen t row heard) s (fun x => x = b) ∧
      Takes (.scanDwellEnd t row heard) s fun x => x = b) ∧
    (∀ l : Lost, b.lostOf row = some l →
      let ended := fun (failed : Bool) (x : Block) => x.lostOf row = none ∧
        x.get Obj.lostPartner = Obj.lostPartner.raised (b.get Obj.lostPartner + 1) ∧
        x.get Obj.lostPartnerFailed = (if failed then Obj.lostPartnerFailed.raised (b.get Obj.lostPartnerFailed + 1)
          else b.get Obj.lostPartnerFailed)
      let full := l.interval / 2 ≤ b.guard l.elapsed * 2 ^ (l.k + 1)
      let listen := l.beaconAt (b.guard l.elapsed) (l.k + 1) + b.listenWidth l (l.k + 1)
      let dwell := l.dwellAt + ms (b.get Obj.scanDwell)
      (l.step ≠ 1 → ∀ heard, Takes (.lostPartnerListen t row heard) s fun x => x = b) ∧
      (l.step = 1 → Takes (.lostPartnerListen t row true) s fun x => ended false x) ∧
      (l.step = 1 → b.now < listen ∨ b.hearing .l listen → Takes (.lostPartnerListen t row false) s fun x => x = b) ∧
      (l.step = 1 → listen ≤ b.now → b.hearing .l listen = false → Takes (.lostPartnerListen t row false) s fun x =>
        x.lostOf row = some (if full then { l with step := 2, k := 0, dwellAt := b.now } else { l with k := l.k + 1 }) ∧
          x.time = b.time) ∧
      (l.step ≠ 2 → ∀ heard, Takes (.scanDwellEnd t row heard) s fun x => x = b) ∧
      (l.step = 2 → Takes (.scanDwellEnd t row true) s fun x => ended false x ∧ x.mac.suspended = false) ∧
      (l.step = 2 → b.now < dwell ∨ b.hearing .l dwell → Takes (.scanDwellEnd t row false) s fun x => x = b) ∧
      (l.step = 2 → dwell ≤ b.now → b.hearing .l dwell = false →
        (l.k + 1 < b.get Obj.hopLen → Takes (.scanDwellEnd t row false) s fun x =>
          x.lostOf row = some { l with step := 2, k := l.k + 1, dwellAt := b.now }) ∧
        (b.get Obj.hopLen ≤ l.k + 1 → Takes (.scanDwellEnd t row false) s fun x =>
          ended true x ∧ assocGet x.mac.scanWait row = some b.now))) ∧
    (
      let due := ∃ e, assocGet b.mac.scanWait row = some e ∧ e + secs (b.get Obj.scanInterval) ≤ b.now
      (¬ due ∨ b.nbrUsed row = false ∨ b.radioOn .l = false ∨ b.lostOf row ≠ none →
        Takes (.scanIntervalExpiry t row) s fun x => x = b) ∧
      (due → b.nbrUsed row → b.radioOn .l → b.lostOf row = none → Takes (.scanIntervalExpiry t row) s fun x =>
        x.lostOf row = some ⟨row, 2, 0, b.now, b.elapsedOf row, 0, b.now⟩ ∧ assocGet x.mac.scanWait row = none)) ∧
    (∀ heard c freq request, b.mac.parent = none → Takes (.dwPoll t heard c freq request) s fun x => x = b) ∧
    (∀ c freq request, b.mac.parent = some row →
      (b.mode.mode ≠ .dayWatch ∨ b.mac.suspended ∨ b.radioOn .l = false ∨ b.pollOpen ∨ b.pollDue row = false →
        ∀ heard, Takes (.dwPoll t heard c freq request) s fun x => x = b) ∧
      (b.mode.mode = .dayWatch → b.mac.suspended = false → b.radioOn .l → b.pollOpen = false → b.pollDue row →
        (Takes (.dwPoll t true c freq request) s fun x => x.time.dwCorr = some b.now ∧ x.time.dwRef = b.now ∧
          x.time.dwBase = b.time.dwBase + gain 0 (b.now - b.time.dwRef) + c * 2 ^ 40 ∧ x.lostOf row = none ∧
          x.mac.pollAt = some b.now ∧ (b.radios.length = 3 → (b.radio .l).phase = .idle →
            ∃ q, (x.radio .l).cmd = some q ∧ q.what = .dataRequest row ∧ (x.radio .l).phase = .waiting)) ∧
        (b.lostOf row = none → Takes (.dwPoll t false c freq request) s fun x =>
          x.lostOf row = some ⟨row, 1, 0, b.now, b.elapsedOf row, ms (b.get Obj.ebInterval), b.now⟩ ∧ x.time = b.time ∧
            x.mac.pollAt = some b.now))) ∧
    (
      let due := b.mode.mode = .dayWatch ∧ ∃ e, b.time.dwCorr = some e ∧ e + secs (3 * b.get Obj.dwPollInterval) ≤ b.now
      (¬ due → Takes (.dwTimeValidExpiry t) s fun x => x = b) ∧
      (due → Takes (.dwTimeValidExpiry t) s fun x => x.time = { b.time with dwCorr := none } ∧ x.mac = b.mac))) ∧
  (∀ (s : State) (t row v : Nat) (p : Port),
    Writes (.remove t p row) s t p 0x3200 12 row 1 1 (fun w _ k => w.writeRemove k 1) ∧
    Writes (.neighbourAdmit t p row v) s t p 0x3200 1 row 8 v fun w _ k => w.writeNbrAddr k v) ∧
  ∀ (w : Block) (row v : Nat), row < 1024 →
    (w.nbrUsed row = false → w.writeRemove row 1 = (9, w)) ∧
    (w.nbrUsed row → (w.writeRemove row 1).1 = 0 ∧ (w.writeRemove row 1).2.get Obj.nbrAddr row = 0 ∧
      departed 3 row w (w.writeRemove row 1).2) ∧
    (∀ k < 1024, v ≠ 0 → k ≠ row → w.get Obj.nbrAddr k = v → w.writeNbrAddr row v = (6, w)) ∧
    (v ≠ 0 → w.nbrUsed row = false → (∀ k ∈ w.listedRows Obj.nbrAddr, k ≠ row → w.get Obj.nbrAddr k ≠ v) →
      let x := w.writeNbrAddr row v
      x.1 = 0 ∧ x.2.get Obj.nbrAddr row = v ∧ x.2.get Obj.nbrRole row = Obj.nbrRole.default row ∧
        x.2.get Obj.nbrTxMode row = Obj.nbrTxMode.default row ∧ x.2.nbrMac row = { row := row })

/-- Stations (R121, R214 to R218, R223, R227): a round lists the eligible stations with work; an association is admitted
into the lowest free row within every limit or refused with status 17; a departure abandons; probe requests are answered
by the BSSs they name; TWT is accepted or dictated; a served BSS sends its beacon; a BSS is enabled only when its row is
complete, and disabling it removes its stations. Where it goes past the manual it rests on the model's choices of log
entries 146, 147, 181 and 189. -/
def Obligations.StationsAssociateAndDepart : Prop :=
  (∀ (s : State) (t row : Nat) (r : Radio), s.blk.frozen = false →
    let b := s.blk.tick t
    (
      let early := ∃ e, assocGet b.mac.roundAt (radioNum r) = some e ∧ b.now < e + ms (b.get Obj.roundTime)
      (r = .l ∨ b.radioOn r = false ∨ early → Takes (.roundStart t r) s fun x => x = b) ∧
      (r ≠ .l → b.radioOn r → ¬ early → Takes (.roundStart t r) s fun x =>
        x.mac.down = b.mac.down.set (radioNum r) (b.candidates r).1 ∧ x.mac.up = b.mac.up.set (radioNum r) (b.candidates r).2 ∧
          assocGet x.mac.roundAt (radioNum r) = some b.now ∧ x.regs = b.regs ∧
          x.outs = b.outs ++ [.radio r 15 ((b.candidates r).1 ++ [65535] ++ (b.candidates r).2)])) ∧
    (∀ k, (k ∈ (b.candidates r).1 ↔ k ∈ b.listedRows Obj.staState ∧ b.eligible r k ∧ b.staDemand k ≠ 0) ∧
      (k ∈ (b.candidates r).2 ↔ k ∈ b.listedRows Obj.staState ∧ b.eligible r k ∧ assocNat b.mac.reports k ≠ 0)) ∧
    (∀ bss addr uapsd,
      (b.bssServed r bss = false → Takes (.assocRequest t r bss addr uapsd) s fun x => x = b) ∧
      (b.bssServed r bss → b.mode.drain ≠ none → Takes (.assocRequest t r bss addr uapsd) s fun x =>
        x = b.emit (.radio r 8 [bss, addr, 17])) ∧
      (b.bssServed r bss → b.mode.drain = none → (∀ k ∈ b.listedRows Obj.staState, b.get Obj.staAddr k ≠ addr) →
        (b.admits r bss = false ∨ (∀ k < 512, b.staUsed k) → Takes (.assocRequest t r bss addr uapsd) s fun x =>
          x = (b.add Obj.admitRefused).emit (.radio r 8 [bss, addr, 17])) ∧
        (b.admits r bss → row < 512 → b.staUsed row = false → (∀ k < row, b.staUsed k) →
          Takes (.assocRequest t r bss addr uapsd) s fun x =>
            x.outs = b.outs ++ [.radio r 8 [bss, addr, 0, b.ampduExponent]] ∧ x.get Obj.staAddr row = addr ∧
            x.get Obj.staAid row = row + 1 ∧ x.get Obj.staRadioBss row = 16 * radioNum r + bss ∧
            (row ∈ x.mac.uapsd ↔ uapsd = true) ∧ assocGet x.mac.heardSta row = some b.now ∧
            (b.get (Obj.bssAkm.of r) bss = 0 → x.get Obj.staState row = 2 ∧ x.get (Obj.bssStations.of r) bss =
              (Obj.bssStations.of r).raised (b.get (Obj.bssStations.of r) bss + 1)) ∧
            (b.get (Obj.bssAkm.of r) bss ≠ 0 → b.boundCtx 1 row = none → x.get Obj.staState row = 1)))) ∧
    (b.staUsed row = false → Takes (.disassocReceived t row) s fun x => x = b) ∧
    (b.staUsed row → row < 512 → Takes (.disassocReceived t row) s fun x =>
      departed 2 row b x ∧ x.get Obj.staState row = 0) ∧
    (∀ ssid len, Takes (.probeRequest t r ssid len) s fun x => x.regs = b.regs ∧
      ∀ bss < 16, .radio r 9 [bss, b.ampduExponent] ∈ x.outs ↔
        .radio r 9 [bss, b.ampduExponent] ∈ b.outs ∨ (b.bssServed r bss = true ∧
        if len = 0 then b.is (Obj.bssHideSsid.of r) bss = false
        else b.get (Obj.bssSsidLen.of r) bss = len ∧ b.get (Obj.bssSsid.of r) bss / 256 ^ (32 - len) = ssid)) ∧
    (∀ sp broadcast, b.get Obj.staState row ≠ 2 → Takes (.twtSetup t row sp broadcast) s fun x => x = b) ∧
    (∀ sp, b.get Obj.staState row = 2 →
      let ok := b.is Obj.twtEnable = true ∧ b.get Obj.twtMinSp ≤ sp
      (Takes (.twtSetup t row sp true) s fun x =>
        x = (b.put Obj.staPsState 4 row).emit (.radio (b.staRadio row) 10 [row, 2, 0])) ∧
      (ok → Takes (.twtSetup t row sp false) s fun x => assocGet x.mac.twt row = some sp ∧ x.get Obj.staPsState row = 3 ∧
        x.outs = b.outs ++ [.radio (b.staRadio row) 10 [row, 1, sp]]) ∧
      (¬ ok → Takes (.twtSetup t row sp false) s fun x =>
        x = b.emit (.radio (b.staRadio row) 10 [row, 0, b.get Obj.twtMinSp]))) ∧
    (∀ att, assocGet b.mac.twt row = none → Takes (.twtLeadStart t row) s (fun x => x = b) ∧
      Takes (.twtSpStart t row att) s fun x => x = b) ∧
    (∀ att sp, assocGet b.mac.twt row = some sp →
      (Takes (.twtLeadStart t row) s fun x => x.regs = b.regs ∧
        assocGet x.mac.inSp row = some (b.now + us (b.get Obj.twtLead) + us sp)) ∧
      (Takes (.twtSpStart t row att) s fun x => x.regs = b.regs ∧ assocGet x.mac.inSp row = some (b.now + us sp) ∧
        (att → assocGet x.mac.heardSta row = some b.now))) ∧
    (∀ bss beacon,
      let key := 16 * radioNum r + bss
      let due := b.bssServed r bss = true ∧ b.tbttNow r bss = true ∧ assocGet b.mac.tbtts key ≠ some b.tsf
      (¬ due → Takes (.tbtt t r bss beacon) s fun x => x = b) ∧
      (due → Takes (.tbtt t r bss beacon) s fun x =>
        let c : TxCmd := { what := .beacon bss, ppdu := beacon, power := ownPower, noAck := true }
        x = (b.modMac fun m => { m with tbtts := assocPut m.tbtts key b.tsf }).sendOwn r c ∧ (b.radios.length = 3 →
          if (b.radio r).phase = .idle then (x.radio r).cmd = some c ∧ (x.radio r).phase = .waiting
          else (x.radio r).own = (b.radio r).own ++ [c])))) ∧
  (∀ (s : State) (t row v : Nat) (p : Port) (r : Radio),
    (r ≠ .l → Writes (.bssEnableWrite t p r row v) s t p (0x2040 + 0x400 * radioNum r) 1 row 1 v
      fun w _ k => w.writeBssEnable r k v) ∧
    Writes (.kick t p row) s t p 0x3100 7 row 1 1 fun w _ k => w.writeKick k 1) ∧
  ∀ (w : Block) (row : Nat) (r : Radio),
    (w.staUsed row = false → w.writeKick row 1 = (9, w)) ∧
    (w.staUsed row → row < 512 → (w.writeKick row 1).1 = 0 ∧ (w.writeKick row 1).2.get Obj.staState row = 0 ∧
      departed 2 row w (w.writeKick row 1).2) ∧
    (r ≠ .l → row < 16 →
      (w.get (Obj.bssBssid.of r) row = 0 ∨ w.get (Obj.bssSsidLen.of r) row = 0 → w.writeBssEnable r row 1 = (6, w)) ∧
      (∀ q k, q ≠ .l → k < 16 → (q, k) ≠ (r, row) → w.is (Obj.bssEnable.of q) k →
        w.get (Obj.bssBssid.of q) k = w.get (Obj.bssBssid.of r) row → w.writeBssEnable r row 1 = (6, w)) ∧
      (w.get (Obj.bssBssid.of r) row ≠ 0 → w.get (Obj.bssSsidLen.of r) row ≠ 0 → w.get (Obj.bssAkm.of r) row = 0 →
        (∀ q k, q ≠ .l → k < 16 → w.is (Obj.bssEnable.of q) k = false) →
        w.writeBssEnable r row 1 = (0, w.put (Obj.bssEnable.of r) 1 row)) ∧
      (w.writeBssEnable r row 0).1 = 0 ∧ (w.writeBssEnable r row 0).2.get (Obj.bssEnable.of r) row = 0 ∧
        ∀ k < 512, w.get Obj.staRadioBss k = 16 * radioNum r + row → (w.writeBssEnable r row 0).2.get Obj.staState k = 0)

/-! ### Cane links and the cipher engine (R229 to R250, R297 to R317) -/

/-- Cane links (R121, R236, R237, R240, R243 to R245, R247 to R250): an ACK covers up to CUM and by its bitmap and
delivers what it covers; a NACK sends again what it names; a PROBE is answered, and a new epoch empties the ledger; an
ACK or a NACK goes on the first up strand; a silent strand fails with its frames set to be sent again; enough
acknowledged probes bring a strand up; a deleted link holds nothing. Where it goes past the manual it rests on the
model's choices of log entries 28, 133, 134, 143, 160 and 161. -/
def Obligations.CaneLinksAcknowledgeResendAndFailOver : Prop :=
  (∀ (s : State) (t k : Nat) (x : Radio), s.blk.frozen = false →
    let b := s.blk.tick t
    let w := b.strandHears k x b.now
    (∀ header, Takes (.caneAckReceived t k x header) s (fun y => y = b.caneHeard k x header) ∧
      Takes (.caneNackReceived t k x header) s (fun y => y = b.caneHeard k x header) ∧
      Takes (.caneProbeReceived t k x header) s fun y => y = b.caneHeard k x header) ∧
    (b.hearsLink k x = false → (∀ header, b.caneHeard k x header = b) ∧
      Takes (.probeIntervalExpiry t k x) s fun y => y = b) ∧
    (b.hearsLink k x →
      (∀ recs : List AckRec, 1 ≤ recs.length → recs.length ≤ 9 →
        (∀ a ∈ recs, (a.stream < 8 ∨ a.stream = 15) ∧ a.cum < 2 ^ 24 ∧ a.bitmap < 2 ^ 64) →
        b.caneHeard k x (caneAckHeader recs) = w.caneAck k recs) ∧
      (∀ recs : List NackRec, 1 ≤ recs.length → recs.length ≤ 8 →
        (∀ a ∈ recs, (a.stream < 8 ∨ a.stream = 15) ∧ a.first < 2 ^ 24 ∧ 1 ≤ a.count ∧ a.count ≤ 1024) →
        b.caneHeard k x (caneNackHeader recs) = w.caneNack k recs) ∧
      (∀ up, up < 8 → b.get Obj.linkPeerEpoch k < 2 ^ 16 →
        b.caneHeard k x (caneProbeHeader up (b.get Obj.linkPeerEpoch k)) =
          (w.modLink k fun l => { l with peerUp := up }).emit (.cane k x 4 7 (b.peerAddr k x) [])) ∧
      (∀ up epoch, up < 8 → epoch < 2 ^ 16 → epoch ≠ b.get Obj.linkPeerEpoch k →
        let y := b.caneHeard k x (caneProbeHeader up epoch)
        y.get Obj.linkPeerEpoch k = epoch ∧ (y.link k).held = [] ∧ (∀ f, f ∈ y.frames ↔ f ∈ b.frames) ∧
          y.get Obj.linkPeerDraining k = 0 ∧ .cane k x 4 7 (b.peerAddr k x) [] ∈ y.outs ∧
          ∀ i < 8, y.get Obj.streamRxNext (8 * k + i) = 0) ∧
      (∀ first l, first.toNat / 16 ≠ 1 ∨ 4 ≤ first.toNat % 16 →
        b.caneHeard k x (first :: l) = w.add Obj.caneBadHeader) ∧
      (b.strandState k x = 0 ∨ b.now < b.probeTime k x → Takes (.probeIntervalExpiry t k x) s fun y => y = b) ∧
      (b.strandState k x ≠ 0 → b.probeTime k x ≤ b.now → Takes (.probeIntervalExpiry t k x) s fun y =>
        y = b.modStrand k x (fun z => { z with probeDue := true, probeAt := b.now }) ∧
          (b.links.length = 32 → (b.link k).strands.length = 3 → y.ctlDue k 3 x))) ∧
    (
      let due := ∃ e, (b.link k).ackDue = some e ∧ e + us (b.get Obj.caneAckDelay k) ≤ b.now
      (¬ due → Takes (.ackDelayExpiry t k) s fun y => y = b) ∧
      (due → k < 32 → b.links.length = 32 → Takes (.ackDelayExpiry t k) s fun y =>
        y.link k = { b.link k with ackNow := !(b.link k).fresh.isEmpty } ∧ y.frames = b.frames ∧ y.regs = b.regs)) ∧
    (∀ i,
      let due := ∃ h ∈ (b.link k).holes, h.1 = i ∧ h.2 + ms (b.get Obj.caneHoldTime k) ≤ b.now
      (¬ due → Takes (.holdTimeExpiry t k i) s fun y => y = b) ∧
      (due → k < 32 → b.links.length = 32 → Takes (.holdTimeExpiry t k i) s fun y =>
        i ∈ (y.link k).nacks ∧ (∀ h ∈ (y.link k).holes, h.1 = i → h.2 = b.now) ∧ y.frames = b.frames ∧ y.regs = b.regs)) ∧
    (∀ fid, b.frame? fid = none → Takes (.resendTimeExpiry t fid) s fun y => y = b) ∧
    (∀ fid f, b.frame? fid = some f →
      let due := 4352 ≤ f.queue ∧ f.queue < 4608 ∧ f.air = true ∧ f.resend = false ∧ f.cseq ≠ none ∧
        f.lastTx + ms (b.get Obj.caneResendTime ((f.queue - 4352) / 8)) ≤ b.now
      (¬ due → Takes (.resendTimeExpiry t fid) s fun y => y = b) ∧
      (due → Takes (.resendTimeExpiry t fid) s fun z => sameFrames b z ∧ (∀ g ∈ z.frames, g.id = fid → g.resend) ∧
        z.get Obj.linkResends ((f.queue - 4352) / 8) =
          Obj.linkResends.raised (b.get Obj.linkResends ((f.queue - 4352) / 8) + 1))) ∧
    (
      let due := b.strandState k x = 2 ∧ b.strandOwed k x = true ∧ b.deadTime k x ≤ b.now ∧ b.hearing x (b.deadTime k x) = false
      (32 ≤ k ∨ ¬ due → Takes (.strandDeadTimeExpiry t k x) s fun y => y = b) ∧
      (k < 32 → due → Takes (.strandDeadTimeExpiry t k x) s fun z =>
        z.strandState k x = 3 ∧ sameFrames b z ∧
          (b.links.length = 32 → (b.link k).strands.length = 3 → (z.strandOf k x).returning.isSome) ∧
          ∀ f ∈ b.frames, f.onStrand k x → (∀ g ∈ b.gth.gathers, g.state.unlocked → g.holds f.id = false) →
            ∀ g ∈ z.frames, g.id = f.id → g.resend ∧ g.strand = none))) ∧
  (∀ (s : State) (t row : Nat) (p : Port),
    Writes (.delete t p row) s t p 0x3600 17 row 1 1 fun w _ k => (0, w.deleteLink k)) ∧
  (∀ (w : Block) (k : Nat), k < 32 → departed 4 k w (w.deleteLink k) ∧ (w.deleteLink k).get Obj.caneEnable k = 0 ∧
    ((w.deleteLink k).link k).held = [] ∧ ∀ i < 8, (w.deleteLink k).get Obj.streamTxNext (8 * k + i) = 0) ∧
  (∀ (w : Block) (k : Nat) (a : AckRec), a.stream < 8 →
    let covered := fun f : Frame =>
      f.queue = 4352 + 8 * k + a.stream ∧ f.air = true ∧ ∃ n, f.cseq = some n ∧ ackCovers a n = true
    (∀ f ∈ (w.caneAck k [a]).frames, ¬ covered f) ∧
    ∀ f ∈ w.frames, (∀ g ∈ w.frames, covered g → g.id ≠ f.id) → ∃ g ∈ (w.caneAck k [a]).frames, g.id = f.id ∧ g.pkt = f.pkt) ∧
  (∀ (w : Block) (k : Nat) (r : NackRec), r.stream < 8 → sameFrames w (w.caneNack k [r]) ∧
    ∀ f ∈ (w.caneNack k [r]).frames, ∀ n, f.queue = 4352 + 8 * k + r.stream → f.cseq = some n → f.air →
      (n + cseqMod - r.first) % cseqMod < r.count → f.resend) ∧
  (∀ (w : Block) (k : Nat) (x : Radio), k < 32 →
    let y := w.ctlOnAir k 1 x
    let st := w.strandState k x
    let addr := w.peerAddr k x
    y.outs = w.outs ++
      [.cane k x 1 7 addr (w.caneSnap x ++ caneAckHeader ((w.link k).fresh.map fun i => w.ackRecord k i))] ∧
    (w.links.length = 32 → (y.link k).fresh = [] ∧ (y.link k).ackNow = false ∧ (y.link k).ackDue = none) ∧
    (x = .l → w.get Obj.caneLNbr k < 1024 →
      y.get Obj.nbrTxSeq (w.get Obj.caneLNbr k) = (w.get Obj.nbrTxSeq (w.get Obj.caneLNbr k) + 1) % 65536) ∧
    (st = 1 ∨ st = 3 → sameFrames w (w.probeResult k x false) ∧ (w.probeResult k x false).strandState k x = st ∧
      (w.get Obj.strandUpProbes ≤ (w.strandOf k x).probes + 1 →
        (w.probeResult k x true).strandState k x = 2 ∧ sameFrames w (w.probeResult k x true))) ∧
    (∀ ids, w.links.length = 32 → (w.link k).strands.length = 3 → (w.strandOf k x).returning = some ids →
      (∀ q z, q < 32 → (q, z) ≠ (k, x) → (w.strandOf q z).returning = none) →
      ((∃ f ∈ w.frames, f.id ∈ ids ∧ f.resend) → w.failoversDone = w) ∧
      ((∀ f ∈ w.frames, f.id ∈ ids → f.resend = false) → (w.failoversDone.strandOf k x).returning = none ∧
        w.failoversDone.get Obj.linkFailovers k = Obj.linkFailovers.raised (w.get Obj.linkFailovers k + 1)))) ∧
  ∀ (a : AckRec) (j : Nat), a.cum < cseqMod →
    (j < cseqMod / 2 → ackCovers a ((a.cum + cseqMod - j) % cseqMod) = true) ∧
    (ackCovers { a with bitmap := 0 } ((a.cum + 1) % cseqMod) = false) ∧
    (j < 64 → ackCovers a ((a.cum + 2 + j) % cseqMod) = a.bitmap.testBit j)

/-- The cipher engine (R297, R300, R302, R303, R313 to R317): a key is taken by a context that is off and holds 1 as its
state; each counter value is given once and the last one exhausts the context; a rekey takes the staged key, retires the
current one and undoes what was sealed but not sent; an erase leaves the context off; a retiring key goes when its time
and its frames have; a job is refused with its status or runs, and one whose MIC fails writes nothing. Where it goes
past the manual it rests on the model's choices of log entries 32, 148, 149 and 198. -/
def Obligations.KeysCountersAndJobsFollowTheirStates : Prop :=
  (∀ (s : State) (t row v : Nat) (p : Port) (n : Eng),
    let bound := fun d : Nat × Block => (d.1, if d.1 = 0 then d.2.keysBound else d.2)
    Writes (.keyWrite t p row v) s t p 0x7400 2 row 32 v (fun w _ k => bound (w.writeKey k v)) ∧
    Writes (.rekey t p row) s t p 0x7400 11 row 1 1 (fun w _ k => bound (w.rekey k)) ∧
    Writes (.erase t p row) s t p 0x7400 13 row 1 1 (fun w _ k => (0, w.eraseKey k)) ∧
    Writes (.jobRun t (.engine n)) s t (.engine n) 0x7410 2 noRow 1 1 (fun w _ _ => w.runJob n.val (64 + n.val)) ∧
    (s.blk.frozen = false → exec (.jobDone t n) s = .next (({ s with blk := s.blk.tick t } : State).jobDone n).settle) ∧
    (s.blk.frozen = false →
      let b := s.blk.tick t
      let due := (b.keyCtx row).old ≠ none ∧ (b.keyCtx row).oldUntil ≤ b.rtcSec ∧ b.oldFrames row = false
      (¬ due → Takes (.retiringKeyClear t row) s fun x => x = b) ∧
      (due → Takes (.retiringKeyClear t row) s fun x =>
        x.get Obj.ctxRetiring row = 0 ∧ x.keyCtx row =
          { b.keyCtx row with
            old := none, replayOld := [], openedOld := 0, authOld := none, oldFids := [], oldSends := [] }))) ∧
  (∀ (w : Block) (row v : Nat), row < 2048 →
    let st := w.get Obj.ctxState row
    let alg := w.get Obj.ctxAlg row
    let k := w.keyCtx row
    let unsent := fun x : Block => ∀ g ∈ x.gth.gathers, g.state.unlocked → ∀ m ∈ g.mpdus,
      ¬ (m.pn.isSome ∧ m.ctx = row ∧ m.retry = false)
    let bad := alg = 0 ∨ (keyLen alg = 16 ∧ v % 2 ^ 128 ≠ 0)
    (bad → w.writeKey row v = (6, w)) ∧ (¬ bad → st ≠ 0 → w.writeKey row v = (9, w)) ∧
    (¬ bad → st = 0 →
      let x := (w.writeKey row v).2
      (w.writeKey row v).1 = 0 ∧ x.get Obj.ctxState row = 1 ∧ x.get Obj.ctxTxNext row = firstCounter alg ∧
        (x.keyCtx row).key = some v ∧ (x.keyCtx row).replay = []) ∧
    (st = 0 → alg = 0 → w.rekey row = (6, w)) ∧ (st ≠ 0 → k.next = none → w.rekey row = (13, w)) ∧ (st ≠ 0 → k.next ≠ none → k.old ≠ none → w.rekey row = (9, w)) ∧
    (∀ nk, st ≠ 0 → k.next = some nk → k.old = none →
      let x := (w.rekey row).2
      (w.rekey row).1 = 0 ∧ x.get Obj.ctxState row = 1 ∧ x.get Obj.ctxTxNext row = firstCounter alg ∧
        x.get Obj.ctxKeyId row = w.get Obj.ctxNextKeyId row ∧ x.get Obj.ctxRetiring row = 1 ∧
        (x.keyCtx row).key = some nk ∧ (x.keyCtx row).old = k.key ∧ (x.keyCtx row).next = none ∧
        (x.keyCtx row).oldUntil = w.rtcSec + w.get Obj.retireTime ∧ unsent x) ∧
    (let x := w.eraseKey row
     x.keyCtx row = { row := row } ∧ x.get Obj.ctxState row = 0 ∧ x.get Obj.ctxTxNext row = 0 ∧
        x.get Obj.ctxAlg row = alg ∧ x.get Obj.ctxBind row = w.get Obj.ctxBind row ∧ unsent x) ∧
    (st = 1 → (w.takeCounter row).1 = some (w.get Obj.ctxTxNext row) ∧
      if w.get Obj.ctxTxNext row = lastCounter alg then (w.takeCounter row).2.get Obj.ctxState row = 2
      else (w.takeCounter row).2.get Obj.ctxTxNext row = w.get Obj.ctxTxNext row + 1) ∧
    (st = 2 → (w.takeCounter row).1 = none ∧ (w.takeCounter row).2.get Obj.ctxExhaustedRefused row =
      Obj.ctxExhaustedRefused.raised (w.get Obj.ctxExhaustedRefused row + 1))) ∧
  (∀ (w : Block) (n : Eng),
    let loc := 64 + n.val
    let job := w.get Obj.jobJob loc
    let row := octFieldLE job 32 0 2
    let x := w.runJob n.val loc
    let idle := ∀ j ∈ w.jobs, j.engine ≠ n.val
    (¬ idle → x = (9, w)) ∧
    (idle → w.jobRefusal job ≠ 0 → x.1 = 15 ∧ x.2.get Obj.jobJobStatus loc = w.jobRefusal job ∧ x.2.jobs = w.jobs) ∧
    (idle → w.jobRefusal job = 0 → x.1 = 0 ∧ x.2.get Obj.jobJobStatus loc = 255 ∧
      (octFieldLE job 32 2 1 = 0 → x.2.get Obj.jobJobCounter loc = w.get Obj.ctxTxNext row ∧
        x.2.jobs = w.jobs ++ [⟨n.val, job, w.get Obj.ctxTxNext row, (w.keyCtx row).key.getD 0⟩])) ∧
    (w.get Obj.ctxState row = 0 → w.jobRefusal job = 1) ∧
    (w.get Obj.ctxState row = 2 → 6 ≤ w.get Obj.ctxAlg row → octFieldLE job 32 2 1 = 0 → octFieldLE job 32 9 2 ≤ 256 →
      octFieldLE job 32 16 2 ≤ 16383 → w.jobRefusal job = 5)) ∧
  ∀ (w : State) (n : Eng),
    let loc := 64 + n.val
    ((∀ j ∈ w.blk.jobs, j.engine ≠ n.val) → w.jobDone n = w) ∧
    (∀ j ∈ (w.jobDone n).blk.jobs, j.engine ≠ n.val) ∧ (w.jobDone n).regs = w.regs ∧
    ((∃ j ∈ w.blk.jobs, j.engine = n.val) → (w.jobDone n).blk.get Obj.jobJobStatus loc = 0 ∨
      (w.jobDone n).blk.get Obj.jobJobStatus loc = 6 ∧ (w.jobDone n).mem = w.mem)

/-! ### Network time, triggers, captures and timers (R321 to R355) -/

/-- Domains and presented time (R321 to R330): OFFSET_IN is refused with RANGE, BUSY or STALE or is a sample; a sample
of an Unlocked domain or beyond its threshold steps it and any other updates its servo; a step of the presented domain
or a switch leaves valid presented time as it is while STEP_ALLOW is 0; a new SOURCE starts the domain from RTC time; a
timeout leads to Holdover or a switch; PRESENT_SET loads both domains; the RTC is aligned to valid time. Where it goes
past the manual it rests on the model's choices of log entries 30, 31, 90, 91 and 92. -/
def Obligations.DomainsStepSlewAndSwitch : Prop :=
  (∀ (s : State) (t v : Nat) (p : Port) (d : Fin 2),
    Writes (.offsetIn t p d v) s t p 0x5000 9 d 24 v (fun w _ k => w.writeOffsetIn k v) ∧
    Writes (.sourceWrite t p d v) s t p 0x5000 1 d 1 v (fun w _ k => w.writeSource k v) ∧
    Writes (.presentSelWrite t p v) s t p 0x5010 1 noRow 1 v (fun w _ _ => w.writePresentSel v) ∧
    Writes (.stepAllowWrite t p v) s t p 0x5010 3 noRow 1 v (fun w _ _ => w.writeStepAllow v) ∧
    Writes (.presentSet t p v) s t p 0x5010 9 noRow 14 v (fun w _ _ => w.writePresentSet v) ∧
    (s.blk.frozen = false →
      let b := s.blk.tick t
      let st := b.get Obj.domState d
      let sel := b.get Obj.presentSel
      let quiet := (b.time.dom d).heardAt + ms (b.get Obj.domSourceTimeout d) ≤ b.now
      let long := (b.time.dom sel).since + secs (b.get Obj.holdoverLimit) ≤ b.now
      let other := b.is Obj.autoSwitch = true ∧ b.get Obj.domState (1 - sel) = 2
      (b.coreA = false ∨ (st ≠ 1 ∧ st ≠ 2) ∨ ¬ quiet → Takes (.sourceTimeoutExpiry t d) s fun x => x = b) ∧
      (b.coreA → st = 1 ∨ st = 2 → quiet → Takes (.sourceTimeoutExpiry t d) s fun x =>
        x.get Obj.domState d = 3 ∧ (x.time.dom d).since = b.now ∧
        x.get Obj.presentSel = if b.is Obj.autoSwitch = true ∧ sel = d.val ∧ b.get Obj.domState (1 - d.val) = 2 then 1 - d.val
          else sel) ∧
      (b.coreA = false ∨ b.get Obj.domState sel ≠ 3 ∨ ¬ long ∨ other → Takes (.holdoverLimitExpiry t) s fun x => x = b) ∧
      (b.coreA → b.get Obj.domState sel = 3 → long → ¬ other → Takes (.holdoverLimitExpiry t) s fun x =>
        x.is Obj.timeValid = false ∧ x.presented = b.presented) ∧
      (b.coreA = false ∨ b.timeValidNow = false ∨ (∀ e, b.time.alignAt = some e → b.now < e) →
        Takes (.rtcAlign t) s fun x => x = b) ∧
      (∀ e, b.time.alignAt = some e → e ≤ b.now → b.coreA → b.timeValidNow → Takes (.rtcAlign t) s fun x =>
        let n := b.lastRtcTick
        x.time = { b.time with
          rtcBase := (b.inScaleAgo 0 (gain 0 (b.now - n)) * 32768 / secUnit).toNat % 2 ^ 48, rtcRef := n, rtcLoad := none
          alignAt := some (n + secs (b.get Obj.rtcSync)) }))) ∧
  (∀ (w : Block) (d v : Nat), d < 2 →
    let ns := octFieldLE v 24 16 4
    let tm : Int := ((octFieldLE v 24 8 8 : Int) * 1000000000 + (ns : Int)) * 65536 + (octFieldLE v 24 20 2 : Int)
    let good := octFieldLE v 24 22 2 = 0 ∧ ns ≤ 999999999
    (¬ good → w.writeOffsetIn d v = (6, w)) ∧ (good → w.get Obj.domSource d ≠ 1 → w.writeOffsetIn d v = (9, w)) ∧
    (∀ q, good → w.get Obj.domSource d = 1 → (w.time.dom d).prev = some q → tm ≤ q → w.writeOffsetIn d v = (13, w)) ∧
    (good → w.get Obj.domSource d = 1 → (∀ q, (w.time.dom d).prev = some q → q < tm) →
      w.writeOffsetIn d v = (0, w.sample d (signedOf 8 (octFieldLE v 24 0 8)) tm)) ∧
    (let x := (w.writeSource d v).2
     (w.writeSource d v).1 = 0 ∧ x.get Obj.domSource d = v ∧ x.get Obj.domState d = 0 ∧
       (x.time.dom d).at w.now = w.rtcTime ∧ (w.coreA → w.get Obj.presentSel = d → x.is Obj.timeValid = false))) ∧
  (∀ (w : Block) (d : Nat) (e tm : Int), d < 2 → -(2 ^ 63) ≤ e → e < 2 ^ 63 →
    let x := w.sample d e tm
    let steps := w.get Obj.domState d = 0 ∨ w.get Obj.domStepThreshold d * 65536 < e.natAbs
    let dt := ((w.time.dom d).prev.map fun q => tm - q).getD 0
    let i := clampTo (w.freqLimit d) ((w.time.dom d).integ + w.geti Obj.domKi d * e * dt / (1000000000 * 65536))
    x.geti Obj.domLastOffset d = e ∧ (x.time.dom d).prev = some tm ∧
    (steps → x.get Obj.domState d = 1 ∧ x.get Obj.domSteps d = Obj.domSteps.raised (w.get Obj.domSteps d + 1) ∧
      (x.time.dom d).at w.now = (w.time.dom d).at w.now + e * 2 ^ 40 ∧ (x.time.dom d).integ = 0 ∧
      (w.coreA → w.get Obj.presentSel = d → w.timeValidNow → w.is Obj.stepAllow = false → x.presented = w.presented)) ∧
    (¬ steps → (x.time.dom d).at w.now = (w.time.dom d).at w.now ∧ (x.time.dom d).integ = i ∧
      (x.time.dom d).adj = clampTo (w.freqLimit d) (w.geti Obj.domKp d * e + i) * 256 / 1000000000 ∧
      (w.get Obj.domState d = 3 → x.get Obj.domState d = 1) ∧
      (w.get Obj.domState d ≠ 3 → 7 ≤ (w.time.dom d).good → e.natAbs ≤ w.get Obj.domLockThreshold d * 65536 →
        x.get Obj.domState d = 2 ∧ (w.coreA → w.get Obj.presentSel = d → x.is Obj.timeValid)))) ∧
  ∀ (w : Block) (v : Nat),
    w.writePresentSel (w.get Obj.presentSel) = (0, w) ∧
    (v ≠ w.get Obj.presentSel →
      let x := (w.writePresentSel v).2
      (w.writePresentSel v).1 = 0 ∧ x.get Obj.presentSel = v ∧
        x.get Obj.switches = Obj.switches.raised (w.get Obj.switches + 1) ∧
        (w.coreA → w.is Obj.stepAllow = false → x.presented = w.presented) ∧
        (w.coreA → w.is Obj.stepAllow → x.presented = (w.time.dom v).at w.now)) ∧
    (w.writeStepAllow v).1 = 0 ∧ (w.writeStepAllow v).2.get Obj.stepAllow = v ∧
    (w.writeStepAllow 1).2.offset = 0 ∧
    (w.coreA → (w.writePresentSet v).2.presented = ofTime112 v) ∧
    ∀ d < 2, ((w.writePresentSet v).2.time.dom d).at w.now = ofTime112 v

/-- Triggers, captures and stamp queues (R333 to R341, R352): a trigger that is enabled fires, counts and goes on or
ends; enabled with its START past it fires at once with LATE; PPS_OUT falls after its rise; a filtered edge is captured
with its time and counted; a queue gives its oldest stamp and drops what comes while it is full; reads of LATE and
OVERFLOW clear them. Where it goes past the manual it rests on the model's choices of log entries 94, 95, 97, 199, 200
and 201. -/
def Obligations.TriggersFireAndStampsQueue : Prop :=
  (∀ (s : State) (t v : Nat) (p : Port) (row : Fin 16) (ch : Fin 8) (q : Fin 5),
    Writes (.triggerEnable t p row v) s t p 0x5100 1 row 1 v (fun w _ k => w.writeTrigEnable k v) ∧
    Reads (.lateRead t p row) s t p 0x5100 9 row (fun w r k => (w.get r k, w.put r 0 k)) ∧
    Reads (.captureTimeRead t p ch) s t p 0x5110 5 ch (fun w r k => (w.get r k, { w with unread := w.unread.set k false })) ∧
    Reads (.overflowRead t p q) s t p 0x5200 3 q (fun w r k => (w.get r k, w.put r 0 k)) ∧
    (s.blk.frozen = false →
      let b := s.blk.tick t
      (b.portOpen p = false → Takes (.pop t p q) s fun x => x = b) ∧
      (b.portOpen p → b.pointIdle = false → Takes (.pop t p q) s fun x =>
        x = b.enqueueAsk (b.waitOf p (.read 0x5200 1 q))) ∧
      (b.portOpen p → b.pointIdle →
        (∀ e, b.checkAccess p 0x5200 1 q false = .error e → Takes (.pop t p q) s fun x => x = b.answered p 0x5200 1 q e 0) ∧
        (∀ r k, b.checkAccess p 0x5200 1 q false = .ok (r, k) → Takes (.pop t p q) s fun x =>
          x = (b.popStamp k).2.2.answered p 0x5200 1 q (b.popStamp k).1 (b.popStamp k).2.1)) ∧
      (
        let due := t16 (b.get Obj.trigNext row) ≤ b.presented16
        (b.is Obj.trigEnable row = false ∨ b.coreA = false ∨ ¬ due → Takes (.triggerFire t row) s fun x => x = b) ∧
        (b.is Obj.trigEnable row → b.coreA → due → Takes (.triggerFire t row) s fun x =>
          x.get Obj.trigFired row = Obj.trigFired.raised (b.get Obj.trigFired row + 1) ∧
          (b.get Obj.trigMode row = 0 → x.get Obj.trigEnable row = 0) ∧
          (b.get Obj.trigMode row ≠ 0 → x.is Obj.trigEnable row ∧
            x.get Obj.trigNext row = ofT16 (t16 (b.get Obj.trigNext row) + (b.get Obj.trigPeriod row : Int))) ∧
          (b.get Obj.trigTarget row = 1 → x.field.scanning) ∧ (b.get Obj.trigTarget row = 3 → x.mac.slotDue) ∧
          (b.get Obj.trigTarget row = 4 → b.is Obj.ppsGate = false ∨ b.timeValidNow →
            x.pins.ppsOut ∧ x.time.ppsAt = b.now ∧ .pin 4 true ∈ x.outs))) ∧
      (b.pins.ppsOut = false ∨ b.now < b.time.ppsAt + us (b.get Obj.ppsWidth) → Takes (.ppsOutFall t) s fun x => x = b) ∧
      (b.pins.ppsOut → b.time.ppsAt + us (b.get Obj.ppsWidth) ≤ b.now → Takes (.ppsOutFall t) s fun x =>
        x = ({ b with pins := { b.pins with ppsOut := false } } : Block).emit (.pin 4 false)) ∧
      (∀ rising,
        let taken := b.get Obj.capSource ch ≠ 255 ∧ b.coreA = true ∧
          (b.get Obj.capEdge ch).testBit (if rising then 0 else 1) = true
        (¬ taken → Takes (.captureEdge t ch rising) s fun x => x = b) ∧
        (taken → b.unread.length = 8 → Takes (.captureEdge t ch rising) s fun x =>
          x.get Obj.capTime ch =
            time112 (b.inScaleAgo (b.get Obj.capScale ch) (gain 0 ((b.get Obj.capFilter ch * 8 + 24) / 25))) ∧
          x.unread.getD ch false = true ∧ x.get Obj.capCount ch = Obj.capCount.raised (b.get Obj.capCount ch + 1) ∧
          x.get Obj.capMissed ch = if b.unread.getD ch false then Obj.capMissed.raised (b.get Obj.capMissed ch + 1)
            else b.get Obj.capMissed ch)))) ∧
  (∀ (w : Block) (row v : Nat), row < 16 →
    let x := (w.writeTrigEnable row 1).2
    (w.slotframeOn → w.writeTrigEnable 15 v = (9, w)) ∧
    (w.slotframeOn = false ∨ row ≠ 15 → w.writeTrigEnable row 0 = (0, w.put Obj.trigEnable 0 row) ∧
      (w.presented16 ≤ t16 (w.get Obj.trigStart row) →
        w.writeTrigEnable row 1 = (0, (w.put Obj.trigNext (w.get Obj.trigStart row) row).put Obj.trigEnable 1 row)) ∧
      (t16 (w.get Obj.trigStart row) < w.presented16 → x.get Obj.trigLate row = 1 ∧
        x.get Obj.trigFired row = Obj.trigFired.raised (w.get Obj.trigFired row + 1) ∧
        (w.get Obj.trigMode row = 0 → x.get Obj.trigEnable row = 0)))) ∧
  ∀ (w : Block) (q ident time : Nat), q < 5 →
    let x := w.pushStamp q ident time
    (∀ e l, w.stamps.getD q [] = e :: l →
      w.popStamp q = (0, e.ident * 2 ^ 112 + e.time, { w with stamps := w.stamps.set q l })) ∧
    (w.stamps.getD q [] = [] → w.popStamp q = (13, 0, w)) ∧
    ((w.stamps.getD q []).length < 32 → w.stamps.length = 5 →
      x.stamps.getD q [] = w.stamps.getD q [] ++ [({ ident, time } : Stamp)] ∧ x.regs = w.regs) ∧
    (32 ≤ (w.stamps.getD q []).length → x.stamps = w.stamps ∧ x.get Obj.tsqOverflow q = 1 ∧
      x.get Obj.tsqLost q = Obj.tsqLost.raised (w.get Obj.tsqLost q + 1))

/-- Timers (R342 to R349, R354): a channel reloads after PERIOD with its event, a one-shot stops; an armed compare fires
once; a pin edge captures or counts; COMPARE is buffered by PWM and else arms; GLOBAL_GO starts the armed channels and
clears the arm mask; a read of a pair's low COUNT latches its high one for the port; a read of EVENTS clears it. Where
it goes past the manual it rests on the model's choices of log entries 96, 202 and 203. -/
def Obligations.TimersReloadCompareCaptureAndLatch : Prop :=
  (∀ (s : State) (t v : Nat) (p : Port) (c : Fin 16) (pair : Fin 4),
    Writes (.timerCompareWrite t p c v) s t p 0x5300 6 c 4 v (fun w _ k => w.writeCompare k v) ∧
    Writes (.timerPeriodWrite t p c v) s t p 0x5300 5 c 4 v (fun w _ k => w.writePeriod k v) ∧
    Writes (.globalGo t p) s t p 0x5320 2 noRow 1 1 (fun w _ _ => (0, w.globalStart)) ∧
    Reads (.countLowRead t p pair) s t p 0x5300 7 (2 * pair.val) (fun w _ k =>
      (w.countNow k, if w.is Obj.pairLink (k / 2) then w.latchHigh p (k / 2) else w)) ∧
    Reads (.eventsRead t p c) s t p 0x5300 10 c (fun w r k => (w.get r k, w.put r 0 k)) ∧
    (s.blk.frozen = false →
      let b := s.blk.tick t
      let ch := c.val
      let on := b.is Obj.tmrEnable ch
      let u := b.timers.getD ch {}
      let once := b.get Obj.tmrMode ch == 1
      (b.timerHead ch ≠ ch ∨ (∀ e, b.reloadAt ch = some e → b.now < e) → Takes (.timerReload t c) s fun x => x = b) ∧
      (∀ e, b.timerHead ch = ch → b.reloadAt ch = some e → e ≤ b.now → Takes (.timerReload t c) s fun x =>
        let z := b.modTimer ch fun y => { y with count := 0, ref := e, armed := !once, buffered := none, wrap := false }
        x.timers = (if b.linkedLow ch then z.modTimer (ch + 1) fun y => { y with buffered := none } else z).timers ∧
        (x.get Obj.tmrEvents ch).testBit 0 ∧ x.is Obj.tmrEnable ch = !once ∧
        x.get Obj.tmrCompare ch = u.buffered.getD (b.get Obj.tmrCompare ch)) ∧
      (
        let fires := b.timerHead ch = ch ∧ on = true ∧ b.canFire ch = true ∧ b.comparePassed ch = true ∧ u.armed = true
        (¬ fires → Takes (.timerCompare t c) s fun x => x = b) ∧
        (fires → Takes (.timerCompare t c) s fun x =>
          x.timers = (b.modTimer ch fun y => { y with armed := false }).timers ∧ (x.get Obj.tmrEvents ch).testBit 1)) ∧
      (b.timerHead ch ≠ ch ∨ on = false ∨ b.get Obj.tmrMode ch ≠ 2 → Takes (.timerPinCapture t c) s fun x => x = b) ∧
      (b.timerHead ch = ch → on → b.get Obj.tmrMode ch = 2 → Takes (.timerPinCapture t c) s fun x =>
        x.get Obj.tmrCapture ch = b.countNow ch % 2 ^ 32 ∧ (x.get Obj.tmrEvents ch).testBit 2 ∧
        (u.unread → (x.get Obj.tmrEvents ch).testBit 3)) ∧
      (∀ rising, 8 ≤ ch ∨ b.timerHead ch ≠ ch ∨ on = false ∨ b.get Obj.tmrSource ch ≠ (if rising then 1 else 2) →
        Takes (.tmrIoCountEdge t c rising) s fun x => x = b) ∧
      (∀ rising, ch < 8 → b.timerHead ch = ch → on → b.get Obj.tmrSource ch = (if rising then 1 else 2) →
        (b.wholeCount ch ≠ b.wholeReg Obj.tmrPeriod ch → u.armed = false → Takes (.tmrIoCountEdge t c rising) s fun x =>
          x = b.modTimer ch fun y => { y with count := b.wholeCount ch + 1 }) ∧
        (b.wholeCount ch = b.wholeReg Obj.tmrPeriod ch → Takes (.tmrIoCountEdge t c rising) s fun x =>
          (x.get Obj.tmrEvents ch).testBit 0)))) ∧
  (∀ (w : Block) (ch v : Nat), ch < 16 → w.timerHead ch = ch →
    let x := (w.writeCompare ch v).2
    let on := w.is Obj.tmrEnable ch
    (w.writeCompare ch v).1 = 0 ∧ (w.writePeriod ch v).1 = 0 ∧ (w.writePeriod ch v).2.get Obj.tmrPeriod ch = v ∧
    (on = false → x = w.put Obj.tmrCompare v ch) ∧
    (on → w.get Obj.tmrMode ch = 3 → x = w.modTimer ch fun c => { c with buffered := some v }) ∧
    (on → w.get Obj.tmrMode ch ≠ 3 → w.timers.length = 16 → x.get Obj.tmrCompare ch = v ∧
      if (w.put Obj.tmrCompare v ch).canFire ch && (w.put Obj.tmrCompare v ch).comparePassed ch then
        (x.get Obj.tmrEvents ch).testBit 1 ∧ (x.timers.getD ch {}).armed = false
      else (x.timers.getD ch {}).armed = true)) ∧
  (∀ (w : Block), w.globalStart.get Obj.globalArm = 0 ∧ ∀ ch < 16, w.globalStart.get Obj.tmrEnable ch =
    if (w.get Obj.globalArm).testBit ch then 1 else w.get Obj.tmrEnable ch) ∧
  ∀ (w : Block) (p : Port) (k : Nat), w.is Obj.pairLink k →
    ((w.latchHigh p k).readHigh p k).1 = w.countNow (2 * k + 1) ∧
      (((w.latchHigh p k).readHigh p k).2.latches.all fun l => !(l.port == p && l.pair == k)) = true

/-! ### Lamp, relays, alarms, DALI, CAN FD, detectors and the auxiliary ADC (R356 to R380) -/

/-- Dimming, relays and alarms (R357 to R362, R376): a level written fades from the level being output and lies within
DIM_MIN and HOT_DIM; a relay switches at once, or at its instant by the zero crossing; an instance that becomes active
raises and latches its alarm, one that ends clears it; CLEAR is refused while ACTIVE is 1. Where it goes past the manual
it rests on the model's choices of log entries 98, 99, 102, 205 and 209. -/
def Obligations.LampRelaysAndAlarmsFollowTheirCommands : Prop :=
  (∀ (s : State) (t v row : Nat) (p : Port) (i : Fin 2),
    Writes (.dimLevelWrite t p i v) s t p 0x6100 (2 + i.val) noRow 1 v (fun w _ _ => w.writeDim i v) ∧
    Writes (.relayCommandWrite t p i v) s t p 0x6110 1 i 1 v (fun w _ k => w.writeRelay k v) ∧
    Writes (.alarmClear t p row) s t p 0x6500 5 row 1 1 (fun w _ k => w.writeAlarmClear k 1) ∧
    Writes (.alarmRaiseWrite t p row v) s t p 0x6500 8 row 1 v (fun w _ k => w.writeAlarmRaise k v) ∧
    (s.blk.frozen = false →
      let b := s.blk.tick t
      (∀ rising, b.coreF = false ∨ (b.get Obj.zxEdges).testBit (if rising then 0 else 1) = false →
        Takes (.zxEdge t rising) s fun x => x = b) ∧
      (∀ rising, b.coreF → (b.get Obj.zxEdges).testBit (if rising then 0 else 1) → Takes (.zxEdge t rising) s fun x =>
        x.field.zx = (b.now :: b.field.zx).take 9 ∧ x.field.zxFrom = b.now ∧ (alarmsRun b 5 → alarmBit x 5 0 = false)) ∧
      (
        let missing := b.pins.pwrOk = true ∧ b.field.zxFrom + ms (b.get Obj.zxTimeout) ≤ b.now
        (¬ missing → Takes (.zxTimeoutExpiry t) s fun x => x = b) ∧
        (missing → Takes (.zxTimeoutExpiry t) s fun x => x = b.setAlarm 5 0 true ∧ (alarmsRun b 5 → alarmBit x 5 0 = true))) ∧
      ((∀ due, b.field.relayDue.getD i none = some due → b.now < due) → Takes (.relaySwitch t i) s fun x => x = b) ∧
      (∀ due, b.field.relayDue.getD i none = some due → due ≤ b.now → Takes (.relaySwitch t i) s fun x =>
        x.field.relayDue = b.field.relayDue.set i none ∧ x.is Obj.relayPinState i = b.is Obj.relayCommand i))) ∧
  (∀ (w : Block) (i v : Nat), i < 2 →
    let x := (w.writeDim i v).2
    (w.writeDim i v).1 = 0 ∧ x.get (dimReg i) = v ∧
    (w.feRuns → w.field.driven → w.field.fades.length = 2 →
      x.field.fades.getD i {} = ⟨w.dimOut i, v, w.now, ms (w.get Obj.dimFade)⟩) ∧
    (w.is Obj.alarmActive 2 = false → w.dimLimit v = if v = 0 then 0 else max v (w.get Obj.dimMin)) ∧
    (w.is Obj.alarmActive 2 → w.dimLimit v ≤ w.get Obj.hotDim) ∧
    (w.field.driven = false → w.dimOut i = 0) ∧
    (w.field.driven → w.feRuns → w.field.fadeHeld = none →
      (w.field.fades.getD i {}).len ≤ w.now - (w.field.fades.getD i {}).at_ →
      w.dimOut i = w.dimLimit (w.field.fades.getD i {}).target)) ∧
  (∀ (w : Block) (r v : Nat), r < 2 → v ≤ 1 →
    let x := (w.writeRelay r v).2
    let old := w.get Obj.relayPinState r
    let switched := x.get Obj.relayPinState r = v ∧
      x.get Obj.relayOperations r = Obj.relayOperations.raised (w.get Obj.relayOperations r + 1)
    (w.get Obj.relayCommand r = v → w.writeRelay r v = (0, w)) ∧
    (w.get Obj.relayCommand r ≠ v → (w.writeRelay r v).1 = 0 ∧ x.get Obj.relayCommand r = v ∧
      (w.feRuns → w.field.driven → old ≤ 1 → old ≠ v →
        (w.is Obj.relayZxSync r = false → switched ∧ x.get Obj.relayUnsynced r = w.get Obj.relayUnsynced r) ∧
        (w.is Obj.relayZxSync r → w.halfPeriod = none → switched ∧
          x.get Obj.relayUnsynced r = Obj.relayUnsynced.raised (w.get Obj.relayUnsynced r + 1)) ∧
        (∀ half last l, w.is Obj.relayZxSync r → w.halfPeriod = some half → w.field.zx = last :: l →
          w.now - last < ms (w.get Obj.zxTimeout) → w.field.relayDue.length = 2 →
          x.get Obj.relayPinState r = old ∧ x.field.relayDue.getD r none =
            some (relayInstant last half (us (w.get (if v = 1 then Obj.relayOnLead else Obj.relayOffLead) r)) w.now))))) ∧
  ∀ (w : Block) (row bit : Nat) (value : Int), row < 32 →
    let up := w.setAlarm row bit true value
    let down := w.setAlarm row bit false value
    (¬ alarmsRun w row → up = w ∧ down = w) ∧
    (alarmsRun w row → alarmBit w row bit = false → down = w ∧ alarmBit up row bit = true ∧ up.get Obj.alarmActive row = 1 ∧
      up.get Obj.alarmLatched row = 1 ∧ up.get Obj.alarmRaises row = Obj.alarmRaises.raised (w.get Obj.alarmRaises row + 1)) ∧
    (alarmsRun w row → alarmBit w row bit → up = w ∧ alarmBit down row bit = false ∧
      down.get Obj.alarmLatched row = w.get Obj.alarmLatched row ∧
      (w.get Obj.alarmDetail row = 2 ^ bit → down.get Obj.alarmActive row = 0)) ∧
    (w.is Obj.alarmActive row → w.writeAlarmClear row 1 = (9, w)) ∧
    (w.is Obj.alarmActive row = false → (w.writeAlarmClear row 1).1 = 0 ∧ (w.writeAlarmClear row 1).2.get Obj.alarmLatched row = 0) ∧
    w.writeAlarmRaise row 1 = (0, w.setAlarm row 0 true) ∧ w.writeAlarmRaise row 0 = (0, w.setAlarm row 0 false)

/-- DALI and CAN FD (R76, R92, R363 to R367, R374, R375): a row is queued unless it is under way, started in order, and
ends with the result of its end; a try that collides is repeated up to DALI_RETRIES; a bus that goes down ends every row
with result 5; polls set and clear the alarms of their address; a frame goes to Plais or to its first filter; bus-off
counts and recovery ends it. Where it goes past the manual it rests on the model's choices of log entries 100, 104, 208
and 210. -/
def Obligations.DaliRowsAndCanFramesAreHandled : Prop :=
  (∀ (s : State) (t row v : Nat) (p : Port),
    Writes (.daliSubmit t p row v) s t p 0x6010 3 row 1 v (fun w _ k => w.writeDaliState k v) ∧
    (s.blk.frozen = false →
      let b := s.blk.tick t
      let served := b.feRuns = true ∧ b.is Obj.daliEnable = true ∧ b.field.daliDown = false
      let rows := (b.field.daliRun.map (·.row)).toList ++ b.field.daliQueue
      (b.field.daliQueue = [] ∨ ¬ served ∨ b.field.daliRun ≠ none → Takes (.daliRowStart t) s fun x => x = b) ∧
      (∀ l, b.field.daliQueue = row :: l → served → b.field.daliRun = none → row < 32 → Takes (.daliRowStart t) s fun x =>
        x.field.daliRun = some { row := row } ∧ x.field.daliQueue = l ∧ x.get Obj.daliState row = 2 ∧
          x.get Obj.daliBusState = 2 ∧ x.outs = (b.daliSend row).outs) ∧
      (∀ e, b.field.daliRun = none ∨ b.feRuns = false → Takes (.daliRowEnd t e) s fun x => x = b) ∧
      (¬ served → Takes (.daliCollision t) s fun x => x = b) ∧
      (served → b.field.daliRun = none → Takes (.daliCollision t) s fun x => x = b.add Obj.daliCollisions) ∧
      (∀ d, b.field.daliRun = some d → d.row < 32 →
        let wants := (b.get Obj.daliFlags d.row).testBit 1
        let pair := (b.get Obj.daliFlags d.row).testBit 2
        let ends := fun (result reply : Nat) (x : Block) => x.field.daliRun = none ∧ x.get Obj.daliState d.row = 3 ∧
          x.get Obj.daliResult d.row = result ∧ x.get Obj.daliReply d.row = reply
        let again := fun x : Block => x.field.daliRun = some { d with tries := d.tries + 1 } ∧
          x.outs = (b.daliSend d.row).outs
        let counted := fun x : Block => x.get Obj.daliCollisions =
          Obj.daliCollisions.raised (b.get Obj.daliCollisions + 1)
        (b.feRuns → wants = false → (Takes (.daliRowEnd t .sent) s fun x => ends 0 0 x) ∧
          (Takes (.daliRowEnd t (.reply v)) s fun x => x = b) ∧ (Takes (.daliRowEnd t .silence) s fun x => x = b) ∧
          Takes (.daliRowEnd t .garbled) s fun x => x = b) ∧
        (b.feRuns → wants → (Takes (.daliRowEnd t (.reply v)) s fun x => ends 1 (v % 256) x) ∧
          (Takes (.daliRowEnd t .silence) s fun x => ends 2 0 x) ∧ (Takes (.daliRowEnd t .garbled) s fun x => ends 3 0 x) ∧
          Takes (.daliRowEnd t .sent) s fun x => x = b) ∧
        (pair = false → Takes (.daliRowEnd t .interleaved) s fun x => x = b) ∧
        (d.tries + 1 ≤ b.get Obj.daliRetries →
          (b.feRuns → pair → Takes (.daliRowEnd t .interleaved) s fun x => again x) ∧
          (served → Takes (.daliCollision t) s fun x => again x ∧ counted x)) ∧
        (b.get Obj.daliRetries < d.tries + 1 →
          (b.feRuns → pair → Takes (.daliRowEnd t .interleaved) s fun x => ends 4 0 x) ∧
          (served → Takes (.daliCollision t) s fun x => ends 4 0 x ∧ counted x))) ∧
      (¬ served → Takes (.daliBusDown t) s (fun x => x = b) ∧ ∀ l, Takes (.daliPoll t l) s fun x => x = b) ∧
      (served → (∀ r ∈ rows, r < 32) → Takes (.daliBusDown t) s fun x =>
        x.field.daliDown ∧ x.field.daliQueue = [] ∧ x.field.daliRun = none ∧
          (alarmsRun b 6 → alarmBit x 6 0 = true) ∧ ∀ r ∈ rows, x.get Obj.daliState r = 3 ∧ x.get Obj.daliResult r = 5) ∧
      (b.field.daliDown = false → Takes (.daliBusUp t) s fun x => x = b) ∧
      (b.field.daliDown → Takes (.daliBusUp t) s fun x =>
        x.field.daliDown = false ∧ (alarmsRun b 6 → alarmBit x 6 0 = false)) ∧
      (∀ replies,
        let due := b.field.pollAt = none ∨ ∃ e, b.field.pollAt = some e ∧ e + secs (b.get Obj.daliPollPeriod) ≤ b.now
        (¬ due → Takes (.daliPoll t replies) s fun x => x = b) ∧
        (served → due → Takes (.daliPoll t replies) s fun x => x.field.pollAt = some b.now ∧
          ∀ a < 64, (b.get Obj.daliPollMask).testBit a →
            let reply := (replies.find? fun y => y.1 == a).bind fun y => y.2
            .dali ((2 * a + 1) * 256 + 0x90) 16 5 ∈ x.outs ∧
            (∀ n, reply = some n → assocGet x.field.daliMissed a = none ∧
              (alarmsRun b 7 → alarmBit x 7 a = (n % 4 != 0)) ∧ (alarmsRun b 8 → alarmBit x 8 a = false)) ∧
            (reply = none → assocNat x.field.daliMissed a = assocNat b.field.daliMissed a + 1 ∧
              (2 ≤ assocNat b.field.daliMissed a → alarmsRun b 8 → alarmBit x 8 a = true)))) ∧
      (∀ ident ide data,
        let w := b.active
        let on := b.feRuns = true ∧ b.get Obj.busState < 2 ∧ (b.is Obj.fdEnable = true ∨ data.length ≤ 8)
        (¬ on → Takes (.canFrameReceived t ident ide data) s fun x => x = b) ∧
        (on → b.canIsPlais ident ide → exec (.canFrameReceived t ident ide data) s =
          .next (({ s with blk := w } : State).canSegment ident data).settle) ∧
        (on → b.canIsPlais ident ide = false → b.canFilter ident ide = none →
          Takes (.canFrameReceived t ident ide data) s fun x => x = w) ∧
        (∀ f, on → b.canIsPlais ident ide = false → b.canFilter ident ide = some f →
          Takes (.canFrameReceived t ident ide data) s fun x => x = w.emit (.canIn f ident data))) ∧
      (b.feRuns = false ∨ b.get Obj.busState = 2 → Takes (.canBusOff t) s fun x => x = b) ∧
      (b.feRuns → b.get Obj.busState ≠ 2 → Takes (.canBusOff t) s fun x =>
        x.get Obj.busState = 2 ∧ x.get Obj.busOffs = Obj.busOffs.raised (b.get Obj.busOffs + 1) ∧
          (alarmsRun b 12 → alarmBit x 12 0 = true)) ∧
      (b.get Obj.busState ≠ 2 → Takes (.busOffRecovery t) s fun x => x = b) ∧
      (b.get Obj.busState = 2 → Takes (.busOffRecovery t) s fun x =>
        x.get Obj.busState = 0 ∧ x.get Obj.tec = 0 ∧ x.get Obj.rec = 0 ∧ (alarmsRun b 12 → alarmBit x 12 0 = false)))) ∧
  (∀ (w : Block) (row v : Nat),
    (v ≠ 1 → w.writeDaliState row v = (6, w)) ∧
    (w.get Obj.daliState row = 1 ∨ w.get Obj.daliState row = 2 → w.writeDaliState row 1 = (9, w)) ∧
    (w.get Obj.daliState row ≠ 1 → w.get Obj.daliState row ≠ 2 →
      let x := (w.writeDaliState row 1).2
      let down := w.field.daliDown = true ∧ w.feRuns = true ∧ w.is Obj.daliEnable = true
      (w.writeDaliState row 1).1 = 0 ∧
      (¬ down → x.get Obj.daliState row = 1 ∧ x.field.daliQueue = w.field.daliQueue ++ [row]) ∧
      (down → x.get Obj.daliState row = 3 ∧ x.get Obj.daliResult row = 5 ∧ x.field = w.field))) ∧
  ∀ (w : Block) (ident f : Nat) (ide : Bool), w.canFilter ident ide = some f →
    f < 16 ∧ w.get Obj.canfFilterMask f ≠ 0 ∧ w.is Obj.canfFilterIde f = ide ∧
      (ident &&& w.get Obj.canfFilterMask f) = (w.get Obj.canfFilterId f &&& w.get Obj.canfFilterMask f)

/-- Detectors and the auxiliary ADC (R368 to R373): an edge changes PRESENT and counts an arrival in each lane it leads;
a vehicle past MAX_TRAVEL is unclassified; a stuck detector marks its lanes; an interval closes and begins, and its
records enter the ring; a scan gives each channel its value; a limit passed for PERSIST raises its alarm. Where it goes
past the manual it rests on the model's choices of log entries 101, 206 and 207. -/
def Obligations.DetectorsCountAndTheAdcJudges : Prop :=
  (∀ (s : State) (t : Nat), s.blk.frozen = false →
    let b := s.blk.tick t
    (∀ (d : Fin 8) (level : Bool),
      let on := level == (b.get Obj.detActiveLevel d == 1)
      (b.coreA = false ∨ b.is Obj.detPresent d = on → Takes (.detectorEdge t d level) s fun x => x = b) ∧
      (b.coreA → b.is Obj.detPresent d ≠ on → Takes (.detectorEdge t d level) s fun x =>
        x.is Obj.detPresent d = on ∧ (on = false → alarmsRun b 9 → alarmBit x 9 d = false) ∧
        ∀ l < 8, x.get Obj.laneTotal l = if on = true ∧ b.get Obj.laneLead l = d then
          Obj.laneTotal.raised (b.get Obj.laneTotal l + 1) else b.get Obj.laneTotal l) ∧
      (
        let stuck := b.coreA = true ∧ b.is Obj.detPresent d = true ∧ b.detStuck d = true
        (¬ stuck → Takes (.stuckTimeExpiry t d) s fun x => x = b) ∧
        (stuck → Takes (.stuckTimeExpiry t d) s fun x => (alarmsRun b 9 → alarmBit x 9 d = true) ∧
          ∀ l < 8, b.field.lanes.length = 8 → b.get Obj.laneLead l = d ∨ b.get Obj.laneTrail l = d →
            (x.lane l).cur.stuck ∧ (x.lane l).cars = []))) ∧
    (∀ l : Fin 8,
      let cars := (b.lane l).cars
      let seen := if b.get Obj.laneTrail l < 8 then b.detStamp (b.get Obj.laneTrail l) else b.presented16.toNat
      let late := fun v : Vehicle => v.trailOn.isNone && decide (v.leadOn + ms16 (b.get Obj.laneMaxTravel l) ≤ seen)
      ((∀ v ∈ cars, late v = false) → Takes (.maxTravelExpiry t l) s fun x => x = b) ∧
      ((cars.map (·.leadOn)).Nodup → b.field.lanes.length = 8 → Takes (.maxTravelExpiry t l) s fun x =>
        (x.lane l).cars = cars.filter (fun v => !late v) ∧ x.regs = b.regs ∧ (x.lane l).cur.unclassified =
          (b.lane l).cur.unclassified + (cars.filter fun v => late v && !v.closed).length)) ∧
    (b.coreA = false ∨ b.field.boundary = some b.lastBoundary → Takes (.intervalBoundary t) s fun x => x = b) ∧
    (b.coreA → b.field.boundary ≠ some b.lastBoundary → b.field.lanes.length = 8 → Takes (.intervalBoundary t) s fun x =>
      let e := b.lastBoundary
      ((∀ l < 8, (b.lane l).closed = none) → x.regs = b.regs) ∧ x.field.boundary = some e ∧ x.field.boundaryAt = b.now ∧
      ∀ l < 8,
        let u := b.lane l
        (x.lane l).cur.count = 0 ∧ (x.lane l).cur.start = some e ∧ (∀ v ∈ (x.lane l).cars, v.closed) ∧
          (x.lane l).closed = some { u.cur with
            start := some (u.cur.start.getD (e - ms16 (60000 * b.get Obj.interval)))
            occ := u.cur.occ + (u.leadSince.map fun i => e - i).getD 0, ended := e, noTime := !b.timeValidNow }) ∧
    (b.coreA = false ∨ b.now < b.field.boundaryAt + ms (b.get Obj.recordHold) →
      Takes (.recordHoldExpiry t) s fun x => x = b) ∧
    (b.coreA → b.field.boundaryAt + ms (b.get Obj.recordHold) ≤ b.now → b.get Obj.recNext < 1024 →
      Takes (.recordHoldExpiry t) s fun x => (∀ l < 8, (x.lane l).closed = none) ∧
        x.get Obj.recNext = (b.get Obj.recNext + ((List.range 8).filter fun l =>
          (b.lane l).closed.isSome && b.get Obj.laneLead l != 255).length) % 1024) ∧
    (∀ raw, b.field.scanning = false ∨ b.coreA = false ∨ b.now < b.scanEnd → Takes (.adcScanEnd t raw) s fun x => x = b) ∧
    (∀ raw, b.field.scanning → b.coreA → b.scanEnd ≤ b.now → Takes (.adcScanEnd t raw) s fun x =>
      x.field.scanning = b.field.scanNext ∧ ∀ k < 13,
        let v := b.geti Obj.adcGain k * (raw.getD k 0 : Int) + b.geti Obj.adcOffset k
        x.get Obj.adcRaw k = (if b.is Obj.adcScan k then min (raw.getD k 0) 4095 else b.get Obj.adcRaw k) ∧
        (b.is Obj.adcScan k → b.get Obj.adcRmsWindow k = 0 → -(2 ^ 31) ≤ v → v < 2 ^ 31 → x.geti Obj.adcValue k = v)) ∧
    (∀ ch : Fin 13,
      let a := b.field.adc.getD ch {}
      let p := ms (b.get Obj.adcPersist ch)
      let high := b.coreA = true ∧ ∃ e, a.above = some e ∧ p ≤ b.now - e
      let low := b.coreA = true ∧ ∃ e, a.below = some e ∧ p ≤ b.now - e
      (¬ high → Takes (.adcPersistExpiry t ch true) s fun x => x = b) ∧
      (¬ low → Takes (.adcPersistExpiry t ch false) s fun x => x = b) ∧
      (high → Takes (.adcPersistExpiry t ch true) s fun x => (x.field.adc.getD ch {}).below = a.below ∧
        (alarmsRun b 11 → alarmBit x 11 ch = true)) ∧
      (low → Takes (.adcPersistExpiry t ch false) s fun x => (x.field.adc.getD ch {}).above = a.above ∧
        (alarmsRun b 10 → alarmBit x 10 ch = true))) ∧
    (
      let old := ∀ e ∈ b.field.falls, e + secs (b.get Obj.cycleWindow) ≤ b.now
      (¬ old → Takes (.cycleWindowExpiry t) s fun x => x = b) ∧
      (old → Takes (.cycleWindowExpiry t) s fun x => x.field.falls = [] ∧ (alarmsRun b 1 → alarmBit x 1 0 = false)))) ∧
  ∀ (w : Block) (l : Nat) (y : Tally), w.get Obj.recNext < 1024 →
    let n := w.get Obj.recNext
    let x := w.writeInterval l y
    x.get Obj.recLane n = l ∧ x.get Obj.recStart n = ofT16 (y.start.getD 0) ∧ x.get Obj.recCount n = min y.count 65535 ∧
      x.get Obj.recUnclassified n = min y.unclassified 65535 ∧
      (y.start.getD 0 < y.ended → x.get Obj.recOccupancy n = min (y.occ * 10000 / (y.ended - y.start.getD 0)) 65535) ∧
      (0 < y.speeds → x.get Obj.recMeanSpeed n = min (y.speedSum / y.speeds) 65535) ∧
      x.get Obj.recNext = (n + 1) % 1024

/-! ### The cullet log, margins and heat (R402 to R408, R413 to R427) -/

/-- The cullet log (R402 to R406, R408): the POWER_FAIL record goes first, then the queue in order, and a source that
waits moves up; a record takes the next SEQ and its slot of the ring, is whole once its CRC is written, and a
first-fault record is then copied to the first free first-fault slot; a post beyond 32 waits. Where it goes past the
manual it rests on the model's choices of log entries 84 and 212. -/
def Obligations.RecordsTakeTheirSlotsInOrder : Prop :=
  (∀ (s : State) (t : Nat),
    let b := s.blk.tick t
    let c := b.cullet
    let slot := 128 + c.next % 1920
    let started := fun (p : Post) (x : Block) =>
      let r : Slot := { seq := c.next, rtc := b.rtc, type := p.type, ntime := b.stampTime
                        flags := p.flags + (if b.timeValidNow then 1 else 0), payload := p.payload, whole := false }
      assocGet x.cullet.slots slot = some r ∧ (∀ k, k ≠ slot → assocGet x.cullet.slots k = assocGet c.slots k) ∧
        x.cullet.next = c.next + 1 ∧ x.cullet.writing = some slot ∧ x.cullet.copyOwed = if p.first then some r else none
    (c.writing ≠ none → Takes (.culletRecordWrite t) s fun x => x = b) ∧
    (c.urgent = none → c.queue = [] → Takes (.culletRecordWrite t) s fun x => x = b) ∧
    (∀ p, c.writing = none → c.urgent = some p → Takes (.culletRecordWrite t) s fun x =>
      started p x ∧ x.cullet.urgent = none ∧ x.cullet.queue = c.queue ∧ x.cullet.waiting = c.waiting) ∧
    (∀ p l, c.writing = none → c.urgent = none → c.queue = p :: l → Takes (.culletRecordWrite t) s fun x =>
      started p x ∧ x.cullet.urgent = none ∧ x.cullet.queue = l ++ c.waiting.take 1 ∧ x.cullet.waiting = c.waiting.drop 1) ∧
    (c.writing = none → Takes (.culletCrcWritten t) s fun x => x = b) ∧
    (∀ k r, c.writing = some k → assocGet c.slots k = some r →
      (c.copyOwed = none → Takes (.culletCrcWritten t) s fun x =>
        assocGet x.cullet.slots k = some { r with whole := true } ∧ x.cullet.writing = none ∧
          x.get Obj.ffUsed = x.cullet.ffUsed) ∧
      (∀ o, c.copyOwed = some o → 128 ≤ k → (∀ j < 128, c.ffValid j) → Takes (.culletCrcWritten t) s fun x =>
        assocGet x.cullet.slots k = some { r with whole := true } ∧ x.cullet.writing = none ∧ x.cullet.copyOwed = none) ∧
      (∀ o j, c.copyOwed = some o → 128 ≤ k → j < 128 → c.ffValid j = false → (∀ i < j, c.ffValid i) →
        Takes (.culletCrcWritten t) s fun x =>
          assocGet x.cullet.slots k = some { r with whole := true } ∧ x.cullet.writing = some j ∧ x.cullet.copyOwed = none ∧
            assocGet x.cullet.slots j = some { o with flags := o.flags ||| 2, whole := false }))) ∧
  ∀ (w : Block) (type : Nat) (payload : List Nat) (first : Bool) (flags : Nat),
    let x := w.post type payload first flags
    let p : Post := { type, payload, first, flags }
    (w.cullet.queue.length < 32 → w.cullet.waiting = [] → x = { w with cullet := { w.cullet with queue := w.cullet.queue ++ [p] } }) ∧
    (32 ≤ w.cullet.queue.length ∨ w.cullet.waiting ≠ [] →
      x = { w with cullet := { w.cullet with waiting := w.cullet.waiting ++ [p] } })

/-- Lehr passes, VCORE and the thermal ladder (R417 to R419, R422, R424, R426): a period or LEHR_RUN makes a pass due; a
sweep gives the cells and S_MIN, and climbs by a voltage rung while the plan is not met, tries a lower one while it is,
and takes that back where it fails; a limit that VCORE breaks moves it; TJ is the hottest reading, and the ladder goes
up a step from THERMAL_ENTER on. Where it goes past the manual it rests on the model's choices of log entries 85, 86,
88, 89 and 213. -/
def Obligations.PassesClimbDescendAndTheThermalLadderMoves : Prop :=
  (∀ (s : State) (t v : Nat) (p : Port) (ok : Bool),
    Writes (.lehrRun t p) s t p 0x1403 6 noRow 1 1 (fun w _ _ =>
      if w.margin.pass = none then (0, { w with margin := { w.margin with due := true } }) else (9, w)) ∧
    Writes (.vcoreLimitWrite t p 2 v ok) s t p 0x1402 2 noRow 2 v (fun w _ _ => w.writeVcore Obj.vcoreMin v ok)
      (.vcore ok) ∧
    Writes (.vcoreLimitWrite t p 3 v ok) s t p 0x1402 3 noRow 2 v (fun w _ _ => w.writeVcore Obj.vcoreMax v ok)
      (.vcore ok) ∧
    (s.blk.frozen = false →
      let b := s.blk.tick t
      (Takes (.lehrPeriodExpiry t) s fun x =>
        x = if b.coreA ∧ b.margin.periodFrom + secs (b.get Obj.lehrPeriod) ≤ b.now then
          { b with margin := { b.margin with periodFrom := b.now, due := true } } else b) ∧
      (b.margin.pass = none → Takes (.vcoreSettleExpiry t) s fun x => x = b) ∧
      (∀ q, b.margin.pass = some q → Takes (.vcoreSettleExpiry t) s fun x =>
        x = if q.settling ∧ q.since + us (b.get Obj.vcoreSettle) ≤ b.now then
          { b with margin := { b.margin with pass := some { q with settling := false } } } else b) ∧
      (∀ cells, (∀ q, b.margin.pass = some q → q.settling) → Takes (.strainSweepDone t cells ok) s fun x => x = b) ∧
      (∀ cells q m, b.margin.pass = some q → q.settling = false → (∀ i < 48, m ≤ cells.getD i 0) → (∃ i < 48, m = cells.getD i 0) →
        let step := b.get Obj.lehrStep
        let now := b.get Obj.vcoreNow
        let low := b.get Obj.vcoreMin
        let top := b.get Obj.vcoreMax
        let met := b.get Obj.planSReq (step - 1) * (100 + b.get Obj.lehrMargin) ≤ m * 100
        let swept := fun x : Block => x.get Obj.sMin = m ∧ ∀ i < 48, x.get Obj.cellCellS i = cells.getD i 0
        let ended := fun x : Block => x.margin.pass = none ∧
          x.get Obj.lehrPasses = Obj.lehrPasses.raised (b.get Obj.lehrPasses + 1)
        (¬ met → q.trial = false → q.noRung = false → step ≤ 1 → now < top → b.get Obj.thermalStep = 0 →
          Takes (.strainSweepDone t cells true) s fun x => swept x ∧ x.get Obj.lehrStep = 1 ∧
            x.get Obj.vcoreNow = min (now + 5) top ∧ x.margin.pass = some { q with climbed := true, settling := true, since := b.now } ∧
              .pmbus (b.get Obj.vcorePage) (min (now + 5) top) ∈ x.outs) ∧
        (met → q.trial = false → q.climbed → Takes (.strainSweepDone t cells ok) s fun x =>
          swept x ∧ ended x ∧ x.get Obj.lehrShort = 0 ∧ x.get Obj.vcoreNow = now) ∧
        (met → q.climbed = false → step = 1 → low < now → Takes (.strainSweepDone t cells true) s fun x =>
          swept x ∧ x.get Obj.vcoreNow = max low (now - 5) ∧
            x.margin.pass = some { q with trial := true, settling := true, since := b.now } ∧
              .pmbus (b.get Obj.vcorePage) (max low (now - 5)) ∈ x.outs) ∧
        (¬ met → q.trial → Takes (.strainSweepDone t cells true) s fun x =>
          swept x ∧ ended x ∧ x.get Obj.vcoreNow = min (now + 5) top)))) ∧
  (∀ (s : State) (t : Nat) (ch8 h m l : Int),
    let b := s.blk.tick t
    let reads := (if b.coreA then [ch8] else []) ++ (if b.radioOn .h then [h] else []) ++ (if b.radioOn .m then [m] else []) ++
      (if b.radioOn .l then [l] else [])
    let step := b.get Obj.thermalStep
    (b.coreF = false ∨ (∃ k, b.margin.checkAt = some k ∧ b.now < k + secs 1) →
      Takes (.thermalCheck t ch8 h m l) s fun x => x = b) ∧
    (∀ tj : Int, b.coreF → (∀ k, b.margin.checkAt = some k → k + secs 1 ≤ b.now) → tj ∈ reads → (∀ y ∈ reads, y ≤ tj) → -(2 ^ 15) ≤ tj → tj < 2 ^ 15 → b.get Obj.tjPeak < 2 ^ 16 →
      Takes (.thermalCheck t ch8 h m l) s fun x => x.margin.checkAt = some b.now ∧ x.geti Obj.tjNow = tj ∧ x.geti Obj.tjPeak = max (b.geti Obj.tjPeak) tj ∧
        (10 * (b.get Obj.thermalEnter : Int) ≤ tj → x.get Obj.thermalStep = min 4 (step + 1)) ∧
        (10 * (b.get Obj.thermalExit : Int) < tj → tj < 10 * (b.get Obj.thermalEnter : Int) → x.get Obj.thermalStep = step) ∧
        (tj ≤ 10 * (b.get Obj.thermalExit : Int) → tj < 10 * (b.get Obj.thermalEnter : Int) → ∀ since, b.margin.coolFrom = some since →
          since + secs (b.get Obj.thermalHold) ≤ b.now → x.get Obj.thermalStep = step - 1))) ∧
  ∀ (w : Block) (v : Nat), v ≤ w.get Obj.vcoreNow + 160 → w.get Obj.vcoreNow ≤ v + 160 →
    let low := w.writeVcore Obj.vcoreMin v true
    let top := w.writeVcore Obj.vcoreMax v true
    low.1 = 0 ∧ top.1 = 0 ∧ low.2.get Obj.vcoreMin = v ∧ top.2.get Obj.vcoreMax = v ∧
      low.2.get Obj.vcoreNow = max v (w.get Obj.vcoreNow) ∧ top.2.get Obj.vcoreNow = min v (w.get Obj.vcoreNow) ∧
      (w.get Obj.vcoreNow < v → low.2.margin.due) ∧ (v < w.get Obj.vcoreNow → top.2.margin.due)

/-! ### The memories (R470, R476, R478 to R496) -/

/-- The working store, the DRAM controller and the boot flash (R470, R482, R485 to R489, R492, R493): what a scrub finds
is counted or is a Furnace fault; a request waits in self-refresh and is served from its channel or the mirror;
refreshes are postponed at most 8 times; one channel retrains at a time, and a second failure in a row fences it; a
second read timeout fences the flash; a flash operation ends with its status and changes its octets alone. Where it goes
past the manual it rests on the model's choices of log entries 121, 122, 123, 215 and 216. -/
def Obligations.MemoriesServeRepairAndFence : Prop :=
  (∀ (s : State) (t addr : Nat), s.blk.frozen = false →
    let b := s.blk.tick t
    let few := b.dram.ues = [] ∧ 2 ≤ b.get Obj.ueFenceCount
    (b.coreF = false → ∀ e, Takes (.wsScrub t e) s fun x => x = b) ∧
    (b.coreF →
      (Takes (.wsScrub t .corrected) s fun x => x = b.add Obj.wsCe) ∧ (Takes (.wsScrub t .spilledBuffer) s fun x => x = b) ∧
      (Takes (.wsScrub t .journalLine) s fun x => x = if b.dram.up then b.add Obj.journalRepaired else (b.add Obj.wsUe).coldReset 6) ∧
      (Takes (.wsScrub t .elsewhere) s fun x => x = (b.add Obj.wsUe).coldReset 6)) ∧
    (∀ (cls requester : Nat) (write ce ue : Bool),
      let r : DramReq := { id := b.dram.nextReq, cls := min cls 3, requester, addr, write, ce, ue, at_ := b.now }
      let runs := 5 ≤ requester ∧ requester < 17 ∧ (b.cpu (requester - 5)).run = .running
      let c : Instr := .dramRequest t cls requester addr write ce ue
      (b.dram.up = false → Takes c s fun x => x = b) ∧
      (b.dram.up → b.dram.placeOf addr = none → (¬ runs → Takes c s fun x => x = b) ∧
        (runs → Takes c s fun x => x = b.takeException (requester - 5) .unmapped (BitVec.ofNat 64 addr))) ∧
      (∀ pl, b.dram.up → b.dram.placeOf addr = some pl → Takes c s fun x =>
        x = { b with dram := { b.dram with
          reqs := b.dram.reqs ++ [r], nextReq := b.dram.nextReq + 1, idleFrom := b.now, entering := none
          waking := b.dram.waking || decide (b.get Obj.dramState = 2) } })) ∧
    (∀ id, b.dram.reqs.find? (fun r => r.id == id) = none → Takes (.dramAgePromote t id) s fun x => x = b) ∧
    (∀ id r, b.dram.reqs.find? (fun r => r.id == id) = some r → Takes (.dramAgePromote t id) s fun x =>
      let y := b.modDram fun d => { d with reqs := d.reqs.map fun q => if q.id = id then { q with cls := 0, late := true } else q }
      x = if r.late ∨ b.now < r.at_ + b.ageLimit r.cls then b else if r.cls = 0 then y.add Obj.deadlineLate else y) ∧
    (∀ (ch : Fin 2),
      let serves := b.dramActive = true ∧ b.chFenced ch = false
      let other := b.chFenced (1 - ch.val)
      (∀ ce ue, ¬ serves ∨ b.dram.placeOf addr = none → Takes (.dramScrub t ch addr ce ue) s fun x => x = b) ∧
      (∀ ce, serves → b.dram.placeOf addr ≠ none → Takes (.dramScrub t ch addr ce false) s fun x =>
        x = if ce then b.add Obj.dchCeCount 1 ch else b) ∧
      (∀ ce, serves → b.dram.placeOf addr ≠ none → few → Takes (.dramScrub t ch addr ce true) s fun x =>
        x.get Obj.dchUeCount ch = Obj.dchUeCount.raised (b.get Obj.dchUeCount ch + 1) ∧ x.dram.ues = [(ch.val, b.now)]) ∧
      (∀ (bank : Fin 8),
        let n := assocNat b.dram.postponed (8 * ch.val + bank.val)
        let left := fun x : Block => assocNat x.dram.postponed (8 * ch.val + bank.val)
        (¬ serves → ∀ p, Takes (.dramRefresh t ch bank p) s fun x => x = b) ∧
        (serves → n < 8 → Takes (.dramRefresh t ch bank true) s fun x => left x = n + 1) ∧
        (serves → 8 ≤ n → Takes (.dramRefresh t ch bank true) s fun x => x = b) ∧
        (serves → Takes (.dramRefresh t ch bank false) s fun x => left x = 0 ∧ x.regs = b.regs)) ∧
      (¬ serves ∨ b.dram.training ≠ none → Takes (.dramRetrainStart t ch) s fun x => x = b) ∧
      (serves → b.dram.training = none → Takes (.dramRetrainStart t ch) s fun x =>
        x = b.modDram fun d => { d with training := some ch.val }) ∧
      (∀ ok, b.dram.training ≠ some ch.val → Takes (.dramRetrainDone t ch ok) s fun x => x = b) ∧
      (b.dram.training = some ch.val → b.dram.fails.length = 2 →
        (Takes (.dramRetrainDone t ch true) s fun x => x.dram.training = none ∧ x.dram.fails.getD ch 0 = 0 ∧
          x.get Obj.dchRetrains ch = Obj.dchRetrains.raised (b.get Obj.dchRetrains ch + 1)) ∧
        (b.dram.fails.getD ch 0 = 0 → Takes (.dramRetrainDone t ch false) s fun x => x.dram.training = none ∧ x.dram.fails.getD ch 0 = 1 ∧
          x.get Obj.fabricFenced = b.get Obj.fabricFenced) ∧
        (b.dram.fails.getD ch 0 = 1 → b.coreF → b.chFenced ch = false → other = false →
          Takes (.dramRetrainDone t ch false) s fun x => x.chFenced ch ∧ x.get Obj.lastFenceCause = 5))) ∧
    (b.coreA = false ∨ b.flashFenced → Takes (.xspiReadTimeout t) s fun x => x = b) ∧
    (b.coreA → b.flashFenced = false → b.flash.retryAt = none → Takes (.xspiReadTimeout t) s fun x =>
      x = { b with flash := { b.flash with retryAt := some b.now } }) ∧
    (∀ since, b.coreA → b.flashFenced = false → b.flash.retryAt = some since → b.now ≤ since + us (b.get Obj.xspiTimeout + 20) →
      Takes (.xspiReadTimeout t) s fun x => x = { b with flash := { b.flash with retryAt := none } }.fence 19 6)) ∧
  (∀ (s : State) (t : Nat) (p : Port),
    Writes (.xspiProgram t p) s t p 0x1630 6 noRow 1 1 (fun w _ _ => w.writeXspiOp p (portLoc p) 1) ∧
    Writes (.xspiSectorErase t p) s t p 0x1630 6 noRow 1 2 (fun w _ _ => w.writeXspiOp p (portLoc p) 2) ∧
    Writes (.xspiBlockErase t p) s t p 0x1630 6 noRow 1 3 (fun w _ _ => w.writeXspiOp p (portLoc p) 3) ∧
    Asked (.csWrite t p) s t p 0x8210 4 noRow 1 1 (fun _ _ =>
      let w := s.blk.tick t
      let off := w.get Obj.csOffset (portLoc p)
      let len := w.get Obj.csLen (portLoc p)
      let torn := w.regs.slots.torn (0x200C4000 + off) len
      (3391488 < off + len → Takes (.csWrite t p) s fun x => x = w.answered p 0x8210 4 noRow 6 0) ∧
      (off + len ≤ 3391488 → len ≤ 256 → ∃ u : State,
        exec (.csWrite t p) s = .next { u with blk := u.blk.answered p 0x8210 4 noRow 0 0 }.settle ∧ u.pending = s.pending ∧
        u.regs = s.regs ∧ u.blk.outs = w.outs ∧ u.blk.frames = w.frames ∧
        u.blk.get Obj.mramUe = Obj.mramUe.raised (w.get Obj.mramUe + torn.length) ∧
        (∀ j < len, memGet u.mem (0x200C4000 + off + j) = BitVec.ofNat 8 (w.get Obj.csData (portLoc p) / 256 ^ (255 - j))) ∧
        ∀ a, a < 0x200C4000 + off ∨ 0x200C4000 + off + len ≤ a → (∀ x ∈ torn, a < x ∨ x + 8 ≤ a) →
          memGet u.mem a = memGet s.mem a)) ∧
    (s.blk.frozen = false → (s.blk.tick t).flash.op = none → ∀ status, Takes (.xspiOpDone t status) s fun x => x = s.blk.tick t) ∧
    (s.blk.frozen = false → ∀ f status, (s.blk.tick t).flash.op = some f → f.offset + 65536 ≤ 0x40000000 →
      let lo := 0x40000000 + f.span.1
      ∃ u : State, exec (.xspiOpDone t status) s = .next u.settle ∧ u.pending = s.pending ∧ u.regs = s.regs ∧
        u.blk.flash.op = none ∧ u.blk.get Obj.xspiOp = 0 ∧ u.blk.get Obj.xspiOpStatus = min status 3 ∧
        (∀ a, a < lo ∨ lo + f.span.2 ≤ a → memGet u.mem a = memGet s.mem a) ∧
        (status = 0 → f.op = 1 → ∀ j < f.data.length, memGet u.mem (lo + j) = (f.data.getD j 0 &&& memGet s.mem (lo + j))) ∧
        (status = 0 → f.op ≠ 1 → ∀ j < f.span.2, memGet u.mem (lo + j) = 0xFF#8) ∧
        (status ≠ 0 → ∀ j < f.span.2, memGet u.mem (lo + j) = Config.freeOctet ((s.blk.tick t).fresh + j)))) ∧
  (∀ (w : Block) (r : DramReq) (pl : Nat × Nat × Nat × Nat), w.dramActive → w.dram.reqs = [r] → w.dram.placeOf r.addr = some pl →
    let served := { w with dram := { w.dram with reqs := [], idleFrom := w.now } }
    let mirror := w.dram.mirrored r.addr && !w.chFenced (1 - pl.1)
    let runs := 5 ≤ r.requester ∧ r.requester < 17 ∧ (w.cpu (r.requester - 5)).run = .running
    (w.dram.training = some pl.1 → w.dram.mirrored r.addr = false ∨ r.write → w.dramRun = w) ∧
    (w.dram.training = none → w.chFenced pl.1 → mirror → w.dramRun = served.emit (.dram r.id pl.1 1)) ∧
    (w.dram.training = none → w.chFenced pl.1 = false → r.write = true ∨ r.ue = false → w.dramRun =
      (if r.ce = true ∧ r.write = false then served.add Obj.dchCeCount 1 pl.1 else served).emit (.dram r.id pl.1 0)) ∧
    (w.dram.training = none → w.chFenced pl.1 = false → r.write = false → r.ue → w.dram.ues = [] → 2 ≤ w.get Obj.ueFenceCount →
      w.coreF →
      let x := w.dramRun
      x.dram.reqs = [] ∧ .dram r.id pl.1 (if mirror then 1 else 2) ∈ x.outs ∧
        x.get Obj.dchUeCount pl.1 = Obj.dchUeCount.raised (w.get Obj.dchUeCount pl.1 + 1) ∧
        (runs → mirror = false → w.cpus.length = 12 → (w.cpu (r.requester - 5)).exl = false →
          x.cpu (r.requester - 5) = entered .dramUe (BitVec.ofNat 64 r.addr) (w.cpu (r.requester - 5))))) ∧
  ∀ (w : Block) (p : Port) (loc op : Nat),
    let off := w.get Obj.xspiOffset loc
    let len := w.get Obj.xspiLen loc
    let out := w.writeXspiOp p loc op
    let starts := out.1 = 0 ∧ out.2.get Obj.xspiOp = op ∧
      out.2.flash.op.map (fun f => (f.port, f.op, f.offset)) = some (p, op, off)
    (w.flash.suspend = false → out = (6, w)) ∧
    (w.flash.suspend → w.flash.op ≠ none ∨ w.flashFenced → out = (9, w)) ∧
    (w.flash.suspend → w.flash.op = none → w.flashFenced = false →
      (op = 1 → len = 0 ∨ 256 < off % 256 + len → out = (0, w.put Obj.xspiOpStatus 3)) ∧
      (op = 1 → 0 < len → off % 256 + len ≤ 256 → off + len ≤ w.flash.mib * 1048576 → starts) ∧
      (op = 2 → off / 4096 * 4096 + 4096 ≤ w.flash.mib * 1048576 → starts) ∧
      (op = 3 → off / 65536 * 65536 + 65536 ≤ w.flash.mib * 1048576 → starts))

/-! ### Images and engine control (R453 to R456, R462, R464, R508 to R510) -/

/-- Swaps and trials (R508 to R510): SWAP_GO is refused with BUSY during a swap, while the flash is fenced or for a
fenced engine; a slot that fails its checks ends the swap with status 4, one that passes asks the first engine; an
engine held at its safe point is loaded and started with g1 = 2; a wait that ends withdraws the swap with status 3;
BOOT_CONFIRM makes the running slot the preferred one, and a trial that nobody confirms swaps back. Where it goes past
the manual it rests on the model's choices of log entries 117 and 118. -/
def Obligations.SwapsGoEngineByEngineAndTrialsEnd : Prop :=
  (∀ (s : State) (t : Nat) (p : Port), s.blk.frozen = false →
    let b := s.blk.tick t
    Asked (.swapGo t p) s t p 0x1620 3 noRow 1 1 (fun _ _ =>
      let mask := b.get Obj.swapMask
      let fenced := fun n => (b.get Obj.fabricFenced).testBit n
      let engines := (List.range 11).filter fun n => mask.testBit n
      let free := b.images.swap = none ∧ fenced 19 = false ∧ ∀ n ∈ engines, fenced n = false
      (¬ free → Takes (.swapGo t p) s fun x => x = b.answered p 0x1620 3 noRow 9 0) ∧
      (free → ∃ u : State, u = ({ s with blk := b } : State).swapStart (b.get Obj.swapSlot) engines false ∧
        exec (.swapGo t p) s = .next { u with blk := u.blk.answered p 0x1620 3 noRow 0 0 }.settle)) ∧
    Writes (.bootConfirm t p) s t p 0x1601 6 noRow 1 1 (fun w _ _ => w.writeBootConfirm 1) ∧
    (b.images.swap = none → Takes (.swapEngineLoaded t) s fun x => x = b ∧ Takes (.swapWaitExpiry t) s fun x => x = b) ∧
    (∀ w, b.images.swap = some w → (w.held = false ∨ w.left = [] → Takes (.swapEngineLoaded t) s fun x => x = b) ∧
      (w.held ∨ b.now < w.from_ + ms (b.get Obj.swapWait) → Takes (.swapWaitExpiry t) s fun x => x = b) ∧
      (w.held = false → w.from_ + ms (b.get Obj.swapWait) ≤ b.now → Takes (.swapWaitExpiry t) s fun x => x.images.swap = none ∧ x.get Obj.swapStatus = 3 ∧
        ∀ n l, w.left = n :: l → (x.cpu n).swapReq = false) ∧
      (∀ n l, w.held → w.left = n :: l → n < 11 → b.cpus.length = 12 → n ∉ l → (∀ m < 11, (b.cpu m).run ≠ .fenced) → ∃ u : State,
        exec (.swapEngineLoaded t) s = .next u.settle ∧ u.pending = s.pending ∧ u.reg n 1 = 2 ∧
          (∀ m r, m < 12 → r < 32 → m ≠ n ∨ r ≠ 1 → u.reg m r = s.reg m r) ∧
          (u.blk.cpu n).run = .running ∧ (u.blk.cpu n).priv = .f ∧
          (u.blk.cpu n).pc = BitVec.ofNat 40 (u.blk.get (Obj.engStartPc.eng n)) ∧ (u.blk.get Obj.swapDone).testBit n ∧
          u.blk.get Obj.swaps = Obj.swaps.raised (b.get Obj.swaps + 1) ∧
          (l = [] → u.blk.images.swap = none ∧ u.blk.get Obj.swapStatus = 2 ∧ u.blk.get Obj.fabricFenced = 0) ∧
          (l ≠ [] → (u.blk.images.swap.map fun y => (y.slot, y.left, y.held)) = some (w.slot, l, false)))) ∧
    (b.images.trial = none ∨ b.images.swap ≠ none ∨ b.coreF = false ∨
      (∃ k, b.images.trial = some k ∧ b.now < k + secs (b.get Obj.confirmTime)) → Takes (.confirmTimeExpiry t) s fun x => x = b) ∧
    (∀ k, b.images.trial = some k → b.images.swap = none → b.coreF → k + secs (b.get Obj.confirmTime) ≤ b.now →
      let prefer := b.get Obj.bootPrefer
      let back := (List.range 11).filter fun n => b.images.engSlot.getD n 255 == 1 - prefer &&
        !(b.get Obj.fabricFenced).testBit n && b.domainOn (engineDomain n)
      exec (.confirmTimeExpiry t) s = .next (({ s with
        blk := { b with images := { b.images with trial := none } }.add Obj.fallbacks } : State).swapStart prefer back true).settle)) ∧
  (∀ (u : State) (slot n : Nat) (l : List Nat) (back : Bool),
    let x := (u.swapStart slot (n :: l) back).blk
    ((u.checkSlot slot).1 ≠ 1 → x.get Obj.swapStatus = 4 ∧ x.images.swap = none ∧ x.cpus = u.blk.cpus) ∧
    ((u.checkSlot slot).1 = 1 → (∀ m < 11, (u.blk.cpu m).run ≠ .fenced) → x.get Obj.swapStatus = 1 ∧ x.get Obj.swapDone = 0 ∧
      (x.images.swap.map fun w => (w.slot, w.left, w.held)) = some (slot, n :: l, false) ∧
      (n < u.blk.cpus.length → (x.cpu n).swapReq))) ∧
  ∀ w : Block, (w.images.trial = none → w.writeBootConfirm 1 = (0, w)) ∧
    (w.images.trial ≠ none → (w.writeBootConfirm 1).1 = 0 ∧ (w.writeBootConfirm 1).2.images.trial = none ∧
      (w.writeBootConfirm 1).2.get Obj.bootPrefer =
        if w.images.engSlot.getD 0 255 = 255 then w.get Obj.bootSlot else w.images.engSlot.getD 0 255)

/-- Engine control (R453 to R456, R462, R464): CONTROL is refused with READ_ONLY on GD and with BUSY on a fenced engine,
and halts, runs from START_PC or resumes; mould rows take only what keeps R460 and R461, from engine ports at F or M; an
event sets its bit and ends a wait that it meets; a watchdog that runs out halts its engine and fences its unit with
cause 2. Where it goes past the manual it rests on the model's choices of log entries 51, 126 and 214. -/
def Obligations.EnginesObeyControlEventsAndWatchdogs : Prop :=
  (∀ (s : State) (t : Nat) (p : Port) (n : Eng),
    let b := s.blk.tick t
    let c := b.cpu n
    Writes (.engineHalt t p n) s t p (0x7000 + 16 * n.val) 2 noRow 1 1 (fun w _ _ => w.writeControl n 1) ∧
    Writes (.engineRun t p n) s t p (0x7000 + 16 * n.val) 2 noRow 1 2 (fun w _ _ => w.writeControl n 2) ∧
    Writes (.engineResume t p n) s t p (0x7000 + 16 * n.val) 2 noRow 1 3 (fun w _ _ => w.writeControl n 3) ∧
    (∀ row sub v : Nat,
      let i : Instr := .mouldRowWrite t p n row sub v
      Asked i s t p (0x7200 + 16 * n.val) sub row (b.sizeAt (0x7200 + 16 * n.val) sub) v (fun r k =>
        let x := b.put r v k
        let good := mouldOk (x.get (Obj.mouldLength.eng n) k) (x.get (Obj.mouldUops.eng n) k)
        (good = false → Takes i s fun y => y = b.answered p (0x7200 + 16 * n.val) sub row 6 0) ∧
        (good → b.images.engHash.getD n none = none → Takes i s fun y => y = x.answered p (0x7200 + 16 * n.val) sub row 0 0) ∧
        (good → b.images.engHash.getD n none ≠ none → ∃ h : List Octet, Takes i s fun y =>
          y = ({ x with images := { x.images with engHash := x.images.engHash.set n (some h) } } : Block).answered p
            (0x7200 + 16 * n.val) sub row 0 0))) ∧
    (s.blk.frozen = false → ∀ bit : Fin 32,
      (b.domainOn (engineDomain n) = false ∨ 18 < bit.val → Takes (.engineEvent t n bit) s fun x => x = b) ∧
      (b.domainOn (engineDomain n) → bit.val ≤ 18 → b.cpus.length = 12 → Takes (.engineEvent t n bit) s fun x =>
        (x.cpu n).eventSrc = (c.eventSrc ||| (1#32 <<< bit.val)) ∧ (∀ m < 12, m ≠ n.val → x.cpu m = b.cpu m) ∧
        (c.run = .running → (x.cpu n).pc = c.pc ∧ (x.cpu n).flags.e = (c.flags.e || c.evmask.getLsbD bit)) ∧
        (c.run = .wfe → c.evmask.getLsbD bit → (x.cpu n).run = .running ∧ (x.cpu n).pc = c.pc + 4 ∧ (x.cpu n).flags.e = false))) ∧
    (s.blk.frozen = false →
      (c.run = .running ∨ c.run = .halted ∨ c.run = .off ∨ c.run = .fenced → Takes (.wuntilTarget t n) s fun x => x = b) ∧
      (∀ target : Word, c.run = .wuntil target →
        let past := decide ((b.tb n - target).toNat < 2 ^ 63)
        ((c.flags.e || past) = false → Takes (.wuntilTarget t n) s fun x => x = b) ∧
        ((c.flags.e || past) = true → Takes (.wuntilTarget t n) s fun x =>
          x = ({ b with cpus := b.cpus.modify n fun y => { y with run := .running, pc := y.pc + 4, flags := { y.flags with c := past } } } :
            Block).add (Obj.engRetired.eng n)))) ∧
    (let live := c.run = .running ∨ c.run = .wfe ∨ ∃ w, c.run = .wuntil w
     let wd := b.get (Obj.engWatchdog.eng n)
     let past := wd ≠ 0 ∧ if n = 11 then wd * 32768 ≤ (b.uptime - rtcTicks (c.wdStart - b.time.vfurAt)) * 1000000
       else c.wdStart + us wd ≤ b.now
     let due := b.domainOn (engineDomain n) = true ∧ live ∧ past ∧ (b.frozen = false ∨ n = 11)
     (¬ due → Takes (.watchdogExpiry t n) s fun x => x = b) ∧
     (due → Takes (.watchdogExpiry t n) s fun x =>
       x = ({ b with cpus := b.cpus.modify n fun y => { y with run := .halted } } : Block).fence n 2))) ∧
  (∀ (w : Block) (p : Port) (r : Reg) (row : Nat), 0x7200 ≤ r.idx → r.idx < 0x7400 →
    portEng p = 12 ∨ (w.cpu (portEng p)).priv = .a → w.rightCode p r row true = 3) ∧
  ∀ (w : Block) (n : Eng), w.cpus.length = 12 →
    let c := w.cpu n
    let turned := fun v => (n = 11 → w.writeControl n v = (3, w)) ∧
      (n ≠ 11 → c.run = .fenced ∨ w.swapHolds n → w.writeControl n v = (9, w))
    turned 1 ∧ turned 2 ∧ turned 3 ∧
    (n ≠ 11 → c.run ≠ .fenced → w.swapHolds n = false →
      (c.run = .running ∨ c.run = .wfe ∨ (∃ y, c.run = .wuntil y) → w.writeControl n 1 =
        (0, { w with cpus := w.cpus.modify n fun y => { y with run := .halted } })) ∧
      (c.run = .halted ∨ c.run = .off → w.writeControl n 1 = (0, w)) ∧
      ((w.writeControl n 2).1 = 0 ∧ (w.writeControl n 2).2.get (Obj.engRetired.eng n) = 0 ∧
        let x := (w.writeControl n 2).2.cpu n
        x.run = .running ∧ x.priv = .f ∧ x.exl = false ∧ x.pc = BitVec.ofNat 40 (w.get (Obj.engStartPc.eng n)) ∧ x.wdStart = w.now ∧
          x.xvec = BitVec.ofNat 64 (w.get (Obj.engXvecF.eng n))) ∧
      (c.run = .halted → w.writeControl n 3 = (0, { w with cpus := w.cpus.modify n fun y => { y with run := .running, wdStart := w.now } })) ∧
      (c.run ≠ .halted → w.writeControl n 3 = (0, w)))
end

