-- ==== Sys2Proof/Laws/Assoc.lean ====
section
/-!
SUPPORT. Laws of the sparse lists: what a read gives after a change, and that every change keeps keys strictly rising.
-/

namespace Sys2Proof.Machine

variable {α : Type}

theorem assocGet_filter_ne {l : List (Nat × α)} {p : Nat × α → Bool} {key : Nat}
    (h : ∀ v, p (key, v) = true) : assocGet (l.filter p) key = assocGet l key := by
  induction l with
  | nil => rfl
  | cons c rest ih =>
    obtain ⟨k, v⟩ := c
    by_cases hk : k = key
    · subst hk; simp [assocGet, h v]
    · by_cases hp : p (k, v) = true <;> simp_all [assocGet]

theorem assocGet_filter_drop {l : List (Nat × α)} {p : Nat × α → Bool} {key : Nat}
    (h : ∀ v, p (key, v) = false) : assocGet (l.filter p) key = none := by
  induction l with
  | nil => rfl
  | cons c rest ih =>
    obtain ⟨k, v⟩ := c
    by_cases hk : k = key
    · subst hk; simpa [h v] using ih
    · by_cases hp : p (k, v) = true <;> simp_all [assocGet]

@[simp] theorem assocGet_del_same (l : List (Nat × α)) (key : Nat) : assocGet (assocDel l key) key = none :=
  assocGet_filter_drop (by simp)

theorem assocGet_del_ne (l : List (Nat × α)) {key k : Nat} (h : k ≠ key) :
    assocGet (assocDel l key) k = assocGet l k :=
  assocGet_filter_ne (by simp [h])

@[simp] theorem assocGet_put_same (l : List (Nat × α)) (key : Nat) (v : α) : assocGet (assocPut l key v) key = some v := by
  induction l with
  | nil => simp [assocPut, assocGet]
  | cons c rest ih =>
    obtain ⟨k, w⟩ := c
    simp only [assocPut]
    split
    · simp [assocGet]
    · split
      · simp [assocGet]
      · simp [assocGet, *]

theorem assocGet_put_ne (l : List (Nat × α)) {key k : Nat} (v : α) (h : k ≠ key) :
    assocGet (assocPut l key v) k = assocGet l k := by
  induction l with
  | nil => simp [assocPut, assocGet, h.symm]
  | cons c rest ih =>
    obtain ⟨j, w⟩ := c
    simp only [assocPut]
    split
    · simp [assocGet, h.symm]
    · split
      · rename_i hj; subst hj; simp [assocGet, h.symm]
      · simp [assocGet, ih]

theorem assocSorted_filter (p : Nat × α → Bool) {l : List (Nat × α)} (h : assocSorted l = true) :
    assocSorted (l.filter p) = true := by
  induction l with
  | nil => rfl
  | cons c rest ih =>
    obtain ⟨k, v⟩ := c
    simp only [assocSorted, Bool.and_eq_true, List.all_eq_true, decide_eq_true_eq] at h
    by_cases hp : p (k, v) = true
    · simp only [List.filter, hp, assocSorted, Bool.and_eq_true, List.all_eq_true, decide_eq_true_eq]
      exact ⟨fun x hx => h.1 x (List.mem_of_mem_filter hx), ih h.2⟩
    · simp only [List.filter, hp]
      exact ih h.2

theorem assocSorted_del {l : List (Nat × α)} (h : assocSorted l = true) (key : Nat) : assocSorted (assocDel l key) = true :=
  assocSorted_filter _ h

theorem mem_assocPut {l : List (Nat × α)} {key : Nat} {v : α} {c : Nat × α} (h : c ∈ assocPut l key v) :
    c = (key, v) ∨ c ∈ l := by
  induction l with
  | nil => simpa [assocPut] using h
  | cons d rest ih =>
    obtain ⟨k, w⟩ := d
    simp only [assocPut] at h
    split at h
    · simpa using h
    · split at h <;> simp only [List.mem_cons] at h ⊢
      · tauto
      · rcases h with h | h
        · tauto
        · rcases ih h with h | h <;> tauto

theorem assocSorted_put {l : List (Nat × α)} (h : assocSorted l = true) (key : Nat) (v : α) :
    assocSorted (assocPut l key v) = true := by
  induction l with
  | nil => rfl
  | cons d rest ih =>
    obtain ⟨k, w⟩ := d
    have h0 := h
    simp only [assocSorted, Bool.and_eq_true, List.all_eq_true, decide_eq_true_eq] at h
    simp only [assocPut]
    split
    · simp only [assocSorted, Bool.and_eq_true, List.all_eq_true, decide_eq_true_eq, List.mem_cons]
      refine ⟨?_, h⟩
      rintro x (rfl | hx)
      · assumption
      · exact Nat.lt_trans ‹_› (h.1 x hx)
    · split
      · rename_i hk; subst hk
        simp only [assocSorted, Bool.and_eq_true, List.all_eq_true, decide_eq_true_eq]
        exact h
      · simp only [assocSorted, Bool.and_eq_true, List.all_eq_true, decide_eq_true_eq]
        refine ⟨fun x hx => ?_, ih h.2⟩
        rcases mem_assocPut hx with rfl | hx
        · simp only; omega
        · exact h.1 x hx

/-- Lists whose keys rise and meet only where the first ends join to one whose keys rise. -/
theorem assocSorted_append {l m : List (Nat × α)} (hl : assocSorted l = true) (hm : assocSorted m = true)
    (h : ∀ c ∈ l, ∀ d ∈ m, c.1 < d.1) : assocSorted (l ++ m) = true := by
  induction l with
  | nil => exact hm
  | cons c rest ih =>
    obtain ⟨k, v⟩ := c
    simp only [assocSorted, Bool.and_eq_true, List.all_eq_true, decide_eq_true_eq] at hl
    simp only [List.cons_append, assocSorted, Bool.and_eq_true, List.all_eq_true, decide_eq_true_eq, List.mem_append]
    refine ⟨?_, ih hl.2 fun c hc => h c (List.mem_cons_of_mem _ hc)⟩
    rintro x (hx | hx)
    · exact hl.1 x hx
    · exact h _ List.mem_cons_self x hx

end Sys2Proof.Machine
end

