-- ==== Sys2Proof/Laws/Memory.lean ====
section
/-!
SUPPORT. Laws of the memory list: a read after a write, and that every memory operation keeps the canonical form.
-/

namespace Sys2Proof.Machine

/-! ### Reads after writes -/

/-- An octet reads as it was written. -/
@[simp] theorem memGet_put_same (m : List Host.Cell) (a : Nat) (v : Octet) : memGet (memPut m a v) a = v := by
  unfold memGet memPut
  split <;> simp_all

/-- A write leaves every other octet as it was. -/
theorem memGet_put_ne (m : List Host.Cell) {a x : Nat} (v : Octet) (h : x ≠ a) : memGet (memPut m a v) x = memGet m x := by
  unfold memGet memPut
  split
  · rw [assocGet_del_ne m h]
  · rw [assocGet_put_ne m v h]

/-- A write of several octets leaves every octet outside them as it was. -/
theorem memGet_store_out (l : List Octet) : ∀ (m : List Host.Cell) {a x : Nat}, x < a ∨ a + l.length ≤ x →
    memGet (memStore m a l) x = memGet m x := by
  induction l with
  | nil => intros; rfl
  | cons v rest ih =>
    intro m a x h
    simp only [List.length_cons] at h
    rw [memStore, ih _ (by omega), memGet_put_ne _ _ (by omega)]

/-- Each octet of a write of several reads as it was written. -/
theorem memGet_store_in (l : List Octet) : ∀ (m : List Host.Cell) (a : Nat) {i : Nat} (h : i < l.length),
    memGet (memStore m a l) (a + i) = l[i] := by
  induction l with
  | nil => intro _ _ i h; exact absurd h (by simp)
  | cons v rest ih =>
    intro m a i h
    rw [memStore]
    cases i with
    | zero =>
      show memGet (memStore (memPut m a v) (a + 1) rest) a = v
      rw [memGet_store_out _ _ (by omega), memGet_put_same]
    | succ j =>
      have := ih (memPut m a v) (a + 1) (i := j) (by simpa using h)
      rw [show a + (j + 1) = a + 1 + j by omega, this]; rfl

@[simp] theorem memLoad_length (m : List Host.Cell) (a k : Nat) : (memLoad m a k).length = k := by
  induction k generalizing a with
  | zero => rfl
  | succ k ih => simp [memLoad, ih]

/-- What a load gives, octet by octet. -/
theorem memLoad_get (m : List Host.Cell) (k : Nat) : ∀ (a : Nat) {i : Nat} (h : i < (memLoad m a k).length),
    (memLoad m a k)[i] = memGet m (a + i) := by
  induction k with
  | zero => intro a i h; exact absurd h (by simp)
  | succ k ih =>
    intro a i h
    cases i with
    | zero => rfl
    | succ j =>
      have := ih (a + 1) (i := j) (by simpa using h)
      simpa [memLoad, Nat.add_assoc, Nat.add_comm 1 j] using this

/-- Octets read back as they were stored. -/
theorem memLoad_store_same (m : List Host.Cell) (a : Nat) (l : List Octet) : memLoad (memStore m a l) a l.length = l := by
  apply List.ext_getElem (by simp)
  intro i h1 h2
  rw [memLoad_get, memGet_store_in l m a h2]

/-- A load that meets no octet of a store gives what it gave before. -/
theorem memLoad_store_out (m : List Host.Cell) {a x k : Nat} (l : List Octet) (h : x + k ≤ a ∨ a + l.length ≤ x) :
    memLoad (memStore m a l) x k = memLoad m x k := by
  apply List.ext_getElem (by simp)
  intro i h1 h2
  rw [memLoad_get, memLoad_get, memGet_store_out]
  simp at h1; omega

/-- An octet inside a range that was emptied reads blank. -/
theorem memGet_clear_in (m : List Host.Cell) {lo hi x : Nat} (h : lo ≤ x ∧ x < hi) :
    memGet (memClear m lo hi) x = blankAt x := by
  unfold memGet memClear
  rw [assocGet_filter_drop (by intro v; simp; omega)]
  rfl

/-- An octet outside a range that was emptied stays. -/
theorem memGet_clear_out (m : List Host.Cell) {lo hi x : Nat} (h : x < lo ∨ hi ≤ x) :
    memGet (memClear m lo hi) x = memGet m x := by
  unfold memGet memClear
  rw [assocGet_filter_ne (by intro v; simp; omega)]

/-! ### The canonical form -/

theorem memWf_filter {m : List Host.Cell} (h : memWf m = true) (p : Host.Cell → Bool) : memWf (m.filter p) = true := by
  simp only [memWf, Bool.and_eq_true, List.all_eq_true] at h ⊢
  exact ⟨assocSorted_filter _ h.1, fun c hc => h.2 c (List.mem_of_mem_filter hc)⟩

theorem memWf_put {m : List Host.Cell} (h : memWf m = true) (a : Nat) (v : Octet) : memWf (memPut m a v) = true := by
  unfold memPut
  split
  · exact memWf_filter h _
  · rename_i hv
    simp only [memWf, Bool.and_eq_true, List.all_eq_true] at h ⊢
    refine ⟨assocSorted_put h.1 a v, fun c hc => ?_⟩
    rcases mem_assocPut hc with rfl | hc
    · simpa using hv
    · exact h.2 c hc

theorem memWf_store (l : List Octet) : ∀ {m : List Host.Cell} (_ : memWf m = true) (a : Nat), memWf (memStore m a l) = true := by
  induction l with
  | nil => exact fun h _ => h
  | cons v rest ih => exact fun h a => ih (memWf_put h a v) (a + 1)

theorem memWf_clear {m : List Host.Cell} (h : memWf m = true) (lo hi : Nat) : memWf (memClear m lo hi) = true :=
  memWf_filter h _

theorem memWf_clearLocals (l : List Nat) : ∀ {m : List Host.Cell} (_ : memWf m = true), memWf (memClearLocals m l) = true := by
  induction l with
  | nil => exact fun h => h
  | cons n rest ih => exact fun h => ih (memWf_clear h _ _)

theorem memWf_lose {m : List Host.Cell} (h : memWf m = true) (l : Loss) : memWf (memLose m l) = true := by
  cases l
  · exact memWf_clearLocals _ (memWf_clear h _ _)
  · exact memWf_clearLocals _ (memWf_clear h _ _)
  · exact memWf_clearLocals _ h
  · exact memWf_clear h _ _
  · exact memWf_clear h _ _

theorem assocSorted_rangeMap (f : Nat → Octet) (lo n : Nat) :
    assocSorted ((List.range n).map fun i => (lo + i, f i)) = true := by
  induction n with
  | zero => rfl
  | succ k ih =>
    rw [List.range_succ, List.map_append]
    apply assocSorted_append ih rfl
    intro c hc d hd
    simp only [List.mem_map, List.mem_range, List.map_cons, List.map_nil, List.mem_singleton] at hc hd
    obtain ⟨i, hi, rfl⟩ := hc
    subst hd
    simp; omega

theorem memWf_flashApply {m : List Host.Cell} (h : memWf m = true) (f : FlashOp) (status k : Nat) :
    memWf (flashApply m f status k) = true := by
  unfold flashApply
  split
  · split
    · exact memWf_store _ h _
    · exact memWf_clear h _ _
  · have h0 := h
    simp only [memWf, Bool.and_eq_true, List.all_eq_true] at h ⊢
    refine ⟨?_, ?_⟩
    · rw [List.append_assoc]
      apply assocSorted_append (assocSorted_filter _ h.1)
      · apply assocSorted_append (assocSorted_filter _ (assocSorted_rangeMap _ _ _)) (assocSorted_filter _ h.1)
        intro c hc d hd
        have hc := List.mem_of_mem_filter hc
        simp only [List.mem_map, List.mem_range] at hc
        obtain ⟨i, hi, rfl⟩ := hc
        have := (List.mem_filter.mp hd).2
        simp at this ⊢; omega
      · intro c hc d hd
        have h1 := (List.mem_filter.mp hc).2
        simp at h1
        rcases List.mem_append.mp hd with hd | hd
        · have hd := List.mem_of_mem_filter hd
          simp only [List.mem_map, List.mem_range] at hd
          obtain ⟨i, hi, rfl⟩ := hd
          simp; omega
        · have := (List.mem_filter.mp hd).2
          simp at this; omega
    · intro c hc
      rcases List.mem_append.mp hc with hc | hc
      · rcases List.mem_append.mp hc with hc | hc
        · exact h.2 c (List.mem_of_mem_filter hc)
        · exact (List.mem_filter.mp hc).2
      · exact h.2 c (List.mem_of_mem_filter hc)

end Sys2Proof.Machine
end

