-- ==== Sys2Proof/Laws/State.lean ====
section
/-!
SUPPORT. What each plain update of the state leaves as it was, one lemma for each field, and what a read of an object
gives after a write of one.
-/

namespace Sys2Proof.Machine

/-! ### An object written -/

@[simp] theorem Block.put_now (b : Block) (r : Reg) (v row : Nat) : (b.put r v row).now = b.now := rfl
@[simp] theorem Block.put_fresh (b : Block) (r : Reg) (v row : Nat) : (b.put r v row).fresh = b.fresh := rfl
@[simp] theorem Block.put_outs (b : Block) (r : Reg) (v row : Nat) : (b.put r v row).outs = b.outs := rfl
@[simp] theorem Block.put_mode (b : Block) (r : Reg) (v row : Nat) : (b.put r v row).mode = b.mode := rfl
@[simp] theorem Block.put_pins (b : Block) (r : Reg) (v row : Nat) : (b.put r v row).pins = b.pins := rfl
@[simp] theorem Block.put_window (b : Block) (r : Reg) (v row : Nat) : (b.put r v row).window = b.window := rfl
@[simp] theorem Block.put_sealing (b : Block) (r : Reg) (v row : Nat) : (b.put r v row).sealing = b.sealing := rfl
@[simp] theorem Block.put_cullet (b : Block) (r : Reg) (v row : Nat) : (b.put r v row).cullet = b.cullet := rfl
@[simp] theorem Block.put_plais (b : Block) (r : Reg) (v row : Nat) : (b.put r v row).plais = b.plais := rfl
@[simp] theorem Block.put_frames (b : Block) (r : Reg) (v row : Nat) : (b.put r v row).frames = b.frames := rfl
@[simp] theorem Block.put_nextFrame (b : Block) (r : Reg) (v row : Nat) : (b.put r v row).nextFrame = b.nextFrame := rfl
@[simp] theorem Block.put_time (b : Block) (r : Reg) (v row : Nat) : (b.put r v row).time = b.time := rfl
@[simp] theorem Block.put_stamps (b : Block) (r : Reg) (v row : Nat) : (b.put r v row).stamps = b.stamps := rfl
@[simp] theorem Block.put_unread (b : Block) (r : Reg) (v row : Nat) : (b.put r v row).unread = b.unread := rfl
@[simp] theorem Block.put_timers (b : Block) (r : Reg) (v row : Nat) : (b.put r v row).timers = b.timers := rfl
@[simp] theorem Block.put_latches (b : Block) (r : Reg) (v row : Nat) : (b.put r v row).latches = b.latches := rfl
@[simp] theorem Block.put_cpus (b : Block) (r : Reg) (v row : Nat) : (b.put r v row).cpus = b.cpus := rfl
@[simp] theorem Block.put_fwd (b : Block) (r : Reg) (v row : Nat) : (b.put r v row).fwd = b.fwd := rfl
@[simp] theorem Block.put_gth (b : Block) (r : Reg) (v row : Nat) : (b.put r v row).gth = b.gth := rfl
@[simp] theorem Block.put_links (b : Block) (r : Reg) (v row : Nat) : (b.put r v row).links = b.links := rfl
@[simp] theorem Block.put_periods (b : Block) (r : Reg) (v row : Nat) : (b.put r v row).periods = b.periods := rfl
@[simp] theorem Block.put_keys (b : Block) (r : Reg) (v row : Nat) : (b.put r v row).keys = b.keys := rfl
@[simp] theorem Block.put_jobs (b : Block) (r : Reg) (v row : Nat) : (b.put r v row).jobs = b.jobs := rfl
@[simp] theorem Block.put_mac (b : Block) (r : Reg) (v row : Nat) : (b.put r v row).mac = b.mac := rfl
@[simp] theorem Block.put_fences (b : Block) (r : Reg) (v row : Nat) : (b.put r v row).fences = b.fences := rfl
@[simp] theorem Block.put_radios (b : Block) (r : Reg) (v row : Nat) : (b.put r v row).radios = b.radios := rfl
@[simp] theorem Block.put_region (b : Block) (r : Reg) (v row : Nat) : (b.put r v row).region = b.region := rfl
@[simp] theorem Block.put_coex (b : Block) (r : Reg) (v row : Nat) : (b.put r v row).coex = b.coex := rfl
@[simp] theorem Block.put_field (b : Block) (r : Reg) (v row : Nat) : (b.put r v row).field = b.field := rfl
@[simp] theorem Block.put_margin (b : Block) (r : Reg) (v row : Nat) : (b.put r v row).margin = b.margin := rfl
@[simp] theorem Block.put_dram (b : Block) (r : Reg) (v row : Nat) : (b.put r v row).dram = b.dram := rfl
@[simp] theorem Block.put_flash (b : Block) (r : Reg) (v row : Nat) : (b.put r v row).flash = b.flash := rfl
@[simp] theorem Block.put_images (b : Block) (r : Reg) (v row : Nat) : (b.put r v row).images = b.images := rfl
@[simp] theorem Block.put_inbox (b : Block) (r : Reg) (v row : Nat) : (b.put r v row).inbox = b.inbox := rfl
@[simp] theorem Block.put_losses (b : Block) (r : Reg) (v row : Nat) : (b.put r v row).losses = b.losses := rfl
@[simp] theorem Block.put_boot (b : Block) (r : Reg) (v row : Nat) : (b.put r v row).boot = b.boot := rfl

/-! ### A counter raised -/

@[simp] theorem Block.add_now (b : Block) (r : Reg) (n row : Nat) : (b.add r n row).now = b.now := rfl
@[simp] theorem Block.add_fresh (b : Block) (r : Reg) (n row : Nat) : (b.add r n row).fresh = b.fresh := rfl
@[simp] theorem Block.add_outs (b : Block) (r : Reg) (n row : Nat) : (b.add r n row).outs = b.outs := rfl
@[simp] theorem Block.add_mode (b : Block) (r : Reg) (n row : Nat) : (b.add r n row).mode = b.mode := rfl
@[simp] theorem Block.add_pins (b : Block) (r : Reg) (n row : Nat) : (b.add r n row).pins = b.pins := rfl
@[simp] theorem Block.add_window (b : Block) (r : Reg) (n row : Nat) : (b.add r n row).window = b.window := rfl
@[simp] theorem Block.add_sealing (b : Block) (r : Reg) (n row : Nat) : (b.add r n row).sealing = b.sealing := rfl
@[simp] theorem Block.add_cullet (b : Block) (r : Reg) (n row : Nat) : (b.add r n row).cullet = b.cullet := rfl
@[simp] theorem Block.add_plais (b : Block) (r : Reg) (n row : Nat) : (b.add r n row).plais = b.plais := rfl
@[simp] theorem Block.add_frames (b : Block) (r : Reg) (n row : Nat) : (b.add r n row).frames = b.frames := rfl
@[simp] theorem Block.add_nextFrame (b : Block) (r : Reg) (n row : Nat) : (b.add r n row).nextFrame = b.nextFrame := rfl
@[simp] theorem Block.add_time (b : Block) (r : Reg) (n row : Nat) : (b.add r n row).time = b.time := rfl
@[simp] theorem Block.add_stamps (b : Block) (r : Reg) (n row : Nat) : (b.add r n row).stamps = b.stamps := rfl
@[simp] theorem Block.add_unread (b : Block) (r : Reg) (n row : Nat) : (b.add r n row).unread = b.unread := rfl
@[simp] theorem Block.add_timers (b : Block) (r : Reg) (n row : Nat) : (b.add r n row).timers = b.timers := rfl
@[simp] theorem Block.add_latches (b : Block) (r : Reg) (n row : Nat) : (b.add r n row).latches = b.latches := rfl
@[simp] theorem Block.add_cpus (b : Block) (r : Reg) (n row : Nat) : (b.add r n row).cpus = b.cpus := rfl
@[simp] theorem Block.add_fwd (b : Block) (r : Reg) (n row : Nat) : (b.add r n row).fwd = b.fwd := rfl
@[simp] theorem Block.add_gth (b : Block) (r : Reg) (n row : Nat) : (b.add r n row).gth = b.gth := rfl
@[simp] theorem Block.add_links (b : Block) (r : Reg) (n row : Nat) : (b.add r n row).links = b.links := rfl
@[simp] theorem Block.add_periods (b : Block) (r : Reg) (n row : Nat) : (b.add r n row).periods = b.periods := rfl
@[simp] theorem Block.add_keys (b : Block) (r : Reg) (n row : Nat) : (b.add r n row).keys = b.keys := rfl
@[simp] theorem Block.add_jobs (b : Block) (r : Reg) (n row : Nat) : (b.add r n row).jobs = b.jobs := rfl
@[simp] theorem Block.add_mac (b : Block) (r : Reg) (n row : Nat) : (b.add r n row).mac = b.mac := rfl
@[simp] theorem Block.add_fences (b : Block) (r : Reg) (n row : Nat) : (b.add r n row).fences = b.fences := rfl
@[simp] theorem Block.add_radios (b : Block) (r : Reg) (n row : Nat) : (b.add r n row).radios = b.radios := rfl
@[simp] theorem Block.add_region (b : Block) (r : Reg) (n row : Nat) : (b.add r n row).region = b.region := rfl
@[simp] theorem Block.add_coex (b : Block) (r : Reg) (n row : Nat) : (b.add r n row).coex = b.coex := rfl
@[simp] theorem Block.add_field (b : Block) (r : Reg) (n row : Nat) : (b.add r n row).field = b.field := rfl
@[simp] theorem Block.add_margin (b : Block) (r : Reg) (n row : Nat) : (b.add r n row).margin = b.margin := rfl
@[simp] theorem Block.add_dram (b : Block) (r : Reg) (n row : Nat) : (b.add r n row).dram = b.dram := rfl
@[simp] theorem Block.add_flash (b : Block) (r : Reg) (n row : Nat) : (b.add r n row).flash = b.flash := rfl
@[simp] theorem Block.add_images (b : Block) (r : Reg) (n row : Nat) : (b.add r n row).images = b.images := rfl
@[simp] theorem Block.add_inbox (b : Block) (r : Reg) (n row : Nat) : (b.add r n row).inbox = b.inbox := rfl
@[simp] theorem Block.add_losses (b : Block) (r : Reg) (n row : Nat) : (b.add r n row).losses = b.losses := rfl
@[simp] theorem Block.add_boot (b : Block) (r : Reg) (n row : Nat) : (b.add r n row).boot = b.boot := rfl

/-! ### A signed value stored -/

@[simp] theorem Block.puti_now (b : Block) (r : Reg) (v : Int) (row : Nat) : (b.puti r v row).now = b.now := rfl
@[simp] theorem Block.puti_fresh (b : Block) (r : Reg) (v : Int) (row : Nat) : (b.puti r v row).fresh = b.fresh := rfl
@[simp] theorem Block.puti_outs (b : Block) (r : Reg) (v : Int) (row : Nat) : (b.puti r v row).outs = b.outs := rfl
@[simp] theorem Block.puti_mode (b : Block) (r : Reg) (v : Int) (row : Nat) : (b.puti r v row).mode = b.mode := rfl
@[simp] theorem Block.puti_pins (b : Block) (r : Reg) (v : Int) (row : Nat) : (b.puti r v row).pins = b.pins := rfl
@[simp] theorem Block.puti_window (b : Block) (r : Reg) (v : Int) (row : Nat) : (b.puti r v row).window = b.window := rfl
@[simp] theorem Block.puti_sealing (b : Block) (r : Reg) (v : Int) (row : Nat) : (b.puti r v row).sealing = b.sealing := rfl
@[simp] theorem Block.puti_cullet (b : Block) (r : Reg) (v : Int) (row : Nat) : (b.puti r v row).cullet = b.cullet := rfl
@[simp] theorem Block.puti_plais (b : Block) (r : Reg) (v : Int) (row : Nat) : (b.puti r v row).plais = b.plais := rfl
@[simp] theorem Block.puti_frames (b : Block) (r : Reg) (v : Int) (row : Nat) : (b.puti r v row).frames = b.frames := rfl
@[simp] theorem Block.puti_nextFrame (b : Block) (r : Reg) (v : Int) (row : Nat) : (b.puti r v row).nextFrame = b.nextFrame := rfl
@[simp] theorem Block.puti_time (b : Block) (r : Reg) (v : Int) (row : Nat) : (b.puti r v row).time = b.time := rfl
@[simp] theorem Block.puti_stamps (b : Block) (r : Reg) (v : Int) (row : Nat) : (b.puti r v row).stamps = b.stamps := rfl
@[simp] theorem Block.puti_unread (b : Block) (r : Reg) (v : Int) (row : Nat) : (b.puti r v row).unread = b.unread := rfl
@[simp] theorem Block.puti_timers (b : Block) (r : Reg) (v : Int) (row : Nat) : (b.puti r v row).timers = b.timers := rfl
@[simp] theorem Block.puti_latches (b : Block) (r : Reg) (v : Int) (row : Nat) : (b.puti r v row).latches = b.latches := rfl
@[simp] theorem Block.puti_cpus (b : Block) (r : Reg) (v : Int) (row : Nat) : (b.puti r v row).cpus = b.cpus := rfl
@[simp] theorem Block.puti_fwd (b : Block) (r : Reg) (v : Int) (row : Nat) : (b.puti r v row).fwd = b.fwd := rfl
@[simp] theorem Block.puti_gth (b : Block) (r : Reg) (v : Int) (row : Nat) : (b.puti r v row).gth = b.gth := rfl
@[simp] theorem Block.puti_links (b : Block) (r : Reg) (v : Int) (row : Nat) : (b.puti r v row).links = b.links := rfl
@[simp] theorem Block.puti_periods (b : Block) (r : Reg) (v : Int) (row : Nat) : (b.puti r v row).periods = b.periods := rfl
@[simp] theorem Block.puti_keys (b : Block) (r : Reg) (v : Int) (row : Nat) : (b.puti r v row).keys = b.keys := rfl
@[simp] theorem Block.puti_jobs (b : Block) (r : Reg) (v : Int) (row : Nat) : (b.puti r v row).jobs = b.jobs := rfl
@[simp] theorem Block.puti_mac (b : Block) (r : Reg) (v : Int) (row : Nat) : (b.puti r v row).mac = b.mac := rfl
@[simp] theorem Block.puti_fences (b : Block) (r : Reg) (v : Int) (row : Nat) : (b.puti r v row).fences = b.fences := rfl
@[simp] theorem Block.puti_radios (b : Block) (r : Reg) (v : Int) (row : Nat) : (b.puti r v row).radios = b.radios := rfl
@[simp] theorem Block.puti_region (b : Block) (r : Reg) (v : Int) (row : Nat) : (b.puti r v row).region = b.region := rfl
@[simp] theorem Block.puti_coex (b : Block) (r : Reg) (v : Int) (row : Nat) : (b.puti r v row).coex = b.coex := rfl
@[simp] theorem Block.puti_field (b : Block) (r : Reg) (v : Int) (row : Nat) : (b.puti r v row).field = b.field := rfl
@[simp] theorem Block.puti_margin (b : Block) (r : Reg) (v : Int) (row : Nat) : (b.puti r v row).margin = b.margin := rfl
@[simp] theorem Block.puti_dram (b : Block) (r : Reg) (v : Int) (row : Nat) : (b.puti r v row).dram = b.dram := rfl
@[simp] theorem Block.puti_flash (b : Block) (r : Reg) (v : Int) (row : Nat) : (b.puti r v row).flash = b.flash := rfl
@[simp] theorem Block.puti_images (b : Block) (r : Reg) (v : Int) (row : Nat) : (b.puti r v row).images = b.images := rfl
@[simp] theorem Block.puti_inbox (b : Block) (r : Reg) (v : Int) (row : Nat) : (b.puti r v row).inbox = b.inbox := rfl
@[simp] theorem Block.puti_losses (b : Block) (r : Reg) (v : Int) (row : Nat) : (b.puti r v row).losses = b.losses := rfl
@[simp] theorem Block.puti_boot (b : Block) (r : Reg) (v : Int) (row : Nat) : (b.puti r v row).boot = b.boot := rfl

/-! ### Something leaves the block -/

@[simp] theorem Block.emit_now (b : Block) (o : Out) : (b.emit o).now = b.now := rfl
@[simp] theorem Block.emit_fresh (b : Block) (o : Out) : (b.emit o).fresh = b.fresh := rfl
@[simp] theorem Block.emit_regs (b : Block) (o : Out) : (b.emit o).regs = b.regs := rfl
@[simp] theorem Block.emit_mode (b : Block) (o : Out) : (b.emit o).mode = b.mode := rfl
@[simp] theorem Block.emit_pins (b : Block) (o : Out) : (b.emit o).pins = b.pins := rfl
@[simp] theorem Block.emit_window (b : Block) (o : Out) : (b.emit o).window = b.window := rfl
@[simp] theorem Block.emit_sealing (b : Block) (o : Out) : (b.emit o).sealing = b.sealing := rfl
@[simp] theorem Block.emit_cullet (b : Block) (o : Out) : (b.emit o).cullet = b.cullet := rfl
@[simp] theorem Block.emit_plais (b : Block) (o : Out) : (b.emit o).plais = b.plais := rfl
@[simp] theorem Block.emit_frames (b : Block) (o : Out) : (b.emit o).frames = b.frames := rfl
@[simp] theorem Block.emit_nextFrame (b : Block) (o : Out) : (b.emit o).nextFrame = b.nextFrame := rfl
@[simp] theorem Block.emit_time (b : Block) (o : Out) : (b.emit o).time = b.time := rfl
@[simp] theorem Block.emit_stamps (b : Block) (o : Out) : (b.emit o).stamps = b.stamps := rfl
@[simp] theorem Block.emit_unread (b : Block) (o : Out) : (b.emit o).unread = b.unread := rfl
@[simp] theorem Block.emit_timers (b : Block) (o : Out) : (b.emit o).timers = b.timers := rfl
@[simp] theorem Block.emit_latches (b : Block) (o : Out) : (b.emit o).latches = b.latches := rfl
@[simp] theorem Block.emit_cpus (b : Block) (o : Out) : (b.emit o).cpus = b.cpus := rfl
@[simp] theorem Block.emit_fwd (b : Block) (o : Out) : (b.emit o).fwd = b.fwd := rfl
@[simp] theorem Block.emit_gth (b : Block) (o : Out) : (b.emit o).gth = b.gth := rfl
@[simp] theorem Block.emit_links (b : Block) (o : Out) : (b.emit o).links = b.links := rfl
@[simp] theorem Block.emit_periods (b : Block) (o : Out) : (b.emit o).periods = b.periods := rfl
@[simp] theorem Block.emit_keys (b : Block) (o : Out) : (b.emit o).keys = b.keys := rfl
@[simp] theorem Block.emit_jobs (b : Block) (o : Out) : (b.emit o).jobs = b.jobs := rfl
@[simp] theorem Block.emit_mac (b : Block) (o : Out) : (b.emit o).mac = b.mac := rfl
@[simp] theorem Block.emit_fences (b : Block) (o : Out) : (b.emit o).fences = b.fences := rfl
@[simp] theorem Block.emit_radios (b : Block) (o : Out) : (b.emit o).radios = b.radios := rfl
@[simp] theorem Block.emit_region (b : Block) (o : Out) : (b.emit o).region = b.region := rfl
@[simp] theorem Block.emit_coex (b : Block) (o : Out) : (b.emit o).coex = b.coex := rfl
@[simp] theorem Block.emit_field (b : Block) (o : Out) : (b.emit o).field = b.field := rfl
@[simp] theorem Block.emit_margin (b : Block) (o : Out) : (b.emit o).margin = b.margin := rfl
@[simp] theorem Block.emit_dram (b : Block) (o : Out) : (b.emit o).dram = b.dram := rfl
@[simp] theorem Block.emit_flash (b : Block) (o : Out) : (b.emit o).flash = b.flash := rfl
@[simp] theorem Block.emit_images (b : Block) (o : Out) : (b.emit o).images = b.images := rfl
@[simp] theorem Block.emit_inbox (b : Block) (o : Out) : (b.emit o).inbox = b.inbox := rfl
@[simp] theorem Block.emit_losses (b : Block) (o : Out) : (b.emit o).losses = b.losses := rfl
@[simp] theorem Block.emit_boot (b : Block) (o : Out) : (b.emit o).boot = b.boot := rfl

/-! ### An engine, a radio, a timer channel or the DRAM controller changed -/

@[simp] theorem Block.modCpu_now (b : Block) (n : Nat) (f : Cpu → Cpu) : (b.modCpu n f).now = b.now := rfl
@[simp] theorem Block.modCpu_fresh (b : Block) (n : Nat) (f : Cpu → Cpu) : (b.modCpu n f).fresh = b.fresh := rfl
@[simp] theorem Block.modCpu_regs (b : Block) (n : Nat) (f : Cpu → Cpu) : (b.modCpu n f).regs = b.regs := rfl
@[simp] theorem Block.modCpu_outs (b : Block) (n : Nat) (f : Cpu → Cpu) : (b.modCpu n f).outs = b.outs := rfl
@[simp] theorem Block.modCpu_mode (b : Block) (n : Nat) (f : Cpu → Cpu) : (b.modCpu n f).mode = b.mode := rfl
@[simp] theorem Block.modCpu_pins (b : Block) (n : Nat) (f : Cpu → Cpu) : (b.modCpu n f).pins = b.pins := rfl
@[simp] theorem Block.modCpu_window (b : Block) (n : Nat) (f : Cpu → Cpu) : (b.modCpu n f).window = b.window := rfl
@[simp] theorem Block.modCpu_sealing (b : Block) (n : Nat) (f : Cpu → Cpu) : (b.modCpu n f).sealing = b.sealing := rfl
@[simp] theorem Block.modCpu_cullet (b : Block) (n : Nat) (f : Cpu → Cpu) : (b.modCpu n f).cullet = b.cullet := rfl
@[simp] theorem Block.modCpu_plais (b : Block) (n : Nat) (f : Cpu → Cpu) : (b.modCpu n f).plais = b.plais := rfl
@[simp] theorem Block.modCpu_frames (b : Block) (n : Nat) (f : Cpu → Cpu) : (b.modCpu n f).frames = b.frames := rfl
@[simp] theorem Block.modCpu_nextFrame (b : Block) (n : Nat) (f : Cpu → Cpu) : (b.modCpu n f).nextFrame = b.nextFrame := rfl
@[simp] theorem Block.modCpu_time (b : Block) (n : Nat) (f : Cpu → Cpu) : (b.modCpu n f).time = b.time := rfl
@[simp] theorem Block.modCpu_stamps (b : Block) (n : Nat) (f : Cpu → Cpu) : (b.modCpu n f).stamps = b.stamps := rfl
@[simp] theorem Block.modCpu_unread (b : Block) (n : Nat) (f : Cpu → Cpu) : (b.modCpu n f).unread = b.unread := rfl
@[simp] theorem Block.modCpu_timers (b : Block) (n : Nat) (f : Cpu → Cpu) : (b.modCpu n f).timers = b.timers := rfl
@[simp] theorem Block.modCpu_latches (b : Block) (n : Nat) (f : Cpu → Cpu) : (b.modCpu n f).latches = b.latches := rfl
@[simp] theorem Block.modCpu_fwd (b : Block) (n : Nat) (f : Cpu → Cpu) : (b.modCpu n f).fwd = b.fwd := rfl
@[simp] theorem Block.modCpu_gth (b : Block) (n : Nat) (f : Cpu → Cpu) : (b.modCpu n f).gth = b.gth := rfl
@[simp] theorem Block.modCpu_links (b : Block) (n : Nat) (f : Cpu → Cpu) : (b.modCpu n f).links = b.links := rfl
@[simp] theorem Block.modCpu_periods (b : Block) (n : Nat) (f : Cpu → Cpu) : (b.modCpu n f).periods = b.periods := rfl
@[simp] theorem Block.modCpu_keys (b : Block) (n : Nat) (f : Cpu → Cpu) : (b.modCpu n f).keys = b.keys := rfl
@[simp] theorem Block.modCpu_jobs (b : Block) (n : Nat) (f : Cpu → Cpu) : (b.modCpu n f).jobs = b.jobs := rfl
@[simp] theorem Block.modCpu_mac (b : Block) (n : Nat) (f : Cpu → Cpu) : (b.modCpu n f).mac = b.mac := rfl
@[simp] theorem Block.modCpu_fences (b : Block) (n : Nat) (f : Cpu → Cpu) : (b.modCpu n f).fences = b.fences := rfl
@[simp] theorem Block.modCpu_radios (b : Block) (n : Nat) (f : Cpu → Cpu) : (b.modCpu n f).radios = b.radios := rfl
@[simp] theorem Block.modCpu_region (b : Block) (n : Nat) (f : Cpu → Cpu) : (b.modCpu n f).region = b.region := rfl
@[simp] theorem Block.modCpu_coex (b : Block) (n : Nat) (f : Cpu → Cpu) : (b.modCpu n f).coex = b.coex := rfl
@[simp] theorem Block.modCpu_field (b : Block) (n : Nat) (f : Cpu → Cpu) : (b.modCpu n f).field = b.field := rfl
@[simp] theorem Block.modCpu_margin (b : Block) (n : Nat) (f : Cpu → Cpu) : (b.modCpu n f).margin = b.margin := rfl
@[simp] theorem Block.modCpu_dram (b : Block) (n : Nat) (f : Cpu → Cpu) : (b.modCpu n f).dram = b.dram := rfl
@[simp] theorem Block.modCpu_flash (b : Block) (n : Nat) (f : Cpu → Cpu) : (b.modCpu n f).flash = b.flash := rfl
@[simp] theorem Block.modCpu_images (b : Block) (n : Nat) (f : Cpu → Cpu) : (b.modCpu n f).images = b.images := rfl
@[simp] theorem Block.modCpu_inbox (b : Block) (n : Nat) (f : Cpu → Cpu) : (b.modCpu n f).inbox = b.inbox := rfl
@[simp] theorem Block.modCpu_losses (b : Block) (n : Nat) (f : Cpu → Cpu) : (b.modCpu n f).losses = b.losses := rfl
@[simp] theorem Block.modCpu_boot (b : Block) (n : Nat) (f : Cpu → Cpu) : (b.modCpu n f).boot = b.boot := rfl
@[simp] theorem Block.modRadio_now (b : Block) (r : Radio) (f : RadioUnit → RadioUnit) : (b.modRadio r f).now = b.now := rfl
@[simp] theorem Block.modRadio_fresh (b : Block) (r : Radio) (f : RadioUnit → RadioUnit) : (b.modRadio r f).fresh = b.fresh := rfl
@[simp] theorem Block.modRadio_regs (b : Block) (r : Radio) (f : RadioUnit → RadioUnit) : (b.modRadio r f).regs = b.regs := rfl
@[simp] theorem Block.modRadio_outs (b : Block) (r : Radio) (f : RadioUnit → RadioUnit) : (b.modRadio r f).outs = b.outs := rfl
@[simp] theorem Block.modRadio_mode (b : Block) (r : Radio) (f : RadioUnit → RadioUnit) : (b.modRadio r f).mode = b.mode := rfl
@[simp] theorem Block.modRadio_pins (b : Block) (r : Radio) (f : RadioUnit → RadioUnit) : (b.modRadio r f).pins = b.pins := rfl
@[simp] theorem Block.modRadio_window (b : Block) (r : Radio) (f : RadioUnit → RadioUnit) : (b.modRadio r f).window = b.window := rfl
@[simp] theorem Block.modRadio_sealing (b : Block) (r : Radio) (f : RadioUnit → RadioUnit) : (b.modRadio r f).sealing = b.sealing := rfl
@[simp] theorem Block.modRadio_cullet (b : Block) (r : Radio) (f : RadioUnit → RadioUnit) : (b.modRadio r f).cullet = b.cullet := rfl
@[simp] theorem Block.modRadio_plais (b : Block) (r : Radio) (f : RadioUnit → RadioUnit) : (b.modRadio r f).plais = b.plais := rfl
@[simp] theorem Block.modRadio_frames (b : Block) (r : Radio) (f : RadioUnit → RadioUnit) : (b.modRadio r f).frames = b.frames := rfl
@[simp] theorem Block.modRadio_nextFrame (b : Block) (r : Radio) (f : RadioUnit → RadioUnit) : (b.modRadio r f).nextFrame = b.nextFrame := rfl
@[simp] theorem Block.modRadio_time (b : Block) (r : Radio) (f : RadioUnit → RadioUnit) : (b.modRadio r f).time = b.time := rfl
@[simp] theorem Block.modRadio_stamps (b : Block) (r : Radio) (f : RadioUnit → RadioUnit) : (b.modRadio r f).stamps = b.stamps := rfl
@[simp] theorem Block.modRadio_unread (b : Block) (r : Radio) (f : RadioUnit → RadioUnit) : (b.modRadio r f).unread = b.unread := rfl
@[simp] theorem Block.modRadio_timers (b : Block) (r : Radio) (f : RadioUnit → RadioUnit) : (b.modRadio r f).timers = b.timers := rfl
@[simp] theorem Block.modRadio_latches (b : Block) (r : Radio) (f : RadioUnit → RadioUnit) : (b.modRadio r f).latches = b.latches := rfl
@[simp] theorem Block.modRadio_cpus (b : Block) (r : Radio) (f : RadioUnit → RadioUnit) : (b.modRadio r f).cpus = b.cpus := rfl
@[simp] theorem Block.modRadio_fwd (b : Block) (r : Radio) (f : RadioUnit → RadioUnit) : (b.modRadio r f).fwd = b.fwd := rfl
@[simp] theorem Block.modRadio_gth (b : Block) (r : Radio) (f : RadioUnit → RadioUnit) : (b.modRadio r f).gth = b.gth := rfl
@[simp] theorem Block.modRadio_links (b : Block) (r : Radio) (f : RadioUnit → RadioUnit) : (b.modRadio r f).links = b.links := rfl
@[simp] theorem Block.modRadio_periods (b : Block) (r : Radio) (f : RadioUnit → RadioUnit) : (b.modRadio r f).periods = b.periods := rfl
@[simp] theorem Block.modRadio_keys (b : Block) (r : Radio) (f : RadioUnit → RadioUnit) : (b.modRadio r f).keys = b.keys := rfl
@[simp] theorem Block.modRadio_jobs (b : Block) (r : Radio) (f : RadioUnit → RadioUnit) : (b.modRadio r f).jobs = b.jobs := rfl
@[simp] theorem Block.modRadio_mac (b : Block) (r : Radio) (f : RadioUnit → RadioUnit) : (b.modRadio r f).mac = b.mac := rfl
@[simp] theorem Block.modRadio_fences (b : Block) (r : Radio) (f : RadioUnit → RadioUnit) : (b.modRadio r f).fences = b.fences := rfl
@[simp] theorem Block.modRadio_region (b : Block) (r : Radio) (f : RadioUnit → RadioUnit) : (b.modRadio r f).region = b.region := rfl
@[simp] theorem Block.modRadio_coex (b : Block) (r : Radio) (f : RadioUnit → RadioUnit) : (b.modRadio r f).coex = b.coex := rfl
@[simp] theorem Block.modRadio_field (b : Block) (r : Radio) (f : RadioUnit → RadioUnit) : (b.modRadio r f).field = b.field := rfl
@[simp] theorem Block.modRadio_margin (b : Block) (r : Radio) (f : RadioUnit → RadioUnit) : (b.modRadio r f).margin = b.margin := rfl
@[simp] theorem Block.modRadio_dram (b : Block) (r : Radio) (f : RadioUnit → RadioUnit) : (b.modRadio r f).dram = b.dram := rfl
@[simp] theorem Block.modRadio_flash (b : Block) (r : Radio) (f : RadioUnit → RadioUnit) : (b.modRadio r f).flash = b.flash := rfl
@[simp] theorem Block.modRadio_images (b : Block) (r : Radio) (f : RadioUnit → RadioUnit) : (b.modRadio r f).images = b.images := rfl
@[simp] theorem Block.modRadio_inbox (b : Block) (r : Radio) (f : RadioUnit → RadioUnit) : (b.modRadio r f).inbox = b.inbox := rfl
@[simp] theorem Block.modRadio_losses (b : Block) (r : Radio) (f : RadioUnit → RadioUnit) : (b.modRadio r f).losses = b.losses := rfl
@[simp] theorem Block.modRadio_boot (b : Block) (r : Radio) (f : RadioUnit → RadioUnit) : (b.modRadio r f).boot = b.boot := rfl
@[simp] theorem Block.modTimer_now (b : Block) (ch : Nat) (f : TimerCh → TimerCh) : (b.modTimer ch f).now = b.now := rfl
@[simp] theorem Block.modTimer_fresh (b : Block) (ch : Nat) (f : TimerCh → TimerCh) : (b.modTimer ch f).fresh = b.fresh := rfl
@[simp] theorem Block.modTimer_regs (b : Block) (ch : Nat) (f : TimerCh → TimerCh) : (b.modTimer ch f).regs = b.regs := rfl
@[simp] theorem Block.modTimer_outs (b : Block) (ch : Nat) (f : TimerCh → TimerCh) : (b.modTimer ch f).outs = b.outs := rfl
@[simp] theorem Block.modTimer_mode (b : Block) (ch : Nat) (f : TimerCh → TimerCh) : (b.modTimer ch f).mode = b.mode := rfl
@[simp] theorem Block.modTimer_pins (b : Block) (ch : Nat) (f : TimerCh → TimerCh) : (b.modTimer ch f).pins = b.pins := rfl
@[simp] theorem Block.modTimer_window (b : Block) (ch : Nat) (f : TimerCh → TimerCh) : (b.modTimer ch f).window = b.window := rfl
@[simp] theorem Block.modTimer_sealing (b : Block) (ch : Nat) (f : TimerCh → TimerCh) : (b.modTimer ch f).sealing = b.sealing := rfl
@[simp] theorem Block.modTimer_cullet (b : Block) (ch : Nat) (f : TimerCh → TimerCh) : (b.modTimer ch f).cullet = b.cullet := rfl
@[simp] theorem Block.modTimer_plais (b : Block) (ch : Nat) (f : TimerCh → TimerCh) : (b.modTimer ch f).plais = b.plais := rfl
@[simp] theorem Block.modTimer_frames (b : Block) (ch : Nat) (f : TimerCh → TimerCh) : (b.modTimer ch f).frames = b.frames := rfl
@[simp] theorem Block.modTimer_nextFrame (b : Block) (ch : Nat) (f : TimerCh → TimerCh) : (b.modTimer ch f).nextFrame = b.nextFrame := rfl
@[simp] theorem Block.modTimer_time (b : Block) (ch : Nat) (f : TimerCh → TimerCh) : (b.modTimer ch f).time = b.time := rfl
@[simp] theorem Block.modTimer_stamps (b : Block) (ch : Nat) (f : TimerCh → TimerCh) : (b.modTimer ch f).stamps = b.stamps := rfl
@[simp] theorem Block.modTimer_unread (b : Block) (ch : Nat) (f : TimerCh → TimerCh) : (b.modTimer ch f).unread = b.unread := rfl
@[simp] theorem Block.modTimer_latches (b : Block) (ch : Nat) (f : TimerCh → TimerCh) : (b.modTimer ch f).latches = b.latches := rfl
@[simp] theorem Block.modTimer_cpus (b : Block) (ch : Nat) (f : TimerCh → TimerCh) : (b.modTimer ch f).cpus = b.cpus := rfl
@[simp] theorem Block.modTimer_fwd (b : Block) (ch : Nat) (f : TimerCh → TimerCh) : (b.modTimer ch f).fwd = b.fwd := rfl
@[simp] theorem Block.modTimer_gth (b : Block) (ch : Nat) (f : TimerCh → TimerCh) : (b.modTimer ch f).gth = b.gth := rfl
@[simp] theorem Block.modTimer_links (b : Block) (ch : Nat) (f : TimerCh → TimerCh) : (b.modTimer ch f).links = b.links := rfl
@[simp] theorem Block.modTimer_periods (b : Block) (ch : Nat) (f : TimerCh → TimerCh) : (b.modTimer ch f).periods = b.periods := rfl
@[simp] theorem Block.modTimer_keys (b : Block) (ch : Nat) (f : TimerCh → TimerCh) : (b.modTimer ch f).keys = b.keys := rfl
@[simp] theorem Block.modTimer_jobs (b : Block) (ch : Nat) (f : TimerCh → TimerCh) : (b.modTimer ch f).jobs = b.jobs := rfl
@[simp] theorem Block.modTimer_mac (b : Block) (ch : Nat) (f : TimerCh → TimerCh) : (b.modTimer ch f).mac = b.mac := rfl
@[simp] theorem Block.modTimer_fences (b : Block) (ch : Nat) (f : TimerCh → TimerCh) : (b.modTimer ch f).fences = b.fences := rfl
@[simp] theorem Block.modTimer_radios (b : Block) (ch : Nat) (f : TimerCh → TimerCh) : (b.modTimer ch f).radios = b.radios := rfl
@[simp] theorem Block.modTimer_region (b : Block) (ch : Nat) (f : TimerCh → TimerCh) : (b.modTimer ch f).region = b.region := rfl
@[simp] theorem Block.modTimer_coex (b : Block) (ch : Nat) (f : TimerCh → TimerCh) : (b.modTimer ch f).coex = b.coex := rfl
@[simp] theorem Block.modTimer_field (b : Block) (ch : Nat) (f : TimerCh → TimerCh) : (b.modTimer ch f).field = b.field := rfl
@[simp] theorem Block.modTimer_margin (b : Block) (ch : Nat) (f : TimerCh → TimerCh) : (b.modTimer ch f).margin = b.margin := rfl
@[simp] theorem Block.modTimer_dram (b : Block) (ch : Nat) (f : TimerCh → TimerCh) : (b.modTimer ch f).dram = b.dram := rfl
@[simp] theorem Block.modTimer_flash (b : Block) (ch : Nat) (f : TimerCh → TimerCh) : (b.modTimer ch f).flash = b.flash := rfl
@[simp] theorem Block.modTimer_images (b : Block) (ch : Nat) (f : TimerCh → TimerCh) : (b.modTimer ch f).images = b.images := rfl
@[simp] theorem Block.modTimer_inbox (b : Block) (ch : Nat) (f : TimerCh → TimerCh) : (b.modTimer ch f).inbox = b.inbox := rfl
@[simp] theorem Block.modTimer_losses (b : Block) (ch : Nat) (f : TimerCh → TimerCh) : (b.modTimer ch f).losses = b.losses := rfl
@[simp] theorem Block.modTimer_boot (b : Block) (ch : Nat) (f : TimerCh → TimerCh) : (b.modTimer ch f).boot = b.boot := rfl
@[simp] theorem Block.modDram_now (b : Block) (f : Dram → Dram) : (b.modDram f).now = b.now := rfl
@[simp] theorem Block.modDram_fresh (b : Block) (f : Dram → Dram) : (b.modDram f).fresh = b.fresh := rfl
@[simp] theorem Block.modDram_regs (b : Block) (f : Dram → Dram) : (b.modDram f).regs = b.regs := rfl
@[simp] theorem Block.modDram_outs (b : Block) (f : Dram → Dram) : (b.modDram f).outs = b.outs := rfl
@[simp] theorem Block.modDram_mode (b : Block) (f : Dram → Dram) : (b.modDram f).mode = b.mode := rfl
@[simp] theorem Block.modDram_pins (b : Block) (f : Dram → Dram) : (b.modDram f).pins = b.pins := rfl
@[simp] theorem Block.modDram_window (b : Block) (f : Dram → Dram) : (b.modDram f).window = b.window := rfl
@[simp] theorem Block.modDram_sealing (b : Block) (f : Dram → Dram) : (b.modDram f).sealing = b.sealing := rfl
@[simp] theorem Block.modDram_cullet (b : Block) (f : Dram → Dram) : (b.modDram f).cullet = b.cullet := rfl
@[simp] theorem Block.modDram_plais (b : Block) (f : Dram → Dram) : (b.modDram f).plais = b.plais := rfl
@[simp] theorem Block.modDram_frames (b : Block) (f : Dram → Dram) : (b.modDram f).frames = b.frames := rfl
@[simp] theorem Block.modDram_nextFrame (b : Block) (f : Dram → Dram) : (b.modDram f).nextFrame = b.nextFrame := rfl
@[simp] theorem Block.modDram_time (b : Block) (f : Dram → Dram) : (b.modDram f).time = b.time := rfl
@[simp] theorem Block.modDram_stamps (b : Block) (f : Dram → Dram) : (b.modDram f).stamps = b.stamps := rfl
@[simp] theorem Block.modDram_unread (b : Block) (f : Dram → Dram) : (b.modDram f).unread = b.unread := rfl
@[simp] theorem Block.modDram_timers (b : Block) (f : Dram → Dram) : (b.modDram f).timers = b.timers := rfl
@[simp] theorem Block.modDram_latches (b : Block) (f : Dram → Dram) : (b.modDram f).latches = b.latches := rfl
@[simp] theorem Block.modDram_cpus (b : Block) (f : Dram → Dram) : (b.modDram f).cpus = b.cpus := rfl
@[simp] theorem Block.modDram_fwd (b : Block) (f : Dram → Dram) : (b.modDram f).fwd = b.fwd := rfl
@[simp] theorem Block.modDram_gth (b : Block) (f : Dram → Dram) : (b.modDram f).gth = b.gth := rfl
@[simp] theorem Block.modDram_links (b : Block) (f : Dram → Dram) : (b.modDram f).links = b.links := rfl
@[simp] theorem Block.modDram_periods (b : Block) (f : Dram → Dram) : (b.modDram f).periods = b.periods := rfl
@[simp] theorem Block.modDram_keys (b : Block) (f : Dram → Dram) : (b.modDram f).keys = b.keys := rfl
@[simp] theorem Block.modDram_jobs (b : Block) (f : Dram → Dram) : (b.modDram f).jobs = b.jobs := rfl
@[simp] theorem Block.modDram_mac (b : Block) (f : Dram → Dram) : (b.modDram f).mac = b.mac := rfl
@[simp] theorem Block.modDram_fences (b : Block) (f : Dram → Dram) : (b.modDram f).fences = b.fences := rfl
@[simp] theorem Block.modDram_radios (b : Block) (f : Dram → Dram) : (b.modDram f).radios = b.radios := rfl
@[simp] theorem Block.modDram_region (b : Block) (f : Dram → Dram) : (b.modDram f).region = b.region := rfl
@[simp] theorem Block.modDram_coex (b : Block) (f : Dram → Dram) : (b.modDram f).coex = b.coex := rfl
@[simp] theorem Block.modDram_field (b : Block) (f : Dram → Dram) : (b.modDram f).field = b.field := rfl
@[simp] theorem Block.modDram_margin (b : Block) (f : Dram → Dram) : (b.modDram f).margin = b.margin := rfl
@[simp] theorem Block.modDram_flash (b : Block) (f : Dram → Dram) : (b.modDram f).flash = b.flash := rfl
@[simp] theorem Block.modDram_images (b : Block) (f : Dram → Dram) : (b.modDram f).images = b.images := rfl
@[simp] theorem Block.modDram_inbox (b : Block) (f : Dram → Dram) : (b.modDram f).inbox = b.inbox := rfl
@[simp] theorem Block.modDram_losses (b : Block) (f : Dram → Dram) : (b.modDram f).losses = b.losses := rfl
@[simp] theorem Block.modDram_boot (b : Block) (f : Dram → Dram) : (b.modDram f).boot = b.boot := rfl

/-! ### The whole machine changed -/

@[simp] theorem State.modCpu_pending (s : State) (n : Nat) (f : Cpu → Cpu) : (s.modCpu n f).pending = s.pending := rfl
@[simp] theorem State.modCpu_regs (s : State) (n : Nat) (f : Cpu → Cpu) : (s.modCpu n f).regs = s.regs := rfl
@[simp] theorem State.modCpu_mem (s : State) (n : Nat) (f : Cpu → Cpu) : (s.modCpu n f).mem = s.mem := rfl
@[simp] theorem State.setFlags_pending (s : State) (n : Nat) (f : Flags) : (s.setFlags n f).pending = s.pending := rfl
@[simp] theorem State.setFlags_regs (s : State) (n : Nat) (f : Flags) : (s.setFlags n f).regs = s.regs := rfl
@[simp] theorem State.setFlags_mem (s : State) (n : Nat) (f : Flags) : (s.setFlags n f).mem = s.mem := rfl
@[simp] theorem State.retire_pending (s : State) (n : Nat) : (s.retire n).pending = s.pending := rfl
@[simp] theorem State.retire_regs (s : State) (n : Nat) : (s.retire n).regs = s.regs := rfl
@[simp] theorem State.retire_mem (s : State) (n : Nat) : (s.retire n).mem = s.mem := rfl
@[simp] theorem State.jump_pending (s : State) (n : Nat) (a : BitVec 40) : (s.jump n a).pending = s.pending := rfl
@[simp] theorem State.jump_regs (s : State) (n : Nat) (a : BitVec 40) : (s.jump n a).regs = s.regs := rfl
@[simp] theorem State.jump_mem (s : State) (n : Nat) (a : BitVec 40) : (s.jump n a).mem = s.mem := rfl
@[simp] theorem State.setReg_pending (s : State) (n r : Nat) (v : Word) : (s.setReg n r v).pending = s.pending := by
  unfold State.setReg; split <;> rfl
@[simp] theorem State.setReg_blk (s : State) (n r : Nat) (v : Word) : (s.setReg n r v).blk = s.blk := by
  unfold State.setReg; split <;> rfl
@[simp] theorem State.setReg_mem (s : State) (n r : Nat) (v : Word) : (s.setReg n r v).mem = s.mem := by
  unfold State.setReg; split <;> rfl

/-! ### The stores of the dictionary -/

@[simp] theorem RegFile.sel_set_same (f : RegFile) (h : Home) (l : List (Nat × Nat)) : (f.set h l).sel h = l := by
  cases h <;> rfl

theorem RegFile.sel_set_ne (f : RegFile) {h k : Home} (l : List (Nat × Nat)) (hk : k ≠ h) : (f.set h l).sel k = f.sel k := by
  cases h <;> cases k <;> first | rfl | exact absurd rfl hk

@[simp] theorem RegFile.slots_set (f : RegFile) (h : Home) (l : List (Nat × Nat)) : (f.set h l).slots = f.slots := by
  cases h <;> rfl

@[simp] theorem RegFile.sel_slots (f : RegFile) (x : Slots) (h : Home) : ({ f with slots := x } : RegFile).sel h = f.sel h := by
  cases h <;> rfl

@[simp] theorem RegFile.slots_list (f : RegFile) (r : Reg) (row v : Nat) : (f.list r row v).slots = f.slots :=
  RegFile.slots_set _ _ _

theorem dropKey_contains_same (l : List Nat) (k : Nat) : (dropKey l k).contains k = false := by
  simp [dropKey]

theorem dropKey_contains_ne (l : List Nat) {k x : Nat} (h : x ≠ k) : (dropKey l k).contains x = l.contains x := by
  simp [dropKey, h, List.contains_eq_mem]

/-- The listed value of a row, or its default, after a value was listed there. -/
theorem RegFile.sel_list_same (f : RegFile) (r : Reg) (row v : Nat) :
    (assocGet ((f.list r row v).sel r.home) (r.key row)).getD (r.default row) = v := by
  unfold RegFile.list
  split <;> simp_all

theorem RegFile.sel_list_ne (f : RegFile) {r q : Reg} {row k : Nat} (v : Nat) (h : q.key k ≠ r.key row) :
    assocGet ((f.list r row v).sel q.home) (q.key k) = assocGet (f.sel q.home) (q.key k) := by
  unfold RegFile.list
  by_cases hh : q.home = r.home
  · rw [hh]
    split <;> simp [assocGet_del_ne, assocGet_put_ne, h]
  · rw [RegFile.sel_set_ne _ _ hh]

/-- The slots of a key after a write: its newer one corrects, every other key is as it was. -/
@[simp] theorem Slots.wrote_newBad_same (s : Slots) (k a d n : Nat) : (s.wrote k a d n).newBad.contains k = false :=
  dropKey_contains_same _ _

theorem Slots.wrote_ne (s : Slots) {k x : Nat} (a d n : Nat) (h : x ≠ k) :
    (s.wrote k a d n).newBad.contains x = s.newBad.contains x ∧ (s.wrote k a d n).oldBad.contains x = s.oldBad.contains x ∧
      assocGet (s.wrote k a d n).older x = assocGet s.older x := by
  refine ⟨dropKey_contains_ne _ h, ?_, ?_⟩ <;> unfold Slots.wrote <;> dsimp only <;> split
  all_goals first
    | rfl
    | exact dropKey_contains_ne _ h
    | exact assocGet_del_ne _ h
    | exact assocGet_put_ne _ _ h

/-- A value read back from the row that it was written to. -/
@[simp] theorem RegFile.get_put_same (f : RegFile) (r : Reg) (row v : Nat) : (f.put r row v).get r row = v := by
  have e := f.sel_list_same r row v
  by_cases h : r.home = .stored
  · by_cases hv : v = f.get r row
    · rw [RegFile.put, if_pos h, if_pos hv, hv]
    · rw [RegFile.put, if_pos h, if_neg hv]
      simpa only [RegFile.get, RegFile.slotBad, Slots.wrote_newBad_same, Bool.and_false, Bool.false_eq_true, if_false,
        RegFile.sel_slots] using e
  · rw [RegFile.put, if_neg h]
    simpa [RegFile.get, RegFile.slotBad, h] using e

/-- A write leaves every other value as it was. -/
theorem RegFile.get_put_ne (f : RegFile) {r q : Reg} {row k : Nat} (v : Nat) (h : q.key k ≠ r.key row) :
    (f.put r row v).get q k = f.get q k := by
  have e := f.sel_list_ne v h
  by_cases hr : r.home = .stored
  · by_cases hv : v = f.get r row
    · rw [RegFile.put, if_pos hr, if_pos hv]
    · rw [RegFile.put, if_pos hr, if_neg hv]
      generalize f.get r row = g
      obtain ⟨h1, h2, h3⟩ := f.slots.wrote_ne g (r.default row) (Config.mramWords (r.idx * 256 + r.sub)) h
      simp only [RegFile.get, RegFile.slotBad, h1, h2, h3, RegFile.sel_slots, e]
      rfl
  · rw [RegFile.put, if_neg hr]
    simp only [RegFile.get, RegFile.slotBad, e, RegFile.slots_list]
    rfl

theorem RegFile.sorted_set {f : RegFile} (h : f.sorted = true) (k : Home) {l : List (Nat × Nat)}
    (hl : assocSorted l = true) : (f.set k l).sorted = true := by
  simp only [RegFile.sorted, Bool.and_eq_true] at h ⊢
  cases k <;> simp_all [RegFile.set]

theorem RegFile.sorted_sel {f : RegFile} (h : f.sorted = true) (k : Home) : assocSorted (f.sel k) = true := by
  simp only [RegFile.sorted, Bool.and_eq_true] at h
  cases k <;> simp_all [RegFile.sel]

theorem RegFile.sorted_list {f : RegFile} (h : f.sorted = true) (r : Reg) (row v : Nat) : (f.list r row v).sorted = true := by
  unfold RegFile.list
  apply RegFile.sorted_set h
  split
  · exact assocSorted_del (RegFile.sorted_sel h _) _
  · exact assocSorted_put (RegFile.sorted_sel h _) _ _

/-- A write keeps every store in its canonical order. -/
theorem RegFile.sorted_put {f : RegFile} (h : f.sorted = true) (r : Reg) (row v : Nat) : (f.put r row v).sorted = true := by
  unfold RegFile.put
  split
  · split
    · exact h
    · have hl := RegFile.sorted_list h r row v
      have ho : assocSorted f.slots.older = true := by
        simp only [RegFile.sorted, Bool.and_eq_true] at h; exact h.2
      simp only [RegFile.sorted, Bool.and_eq_true] at hl ⊢
      refine ⟨hl.1, ?_⟩
      unfold Slots.wrote; dsimp only; split
      · exact assocSorted_del ho _
      · exact assocSorted_put ho _ _
  · exact RegFile.sorted_list h r row v

@[simp] theorem Block.get_put_same (b : Block) (r : Reg) (v row : Nat) : (b.put r v row).get r row = v :=
  RegFile.get_put_same _ _ _ _

theorem Block.get_put_ne (b : Block) {r q : Reg} (v : Nat) {row k : Nat} (h : q.key k ≠ r.key row) :
    (b.put r v row).get q k = b.get q k := RegFile.get_put_ne _ _ h

/-- Keys of objects at different indices or subindices differ, for rows of a table. -/
theorem Reg.key_ne {q r : Reg} {k row : Nat} (h : q.idx * 256 + q.sub ≠ r.idx * 256 + r.sub) (hk : k < 1048576)
    (hr : row < 1048576) : q.key k ≠ r.key row := by
  intro e
  apply h
  have e2 := congrArg (· / 1048576) e
  simpa [Reg.key, Nat.add_comm, Nat.add_mul_div_right, Nat.div_eq_of_lt hk, Nat.div_eq_of_lt hr] using e2

/-- Keys of different rows of one object differ. -/
theorem Reg.key_row_ne (r : Reg) {k row : Nat} (h : k ≠ row) : r.key k ≠ r.key row := by
  unfold Reg.key; omega

/-- A counter raised holds what it has counted, as its width allows. -/
theorem Block.get_add_same (b : Block) (r : Reg) (n row : Nat) : (b.add r n row).get r row = r.raised (b.get r row + n) := by
  unfold Block.add; exact Block.get_put_same _ _ _ _

theorem Block.get_add_ne (b : Block) {r q : Reg} (n : Nat) {row k : Nat} (h : q.key k ≠ r.key row) :
    (b.add r n row).get q k = b.get q k := by
  unfold Block.add; exact Block.get_put_ne _ _ h

@[simp] theorem Block.get_emit (b : Block) (o : Out) (q : Reg) (k : Nat) : (b.emit o).get q k = b.get q k := rfl

@[simp] theorem Block.outs_emit (b : Block) (o : Out) : (b.emit o).outs = b.outs ++ [o] := rfl

@[simp] theorem Block.get_modCpu (b : Block) (n : Nat) (f : Cpu → Cpu) (q : Reg) (k : Nat) :
    (b.modCpu n f).get q k = b.get q k := rfl

@[simp] theorem Block.get_modRadio (b : Block) (r : Radio) (f : RadioUnit → RadioUnit) (q : Reg) (k : Nat) :
    (b.modRadio r f).get q k = b.get q k := rfl

/-! ### The general registers -/

/-- g0 reads 0 whatever was written (R436). -/
@[simp] theorem State.reg_zero (s : State) (n : Nat) : s.reg n 0 = 0 := rfl

@[simp] theorem State.setReg_zero (s : State) (n : Nat) (v : Word) : s.setReg n 0 v = s := rfl

/-- A register reads the value written to it. -/
theorem State.reg_setReg_same (s : State) {n r : Nat} (v : Word) (hn : n < 12) (h0 : r ≠ 0) (hr : r < 32) :
    (s.setReg n r v).reg n r = v := by
  simp only [State.reg, State.setReg, h0, if_false]
  rw [Vector.getElem?_setIfInBounds_self_of_lt (by omega)]
  rfl

/-- A write leaves every other register of every engine as it was. -/
theorem State.reg_setReg_ne (s : State) {n r m q : Nat} (v : Word) (hr : r < 32) (hq : q < 32) (h : (m, q) ≠ (n, r)) :
    (s.setReg n r v).reg m q = s.reg m q := by
  simp only [State.reg, State.setReg]
  split
  · rfl
  · split
    · rfl
    · have : 32 * n + r ≠ 32 * m + q := by
        intro e; apply h; ext <;> simp <;> omega
      rw [Vector.getElem?_setIfInBounds_ne this]

@[simp] theorem State.reg_modCpu (s : State) (n : Nat) (f : Cpu → Cpu) (m q : Nat) : (s.modCpu n f).reg m q = s.reg m q := rfl

@[simp] theorem State.reg_retire (s : State) (n m q : Nat) : (s.retire n).reg m q = s.reg m q := rfl

@[simp] theorem State.reg_jump (s : State) (n : Nat) (a : BitVec 40) (m q : Nat) : (s.jump n a).reg m q = s.reg m q := rfl

/-! ### The control states of the engines -/

/-- An engine's control state after it was changed. -/
theorem Block.cpu_modCpu_same (b : Block) {n : Nat} (f : Cpu → Cpu) (h : n < b.cpus.length) :
    (b.modCpu n f).cpu n = f (b.cpu n) := by
  simp [Block.cpu, Block.modCpu, modAt, List.getD_eq_getElem?_getD, h]

/-- A change of one engine leaves the others as they were. -/
theorem Block.cpu_modCpu_ne (b : Block) {n m : Nat} (f : Cpu → Cpu) (h : m ≠ n) : (b.modCpu n f).cpu m = b.cpu m := by
  simp [Block.cpu, Block.modCpu, modAt, List.getD_eq_getElem?_getD, h.symm]

@[simp] theorem Block.cpu_put (b : Block) (r : Reg) (v row n : Nat) : (b.put r v row).cpu n = b.cpu n := rfl

@[simp] theorem Block.cpu_add (b : Block) (r : Reg) (k row n : Nat) : (b.add r k row).cpu n = b.cpu n := rfl

end Sys2Proof.Machine
end

