-- ==== Sys2Proof/Laws/Keeps.lean ====
section
/-!
SUPPORT. What every operation over the whole machine keeps: the queue of commands, and the canonical form of memory. One
lemma for each shared operation.
-/

namespace Sys2Proof.Machine

/-- From one state to another the queue is the same, and a memory in canonical form stays in it. -/
structure Keeps (s t : State) : Prop where
  pending : t.pending = s.pending
  mem : memWf s.mem = true → memWf t.mem = true

namespace Keeps

theorem refl (s : State) : Keeps s s := ⟨rfl, id⟩

theorem trans {s t u : State} (h : Keeps s t) (k : Keeps t u) : Keeps s u := ⟨k.pending.trans h.pending, k.mem ∘ h.mem⟩

/-- A change of the block alone. -/
theorem blk (s : State) (b : Block) : Keeps s { s with blk := b } := ⟨rfl, id⟩

theorem blk_of {s t : State} (h : Keeps s t) (b : Block) : Keeps s { t with blk := b } := h.trans (blk t b)

theorem of_blk {s t : State} {b : Block} (h : Keeps { s with blk := b } t) : Keeps s t := (blk s b).trans h

theorem store (s : State) (a : Nat) (l : List Octet) : Keeps s { s with mem := memStore s.mem a l } :=
  ⟨rfl, fun h => memWf_store l h a⟩

theorem foldl {α : Type} {f : State → α → State} (h : ∀ s x, Keeps s (f s x)) (l : List α) : ∀ s, Keeps s (l.foldl f s) := by
  induction l with
  | nil => exact refl
  | cons x rest ih => exact fun s => (h s x).trans (ih _)

theorem setReg (s : State) (n r : Nat) (v : Word) : Keeps s (s.setReg n r v) := by
  unfold State.setReg; split <;> exact ⟨rfl, id⟩

/-! ### Places in memory -/

theorem readPlace (s : State) (p : Place) (a k : Nat) : Keeps s (s.readPlace p a k).2 := by
  unfold State.readPlace; cases p <;> try exact refl s
  · exact blk s _
  · simp only; split <;> exact refl s

theorem sramStore (s : State) (o : Nat) (l : List Octet) : Keeps s (s.sramStore o l) :=
  ⟨rfl, fun h => memWf_store _ (memWf_store _ h _) _⟩

theorem writePlace (s : State) (p : Place) (a : Nat) (l : List Octet) : Keeps s (s.writePlace p a l) := by
  cases p with
  | plain => exact store s a l
  | sram => exact sramStore s _ l
  | rom => exact refl s
  | open_ => exact refl s
  | cullet => exact refl s
  | records => exact refl s
  | journal => exact refl s
  | stamp => exact refl s
  | window => exact refl s

/-! ### Rings -/

theorem ringFrame (s : State) (row d : Nat) : Keeps s (s.ringFrame row d).2 := by
  unfold State.ringFrame; simp only; repeat' split
  all_goals first | exact refl s | exact blk s _

theorem takeDesc (s : State) (row i : Nat) : Keeps s (s.takeDesc row i) := by
  unfold State.takeDesc
  exact (ringFrame s row _).trans ⟨rfl, fun h => memWf_store _ h _⟩

theorem takeDescs (row n : Nat) : ∀ s : State, Keeps s (s.takeDescs row n) := by
  induction n with
  | zero => exact refl
  | succ k ih => exact fun s => (takeDesc s row _).trans (ih _)

theorem doorbell (s : State) (row tail : Nat) : Keeps s (s.doorbell row tail).2 := by
  unfold State.doorbell; simp only; repeat' split
  all_goals first | exact refl s | exact blk s _ | exact of_blk (takeDescs _ _ _) | exact (of_blk (takeDescs _ _ _)).blk_of _

theorem ringsOpen (s : State) : Keeps s s.ringsOpen := by
  unfold State.ringsOpen; split
  · exact refl s
  · refine foldl (fun t row => ?_) _ s
    split
    · exact doorbell t row _
    · exact refl t

theorem rxFill (s : State) (row : Nat) : Keeps s (s.rxFill row) := by
  unfold State.rxFill
  extract_lets
  split
  · exact refl s
  · split
    · exact blk s _
    · exact ⟨rfl, fun h => memWf_store _ h _⟩

theorem writeRing (s : State) (r : Reg) (row v : Nat) : Keeps s (s.writeRing r row v).2 := by
  unfold State.writeRing
  extract_lets
  split
  all_goals repeat' split
  all_goals first | exact refl s | exact blk s _ | exact doorbell s row v

/-! ### Images -/

theorem recordHash (s : State) (n : Nat) : Keeps s (s.recordHash n) := blk s _

theorem writeMould (s : State) (r : Reg) (n m v : Nat) : Keeps s (s.writeMould r n m v).2 := by
  unfold State.writeMould; simp only; repeat' split
  all_goals first | exact refl s | exact blk s _

theorem loadSection (s : State) (base : Nat) (x : Section) : Keeps s (s.loadSection base x) := by
  unfold State.loadSection
  refine Keeps.blk_of ?_ _
  split
  · exact blk s _
  · exact store s _ _

theorem bootFrom (s : State) (kind slot key : Nat) (d : Bool) : Keeps s (s.bootFrom kind slot key d) := by
  have start : ∀ (t : State) (n : Nat), Keeps t (t.startEngine n kind) := by
    intro t n; unfold State.startEngine; split
    · exact of_blk ((setReg _ _ _ _).trans (setReg _ _ _ _))
    · exact blk t _
  unfold State.bootFrom
  refine Keeps.blk_of ?_ _
  refine Keeps.trans ?_ (blk _ _)
  refine Keeps.trans ?_ (foldl (fun t n => ?_) _ _)
  · refine Keeps.trans ?_ (foldl (fun t n => (blk t _).trans (blk _ _)) _ _)
    refine Keeps.trans ?_ (foldl (fun t x => loadSection t _ x) _ _)
    exact foldl (f := State.unload) (fun t n => blk t _) _ s
  · split
    · exact refl t
    · exact start t n

theorem startEngine (s : State) (n kind : Nat) : Keeps s (s.startEngine n kind) := by
  unfold State.startEngine; split
  · exact of_blk ((setReg _ _ _ _).trans (setReg _ _ _ _))
  · exact blk s _

theorem recover (s : State) : Keeps s s.recover := blk s _

theorem bootRun (s : State) (kind : Nat) (d : Bool) : Keeps s (s.bootRun kind d) := by
  unfold State.bootRun; simp only
  have h0 : Keeps s (if kind = 3 then s else { s with blk := s.blk.put Obj.bootTrial 0 }) := by
    split
    · exact refl s
    · exact blk s _
  refine h0.trans ?_
  generalize (if kind = 3 then s else { s with blk := s.blk.put Obj.bootTrial 0 }) = u
  repeat' split
  all_goals first | exact of_blk (bootFrom _ _ _ _ _) | exact of_blk (recover _)

theorem warmEngine (s : State) (n : Nat) : Keeps s (s.warmEngine n) := by
  unfold State.warmEngine; simp only; repeat' split
  all_goals first
    | exact refl s
    | exact startEngine s n 1
    | exact blk s _
    | exact ((of_blk (foldl (fun t x => loadSection t _ x) _ _)).trans
        ((blk _ _).trans (blk _ _))).trans (startEngine _ n 1)

theorem loadDram (s : State) : Keeps s s.loadDram := by
  unfold State.loadDram; simp only; repeat' split
  all_goals first | exact refl s | exact blk s _ | exact of_blk (foldl (fun t x => loadSection t _ x) _ _)

theorem runBoot (s : State) : Keeps s s.runBoot := by
  unfold State.runBoot; simp only; repeat' split
  all_goals first
    | exact refl s
    | exact of_blk ((foldl (fun t n => warmEngine t n) _ _).trans (recover _))
    | exact of_blk (foldl (fun t n => warmEngine t n) _ _)
    | exact (of_blk (bootRun _ _ _)).blk_of _

theorem restartFenced (s : State) : Keeps s s.restartFenced := by
  unfold State.restartFenced
  refine foldl (fun t n => ?_) _ s
  split
  · exact warmEngine t n
  · exact refl t

theorem swapStart (s : State) (slot : Nat) (l : List Nat) (back : Bool) : Keeps s (s.swapStart slot l back) := by
  unfold State.swapStart
  extract_lets
  split
  · exact blk s _
  · exact of_blk (restartFenced _)

theorem writeSwapGo (s : State) (v : Nat) : Keeps s (s.writeSwapGo v).2 := by
  unfold State.writeSwapGo
  extract_lets
  repeat' split
  all_goals first | exact refl s | exact swapStart s _ _ _

theorem imageOf (s : State) (n slot : Nat) : Keeps s (s.imageOf n slot) := blk s _

theorem runningNow (s : State) : Keeps s s.runningNow := blk s _

theorem unload (s : State) (n : Nat) : Keeps s (s.unload n) := blk s _

theorem swapLoaded (s : State) : Keeps s s.swapLoaded := by
  unfold State.swapLoaded
  split
  · exact refl s
  · split
    · exact refl s
    · split
      · exact refl s
      · extract_lets base l s1 pc s2
        have h1 : Keeps s s1 := by
          show Keeps s (if _ then _ else _)
          split
          · exact refl s
          · exact ((unload s _).trans (foldl (fun t x => loadSection t _ x) _ _)).trans ((imageOf _ _ _).trans (recordHash _ _))
        have h2 : Keeps s1 s2 := (of_blk (setReg _ _ _ _)).trans (runningNow _)
        exact (h1.trans h2).trans (of_blk (restartFenced _))

theorem confirmExpiry (s : State) : Keeps s s.confirmExpiry := by
  unfold State.confirmExpiry
  extract_lets
  repeat' split
  all_goals first | exact refl s | exact of_blk (swapStart _ _ _ _)

/-! ### Flash and customer store -/

theorem flashDone (s : State) (status : Nat) : Keeps s (s.flashDone status) := by
  unfold State.flashDone; split
  · exact refl s
  · exact ⟨rfl, fun h => memWf_flashApply h _ _ _⟩

/-- A list of stores. -/
theorem memWf_stores {α : Type} (f : α → Nat) (g : α → List Octet) (l : List α) :
    ∀ m, memWf m = true → memWf (l.foldl (fun m x => memStore m (f x) (g x)) m) = true := by
  induction l with
  | nil => exact fun m h => h
  | cons x rest ih => exact fun m h => ih _ (memWf_store _ h _)

theorem csStore (s : State) (a : Nat) (l : List Octet) : Keeps s (s.csStore a l) :=
  ⟨rfl, fun h => memWf_store _ (memWf_stores _ _ _ _ h) _⟩

theorem writeCs (s : State) (loc v : Nat) : Keeps s (s.writeCs loc v).2 := by
  unfold State.writeCs
  extract_lets
  repeat' split
  all_goals first | exact refl s | exact csStore s _ _

/-! ### Writes through the commit point -/

theorem lift (s : State) (d : Nat × Block) : Keeps s (s.lift d).2 := blk s _

theorem commitWrite (s : State) (p : Port) (r : Reg) (row v : Nat) : Keeps s (s.commitWrite p r row v).2 := by
  unfold State.commitWrite; repeat' split
  all_goals first
    | exact writeMould s _ _ _ _
    | exact writeRing s _ _ _
    | exact writeSwapGo s _
    | exact writeCs s _ _
    | exact lift s _

theorem restoreOne (s : State) (p : Port) (all : Bool) (k : Nat) : Keeps s (s.restoreOne p all k) := by
  unfold State.restoreOne; split
  · exact refl s
  · split
    · exact refl s
    · extract_lets v d
      have h : Keeps s d.2 := by
        show Keeps s (if _ then _ else _ : Nat × State).2
        split
        · exact refl s
        · exact commitWrite s _ _ _ _
      exact h.blk_of _

theorem restore (s : State) (p : Port) (v : Nat) : Keeps s (s.restore p v).2 := by
  unfold State.restore; split
  · exact refl s
  · exact foldl (fun t k => restoreOne t p _ k) _ s

theorem anyWrite (p : Port) (v : Nat) (s : State) (r : Reg) (row : Nat) : Keeps s (State.anyWrite p v s r row).2 := by
  unfold State.anyWrite; split
  · exact restore s p v
  · exact commitWrite s p r row v

theorem actWrite (p : Port) (v : Nat) (act : Act) (s : State) (r : Reg) (row : Nat) :
    Keeps s (State.actWrite p v act s r row).2 := by
  unfold State.actWrite; repeat' split
  all_goals first | exact anyWrite p v s r row | exact lift s _

theorem writeVia (s : State) (p : Port) (idx sub row len v : Nat) (act : Act) :
    Keeps s (s.writeVia p idx sub row len v act).2 := by
  unfold State.writeVia
  extract_lets d
  have h : Keeps s d.2 := by
    unfold d
    split
    · exact refl s
    · extract_lets e
      split
      · exact (actWrite p v act s _ _).blk_of _
      · exact actWrite p v act s _ _
  exact h.blk_of _

theorem takeWrite (s : State) (p : Port) (idx sub row len v : Nat) (act : Act) :
    Keeps s (s.takeWrite p idx sub row len v act) := by
  unfold State.takeWrite; split
  · exact blk s _
  · exact (writeVia s p idx sub row len v act).blk_of _

theorem takeRead (s : State) (p : Port) (idx sub row : Nat) : Keeps s (s.takeRead p idx sub row) := by
  unfold State.takeRead; split
  · exact blk s _
  · exact blk s _

theorem portWrite (s : State) (p : Port) (idx sub row len v : Nat) (act : Act) :
    Keeps s (s.portWrite p idx sub row len v act) := by
  unfold State.portWrite; repeat' split
  all_goals first | exact refl s | exact takeWrite s p idx sub row len v act | exact blk s _

theorem portRead (s : State) (p : Port) (idx sub row : Nat) : Keeps s (s.portRead p idx sub row) := by
  unfold State.portRead; repeat' split
  all_goals first | exact refl s | exact takeRead s p idx sub row | exact blk s _

theorem set (s : State) (p : Port) (idx sub row v : Nat) : Keeps s (s.set p idx sub row v) := portWrite s p idx sub row _ v _

theorem setObj (s : State) (p : Port) (r : Reg) (row v : Nat) : Keeps s (s.setObj p r row v) := portWrite s p _ _ row _ v _

theorem setOne (s : State) (p : Port) (r : Reg) (v : Nat) : Keeps s (s.setOne p r v) := setObj s p r _ v

/-! ### Plais -/

theorem opWrite (s : State) (p : Port) (o : OpRec) : Keeps s (s.opWrite p o).2 := of_blk (writeVia _ _ _ _ _ _ _ _)

theorem opApply (s : State) (p : Port) (o : OpRec) : Keeps s (s.opApply p o).2 := by
  unfold State.opApply; split
  · exact blk s _
  · exact opWrite s p o
  · exact blk s _
  · exact refl s

theorem opsRun_from (p : Port) (l : List (Nat × OpRec)) : ∀ (d : List (Nat × Nat × List Octet) × State),
    Keeps d.2 (l.foldl (fun (d : List (Nat × Nat × List Octet) × State) x =>
      if d.2.resetDue then d
      else
        let e := d.2.opApply p x.2
        (d.1 ++ [(x.1, e.1.1, e.1.2)], e.2)) d).2 := by
  induction l with
  | nil => exact fun d => refl d.2
  | cons x rest ih =>
    intro d
    rw [List.foldl_cons]
    refine Keeps.trans ?_ (ih _)
    split
    · exact refl d.2
    · exact opApply d.2 p x.2

theorem opsRun (s : State) (p : Port) (l : List (Nat × OpRec)) : Keeps s (s.opsRun p l).2 := opsRun_from p l ([], s)

theorem groupRun (s : State) (p : Port) (l : List (Nat × OpRec)) : Keeps s (s.groupRun p l).2 := by
  unfold State.groupRun
  extract_lets
  split
  · exact blk s _
  · exact opsRun s p _

theorem finishRequest (s : State) (w : Wait) (to_ : Reply) (row tid : Nat) (sec : Bool) (ops : List OpRec)
    (results : List (Nat × Nat × List Octet)) : Keeps s (s.finishRequest w to_ row tid sec ops results) := by
  unfold State.finishRequest
  extract_lets
  repeat' split
  all_goals first | exact refl s | exact blk s _

theorem endBegun (s : State) (w : Wait) : Keeps s (s.endBegun w).2 := by
  unfold State.endBegun
  extract_lets
  split
  · exact blk s _
  · exact blk s _
  · exact refl s

theorem serve (s : State) (w : Wait) : Keeps s (s.serve w).2 := by
  unfold State.serve; split
  · exact endBegun s w
  · split
    · split
      · exact blk s _
      · exact (writeVia s _ _ _ _ _ _ _).blk_of _
    · split
      · exact refl s
      · exact blk s _
    · exact refl s
    · split
      · exact blk s _
      · extract_lets n d results
        have h : Keeps s d.2 := by
          show Keeps s (if _ then _ else _ : List (Nat × Nat × List Octet) × State).2
          split
          · exact groupRun s _ _
          · exact opsRun s _ _
        split
        · exact h.trans (finishRequest _ _ _ _ _ _ _ _)
        · exact h

theorem tierAs (s : State) (t : Option Nat) : Keeps s (s.tierAs t) := blk s _

theorem servePoint (n : Nat) : ∀ s : State, Keeps s (s.servePoint n) := by
  induction n with
  | zero => exact refl
  | succ k ih =>
    intro s
    unfold State.servePoint
    extract_lets
    split
    · exact refl s
    · exact Keeps.trans (((of_blk (tierAs _ _)).trans (serve _ _)).trans (of_blk (blk _ _))) (ih _)

theorem point (s : State) : Keeps s s.point := servePoint _ s

theorem request (s : State) (p : Port) (to_ : Reply) (row : Nat) (h : Header) (body : List Octet) (fits : Bool) :
    Keeps s (s.request p to_ row h body fits) := by
  unfold State.request; split
  · exact blk s _
  · exact blk s _
  · split
    · exact blk s _
    · exact of_blk (point _)

theorem message (s : State) (p : Port) (to_ : Reply) (row : Nat) (h : Header) (body : List Octet) (fits : Bool) :
    Keeps s (s.message p to_ row h body fits) := by
  unfold State.message; repeat' split
  all_goals first | exact refl s | exact blk s _ | exact request s _ _ _ _ _ _

theorem short (s : State) (p : Port) (to_ : Reply) (m : List Octet) : Keeps s (s.short p to_ m) := by
  unfold State.short; repeat' split
  all_goals first | exact refl s | exact blk s _ | exact message s _ _ _ _ _ _

theorem network (s : State) (mesh : Bool) (to_ : Reply) (m : List Octet) : Keeps s (s.network mesh to_ m) := by
  unfold State.network; split
  · exact blk s _
  · extract_lets
    split
    · exact blk s _
    · exact of_blk (message _ _ _ _ _ _ _)

theorem udpDatagram (s : State) (addr port : Nat) (m : List Octet) : Keeps s (s.udpDatagram addr port m) := by
  unfold State.udpDatagram; repeat' split
  all_goals first | exact refl s | exact blk s _ | exact network s _ _ _

theorem meshMessage (s : State) (link : Nat) (m : List Octet) : Keeps s (s.meshMessage link m) := by
  unfold State.meshMessage; split
  · exact refl s
  · exact network s _ _ _

theorem plaisRequest (s : State) (p : Port) (addr port : Nat) (m : List Octet) : Keeps s (s.plaisRequest p addr port m) := by
  unfold State.plaisRequest
  extract_lets long
  have h : ∀ to_ row, Keeps s (long to_ row) := by
    intro to_ row
    show Keeps s (if _ then _ else _)
    split
    · exact refl s
    · split
      · exact blk s _
      · exact message s _ _ _ _ _ _
  split
  · exact short s _ _ _
  · exact short s _ _ _
  · exact h _ _
  · exact h _ _
  · exact refl s

theorem consoleIn (s : State) (f : List Octet) : Keeps s (s.consoleIn f) := by
  unfold State.consoleIn; repeat' split
  all_goals first | exact refl s | exact blk s _ | exact short s _ _ _

theorem canTake (s : State) (a : CanAsm) (e : Bool) : Keeps s (s.canTake a e) := by
  unfold State.canTake
  extract_lets
  split
  · exact of_blk (short _ _ _ _)
  · exact blk s _

theorem canSegment (s : State) (ident : Nat) (data : List Octet) : Keeps s (s.canSegment ident data) := by
  unfold State.canSegment
  extract_lets
  split
  · exact refl s
  · split
    · split
      · exact canTake s _ _
      · exact refl s
    · split
      · exact canTake s _ _
      · split
        · exact of_blk (canTake _ _ _)
        · exact blk s _

theorem canReceived (s : State) (ident : Nat) (ide : Bool) (data : List Octet) : Keeps s (s.canReceived ident ide data) := by
  unfold State.canReceived
  extract_lets
  split
  · exact refl s
  · split
    · exact of_blk (canSegment _ _ _)
    · split
      · exact of_blk (blk _ _)
      · exact blk s _

/-! ### The end of a command -/

theorem clearRegs (s : State) (n : Nat) : Keeps s (s.clearRegs n) := foldl (fun t r => setReg t n r 0) _ s

theorem takeLosses (s : State) : Keeps s s.takeLosses := by
  unfold State.takeLosses
  refine Keeps.blk_of ?_ _
  refine foldl (fun t l => ?_) _ s
  exact Keeps.trans (⟨rfl, fun h => memWf_lose h l⟩ : Keeps t { t with mem := memLose t.mem l }) (foldl clearRegs _ _)

theorem takeInbox (s : State) : Keeps s s.takeInbox := of_blk (foldl (fun t _ => meshMessage t _ _) _ _)

theorem boots (s : State) : Keeps s s.boots := by
  unfold State.boots; split
  · exact refl s
  · exact ((runBoot _).trans (loadDram _)).trans (takeLosses _)

theorem settleWork (s : State) : Keeps s s.settleWork := by
  unfold State.settleWork
  extract_lets
  refine Keeps.blk_of ?_ _
  refine Keeps.trans ?_ (ringsOpen _)
  refine Keeps.blk_of ?_ _
  exact ((((point s).trans (takeInbox _)).trans (takeLosses _)).trans (boots _)).trans (of_blk (boots _))

theorem settle (s : State) : Keeps s s.settle := by
  unfold State.settle; split
  · exact refl s
  · split
    · exact takeLosses s
    · exact settleWork s

/-! ### Commands that come after a time -/

theorem timed (s : State) (t : Nat) (f : Block → Block) : Keeps s (s.timed t f) := of_blk (settle _)

theorem timedAll (s : State) (t : Nat) {f : State → State} (h : ∀ s, Keeps s (f s)) : Keeps s (s.timedAll t f) :=
  (of_blk (h _)).trans (settle _)

/-- The outcome of a command of the Furnace is a next state that keeps both. -/
theorem furnace {s t : State} {k : Nat} {f : Block → Block} (h : s.furnace k f = .next t) : Keeps s t := by
  cases h; exact timed s k f

/-- The outcome of a command of the block is a next state that keeps both. -/
theorem at_ {s t : State} {k : Nat} {f : Block → Block} (h : s.at k f = .next t) : Keeps s t := by
  cases h; split <;> exact timed s k _

/-- The outcome of a command of the whole machine is a next state that keeps both. -/
theorem atAll {s t : State} {k : Nat} {f : State → State} (hf : ∀ s, Keeps s (f s)) (h : s.atAll k f = .next t) :
    Keeps s t := by
  cases h; split
  · exact timed s k _
  · exact timedAll s k hf

/-! ### Engines -/

theorem modCpu (s : State) (n : Nat) (f : Cpu → Cpu) : Keeps s (s.modCpu n f) := blk s _

theorem retire (s : State) (n : Nat) : Keeps s (s.retire n) := blk s _

theorem jump (s : State) (n : Nat) (a : BitVec 40) : Keeps s (s.jump n a) := blk s _

theorem raise (s : State) (n : Nat) (e : Exc) (a : Word) : Keeps s (s.raise n e a) := by
  unfold State.raise; simp only; split
  · exact of_blk (settle _)
  · exact blk s _

theorem raiseOpen (s : State) (n : Nat) (e : Exc) : Keeps s (s.raiseOpen n e) := of_blk (raise _ _ _ _)

theorem raiseWord (s : State) (n : Nat) (e : Exc) (o : Op) : Keeps s (s.raiseWord n e o) := raise s _ _ _

theorem reserved (s : State) (n : Nat) (o : Op) : Keeps s (s.reserved n o) := raise s _ _ _

theorem touch (s : State) (a : Nat) : Keeps s (s.touch a) := by
  unfold State.touch; split
  · exact blk s _
  · exact refl s

theorem errorAt (s : State) (e : Exc) (a : Nat) : Keeps s (s.errorAt e a) := by
  unfold State.errorAt; split
  · exact blk s _
  · exact refl s

/-- An instruction keeps both if its own effect does. -/
theorem instr {s t : State} {n : Eng} {f : State → State} (hf : ∀ s, Keeps s (f s)) (h : s.instr n f = .next t) :
    Keeps s t := by
  unfold State.instr at h; simp only at h
  split at h
  · cases h; exact blk s _
  · split at h
    · cases h; exact of_blk ((errorAt _ _ _).trans (raise _ _ _ _))
    · cases h; exact of_blk ((touch _ _).trans (hf _))

theorem windowLoad (s : State) (n : Eng) (a k : Nat) : Keeps s (s.windowLoad n a k).2 := by
  unfold State.windowLoad
  extract_lets
  repeat' split
  all_goals first | exact refl s | exact blk s _

theorem windowSubmit (s : State) (n : Eng) (idx sub len v : Nat) : Keeps s (s.windowSubmit n idx sub len v) := by
  unfold State.windowSubmit; split
  · exact takeWrite s _ _ _ _ _ _ _
  · exact blk s _

theorem windowStore (s : State) (n : Eng) (a k v : Nat) : Keeps s (s.windowStore n a k v) := by
  unfold State.windowStore
  extract_lets p idx sub bare
  have h : ∀ len v, Keeps s (bare.windowSubmit n idx sub len v) := fun len v => of_blk (windowSubmit _ _ _ _ _ _)
  split
  · exact h _ _
  · extract_lets
    split
    · split <;> exact h _ _
    · split
      · exact h _ _
      · split
        · exact refl s
        · split
          · exact blk s _
          · split <;> exact h _ _

theorem standAtLoad (s : State) (n : Eng) : Keeps s (s.standAtLoad n) := by
  unfold State.standAtLoad; split
  · exact blk s _
  · exact refl s

theorem loadAt (s : State) (n : Eng) (a k : Nat) : Keeps s (s.loadAt n a k).2 := by
  unfold State.loadAt; split
  · exact refl s
  · split
    · exact errorAt s _ _
    · exact windowLoad s n a k
    · exact (touch s a).trans (readPlace _ _ _ _)

theorem storeDo (s : State) (n : Eng) (a k v : Nat) : Keeps s (s.storeDo n a k v) := by
  unfold State.storeDo; split
  · exact (windowStore s n a k v).trans (settle _)
  · exact (touch s a).trans (writePlace _ _ _ _)
  · exact refl s

theorem storeRaise (s : State) (n : Eng) (a : Nat) (e : Exc) : Keeps s (s.storeRaise n a e) := by
  unfold State.storeRaise; split
  · exact of_blk (raise _ _ _ _)
  · exact raise _ _ _ _

theorem loadTo (s : State) (n : Eng) (rd : GReg) (addr : Word) (k : Nat) (ext : Nat → Word) :
    Keeps s (s.loadTo n rd addr k ext) := by
  unfold State.loadTo
  have h := loadAt s n addr.toNat k
  split
  · exact standAtLoad s n
  · split
    · rename_i hh; rw [hh] at h
      extract_lets
      split
      · exact ((h.trans (setReg _ _ _ _)).trans (retire _ _)).trans (settle _)
      · exact (h.trans (setReg _ _ _ _)).trans (retire _ _)
    · rename_i hh; rw [hh] at h
      exact h.trans (raise _ _ _ _)

theorem storeFrom (s : State) (n : Eng) (rd : GReg) (addr : Word) (k : Nat) : Keeps s (s.storeFrom n rd addr k) := by
  unfold State.storeFrom; split
  · exact storeRaise s n _ _
  · exact (storeDo s n _ _ _).trans (retire _ _)

theorem ordered (s : State) (n : Eng) {f : State → State} (h : ∀ s, Keeps s (f s)) : Keeps s (s.ordered n f) := by
  unfold State.ordered; split
  · exact refl s
  · exact h s

theorem atomic (s : State) (n : Eng) (rd ra : GReg) (f : Word → Option Word) : Keeps s (s.atomic n rd ra f) := by
  unfold State.atomic; simp only; repeat' split
  all_goals first
    | exact raise _ _ _ _
    | exact ((readPlace s _ _ _).trans (writePlace _ _ _ _)).trans ((setReg _ _ _ _).trans (retire _ _))
    | exact (readPlace s _ _ _).trans ((setReg _ _ _ _).trans (retire _ _))

theorem storeEvent (s : State) (n : Eng) (a w v : Nat) : Keeps s (s.storeEvent n a w v) := by
  unfold State.storeEvent; repeat' split
  all_goals first | exact refl s | exact storeRaise s n _ _ | exact storeDo s n _ _ _

theorem compute (s : State) (n : Eng) (rd : GReg) (v : Word) (f : Flags) : Keeps s (s.compute n rd v f) := by
  unfold State.compute
  exact (setReg s _ _ _).trans (blk _ _)

theorem decimal (s : State) (n : Eng) (o : Op) (a b : Word) {f : State → State} (h : ∀ s, Keeps s (f s)) :
    Keeps s (s.decimal n o a b f) := by
  unfold State.decimal; split
  · exact reserved s n o
  · split
    · exact raiseOpen s n _
    · exact h s

theorem notAtA (s : State) (n : Eng) (o : Op) {f : State → State} (h : ∀ s, Keeps s (f s)) : Keeps s (s.notAtA n o f) := by
  unfold State.notAtA; split
  · exact raiseWord s _ _ _
  · exact h s

theorem eProfile (s : State) (n : Eng) (o : Op) {f : State → State} (h : ∀ s, Keeps s (f s)) : Keeps s (s.eProfile n o f) := by
  unfold State.eProfile; split
  · exact h s
  · exact reserved s n o

/-! ### Cipher jobs -/

theorem jobRead (n : Eng) (k : Nat) : ∀ (s : State) (a : Nat), Keeps s (s.jobRead n a k).2 := by
  induction k with
  | zero => exact fun s _ => refl s
  | succ k ih =>
    intro s a
    unfold State.jobRead
    extract_lets d
    have h : Keeps s d.2 := by
      unfold d
      split
      · exact readPlace s _ _ _
      · exact refl s
      · exact readPlace s _ _ _
    exact h.trans (ih _ _)

theorem jobWrite (s : State) (n : Eng) (a : Nat) (l : List Octet) : Keeps s (s.jobWrite n a l) := by
  unfold State.jobWrite
  refine foldl (fun t x => ?_) _ s
  split
  · exact writePlace t _ _ _
  · exact refl t

theorem jobDone (s : State) (n : Eng) : Keeps s (s.jobDone n) := by
  unfold State.jobDone; split
  · exact refl s
  · extract_lets
    split
    · exact (((jobRead n _ s _).trans (jobRead n _ _ _)).trans (jobWrite _ _ _ _)).blk_of _
    · split
      · exact (((jobRead n _ s _).trans (jobRead n _ _ _)).trans (jobWrite _ _ _ _)).blk_of _
      · exact ((jobRead n _ s _).trans (jobRead n _ _ _)).blk_of _

end Keeps

end Sys2Proof.Machine
end

