-- ==== Sys2Proof/Laws/Engine.lean ====
section
/-!
SUPPORT. What an instruction of an engine does, one lemma for each shared operation: the fetch, the completion with a
result, and the exception.
-/

namespace Sys2Proof.Machine

/-- An engine that is ready executes the instruction. -/
theorem State.instr_ready {s : State} {n : Eng} {f : State → State} (h : s.ready n) :
    s.instr n f = .next (f (s.fetched n)) := by
  obtain ⟨hr, hf, hx⟩ := h
  have h1 : ((({ s with blk := s.blk.begin } : State).blk.cpu n).run ≠ .running ||
      ({ s with blk := s.blk.begin } : State).blk.stilled n) = false := by
    have hb : ((s.blk.begin).cpu n).run = .running := hr
    have : s.blk.begin.stilled n = false := hf
    simp [hb, this]
  unfold State.instr
  simp only
  rw [if_neg (by simpa using h1)]
  simp only [hx]
  rfl

/-- The queue of an engine's machine at the instruction is that before. -/
@[simp] theorem State.fetched_pending (s : State) (n : Eng) : (s.fetched n).pending = s.pending := by
  unfold State.fetched State.touch; split <;> rfl

/-- The machine in which an instruction executes holds the registers as they were. -/
@[simp] theorem State.fetched_reg (s : State) (n : Eng) (m r : Nat) : (s.fetched n).reg m r = s.reg m r := by
  unfold State.fetched State.touch; split <;> rfl

/-- A fetch leaves memory as it is. -/
@[simp] theorem State.fetched_mem (s : State) (n : Eng) : (s.fetched n).mem = s.mem := by
  unfold State.fetched State.touch; split <;> rfl

/-- A register written, every register read. -/
theorem State.reg_setReg (s : State) (n : Eng) (r : GReg) (v : Word) {m q : Nat} (hq : q < 32) :
    (s.setReg n r v).reg m q = if m = n.val ∧ q = r.val ∧ q ≠ 0 then v else s.reg m q := by
  by_cases h0 : r = 0
  · subst h0
    rw [if_neg (by rintro ⟨_, h, h'⟩; exact h' h)]
    rfl
  · have hr : r.val ≠ 0 := fun e => h0 (Fin.ext e)
    split
    · rename_i h; obtain ⟨rfl, rfl, _⟩ := h
      exact State.reg_setReg_same s v n.isLt hr r.isLt
    · rename_i h
      by_cases hq0 : q = 0
      · subst hq0; rfl
      · apply State.reg_setReg_ne s v r.isLt hq
        intro e; injection e with e1 e2
        exact h ⟨e1, e2, hq0⟩

/-- An instruction that writes one register and changes its engine's control state completes. -/
theorem Completes.of_step {i : Instr} {s : State} {n : Eng} {rd : GReg} {v : Word} {f : Cpu → Cpu} {g : State → State}
    (he : exec i s = s.instr n g) (h : s.ready n)
    (hg : g (s.fetched n) = { (s.fetched n).setReg n rd v with
      blk := ({ (s.fetched n).blk with cpus := (s.fetched n).blk.cpus.modify n f } : Block).add (Obj.engRetired.eng n) }) :
    Completes i s n rd v f := by
  refine ⟨_, he.trans ((State.instr_ready h).trans (by rw [hg])), ?_, ?_, ?_, rfl⟩
  · show ((s.fetched n).setReg n rd v).pending = s.pending
    simp
  · show ((s.fetched n).setReg n rd v).mem = _
    simp
  · intro m r _ hr
    show ((s.fetched n).setReg n rd v).reg m r = _
    rw [State.reg_setReg _ _ _ _ hr]

/-- Two changes of one engine in a row. -/
theorem modCpu_modCpu (b : Block) (n : Nat) (f g : Cpu → Cpu) :
    (b.modCpu n f).modCpu n g = { b with cpus := b.cpus.modify n (g ∘ f) } := by
  simp [Block.modCpu, modAt, List.modify_modify_eq]

end Sys2Proof.Machine
end

