-- ==== Sys2Proof/Laws/Frame.lean ====
section
/-!
SUPPORT. What telling leaves as it was: notices, records of the cullet log and values that leave the block touch
nothing else of the block than the log's queue, the notice queues, what leaves, and the objects named here.
-/

namespace Sys2Proof.Machine

/-- From one block to another only the log, the Plais unit, what leaves, and the objects under the keys `ks` may
differ. -/
structure Tells (ks : List Nat) (b c : Block) : Prop where
  rest : { c with regs := b.regs, outs := b.outs, plais := b.plais, cullet := b.cullet } = b
  get : ∀ (r : Reg) (k : Nat), r.key k ∉ ks → c.get r k = b.get r k

namespace Tells

theorem refl (ks : List Nat) (b : Block) : Tells ks b b := ⟨rfl, fun _ _ _ => rfl⟩

theorem trans {ks : List Nat} {a b c : Block} (h : Tells ks a b) (k : Tells ks b c) : Tells ks a c := by
  refine ⟨?_, fun r q n => (k.get r q n).trans (h.get r q n)⟩
  have e := h.rest
  rw [← k.rest] at e
  exact e

theorem put {ks : List Nat} (b : Block) {r : Reg} {row : Nat} (v : Nat) (h : r.key row ∈ ks) : Tells ks b (b.put r v row) :=
  ⟨rfl, fun _ _ n => Block.get_put_ne b v fun e => n (by rw [e]; exact h)⟩

theorem add {ks : List Nat} (b : Block) {r : Reg} {row : Nat} (n : Nat) (h : r.key row ∈ ks) : Tells ks b (b.add r n row) :=
  ⟨rfl, fun _ _ m => Block.get_add_ne b n fun e => m (by rw [e]; exact h)⟩

theorem foldl {ks : List Nat} {α : Type} {f : Block → α → Block} (h : ∀ b x, Tells ks b (f b x)) (l : List α) :
    ∀ b, Tells ks b (l.foldl f b) := by
  induction l with
  | nil => exact refl ks
  | cons x rest ih => exact fun b => (h b x).trans (ih _)

theorem post (ks : List Nat) (b : Block) (type : Nat) (payload : List Nat) (first : Bool) (flags : Nat) :
    Tells ks b (b.post type payload first flags) := by
  unfold Block.post; simp only; split <;> exact ⟨rfl, fun _ _ _ => rfl⟩

theorem abandonSummary (ks : List Nat) (b : Block) (cause : Nat) : Tells ks b (b.abandonSummary cause) := post ks _ _ _ _ _

theorem sendCan (ks : List Nat) (b : Block) (node type tid : Nat) (body : List Octet) :
    Tells ks b (b.sendCan node type tid body) := by
  unfold Block.sendCan; simp only; split
  · exact refl ks b
  · exact foldl (f := fun (c : Block) (x : Nat × List Octet) => c.emit (.can x.1 x.2)) (fun _ _ => ⟨rfl, fun _ _ _ => rfl⟩) _ _

/-- The keys of the two objects that a notice writes. -/
def noticeKeys : List Nat := [Obj.noticeSeqNext.key 0, Obj.noticeLost.key 0]

theorem queueNotice (b : Block) (d : Dest) (n : Notice) : Tells noticeKeys b (b.queueNotice d n) := by
  unfold Block.queueNotice; simp only; split
  · split
    · exact sendCan _ _ _ _ _ _
    · exact refl _ _
  · split
    · exact ⟨rfl, fun _ _ _ => rfl⟩
    · exact Tells.trans (b := { b with plais := b.plais.setQueue { b.plais.queueOf d with lost := min ((b.plais.queueOf d).lost + 1) 65535 } })
        ⟨rfl, fun _ _ _ => rfl⟩ (add _ _ (by simp [noticeKeys]))

theorem notice (b : Block) (code : Nat) (r : Reg) (row : Nat) (payload : List Nat) :
    Tells noticeKeys b (b.notice code r row payload) := by
  unfold Block.notice; simp only; split
  · exact (put b _ (by simp [noticeKeys])).trans (foldl (fun c d => queueNotice c d _) _ _)
  · exact refl _ _

end Tells

/-! ### The fields that telling leaves -/

theorem Tells.now {ks : List Nat} {b c : Block} (h : Tells ks b c) : c.now = b.now := by
  have e := congrArg Block.now h.rest; exact e
theorem Tells.fresh {ks : List Nat} {b c : Block} (h : Tells ks b c) : c.fresh = b.fresh := by
  have e := congrArg Block.fresh h.rest; exact e
theorem Tells.mode {ks : List Nat} {b c : Block} (h : Tells ks b c) : c.mode = b.mode := by
  have e := congrArg Block.mode h.rest; exact e
theorem Tells.pins {ks : List Nat} {b c : Block} (h : Tells ks b c) : c.pins = b.pins := by
  have e := congrArg Block.pins h.rest; exact e
theorem Tells.window {ks : List Nat} {b c : Block} (h : Tells ks b c) : c.window = b.window := by
  have e := congrArg Block.window h.rest; exact e
theorem Tells.sealing {ks : List Nat} {b c : Block} (h : Tells ks b c) : c.sealing = b.sealing := by
  have e := congrArg Block.sealing h.rest; exact e
theorem Tells.frames {ks : List Nat} {b c : Block} (h : Tells ks b c) : c.frames = b.frames := by
  have e := congrArg Block.frames h.rest; exact e
theorem Tells.nextFrame {ks : List Nat} {b c : Block} (h : Tells ks b c) : c.nextFrame = b.nextFrame := by
  have e := congrArg Block.nextFrame h.rest; exact e
theorem Tells.time {ks : List Nat} {b c : Block} (h : Tells ks b c) : c.time = b.time := by
  have e := congrArg Block.time h.rest; exact e
theorem Tells.stamps {ks : List Nat} {b c : Block} (h : Tells ks b c) : c.stamps = b.stamps := by
  have e := congrArg Block.stamps h.rest; exact e
theorem Tells.unread {ks : List Nat} {b c : Block} (h : Tells ks b c) : c.unread = b.unread := by
  have e := congrArg Block.unread h.rest; exact e
theorem Tells.timers {ks : List Nat} {b c : Block} (h : Tells ks b c) : c.timers = b.timers := by
  have e := congrArg Block.timers h.rest; exact e
theorem Tells.latches {ks : List Nat} {b c : Block} (h : Tells ks b c) : c.latches = b.latches := by
  have e := congrArg Block.latches h.rest; exact e
theorem Tells.cpus {ks : List Nat} {b c : Block} (h : Tells ks b c) : c.cpus = b.cpus := by
  have e := congrArg Block.cpus h.rest; exact e
theorem Tells.fwd {ks : List Nat} {b c : Block} (h : Tells ks b c) : c.fwd = b.fwd := by
  have e := congrArg Block.fwd h.rest; exact e
theorem Tells.gth {ks : List Nat} {b c : Block} (h : Tells ks b c) : c.gth = b.gth := by
  have e := congrArg Block.gth h.rest; exact e
theorem Tells.links {ks : List Nat} {b c : Block} (h : Tells ks b c) : c.links = b.links := by
  have e := congrArg Block.links h.rest; exact e
theorem Tells.periods {ks : List Nat} {b c : Block} (h : Tells ks b c) : c.periods = b.periods := by
  have e := congrArg Block.periods h.rest; exact e
theorem Tells.keys {ks : List Nat} {b c : Block} (h : Tells ks b c) : c.keys = b.keys := by
  have e := congrArg Block.keys h.rest; exact e
theorem Tells.jobs {ks : List Nat} {b c : Block} (h : Tells ks b c) : c.jobs = b.jobs := by
  have e := congrArg Block.jobs h.rest; exact e
theorem Tells.mac {ks : List Nat} {b c : Block} (h : Tells ks b c) : c.mac = b.mac := by
  have e := congrArg Block.mac h.rest; exact e
theorem Tells.fences {ks : List Nat} {b c : Block} (h : Tells ks b c) : c.fences = b.fences := by
  have e := congrArg Block.fences h.rest; exact e
theorem Tells.radios {ks : List Nat} {b c : Block} (h : Tells ks b c) : c.radios = b.radios := by
  have e := congrArg Block.radios h.rest; exact e
theorem Tells.region {ks : List Nat} {b c : Block} (h : Tells ks b c) : c.region = b.region := by
  have e := congrArg Block.region h.rest; exact e
theorem Tells.coex {ks : List Nat} {b c : Block} (h : Tells ks b c) : c.coex = b.coex := by
  have e := congrArg Block.coex h.rest; exact e
theorem Tells.field {ks : List Nat} {b c : Block} (h : Tells ks b c) : c.field = b.field := by
  have e := congrArg Block.field h.rest; exact e
theorem Tells.margin {ks : List Nat} {b c : Block} (h : Tells ks b c) : c.margin = b.margin := by
  have e := congrArg Block.margin h.rest; exact e
theorem Tells.dram {ks : List Nat} {b c : Block} (h : Tells ks b c) : c.dram = b.dram := by
  have e := congrArg Block.dram h.rest; exact e
theorem Tells.flash {ks : List Nat} {b c : Block} (h : Tells ks b c) : c.flash = b.flash := by
  have e := congrArg Block.flash h.rest; exact e
theorem Tells.images {ks : List Nat} {b c : Block} (h : Tells ks b c) : c.images = b.images := by
  have e := congrArg Block.images h.rest; exact e
theorem Tells.inbox {ks : List Nat} {b c : Block} (h : Tells ks b c) : c.inbox = b.inbox := by
  have e := congrArg Block.inbox h.rest; exact e
theorem Tells.losses {ks : List Nat} {b c : Block} (h : Tells ks b c) : c.losses = b.losses := by
  have e := congrArg Block.losses h.rest; exact e
theorem Tells.boot {ks : List Nat} {b c : Block} (h : Tells ks b c) : c.boot = b.boot := by
  have e := congrArg Block.boot h.rest; exact e

@[simp] theorem Block.notice_now (b : Block) (code : Nat) (r : Reg) (row : Nat) (payload : List Nat) :
    (b.notice code r row payload).now = b.now := (Tells.notice b code r row payload).now
@[simp] theorem Block.notice_fresh (b : Block) (code : Nat) (r : Reg) (row : Nat) (payload : List Nat) :
    (b.notice code r row payload).fresh = b.fresh := (Tells.notice b code r row payload).fresh
@[simp] theorem Block.notice_mode (b : Block) (code : Nat) (r : Reg) (row : Nat) (payload : List Nat) :
    (b.notice code r row payload).mode = b.mode := (Tells.notice b code r row payload).mode
@[simp] theorem Block.notice_pins (b : Block) (code : Nat) (r : Reg) (row : Nat) (payload : List Nat) :
    (b.notice code r row payload).pins = b.pins := (Tells.notice b code r row payload).pins
@[simp] theorem Block.notice_window (b : Block) (code : Nat) (r : Reg) (row : Nat) (payload : List Nat) :
    (b.notice code r row payload).window = b.window := (Tells.notice b code r row payload).window
@[simp] theorem Block.notice_sealing (b : Block) (code : Nat) (r : Reg) (row : Nat) (payload : List Nat) :
    (b.notice code r row payload).sealing = b.sealing := (Tells.notice b code r row payload).sealing
@[simp] theorem Block.notice_frames (b : Block) (code : Nat) (r : Reg) (row : Nat) (payload : List Nat) :
    (b.notice code r row payload).frames = b.frames := (Tells.notice b code r row payload).frames
@[simp] theorem Block.notice_nextFrame (b : Block) (code : Nat) (r : Reg) (row : Nat) (payload : List Nat) :
    (b.notice code r row payload).nextFrame = b.nextFrame := (Tells.notice b code r row payload).nextFrame
@[simp] theorem Block.notice_time (b : Block) (code : Nat) (r : Reg) (row : Nat) (payload : List Nat) :
    (b.notice code r row payload).time = b.time := (Tells.notice b code r row payload).time
@[simp] theorem Block.notice_stamps (b : Block) (code : Nat) (r : Reg) (row : Nat) (payload : List Nat) :
    (b.notice code r row payload).stamps = b.stamps := (Tells.notice b code r row payload).stamps
@[simp] theorem Block.notice_unread (b : Block) (code : Nat) (r : Reg) (row : Nat) (payload : List Nat) :
    (b.notice code r row payload).unread = b.unread := (Tells.notice b code r row payload).unread
@[simp] theorem Block.notice_timers (b : Block) (code : Nat) (r : Reg) (row : Nat) (payload : List Nat) :
    (b.notice code r row payload).timers = b.timers := (Tells.notice b code r row payload).timers
@[simp] theorem Block.notice_latches (b : Block) (code : Nat) (r : Reg) (row : Nat) (payload : List Nat) :
    (b.notice code r row payload).latches = b.latches := (Tells.notice b code r row payload).latches
@[simp] theorem Block.notice_cpus (b : Block) (code : Nat) (r : Reg) (row : Nat) (payload : List Nat) :
    (b.notice code r row payload).cpus = b.cpus := (Tells.notice b code r row payload).cpus
@[simp] theorem Block.notice_fwd (b : Block) (code : Nat) (r : Reg) (row : Nat) (payload : List Nat) :
    (b.notice code r row payload).fwd = b.fwd := (Tells.notice b code r row payload).fwd
@[simp] theorem Block.notice_gth (b : Block) (code : Nat) (r : Reg) (row : Nat) (payload : List Nat) :
    (b.notice code r row payload).gth = b.gth := (Tells.notice b code r row payload).gth
@[simp] theorem Block.notice_links (b : Block) (code : Nat) (r : Reg) (row : Nat) (payload : List Nat) :
    (b.notice code r row payload).links = b.links := (Tells.notice b code r row payload).links
@[simp] theorem Block.notice_periods (b : Block) (code : Nat) (r : Reg) (row : Nat) (payload : List Nat) :
    (b.notice code r row payload).periods = b.periods := (Tells.notice b code r row payload).periods
@[simp] theorem Block.notice_keys (b : Block) (code : Nat) (r : Reg) (row : Nat) (payload : List Nat) :
    (b.notice code r row payload).keys = b.keys := (Tells.notice b code r row payload).keys
@[simp] theorem Block.notice_jobs (b : Block) (code : Nat) (r : Reg) (row : Nat) (payload : List Nat) :
    (b.notice code r row payload).jobs = b.jobs := (Tells.notice b code r row payload).jobs
@[simp] theorem Block.notice_mac (b : Block) (code : Nat) (r : Reg) (row : Nat) (payload : List Nat) :
    (b.notice code r row payload).mac = b.mac := (Tells.notice b code r row payload).mac
@[simp] theorem Block.notice_fences (b : Block) (code : Nat) (r : Reg) (row : Nat) (payload : List Nat) :
    (b.notice code r row payload).fences = b.fences := (Tells.notice b code r row payload).fences
@[simp] theorem Block.notice_radios (b : Block) (code : Nat) (r : Reg) (row : Nat) (payload : List Nat) :
    (b.notice code r row payload).radios = b.radios := (Tells.notice b code r row payload).radios
@[simp] theorem Block.notice_region (b : Block) (code : Nat) (r : Reg) (row : Nat) (payload : List Nat) :
    (b.notice code r row payload).region = b.region := (Tells.notice b code r row payload).region
@[simp] theorem Block.notice_coex (b : Block) (code : Nat) (r : Reg) (row : Nat) (payload : List Nat) :
    (b.notice code r row payload).coex = b.coex := (Tells.notice b code r row payload).coex
@[simp] theorem Block.notice_field (b : Block) (code : Nat) (r : Reg) (row : Nat) (payload : List Nat) :
    (b.notice code r row payload).field = b.field := (Tells.notice b code r row payload).field
@[simp] theorem Block.notice_margin (b : Block) (code : Nat) (r : Reg) (row : Nat) (payload : List Nat) :
    (b.notice code r row payload).margin = b.margin := (Tells.notice b code r row payload).margin
@[simp] theorem Block.notice_dram (b : Block) (code : Nat) (r : Reg) (row : Nat) (payload : List Nat) :
    (b.notice code r row payload).dram = b.dram := (Tells.notice b code r row payload).dram
@[simp] theorem Block.notice_flash (b : Block) (code : Nat) (r : Reg) (row : Nat) (payload : List Nat) :
    (b.notice code r row payload).flash = b.flash := (Tells.notice b code r row payload).flash
@[simp] theorem Block.notice_images (b : Block) (code : Nat) (r : Reg) (row : Nat) (payload : List Nat) :
    (b.notice code r row payload).images = b.images := (Tells.notice b code r row payload).images
@[simp] theorem Block.notice_inbox (b : Block) (code : Nat) (r : Reg) (row : Nat) (payload : List Nat) :
    (b.notice code r row payload).inbox = b.inbox := (Tells.notice b code r row payload).inbox
@[simp] theorem Block.notice_losses (b : Block) (code : Nat) (r : Reg) (row : Nat) (payload : List Nat) :
    (b.notice code r row payload).losses = b.losses := (Tells.notice b code r row payload).losses
@[simp] theorem Block.notice_boot (b : Block) (code : Nat) (r : Reg) (row : Nat) (payload : List Nat) :
    (b.notice code r row payload).boot = b.boot := (Tells.notice b code r row payload).boot

/-- A notice leaves every object but its own two. -/
theorem Block.get_notice (b : Block) (code : Nat) (r : Reg) (row : Nat) (payload : List Nat) {q : Reg} {k : Nat}
    (h : q.key k ∉ Tells.noticeKeys) : (b.notice code r row payload).get q k = b.get q k := (Tells.notice b code r row payload).get q k h

@[simp] theorem Block.post_now (b : Block) (type : Nat) (payload : List Nat) (first : Bool) (flags : Nat) :
    (b.post type payload first flags).now = b.now := (Tells.post [] b type payload first flags).now
@[simp] theorem Block.post_fresh (b : Block) (type : Nat) (payload : List Nat) (first : Bool) (flags : Nat) :
    (b.post type payload first flags).fresh = b.fresh := (Tells.post [] b type payload first flags).fresh
@[simp] theorem Block.post_mode (b : Block) (type : Nat) (payload : List Nat) (first : Bool) (flags : Nat) :
    (b.post type payload first flags).mode = b.mode := (Tells.post [] b type payload first flags).mode
@[simp] theorem Block.post_pins (b : Block) (type : Nat) (payload : List Nat) (first : Bool) (flags : Nat) :
    (b.post type payload first flags).pins = b.pins := (Tells.post [] b type payload first flags).pins
@[simp] theorem Block.post_window (b : Block) (type : Nat) (payload : List Nat) (first : Bool) (flags : Nat) :
    (b.post type payload first flags).window = b.window := (Tells.post [] b type payload first flags).window
@[simp] theorem Block.post_sealing (b : Block) (type : Nat) (payload : List Nat) (first : Bool) (flags : Nat) :
    (b.post type payload first flags).sealing = b.sealing := (Tells.post [] b type payload first flags).sealing
@[simp] theorem Block.post_frames (b : Block) (type : Nat) (payload : List Nat) (first : Bool) (flags : Nat) :
    (b.post type payload first flags).frames = b.frames := (Tells.post [] b type payload first flags).frames
@[simp] theorem Block.post_nextFrame (b : Block) (type : Nat) (payload : List Nat) (first : Bool) (flags : Nat) :
    (b.post type payload first flags).nextFrame = b.nextFrame := (Tells.post [] b type payload first flags).nextFrame
@[simp] theorem Block.post_time (b : Block) (type : Nat) (payload : List Nat) (first : Bool) (flags : Nat) :
    (b.post type payload first flags).time = b.time := (Tells.post [] b type payload first flags).time
@[simp] theorem Block.post_stamps (b : Block) (type : Nat) (payload : List Nat) (first : Bool) (flags : Nat) :
    (b.post type payload first flags).stamps = b.stamps := (Tells.post [] b type payload first flags).stamps
@[simp] theorem Block.post_unread (b : Block) (type : Nat) (payload : List Nat) (first : Bool) (flags : Nat) :
    (b.post type payload first flags).unread = b.unread := (Tells.post [] b type payload first flags).unread
@[simp] theorem Block.post_timers (b : Block) (type : Nat) (payload : List Nat) (first : Bool) (flags : Nat) :
    (b.post type payload first flags).timers = b.timers := (Tells.post [] b type payload first flags).timers
@[simp] theorem Block.post_latches (b : Block) (type : Nat) (payload : List Nat) (first : Bool) (flags : Nat) :
    (b.post type payload first flags).latches = b.latches := (Tells.post [] b type payload first flags).latches
@[simp] theorem Block.post_cpus (b : Block) (type : Nat) (payload : List Nat) (first : Bool) (flags : Nat) :
    (b.post type payload first flags).cpus = b.cpus := (Tells.post [] b type payload first flags).cpus
@[simp] theorem Block.post_fwd (b : Block) (type : Nat) (payload : List Nat) (first : Bool) (flags : Nat) :
    (b.post type payload first flags).fwd = b.fwd := (Tells.post [] b type payload first flags).fwd
@[simp] theorem Block.post_gth (b : Block) (type : Nat) (payload : List Nat) (first : Bool) (flags : Nat) :
    (b.post type payload first flags).gth = b.gth := (Tells.post [] b type payload first flags).gth
@[simp] theorem Block.post_links (b : Block) (type : Nat) (payload : List Nat) (first : Bool) (flags : Nat) :
    (b.post type payload first flags).links = b.links := (Tells.post [] b type payload first flags).links
@[simp] theorem Block.post_periods (b : Block) (type : Nat) (payload : List Nat) (first : Bool) (flags : Nat) :
    (b.post type payload first flags).periods = b.periods := (Tells.post [] b type payload first flags).periods
@[simp] theorem Block.post_keys (b : Block) (type : Nat) (payload : List Nat) (first : Bool) (flags : Nat) :
    (b.post type payload first flags).keys = b.keys := (Tells.post [] b type payload first flags).keys
@[simp] theorem Block.post_jobs (b : Block) (type : Nat) (payload : List Nat) (first : Bool) (flags : Nat) :
    (b.post type payload first flags).jobs = b.jobs := (Tells.post [] b type payload first flags).jobs
@[simp] theorem Block.post_mac (b : Block) (type : Nat) (payload : List Nat) (first : Bool) (flags : Nat) :
    (b.post type payload first flags).mac = b.mac := (Tells.post [] b type payload first flags).mac
@[simp] theorem Block.post_fences (b : Block) (type : Nat) (payload : List Nat) (first : Bool) (flags : Nat) :
    (b.post type payload first flags).fences = b.fences := (Tells.post [] b type payload first flags).fences
@[simp] theorem Block.post_radios (b : Block) (type : Nat) (payload : List Nat) (first : Bool) (flags : Nat) :
    (b.post type payload first flags).radios = b.radios := (Tells.post [] b type payload first flags).radios
@[simp] theorem Block.post_region (b : Block) (type : Nat) (payload : List Nat) (first : Bool) (flags : Nat) :
    (b.post type payload first flags).region = b.region := (Tells.post [] b type payload first flags).region
@[simp] theorem Block.post_coex (b : Block) (type : Nat) (payload : List Nat) (first : Bool) (flags : Nat) :
    (b.post type payload first flags).coex = b.coex := (Tells.post [] b type payload first flags).coex
@[simp] theorem Block.post_field (b : Block) (type : Nat) (payload : List Nat) (first : Bool) (flags : Nat) :
    (b.post type payload first flags).field = b.field := (Tells.post [] b type payload first flags).field
@[simp] theorem Block.post_margin (b : Block) (type : Nat) (payload : List Nat) (first : Bool) (flags : Nat) :
    (b.post type payload first flags).margin = b.margin := (Tells.post [] b type payload first flags).margin
@[simp] theorem Block.post_dram (b : Block) (type : Nat) (payload : List Nat) (first : Bool) (flags : Nat) :
    (b.post type payload first flags).dram = b.dram := (Tells.post [] b type payload first flags).dram
@[simp] theorem Block.post_flash (b : Block) (type : Nat) (payload : List Nat) (first : Bool) (flags : Nat) :
    (b.post type payload first flags).flash = b.flash := (Tells.post [] b type payload first flags).flash
@[simp] theorem Block.post_images (b : Block) (type : Nat) (payload : List Nat) (first : Bool) (flags : Nat) :
    (b.post type payload first flags).images = b.images := (Tells.post [] b type payload first flags).images
@[simp] theorem Block.post_inbox (b : Block) (type : Nat) (payload : List Nat) (first : Bool) (flags : Nat) :
    (b.post type payload first flags).inbox = b.inbox := (Tells.post [] b type payload first flags).inbox
@[simp] theorem Block.post_losses (b : Block) (type : Nat) (payload : List Nat) (first : Bool) (flags : Nat) :
    (b.post type payload first flags).losses = b.losses := (Tells.post [] b type payload first flags).losses
@[simp] theorem Block.post_boot (b : Block) (type : Nat) (payload : List Nat) (first : Bool) (flags : Nat) :
    (b.post type payload first flags).boot = b.boot := (Tells.post [] b type payload first flags).boot
@[simp] theorem Block.post_regs (b : Block) (type : Nat) (payload : List Nat) (first : Bool) (flags : Nat) :
    (b.post type payload first flags).regs = b.regs := by
  unfold Block.post; simp only; split <;> rfl
@[simp] theorem Block.post_outs (b : Block) (type : Nat) (payload : List Nat) (first : Bool) (flags : Nat) :
    (b.post type payload first flags).outs = b.outs := by
  unfold Block.post; simp only; split <;> rfl
@[simp] theorem Block.post_plais (b : Block) (type : Nat) (payload : List Nat) (first : Bool) (flags : Nat) :
    (b.post type payload first flags).plais = b.plais := by
  unfold Block.post; simp only; split <;> rfl

@[simp] theorem Block.get_post (b : Block) (type : Nat) (payload : List Nat) (first : Bool) (flags : Nat) (q : Reg) (k : Nat) :
    (b.post type payload first flags).get q k = b.get q k := by
  unfold Block.get; rw [Block.post_regs]

end Sys2Proof.Machine
end

