-- ==== Sys2Proof/WellFormed.lean ====
section
/-!
DEFINITION. When a command is well formed: every operand lies in the range that the manual gives its field. A row of a
port's write is any 32-bit number (R54, R57), because an access beyond a table is a command that the block answers.
-/

namespace Sys2Proof

/-- A word lies in the MRAM (R472); a slot names an index, a subindex and a row. -/
def MramFault.wf : MramFault → Bool
  | .word a => 0x20000000 ≤ a && a < 0x20400000
  | .slot idx sub row _ => idx < 2 ^ 16 && sub < 256 && row < 2 ^ 20
  | .corrected => true

/-- A port names a Plais peer row 0 to 15 or a CAN FD node 1 to 127 (R50, R72, R75). -/
def Port.wf : Port → Bool
  | .console | .engine _ => true
  | .can node => 1 ≤ node && node ≤ 127
  | .udp peer | .mesh peer => peer < 16

/-- An IP header's fields lie in their widths. -/
def IpInfo.wf (i : IpInfo) : Bool :=
  (i.ver = 4 || i.ver = 6) && i.proto < 256 && i.sport < 65536 && i.dport < 65536 && i.src < 2 ^ 128 &&
    i.dst < 2 ^ 128 && i.ttl < 256 && i.dscp < 64 && i.csum < 65536

/-- A frame's fields lie in their widths. -/
def Packet.wf (p : Packet) : Bool :=
  p.dst < 2 ^ 48 && p.src < 2 ^ 48 && (p.vlan.all fun v => v.1 < 4096 && v.2 < 8) && p.ip.all IpInfo.wf &&
    (p.ptp.all fun x => x.mtype < 16 && x.seqId < 65536) && p.len < 65536

/-- A sender's row exists. -/
def Sender.wf : Sender → Bool
  | .station row => row < 512
  | .neighbour row => row < 1024
  | .cane link => link < 32
  | .stranger => true

/-- A received body's fields lie in their widths; a cane header with its payload is no longer than CANE_MTU allows
(R231). -/
def RxBody.wf : RxBody → Bool
  | .data pkt => pkt.wf
  | .cane header pkt => header.length ≤ 2008 && pkt.wf
  | .management _ | .dataRequest | .psPoll | .trigger => true

/-- A received MPDU's fields lie in their widths. -/
def RxMpdu.wf (m : RxMpdu) : Bool :=
  m.sender.wf && m.body.wf && m.tid < 16 && m.seq < 4096 && m.len < 2 ^ 24 && m.prot.all fun p => p.pn < 2 ^ 48 && p.keyId < 256 && p.level < 8

/-- A receive report's fields lie in their widths. -/
def RxInfo.wf (i : RxInfo) : Bool := i.snr < 256 && i.listPath < 4 && i.ackAir < 2 ^ 32

/-- A PPDU's form lies within the fields of R191 and the widths and places of R170. -/
def PpduForm.wf (f : PpduForm) : Bool :=
  f.format < 256 && f.rate < 256 && f.branch < 16 && 1 ≤ f.streams && f.streams ≤ 8 && f.width < 2 ^ 32 && f.place < 2 ^ 32

/-- A PPDU is no longer than its length field can say. -/
def Ppdu.wf (p : Ppdu) : Bool := p.form.wf && p.air < 2 ^ 32 && p.psdu.length ≤ 2047

/-- What a search branch reports lies in its widths: a sync word of 32 bits, one gain step for each chain. -/
def SyncSeen.wf (s : SyncSeen) : Bool := s.word < 2 ^ 32 && s.gains.length ≤ 4

/-- A header's fields lie in their widths. -/
def RxHead.wf (h : RxHead) : Bool :=
  h.form.wf && h.header < 2 ^ 32 && h.len < 2 ^ 24 && h.dur < 2 ^ 32 && h.seed < 512 && h.allots.all fun n => n < 2 ^ 24

/-- A transmit command's fields lie in their widths; what the edge sends of its own is no command of a sequencer. -/
def TxCmd.wf (c : TxCmd) : Bool :=
  c.ppdu.wf && (match c.what with
    | .control kind => decide (kind < 256)
    | .mgmt link cseq _ => decide (link < 32) && decide (cseq < 2 ^ 24)
    | .caneCtl link type => decide (link < 32) && decide (1 ≤ type) && decide (type ≤ 4)
    | _ => true)

/-- A pick names a receiver and a TID of the gather's format (R251). -/
def Pick.wf (p : Pick) : Bool := p.recv < 1024 && p.tid < 16

/-- A DALI backward frame is an octet (R364). -/
def DaliEnd.wf : DaliEnd → Bool
  | .reply v => v < 256
  | _ => true

/-- A DALI poll's reply: one of 64 short addresses, an octet or silence (R367). -/
def pollWf (x : Nat × Option Nat) : Bool := x.1 < 64 && x.2.all fun v => v < 256

/-- A debug access reaches an address of the map (R31, R398). -/
def TapOp.wf : TapOp → Bool
  | .readMem addr => addr < 2 ^ 40
  | .writeMem addr _ => addr < 2 ^ 40
  | .inspect _ item => item ≤ 32 || (64 ≤ item && item < 96)
  | _ => true

/-- An address of the dictionary window (R52). -/
def inWindowAddr (a : Nat) : Bool := 0xF000000000 ≤ a && a < 0xF010000000

/-- A temperature of the table's signed 16-bit type. -/
def i16 (v : Int) : Bool := -32768 ≤ v && v < 32768

/-- Every operand of a command lies in its range. -/
def WellFormed (i : Instr) : Bool :=
  match i with
  | .vfurRise _ activeWakes faults => activeWakes < 64 && faults.all MramFault.wf
  | .vfurFall _ => true
  | .rtcCrystalStable _ => true
  | .rtcCrystalStop _ => true
  | .pwrOkRise _ => true
  | .pwrOkFall _ => true
  | .pfwNAssert _ => true
  | .brownout _ rail lowest dur => rail < 7 && lowest < 65536 && dur < 2 ^ 32
  | .resetNRelease _ => true
  | .warmReset _ p _ repaired => p.wf && repaired < 2 ^ 32
  | .coldReset _ p => p.wf
  | .restoreDelayExpiry _ _ repaired => repaired < 2 ^ 32
  | .fabricStallExpiry _ unit => unit < 20
  | .unitSelfCheckFail _ _ => true
  | .ethLinkChange _ _ speed => speed < 7
  | .ethIdleExpiry _ _ => true
  | .radioIdleExpiry _ _ => true
  | .dramIdleExpiry _ => true
  | .dramSelfRefreshExit _ => true
  | .chipIdleExpiry _ => true
  | .modeRequestHibernate _ p => p.wf
  | .modeRequestDayWatch _ p => p.wf
  | .modeRequestFieldOnly _ p => p.wf
  | .modeRequestRelay _ p => p.wf
  | .modeRequestFullService _ p => p.wf
  | .modeRequestDegraded _ p => p.wf
  | .dawnDrainStart _ => true
  | .drainAcceptanceClose _ => true
  | .drainGuardDeadline _ => true
  | .drainComplete _ => true
  | .duskAlarm _ => true
  | .wakeAlarmDelayExpiry _ => true
  | .wakeEvent _ source gpio => decide (source < 6) && decide (gpio < 2 ^ 24)
  | .railsGood _ _ => true
  | .railTimeoutExpiry _ => true
  | .maintNFitted _ => true
  | .maintNRemoved _ => true
  | .presencePress _ => true
  | .presenceLongHold _ => true
  | .presenceWindowExpiry _ => true
  | .presenceClose _ p => p.wf
  | .sealCheck _ _ _ => true
  | .sealConfirmCheck _ _ _ => true
  | .sealEnableWrite _ p sub value => p.wf && sub < 256 && value < 256 ^ 4
  | .sealClear _ p => p.wf
  | .keyHashProgram _ p slot value _ => p.wf && slot < 4 && value < 256 ^ 32
  | .revoke _ p slot => p.wf && slot < 4
  | .rollbackSet _ p value => p.wf && value < 256 ^ 1
  | .debugUnlock _ p => p.wf
  | .debugLock _ p => p.wf
  | .debugDisable _ p => p.wf
  | .bindingWrite _ p sub value => p.wf && sub < 256 && value < 256 ^ 64
  | .dictWrite _ p index sub row len value =>
    p.wf && index < 65536 && sub < 256 && row < 2 ^ 32 && len ≤ 4096 && value < 256 ^ len
  | .windowStore _ _ addr width value => inWindowAddr addr && [1, 2, 4, 8].contains width && value < 256 ^ width
  | .plaisRequest _ p addr port msg => p.wf && addr < 2 ^ 128 && port < 65536 && msg.length ≤ 2048
  | .udpDatagramReceived _ addr port _ => addr < 2 ^ 128 && port < 65536
  | .consoleFrameReceived _ _ => true
  | .canSegmentReceived _ ident data => ident < 2 ^ 29 && data.length ≤ 64
  | .canMessageTimeout _ src tidLo => src < 128 && tidLo < 16
  | .respCacheExpiry _ p tid => p.wf && tid < 65536
  | .noticeRetryExpiry _ p => p.wf
  | .noticeAckReceived _ p seq => p.wf && seq < 2 ^ 32
  | .defaultsRestore _ p value => p.wf && value < 256 ^ 1
  | .customerDeclare _ p row sub len value => p.wf && row < 2 ^ 32 && sub < 256 && len ≤ 4096 && value < 256 ^ len
  | .ethFrameReceived _ _ pkt _ pause => pkt.wf && pause.all fun l => l.all fun x => x.1 < 9 && x.2 < 65536
  | .pauseRefresh _ _ => true
  | .ethModeWrite _ p row value => p.wf && row < 2 ^ 32 && value < 256 ^ 1
  | .ethTxStart _ _ => true
  | .ethTxEnd _ _ => true
  | .rxSyncConfirm _ _ branch seen => branch < 17 && seen.wf
  | .rxHeaderDecoded _ _ head => head.wf
  | .rxPpduEnd _ _ info mpdus => info.wf && mpdus.all RxMpdu.wf
  | .landingDrain _ _ => true
  | .classifyFrame _ _ => true
  | .flowIdleExpiry _ row => row < 16384
  | .bridgeAgeExpiry _ row => row < 4096
  | .insert _ p => p.wf
  | .missTake _ p => p.wf
  | .verdict _ p value => p.wf && value < 256 ^ 16
  | .shaperRelease _ shaper => shaper < 4608
  | .txRingDoorbell _ p row tail => p.wf && row < 2 ^ 32 && tail < 65536
  | .rxRingFill _ row => row < 96
  | .rxRingHeadWrite _ p row head => p.wf && row < 2 ^ 32 && head < 65536
  | .samplePass _ => true
  | .maxOctetsRead _ p sub row => p.wf && sub < 256 && row < 2 ^ 32
  | .histClear _ p row => p.wf && row < 2 ^ 32
  | .flushQueue _ p => p.wf
  | .flushStation _ p => p.wf
  | .flushNeighbour _ p => p.wf
  | .flushCaneLink _ p => p.wf
  | .flushAll _ p => p.wf
  | .abandonNoticePeriodEnd _ dest code => dest < 8192 && code < 256
  | .abandonSummary _ => true
  | .gatherSelect _ _ users _ mimo dur picks =>
    1 ≤ users && users < 256 && mimo < 256 && dur < 2 ^ 16 && picks.all Pick.wf
  | .gatherSealDone _ _ => true
  | .gatherAgeExpiry _ _ => true
  | .txCommand _ _ c => c.wf
  | .txCommit _ _ => true
  | .ppduFirstSample _ _ => true
  | .ppduTxEnd _ _ detector => detector.length ≤ 4
  | .responseReceived _ _ _ mcs => mcs.all fun x => x.1 < 1024 && x.2 < 256
  | .responseTimeout _ _ mcs => mcs.all fun x => x.1 < 1024 && x.2 < 256
  | .retryHoldExpiry _ queue => queue < 5632
  | .synthLock _ _ => true
  | .lockTimeoutExpiry _ _ => true
  | .lockLost _ _ => true
  | .tuneWrite _ p _ sub value => p.wf && sub < 256 && value < 256 ^ 4
  | .tuneStart _ _ => true
  | .calSegmentStart _ _ kind chain _ => kind < 5 && chain < 4
  | .calSegmentEnd _ _ _ => true
  | .calStarveExpiry _ _ kind => kind < 5
  | .paSupplyRead _ _ mv => mv < 65536
  | .coexInChange _ _ _ => true
  | .blankTailExpiry _ source => source < 6
  | .regionCommit _ p crc => p.wf && crc < 2 ^ 32
  | .regionFlip _ => true
  | .shadowLoad _ _ _ crcRead => crcRead < 2 ^ 32
  | .shadowCrcCheck _ _ _ _ crcRead => crcRead < 2 ^ 32
  | .regionClear _ p => p.wf
  | .radarDetected _ mask => mask < 2 ^ 99
  | .cacExpiry _ => true
  | .nopExpiry _ sub => sub < 99
  | .testModeWrite _ p _ value => p.wf && value < 256 ^ 1
  | .backoffSlot _ _ => true
  | .ccaBusy _ _ => true
  | .csmaCcaEnd _ _ draw => draw < 256
  | .ackWaitExpiry _ => true
  | .lowbandAckReceived _ _ => true
  | .dutyBinBoundary _ => true
  | .indirectEnqueue _ nbr => nbr < 1024
  | .childPoll _ nbr form seq ackAir => nbr < 1024 && form.wf && seq < 256 && ackAir < 2 ^ 32
  | .childPersistExpiry _ _ => true
  | .inactivityExpiry _ who => who.wf
  | .guardExpiry _ nbr _ => nbr < 1024
  | .lostPartnerListen _ nbr _ => nbr < 1024
  | .scanDwellEnd _ nbr _ => nbr < 1024
  | .scanIntervalExpiry _ nbr => nbr < 1024
  | .dwPoll _ _ _ freq request => freq < 2 ^ 32 && request.wf
  | .dwTimeValidExpiry _ => true
  | .roundStart _ _ => true
  | .assocRequest _ _ bss addr _ => bss < 16 && addr < 2 ^ 48
  | .disassocReceived _ row => row < 512
  | .probeRequest _ _ ssid len => ssid < 2 ^ 256 && len ≤ 32
  | .twtSetup _ row sp _ => row < 512 && sp < 65536
  | .twtLeadStart _ row => row < 512
  | .twtSpStart _ row _ => row < 512
  | .tbtt _ _ bss beacon => bss < 16 && beacon.wf
  | .ebSend _ beacon => beacon.wf
  | .bssEnableWrite _ p _ bss value => p.wf && bss < 16 && value < 256 ^ 1
  | .kick _ p row => p.wf && row < 2 ^ 32
  | .remove _ p row => p.wf && row < 2 ^ 32
  | .neighbourAdmit _ p row addr => p.wf && row < 2 ^ 32 && addr < 2 ^ 64
  | .caneAckReceived _ link _ header => link < 32 && header.length ≤ 110
  | .caneNackReceived _ link _ header => link < 32 && header.length ≤ 50
  | .caneProbeReceived _ link _ header => link < 32 && header.length ≤ 4
  | .ackDelayExpiry _ link => link < 32
  | .holdTimeExpiry _ link stream => link < 32 && stream < 16
  | .resendTimeExpiry _ _ => true
  | .strandDeadTimeExpiry _ link _ => link < 32
  | .probeIntervalExpiry _ link _ => link < 32
  | .delete _ p row => p.wf && row < 2 ^ 32
  | .rekey _ p row => p.wf && row < 2 ^ 32
  | .keyWrite _ p row value => p.wf && row < 2 ^ 32 && value < 256 ^ 32
  | .erase _ p row => p.wf && row < 2 ^ 32
  | .retiringKeyClear _ row => row < 2048
  | .jobRun _ p => p.wf
  | .jobDone _ _ => true
  | .offsetIn _ p _ value => p.wf && value < 256 ^ 24
  | .sourceWrite _ p _ value => p.wf && value < 256 ^ 1
  | .sourceTimeoutExpiry _ _ => true
  | .holdoverLimitExpiry _ => true
  | .presentSelWrite _ p value => p.wf && value < 256 ^ 1
  | .stepAllowWrite _ p value => p.wf && value < 256 ^ 1
  | .presentSet _ p value => p.wf && value < 256 ^ 14
  | .rtcAlign _ => true
  | .triggerFire _ _ => true
  | .ppsOutFall _ => true
  | .triggerEnable _ p _ value => p.wf && value < 256 ^ 1
  | .lateRead _ p _ => p.wf
  | .captureEdge _ _ _ => true
  | .captureTimeRead _ p _ => p.wf
  | .pop _ p _ => p.wf
  | .overflowRead _ p _ => p.wf
  | .timerReload _ _ => true
  | .timerCompare _ _ => true
  | .timerPinCapture _ _ => true
  | .timerCompareWrite _ p _ value => p.wf && value < 256 ^ 4
  | .timerPeriodWrite _ p _ value => p.wf && value < 256 ^ 4
  | .globalGo _ p => p.wf
  | .countLowRead _ p _ => p.wf
  | .eventsRead _ p _ => p.wf
  | .dimLevelWrite _ p _ value => p.wf && value < 256 ^ 1
  | .zxEdge _ _ => true
  | .zxTimeoutExpiry _ => true
  | .relayCommandWrite _ p _ value => p.wf && value < 256 ^ 1
  | .relaySwitch _ _ => true
  | .daliSubmit _ p row value => p.wf && row < 2 ^ 32 && value < 256 ^ 1
  | .daliRowStart _ => true
  | .daliRowEnd _ e => e.wf
  | .daliCollision _ => true
  | .daliBusDown _ => true
  | .daliBusUp _ => true
  | .daliPoll _ replies => replies.all pollWf
  | .detectorEdge _ _ _ => true
  | .maxTravelExpiry _ _ => true
  | .stuckTimeExpiry _ _ => true
  | .intervalBoundary _ => true
  | .recordHoldExpiry _ => true
  | .adcScanEnd _ raw => raw.length = 13 && raw.all fun v => v < 4096
  | .adcPersistExpiry _ _ _ => true
  | .cycleWindowExpiry _ => true
  | .canFrameReceived _ ident ide data => ident < (if ide then 2 ^ 29 else 2 ^ 11) && data.length ≤ 64
  | .canBusOff _ => true
  | .alarmClear _ p row => p.wf && row < 2 ^ 32
  | .alarmRaiseWrite _ p row value => p.wf && row < 2 ^ 32 && value < 256 ^ 1
  | .culletRecordWrite _ => true
  | .culletCrcWritten _ => true
  | .lehrPeriodExpiry _ => true
  | .lehrRun _ p => p.wf
  | .strainSweepDone _ cells _ => cells.length = 48 && cells.all fun v => v < 65536
  | .vcoreSettleExpiry _ => true
  | .vcoreLimitWrite _ p sub value _ => p.wf && sub < 256 && value < 256 ^ 4
  | .thermalCheck _ ch8 dieH dieM dieL => i16 ch8 && i16 dieH && i16 dieM && i16 dieL
  | .wsScrub _ _ => true
  | .csWrite _ p => p.wf
  | .dramRequest _ cls requester addr _ _ _ => cls < 4 && requester < 18 && addr < 2 ^ 40
  | .dramAgePromote _ _ => true
  | .dramScrub _ _ addr _ _ => addr < 2 ^ 40
  | .dramRefresh _ _ _ _ => true
  | .dramRetrainStart _ _ => true
  | .dramRetrainDone _ _ _ => true
  | .xspiReadTimeout _ => true
  | .xspiProgram _ p => p.wf
  | .xspiSectorErase _ p => p.wf
  | .xspiBlockErase _ p => p.wf
  | .xspiOpDone _ status => status < 4
  | .swapGo _ p => p.wf
  | .swapEngineLoaded _ => true
  | .swapWaitExpiry _ => true
  | .bootConfirm _ p => p.wf
  | .confirmTimeExpiry _ => true
  | .engineHalt _ p _ => p.wf
  | .engineRun _ p _ => p.wf
  | .engineResume _ p _ => p.wf
  | .mouldRowWrite _ p _ row sub value => p.wf && row < 2 ^ 32 && sub < 256 && value < 256 ^ 128
  | .engineEvent _ _ bit => bit.val ≤ 18
  | .wuntilTarget _ _ => true
  | .watchdogExpiry _ _ => true
  | .reservedInstruction _ word => Machine.decodeWord word == .reserved word
  | .nop _ => true
  | .trap _ _ => true
  | .mcall _ => true
  | .xret _ => true
  | .halt _ => true
  | .safept _ => true
  | .wdkick _ => true
  | .fence _ => true
  | .fenceS _ => true
  | .fenceD _ => true
  | .crd _ _ _ => true
  | .cwr _ _ _ => true
  | .add _ _ _ _ => true
  | .adc _ _ _ _ => true
  | .sub _ _ _ _ => true
  | .sbc _ _ _ _ => true
  | .cmp _ _ _ => true
  | .and _ _ _ _ => true
  | .or _ _ _ _ => true
  | .xor _ _ _ _ => true
  | .shl _ _ _ _ => true
  | .shr _ _ _ _ => true
  | .sar _ _ _ _ => true
  | .ror _ _ _ _ => true
  | .clz _ _ _ => true
  | .popc _ _ _ => true
  | .addi _ _ _ _ => true
  | .cmpi _ _ _ => true
  | .andi _ _ _ _ => true
  | .ori _ _ _ _ => true
  | .xori _ _ _ _ => true
  | .shiShl _ _ _ _ => true
  | .shiShr _ _ _ _ => true
  | .shiSar _ _ _ _ => true
  | .shiRor _ _ _ _ => true
  | .movz _ _ _ _ => true
  | .movk _ _ _ _ => true
  | .mul _ _ _ _ => true
  | .mulhu _ _ _ _ => true
  | .mulhs _ _ _ _ => true
  | .divu _ _ _ _ => true
  | .divs _ _ _ _ => true
  | .remu _ _ _ _ => true
  | .rems _ _ _ _ => true
  | .ld64 _ _ _ _ => true
  | .ld32u _ _ _ _ => true
  | .ld32s _ _ _ _ => true
  | .ld16u _ _ _ _ => true
  | .ld16s _ _ _ _ => true
  | .ld8u _ _ _ _ => true
  | .ld8s _ _ _ _ => true
  | .ldacq _ _ _ _ => true
  | .st64 _ _ _ _ => true
  | .st32 _ _ _ _ => true
  | .st16 _ _ _ _ => true
  | .st8 _ _ _ _ => true
  | .strel _ _ _ _ => true
  | .cas _ _ _ _ => true
  | .aadd _ _ _ _ => true
  | .aswap _ _ _ _ => true
  | .bCond _ _ _ => true
  | .jal _ _ => true
  | .jalr _ _ _ _ => true
  | .wfe _ => true
  | .sev _ _ => true
  | .wuntil _ _ => true
  | .dadd _ _ _ _ => true
  | .daddX _ _ _ _ => true
  | .dsub _ _ _ _ => true
  | .dsubX _ _ _ _ => true
  | .dcmp _ _ _ => true
  | .dadj _ _ _ => true
  | .mouldInstruction _ _ _ _ _ _ => true
  | .presenceNEdge _ _ => true
  | .resetNAssert _ => true
  | .busOffRecovery _ => true
  | .pauseQuantaExpiry _ _ mask => mask < 512
  | .calPeriodExpiry _ _ kind _ => kind < 5
  | .tapAccess _ op => op.wf
  | .tmrIoCountEdge _ _ _ => true
  | .brownoutEnd _ rail => rail < 7

end Sys2Proof
end

