-- ==== Sys2Proof/Tests/Slice0.lean ====
section
/-!
SUPPORT. The model's own tests: the checks of well-formedness, words of the engines written out from the manual's
encodings, the manual's worked examples, and for every statement states and operands that meet its hypotheses, with
what the command leaves there.
-/

namespace Sys2Proof.Tests

open Sys2Proof Sys2Proof.Machine Sys2Proof.Claims

set_option Elab.async false

/-- The block that an outcome leaves, or an unpowered one where it leaves none. -/
def left : Host.Outcome State Fault Refusal → Block
  | .next t => t.blk
  | _ => {}

/-- The machine with a block and nothing else. -/
def st (b : Block) : State := { State.reset with blk := b }

/-- A device with mains power in a mode, all its engines running in their local memories. -/
def mains (m : Mode) : Block :=
  { mode := { mode := m }, pins := { pwrOk := true, mainEn := true }
    cpus := (List.range 12).map fun n => { run := .running, pc := BitVec.ofNat 40 (localBase n) } }

/-- A device in Full Service. -/
def full : Block := mains .fullService

/-- A device in Maintenance, the presence window open and the jumper fitted. -/
def maint : Block :=
  { mains .maintenance with window := some 0, pins := { pwrOk := true, mainEn := true, maintFitted := true } }

/-! ### Well-formedness: one term for each check, which the check refuses -/

theorem test_ill_formed_1 : (
   [.vfurRise 0 64 [], .vfurRise 0 0 [.word 0x1FFFFFFF], .vfurRise 0 0 [.word 0x20400000], .vfurRise 0 0 [.slot 65536 0 0 true],
    .vfurRise 0 0 [.slot 0 256 0 true], .vfurRise 0 0 [.slot 0 0 (2 ^ 20) true], .brownout 0 7 0 0, .brownout 0 0 65536 0, .brownout 0 0 0 (2 ^ 32), .warmReset 0 (.can 128) [] 0,
    .warmReset 0 .console [] (2 ^ 32), .coldReset 0 (.can 128), .restoreDelayExpiry 0 [] (2 ^ 32), .fabricStallExpiry 0 20,
    .ethLinkChange 0 0 7, .modeRequestHibernate 0 (.can 128), .modeRequestDayWatch 0 (.can 128),
    .modeRequestFieldOnly 0 (.can 128), .modeRequestRelay 0 (.can 128), .modeRequestFullService 0 (.can 128),
    .modeRequestDegraded 0 (.can 128), .wakeEvent 0 6 0, .wakeEvent 0 5 (2 ^ 24), .presenceClose 0 (.can 128), .sealEnableWrite 0 (.can 128) 0 0,
    .sealEnableWrite 0 .console 256 0, .sealEnableWrite 0 .console 0 (256 ^ 4), .sealClear 0 (.can 128),
    .keyHashProgram 0 (.can 128) 0 0 false, .keyHashProgram 0 .console 4 0 false,
    .keyHashProgram 0 .console 0 (256 ^ 32) false, .revoke 0 (.can 128) 0] : List Instr).all (fun i => !WellFormed i) = true := by
  decide +kernel

theorem test_ill_formed_2 : (
   [.revoke 0 .console 4, .rollbackSet 0 (.can 128) 0, .rollbackSet 0 .console (256 ^ 1), .debugUnlock 0 (.can 128),
    .debugLock 0 (.can 128), .debugDisable 0 (.can 128), .bindingWrite 0 (.can 128) 0 0, .bindingWrite 0 .console 256 0,
    .bindingWrite 0 .console 0 (256 ^ 64), .dictWrite 0 .console 0 0 0 0 1, .dictWrite 0 (.can 128) 0 0 0 0 0,
    .dictWrite 0 .console 65536 0 0 0 0, .dictWrite 0 .console 0 256 0 0 0, .dictWrite 0 .console 0 0 (2 ^ 32) 0 0,
    .dictWrite 0 .console 0 0 0 4097 0, .windowStore 0 0 0xF000000000 3 0, .windowStore 0 0 0xF000000000 1 256,
    .windowStore 0 0 0xF010000000 1 0, .plaisRequest 0 .console 0 0 (List.replicate 2049 0), .plaisRequest 0 (.can 128) 0 0 [],
    .plaisRequest 0 .console (2 ^ 128) 0 [], .plaisRequest 0 .console 0 65536 [],
    .udpDatagramReceived 0 (2 ^ 128) 0 [], .udpDatagramReceived 0 0 65536 [],
    .canSegmentReceived 0 0 (List.replicate 65 0), .canSegmentReceived 0 (2 ^ 29) [], .canMessageTimeout 0 128 0,
    .canMessageTimeout 0 0 16] : List Instr).all (fun i => !WellFormed i) = true := by
  decide +kernel

theorem test_ill_formed_3 : (
   [.respCacheExpiry 0 (.can 128) 0, .respCacheExpiry 0 .console 65536, .noticeRetryExpiry 0 (.can 128),
    .noticeAckReceived 0 (.can 128) 0, .noticeAckReceived 0 .console (2 ^ 32), .defaultsRestore 0 (.can 128) 0,
    .defaultsRestore 0 .console (256 ^ 1), .customerDeclare 0 .console 0 0 0 1, .customerDeclare 0 (.can 128) 0 0 0 0,
    .customerDeclare 0 .console (2 ^ 32) 0 0 0, .customerDeclare 0 .console 0 256 0 0, .customerDeclare 0 .console 0 0 4097 0,
    .ethFrameReceived 0 0 { len := 65536 } false none, .ethFrameReceived 0 0 {} false (some [(9, 0)]),
    .ethFrameReceived 0 0 {} false (some [(0, 65536)]), .ethModeWrite 0 (.can 128) 0 0, .ethModeWrite 0 .console (2 ^ 32) 0,
    .ethModeWrite 0 .console 0 (256 ^ 1), .rxSyncConfirm 0 .h 17 { power := 0 }, .rxSyncConfirm 0 .h 0 { power := 0, word := 2 ^ 32 },
    .rxSyncConfirm 0 .h 0 { power := 0, gains := [0, 0, 0, 0, 0] }, .rxHeaderDecoded 0 .h { form := { format := 256 } },
    .rxHeaderDecoded 0 .h { form := { branch := 16 } }, .rxHeaderDecoded 0 .h { form := { streams := 0 } },
    .rxHeaderDecoded 0 .h { form := {}, header := 2 ^ 32 }, .rxHeaderDecoded 0 .h { form := {}, len := 2 ^ 24 },
    .rxHeaderDecoded 0 .h { form := {}, dur := 2 ^ 32 }, .rxHeaderDecoded 0 .h { form := {}, seed := 512 },
    .rxHeaderDecoded 0 .h { form := {}, allots := [2 ^ 24] },
    .rxPpduEnd 0 .h {} [{ sender := .stranger, body := .management none, tid := 16 }], .rxPpduEnd 0 .h { listPath := 4 } [],
    .rxPpduEnd 0 .h {} [{ sender := .stranger, body := .dataRequest, prot := some { pn := 2 ^ 48 } }],
    .flowIdleExpiry 0 16384, .bridgeAgeExpiry 0 4096, .insert 0 (.can 128)] : List Instr).all (fun i => !WellFormed i) = true := by
  decide +kernel

theorem test_ill_formed_4 : (
   [.missTake 0 (.can 128), .verdict 0 (.can 128) 0, .verdict 0 .console (256 ^ 16), .shaperRelease 0 4608,
    .txRingDoorbell 0 (.can 128) 0 0, .txRingDoorbell 0 .console (2 ^ 32) 0, .txRingDoorbell 0 .console 0 65536,
    .rxRingFill 0 96, .rxRingHeadWrite 0 (.can 128) 0 0, .rxRingHeadWrite 0 .console (2 ^ 32) 0,
    .rxRingHeadWrite 0 .console 0 65536, .maxOctetsRead 0 (.can 128) 0 0, .maxOctetsRead 0 .console 256 0,
    .maxOctetsRead 0 .console 0 (2 ^ 32), .histClear 0 (.can 128) 0, .histClear 0 .console (2 ^ 32), .flushQueue 0 (.can 128),
    .flushStation 0 (.can 128), .flushNeighbour 0 (.can 128), .flushCaneLink 0 (.can 128), .flushAll 0 (.can 128),
    .abandonNoticePeriodEnd 0 8192 0, .abandonNoticePeriodEnd 0 0 256, .gatherSelect 0 .h 1 false 1 0 [⟨0, 1024, 0⟩],
    .gatherSelect 0 .h 0 false 1 0 [], .gatherSelect 0 .h 256 false 1 0 [], .gatherSelect 0 .h 1 false 256 0 [],
    .gatherSelect 0 .h 1 false 1 65536 []] : List Instr).all (fun i => !WellFormed i) = true := by
  decide +kernel

theorem test_ill_formed_5 : (
   [.txCommand 0 .h { what := .testWave, ppdu := { air := 2 ^ 32 } }, .txCommand 0 .h { what := .control 256 },
    .txCommand 0 .h { what := .mgmt 32 0 false }, .txCommand 0 .h { what := .caneCtl 0 5 },
    .txCommand 0 .l { what := .testWave, ppdu := { psdu := List.replicate 2048 0 } }, .retryHoldExpiry 0 5632, .tuneWrite 0 (.can 128) .h 0 0,
    .tuneWrite 0 .console .h 256 0, .tuneWrite 0 .console .h 0 (256 ^ 4), .calSegmentStart 0 .h 5 0 0,
    .calSegmentStart 0 .h 0 4 0, .calStarveExpiry 0 .h 5, .paSupplyRead 0 .h 65536, .blankTailExpiry 0 6,
    .regionCommit 0 (.can 128) 0, .regionCommit 0 .console (2 ^ 32), .shadowCrcCheck 0 .h false false (2 ^ 32),
    .regionClear 0 (.can 128), .radarDetected 0 (2 ^ 99), .nopExpiry 0 99, .testModeWrite 0 (.can 128) .h 0,
    .testModeWrite 0 .console .h (256 ^ 1), .csmaCcaEnd 0 false 256, .indirectEnqueue 0 1024, .childPoll 0 1024 {} 0 0, .childPoll 0 0 {} 256 0, .childPoll 0 0 {} 0 (2 ^ 32),
    .inactivityExpiry 0 (.station 512), .guardExpiry 0 1024 0, .lostPartnerListen 0 1024 false, .scanDwellEnd 0 1024 false,
    .scanIntervalExpiry 0 1024] : List Instr).all (fun i => !WellFormed i) = true := by
  decide +kernel

theorem test_ill_formed_6 : (
   [.assocRequest 0 .h 16 0 false, .assocRequest 0 .h 0 (2 ^ 48) false, .dwPoll 0 true 0 (2 ^ 32) {},
    .ebSend 0 { air := 2 ^ 32 }, .disassocReceived 0 512, .probeRequest 0 .h (2 ^ 256) 0,
    .probeRequest 0 .h 0 33, .twtSetup 0 512 0 false, .twtSetup 0 0 65536 false, .twtLeadStart 0 512, .twtSpStart 0 512 false,
    .tbtt 0 .h 16 {}, .tbtt 0 .h 0 { air := 2 ^ 32 }, .bssEnableWrite 0 (.can 128) .h 0 0, .bssEnableWrite 0 .console .h 16 0,
    .bssEnableWrite 0 .console .h 0 (256 ^ 1), .kick 0 (.can 128) 0, .kick 0 .console (2 ^ 32), .remove 0 (.can 128) 0,
    .remove 0 .console (2 ^ 32), .neighbourAdmit 0 (.can 128) 0 0, .neighbourAdmit 0 .console (2 ^ 32) 0,
    .neighbourAdmit 0 .console 0 (2 ^ 64), .caneAckReceived 0 0 .h (List.replicate 111 0),
    .caneAckReceived 0 32 .h [], .caneNackReceived 0 0 .h (List.replicate 51 0), .caneNackReceived 0 32 .h []] : List Instr).all (fun i => !WellFormed i) = true := by
  decide +kernel

theorem test_ill_formed_7 : (
   [.caneProbeReceived 0 32 .h [], .caneProbeReceived 0 0 .h (List.replicate 5 0), .ackDelayExpiry 0 32,
    .holdTimeExpiry 0 32 0, .holdTimeExpiry 0 0 16, .strandDeadTimeExpiry 0 32 .h, .probeIntervalExpiry 0 32 .h,
    .delete 0 (.can 128) 0, .delete 0 .console (2 ^ 32), .rekey 0 (.can 128) 0, .rekey 0 .console (2 ^ 32),
    .keyWrite 0 (.can 128) 0 0, .keyWrite 0 .console (2 ^ 32) 0, .keyWrite 0 .console 0 (256 ^ 32), .erase 0 (.can 128) 0,
    .erase 0 .console (2 ^ 32), .retiringKeyClear 0 2048, .jobRun 0 (.can 128), .offsetIn 0 (.can 128) 0 0,
    .offsetIn 0 .console 0 (256 ^ 24), .sourceWrite 0 (.can 128) 0 0, .sourceWrite 0 .console 0 (256 ^ 1),
    .presentSelWrite 0 (.can 128) 0, .presentSelWrite 0 .console (256 ^ 1), .stepAllowWrite 0 (.can 128) 0] : List Instr).all (fun i => !WellFormed i) = true := by
  decide +kernel

theorem test_ill_formed_8 : (
   [.stepAllowWrite 0 .console (256 ^ 1), .presentSet 0 (.can 128) 0, .presentSet 0 .console (256 ^ 14),
    .triggerEnable 0 (.can 128) 0 0, .triggerEnable 0 .console 0 (256 ^ 1), .lateRead 0 (.can 128) 0,
    .captureTimeRead 0 (.can 128) 0, .pop 0 (.can 128) 0, .overflowRead 0 (.can 128) 0, .timerCompareWrite 0 (.can 128) 0 0,
    .timerCompareWrite 0 .console 0 (256 ^ 4), .timerPeriodWrite 0 (.can 128) 0 0, .timerPeriodWrite 0 .console 0 (256 ^ 4),
    .globalGo 0 (.can 128), .countLowRead 0 (.can 128) 0, .eventsRead 0 (.can 128) 0, .dimLevelWrite 0 (.can 128) 0 0,
    .dimLevelWrite 0 .console 0 (256 ^ 1), .relayCommandWrite 0 (.can 128) 0 0, .relayCommandWrite 0 .console 0 (256 ^ 1),
    .daliSubmit 0 (.can 128) 0 0, .daliSubmit 0 .console (2 ^ 32) 0, .daliSubmit 0 .console 0 (256 ^ 1),
    .daliRowEnd 0 (.reply 256), .daliPoll 0 [(64, none)], .adcScanEnd 0 (List.replicate 13 4096)] : List Instr).all (fun i => !WellFormed i) = true := by
  decide +kernel

theorem test_ill_formed_9 : (
   [.adcScanEnd 0 (List.replicate 12 0), .canFrameReceived 0 2048 false [], .canFrameReceived 0 0 false (List.replicate 65 0),
    .alarmClear 0 (.can 128) 0, .alarmClear 0 .console (2 ^ 32), .alarmRaiseWrite 0 (.can 128) 0 0,
    .alarmRaiseWrite 0 .console (2 ^ 32) 0, .alarmRaiseWrite 0 .console 0 (256 ^ 1), .lehrRun 0 (.can 128),
    .strainSweepDone 0 (List.replicate 48 65536) false, .strainSweepDone 0 (List.replicate 47 0) false,
    .vcoreLimitWrite 0 (.can 128) 0 0 false, .vcoreLimitWrite 0 .console 256 0 false,
    .vcoreLimitWrite 0 .console 0 (256 ^ 4) false, .thermalCheck 0 32768 0 0 0, .thermalCheck 0 0 32768 0 0,
    .thermalCheck 0 0 0 32768 0, .thermalCheck 0 0 0 0 32768, .csWrite 0 (.can 128), .dramRequest 0 4 0 0 false false false,
    .dramRequest 0 0 18 0 false false false, .dramRequest 0 0 0 (2 ^ 40) false false false, .dramScrub 0 0 (2 ^ 40) false false,
    .xspiProgram 0 (.can 128), .xspiSectorErase 0 (.can 128), .xspiBlockErase 0 (.can 128)] : List Instr).all (fun i => !WellFormed i) = true := by
  decide +kernel

theorem test_ill_formed_10 : (
   [.xspiOpDone 0 4, .swapGo 0 (.can 128), .bootConfirm 0 (.can 128), .engineHalt 0 (.can 128) 0, .engineRun 0 (.can 128) 0,
    .engineResume 0 (.can 128) 0, .mouldRowWrite 0 (.can 128) 0 0 0 0, .mouldRowWrite 0 .console 0 (2 ^ 32) 0 0,
    .mouldRowWrite 0 .console 0 0 256 0, .mouldRowWrite 0 .console 0 0 0 (256 ^ 128), .reservedInstruction 0 0,
    .pauseQuantaExpiry 0 0 512, .calPeriodExpiry 0 .h 5 false, .engineEvent 0 0 19, .tapAccess 0 (.inspect 0 33), .tapAccess 0 (.readMem (2 ^ 40)), .brownoutEnd 0 7] : List Instr).all (fun i => !WellFormed i) = true := by
  decide +kernel

/-! ### Engines: words written out from the manual's formats (R440, R441, R454, R457, R459) -/

/-- SYS: NOP, TRAP 5, XRET, FENCE.D, CRD g3 from 12, CWR 11 from g4. -/
theorem test_words_sys :
    [0b00000000000000000000000000000000, 0b00000000101000000000000000000001, 0b00000000000000000000000000000011,
     0b00000000000000000000000000010010, 0b00000000011011000000000000100000, 0b00000001011001000000000000100001].map
      (fun w => decodeWord (BitVec.ofNat 32 w)) =
    [.nop, .trap 5, .xret, .fenceD, .crd 3 12, .cwr 11 4] := by decide +kernel

/-- ALU and MULDIV: ADC g1, g2, g3; CMP g2, g31; CLZ g4, g5; REMS g1, g2, g3; func 0x0E of the ALU is reserved. -/
theorem test_words_alu :
    [0b00000100001000100001100000000001, 0b00000100000000101111100000000100, 0b00000100100001010000000000001100,
     0b00101000001000100001100000000110, 0b00000100001000100001100000001110].map (fun w => decodeWord (BitVec.ofNat 32 w)) =
    [.adc 1 2 3, .cmp 2 31, .clz 4 5, .rems 1 2 3, .reserved 0b00000100001000100001100000001110] := by decide +kernel

/-- ADDI g1, g2, −1; CMPI g2, 3; XORI; SHI SAR by 9; MOVK g1 with h = 2. -/
theorem test_words_immediates :
    [0b00001000001000101111111111111111, 0b00001100000000100000000000000011, 0b00011000001000100000000011110000,
     0b00011100001000100000000010001001, 0b00100100001000100001001000110100].map (fun w => decodeWord (BitVec.ofNat 32 w)) =
    [.addi 1 2 0xFFFF, .cmpi 2 3, .xori 1 2 0xF0, .shiSar 1 2 9, .movk 1 2 0x1234] := by decide +kernel

/-- LD32S, LDACQ, ST8 and STREL with base and offset, and the atomics. -/
theorem test_words_memory :
    [0b01001000001000100000000000001000, 0b01011100001000101000000000000000, 0b01101100111000100000000000000001,
     0b01110000111000100000000000010000, 0b01110100001000100001100000000000, 0b01110100001000100001100000000010].map
      (fun w => decodeWord (BitVec.ofNat 32 w)) =
    [.ld32s 1 2 8, .ldacq 1 2 0x8000, .st8 7 2 1, .strel 7 2 16, .cas 1 2 3, .aswap 1 2 3] := by decide +kernel

/-- B.SLT back by one word, JAL, JALR, WFE, SEV g4, WUNTIL g5. -/
theorem test_words_control :
    [0b10000011011111111111111111111111, 0b10000100000000000000000000000100, 0b10001000001000100000000000000100,
     0b11100000000000000000000000000000, 0b11100000000001000000000000000001, 0b11100000000001010000000000000010].map
      (fun w => decodeWord (BitVec.ofNat 32 w)) =
    [.bCond 0xD 0x3FFFFF, .jal 4, .jalr 1 2 4, .wfe, .sev 4, .wuntil 5] := by decide +kernel

/-- DADD, DADD.X, DSUB.X, DADJ, and mould 13 with rd 1, ra 2, rb 3, IMM9 −1; majors 0x3A and 0x0B are reserved. -/
theorem test_words_profiles :
    [0b11100100001000100001100000000000, 0b11100100001000100001110000000000, 0b11100100001000100001110000000001,
     0b11100100001000100000000000000011, 0b11111101000010001000011111111111, 0b11101000000000000000000000000000,
     0b00101100000000000000000000000000].map (fun w => decodeWord (BitVec.ofNat 32 w)) =
    [.dadd 1 2 3, .daddX 1 2 3, .dsubX 1 2 3, .dadj 1 2, .mouldInstruction 13 1 2 3 0x1FF,
     .reserved 0b11101000000000000000000000000000, .reserved 0b00101100000000000000000000000000] := by decide +kernel

/-! ### Engines: what instructions leave -/

/-- Engine 0 about to execute, g1 and g2 as given. -/
def eng (a b : Word) : State := ((st full).setReg 0 1 a).setReg 0 2 b

/-- Engine 0 with its control state changed. -/
def engAs (f : Cpu → Cpu) (a b : Word) : State := { eng a b with blk := full.modCpu 0 f }

/-- The state that a command leaves. -/
def go (i : Instr) (s : State) : State :=
  match exec i s with
  | .next t => t
  | _ => s

/-- g3 of engine 0 and its flags, V lowest. -/
def shown (s : State) : Word × Nat := (s.reg 0 3, (s.blk.cpu 0).flags.word.toNat)

/-- g3, the flags and DCV. -/
def decimal (s : State) : Word × Nat × Nat := (s.reg 0 3, (s.blk.cpu 0).flags.word.toNat, (s.blk.cpu 0).dcv.toNat)

/-- The engine is ready: the condition of every statement about an instruction. -/
theorem witness_ready : (eng 1 2).ready 0 := ⟨by decide +kernel, by decide +kernel, by decide +kernel⟩

/-- −1 + 1 carries out of every nibble; the greatest positive number + 1 overflows; 0x0958 + 0x0275 of R458's example.
-/
theorem test_additions :
    decimal (go (.add 0 3 1 2) (eng (BitVec.allOnes 64) 1)) = (0, 0b10110, 0xFFFF) ∧
      shown (go (.addi 0 3 1 1) (eng 0x7FFFFFFFFFFFFFFF 0)) = (0x8000000000000000, 0b11001) ∧
      decimal (go (.add 0 3 1 2) (eng 0x0958 0x0275)) = (0x0BCD, 0, 0) ∧
      shown (go (.adc 0 3 1 2) (engAs (fun c => { c with flags := { c := true } }) 1 1)) = (3, 0) := by decide +kernel

/-- 0x42 − 0x17 of R458's example; an equal compare; 0 − 1 borrows; SBC with a borrow that comes in. -/
theorem test_subtractions :
    decimal (go (.sub 0 3 1 2) (eng 0x42 0x17)) = (0x2B, 0b00010, 0x1FFFE) ∧
      shown (go (.cmpi 0 1 5) (eng 5 0)) = (0, 0b10110) ∧
      decimal (go (.cmp 0 1 2) (eng 0 1)) = (0, 0b01000, 0x10000) ∧
      shown (go (.sbc 0 3 1 2) (eng 5 2)) = (2, 0b10010) := by decide +kernel

theorem test_logic_and_shifts :
    shown (go (.andi 0 3 1 0xFF00) (eng (BitVec.allOnes 64) 0)) = (0xFF00, 0) ∧
      shown (go (.clz 0 3 1) (eng 1 0)) = (63, 0) ∧ shown (go (.clz 0 3 1) (eng 0 0)) = (64, 0) ∧
      shown (go (.popc 0 3 1) (eng 0xF0F 0)) = (8, 0) ∧
      shown (go (.shr 0 3 1 2) (eng 3 65)) = (1, 0b10) ∧ shown (go (.shl 0 3 1 2) (eng 3 64)) = (3, 0) ∧
      shown (go (.shiSar 0 3 1 63) (eng 0x8000000000000000 0)) = (BitVec.allOnes 64, 0b01000) ∧
      shown (go (.shiRor 0 3 1 1) (eng 1 0)) = (0x8000000000000000, 0b01010) := by decide +kernel

/-- Division by 0, the overflow of DIVS, and truncation towards 0. -/
theorem test_products_and_quotients :
    shown (go (.mul 0 3 1 2) (eng 0x4000000000000000 2)) = (0x8000000000000000, 0b01001) ∧
      shown (go (.mulhs 0 3 1 2) (eng (-1) 5)) = (BitVec.allOnes 64, 0) ∧
      shown (go (.divu 0 3 1 2) (eng 7 0)) = (BitVec.allOnes 64, 0b01001) ∧
      shown (go (.divs 0 3 1 2) (eng 0x8000000000000000 (-1))) = (0x8000000000000000, 0b01001) ∧
      shown (go (.divs 0 3 1 2) (eng (-7) 2)) = (-3, 0b01000) ∧ shown (go (.rems 0 3 1 2) (eng (-7) 2)) = (-1, 0b01000) ∧
      shown (go (.remu 0 3 1 2) (eng 7 0)) = (7, 0b00001) := by decide +kernel

/-- MOVK keeps the other bits; g0 keeps 0; B.SLT back by one word; JALR with rd equal to ra. -/
theorem test_moves_and_branches :
    (go (.movk 0 1 2 0x1234) (eng 0xAAAAAAAAAAAAAAAA 0)).reg 0 1 = 0xAAAA1234AAAAAAAA ∧
      (go (.movz 0 0 0 7) (eng 0 0)).reg 0 0 = 0 ∧
      ((go (.bCond 0 0xD 0x3FFFFF) (engAs (fun c => { c with pc := 0xE000000008, flags := { n := true } }) 0 0)).blk.cpu 0).pc =
        0xE000000004#40 ∧
      ((go (.jalr 0 1 1 4) (eng 0x100 0)).blk.cpu 0).pc = 0x104#40 ∧
      (go (.jalr 0 1 1 4) (eng 0x100 0)).reg 0 1 = 0xE000000004 := by decide +kernel

/-- ESTATUS takes EPRIV, EXL and EF; XVEC drops its low bits; A reads the flags but not EPC. -/
theorem test_control_registers :
    (let c := (go (.cwr 0 11 1) (eng 0x2A06 0)).blk.cpu 0
     (c.epriv, c.exl, c.ef) = (2#2, true, 0x2A#8)) ∧
      ((go (.cwr 0 12 1) (eng 0x12345 0)).blk.cpu 0).xvec = 0x12000 ∧
      ((go (.cwr 0 1 1) (engAs (fun c => { c with priv := .f }) 0 0)).blk.cpu 0).ecause = 1 ∧
      ((go (.cwr 0 1 1) (engAs (fun c => { c with priv := .f }) 0 0)).blk.cpu 0).eaddr = 0x00210021 := by decide +kernel

/-! ### Engines: memory -/

/-- Engine 0 with octets at 0xE000000100 and their address in g1. -/
def engMem (b : Word) (l : List Octet) : State := { eng 0xE000000100 b with mem := memStore [] 0xE000000100 l }

/-- A sign-extended word with bit 31 set, least significant octet first; an address that is not a multiple of its
width. -/
theorem test_loads :
    (go (.ld32s 0 3 1 0) (engMem 0 [0x78, 0x56, 0x34, 0x92])).reg 0 3 = 0xFFFFFFFF92345678 ∧
      (go (.ld16u 0 3 1 0xFFFE) (engMem 0 [])).reg 0 3 = 0 ∧
      (let s := go (.ld32u 0 3 1 2) (engAs (fun c => { c with priv := .f }) 0xE000000100 0)
       ((s.blk.cpu 0).ecause, (s.blk.cpu 0).eaddr, (s.blk.cpu 0).exl, s.reg 0 3) = (5, 0xE000000102, true, 0)) ∧
      (full.placeOf 0 .m .load 0xE000000100 4).toOption = some .plain := by decide +kernel

/-- A store of 16 bits writes two octets and leaves its neighbours; an unmapped store raises UNMAPPED. -/
theorem test_stores :
    (go (.st16 0 2 1 2) (engMem 0x1234 [1, 2, 3, 4, 5])).mem = memStore [] 0xE000000100 [1, 2, 0x34, 0x12, 5] ∧
      (let s := go (.st8 0 2 1 0) (engAs (fun c => { c with priv := .f }) 0x1000000000 0)
       ((s.blk.cpu 0).ecause, (s.blk.cpu 0).eaddr) = (6, 0x1000000000)) := by decide +kernel

/-- CAS writes where the word equals rd and returns the old word; an atomic to DRAM is UNMAPPED. -/
theorem test_atomics :
    (let s := go (.cas 0 3 1 2) (engMem 9 [7])
     (s.reg 0 3, memGet s.mem 0xE000000100) = (7, 7#8)) ∧
      (let s := go (.aadd 0 3 1 2) (engMem 9 [7])
       (s.reg 0 3, memGet s.mem 0xE000000100) = (7, 16#8)) ∧
      ((go (.aswap 0 3 1 2) (engAs (fun c => { c with priv := .f }) 0x100000000 0)).blk.cpu 0).ecause = 6 := by decide +kernel

/-! ### Engines: exceptions, waits and profiles -/

/-- MCALL at A raises PRIV with its word, at F and entry through XVEC; a double exception halts and fences with cause
3. -/
theorem test_exceptions :
    (let s := go (.mcall 0) (st (((full.put (Obj.engAppletBase.eng 0) 0xE000000000).put (Obj.engAppletSize.eng 0) 0x100).modCpu 0
       fun c => { c with priv := .a, xvec := 0x400 }))
     let c := s.blk.cpu 0
     (c.ecause, c.eaddr, c.epc, c.priv, c.exl, c.pc) = (3, 2, 0xE000000000, .f, true, 0x4C0#40)) ∧
      (let s := go (.reservedInstruction 0 0x04000E0E) (engAs (fun c => { c with exl := true }) 0 0)
       ((s.blk.cpu 0).run, s.blk.get Obj.lastFenceCause, (s.blk.get Obj.fabricFenced).testBit 0) = (.fenced, 3, true)) ∧
      ((eng 0 0).fetched 0).blk.cpu 0 = full.cpu 0 ∧ (full.cpu 0).exl = false := by decide +kernel

/-- XRET restores flags, privilege and place. -/
theorem test_xret :
    let s := go (.xret 0) (engAs (fun c => { c with priv := .f, exl := true, epriv := 0, ef := 0b00110, epc := 0x1004 }) 0 0)
    let c := s.blk.cpu 0
    (c.priv, c.exl, c.flags.word.toNat, c.pc) = (.a, false, 6, 0x1004#40) := by decide +kernel

/-- WFE with E 1 goes on, with E 0 waits; WUNTIL of a time past goes on with C; SEV to engine 1. -/
theorem test_waits_and_events :
    ((go (.wfe 0) (engAs (fun c => { c with flags := { e := true } }) 0 0)).blk.cpu 0).flags.e = false ∧
      ((go (.wfe 0) (eng 0 0)).blk.cpu 0).run = .wfe ∧
      ((go (.wuntil 0 1) (eng 0 0)).blk.cpu 0).flags.c = true ∧
      ((go (.wuntil 0 1) (eng 5 0)).blk.cpu 0).run = .wuntil 5 ∧
      ((go (.sev 0 1) (eng 2 0)).blk.cpu 1).eventSrc = 1 ∧ ((go (.safept 0) (eng 0 0)).blk.cpu 0).run = .running ∧
      ((go (.safept 0) (engAs (fun c => { c with swapReq := true }) 0 0)).blk.cpu 0).run = .halted := by decide +kernel

/-- The three operations of R458's example. -/
theorem test_dadj_example :
    shown (go (.dadj 0 3 1) (engAs (fun c => { c with dcv := 0 }) 0x0BCD 0)) = (0x1233, 0) ∧
      shown (go (.dadj 0 3 1) (engAs (fun c => { c with dcv := 1 }) 0x0092 0)) = (0x0098, 0b10000) ∧
      shown (go (.dadj 0 3 1) (engAs (fun c => { c with dcv := 0x1FFFE, flags := { c := true } }) 0x002B 0)) = (0x0025, 0b00010) ∧
      (full.get (Obj.engProfiles.eng 0)).testBit 1 ∧ (full.get (Obj.engProfiles.eng 0)).testBit 0 := by decide +kernel

/-- 9,999,999,999,999,999 + 1 carries; 0 − 1 leaves the ten's complement; a digit above 9 raises BCD_DIGIT. -/
theorem test_decimal :
    shown (go (.dadd 0 3 1 2) (eng 0x9999999999999999 1)) = (0, 0b00110) ∧
      shown (go (.dsub 0 3 1 2) (eng 0 1)) = (0x9999999999999999, 0b01000) ∧
      shown (go (.dsubX 0 3 1 2) (eng 5 2)) = (2, 0b00010) ∧
      ((go (.dcmp 0 1 2) (engAs (fun c => { c with priv := .f }) 0xA 0)).blk.cpu 0).ecause = 10 := by decide +kernel

/-- Engine 0 with mould row 1 of one micro-operation, ADD rd := ra + rb. -/
def engMould (valid : Nat) : State :=
  let b := (full.put (Obj.mouldValid.eng 0) valid 1).put (Obj.mouldLength.eng 0) 1 1
  { eng 20 22 with blk := b.put (Obj.mouldUops.eng 0) (0x00004D0C * 256 ^ 124) 1 }

/-- The row runs as one instruction and counts in EXECUTED; without VALID it is ILLEGAL. -/
theorem test_mould_row :
    (let s := go (.mouldInstruction 0 1 3 1 2 0) (engMould 1)
     (s.reg 0 3, s.blk.get (Obj.mouldExecuted.eng 0) 1, uopWord (s.blk.get (Obj.mouldUops.eng 0) 1) 0) = (42, 1, 0x0C4D0000#32)) ∧
      (let s := go (.mouldInstruction 0 1 3 1 2 0) { engMould 0 with blk := (engMould 0).blk.modCpu 0 fun c => { c with priv := .f } }
       (s.reg 0 3, (s.blk.cpu 0).ecause) = (0, 1)) := by decide +kernel

/-! ### Supplies, resets and faults -/

/-- The block that a command leaves. -/
def run (c : Instr) (b : Block) : Block := left (exec c (st b))

/-- A device in Hibernate. -/
def asleep : Block := { mode := { mode := .hibernate } }

/-- A write by a port is taken at once and passes steps 1 to 10, as a truth value. -/
def admitted (b : Block) (p : Port) (idx sub row len v : Nat) (r : Reg) (k : Nat) : Bool :=
  b.portOpen p && (b.pointIdle && (b.checkWrite p idx sub row len v).toOption == some (r, k))

/-- A write that is admitted meets the conditions of the statements about writes. -/
theorem admitted_meets {b : Block} {p : Port} {idx sub row len v : Nat} {r : Reg} {k : Nat}
    (h : admitted b p idx sub row len v r k = true) :
    b.portOpen p = true ∧ b.pointIdle = true ∧ b.checkWrite p idx sub row len v = .ok (r, k) := by
  simp only [admitted, Bool.and_eq_true, beq_iff_eq] at h
  refine ⟨h.1, h.2.1, ?_⟩
  cases hc : b.checkWrite p idx sub row len v with
  | error e => simp [hc, Except.toOption] at h
  | ok x => simpa [hc, Except.toOption] using h.2.2

/-- A commit point that a held access keeps, a port that is not served and a write that is refused: the other
conditions of the statements about writes. -/
theorem witness_writes :
    (full.hold { port := .console, ask := .load 0, tier := 0 }).pointIdle = false ∧
      (full.hold { port := .console, ask := .load 0, tier := 0 }).portOpen .console ∧ asleep.portOpen .console = false ∧
      (full.checkWrite .console 0x0FFF 0 noRow 1 1).toOption = none := by decide +kernel

/-- RESET_N does not hold the devices of these tests, and nothing is left to their units. -/
theorem witness_not_frozen : full.frozen = false ∧ maint.frozen = false ∧ asleep.frozen = false ∧ full.quiet ∧ maint.quiet ∧ asleep.quiet ∧
    (full.tick 5).now = 5 := by decide +kernel

/-- Power comes with no wake active, and with the presence input active. -/
theorem test_furnace_supply :
    ((run (.vfurRise 0 0 []) {}).mode.mode, (run (.vfurRise 0 0 []) {}).mode.trans) = (.hibernate, .none) ∧
      (run (.vfurRise 7 2 []) {}).mode.waking = some 7 ∧ (full.tick 0).mode.mode ≠ .off ∧ (run (.vfurRise 0 0 []) full).mode = full.mode ∧
      (run (.vfurRise 0 0 [.word 0x20000000, .corrected]) {}).get Obj.mramCe = 1 ∧
      (run (.vfurFall 0) full).mode.mode = .off ∧ (run (.rtcCrystalStable 0) full).get Obj.rtcSource = 1 ∧
      (run (.rtcCrystalStop 0) full).get Obj.rtcSource = 0 := by decide +kernel

/-- A mains fail in Full Service goes to POWERFAIL_TARGET, its default and Day Watch; outside the mains modes only the
pin falls. -/
theorem test_power_fail :
    (let b := full.put Obj.powerfailTarget 1
     (b.mode.mode.mains, (run (.pfwNAssert 3) b).mode.target, (run (.pfwNAssert 3) b).mode.powerFailOwed) =
       (true, .hibernate, some [5, 1, 0, 0, 0, 0])) ∧
      (let b := full.put Obj.powerfailTarget 2
       ((run (.pwrOkFall 0) b).mode.mode, (run (.pwrOkFall 0) b).mode.trans) = (.dayWatch, .none)) ∧
      (run (.pwrOkFall 0) (mains .dayWatch)).pins.pwrOk = false ∧ (run (.pwrOkFall 0) (mains .dayWatch)).mode.mode = .dayWatch ∧
      ({ full with mode := { mode := .fullService, target := .fieldOnly, trans := .draining, drain := some { dawn := true, target := .fieldOnly, start := 0, deadline := 9 } } } :
        Block).drainHolds ∧
      (run (.pwrOkRise 0) { full with pins := { mainEn := true } }).pins.pwrOk := by decide +kernel

/-- PWR_OK rises in Hibernate, in Day Watch and in Field Only. -/
theorem test_power_returns :
    (let b := run (.pwrOkRise 0) asleep
     (b.mode.mode, b.mode.trans, b.get Obj.wakeCause, b.pins.mainEn)) = (.hibernate, .waking, 8, true) ∧
      (let b := run (.pwrOkRise 0) ({ mains .fieldOnly with pins := { mainEn := true } }.put Obj.nightTarget 4)
       (b.mode.mode, b.mode.trans)) = (.relay, .none) ∧
      (let b := ({ mains .dayWatch with pins := { mainEn := true } }.put Obj.nightTarget 4).pwrOkRise
       (b.mode.target, b.mode.trans)) = (.relay, .waking) := by decide +kernel

/-- A VIO rail is counted and changes no mode; VCORE makes a cold reset with source 8; the ends of the ranges of
rails. -/
theorem test_brownouts :
    (let b := run (.brownout 0 3 1500 2) full
     (b.mode.mode, b.pins.lowRails, b.get Obj.lastBrownoutRail, b.get Obj.brownouts) = (.fullService, [3], 3, 1)) ∧
      (run (.brownout 0 6 0 0) full).get Obj.lastBrownoutRail = 6 ∧
      (let b := run (.brownout 0 2 1500 2) full
       (b.mode.mode, b.mode.trans, b.get Obj.resetSource) = (.hibernate, .waking, 8)) ∧
      (run (.brownout 0 0 0 0) {}).mode.mode = .off ∧
      (run (.brownoutEnd 0 3) (run (.brownout 0 3 1500 2) full)).pins.lowRails = [] := by decide +kernel

/-- A cold reset through COLD_RESET in Maintenance: admitted, with source 3; RESTORE_DELAY outside Degraded Service
does nothing. -/
theorem test_resets :
    admitted (maint.tick 0) .console 0x1600 4 noRow 1 1 Obj.coldReset 0 ∧
      ((maint.coldReset 3).boot.map (·.kind), (maint.coldReset 3).get Obj.resetSource) = (some 0, 3) ∧
      admitted (maint.tick 0) .console 0x1600 3 noRow 1 1 Obj.warmReset 0 ∧
      ((maint.warmReset 2 [] 0).boot.map (·.kind), (maint.warmReset 2 [] 0).get Obj.resetSource) = (some 1, 2) ∧
      (run (.resetNAssert 0) full).pins.resetLow ∧ (run (.resetNRelease 0) asleep).pins.resetLow = false ∧
      full.mayRestore = false ∧ (run (.restoreDelayExpiry 9 [] 0) full).now = 9 := by decide +kernel

/-- The boot flash fails its self-check: fenced with cause 6, once; a stall of unit 0. -/
theorem test_fences :
    (let b := run (.unitSelfCheckFail 0 .flash) full
     (b.get Obj.fabricFenced, b.get Obj.lastFenced, b.get Obj.lastFenceCause, b.get Obj.unitFences) = (2 ^ 19, 19, 6, 1)) ∧
      (run (.fabricStallExpiry 0 18) full).get Obj.lastFenceCause = 1 ∧
      asleep.domainOn (unitDomain 5) = false ∧ (run (.fabricStallExpiry 0 5) asleep).get Obj.fabricFenced = 0 ∧
      (mains .relay).coreF ∧ (mains .relay).get Obj.fabricFenced = 0 ∧ (mains .relay).images.swap = none := by decide +kernel

/-- A device with DRAM up. -/
def withDram (state : Nat) : Block := { full with dram := { up := true } }.put Obj.dramState state

/-- The ends of the idle timers: each just run out, and one tick before. -/
theorem test_idle_timers :
    (run (.ethLinkChange 0 1 6) (full.put Obj.ethMode 4 1)).get Obj.ethLink 1 = 6 ∧ full.ethServes 1 ∧
      (run (.ethLinkChange 0 1 0) (full.put Obj.ethLink 6 1)).get Obj.ethLink 1 = 0 ∧ full.fwd.line.getD 1 none = none ∧
      (run (.ethIdleExpiry (secs (full.get Obj.ethIdle)) 0) full).fwd.low = [true, false] ∧
      (run (.ethIdleExpiry (secs (full.get Obj.ethIdle) - 1) 0) full).fwd.low = [false, false] ∧
      full.radioOn .h ∧ full.radioAsked .h = false ∧ (full.radio .h).inPpdu = false ∧
      (run (.dramIdleExpiry (us (full.get Obj.dramIdle))) (withDram 1)).dram.entering = some (us (full.get Obj.dramIdle)) ∧
      (withDram 1).dramActive ∧
      (run (.dramSelfRefreshExit 0) { withDram 2 with dram := { up := true, waking := true } }).get Obj.dramState = 1 := by
  decide +kernel

/-- The chip idle timer of Field Only just run out, and one tick before. -/
theorem test_chip_idle :
    (let b := { mains .fieldOnly with pins := { mainEn := true } }.put Obj.chipIdleModes 8
     let t := secs (b.get Obj.chipIdleTime)
     ((run (.chipIdleExpiry t) b).mode.trans, (run (.chipIdleExpiry t) b).mode.entry,
       (run (.chipIdleExpiry (t - 1)) b).mode.trans)) = (.entering, some { start := secs (asleep.get Obj.chipIdleTime) }, .none) := by
  decide +kernel

/-! ### Modes, wakes, presence and the seal -/

/-- Requests: 6 outside Maintenance; another target in a transition; the mode in force; out of Maintenance; without
mains. -/
theorem test_mode_requests :
    full.requestMode 6 = (6, full) ∧
      (let b := { full with mode := { mode := .fullService, trans := .draining, target := .relay } }
       b.requestMode 5 = (9, b)) ∧
      (full.requestMode 5).1 = 0 ∧ (let b := maint.put Obj.maintBase 5; b.requestMode 1 = (9, b)) ∧
      (let b := { mains .dayWatch with pins := { mainEn := true } }; b.requestMode 4 = (9, b)) ∧
      (full.requestMode 3).2.mode.drain = some { dawn := true, target := .fieldOnly, start := 0,
                                                 deadline := secs (full.get Obj.drainLead) } ∧
      (full.requestMode 4).2.mode.trans = .draining ∧
      ((mains .relay).requestMode 5).2.mode.mode = .fullService ∧ (mains .relay).get Obj.lehrStep ≠ 4 ∧
      ((mains .dayWatch).requestMode 1).2.mode.entry = some { start := 0 } ∧
      ((mains .dayWatch).requestMode 3).2.mode.target = .fieldOnly ∧ ((mains .fieldOnly).requestMode 2).2.mode.mode = .dayWatch ∧
      ((mains .fieldOnly).requestMode 4).2.mode.mode = .relay ∧ ((mains .dayWatch).requestMode 4).2.mode.trans = .waking ∧
      ((maint.put Obj.maintBase 6).requestMode 6).2.mode.mode = .fullService ∧
      ((maint.put Obj.maintBase 4).requestMode 4).2.mode.mode = .relay ∧
      admitted (full.tick 0) .console 0x1300 2 noRow 1 2 Obj.modeRequest 0 := by decide +kernel

/-- A drain toward a mode before or after its acceptance closes, with nothing held. -/
def drainOf (closed dawn : Bool) (target : Mode) : Block :=
  { full with mode := { mode := .fullService, trans := .draining, acc := { station := true, eth := true }
                        drain := some { dawn := dawn, target := target, start := 0, deadline := 100
                                        closedAt := if closed then some 0 else none } } }

/-- A schedule whose dawn lies DRAIN_LEAD and whose dusk DUSK_LEAD from now. -/
def scheduled (b : Block) : Block :=
  (((b.put Obj.schedEnable 1).put Obj.schedValid 1).put Obj.schedDawn (b.get Obj.drainLead)).put Obj.schedDusk (b.get Obj.duskLead)

theorem test_drains :
    (let b := run (.dawnDrainStart 2) (scheduled full)
     (b.mode.trans, b.mode.drain.map (·.deadline), b.mode.drain.map (·.cause))) =
       (.draining, some (2 + secs (full.get Obj.drainLead) - 2), some 1) ∧
      (run (.dawnDrainStart 0) full).mode.trans = .none ∧
      ((run (.dawnDrainStart 0) (scheduled (drainOf false false .relay))).mode.drain.map (·.dawn)) = some true ∧
      (run (.drainAcceptanceClose (secs (full.get Obj.announceTime))) (drainOf false false .relay)).mode.acc = { eth := true } ∧
      ((run (.drainAcceptanceClose (secs (full.get Obj.announceTime) - 1)) (drainOf false true .relay)).mode.drain.map (·.closed)) =
        some false ∧
      ((run (.drainGuardDeadline 0) (drainOf true true .dayWatch)).mode.drain.map (·.guardAt)) = some (some 0) ∧
      (run (.drainComplete 0) (drainOf true true .dayWatch)).mode.mode = .dayWatch ∧ (drainOf true true .dayWatch).frames = [] ∧
      (run (.drainComplete 0) (drainOf true true .hibernate)).mode.trans = .entering ∧
      (run (.drainComplete 0) full).mode.mode = .fullService := by decide +kernel

/-- A wake from the presence input, from a pin at its level and from one that is not; one that is not enabled; before
and after the commit point of an entry; in a running mode. -/
theorem test_wakes :
    (let x := run (.wakeEvent 3 1 0) asleep
     (x.mode.trans, x.mode.waking, x.pins.mainEn, x.get Obj.wakeCause, x.get Obj.wakeCount)) = (.waking, some 3, true, 2, 1) ∧
      (run (.wakeEvent 0 4 0) (asleep.put Obj.wakeEnable 0)).mode.trans = .none ∧
      (run (.wakeEvent 0 5 1) (((asleep.put Obj.wakeEnable 32).put Obj.wakeGpioMask 1).put Obj.wakeGpioLevel 1)).mode.trans = .waking ∧
      (run (.wakeEvent 0 5 0) (((asleep.put Obj.wakeEnable 32).put Obj.wakeGpioMask 1).put Obj.wakeGpioLevel 1)).mode.trans = .none ∧
      (run (.wakeEvent 0 3 0) asleep).mode.target = Mode.ofNum (asleep.get Obj.nightTarget) ∧
      (run (.duskAlarm 0) (scheduled (asleep.put Obj.wakeEnable 1))).mode.trans = .waking ∧
      (run (.duskAlarm 0) (asleep.put Obj.wakeEnable 1)).mode.trans = .none ∧
      (run (.wakeAlarmDelayExpiry (secs 1)) ((asleep.put Obj.wakeEnable 1).put Obj.wakeAlarmDelay 1)).mode.trans = .waking ∧
      (run (.wakeAlarmDelayExpiry (secs 1 - 1)) ((asleep.put Obj.wakeEnable 1).put Obj.wakeAlarmDelay 1)).mode.trans = .none ∧
      (run (.wakeEvent 0 1 0) { mains .dayWatch with mode := { mode := .dayWatch, trans := .entering, entry := some { start := 0 } } }).get
        Obj.entryAbandoned = 1 ∧
      (run (.wakeEvent 0 2 0) { mains .dayWatch with mode := { mode := .dayWatch, trans := .entering
                                                               entry := some { start := 0, committed := true } } }).mode.held = 4 ∧
      (run (.wakeEvent 0 1 0) full).mode = full.mode := by decide +kernel

/-- A device that waits for its rails. -/
def waking : Block := { asleep with mode := { mode := .hibernate, trans := .waking, target := .dayWatch, waking := some 0 } }

/-- Rails good starts it, here held in reset by a low rail so that the start waits; RAIL_TIMEOUT, when it has run out,
does not. -/
theorem test_rails :
    (let x := run (.railsGood 0 true) { waking with pins := { lowRails := [0] } }
     (x.boot.map (·.kind), x.get Obj.resetSource, x.get Obj.resetKind, x.mode.waking)) = (some 0, 9, 0, none) ∧
      (let x := run (.railTimeoutExpiry (ms (waking.get Obj.railTimeout))) waking
       (x.mode.trans, x.pins.mainEn, x.get Obj.lastBrownoutRail, x.get Obj.railFails)) = (.none, false, 15, 1) ∧
      (run (.railTimeoutExpiry 0) full).mode = full.mode := by decide +kernel

/-- A device whose PRESENCE_N has been low since tick 0. -/
def held (b : Block) : Block := { b with pins := { b.pins with presenceLow := some 0 } }

theorem test_presence :
    (let x := run (.presencePress (ms 500)) (held full)
     (x.window, x.get Obj.presenceSeq, x.pins.pressed)) = (some (ms 500 + secs (full.get Obj.presenceWindow)), 1, true) ∧
      (let x := run (.presencePress (ms 500)) { held full with pins := { (held full).pins with maintFitted := true } }
       (x.mode.mode, x.get Obj.maintBase)) = (.maintenance, 5) ∧
      (run (.presencePress (ms 500 - 1)) (held full)).window = none ∧
      (run (.presencePress (ms 500)) (held (drainOf true true .dayWatch))).mode.held = 2 ∧
      (drainOf true true .dayWatch).drainHolds ∧
      (run (.presenceLongHold (secs 10)) (held { full with window := some (secs 20) })).pins.presenceStuck ∧
      (run (.presenceLongHold (secs 10 - 1)) (held full)).pins.presenceStuck = false ∧
      (run (.presenceWindowExpiry 5) { full with window := some 5 }).window = none ∧
      (run (.presenceWindowExpiry 4) { full with window := some 5 }).window = some 5 ∧
      (run (.presenceNEdge 2 true) full).pins.presenceLow = some 2 ∧ (run (.presenceNEdge 2 false) (held full)).pins.presenceLow = none ∧
      admitted (maint.tick 0) .console 0x1100 5 noRow 1 1 Obj.presenceClose 0 ∧
      (run (.maintNFitted 0) { full with window := some 9 }).mode.mode = .maintenance ∧
      (run (.maintNFitted 0) full).mode.mode = .fullService ∧
      (run (.maintNRemoved 0) (maint.put Obj.maintBase 5)).mode.mode =
        .fullService := by decide +kernel

/-- A word with 4 ones at least; a loop that follows it, and one that stays low. -/
def sealSamples : List Bool := (List.range 16).map fun k => chipAt 0 0x0F0F k

/-- The seal enabled in a given state, without Manchester coding. -/
def sealed (state : Nat) (confirm : Option Nat) (passes : Nat) : Block :=
  { ((maint.put Obj.sealEnable 1).put Obj.sealCoding 0).put Obj.sealState state with sealing := { confirm, passes } }

theorem test_seal :
    sealWord 0x0F0F ∧ sealWord 0x000F ∧ ¬ sealWord 0x0007 ∧
      (run (.sealCheck 0 0x0F0F sealSamples) (sealed 0 none 0)).get Obj.sealState = 1 ∧
      (run (.sealCheck 0 0x0F0F []) (sealed 1 none 0)).sealing.confirm = some (ms 10) ∧
      (run (.sealCheck 0 0x0F0F []) { sealed 1 none 0 with sealing := { nextCheck := 1 } }).sealing = { nextCheck := 1 } ∧
      (run (.sealCheck 0 0x0F0F sealSamples) (sealed 2 none 1)).sealing.passes = 2 ∧
      (run (.sealCheck 0 0x0F0F sealSamples) (sealed 2 none 2)).get Obj.sealState = 1 ∧
      (run (.sealCheck 0 0x0F0F []) (sealed 2 none 2)).sealing.passes = 0 ∧
      (run (.sealConfirmCheck 0 0x0F0F sealSamples) (sealed 1 (some 0) 0)).get Obj.sealState = 1 ∧
      (let x := run (.sealConfirmCheck 0 0x0F0F (List.replicate 16 false)) (sealed 1 (some 0) 0)
       (x.get Obj.sealState, x.get Obj.sealTripped, x.get Obj.sealEvents, x.get Obj.sealLastCause)) = (2, 1, 1, 1) ∧
      admitted (maint.tick 0) .console 0x1101 7 noRow 1 1 Obj.sealClear 0 ∧
      admitted (maint.tick 0) .console 0x1101 1 noRow 1 1 Obj.sealEnable 0 := by
  refine ⟨by unfold sealWord; decide +kernel, by unfold sealWord; decide +kernel, by unfold sealWord; decide +kernel, ?_⟩
  decide +kernel

/-- A blank slot takes a hash; a mismatch leaves state 2; the last active slot is not revoked. -/
theorem test_keys_and_rollback :
    (let x := full.writeKeyHash 0 7 true
     (x.1, x.2.get Obj.slotKeyState 0, x.2.get Obj.slotKeyHash 0, x.2.get Obj.sbEnforced)) = (0, 1, 7, 1) ∧
      (full.writeKeyHash 3 7 false).1 = 9 ∧
      ((full.writeKeyHash 0 7 true).2.writeRevoke 0 1).1 = 9 ∧
      (let b := (full.writeKeyHash 1 8 true).2.writeKeyHash 0 7 true
       ((b.2.put Obj.bootKeyUsed 1).writeRevoke 0 1).2.get Obj.slotKeyState 0) = 2 ∧
      ((full.put Obj.runningSecVersion 64).writeRollback 64).2.get Obj.rollback = 64 ∧
      (full.writeRollback (full.get Obj.rollback)).1 = 6 ∧
      admitted (maint.tick 0) .console 0x1610 3 3 1 1 Obj.slotRevoke 3 ∧
      admitted (maint.tick 0) .console 0x1611 3 noRow 1 1 Obj.rollbackSet 0 := by decide +kernel

theorem test_debug_port :
    admitted (maint.tick 0) .console 0x1612 2 noRow 1 1 Obj.debugUnlock 0 ∧
      (full.debugSet 2).get Obj.debugState = 2 ∧ admitted (maint.tick 0) .console 0x1008 3 noRow 16 5 Obj.ownerId 0 ∧
      (maint.writeBinding Obj.ownerId 5).2.get Obj.bindingSeq = 1 ∧ full.coreF ∧ full.get Obj.debugState = 0 ∧
      programsFuses 0x10 = false := by decide +kernel

/-! ### The dictionary and Plais -/

/-- The result that a write's checks give, 0 when all pass. -/
def refusal (b : Block) (p : Port) (idx sub row len v : Nat) : Nat :=
  match b.checkWrite p idx sub row len v with
  | .error e => e
  | .ok _ => 0

/-- One write for each step of the checks: no index, no subindex, no row, a domain off, READ_ONLY, no window, no
jumper, the length and the range. -/
theorem test_checks :
    refusal full .console 0x0FFF 1 noRow 1 1 = 1 ∧ refusal full .console 0x1300 99 noRow 1 1 = 2 ∧
      refusal full .console 0x6500 1 32 1 1 = 11 ∧ refusal (mains .dayWatch) .console 0x5010 3 noRow 1 1 = 10 ∧
      refusal full .console 0x1300 1 noRow 1 1 = 3 ∧ refusal full .console 0x1600 4 noRow 1 1 = 7 ∧
      refusal { full with window := some 0 } .console 0x1612 2 noRow 1 1 = 8 ∧
      refusal full .console 0x1300 2 noRow 2 1 = 5 ∧ refusal full .console 0x1300 2 noRow 1 7 = 6 ∧
      refusal full .console 0x1300 2 noRow 1 6 = 0 ∧ full.mode.entry = none ∧ full.recovery = false := by decide +kernel

/-- A write that passes sets its object and is answered; one that fails answers its code; one while Core-F is off does
nothing. -/
theorem test_writes :
    (let x := run (.dictWrite 0 .console 0x1302 1 noRow 4 77) full
     (x.get Obj.chipIdleTime, x.outs)) = (77, [.result .console 0 0]) ∧
      (run (.dictWrite 0 .console 0x1300 1 noRow 1 1) full).outs = [.result .console 3 0] ∧
      (run (.dictWrite 0 .console 0x1302 1 noRow 4 77) asleep).outs = [] ∧ full.portOpen .console ∧ asleep.portOpen .console = false ∧
      admitted (maint.tick 0) .console 0x1540 1 noRow 4 10000 Obj.fabricStallLimit 0 ∧
      refusal (maint.tick 0) .console 0x1022 1 1023 2 0xA000 = 0 ∧
      admitted (maint.tick 0) .console 0x1011 7 noRow 1 1 Obj.defaultsRestore 0 ∧
      full.ofKey (Obj.chipIdleTime.key 0) = some (Obj.chipIdleTime, 0) ∧ restores false Obj.chipIdleTime ∧
      restores true Obj.coldReset = true ∧ restores false Obj.brownouts = false := by decide +kernel

/-- Engine 0 at M stores 1 to CHIP_IDLE_TIME with its width and with another; an access of width 3 at offset 1. -/
theorem test_window_stores :
    (run (.windowStore 0 0 0xF001302010 4 11) full).get Obj.chipIdleTime = 11 ∧
      (run (.windowStore 0 0 0xF001302010 2 11) full).get Obj.chipIdleTime = full.get Obj.chipIdleTime ∧
      (run (.windowStore 0 0 0xF001302011 1 11) full).get Obj.chipIdleTime = full.get Obj.chipIdleTime ∧
      (run (.windowStore 0 0 0xE000000000 4 11) full).get Obj.chipIdleTime = full.get Obj.chipIdleTime ∧
      (st full).storeFault 0 0xF001302010 4 = none ∧ inWindow 0xF00FFFFFFF ∧ inWindow 0xF010000000 = false := by decide +kernel

/-- CRC-16 of the check string "123456789" with polynomial 0x1021 and initial value 0xFFFF is 0x29B1; its CRC-32 is
0xCBF43926. -/
theorem test_crc_check_values :
    crc16 ([0x31, 0x32, 0x33, 0x34, 0x35, 0x36, 0x37, 0x38, 0x39] : List Octet) = 0x29B1 ∧
      crc32 ([0x31, 0x32, 0x33, 0x34, 0x35, 0x36, 0x37, 0x38, 0x39] : List Octet) = 0xCBF43926 := by decide +kernel

/-- A message with a zero octet survives its frame; a frame whose CRC fails is counted. -/
theorem test_console :
    consoleMessage (consoleFrame [1, 0, 2]) = some [1, 0, 2] ∧
      (run (.consoleFrameReceived 0 [2, 7, 0]) full).get Obj.frameDiscard = 1 ∧
      consoleMessage [2, 7, 0] = none ∧ (run (.plaisRequest 0 .console 0 0 [0, 0]) full).get Obj.frameDiscard = 1 := by decide +kernel

/-- A repeat finds its response; a request whose LEN is not its body's gets the malformed answer. -/
theorem test_requests :
    ((full.cacheResponse .console 5 [9]).cached .console 5).map (·.msg) = some [9] ∧
      (full.cacheResponse .console 5 [9]).cached .console 6 = none ∧ full.cached .console 5 = none ∧
      0 < secs (full.get Obj.respCacheTime) ∧
      (run (.respCacheExpiry (secs (full.get Obj.respCacheTime)) .console 5) (full.cacheResponse .console 5 [9])).cached .console 5 = none ∧
      portDest .console = some .console := by decide +kernel

/-- Counters 70, 6 and 7: 6 is 64 below the highest and is refused, 7 is accepted once. -/
theorem test_counters :
    ((AuthRec.accept none 70).bind fun a => AuthRec.accept (some a) 6) = none ∧
      ((AuthRec.accept none 70).bind fun a => (AuthRec.accept (some a) 7).map (·.highest)) = some 70 ∧
      ((AuthRec.accept none 70).bind fun a => (AuthRec.accept (some a) 7).bind fun c => AuthRec.accept (some c) 7) = none := by
  decide +kernel

/-- A request on the console that writes CHIP_IDLE_TIME leaves it with its value and is answered in one frame. -/
theorem test_plais_write :
    (let h : Header := { type := 0, tid := 7, len := 18 }
     let body : List Octet := [2#8, 0#8, 0x13#8, 0x02#8, 1#8, 0#8] ++ octetsBE 4 noRow ++ octetsBE 2 0 ++ octetsBE 2 4 ++ octetsBE 4 77
     let x := run (.plaisRequest 0 .console 0 0 (h.octets ++ body)) full
     (x.get Obj.chipIdleTime, (x.cached .console 7).isSome, x.outs.length)) = (77, true, 1) := by decide +kernel

/-- The timers of Plais just run out, and one tick before; an acknowledgement of the oldest notice. -/
theorem test_plais_timers :
    (let n : Notice := { seq := 3, code := 1, index := 0, sub := 0, row := 0, time := 0, lost := 0, payload := [], sentAt := some 0 }
     let b : Block := { full with plais :=
       { full.plais with asm := [⟨5, 2, 0, 1, []⟩], queues := [{ dest := .console, queue := [n] }] } }
     let again := ms (full.get Obj.noticeRetry)
     ((run (.canMessageTimeout (ms 100) 5 2) b).get Obj.frameDiscard, (run (.canMessageTimeout (ms 100 - 1) 5 2) b).get Obj.frameDiscard,
       (run (.noticeRetryExpiry again .console) b).outs.length, (run (.noticeRetryExpiry (again - 1) .console) b).outs.length,
       ((run (.noticeAckReceived 0 .console 3) b).plais.queueOf .console).queue,
       ((run (.noticeAckReceived 0 .console 2) b).plais.queueOf .console).queue.length)) = (1, 0, 1, 0, [], 1) := by decide +kernel

/-- A datagram that is too long, one without a header, and one that names a sealed context before adoption. -/
theorem test_datagrams :
    (let b := full.put Obj.udpEnable 1
     let h : Header := { type := 0, tid := 7, len := 0, long := true }
     (b.portOpen (.udp 0), (run (.udpDatagramReceived 0 1 2 (List.replicate 1425 0)) b).get Obj.frameDiscard,
       (run (.udpDatagramReceived 0 1 2 []) b).get Obj.frameDiscard,
       (b.authentic { h with sec := true } []).isNone, (b.authentic h (List.replicate 16 0)).isSome)) = (true, 1, 1, true, true) := by
  decide +kernel

/-! ### Ethernet, reception, classification, rings and flushes -/

/-- A frame of 100 octets from a station, or from a port. -/
def frame (id : Nat) (ctx : Ctx) : Frame := { id := id, ctx := ctx, pkt := { len := 100 }, at_ := 0 }

/-- Full Service with both Ethernet links up, every ingress open, and some frames held. -/
def traffic (l : List Frame) : Block :=
  let b := ((full.put Obj.ethMode 1 0).put Obj.ethLink 3 0).put Obj.ethLink 3 1
  { b with mode := { mode := .fullService, acc := ⟨true, true, true, true, true, true⟩ }, frames := l, nextFrame := 7 }

/-- A frame with a bad FCS, one that is too long, a PAUSE of 9 quanta and its end, one that is accepted, and one whose
start found acceptance closed. -/
theorem test_eth_frames :
    (traffic []).ethUp 0 ∧ full.ethUp 0 = false ∧ (run (.ethFrameReceived 0 0 {} false none) (traffic [])).get Obj.ethRxFcsDrop = 1 ∧
      (run (.ethFrameReceived 0 0 { len := 65535 } true none) (traffic [])).get Obj.ethRxLongDrop = 1 ∧
      (let b := run (.ethFrameReceived 0 0 {} true (some [(8, 9)])) ((traffic []).put Obj.ethFlowCtrl 1 0)
       let k := b.quantaTicks 0 9
       (b.fwd.paused, (run (.pauseQuantaExpiry k 0 256) b).fwd.paused, (run (.pauseQuantaExpiry (k - 1) 0 256) b).fwd.paused)) =
        ([[(8, 590)], []], [[], []], [[(8, 590)], []]) ∧
      ((run (.ethFrameReceived 0 1 { len := 99 } true none) (traffic [])).frames.map fun f => (f.id, f.pkt.len, f.queue)) =
        [(7, 99, 8191)] ∧
      (run (.ethFrameReceived 0 1 {} true none) { traffic [] with mode := full.mode }).frames = [] := by decide +kernel

/-- Port 0 takes the frame of its queue 0 and the end of the line delivers it; a mode that Ethernet 2 excludes. -/
theorem test_eth_line :
    (let b := run (.ethTxStart 0 0) ((traffic [{ frame 5 (.eth 1 0 0) with queue := 4096, released := true }]).put Obj.queueBind 0 4096)
     (b.fwd.line, b.outs, (run (.ethTxEnd 0 0) b).frames, (run (.ethTxEnd 0 0) b).get Obj.ethTxFrames)) =
       ([some 5, none], [.frame 4096 5], [], 1) ∧
      (run (.ethTxStart 0 0) (traffic [])).fwd.line = [none, none] ∧ (run (.ethTxEnd 0 1) (traffic [])).frames = [] ∧
      ((traffic []).writeEthMode Obj.ethMode 1 2).1 = 6 ∧
      admitted { traffic [] with window := some 0 } .console 0x4000 1 1 1 0 Obj.ethMode 1 ∧
      (run (.pauseRefresh 0 0) (traffic [])).outs = [] ∧ (traffic []).xoffNow 0 = 0 := by decide +kernel

/-- A queue with a frame and its shaper, whose tokens stand at 0 and below. -/
def shaping (tokens : Int) : Block :=
  let b := (traffic [{ frame 5 (.eth 0 0 0) with queue := 4096 }]).put Obj.queueShaper 3 4096
  { b with fwd := { b.fwd with round := [4096], shap := [(3, ⟨tokens, 0⟩)] } }

/-- A shaper in front of a queue with a frame: its tokens are charged the counted length. -/
theorem test_shaper :
    ((shaping 0).shaperNext 3).map (·.id) = some 5 ∧ (run (.shaperRelease 0 3) (shaping 0)).frames.map (·.released) = [true] ∧
      (run (.shaperRelease 0 3) (shaping (-1))).frames.map (·.released) = [false] ∧
      (run (.shaperRelease 0 0) (traffic [])).fwd.shap = [] := by decide +kernel

/-- Station row 0 of radio H, admitted. -/
def withStation (l : List Frame) : Block := ((traffic l).put Obj.staState 2 0).put Obj.staAddr 0x020000000001 0

/-- R182's example: the header word and the length on air of its frame; the first chips of R177. -/
theorem test_reach_frame :
    reachHeader false true 2 41 = 0x18002907 ∧ reachHeaderOk 2 0x18002907 ∧ reachHeaderOk 1 0x18002907 = false ∧
      reachAir 32 2 41 = 258560 ∧ reachAir 32 0 41 = 64640 ∧ reachChips.length = 128 ∧
      reachChips.take 14 = [true, true, true, true, true, true, true, false, false, false, false, false, false, true] := by
  decide +kernel

/-- Radio H receiving since tick 0 on a branch, its header still to come. -/
def hearing : Block := (traffic []).modRadio .h fun u => { u with rx := some { branch := 0, power := -200, at_ := 0 } }

/-- A sync owns an idle receiver, a stronger one captures it; a header that fails frees it and counts, an unsupported
one and one without a length are counted; a good one reserves; the oldest landed frame moves out. -/
theorem test_reception :
    (traffic []).radioOn .h ∧ (traffic []).isBlanked .h false = false ∧ (traffic []).blinded .h false = false ∧
      ((run (.rxSyncConfirm 0 .h 0 { power := -200, gains := [0, 0, 0, 0] }) (traffic [])).radio .h).rx.isSome ∧
      (run (.rxSyncConfirm 5 .h 0 { power := 0, gains := [0, 0, 0, 0] }) (hearing.put (Obj.captureEnable.of .h) 1)).get
        (Obj.rxCaptured.of .h) = 1 ∧
      (run (.rxHeaderDecoded 0 .h { form := {}, ok := false }) hearing).get (Obj.rxHdrFail.of .h) = 1 ∧
      (run (.rxHeaderDecoded 0 .h { form := { format := 99 } }) hearing).get (Obj.rxUnsupported.of .h) = 1 ∧
      (run (.rxHeaderDecoded 0 .h { form := {}, len := 0 }) hearing).get (Obj.rxLength.of .h) = 1 ∧
      (((run (.rxHeaderDecoded 0 .h { form := {}, len := 100 }) hearing).radio .h).rx.map fun y => (y.head.isSome, y.reserved)) =
        some (true, true) ∧
      (run (.rxPpduEnd 0 .h {} []) (traffic [])).frames = [] ∧
      ((run (.landingDrain 0 .h) (traffic [{ frame 5 (.station 0 0) with landed := some .h }])).frames.map (·.landed)) = [none] := by
  decide +kernel

/-- An MPDU of station row 0, in a PPDU of Radio H that begins now with its space reserved. -/
def newMpdu : RxMpdu := { sender := .station 0, body := .data { len := 100 }, seq := 9, ackReq := false }

/-- The PPDU of that MPDU. -/
def seen : PpduSeen := { r := .h, m1 := false, start := 0, first := 0, room := true, ack := { what := .ack [] false } }

/-- The responder: a frame whose FCS fails, a stranger's, a new one and its repeat. -/
theorem test_responder :
    (((withStation []).respond seen { newMpdu with fcsOk := false }).1 = .none) ∧
      (((withStation []).heardFrom seen newMpdu).senderKnown .h false newMpdu) ∧
      (full.respond seen { newMpdu with sender := .stranger }).1 = .none ∧ ((withStation []).respond seen newMpdu).1 = .marked ∧
      (((withStation []).respond seen newMpdu).2.respond seen newMpdu).1 = .again := by decide +kernel

/-- A frame without a route is discarded; flows and learned rows go free, static ones and idle 0 stay. -/
theorem test_classification :
    (let b := traffic [frame 5 (.eth 0 0 0)]
     ((run (.classifyFrame 0 5) b).frames, (run (.classifyFrame 0 5) b).get Obj.classDiscard, b.mayClassify (frame 5 (.eth 0 0 0)))) =
       ([], 1, true) ∧
      (run (.classifyFrame 0 6) (traffic [])).get Obj.classDiscard = 0 ∧
      (let b := (full.put Obj.flowValid 1 16383).put Obj.flowIdle 1 16383
       (run (.flowIdleExpiry (secs 1) 16383) b).get Obj.flowValid 16383) = 0 ∧
      (run (.flowIdleExpiry 0 3) (full.put Obj.flowValid 1 3)).get Obj.flowValid 3 = 1 ∧
      (run (.bridgeAgeExpiry (secs (full.get Obj.bridgeAge4301)) 4095) (full.put Obj.bridgeState 1 4095)).get Obj.bridgeState 4095 = 0 ∧
      (run (.bridgeAgeExpiry 0 2) (full.put Obj.bridgeState 2 2)).get Obj.bridgeState 2 = 2 := by decide +kernel

/-- Ethernet frames in bridge domain 5, whose row 1 sends 02:00:00:00:00:09 to queue 4097; port 0 routes what comes to
02:00:00:00:00:01. -/
def switching (p : Packet) : Block :=
  let c : Ctx := .eth 0 0 0
  let b := traffic [{ frame 5 c with pkt := p }]
  let b1 := (((b.put Obj.ictxKind (b.ctxKind c).1 2).put Obj.ictxKey 0xFFFE 2).put Obj.ictxBd 5 2).put Obj.ictxLearn 0 2
  ((((b1.put Obj.bridgeState 2 1).put Obj.bridgeBd 5 1).put Obj.bridgeMac 0x020000000009 1).put Obj.bridgeDestKind 1 1).put
    Obj.bridgeDest 4097 1 |>.put Obj.ethRouterMac 0x020000000001 0

/-- The frame is bridged to its queue; an IP packet to the router without a route goes to the miss queue with
exception 2. -/
theorem test_bridged_and_routed :
    (let b := switching { dst := 0x020000000009, len := 100 }
     (b.ctxZone (.eth 0 0 0), b.bridgeRow 5 0x020000000009, (run (.classifyFrame 0 5) b).frames.map (·.queue))) =
       ((0, 5, false), some 1, [4097]) ∧
      (let b := switching { dst := 0x020000000001, ip := some {}, len := 100 }
       (b.routed (.eth 0 0 0) { dst := 0x020000000001, ip := some {}, len := 100 }, (b.routeVerdict 0 {} { len := 100 }).1,
         (b.classify 5).frames.map (·.missed))) = (some {}, .exception 2, [some 2]) := by decide +kernel

/-- A flow goes in the lowest free way, a fifth is BUSY; a packet engine takes the oldest miss and another's verdict
is stale. -/
theorem test_miss_port :
    (let x := full.insertFlow 12 1 3 0 0
     (x.1, x.2.1, x.2.2.flowHitRow 12)) = (0, 4 * flowBucket 12, some (4 * flowBucket 12)) ∧
      (let x := (full.insertFlow 12 1 3 0 0).2.2.insertFlow 12 1 3 0 0; x.1) = 6 ∧
      (let b := { full with fwd := { full.fwd with misses := [{ fid := 5, code := 1 }] } }
       ((b.missTake 5).2.fwd.misses.map fun m => (m.holder, m.handle), (b.missTake 4).1, ((b.missTake 5).2.verdict 6 0).1)) =
         ([(some 5, 0)], 65535 * 2 ^ 240, 13) ∧
      (full.verdict 5 (3 * 256 ^ 13)).1 = 6 ∧
      admitted (full.tick 0) (.engine 5) 0x4120 2 noRow 16 0 Obj.verdict 0 := by decide +kernel

/-- A doorbell beyond the ring; one on a ring that is off; the ring of another engine; a histogram's bins cleared. -/
theorem test_rings :
    ((st full).doorbell 0 65535).1 = 6 ∧ (full.get Obj.ringSize 0 ≤ 65535) ∧
      ((st (full.put Obj.ringSize 64 0)).doorbell 0 63).2.blk.get Obj.ringTail 0 = 63 ∧
      ((st (full.put Obj.ringSize 64 95)).takeDesc 95 63).blk.get Obj.ringHead 95 = 0 ∧
      full.rxRing 95 = false ∧ (run (.rxRingFill 0 95) full).fwd.filled = [] ∧
      (full.clearHist 15).get (binReg 31) 15 = 0 ∧ (full.writeRxHead 4 65535).1 = 6 ∧
      refusal full (.engine 1) 0x4410 5 8 2 1 = 0 ∧
      full.sampleDue = us (full.get Obj.samplePeriod) ∧
      (run (.samplePass (full.sampleDue + 1)) full).get Obj.sampleLate = 1 ∧ (run (.samplePass full.sampleDue) full).get Obj.sampleLate = 0 ∧ full.coreA ∧ asleep.coreA = false := by decide +kernel

/-- A flush of everything, and of one queue; a period that ends empty and one that does not; the hourly summary. -/
theorem test_flushes :
    ((traffic [frame 5 (.eth 0 0 0)]).flush 5 0).frames = [] ∧
      (((traffic [{ frame 5 (.eth 0 0 0) with queue := 3 }, { frame 6 (.eth 0 0 0) with queue := 4 }]).flush 1 3).frames.map (·.id)) = [6] ∧
      (run (.abandonNoticePeriodEnd (ms (full.get Obj.abandonNoticePeriod)) 3 2) { full with periods := [{ dest := 3, code := 2, start := 0, frames := 0 }] }).periods = [] ∧
      ((run (.abandonNoticePeriodEnd (ms (full.get Obj.abandonNoticePeriod)) 3 2) { full with periods := [{ dest := 3, code := 2, start := 0, frames := 1 }] }).periods.map fun q =>
        (q.start, q.frames)) = [(ms (full.get Obj.abandonNoticePeriod), 0)] ∧
      (run (.abandonSummary (secs 3600)) full).cullet.queue.map (·.type) = [0x60] ∧
      admitted (full.tick 0) .console 0x1520 1 noRow 1 5 Obj.flushAction 0 := by decide +kernel

/-! ### Gathers and transmission -/

/-- A frame for station row 0, TID 0, released. -/
def queued (id : Nat) : Frame := { frame id (.eth 0 0 0) with queue := 0, released := true }

/-- A gather of radio H with one MPDU of frame `fid` in a state. -/
def gatherOf (id fid : Nat) (g : GState) : Gather :=
  { id := id, radio := .h, state := g, mpdus := [{ fid := some fid, recv := 0, tid := 0, sn := 5 }], octets := 100 }

/-- Station row 0 with frames 5 and 6 held, and gathers of radio H. -/
def gathering (gs : List Gather) : Block :=
  { withStation [queued 5, queued 6] with gth := { gathers := gs, nextId := 9 } }

/-- Select takes one frame; a schedule for nothing, and one above the cap. -/
theorem test_gather_select :
    ((run (.gatherSelect 0 .h 1 false 1 0 [{ fid := 5, recv := 0, tid := 0 }]) (gathering [])).gth.gathers.map fun g =>
        (g.id, g.state, g.mpdus.map (·.fid))) = [(9, .built, [some 5])] ∧
      (run (.gatherSelect 0 .h 1 false 1 0 []) (gathering [])).gth.gathers = [] ∧
      (gathering []).userCap .h < 200 ∧ (gathering []).radioOn .h ∧ max 1 1 ≤ (gathering []).userCap .h ∧
      (run (.gatherSelect 0 .h 200 true 1 0 [{ fid := 5, recv := 0, tid := 0 }]) (gathering [])).gth.gathers = [] ∧
      (run (.gatherSelect 0 .h 1 true 1 0 [{ fid := 5, recv := 0, tid := 0 }]) (gathering [])).gth.nextId = 10 ∧
      0 < min ((gathering []).get Obj.gatherAhead) ((gathering []).get Obj.gatherAheadLehr) := by decide +kernel

/-- Sealing: without a context; with an active one, which gives its counter; with an exhausted one, which undoes the
gather. -/
theorem test_gather_seal :
    (let b := gathering [gatherOf 3 5 .built]
     (b.sealCtx .h 0, (run (.gatherSealDone 0 3) b).gth.gathers.map (·.state), decide ((run (.gatherSealDone 0 4) b).gth = b.gth))) =
       (none, [.staged], true) ∧
      (gathering [gatherOf 3 5 .staged]).gather? 3 ≠ none ∧
      (let b := (gathering [gatherOf 3 5 .built]).put Obj.ctxBind 0x1000000 4
       let c := b.put Obj.ctxState 1 4
       let d := b.put Obj.ctxState 2 4
       (c.sealCtx .h 0, ((run (.gatherSealDone 0 3) c).gth.gathers.map fun g => (g.state, g.mpdus.map (·.pn))),
         (run (.gatherSealDone 0 3) d).gth.gathers.length)) =
       (some 4, [(.staged, [some ((gathering []).get Obj.ctxTxNext 4)])], 0) := by decide +kernel

/-- An aged gather is undone and its frame stays; a locked one stays; a remelt takes a later gather of the same
receiver with it. -/
theorem test_gather_age :
    (let x := run (.gatherAgeExpiry (us 4000) 3) (gathering [gatherOf 3 5 .staged])
     (x.gth.gathers.length, x.frames.map (·.id), x.get Obj.remeltCause8,
       (run (.gatherAgeExpiry (us 4000 - 1) 3) (gathering [gatherOf 3 5 .staged])).gth.gathers.length)) = (0, [5, 6], 1, 1) ∧
      (run (.gatherAgeExpiry (us 4000) 3) (gathering [gatherOf 3 5 .locked])).gth.gathers.length = 1 ∧
      ((gathering [gatherOf 3 5 .staged, gatherOf 4 6 .built]).remelt 8 fun g => g.id == 3).gth.gathers = [] ∧
      ([gatherOf 3 5 .staged, gatherOf 4 6 .locked].map (·.id)).Nodup := by decide +kernel

/-- A transmit command for gather 3, or for frame 5. -/
def cmdOf (w : TxWhat) (k : TxKind := .immediate) (noAck : Bool := false) : TxCmd := { what := w, kind := k, noAck := noAck }

/-- Radio H locked on 5,180 MHz, with a command in a phase. -/
def sending (gs : List Gather) (c : TxCmd) (p : Phase) : Block :=
  ((gathering gs).put (Obj.synthState.of .h) 2).modRadio .h fun u => { u with freq := 5180000, bw := 20000, cmd := some c, phase := p }

/-- Radio H with the PPDU of a command on air, its ramp-up from tick 640 to 960. -/
def airing (gs : List Gather) (c : TxCmd) (started : Bool) : Block :=
  (sending gs c .onAir).modRadio .h fun u =>
    { u with air := some { cmd := c, rampAt := 640, started := started, ramp := { points := [], up := 10, down := 10 } } }

/-- A command is taken where it can be sent; the commit locks its gather, or ends it for its channel, for want of its
gather, for its turn, for its frames' lifetime, or for its budget. -/
theorem test_tx_command :
    (let c := cmdOf (.gather 3)
     let b := sending [gatherOf 3 5 .staged] c .idle
     (b.cmdValid .h c, commandable c, ((run (.txCommand 0 .h c) b).radio .h).phase, b.radios.length)) = (true, true, .waiting, 3) ∧
      ((gathering []).cmdValid .h (cmdOf (.gather 3)) = false) ∧
      (let c := cmdOf (.gather 3)
       let b := sending [gatherOf 3 5 .staged] c .waiting
       (b.mayCommit .h c, b.hasTurn .h c, b.occupied .h c.ppdu.form, b.channelStatus .h 5180000 20000, b.lateFrames c)) =
        (true, true, (5180000, 20000), 0, []) ∧
      (let c := cmdOf (.gather 3)
       let b := sending [gatherOf 3 5 .staged] c .waiting
       let x := run (.txCommit 0 .h) b
       (b.dutyShort .h 5180000 20000 false (b.paOn .h (b.airOf c.ppdu) c.kind), b.waitsForSibling c, (x.radio .h).phase,
         x.gth.gathers.map (·.state), x.pins.coexOut.getD 0 false)) = ([], false, .onAir, [.locked], true) ∧
      ((gathering []).mayCommit .h (cmdOf (.gather 3)) = false) ∧
      ((run (.txCommit 0 .h) (sending [] (cmdOf (.gather 3)) .waiting)).radio .h).cmd = none ∧
      (let c := cmdOf (.gather 3)
       let b := (sending [gatherOf 3 5 .staged] c .waiting).put Obj.regionState 1
       (b.channelStatus .h 5180000 20000, (run (.txCommit 0 .h) b).get (Obj.txStatusCount2.of .h))) = (2, 1) := by decide +kernel

/-- The commit of a contending command loses its turn to a busy medium and waits without one; late frames are
abandoned; an earlier gather of the receiver comes first. -/
theorem test_tx_turns :
    (let c := cmdOf (.gather 3) .contended
     let b := sending [gatherOf 3 5 .staged] c .waiting
     let won := b.modRadio .h fun u => { u with txop := some (0, 0) }
     let busy := won.modRadio .h fun u => { u with ccaUntil := 9 }
     (b.hasTurn .h c, ((run (.txCommit 0 .h) b).radio .h).phase, ((run (.txCommit 0 .h) won).radio .h).phase, (busy.radio .h).busy 0,
       ((run (.txCommit 0 .h) busy).radio .h).txop)) = (false, .waiting, .onAir, true, none) ∧
      (let c := cmdOf (.gather 3)
       let b := (sending [gatherOf 3 5 .staged] c .waiting).put Obj.queueLifetime 1 0
       let t := ms 1
       ((b.tick (t + 1)).lateFrames c, (run (.txCommit (t + 1) .h) b).frames.map (·.id), (run (.txCommit t .h) b).frames.map (·.id))) =
        ([5], [6], [5, 6]) ∧
      (let c := cmdOf (.gather 3)
       let b := sending [gatherOf 2 6 .staged, gatherOf 3 5 .staged] c .waiting
       (b.waitsForSibling c, ((run (.txCommit 0 .h) b).radio .h).phase)) = (true, .waiting) := by decide +kernel

/-- The commit of a management frame, of a BlockAckReq of a link, and of a command of a class whose budget is used up.
-/
theorem test_tx_budget :
    (let c := cmdOf (.mgmt 3 7 false)
     let b := sending [] c .waiting
     (b.cmdValid .h c, ((run (.txCommit 0 .h) b).radio .h).cmd)) = (false, none) ∧
      (let c := cmdOf (.gather 3)
       let b := sending [gatherOf 3 5 .staged] c .waiting
       let x := b.deferCmd .h c [2]
       ((x.radio .h).deferred, (x.radio .h).phase, x.get Obj.dutyRowDeferred 2, x.get (Obj.txStatusCount6.of .h))) =
        ([cmdOf (.gather 3)], .idle, 1, 1) := by decide +kernel

/-- The first sample at its tick, and one tick before it. -/
theorem test_first_sample :
    (let b := airing [gatherOf 3 5 .locked] (cmdOf (.gather 3)) false
     let x := run (.ppduFirstSample 960 .h) b
     (x.gth.gathers.map (·.state), x.get Obj.gathersSent, x.frames.map (·.air),
       (run (.ppduFirstSample 959 .h) b).gth.gathers.map (·.state))) = ([.sent], 1, [true, false], [.locked]) ∧
      ((run (.ppduFirstSample 960 .h) (airing [] (cmdOf (.frame 5)) false)).frames.map (·.state)) = [.sent, .queued] ∧
      ((run (.ppduFirstSample 960 .h) (airing [] (cmdOf (.gather 3)) true)).get Obj.gathersSent) = 0 ∧
      ((gathering []).radio .h).air = none ∧ (gathering []).pins.coexOut.length = 4 ∧
      (run (.ppduFirstSample 960 .h) (airing [] (cmdOf (.gather 3)) false)).outs ≠ [] := by decide +kernel

/-- The end without and with an answer to come, and of an acknowledgement of the edge. -/
theorem test_ppdu_end :
    (let x := run (.ppduTxEnd 9600 .h []) (airing [] (cmdOf (.frame 5) .immediate true) true)
     (x.frames.map (·.id), x.get Obj.deliveredTotal)) = ([6], 1) ∧
      (let b := airing [gatherOf 3 5 .sent] (cmdOf (.gather 3)) true
       let x := run (.ppduTxEnd 9600 .h []) b
       (b.radios.length, wantsAnswer (cmdOf (.gather 3)), (x.radio .h).phase, (x.radio .h).endAt, (x.radio .h).air,
         x.get (Obj.txStatusCount7.of .h))) = (3, true, .awaiting, 9280, none, 0) ∧
      ((run (.ppduTxEnd 9600 .h []) (airing [] (cmdOf (.gather 3)) false)).radio .h).air.isSome ∧
      (let b := (airing [] (cmdOf (.gather 3)) true).modRadio .h fun u =>
          { u with air := u.air.map fun a => { a with own := true, cmd := cmdOf (.ack [] false) .immediate true } }
       ((run (.ppduTxEnd 9600 .h []) b).radio .h).phase) = .onAir := by decide +kernel

/-- The response, and its timeout at its tick and one tick before. -/
theorem test_responses :
    (let b := (sending [gatherOf 3 5 .sent] (cmdOf (.gather 3)) .awaiting).modRadio .h fun u => { u with endAt := 320 }
     let k := (b.radio .h).answerBy .h
     (k, (run (.responseReceived 0 .h [5] []) b).frames.map (·.id), (run (.responseReceived 0 .h [] []) b).frames.map (·.attempts),
       (run (.responseTimeout k .h []) b).frames.map fun f => (f.id, f.attempts))) =
      (320 + us 16 + us 9 + us 32, [6], [1, 0], [(5, 1), (6, 0)]) ∧
      (let b := sending [gatherOf 3 5 .sent] (cmdOf (.gather 3)) .awaiting
       let k := (b.radio .h).answerBy .h
       (((run (.responseTimeout k .h []) b).radio .h).phase, ((run (.responseTimeout (k - 1) .h []) b).radio .h).phase,
         (b.radio .h).own, b.hearing .h k)) = (.idle, .awaiting, [], false) ∧
      ((gathering []).radio .h).cmd = none ∧
      (let b := { gathering [] with fwd := { holds := [(0, 9)] } }
       ((run (.retryHoldExpiry 9 0) b).fwd.holds, (run (.retryHoldExpiry 8 0) b).fwd.holds,
         (run (.retryHoldExpiry 9 1) b).fwd.holds)) = ([], [(0, 9)], [(0, 9)]) := by decide +kernel

/-- The last attempt of a row's limit holds the queue; an earlier one only counts. -/
theorem test_attempts :
    (((gathering []).attemptFailed 5).frames.map (·.attempts)) = [1, 0] ∧ (gathering []).frame? 5 ≠ none ∧
      (((gathering []).put Obj.retryRetryLimit 1 ((gathering []).retryRow 0)).attemptFailed 5).queueHeld 0 ∧
      (gathering []).radioOn .h = true ∧ (gathering []).frozen = false := by decide +kernel

/-! ### Front ends and the region -/

/-- Full Service with the synthesiser of radio H in a state. -/
def synth (s : Nat) : Block := full.put (Obj.synthState.of .h) s

/-- Lock after 1 ms once the VCO selection has run; a timeout while settling and one tick before it. -/
theorem test_synth_lock :
    (let x := run (.synthLock 320000 .h) (synth 1)
     (x.get (Obj.synthState.of .h), x.get (Obj.tuneTimeLast.of .h), (synth 1).radioOn .h)) = (2, 1000, true) ∧
      (run (.synthLock 320000 .h) ((synth 1).modRadio .h fun u => { u with due := [(4, 0)] })).get (Obj.synthState.of .h) = 1 ∧
      (let k := us (full.get (Obj.lockTimeout.of .h))
       let w := (synth 1).modRadio .h fun u => { u with phase := .waiting }
       ((run (.lockTimeoutExpiry k .h) (synth 1)).get (Obj.synthState.of .h), (run (.lockTimeoutExpiry (k - 1) .h) w).get (Obj.synthState.of .h),
         (run (.lockTimeoutExpiry k .h) w).get (Obj.txStatusCount1.of .h), (w.radio .h).own, w.radios.length)) = (3, 1, 1, [], 3) := by
  decide +kernel

/-- A loss of lock; a tune by a write, which starts when the radio is free. -/
theorem test_synth_tune :
    (let x := run (.lockLost 0 .h) (synth 2)
     (x.get (Obj.lockLosses.of .h), x.get (Obj.synthState.of .h))) = (1, 1) ∧
      (run (.lockLost 0 .h) (synth 1)).get (Obj.lockLosses.of .h) = 0 ∧
      (let x := run (.tuneWrite 0 .console .h 1 5200000) full
       (x.get (Obj.tuneFreq.of .h), (x.radio .h).tuneDue)) = (5200000, true) ∧
      (let x := run (.tuneStart 0 .h) (full.modRadio .h fun u => { u with tuneDue := true })
       ((x.radio .h).tuneDue, x.get (Obj.synthState.of .h), (x.radio .h).isDue 4, (x.radio .h).isDue 0)) = (false, 1, true, true) ∧
      ((run (.tuneStart 0 .h) full).radio .h).tuneDue = false ∧ (full.radio .h).seg = none ∧ (full.radio .h).inPpdu = false ∧
      (full.get (Obj.calEnable.of .h)).testBit 0 := by decide +kernel

/-- A segment of a due calibration starts when the medium has been free and the next event is far off, and ends. -/
theorem test_calibration :
    (let b := full.modRadio .h fun u => { u with due := [(0, 0)] }
     let at_ (kind ahead : Nat) := ((run (.calSegmentStart 1000000 .h kind 0 ahead) b).radio .h).seg.map fun s => (s.kind, s.chain)
     (at_ 0 (us 10 + 1), at_ 1 (us 10 + 1), at_ 0 (us 10), ((run (.calSegmentStart 0 .h 0 0 (us 10 + 1)) b).radio .h).seg)) =
      (some (0, 0), none, none, none) ∧
      (let b := full.modRadio .h fun u => { u with seg := some { kind := 2, chain := 0, at_ := 0, forced := true }, due := [(2, 0)], forced := [2] }
       let x := run (.calSegmentEnd 0 .h true) b
       (x.get (Obj.calSegments.of .h), x.get (Obj.calForced.of .h), (x.get (Obj.calStatus.of .h)).testBit 2, (x.radio .h).isDue 2,
         (x.radio .h).forced)) = (1, 1, true, false, []) ∧
      (run (.calSegmentEnd 0 .h true) (full.modRadio .h fun u =>
        { u with seg := some { kind := 2, chain := 0, at_ := 0, abandon := true } })).get (Obj.calAbandoned.of .h) = 1 := by
  decide +kernel

/-- A starved calibration and one whose period has passed, at the tick and one tick before; a temperature step. -/
theorem test_calibration_due :
    (let b := full.modRadio .h fun u => { u with due := [(3, 0)] }
     let k := ms (full.get (Obj.calStarve.of .h))
     (((run (.calStarveExpiry k .h 3) b).radio .h).forced, ((run (.calStarveExpiry (k - 1) .h 3) b).radio .h).forced)) = ([3], []) ∧
      (let b := full.modRadio .h fun u => { u with cals := [{ kind := 2, band := 0, temp := 0, at_ := 0 }] }
       let k := secs (full.get (Obj.calPeriod.of .h))
       (((run (.calPeriodExpiry k .h 2 false) b).radio .h).isDue 2, ((run (.calPeriodExpiry (k - 1) .h 2 false) b).radio .h).isDue 2,
         ((run (.calPeriodExpiry k .h 1 false) b).radio .h).isDue 1)) = (true, false, false) ∧
      (let b := full.modRadio .h fun u => { u with cals := [{ kind := 1, band := 0, temp := 6553600, at_ := 0 }] }
       (((run (.calPeriodExpiry 0 .h 1 true) b).radio .h).isDue 1,
         ((run (.calPeriodExpiry 0 .h 1 true) (b.puti (Obj.dieTemp.of .h) 6553600)).radio .h).isDue 1)) = (true, false) ∧
      ((run (.paSupplyRead 0 .h 4900) (full.put (Obj.paSupplyPage.of .h) 1)).radio .h).paMv = 4900 := by decide +kernel

/-- COEX_IN0 blanks at its active level and keeps its tail, which ends at its tick and not one before. -/
theorem test_blanking :
    (let x := run (.coexInChange 0 0 true) full
     (x.pins.coexIn0, x.coex.blanks, x.coex.tails)) = (true, [4], []) ∧
      (let x := run (.coexInChange 7 0 false) { full with coex := { blanks := [4] } }
       (x.coex.blanks, x.coex.tails)) = ([4], [(4, 7)]) ∧
      (let k := us (full.get Obj.blankTail)
       let b : Block := { full with coex := { blanks := [4], tails := [(4, 0)] } }
       ((run (.blankTailExpiry k 4) b).coex.blanks, (run (.blankTailExpiry (k - 1) 4) b).coex.blanks)) = ([], [4]) ∧
      ((true != (full.get Obj.coexPolarity).testBit 0) = true) ∧
      (run (.coexInChange 0 0 true) { full with coex := { blanks := [4], tails := [(4, 0)] } }).coex.tails = [] := by decide +kernel

/-- A region with a rule set of DFS. -/
def aRegion : Region := { ruleset := 1 }

/-- A commit's flip and load; a bad active half, a bad shadow, both good. -/
theorem test_region :
    (let x := run (.regionFlip 0) { full with region := { commit := some { image := aRegion } } }
     (x.region.active, x.get Obj.regionState, (x.radio .h).loadDue, x.get Obj.regionChanges)) = (some aRegion, 1, some 0, 1) ∧
      (run (.regionFlip 0) full).region = full.region ∧
      (let b := { full with region := { active := some aRegion } }.modRadio .h fun u => { u with loadDue := some 0 }
       (((run (.shadowLoad 0 .h true 0) b).radio .h).shadow, ((run (.shadowLoad 0 .h true 0) b).radio .h).loadDue,
         (run (.shadowLoad 0 .h false 0) b).get Obj.regionState, b.halfBad)) = (some aRegion, none, 2, false) ∧
      (run (.shadowCrcCheck 0 .h true false 7) (full.put Obj.regionState 1)).get Obj.regionState = 2 ∧
      ((run (.shadowCrcCheck 0 .h false true 7) ({ full with region := { active := some aRegion } }.put Obj.regionState 1)).radio
        .h).shadow = some aRegion ∧
      (run (.shadowCrcCheck 0 .h false true 7) full).get Obj.regionState = 0 := by decide +kernel

set_option maxRecDepth 1000000 in
/-- REGION_COMMIT with a wrong CRC, and with the staged CRC: the default staging tables have it. -/
theorem test_region_commit :
    (maint.tick 0).portOpen .console ∧ (maint.tick 0).pointIdle ∧ (maint.tick 0).stageCrc = 3248648881 ∧
      ((maint.tick 0).checkWrite .console 0x2C00 6 noRow 4 3248648881).toOption.map (·.1) = some Obj.regionCommit ∧
      (maint.tick 0).stagedRegion.edgesOk ∧
      (run (.regionCommit 0 .console 3248648881) maint).region.commit.isSome ∧
      (run (.regionCommit 0 .console 5) maint).outs = [.result .console 6 0] := by decide +kernel

/-- Radar bars its subchannels until RTC + 1,800; a bar ends at its second and not before; CAC passes at its tick and
not before. -/
theorem test_dfs :
    (let b := full.modRadio .h fun u => { u with shadow := some aRegion }
     let x := run (.radarDetected 0 6) b
     (x.region.barred.map (·.1), x.get (Obj.radarEvents.of .h), b.radarOn, full.radarOn)) = ([1, 2], 1, true, false) ∧
      (let b : Block := { full with region := { barred := [(1, full.rtcSec), (2, full.rtcSec + 1)] } }
       ((run (.nopExpiry 0 1) b).region.barred.map (·.1), (run (.nopExpiry 0 2) b).region.barred.map (·.1))) = ([2], [1, 2]) ∧
      (let b := { full with region := { cacFrom := some 0 } }.modRadio .h fun u => { u with shadow := some aRegion }
       let k := secs aRegion.cac
       ((run (.cacExpiry k) b).region.cacDone, (run (.cacExpiry (k - 1)) b).region.cacDone)) = (true, false) ∧
      (run (.cacExpiry 0) full).region.cacDone = false := by decide +kernel

/-- TEST_MODE and REGION_CLEAR are admitted and do what their operations say. -/
theorem test_region_clear :
    admitted (maint.tick 0) .console 0x2C00 7 noRow 1 1 Obj.regionClear 0 ∧
      admitted ((maint.put Obj.maintBase 5).tick 0) .console 0x2005 1 noRow 1 1 (Obj.testMode.of .h) 0 ∧
      ({ full with region := { active := some aRegion } }.regionClear).1 = 0 ∧
      ({ full with region := { commit := some { image := aRegion } } }.regionClear).1 = 9 ∧
      (let x := (full.writeTestMode .h 1).2
       ((x.radio .h).cmd.map (·.what), (x.radio .h).phase, (x.writeTestMode .h 0).2.get (Obj.testMode.of .h))) =
        (some .testWave, .waiting, 0) := by decide +kernel

/-! ### Medium access, neighbours and stations -/

/-- Full Service with the EDCA functions of radio H given by category, count and window. -/
def contending (l : List (Nat × Nat)) : Block :=
  { full with mac := { backoffs := l.map fun x => { radio := 0, ac := x.1, count := x.2, ecw := 4 } } }

/-- A slot counts down; the highest category at zero wins and the other's window grows; a busy medium freezes. -/
theorem test_backoff :
    (let x := run (.backoffSlot 0 .h) (contending [(1, 5), (3, 7)])
     (x.mac.backoffs.map fun y => (y.ac, y.count), x.outs)) = ([(1, 4), (3, 6)], []) ∧
      (let x := run (.backoffSlot 0 .h) (contending [(1, 1), (3, 1)])
       (x.outs, (x.edca .h 3).live, (x.edca .h 1).ecw, (x.radio .h).txop.map (·.1))) = ([.radio .h 2 [3]], false, 5, some 3) ∧
      ((contending [(1, 5)]).edca .h 1).live ∧ (contending [(1, 5)]).aifs .h 1 ≤ secs 3600 ∧
      5 ≤ (contending [(1, 5)]).get Obj.edcaEcwmax (edcaRow .h 1) ∧ ((contending []).radio .h).busy 0 = false ∧
      (run (.backoffSlot 0 .l) full).outs = [] ∧ ((run (.ccaBusy 7 .h) full).radio .h).frozenAt = some 7 := by decide +kernel

/-- Radio L with a command in a phase, and its CSMA-CA. -/
def lowWith (c : TxCmd) (p : Phase) (m : Mac) (l : List Frame) : Block :=
  ({ traffic l with mac := m }.modRadio .l fun u => { u with cmd := some c, phase := p }).put Obj.nbrAddr 77 3

/-- CSMA-CA: an idle channel, a busy one that grows BE, and the last busy one; no command. -/
theorem test_csma :
    (let w (n : Nat) := lowWith (cmdOf (.frame 5) .contended) .waiting { csma := some (n, 3, 0) } []
     ((run (.csmaCcaEnd 0 false 9) (w 0)).outs, (run (.csmaCcaEnd 0 true 9) (w 0)).mac.csma, (run (.csmaCcaEnd 0 true 9) (w 5)).mac.csma,
       ((run (.csmaCcaEnd 0 true 9) (w 5)).radio .l).phase)) = ([.radio .l 2 []], some (1, 4, 9), none, .idle) ∧
      (let b := lowWith (cmdOf (.frame 5) .contended) .waiting { csma := some (0, 3, 0) } []
       ((b.radio .l).txop, (b.radio .l).busy 0, (b.radio .l).own, b.radios.length)) = (none, false, [], 3) ∧
      0 + 1 ≤ full.get Obj.maxBackoffs ∧ full.get Obj.maxBackoffs < 5 + 1 ∧ (full.radio .l).cmd = none := by decide +kernel

/-- A frame for neighbour row 3. -/
def low (id : Nat) (i : Option Nat) : Frame := { frame id (.eth 0 0 0) with queue := 4611, released := true, indirect := i }

/-- The acknowledgement of frame 5 and its absence: in reach mode at the end of its wait, and one tick before. -/
theorem test_low_band_ack :
    (let c : TxCmd := { what := .frame 5, ppdu := { form := { format := fmtReach, branch := 2 } } }
     let b := (lowWith c .awaiting {} [{ low 5 none with air := true }]).modRadio .l fun u => { u with endAt := 320 }
     let k := b.ackBy
     ((run (.lowbandAckReceived 0 false) b).frames, (run (.ackWaitExpiry k) b).frames.map (·.attempts),
       (run (.ackWaitExpiry (k - 1)) b).frames.map (·.attempts), b.hearing .l k)) = ([], [1], [0], false) ∧
      (let b := lowWith (cmdOf (.dataRequest 3)) .awaiting {} []
       ((run (.lowbandAckReceived 0 true) b).mac.polling, (run (.lowbandAckReceived 0 false) b).mac.polling)) = (true, false) ∧
      (full.radio .l).phase = .idle := by decide +kernel

/-- A deferred command of a sequencer is offered again; an enhanced beacon is sent, at EB_INTERVAL after the last and
not before. -/
theorem test_low_band :
    (let x := run (.dutyBinBoundary 0) (full.modRadio .h fun u => { u with deferred := [cmdOf (.gather 5)] })
     ((x.radio .h).deferred, x.outs, full.mac.binAt, (run (.dutyBinBoundary 0) x).outs)) =
      ([], [.radio .h 7 []], none, []) ∧
      full.baseMode.mains ∧ full.radioOn .l ∧ asleep.baseMode.mains = false ∧
      (let b := run (.ebSend 0 {}) full
       let k := ms (full.get Obj.ebInterval)
       ((b.radio .l).cmd.map (·.what), (b.radio .l).phase, ((run (.ebSend k {}) b).radio .l).own.map (·.what),
         ((run (.ebSend (k - 1) {}) b).radio .l).own)) = (some .enhBeacon, .waiting, [.enhBeacon], []) := by decide +kernel

/-- Radio L with a region whose duty row 2 is 868.0 MHz to 868.6 MHz. -/
def dutied : Block :=
  full.modRadio .l fun u => { u with shadow := some { duty := [⟨0, 0, 0⟩, ⟨0, 0, 0⟩, ⟨868000, 868600, 100⟩] } }

/-- A charge adds to its row. The sequence test at the ends of its ranges, with one number of the history seen. -/
theorem test_duty_and_numbers :
    (dutied.dutyRows .l 868300 250).map (·.1) = [2] ∧ dutied.mac.rowBins 2 = [] ∧ assocSorted dutied.mac.bins ∧
      (dutied.dutyCharge .l 868300 250 false 50).2.dutyUsed 2 = (50, 0) ∧
      (dutied.dutyCharge .l 868300 250 true 50).2.dutyUsed 2 = (0, 50) ∧
      (dutied.dutyCharge .l 868300 250 false 50).2.dutyPrune.dutyUsed 2 = (50, 0) ∧
      [0, 1, 127, 128, 239, 240, 255].map (fun d => seqTest 10 1 ((10 + d) % 256)) =
        [.duplicate, .accept 11 3, .accept 137 (2 ^ 126 % 65536), .stale, .stale, .accept 10 (1 + 2 ^ 15), .duplicate] := by
  decide +kernel

/-- A used neighbour row 3 with a role, in a mode, with frames. -/
def withNbr (m : Mode) (role : Nat) (l : List Frame) : Block :=
  { (((mains m).put Obj.nbrAddr 77 3).put Obj.nbrRole role 3) with frames := l }

/-- A child's frame moves to its indirect queue; a full one takes no more; a frame outstays its time, at its tick and
not before. -/
theorem test_children :
    (let b := withNbr .fullService 1 [low 5 none]
     ((run (.indirectEnqueue 4 3) b).frames.map (·.indirect), (run (.indirectEnqueue 4 3) b).get Obj.nbrIndirect 3)) = ([some 4], 1) ∧
      ((run (.indirectEnqueue 4 3) (withNbr .fullService 1 [low 1 (some 0), low 2 (some 0), low 3 (some 0), low 4 (some 0),
        low 5 none])).frames.map (·.indirect)) = [some 0, some 0, some 0, some 0, none] ∧
      (run (.indirectEnqueue 4 3) (withNbr .fullService 2 [low 5 none])).frames.map (·.indirect) = [none] ∧
      (let b := withNbr .fullService 1 [low 5 (some 0)]
       let k := secs (b.get Obj.childPersist)
       let x := run (.childPersistExpiry k 5) b
       (x.frames, x.get Obj.abandonPersist, (run (.childPersistExpiry (k - 1) 5) b).frames.length)) = ([], 1, 1) := by decide +kernel

/-- The form of a poll in reach mode on branch 2. -/
def pollForm : PpduForm := { format := fmtReach, rate := 2, branch := 2, width := 250 }

/-- A child's poll is answered with Frame Pending as its indirect queue says; one that the budget refuses is not. -/
theorem test_polls :
    (let c := (withNbr .fullService 1 [low 5 (some 0)]).put Obj.regionState 1
     let b := (c.put (Obj.synthState.of .l) 2).modRadio .l fun u =>
       { u with
         freq := 868300, bw := 250
         shadow := some { allow := [⟨2, 868000, 868600, 250, false⟩], limits := [⟨2, 868000, 868600, [56], 0⟩] } }
     let x := run (.childPoll 0 3 pollForm 7 0) b
     (b.channelStatus .l 868300 250, x.mac.polled, assocGet x.mac.heardNbr 3, x.outs.head?)) =
      (0, [3], some 0, some (.radio .l 3 [1, 3, 7, 1])) ∧
      (let b := (withNbr .fullService 1 []).modRadio .l fun u =>
         { u with freq := 868300, bw := 250, shadow := some { duty := [⟨868000, 868600, 0⟩] } }
       (b.ackPasses .l (b.ackCmd .l pollForm [(3, 7, 1)] 7 false 0), (run (.childPoll 0 3 pollForm 7 0) b).get Obj.ackRefused)) = (false, 1) ∧
      (let b := (withNbr .fullService 1 []).setNbrMac { row := 3, synced := true }
       ((b.seqCheck 3 128).1, (run (.childPoll 0 3 pollForm 128 0) b).mac.polled)) = (none, []) := by decide +kernel

/-- A guard that ends starts a lost-partner run; a listen that hears, one that ends at its tick, and one tick before
it. -/
theorem test_lost_partner :
    (let b := withNbr .fullService 2 []
     ((run (.guardExpiry 0 3 10) b).mac.lost, b.nbrUsed 3, full.nbrUsed 3, full.lostOf 3)) = ([⟨3, 1, 0, 0, 0, 3200, 0⟩], true, false, none) ∧
      (let b := withNbr .fullService 2 []
       let l1 : Lost := ⟨3, 1, 0, 0, 0, ms 1000, 0⟩
       let w : Block := { b with mac := { lost := [l1] } }
       let k := l1.beaconAt (b.guard 0) 1 + b.listenWidth l1 1
       ((run (.lostPartnerListen 0 3 true) w).mac.lost, (run (.lostPartnerListen k 3 false) w).mac.lost.map (·.k),
         (run (.lostPartnerListen (k - 1) 3 false) w).mac.lost.map (·.k))) = ([], [1], [0]) ∧
      (let b : Block := { withNbr .fullService 2 [] with mac := { lost := [⟨3, 1, 0, 0, 0, us 10, 0⟩] } }
       (run (.lostPartnerListen (secs 1) 3 false) b).mac.lost.map (·.step)) = [2] := by decide +kernel

/-- A dwell that hears, one that ends at its tick and one before it, the last one, and the next scan at its tick and
not before. -/
theorem test_scan :
    (let b := (withNbr .fullService 2 []).put Obj.hopLen 4
     let k := ms (b.get Obj.scanDwell)
     let w (n : Nat) : Block := { b with mac := { lost := [⟨3, 2, n, 0, 0, 0, 0⟩] } }
     ((run (.scanDwellEnd 0 3 true) (w 0)).get Obj.lostPartner, (run (.scanDwellEnd k 3 false) (w 0)).mac.lost.map (·.k),
       (run (.scanDwellEnd (k - 1) 3 false) (w 0)).mac.lost.map (·.k), (run (.scanDwellEnd k 3 false) (w 3)).mac.scanWait,
       (run (.scanDwellEnd k 3 false) (w 3)).get Obj.lostPartnerFailed)) = (1, [1], [0], [(3, ms (full.get Obj.scanDwell))], 1) ∧
      (let b : Block := { withNbr .fullService 2 [] with mac := { scanWait := [(3, 0)] } }
       let k := secs (b.get Obj.scanInterval)
       ((run (.scanIntervalExpiry k 3) b).mac.lost.map fun l => (l.nbr, l.step), (run (.scanIntervalExpiry (k - 1) 3) b).mac.lost)) =
        ([(3, 2)], []) := by decide +kernel

/-- Day Watch polls of parent 3, heard and not; TIME_VALID ends at its tick and not before. -/
theorem test_day_watch :
    (let b := { withNbr .dayWatch 2 [] with mac := { parent := some 3 } }
     let x := run (.dwPoll 100 true 5 868300 {}) b
     (b.radioOn .l, b.pollDue 3, x.time.dwCorr, x.time.dwRef, (x.radio .l).cmd.map (·.what))) =
      (true, true, some 100, 100, some (.dataRequest 3)) ∧
      (let b := { withNbr .dayWatch 2 [] with mac := { parent := some 3 } }
       ((run (.dwPoll 100 false 5 868300 {}) b).mac.lost.map (·.step), b.mode.mode, b.pollOpen, (b.radio .l).phase)) =
        ([1], .dayWatch, false, .idle) ∧
      (let b := { withNbr .dayWatch 2 [] with mac := { parent := some 3, pollAt := some 0 } }
       (b.pollDue 3, (run (.dwPoll 100 true 5 868300 {}) b).time.dwCorr)) = (false, none) ∧
      (let b := { mains .dayWatch with time := { dwCorr := some 0 } }
       let k := secs (3 * b.get Obj.dwPollInterval)
       ((run (.dwTimeValidExpiry k) b).time.dwCorr, (run (.dwTimeValidExpiry (k - 1)) b).time.dwCorr)) = (none, some 0) ∧
      (mains .dayWatch).mac.parent = none := by decide +kernel

/-- Departures by inactivity, at the tick and one before it. -/
theorem test_departures :
    (let b := withNbr .fullService 2 [low 5 none]
     let k := b.nbrTimeoutOf 3
     ((run (.inactivityExpiry k (.neighbour 3)) b).get Obj.nbrAddr 3, (run (.inactivityExpiry k (.neighbour 3)) b).frames,
       (run (.inactivityExpiry (k - 1) (.neighbour 3)) b).get Obj.nbrAddr 3)) = (0, [], 77) ∧
      (let b := withStation [queued 5]
       let k := secs (b.get Obj.staIdleTime)
       ((run (.inactivityExpiry k (.station 0)) b).frames, (run (.inactivityExpiry (k - 1) (.station 0)) b).frames.length)) = ([], 1) := by
  decide +kernel

/-- REMOVE and the admission of a neighbour. -/
theorem test_neighbour_writes :
    admitted { (withNbr .fullService 2 []) with window := some 0 } .console 0x3200 12 3 1 1 Obj.nbrRemove 3 ∧
      admitted { (withNbr .fullService 2 []) with window := some 0 } .console 0x3200 1 4 8 5 Obj.nbrAddr 4 ∧
      ((withNbr .fullService 2 []).writeNbrAddr 4 77).1 = 6 ∧ (full.writeRemove 3 1).1 = 9 ∧
      ((withNbr .fullService 2 []).writeRemove 3 1).2.get Obj.nbrAddr 3 = 0 ∧ (full.writeNbrAddr 4 5).2.get Obj.nbrAddr 4 = 5 := by
  decide +kernel

/-- Full Service with BSS 2 of radio H enabled. -/
def withBss : Block := full.put (Obj.bssEnable.of .h) 1 2

/-- An association goes into the lowest free row, or is refused with status 17; during a drain too. -/
theorem test_association :
    (let x := run (.assocRequest 0 .h 2 9 true) withBss
     (x.outs, x.get Obj.staState 0, x.get Obj.staAid 0, x.get Obj.staRadioBss 0, x.get (Obj.bssStations.of .h) 2, x.mac.uapsd)) =
       ([.radio .h 8 [2, 9, 0, withBss.ampduExponent]], 2, 1, 2, 1, [0]) ∧
      (let b := withBss.put Obj.stationLimit 0
       (b.admits .h 2, (run (.assocRequest 0 .h 2 9 false) b).outs, (run (.assocRequest 0 .h 2 9 false) b).get Obj.admitRefused)) =
       (false, [.radio .h 8 [2, 9, 17]], 1) ∧
      (run (.assocRequest 0 .h 2 9 false) (withBss.put (Obj.bssAkm.of .h) 1 2)).get Obj.staState 0 = 1 ∧
      (withBss.put (Obj.bssAkm.of .h) 1 2).boundCtx 1 0 = none ∧ withBss.admits .h 2 = true ∧ withBss.mode.drain = none ∧
      withBss.bssServed .h 2 ∧ full.bssServed .h 2 = false ∧
      (run (.assocRequest 0 .h 2 9 false) { withBss with mode := { withBss.mode with drain := (drainOf false false .fieldOnly).mode.drain } }).outs =
        [.radio .h 8 [2, 9, 17]] := by decide +kernel

/-- A disassociation; a round, once ROUND_TIME has passed and not before. -/
theorem test_rounds :
    (run (.disassocReceived 0 0) (withStation [queued 5])).frames = [] ∧ full.staUsed 0 = false ∧ (withStation []).staUsed 0 ∧
      (run (.roundStart 0 .h) (withStation [queued 5])).mac.down = [[0], []] ∧
      (let b := { withStation [queued 5] with mac := { roundAt := [(0, 0)] } }
       let k := ms (b.get Obj.roundTime)
       ((run (.roundStart k .h) b).mac.down, (run (.roundStart (k - 1) .h) b).mac.down)) = ([[0], []], [[], []]) := by decide +kernel

/-- Probe requests and TWT. -/
theorem test_bss :
    (run (.probeRequest 0 .h 0 0) withBss).outs = [.radio .h 9 [2, withBss.ampduExponent]] ∧
      (run (.probeRequest 0 .h 65 1) ((withBss.put (Obj.bssSsidLen.of .h) 1 2).put (Obj.bssSsid.of .h) (65 * 256 ^ 31) 2)).outs =
        [.radio .h 9 [2, withBss.ampduExponent]] ∧
      (let x := run (.twtSetup 0 0 4096 false) ((withStation []).put Obj.twtEnable 1)
       (assocGet x.mac.twt 0, x.get Obj.staPsState 0)) = (some 4096, 3) ∧
      (run (.twtSetup 0 0 1 false) ((withStation []).put Obj.twtEnable 0)).outs = [.radio .h 10 [0, 0, full.get Obj.twtMinSp]] ∧
      (run (.twtSetup 0 0 1 true) (withStation [])).get Obj.staPsState 0 = 4 ∧
      (run (.twtSpStart 0 0 true) { withStation [] with mac := { twt := [(0, 100)] } }).mac.inSp = [(0, us 100)] ∧
      (run (.twtLeadStart 0 0) { withStation [] with mac := { twt := [(0, 100)] } }).mac.inSp =
        [(0, us (full.get Obj.twtLead) + us 100)] ∧
      full.get Obj.staState 0 ≠ 2 ∧ assocGet full.mac.twt 0 = none := by decide +kernel

/-- Beacons at their target time, once, and the writes of ENABLE. -/
theorem test_beacons :
    (let x := run (.tbtt 0 .h 2 {}) withBss
     (withBss.tbttNow .h 2, (x.radio .h).cmd.map (·.what), (x.radio .h).phase, ((run (.tbtt 0 .h 2 {}) x).radio .h).own)) =
      (true, some (.beacon 2), .waiting, []) ∧
      ((run (.tbtt 320 .h 2 {}) withBss).radio .h).cmd = none ∧
      (full.writeBssEnable .h 2 1).1 = 6 ∧
      ((((full.put (Obj.bssBssid.of .h) 5 2).put (Obj.bssSsidLen.of .h) 1 2).put (Obj.bssAkm.of .h) 0 2).writeBssEnable .h 2 1).1 = 0 ∧
      ((((full.put (Obj.bssBssid.of .h) 5 2).put (Obj.bssBssid.of .m) 5 1).put (Obj.bssEnable.of .m) 1 1).writeBssEnable .h 2 1).1 = 6 := by decide +kernel

/-- The writes of ENABLE, KICK: admitted, a row not used, and the stations that depart. -/
theorem test_station_writes :
    admitted { full with window := some 0 } .console 0x2040 1 2 1 1 (Obj.bssEnable.of .h) 2 ∧
      admitted { withStation [] with window := some 0 } .console 0x3100 7 0 1 1 Obj.staKick 0 ∧ (full.writeKick 0 1).1 = 9 ∧
      ((withStation [queued 5]).writeKick 0 1).2.frames = [] ∧ (withStation []).get Obj.staRadioBss 0 = 16 * radioNum .h + 0 ∧
      ((withStation []).writeBssEnable .h 0 0).2.get Obj.staState 0 = 0 := by decide +kernel

/-! ### Cane links and keys -/

/-- Link 2 with its strands of radios H and M up, and some frames. -/
def linked (l : List Frame) : Block :=
  { ((full.put Obj.caneEnable 1 2).put Obj.caneStrands 7 2).setStrand 2 .h 2 with frames := l }

/-- A frame of stream 3 of link 2, its number given, sent on radio H. -/
def cane (id n : Nat) : Frame :=
  { frame id (.eth 0 0 0) with queue := 4371, released := true, cseq := some n, air := true, state := .sent, strand := some .h }

/-- An ACK delivers what it covers; a NACK sends again; a probe is answered; an epoch empties the ledger. -/
theorem test_cane_received :
    (linked []).hearsLink 2 .h ∧ (linked []).upStrands 2 = [.h] ∧ full.hearsLink 2 .h = false ∧
      ((run (.caneAckReceived 0 2 .h (caneAckHeader [⟨3, 7, 1⟩])) (linked [cane 5 7, cane 6 8, cane 7 9])).frames.map (·.id)) = [6] ∧
      ((run (.caneNackReceived 0 2 .h (caneNackHeader [⟨3, 7, 1⟩])) (linked [cane 5 7, cane 6 8])).frames.map (·.resend)) = [true, false] ∧
      (run (.caneProbeReceived 0 2 .h (caneProbeHeader 5 ((linked []).get Obj.linkPeerEpoch 2))) (linked [])).outs =
        [.cane 2 .h 4 7 ((linked []).peerAddr 2 .h) []] ∧
      (let x := run (.caneProbeReceived 0 2 .h (caneProbeHeader 5 77)) (linked [])
       (x.get Obj.linkPeerEpoch 2, (x.link 2).held)) = (77, []) ∧ (linked []).get Obj.linkPeerEpoch 2 ≠ 77 ∧
      (run (.caneAckReceived 0 2 .h [0x20]) (linked [])).get Obj.caneBadHeader = 1 := by decide +kernel

/-- A PROBE falls due at its tick and not before; acknowledged probes bring a strand up. -/
theorem test_probes :
    (let b := linked []
     let k := b.probeTime 2 .h
     ((run (.probeIntervalExpiry k 2 .h) b).ctlDue 2 3 .h, (run (.probeIntervalExpiry (k - 1) 2 .h) b).ctlDue 2 3 .h,
       b.links.length, (b.link 2).strands.length)) = (true, false, 32, 3) ∧
      (let b := ((linked []).setStrand 2 .h 1).put Obj.strandUpProbes 1
       ((b.probeResult 2 .h true).strandState 2 .h, (b.probeResult 2 .h false).strandState 2 .h)) = (2, 1) := by decide +kernel

/-- An ACK falls due ACK_DELAY after the first acceptance and a NACK HOLD_TIME after its hole, and not before. -/
theorem test_cane_ack_timers :
    (let b := (linked []).modLink 2 fun l => { l with fresh := [3], ackDue := some 0 }
     let k := us (b.get Obj.caneAckDelay 2)
     (((run (.ackDelayExpiry k 2) b).link 2).ackNow, ((run (.ackDelayExpiry (k - 1) 2) b).link 2).ackNow)) = (true, false) ∧
      (let b := (linked []).modLink 2 fun l => { l with holes := [(3, 0)], held := [{ stream := 3, cseq := 2 }] }
       let k := ms (b.get Obj.caneHoldTime 2)
       (((run (.holdTimeExpiry k 2 3) b).link 2).nacks, ((run (.holdTimeExpiry (k - 1) 2 3) b).link 2).nacks)) = ([3], []) ∧
      (let y := ((linked []).modLink 2 fun l => { l with fresh := [3] }).ctlOnAir 2 1 .h
       ((y.link 2).fresh, y.outs.length)) = ([], 1) ∧
      (let y := ((linked []).modLink 2 fun l => { l with nacks := [3], held := [{ stream := 3, cseq := 2 }] }).ctlOnAir 2 2 .h
       (y.get Obj.linkNacksSent 2, (y.link 2).nacks)) = (1, []) ∧ cseqMod = 2 ^ 24 := by decide +kernel

/-- A resend, at RESEND_TIME and not before; a strand that dies, at its tick and not before; a deleted link. -/
theorem test_cane_timers :
    (let b := linked [cane 5 7]
     let k := ms (b.get Obj.caneResendTime 2)
     ((run (.resendTimeExpiry k 5) b).frames.map (·.resend), (run (.resendTimeExpiry k 5) b).get Obj.linkResends 2,
       (run (.resendTimeExpiry (k - 1) 5) b).get Obj.linkResends 2)) = ([true], 1, 0) ∧
      (let b := (linked [cane 5 7]).modStrand 2 .h fun z => { z with owedAt := some 0 }
       let k := b.deadTime 2 .h
       let x := run (.strandDeadTimeExpiry k 2 .h) b
       (b.strandOwed 2 .h, x.strandState 2 .h, (run (.strandDeadTimeExpiry (k - 1) 2 .h) b).strandState 2 .h)) = (true, 3, 2) ∧
      (let x := (linked [cane 5 7]).failStrand 2 .h 2
       (x.frames.map fun f => (f.resend, f.strand), (x.strandOf 2 .h).returning)) = ([(true, none)], some [5]) ∧
      (linked [cane 5 7]).strandState 2 .h = 2 ∧ (cane 5 7).onStrand 2 .h ∧
      admitted { linked [] with window := some 0 } .console 0x3600 17 2 1 1 Obj.caneDelete 2 ∧
      ((linked [cane 5 7]).deleteLink 2).frames = [] ∧ ((linked []).deleteLink 2).get Obj.caneEnable 2 = 0 := by decide +kernel

/-- FAILOVERS counts once the last returned frame has gone out again. -/
theorem test_failover_ends :
    (let b (again : Bool) := (linked [{ cane 5 7 with resend := again }]).modStrand 2 .h fun z => { z with returning := some [5] }
     ((b true).failoversDone.get Obj.linkFailovers 2, (b false).failoversDone.get Obj.linkFailovers 2,
       ((b false).failoversDone.strandOf 2 .h).returning)) = (0, 1, none) := by decide +kernel

/-- The headers of R235 to R237 octet by octet, and headers that are bad. -/
theorem test_cane_headers :
    caneDataHeader 3 0x010203 true false true = [0x10, 0x3A, 1, 2, 3] ∧
      caneAckHeader [⟨15, 7, 1⟩] = [0x11, 1, 0xF0, 0, 0, 7, 0, 0, 0, 0, 0, 0, 0, 1] ∧
      caneNackHeader [⟨3, 256, 1024⟩] = [0x12, 1, 0x30, 0, 1, 0, 4, 0] ∧ caneProbeHeader 5 77 = [0x13, 5, 0, 77] ∧
      caneRead [0x11, 1, 0xF0, 0, 0, 7, 0, 0, 0, 0, 0, 0, 0, 1] = .ack [⟨15, 7, 1⟩] ∧
      caneRead [0x12, 1, 0x30, 0, 1, 0, 4, 0] = .nack [⟨3, 256, 1024⟩] ∧ caneRead [0x13, 5, 0, 77] = .probe 5 77 ∧
      caneRead [0x10, 0x3A, 1, 2, 3] = .data 3 0x010203 true ∧
      caneRead [0x10, 0xF0, 0, 0, 9, 2, 0, 0, 0, 60] = .mgmt 9 false 2 [0, 0, 0, 60] ∧
      [[0x20, 0x30, 0, 0, 0], [0x14, 0, 0, 0, 0], [0x10, 0x31, 0, 0, 0], [0x10, 0x80, 0, 0, 0], [0x13, 8, 0, 0], [0x11, 0],
        [0x12, 1, 0x30, 0, 0, 0, 4, 1]].all (fun l => caneRead l == .bad) = true := by decide +kernel

/-- A management frame of link 2 that radio H is to send, its channel tuned. -/
def mgmtCmd : TxCmd := cmdOf (.mgmt 2 0 true)

/-- Link 2 with that frame in its buffer, and the command in a phase. -/
def managing (p : Phase) : Block :=
  (((linked []).mgmtSend 2 1 [7]).put (Obj.synthState.of .h) 2).modRadio .h fun u =>
    { u with freq := 5180000, bw := 20000, cmd := some mgmtCmd, phase := p }

/-- A management frame: its commit, its first sample, which carries it, its acknowledgement and its failure. -/
theorem test_mgmt_frame :
    (let b := managing .waiting
     (b.mayCommit .h mgmtCmd, b.cmdValid .h mgmtCmd, b.hasTurn .h mgmtCmd, ((run (.txCommit 0 .h) b).radio .h).phase)) =
      (true, true, true, .onAir) ∧
      (let b := (managing .onAir).modRadio .h fun u => { u with air := some { cmd := mgmtCmd } }
       let x := run (.ppduFirstSample 0 .h) b
       (x.outs.length, (x.link 2).send.map (·.sent), ((x.mgmtResult 2 .h 0 false).link 2).send.map (·.sent),
         ((x.mgmtResult 2 .h 0 true).link 2).send.map (·.acked))) = (2, [true], [false], [true]) := by decide +kernel

/-- A BlockAckReq of a link that has come up again, and a PROBE, on radio H; a frame of a neighbour on Radio L. -/
theorem test_link_commits :
    (let c := cmdOf (.caneCtl 2 4)
     let b := (managing .waiting).modStrand 2 .h fun z => { z with bar := true }
     let w := b.modRadio .h fun u => { u with cmd := some c }
     (w.cmdValid .h c, w.hasTurn .h c, ((run (.txCommit 0 .h) w).radio .h).phase, b.cmdValid .h mgmtCmd)) = (true, true, .onAir, false) ∧
      (let c : TxCmd := { what := .frame 5, kind := .immediate, ppdu := { form := pollForm, psdu := [1] } }
       let b := ((withNbr .fullService 2 [low 5 none]).put (Obj.synthState.of .l) 2).put Obj.nbrTxMode 2 3
       let w := b.modRadio .l fun u => { u with freq := 868300, bw := 250, cmd := some c, phase := .waiting }
       (w.mayCommit .l c, w.cmdValid .l c, w.hasTurn .l c, w.lowCtx (low 5 none))) = (true, true, true, none) ∧
      (let c : TxCmd := { what := .frame 5, kind := .immediate, ppdu := { form := pollForm, psdu := [1] } }
       let b := (((withNbr .fullService 2 [low 5 none]).put (Obj.synthState.of .l) 2).put Obj.nbrTxMode 2 3).put Obj.regionState 1
       let w := b.modRadio .l fun u => { u with
         freq := 868300, bw := 250, cmd := some c, phase := .waiting
         shadow := some { allow := [⟨2, 868000, 868600, 250, false⟩], limits := [⟨2, 868000, 868600, [56], 0⟩] } }
       ((w.channelStatus .l 868300 250, ((run (.txCommit 0 .l) w).radio .l).phase))) = (0, .onAir) := by decide +kernel

/-- What a control frame takes on Strand L. -/
theorem test_low_control :
    (let b := ((linked []).put Obj.caneLNbr 7 2).put Obj.nbrTxSeq 65535 7
     ((b.ctlOnAir 2 1 .l).get Obj.nbrTxSeq 7, (b.ctlOnAir 2 1 .l).outs)) =
      (0, [.cane 2 .l 1 7 0 (caneAckHeader [])]) := by decide +kernel

/-- What an ACK covers at the ends of its ranges. -/
theorem test_ack_covers :
    [7, 8, 9, 72, 73].map (ackCovers ⟨3, 7, 2 ^ 63 + 1⟩) = [true, false, true, true, false] ∧
      ackCovers ⟨3, 0, 0⟩ (2 ^ 24 - 1) ∧ ackCovers ⟨3, 0, 0⟩ (2 ^ 23 + 1) ∧ ackCovers ⟨3, 0, 0⟩ (2 ^ 23) = false ∧
      ({ stream := 3, cum := 7, bitmap := 0 } : AckRec).cum < cseqMod := by decide +kernel

/-- Context 9 with an algorithm and a state. -/
def keyed (alg st : Nat) : Block := ((full.put Obj.ctxAlg alg 9).put Obj.ctxState st 9).setKeyCtx { row := 9, key := some 1 }

/-- KEY: into a context that is off; a key too long; no algorithm; a context that holds a key. -/
theorem test_key_write :
    keyLen 1 = 16 ∧ keyLen 4 = 32 ∧ ((keyed 0 0).writeKey 9 1).1 = 6 ∧ ((keyed 1 0).writeKey 9 1).1 = 6 ∧
      ((keyed 4 1).writeKey 9 1).1 = 9 ∧
      (let x := (keyed 1 0).writeKey 9 (5 * 2 ^ 128)
       (x.1, x.2.get Obj.ctxState 9, x.2.get Obj.ctxTxNext 9, (x.2.keyCtx 9).key)) = (0, 1, firstCounter 1, some (5 * 2 ^ 128)) ∧
      ((keyed 4 0).writeKey 9 1).1 = 0 ∧
      admitted { keyed 4 0 with window := some 0 } .console 0x7400 2 9 32 1 Obj.ctxKey 9 := by decide +kernel

/-- REKEY: nothing staged; a retiring key held; a rekey. ERASE, and the retiring key's end. -/
theorem test_rekey :
    ((keyed 4 1).rekey 9).1 = 13 ∧ (((keyed 4 1).setKeyCtx { row := 9, key := some 1, next := some 2, old := some 3 }).rekey 9).1 = 9 ∧
      (let x := ((keyed 4 1).setKeyCtx { row := 9, key := some 1, next := some 2 }).rekey 9
       (x.1, (x.2.keyCtx 9).key, (x.2.keyCtx 9).old, x.2.get Obj.ctxRetiring 9)) = (0, some 2, some 1, 1) ∧
      admitted { keyed 4 1 with window := some 0 } .console 0x7400 11 9 1 1 Obj.ctxRekey 9 ∧
      admitted { keyed 4 1 with window := some 0 } .console 0x7400 13 9 1 1 Obj.ctxErase 9 ∧
      ((keyed 4 1).eraseKey 9).get Obj.ctxState 9 = 0 ∧ ((keyed 4 1).eraseKey 9).keyCtx 9 = { row := 9 } ∧
      (let b := (keyed 4 1).setKeyCtx { row := 9, key := some 1, old := some 3, oldUntil := 0 }
       (((run (.retiringKeyClear 0 9) b).keyCtx 9).old, decide (((run (.retiringKeyClear 0 9) (keyed 4 1)).keyCtx 9).old = none))) =
       (none, true) := by decide +kernel

/-- A counter is given once, the last one exhausts the context, and an exhausted one gives none. -/
theorem test_key_counters :
    (((keyed 4 1).put Obj.ctxTxNext 5 9).takeCounter 9).1 = some 5 ∧
      (((keyed 4 1).put Obj.ctxTxNext 5 9).takeCounter 9).2.get Obj.ctxTxNext 9 = 6 ∧
      (((keyed 4 1).put Obj.ctxTxNext (lastCounter 4) 9).takeCounter 9).2.get Obj.ctxState 9 = 2 ∧
      ((keyed 4 2).takeCounter 9).1 = none ∧ ((keyed 4 2).takeCounter 9).2.get Obj.ctxExhaustedRefused 9 = 1 := by decide +kernel

/-- The job words of a seal of context 9, with LEN in octets 16 and 17. -/
def jobWords (op len : Nat) : Nat := (9 * 256 ^ 31) + op * 256 ^ 29 + (len % 256) * 256 ^ 15 + (len / 256) * 256 ^ 14

/-- A job that is refused for its context, its length or its exhausted counter; one that runs; one while another runs.
-/
theorem test_jobs :
    octFieldLE (jobWords 0 100) 32 0 2 = 9 ∧ octFieldLE (jobWords 1 100) 32 2 1 = 1 ∧ octFieldLE (jobWords 0 16384) 32 16 2 = 16384 ∧
      (keyed 6 0).jobRefusal (jobWords 0 100) = 1 ∧ (keyed 6 2).jobRefusal (jobWords 0 100) = 5 ∧
      (keyed 6 1).jobRefusal (jobWords 0 16384) = 4 ∧
      (let x := ((keyed 6 1).put Obj.jobJob (jobWords 0 100) 67).runJob 3 67
       (x.1, x.2.get Obj.jobJobStatus 67, x.2.jobs.map (·.engine))) = (0, 255, [3]) ∧
      (({ keyed 6 1 with jobs := [⟨3, 0, 0, 0⟩] } : Block).runJob 3 67).1 = 9 ∧
      (((keyed 6 0).put Obj.jobJob (jobWords 0 100) 67).runJob 3 67).1 = 15 ∧
      admitted (full.tick 0) (.engine 5) 0x7410 2 noRow 1 1 Obj.jobRun 69 ∧
      ((st full).jobDone 3).blk.jobs = [] := by decide +kernel

/-! ### Network time, triggers, captures and timers -/

/-- OFFSET_IN of an offset below 2^8 in 2^-16 ns at whole seconds below 2^8, with a last octet. -/
def offsetWord (e sec last : Nat) : Nat := e * 256 ^ 23 + sec * 256 ^ 15 + last

/-- Full Service with domain 0 presented, its SOURCE a port and its STATE given. -/
def synced (st : Nat) : Block := (full.put Obj.domSource 1 0).put Obj.domState st 0

/-- OFFSET_IN: a reserved octet, a SOURCE that is no port, a time not later, and a sample; the writes are admitted. -/
theorem test_offset_in :
    ((synced 1).writeOffsetIn 0 (offsetWord 1 5 1)).1 = 6 ∧ ((full.put Obj.domSource 0 0).writeOffsetIn 0 (offsetWord 1 5 0)).1 = 9 ∧
      (({ synced 1 with time := { a := { prev := some (5 * 1000000000 * 65536) } } } : Block).writeOffsetIn 0 (offsetWord 1 5 0)).1 = 13 ∧
      ((synced 1).writeOffsetIn 0 (offsetWord 1 5 0)).1 = 0 ∧ octFieldLE (offsetWord 1 5 0) 24 8 8 = 5 ∧
      admitted ({ full with window := some 0 }.tick 0) .console 0x5000 9 0 24 (offsetWord 1 5 0) Obj.domOffsetIn 0 ∧
      admitted ({ full with window := some 0 }.tick 0) .console 0x5000 1 0 1 1 Obj.domSource 0 ∧
      admitted ({ full with window := some 0 }.tick 0) .console 0x5010 1 noRow 1 1 Obj.presentSel 0 ∧
      admitted ({ full with window := some 0 }.tick 0) .console 0x5010 3 noRow 1 1 Obj.stepAllow 0 ∧
      admitted ({ full with window := some 0 }.tick 0) .console 0x5010 9 noRow 14 5 Obj.presentSet 0 := by decide +kernel

/-- A sample steps an Unlocked domain and updates the servo of another; the eighth good one locks; SOURCE starts it
anew. -/
theorem test_samples :
    (let x := (synced 0).sample 0 5 100
     (x.get Obj.domState 0, x.get Obj.domSteps 0, (x.time.dom 0).at 0 - ((synced 0).time.dom 0).at 0)) = (1, 1, 5 * 2 ^ 40) ∧
      ((synced 3).sample 0 5 100).get Obj.domState 0 = 1 ∧
      (let b := { synced 1 with time := { a := { good := 7 } } }
       ((b.sample 0 5 100).get Obj.domState 0, (b.sample 0 5 100).is Obj.timeValid)) = (2, true) ∧
      5 ≤ full.get Obj.domLockThreshold 0 * 65536 ∧ full.get Obj.domStepThreshold 0 * 65536 ≥ 5 ∧
      (let x := ((synced 2).put Obj.timeValid 1).writeSource 0 2
       (x.1, x.2.get Obj.domState 0, x.2.is Obj.timeValid)) = (0, 0, false) ∧ full.coreA ∧ full.get Obj.presentSel = 0 := by
  decide +kernel

/-- A SOURCE timeout with and without a switch, at its tick and not before; the limit of Holdover; the alignment of
the RTC. -/
theorem test_holdover :
    (let b := (synced 2).put Obj.autoSwitch 0
     let k := ms (b.get Obj.domSourceTimeout 0)
     ((run (.sourceTimeoutExpiry k 0) b).get Obj.domState 0, (run (.sourceTimeoutExpiry k 0) b).get Obj.presentSel,
       (run (.sourceTimeoutExpiry (k - 1) 0) b).get Obj.domState 0)) = (3, 0, 2) ∧
      (let b := ((synced 2).put Obj.autoSwitch 1).put Obj.domState 2 1
       (run (.sourceTimeoutExpiry (ms (b.get Obj.domSourceTimeout 0)) 0) b).get Obj.presentSel) = 1 ∧
      (run (.sourceTimeoutExpiry 0 0) (synced 0)).get Obj.domState 0 = 0 ∧
      (let b := ((synced 3).put Obj.autoSwitch 0).put Obj.timeValid 1
       let k := secs (b.get Obj.holdoverLimit)
       ((run (.holdoverLimitExpiry k) b).is Obj.timeValid, (run (.holdoverLimitExpiry (k - 1)) b).is Obj.timeValid)) = (false, true) ∧
      (let b : Block := { (synced 2).put Obj.timeValid 1 with time := { alignAt := some 9 } }
       ((run (.rtcAlign 9) b).time.alignAt.isSome, (run (.rtcAlign 9) b).time.rtcRef, (run (.rtcAlign 8) b).time.rtcRef)) =
        (true, 0, 0) ∧
      ((synced 2).put Obj.timeValid 1).timeValidNow ∧ (synced 2).timeValidNow = false ∧ asleep.coreA = false := by decide +kernel

/-- PRESENT_SEL, STEP_ALLOW and PRESENT_SET. -/
theorem test_presented :
    (full.writePresentSel 0).2 = full ∧ (full.writePresentSel 1).2.get Obj.switches = 1 ∧ (full.writePresentSel 1).2.get Obj.presentSel = 1 ∧
      (full.writeStepAllow 1).2.offset = 0 ∧ (full.writePresentSet 5).2.presented = ofTime112 5 ∧ ofTime112 5 ≠ full.presented := by
  decide +kernel

/-- Full Service with trigger 2 enabled in a mode. -/
def triggered (mode : Nat) : Block := (full.put Obj.trigEnable 1 2).put Obj.trigMode mode 2

/-- A one-shot trigger ends and a periodic one goes on; each target; one whose NEXT is still to come. -/
theorem test_triggers :
    (let x := run (.triggerFire 0 2) (triggered 0)
     (x.get Obj.trigFired 2, x.get Obj.trigEnable 2)) = (1, 0) ∧
      (let x := run (.triggerFire 0 2) ((triggered 1).put Obj.trigPeriod 9 2)
       (x.is Obj.trigEnable 2, x.get Obj.trigNext 2)) = (true, ofT16 (t16 (full.get Obj.trigNext 2) + 9)) ∧
      (run (.triggerFire 0 2) ((triggered 0).put Obj.trigTarget 1 2)).field.scanning ∧
      (run (.triggerFire 0 2) (((triggered 0).put Obj.trigTarget 4 2).put Obj.ppsGate 0)).pins.ppsOut ∧
      (run (.triggerFire 0 2) full).get Obj.trigFired 2 = 0 ∧
      (let b := (triggered 0).put Obj.trigNext (5 * 2 ^ 48) 2
       ((run (.triggerFire (secs 5) 2) b).get Obj.trigFired 2, (run (.triggerFire (secs 5 - 1) 2) b).get Obj.trigFired 2)) = (1, 0) := by
  decide +kernel

/-- An ENABLE with a past START is late; row 15 is held by a slotframe; PPS_OUT falls at its tick and not before. -/
theorem test_trigger_writes :
    (let b := full.tick (secs 5)
     ((b.writeTrigEnable 2 1).2.get Obj.trigLate 2, decide (t16 (b.get Obj.trigStart 2) < b.presented16))) = (1, true) ∧
      full.presented16 ≤ t16 (full.get Obj.trigStart 2) ∧ ((full.put Obj.sfEnable 1 0).writeTrigEnable 15 1).1 = 9 ∧
      (let b := { full with pins := { full.pins with ppsOut := true } }.put Obj.ppsGate 0
       let k := us (b.get Obj.ppsWidth)
       ((run (.ppsOutFall k) b).outs, (run (.ppsOutFall (k - 1)) b).outs)) = ([.pin 4 false], []) ∧
      full.pins.ppsOut = false ∧ admitted (full.tick 0) .console 0x5100 1 2 1 1 Obj.trigEnable 2 := by decide +kernel

/-- A read by a port is admitted: the port is open, the commit point is idle, and the checks give the object. -/
def readable (b : Block) (p : Port) (idx sub row : Nat) (r : Reg) (k : Nat) : Prop :=
  b.portOpen p = true ∧ b.pointIdle = true ∧ (b.checkAccess p idx sub row false).toOption = some (r, k)

/-- Captures: an edge, a missed one, an edge that CAP_EDGE leaves out. -/
theorem test_captures :
    (let b := full.put Obj.capSource 0 3
     let x := run (.captureEdge 0 3 true) b
     (x.get Obj.capCount 3, x.unread.getD 3 false, (run (.captureEdge 0 3 true) x).get Obj.capMissed 3)) = (1, true, 1) ∧
      full.unread.length = 8 ∧ (run (.captureEdge 0 3 true) (full.put Obj.capSource 255 3)).get Obj.capCount 3 = 0 ∧
      (run (.captureEdge 0 3 true) ((full.put Obj.capSource 0 3).put Obj.capEdge 2 3)).get Obj.capCount 3 = 0 := by decide +kernel

/-- Stamp queues: the oldest stamp, an empty queue, a stamp that enters, the 33rd stamp. -/
theorem test_stamps :
    (({ full with stamps := [[], [⟨7, 9⟩], [], [], []] } : Block).popStamp 1).2.1 = 7 * 2 ^ 112 + 9 ∧ (full.popStamp 1).1 = 13 ∧
      full.stamps.length = 5 ∧ ((full.pushStamp 1 8 9).stamps.getD 1 []).map (fun e => (e.ident, e.time)) = [(8, 9)] ∧
      (({ full with stamps := [[], List.replicate 32 ⟨7, 9⟩, [], [], []] } : Block).pushStamp 1 8 9).get Obj.tsqLost 1 = 1 := by
  decide +kernel

/-- The reads of the statements are admitted. -/
theorem test_time_reads :
    readable (full.tick 0) .console 0x5200 1 1 Obj.tsqPop 1 ∧ readable (full.tick 0) .console 0x5200 3 1 Obj.tsqOverflow 1 ∧
      readable (full.tick 0) .console 0x5100 9 2 Obj.trigLate 2 ∧ readable (full.tick 0) .console 0x5110 5 3 Obj.capTime 3 ∧
      readable (full.tick 0) .console 0x5300 7 2 Obj.tmrCount 2 ∧ readable (full.tick 0) .console 0x5300 10 3 Obj.tmrEvents 3 := by
  unfold readable; decide +kernel

/-- Full Service with timer 3 enabled in a mode, its COUNT, COMPARE and PERIOD. -/
def timing (mode count compare period : Nat) : Block :=
  (((((full.put Obj.tmrEnable 1 3).put Obj.tmrMode mode 3).put Obj.tmrSource 1 3).put Obj.tmrCompare compare 3).put Obj.tmrPeriod period 3).modTimer
    3 fun c => { c with count := count, armed := true }

/-- A reload at its tick and one tick before it, a one-shot's reload, a compare, a capture. -/
theorem test_timers :
    (let b := (timing 0 5 2 9).put Obj.tmrSource 0 3
     let k := (b.reloadAt 3).getD 0
     let x := run (.timerReload k 3) b
     (k, (x.timers.getD 3 {}).count, (x.get Obj.tmrEvents 3).testBit 0, x.is Obj.tmrEnable 3,
       ((run (.timerReload (k - 1) 3) b).get Obj.tmrEvents 3).testBit 0)) = (5, 0, true, true, false) ∧
      (run (.timerReload 5 3) ((timing 1 5 2 9).put Obj.tmrSource 0 3)).is Obj.tmrEnable 3 = false ∧
      (let x := run (.timerCompare 0 3) (timing 0 5 5 9)
       ((x.timers.getD 3 {}).armed, (x.get Obj.tmrEvents 3).testBit 1)) = (false, true) ∧
      ((run (.timerCompare 0 3) (timing 0 4 5 9)).timers.getD 3 {}).armed = true ∧
      (let x := run (.timerPinCapture 0 3) (timing 2 5 2 9)
       (x.get Obj.tmrCapture 3, (x.get Obj.tmrEvents 3).testBit 2)) = (5, true) ∧
      (timing 0 5 5 9).timerHead 3 = 3 ∧ (timing 0 5 5 9).canFire 3 ∧ (timing 0 5 5 9).comparePassed 3 ∧ full.timers.length = 16 := by
  decide +kernel

/-- A counted edge below PERIOD, the other edge, and one at PERIOD. -/
theorem test_counted_edges :
    (let b := (timing 0 5 8 9).modTimer 3 fun c => { c with armed := false }
     (((run (.tmrIoCountEdge 0 3 true) b).timers.getD 3 {}).count, ((run (.tmrIoCountEdge 0 3 false) b).timers.getD 3 {}).count)) =
      (6, 5) ∧
      ((run (.tmrIoCountEdge 0 3 true) (timing 0 9 2 9)).get Obj.tmrEvents 3).testBit 0 := by decide +kernel

/-- Writes of COMPARE: buffered by PWM, passed and not yet passed; PERIOD; GLOBAL_GO; a latched pair; EVENTS. -/
theorem test_timer_writes :
    ((((timing 3 5 2 9).writeCompare 3 7).2.timers.getD 3 {}).buffered) = some 7 ∧
      (((timing 0 5 2 9).writeCompare 3 4).2.get Obj.tmrEvents 3).testBit 1 ∧
      ((((timing 0 5 2 9).writeCompare 3 7).2.timers.getD 3 {}).armed) ∧ (full.writeCompare 3 7).2 = full.put Obj.tmrCompare 7 3 ∧
      ((timing 0 5 2 9).writePeriod 3 7).2.get Obj.tmrPeriod 3 = 7 ∧
      (let x := (full.put Obj.globalArm 10).globalStart
       (x.get Obj.globalArm, x.get Obj.tmrEnable 1, x.get Obj.tmrEnable 2, x.get Obj.tmrEnable 3)) = (0, 1, 0, 1) ∧
      (let b := ((full.put Obj.pairLink 1 1).modTimer 2 fun c => { c with count := 7 * 2 ^ 32 }).latchHigh .console 1
       (b.readHigh .console 1).1) = 7 ∧
      admitted (full.tick 0) .console 0x5300 6 3 4 7 Obj.tmrCompare 3 ∧ admitted (full.tick 0) .console 0x5300 5 3 4 7 Obj.tmrPeriod 3 ∧
      admitted (full.tick 0) .console 0x5320 2 noRow 1 1 Obj.globalGo 0 := by decide +kernel

/-! ### The field side -/

/-- Full Service with the outputs driven. -/
def lit : Block := { full with field := { driven := true } }

/-- Marks of a 50 Hz mains, the last at 90 ms. -/
def mainsMarks : List Nat := [ms 90, ms 80, ms 70, ms 60, ms 50, ms 40, ms 30, ms 20, ms 10]

/-- The manual's example (R362): with ON_LEAD 4 ms and crossings every 10 ms, COMMAND at 3 ms past a crossing switches
at 6 ms, and at 6.1 ms past it at 16 ms. -/
theorem test_relay_instant :
    relayInstant 0 (ms 10) (ms 4) (ms 3) = ms 6 ∧ relayInstant 0 (ms 10) (ms 4) (us 6100) = ms 16 := by decide +kernel

/-- Dimming: a fade, its limits, the level after it and released; writes are admitted. -/
theorem test_dimming :
    (let x := lit.writeDim 0 100
     (x.1, x.2.get Obj.dim0Level, (x.2.field.fades.getD 0 {}).target)) = (0, 100, 100) ∧ lit.feRuns ∧ lit.field.fades.length = 2 ∧
      lit.dimLimit 0 = 0 ∧ lit.dimLimit 1 = max 1 (lit.get Obj.dimMin) ∧
      (lit.put Obj.alarmActive 1 2).dimLimit 255 = min 255 (lit.get Obj.hotDim) ∧ full.dimOut 0 = 0 ∧
      ((lit.writeDim 0 100).2.tick (secs 900)).dimOut 0 = 100 ∧
      admitted (full.tick 0) .console 0x6100 2 noRow 1 9 Obj.dim0Level 0 ∧ admitted (full.tick 0) .console 0x6100 3 noRow 1 9 Obj.dim1Level 0 ∧
      admitted (full.tick 0) .console 0x6110 1 1 1 1 Obj.relayCommand 1 := by decide +kernel

/-- Relays: at once, unsynchronised, at its instant; the same command again. -/
theorem test_relays :
    (let x := (lit.put Obj.relayZxSync 0 1).writeRelay 1 1
     (x.2.get Obj.relayPinState 1, x.2.get Obj.relayOperations 1, x.2.get Obj.relayUnsynced 1)) = (1, 1, 0) ∧
      (let x := (lit.put Obj.relayZxSync 1 1).writeRelay 1 1
       (x.2.get Obj.relayPinState 1, x.2.get Obj.relayUnsynced 1)) = (1, 1) ∧
      (let b := ({ lit with now := ms 93, field := { driven := true, zx := mainsMarks } }.put Obj.relayZxSync 1 1).put Obj.zxEdges 3
       (b.halfPeriod, (b.writeRelay 1 1).2.field.relayDue.getD 1 none, (b.writeRelay 1 1).2.get Obj.relayPinState 1)) =
       (some (ms 10), some (relayInstant (ms 90) (ms 10) (us (full.get Obj.relayOnLead 1)) (ms 93)), 0) ∧
      (lit.writeRelay 1 0).1 = 0 ∧ lit.get Obj.relayCommand 1 = 0 ∧ lit.field.relayDue.length = 2 ∧ lit.halfPeriod = none := by
  decide +kernel

/-- The switch of a relay one tick before its instant and at it; zero crossings; ZX_TIMEOUT one tick before its end,
at it, and without mains. -/
theorem test_zero_crossing :
    ([8, 9].map fun t => (run (.relaySwitch t 1) ({ lit with field := { driven := true, relayDue := [none, some 9] } }.put
        Obj.relayCommand 1 1)).is Obj.relayPinState 1) = [false, true] ∧
      (run (.zxEdge 7 true) (full.put Obj.zxEdges 1)).field.zx = [7] ∧ (run (.zxEdge 7 false) (full.put Obj.zxEdges 1)).field.zx = [] ∧
      (let due := ms (full.get Obj.zxTimeout)
       let b := full.put Obj.alarmEnable 1 5
       [alarmBit (run (.zxTimeoutExpiry (due - 1)) b) 5 0, alarmBit (run (.zxTimeoutExpiry due) b) 5 0,
         alarmBit (run (.zxTimeoutExpiry due) { b with pins := { mainEn := true } }) 5 0]) = [false, true, false] ∧
      (let b := (full.put Obj.alarmEnable 1 5).setAlarm 5 0 true
       [alarmBit b 5 0, alarmBit (run (.zxEdge 7 true) b) 5 0]) = [true, false] := by decide +kernel

/-- Alarms: a row that is not enabled, one raised, one cleared, and CLEAR while active. -/
theorem test_alarms :
    alarmBit ((full.put Obj.alarmEnable 0 20).setAlarm 20 3 true) 20 3 = false ∧
      (let b := full.put Obj.alarmEnable 1 20
       let x := b.setAlarm 20 3 true
       ([b.feRuns, b.is Obj.alarmEnable 20, alarmBit b 20 3, alarmBit x 20 3, alarmBit (x.setAlarm 20 3 false) 20 3],
         [x.get Obj.alarmActive 20, x.get Obj.alarmRaises 20, (x.writeAlarmClear 20 1).1, (b.writeAlarmClear 20 1).1])) =
       ([true, true, false, true, false], [1, 1, 9, 0]) ∧
      admitted ({ full with window := some 0 }.tick 0) .console 0x6500 5 12 1 1 Obj.alarmClear 12 ∧
      admitted (full.tick 0) .console 0x6500 8 24 1 1 Obj.alarmRaise 24 := by decide +kernel

/-- DALI served, with a queue and a running row. -/
def dali (q : List Nat) (r : Option DaliRun) : Block :=
  { full with field := { daliQueue := q, daliRun := r } }.put Obj.daliEnable 1

/-- A running row of FLAGS after an end: its result and reply, or what it stays in. -/
def daliEnded (flags : Nat) (e : DaliEnd) : Nat × Nat × Option DaliRun :=
  let x := run (.daliRowEnd 0 e) ((dali [] (some { row := 4 })).put Obj.daliFlags flags 4)
  (x.get Obj.daliResult 4, x.get Obj.daliReply 4, x.field.daliRun)

/-- A row is submitted, starts, and ends with each result. -/
theorem test_dali :
    (let x := run (.daliRowStart 0) (dali [4, 5] none)
     (x.field.daliRun.map (·.row), x.field.daliQueue, x.get Obj.daliState 4, x.outs)) =
       (some 4, [5], 2, [.dali 0 16 (full.get Obj.daliPriority)]) ∧
      ([DaliEnd.sent, .reply 300, .silence, .garbled].map (daliEnded 0)) =
        [(0, 0, none), (0, 0, some ⟨4, 0⟩), (0, 0, some ⟨4, 0⟩), (0, 0, some ⟨4, 0⟩)] ∧
      ([DaliEnd.sent, .reply 300, .silence, .garbled].map (daliEnded 2)) =
        [(0, 0, some ⟨4, 0⟩), (1, 44, none), (2, 0, none), (3, 0, none)] ∧
      (daliEnded 0 .interleaved, daliEnded 4 .interleaved) = ((0, 0, some ⟨4, 0⟩), (0, 0, some ⟨4, 1⟩)) ∧
      (let x := run (.daliCollision 0) (dali [] (some { row := 4, tries := 9 }))
       (x.get Obj.daliResult 4, x.get Obj.daliCollisions)) = (4, 1) ∧
      ((run (.daliCollision 0) (dali [] (some { row := 4 }))).field.daliRun.map (·.tries)) = some 1 ∧
      0 + 1 ≤ full.get Obj.daliRetries ∧ full.get Obj.daliRetries < 9 + 1 := by decide +kernel

/-- STATE of a DALI row is written: a value other than 1, a row under way, a free row, and a row while the bus is
down. -/
theorem test_dali_state :
    (full.writeDaliState 4 2).1 = 6 ∧ ((full.put Obj.daliState 1 4).writeDaliState 4 1).1 = 9 ∧
      (full.writeDaliState 4 1).2.field.daliQueue = [4] ∧
      (let x := { dali [] none with field := { daliDown := true } }.writeDaliState 4 1
       (x.1, x.2.get Obj.daliState 4, x.2.get Obj.daliResult 4)) = (0, 3, 5) ∧
      admitted (full.tick 0) .console 0x6010 3 4 1 1 Obj.daliState 4 ∧ (dali [] none).feRuns ∧ (dali [] none).field.daliRun = none := by
  decide +kernel

/-- The bus goes down and comes back; an address answers and misses its third poll, or the poll is not due. -/
theorem test_dali_bus :
    (let x := run (.daliBusDown 0) ((dali [5] (some { row := 4 })).put Obj.alarmEnable 1 6)
     (x.field.daliDown, x.get Obj.daliResult 4, x.get Obj.daliResult 5, alarmBit x 6 0, (run (.daliBusUp 0) x).field.daliDown,
       alarmBit (run (.daliBusUp 0) x) 6 0)) = (true, 5, 5, true, false, false) ∧
      (let b := ((dali [] none).put Obj.daliPollMask (2 ^ 9)).put Obj.alarmEnable 1 7
       ((run (.daliPoll 0 [(9, some 2)]) b).outs.head?, alarmBit (run (.daliPoll 0 [(9, some 2)]) b) 7 9,
         alarmBit (run (.daliPoll 0 [(9, some 4)]) b) 7 9)) = (some (.dali 0x1390 16 5), true, false) ∧
      (let b := (dali [] none).put Obj.daliPollMask (2 ^ 9)
       let due := secs (full.get Obj.daliPollPeriod)
       [due - 1, due].map fun t => assocNat (run (.daliPoll t [(9, none)])
         { b with field := { daliMissed := [(9, 1)], pollAt := some 0 } }).field.daliMissed 9) = [1, 2] ∧
      (let b := (((dali [] none).put Obj.daliPollMask (2 ^ 9)).put Obj.alarmEnable 1 8)
       alarmBit (run (.daliPoll 0 [(9, none)]) { b with field := { daliMissed := [(9, 2)] } }) 8 9) := by decide +kernel

/-- CAN FD: a frame for a filter, one for none, one of Plais, a long one with and without FD; bus-off and its
recovery. -/
theorem test_can :
    (let b := (full.put Obj.canfFilterMask 0x7FF 2).put Obj.canfFilterId 0x123 2
     ([b.canFilter 0x123 false, b.canFilter 0x124 false],
       ([(0x123, 1), (0x124, 1), (0x123, 8), (0x123, 9)].map fun (id, n) =>
         (run (.canFrameReceived 0 id false (List.replicate n 7)) (b.put Obj.fdEnable 0)).outs.length),
       (run (.canFrameReceived 0 0x123 false [7]) b).outs)) = ([some 2, none], [1, 0, 1, 0], [.canIn 2 0x123 [7]]) ∧
      full.canIsPlais 0x123 false = false ∧
      ((full.put Obj.canEnable 1).canIsPlais (full.get Obj.canNode * 2 ^ 17) true) ∧ full.get Obj.busState < 2 ∧
      full.feRuns ∧
      (let x := run (.busOffRecovery 0) ((full.put Obj.alarmEnable 1 12).put Obj.busState 2 |>.setAlarm 12 0 true)
       (x.get Obj.busState, x.get Obj.tec, alarmBit x 12 0)) = (0, 0, false) := by decide +kernel

/-- Lane 1 led by detector 3, trailed by detector 4, its vehicles given. -/
def lane1 (cars : List Vehicle) : Block :=
  ((((full.put Obj.laneLead 3 1).put Obj.laneTrail 4 1).put Obj.detActiveLevel 1 3)).modLane 1 fun l => { l with cars := cars }

/-- Detector 3 present since the tick 0, its alarm enabled. -/
def present3 : Block :=
  let b := ((lane1 []).put Obj.detPresent 1 3).put Obj.alarmEnable 1 9
  b.modField fun f => { f with detSince := f.detSince.set 3 (some 0) }

/-- An arrival, a release; a vehicle past MAX_TRAVEL and one within it; a detector stuck for STUCK_TIME and one tick
before it. -/
theorem test_detectors :
    (let x := run (.detectorEdge 0 3 true) (lane1 [])
     (x.is Obj.detPresent 3, x.get Obj.laneTotal 1, x.get Obj.laneTotal 2)) = (true, 1, 0) ∧
      (run (.detectorEdge 0 3 false) ((lane1 []).put Obj.detPresent 1 3)).is Obj.detPresent 3 = false ∧
      (run (.detectorEdge 0 3 false) (lane1 [])).get Obj.laneTotal 1 = 0 ∧
      ([ms (full.get Obj.laneMaxTravel 1) / 2, 2 * ms (full.get Obj.laneMaxTravel 1)].map fun t =>
        let x := run (.maxTravelExpiry t 1) (lane1 [{ leadOn := 5 }])
        ((x.lane 1).cars.length, (x.lane 1).cur.unclassified)) = [(1, 0), (0, 1)] ∧
      ([secs (full.get Obj.detStuckTime 3) - 1, secs (full.get Obj.detStuckTime 3)].map fun t =>
        let x := run (.stuckTimeExpiry t 3) present3
        (alarmBit x 9 3, (x.lane 1).cur.stuck, (x.lane 2).cur.stuck)) = [(false, false, false), (true, true, false)] := by
  decide +kernel

/-- An interval closes at its boundary and only once; its record is written RECORD_HOLD later and not one tick
earlier. -/
theorem test_interval :
    (let b := (lane1 []).modLane 1 fun l => { l with cur := { count := 4 } }
     let x := run (.intervalBoundary 9) b
     let y := run (.intervalBoundary 10) (x.modLane 1 fun l => { l with cur := { count := 7 } })
     [((x.lane 1).cur.count, (x.lane 1).closed.map (·.count)), ((y.lane 1).cur.count, (y.lane 1).closed.map (·.count))]) =
       [(0, some 4), (7, some 4)] ∧
      ([ms (full.get Obj.recordHold) - 1, ms (full.get Obj.recordHold)].map fun t =>
        let x := run (.recordHoldExpiry t) ((lane1 []).modLane 1 fun l => { l with closed := some { count := 4 } })
        (x.get Obj.recNext, x.get Obj.recLane 0, x.get Obj.recCount 0)) = [(0, 255, 0), (1, 1, 4)] ∧ full.field.lanes.length = 8 ∧
      full.get Obj.recNext < 1024 := by decide +kernel

/-- A scan of channel 2 at its end and one tick before it; limits passed for PERSIST, or not yet. -/
theorem test_adc :
    (let b := ({ full with field := { scanning := true } }.put Obj.adcScan 1 2)
     ([b.scanEnd - 1, b.scanEnd].map fun t =>
       let x := run (.adcScanEnd t [0, 0, 5000]) b
       (x.field.scanning, x.get Obj.adcRaw 2, b.get Obj.adcRmsWindow 2))) = [(true, 0, 0), (false, 4095, 0)] ∧ full.field.scanning = false ∧
      (let b : Block := { full with field := { adc := (List.replicate 13 {}).set 2 { above := some 0, below := some 0 } } }
       let p := ms (full.get Obj.adcPersist 2)
       [p - 1, p].map fun t => (alarmBit (run (.adcPersistExpiry t 2 true) (b.put Obj.alarmEnable 1 11)) 11 2,
         alarmBit (run (.adcPersistExpiry t 2 false) (b.put Obj.alarmEnable 1 10)) 10 2)) = [(false, false), (true, true)] ∧
      (full.field.adc.getD 2 {}).above = none := by decide +kernel

/-- The end of CYCLE_WINDOW, and one tick before it; a record's fields. -/
theorem test_cycle :
    (let due := secs (full.get Obj.cycleWindow) + 1
     [due - 1, due].map fun t => (run (.cycleWindowExpiry t) { full with field := { falls := [1] } }).field.falls) = [[1], []] ∧
      (let x := full.writeInterval 1 { occ := 5, start := some 0, ended := 10, speedSum := 700, speeds := 2 }
       (x.get Obj.recOccupancy 0, x.get Obj.recMeanSpeed 0)) = (5000, 350) := by decide +kernel

/-! ### The cullet log and margins -/

/-- A device with a log: the next SEQ 5, posts of the types given that wait, and what is being written. -/
def logged (q : List Nat) (w : Option Nat) : Block :=
  { full with cullet := { next := 5, queue := q.map fun t => { type := t, payload := [] }, writing := w } }

/-- A whole slot, or one whose CRC is not written. -/
def slotOf (whole : Bool) : Slot := { seq := 5, rtc := 0, type := 7, ntime := 0, flags := 0, payload := [], whole := whole }

/-- The head of the queue takes SEQ 5 and slot 133; the POWER_FAIL record goes before it; nothing to write; one
written now. -/
theorem test_record_write :
    (let x := run (.culletRecordWrite 0) (logged [7, 8] none)
     ((assocGet x.cullet.slots 133).map (·.type), x.cullet.next, x.cullet.writing, x.cullet.queue.map (·.type))) =
       (some 7, 6, some 133, [8]) ∧
      (let b := logged [7] none
       let x := run (.culletRecordWrite 0) { b with cullet := { b.cullet with urgent := some { type := 9, payload := [] } } }
       ((assocGet x.cullet.slots 133).map (·.type), x.cullet.queue.map (·.type))) = (some 9, [7]) ∧
      (run (.culletRecordWrite 0) (logged [] none)).cullet = (logged [] none).cullet ∧
      (run (.culletRecordWrite 0) (logged [7] (some 130))).cullet.next = 5 ∧ 128 + 5 % 1920 = 133 := by decide +kernel

/-- The CRC makes a record whole; a first-fault record is copied to the first free slot, or not where none is free. -/
theorem test_crc_written :
    (let b := logged [] (some 133)
     let c := { b with cullet := { b.cullet with slots := [(0, slotOf true), (133, slotOf false)] } }
     let x := run (.culletCrcWritten 0) c
     ((assocGet x.cullet.slots 133).map (·.whole), x.cullet.writing, x.get Obj.ffUsed)) = (some true, none, 1) ∧
      (let b := logged [] (some 133)
       let c := { b with cullet := { b.cullet with slots := [(0, slotOf true), (133, slotOf false)], copyOwed := some (slotOf false) } }
       let x := run (.culletCrcWritten 0) c
       (x.cullet.writing, (assocGet x.cullet.slots 1).map (·.flags))) = (some 1, some 2) ∧
      (let b := logged [] (some 133)
       let l := (List.range 128).map fun i => (i, slotOf true)
       let c := { b with cullet := { b.cullet with slots := l ++ [(133, slotOf false)], copyOwed := some (slotOf false) } }
       (run (.culletCrcWritten 0) c).cullet.writing) = none ∧
      (logged [] none).cullet.writing = none := by decide +kernel

/-- A post into the queue, and one beyond 32. -/
theorem test_posts :
    ((logged [7] none).post 9 []).cullet.queue.length = 2 ∧
      ((logged (List.replicate 32 7) none).post 9 []).cullet.waiting.map (·.type) = [9] := by decide +kernel

/-- A pass of a device at a step with VCORE, what the pass has done so far. -/
def passing (step v : Nat) (q : Pass) : Block :=
  { (((full.put Obj.lehrStep step).put Obj.vcoreNow v)) with margin := { pass := some q } }

/-- Cells at one strain. -/
def cells (s : Nat) : List Nat := List.replicate 48 s

/-- A climb by voltage, its end, a trial of a lower voltage, and one that fails; the plan is met at a strain of 100
and not at 0. -/
theorem test_sweeps :
    (let x := run (.strainSweepDone 0 (cells 0) true) (passing 1 750 {})
     (x.get Obj.vcoreNow, x.get Obj.lehrStep, x.margin.pass)) = (755, 1, some { climbed := true, settling := true }) ∧
      (let x := run (.strainSweepDone 0 (cells (2 ^ 24)) true) (passing 1 750 { climbed := true })
       (x.margin.pass, x.get Obj.lehrPasses)) = (none, 1) ∧
      (let x := run (.strainSweepDone 0 (cells (2 ^ 24)) true) (passing 1 755 {})
       (x.get Obj.vcoreNow, x.margin.pass)) = (750, some { trial := true, settling := true }) ∧
      (let x := run (.strainSweepDone 0 (cells 0) true) (passing 1 750 { trial := true })
       (x.get Obj.vcoreNow, x.margin.pass)) = (755, none) ∧
      (run (.strainSweepDone 0 (cells 0) true) full).get Obj.lehrPasses = 0 ∧ 750 < full.get Obj.vcoreMax ∧
      full.get Obj.vcoreMin < 755 ∧ full.get Obj.thermalStep = 0 ∧ ((cells 3).getD 47 0 = 3) := by decide +kernel

/-- Passes that fall due, the settling of VCORE, and VCORE_MIN and VCORE_MAX. -/
theorem test_pass_commands :
    (let due := secs (full.get Obj.lehrPeriod)
     [due - 1, due].map fun t => (run (.lehrPeriodExpiry t) { full with mode := { full.mode with trans := .draining } }).margin.due) =
       [false, true] ∧
      (let due := us (full.get Obj.vcoreSettle)
       [due - 1, due].map fun t => (run (.vcoreSettleExpiry t) (passing 1 750 { settling := true })).margin.pass) =
       [some { settling := true }, some {}] ∧ full.margin.pass = none ∧
      admitted (full.tick 0) .console 0x1403 6 noRow 1 1 Obj.lehrRun 0 ∧
      admitted (maint.tick 0) .console 0x1402 2 noRow 2 750 Obj.vcoreMin 0 ∧
      admitted (maint.tick 0) .console 0x1402 3 noRow 2 800 Obj.vcoreMax 0 ∧
      (full.writeVcore Obj.vcoreMin 760 true).2.get Obj.vcoreNow = 760 ∧ (full.writeVcore Obj.vcoreMin 760 true).2.margin.due ∧
      (full.writeVcore Obj.vcoreMax 740 true).2.get Obj.vcoreNow = 740 := by decide +kernel

/-- The ladder: at THERMAL_ENTER up a step, between the thresholds as it is, cool for THERMAL_HOLD down a step. -/
theorem test_thermal :
    (let x := run (.thermalCheck 0 (10 * full.get Obj.thermalEnter) 200 200 200) full
     (x.geti Obj.tjNow, x.get Obj.thermalStep)) = (((10 * full.get Obj.thermalEnter : Nat) : Int), 1) ∧
      (run (.thermalCheck 0 (10 * full.get Obj.thermalEnter - 1) 200 200 200) (full.put Obj.thermalStep 2)).get Obj.thermalStep = 2 ∧
      (run (.thermalCheck (secs (full.get Obj.thermalHold)) 200 200 200 200)
        ({ full with margin := { coolFrom := some 0 } }.put Obj.thermalStep 2)).get Obj.thermalStep = 1 ∧
      asleep.coreF = false ∧ full.get Obj.tjPeak < 2 ^ 16 ∧ 200 ≤ 10 * full.get Obj.thermalExit := by decide +kernel

/-! ### The memories -/

/-- The scrub of the working store: corrected, a journal line with its mirror, and a Furnace fault. -/
theorem test_ws_scrub :
    (run (.wsScrub 0 .corrected) full).get Obj.wsCe = 1 ∧ (run (.wsScrub 0 .journalLine) (withDram 1)).get Obj.journalRepaired = 1 ∧
      ((full.add Obj.wsUe).coldReset 6).boot.isSome ∧ ((full.add Obj.wsUe).coldReset 6).get Obj.resetSource = 6 ∧ (run (.wsScrub 0 .spilledBuffer) full).get Obj.wsUe = 0 ∧
      (run (.wsScrub 0 .corrected) asleep).get Obj.wsCe = 0 := by decide +kernel

/-- A request of the queue manager: in self-refresh, well, with an error, and beyond the DRAM for an engine. -/
theorem test_dram_requests :
    (let x := run (.dramRequest 0 1 4 0x100000000 false false false) (withDram 2)
     (x.dram.reqs.map (·.id), x.dram.waking, x.outs)) = ([0], true, []) ∧
      ((run (.dramRequest 0 1 4 0x100000000 false false false) (withDram 1)).tick 1).outs = [.dram 0 0 0] ∧
      (let x := (run (.dramRequest 0 1 5 0x100000000 false false true) (withDram 1)).tick 1
       (x.get Obj.dchUeCount 0, (x.cpu 0).ecause)) = (1, 9) ∧
      ((run (.dramRequest 0 1 5 0xFFFFFFFFF false false false) (withDram 1)).cpu 0).ecause = 6 ∧
      (withDram 1).dram.placeOf 0x100000000 = some (0, 0, 0, 0) ∧ (withDram 1).dram.placeOf 0xFFFFFFFFF = none ∧
      (withDram 1).dramActive ∧ (withDram 1).chFenced 0 = false ∧ 2 ≤ full.get Obj.ueFenceCount ∧ full.dram.up = false := by decide +kernel

/-- A request that waits too long, scrubs, refreshes, retraining and its second failure. -/
theorem test_dram_upkeep :
    (let b := { withDram 2 with dram := { up := true, reqs := [{ id := 7, cls := 2, requester := 4, addr := 0x100000000, write := false, ce := false, ue := false, at_ := 0 }] } }
     [b.ageLimit 2 - 1, b.ageLimit 2].map fun t => (run (.dramAgePromote t 7) b).dram.reqs.map (·.cls)) = [[2], [0]] ∧
      (run (.dramScrub 0 0 0x100000000 true false) (withDram 1)).get Obj.dchCeCount 0 = 1 ∧
      (run (.dramScrub 0 0 0x100000000 false true) (withDram 1)).dram.ues = [(0, 0)] ∧
      (let b := { withDram 1 with dram := { up := true, postponed := [(9, 7)] } }
       (assocNat (run (.dramRefresh 0 1 1 true) b).dram.postponed 9, assocNat (run (.dramRefresh 0 1 1 false) b).dram.postponed 9)) =
       (8, 0) ∧
      (run (.dramRetrainStart 0 1) (withDram 1)).dram.training = some 1 ∧
      (let b := { withDram 1 with dram := { up := true, training := some 1 } }
       ((run (.dramRetrainDone 0 1 true) b).get Obj.dchRetrains 1, (run (.dramRetrainDone 0 1 false) b).dram.fails)) = (1, [0, 1]) ∧
      (let x := run (.dramRetrainDone 0 1 false) { withDram 1 with dram := { up := true, training := some 1, fails := [0, 1] } }
       (x.chFenced 1, x.get Obj.lastFenceCause)) = (true, 5) := by decide +kernel

/-- Flash reads that time out once and twice; operations refused, started and at once at their end. -/
theorem test_flash :
    (run (.xspiReadTimeout 5) full).flash.retryAt = some 5 ∧
      (run (.xspiReadTimeout 5) { full with flash := { retryAt := some 0 } }).flashFenced ∧ full.flashFenced = false ∧
      (({ full with flash := { suspend := false } } : Block).writeXspiOp .console 9 1).1 = 6 ∧
      ((full.put Obj.xspiLen 4 9).writeXspiOp .console 9 1).2.get Obj.xspiOp = 1 ∧
      (full.writeXspiOp .console 9 1).2.get Obj.xspiOpStatus = 3 ∧ full.get Obj.xspiLen 9 = 0 ∧
      (full.writeXspiOp .console 9 2).2.get Obj.xspiOp = 2 ∧ (full.writeXspiOp .console 9 3).2.get Obj.xspiOp = 3 ∧
      (({ full with flash := { op := some ⟨.console, 2, 0, []⟩ } } : Block).writeXspiOp .console 9 3).1 = 9 ∧
      admitted ({ maint with window := some 0 }.tick 0) .console 0x1630 6 noRow 1 1 Obj.xspiOp (portLoc .console) := by decide +kernel

/-- A program clears bits, an erase sets them; what a console wrote to the customer store. -/
theorem test_flash_contents :
    (let s := (st { full with flash := { op := some ⟨.console, 1, 16, [0x0F#8, 0x3C#8]⟩ } })
     let u := { s with mem := [(0x40000010, 0x33#8)] }.flashDone 0
     (memGet u.mem 0x40000010, memGet u.mem 0x40000011, u.mem.length, u.blk.get Obj.xspiOpStatus)) = (0x03#8, 0x3C#8, 2, 0) ∧
      (let s := (st { full with flash := { op := some ⟨.console, 2, 16, []⟩ } })
       ({ s with mem := [(0x40000010, 0x33#8), (0x40001000, 0x44#8)] }.flashDone 0).mem) = [(0x40001000, 0x44#8)] ∧
      full.flash.op = none ∧
      (let b := ((full.put Obj.csLen 2 (portLoc .console)).put Obj.csData (0x1234 * 256 ^ 254) (portLoc .console)).put Obj.csOffset 7
        (portLoc .console)
       ((st b).writeCs (portLoc .console) 1).2.mem) = [(0x200C4007, 0x12#8), (0x200C4008, 0x34#8)] ∧
      ((st (full.put Obj.csOffset 3391489 5)).writeCs 5 1).1 = 6 ∧
      admitted (full.tick 0) .console 0x8210 4 noRow 1 1 Obj.csWrite (portLoc .console) := by decide +kernel

/-! ### Images and engine control -/

/-- The table of an image with one section of KIND 2 and no octets. -/
def imageTable : List Octet := octetsBE 4 0x02000000 ++ octetsBE 4 0 ++ octetsBE 4 0 ++ octetsBE 5 0x10540000 ++ List.replicate 15 0#8

/-- Its header before the CRC; the hash is that of the empty string in FIPS 180-4. -/
def imageHeader : List Octet :=
  octetsBE 4 0x55484C49 ++ octetsBE 4 0x00010001 ++ octetsBE 4 0 ++ octetsBE 4 0 ++ octetsBE 4 77 ++
    octetsBE 32 0xe3b0c44298fc1c149afbf4c8996fb92427ae41e4649b934ca495991b7852b855 ++ octetsBE 8 0

/-- Memory with that image in slot A. -/
def withImage (b : Block) : State :=
  { st b with mem := memStore [] (0x40000000 + b.slotBase 0) (imageHeader ++ octetsBE 4 (crc32 imageHeader) ++ imageTable) }

/-- The slot passes its checks, and a blank one fails that of its header; a swap to each. -/
theorem test_swap_start :
    imageHeader.length = 60 ∧ imageTable.length = 32 ∧ ((withImage full).checkSlot 0).1 = 1 ∧ ((withImage full).checkSlot 1).1 = 2 ∧
      (let x := ((withImage full).swapStart 0 [3, 5] false).blk
       (x.get Obj.swapStatus, x.images.swap.map (·.left), (x.cpu 3).swapReq)) = (1, some [3, 5], true) ∧
      (let x := ((withImage full).swapStart 1 [3, 5] false).blk
       (x.get Obj.swapStatus, x.images.swap)) = (4, none) := by decide +kernel

/-- SWAP_GO during a swap; the commands of a swap whose engine is held, and of none; a wait that ends. -/
theorem test_swap :
    ((st { full with images := { swap := some { slot := 0, left := [3], from_ := 0 } } }).writeSwapGo 1).1 = 9 ∧
      ((withImage full).writeSwapGo 1).1 = 0 ∧ full.images.swap = none ∧ (full.get Obj.fabricFenced).testBit 19 = false ∧
      admitted ({ maint with window := some 0 }.tick 0) .console 0x1620 3 noRow 1 1 Obj.swapGo 0 ∧
      (let b := { full with images := { swap := some { slot := 0, left := [3], from_ := 0, held := true } } }
       let u := (withImage b).swapLoaded
       (u.reg 3 1, (u.blk.cpu 3).priv, u.blk.get Obj.swapStatus, u.blk.get Obj.swaps)) = (2, .f, 2, 1) ∧
      (let due := ms (full.get Obj.swapWait)
       [due - 1, due].map fun t =>
         let x := run (.swapWaitExpiry t) { full with images := { swap := some { slot := 0, left := [3], from_ := 0 } } }
         (x.images.swap.isSome, x.get Obj.swapStatus)) = [(true, 0), (false, 3)] ∧
      (run (.swapWaitExpiry (secs 100)) { full with images := { swap := some { slot := 0, left := [3], from_ := 0, held := true } } }).images.swap.isSome := by
  decide +kernel

/-- BOOT_CONFIRM with and without a trial, and a trial that nobody confirms. -/
theorem test_trials :
    (let x := { full with images := { trial := some 5 } }.writeBootConfirm 1
     (x.1, x.2.images.trial)) = (0, none) ∧ (full.writeBootConfirm 1).2 = full ∧
      (let due := secs (full.get Obj.confirmTime)
       [due - 1, due].map fun t => (run (.confirmTimeExpiry t) { full with images := { trial := some 0 } }).get Obj.fallbacks) = [0, 1] ∧
      (run (.confirmTimeExpiry 0) full).get Obj.fallbacks = 0 ∧
      admitted ({ full with window := some 0 }.tick 0) .console 0x1601 6 noRow 1 1 Obj.bootConfirm 0 := by decide +kernel

/-- CONTROL: GD, a fenced engine, halt, run and resume. -/
theorem test_control :
    (full.writeControl 11 1).1 = 3 ∧ (({ full with cpus := [{ run := .fenced }] } : Block).writeControl 0 2).1 = 9 ∧
      ((full.writeControl 3 1).2.cpu 3).run = .halted ∧ (((full.writeControl 3 1).2.writeControl 3 3).2.cpu 3).run = .running ∧
      (let c := ((full.put (Obj.engStartPc.eng 3) 0x10040100).writeControl 3 2).2.cpu 3
       (c.run, c.pc, c.priv)) = (.running, 0x10040100#40, .f) ∧ (full.writeControl 3 3).2 = full ∧ full.swapHolds 3 = false ∧
      admitted ({ maint with window := some 0 }.tick 0) .console 0x7030 2 noRow 1 1 (Obj.engControl.eng 3) 0 ∧ full.cpus.length = 12 := by
  decide +kernel

/-- A mould row by an engine at M, by the console, and one that R461 refuses. -/
theorem test_mould_rows :
    (let b := full.modCpu 0 fun c => { c with priv := .f }
     (b.sizeAt 0x7230 2, admitted (b.tick 0) (.engine 0) 0x7230 2 4 1 1 (Obj.mouldLength.eng 3) 4,
       (run (.mouldRowWrite 0 (.engine 0) 3 4 2 1) b).outs)) = (1, true, [.result (.engine 0) 0 0]) ∧ mouldOk 0 0 ∧ mouldOk 33 0 = false ∧ portEng .console = 12 ∧ portEng (.engine 0) = 0 := by decide +kernel

/-- An event wakes a WFE that its mask names, and sets E of a running engine; WUNTIL's target; a watchdog. -/
theorem test_engine_events :
    (let b := { full with cpus := full.cpus.modify 3 fun c => { c with run := .wfe, evmask := 32, pc := 64 } }
     let c := (run (.engineEvent 0 3 5) b).cpu 3
     (c.run, c.pc, c.eventSrc, c.flags.e)) = (.running, 68, 32, false) ∧
      (let b := { full with cpus := full.cpus.modify 3 fun c => { c with evmask := 32 } }
       ((run (.engineEvent 0 3 5) b).cpu 3).flags.e) ∧
      (let b := { full with cpus := full.cpus.modify 3 fun c => { c with run := .wuntil 0, pc := 64 } }
       let c := (run (.wuntilTarget 0 3) b).cpu 3
       (c.run, c.pc, c.flags.c)) = (.running, 68, true) ∧
      (let b := { full with cpus := full.cpus.modify 3 fun c => { c with run := .wuntil (2 ^ 40) } }
       ((run (.wuntilTarget 0 3) b).cpu 3).run) = .wuntil (2 ^ 40) ∧
      ([us 9 - 1, us 9].map fun t =>
        let x := run (.watchdogExpiry t 3) (full.put (Obj.engWatchdog.eng 3) 9)
        ((x.get Obj.fabricFenced).testBit 3, x.get Obj.lastFenceCause)) = [(false, 0), (true, 2)] ∧
      (run (.watchdogExpiry 0 3) (full.put (Obj.engWatchdog.eng 3) 0)).get Obj.fabricFenced = 0 := by decide +kernel

/-! ### The block as a whole -/

/-- The command at the front runs and the next one waits; an instruction and its operation; memory that is and is not
canonical. -/
theorem test_step :
    (let x := left (step { st full with pending := [.rtcCrystalStable 0, .vfurFall 0] })
     (x.mode.mode, x.get Obj.rtcSource)) = (.fullService, 1) ∧
      left (step (st full)) = full ∧
      (match step { st full with pending := [.rtcCrystalStable 0, .vfurFall 0] } with
       | .next t => t.pending
       | _ => []) = [.vfurFall 0] ∧
      opOf (.nop 3) = some (3, .nop) ∧ decodeWord (encode .nop) = .nop ∧ memWf [(16, 1#8), (17, 2#8)] ∧
      memWf [(17, 1#8), (16, 2#8)] = false ∧ memWf [(16, 0#8)] = false ∧ memWf State.reset.mem ∧ State.reset.blk.quiet := by
  decide +kernel

end Sys2Proof.Tests
end

section
/-!
SUPPORT. What Plais messages lose on their way: nothing. A number reads back from its octets, a header and a record
from theirs, and a message from its console frame (R62, R63, R74).
-/

namespace Sys2Proof.Machine

@[simp] theorem octetsBE_length (k v : Nat) : (octetsBE k v).length = k := by
  induction k with
  | zero => rfl
  | succ k ih => simp [octetsBE, ih]

/-- Reading octets goes on from the number read so far. -/
theorem foldl_octetsBE (k v a : Nat) :
    (octetsBE k v).foldl (fun x o => x * 256 + o.toNat) a = a * 256 ^ k + v % 256 ^ k := by
  induction k generalizing a with
  | zero => simp [octetsBE, Nat.mod_one]
  | succ k ih =>
    rw [octetsBE, List.foldl_cons, ih, Nat.mod_pow_succ, BitVec.toNat_ofNat]
    ring

theorem ofOctetsBE_octetsBE (k v : Nat) : ofOctetsBE (octetsBE k v) = v % 256 ^ k := by
  simpa [ofOctetsBE] using foldl_octetsBE k v 0

theorem ofOctetsBE_octetsBE_of_lt {k v : Nat} (h : v < 256 ^ k) : ofOctetsBE (octetsBE k v) = v := by
  rw [ofOctetsBE_octetsBE, Nat.mod_eq_of_lt h]

/-- A forward CRC never leaves its width. -/
theorem crcForward_lt {w poly init : Nat} (hw : 8 ≤ w) (hp : poly < 2 ^ w) (hi : init < 2 ^ w) (l : List Octet) :
    crcForward w poly init l < 2 ^ w := by
  have hbit : ∀ c, (if c / 2 ^ (w - 1) % 2 = 1 then (c * 2 % 2 ^ w) ^^^ poly else c * 2 % 2 ^ w) < 2 ^ w := by
    intro c
    have hm : c * 2 % 2 ^ w < 2 ^ w := Nat.mod_lt _ (by positivity)
    split
    · exact Nat.xor_lt_two_pow hm hp
    · exact hm
  unfold crcForward
  refine List.foldlRecOn (motive := (· < 2 ^ w)) l _ hi fun c hc o _ => ?_
  have ho : o.toNat * 2 ^ (w - 8) < 2 ^ w := by
    calc o.toNat * 2 ^ (w - 8) < 2 ^ 8 * 2 ^ (w - 8) := Nat.mul_lt_mul_of_pos_right o.isLt (by positivity)
      _ = 2 ^ w := by rw [← pow_add]; congr 1; omega
  exact List.foldlRecOn (motive := (· < 2 ^ w)) (List.range 8) _ (Nat.xor_lt_two_pow hc ho) fun c _ _ _ => hbit c

theorem crc16_lt (l : List Octet) : crc16 l < 65536 := crcForward_lt (w := 16) (by decide) (by decide) (by decide) l

/-- The code octet of a COBS block gives its length. -/
theorem cobsCode_toNat {n : Nat} (h : n ≤ 254) : (BitVec.ofNat 8 (n + 1)).toNat = n + 1 := by
  rw [BitVec.toNat_ofNat, Nat.mod_eq_of_lt (by omega)]

theorem cobsCode_ne_zero {n : Nat} (h : n ≤ 254) : BitVec.ofNat 8 (n + 1) ≠ 0#8 := fun e => by
  simpa [e] using cobsCode_toNat h

/-- A last block decodes to itself. -/
theorem cobsDecode_last {block : List Octet} (hb : block.length ≤ 254) (hz : 0#8 ∉ block) (fuel : Nat) :
    cobsDecode (fuel + 1) (BitVec.ofNat 8 (block.length + 1) :: block) = some block := by
  have hc := cobsCode_toNat hb
  have h0 := cobsCode_ne_zero hb
  simp [cobsDecode, hc, h0, hz]

/-- A block with others behind it decodes to itself, a zero unless it is a full one, and what they give. -/
theorem cobsDecode_block {block : List Octet} (hb : block.length ≤ 254) (hz : 0#8 ∉ block) {more : List Octet}
    (hm : more ≠ []) (fuel : Nat) :
    cobsDecode (fuel + 1) (BitVec.ofNat 8 (block.length + 1) :: (block ++ more)) =
      (cobsDecode fuel more).map fun t => block ++ (if block.length = 254 then [] else [0#8]) ++ t := by
  have hc := cobsCode_toNat hb
  have h0 := cobsCode_ne_zero hb
  have h255 : BitVec.ofNat 8 (block.length + 1) = 255#8 ↔ block.length = 254 := by
    rw [BitVec.toNat_eq, hc]; simp
  obtain ⟨c, rest, rfl⟩ := List.exists_cons_of_ne_nil hm
  simp [cobsDecode, hc, h0, hz, h255]

theorem cobsGo_ne_nil (l block : List Octet) : cobsGo l block ≠ [] := by
  induction l generalizing block with
  | nil => simp [cobsGo]
  | cons o rest ih =>
    unfold cobsGo
    split
    · simp
    · split
      · simp
      · exact ih _

/-- COBS loses nothing, whatever block is under way. -/
theorem cobsDecode_cobsGo (l : List Octet) : ∀ {block : List Octet} (_ : block.length ≤ 253) (_ : 0#8 ∉ block) {fuel : Nat}
    (_ : (cobsGo l block).length ≤ fuel), cobsDecode fuel (cobsGo l block) = some (block ++ l) := by
  induction l with
  | nil =>
    intro block hb hz fuel hf
    obtain ⟨fuel, rfl⟩ : ∃ k, fuel = k + 1 := ⟨fuel - 1, by simp [cobsGo] at hf; omega⟩
    simpa [cobsGo] using cobsDecode_last (by omega) hz fuel
  | cons o rest ih =>
    intro block hb hz fuel hf
    obtain ⟨fuel, rfl⟩ : ∃ k, fuel = k + 1 :=
      ⟨fuel - 1, by have := List.length_pos_of_ne_nil (cobsGo_ne_nil (o :: rest) block); omega⟩
    by_cases ho : o = 0
    · simp only [cobsGo, ho, if_true, List.length_append, List.length_cons, List.cons_append] at hf ⊢
      rw [cobsDecode_block (by omega) hz (cobsGo_ne_nil _ _), ih (by simp) (by simp) (by omega), if_neg (by omega)]
      simp
    · by_cases hfull : block.length = 253
      · have hlen : (block ++ [o]).length = 254 := by simp [hfull]
        have hz' : 0#8 ∉ block ++ [o] := by simpa [hz] using fun e => ho e.symm
        simp only [cobsGo, ho, hfull, if_true, if_false, List.length_append, List.length_cons, List.cons_append] at hf ⊢
        have hblock := cobsDecode_block hlen.le hz' (cobsGo_ne_nil rest []) fuel
        rw [hlen, ih (by simp) (by simp) (by omega)] at hblock
        simpa using hblock
      · simp only [cobsGo, ho, hfull, if_false] at hf ⊢
        rw [ih (by simp; omega) (by simpa [hz] using fun e => ho e.symm) hf]
        simp

theorem cobsDecode_cobsEncode (l : List Octet) : cobsDecode (cobsEncode l).length (cobsEncode l) = some l :=
  cobsDecode_cobsGo l (block := []) (by simp) (by simp) le_rfl

/-- The console loses nothing: a frame of a message is read back as that message (R74). -/
theorem consoleMessage_consoleFrame (m : List Octet) : consoleMessage (consoleFrame m) = some m := by
  have hcrc : ofOctetsBE (octetsBE 2 (crc16 m)) = crc16 m := ofOctetsBE_octetsBE_of_lt (by simpa using crc16_lt m)
  simp [consoleMessage, consoleFrame, cobsDecode_cobsEncode, hcrc]

/-- A number among other octets reads as it was written. -/
theorem ofOctetsBE_field {i n v : Nat} {before : List Octet} (hi : before.length = i) (hv : v < 256 ^ n) (after : List Octet) :
    ofOctetsBE (((before ++ (octetsBE n v ++ after)).drop i).take n) = v := by
  subst hi
  rw [List.drop_left, List.take_left' (octetsBE_length n v), ofOctetsBE_octetsBE_of_lt hv]

/-- A short header reads back as it was written (R62). -/
theorem Header.parse_octets {h : Header} (htype : h.type ≤ 3) (hlong : h.long = false) (hkey : h.keyId = 0)
    (hcounter : h.counter = 0) (htid : h.tid < 65536) (hlen : h.len < 65536) (body : List Octet) :
    Header.parse false (h.octets ++ body) = some h := by
  obtain ⟨type, sec, group, tid, len, long, keyId, counter⟩ := h
  simp only at htype hlong hkey hcounter htid hlen
  subst hlong hkey hcounter
  let m := ({ type, sec, group, tid, len } : Header).octets ++ body
  have ftid : ofOctetsBE ((m.drop 2).take 2) = tid :=
    ofOctetsBE_field (before := m.take 2) rfl htid (octetsBE 2 len ++ body)
  have flen : ofOctetsBE ((m.drop 4).take 2) = len := ofOctetsBE_field (before := m.take 4) rfl hlen body
  have ftype : ofOctetsBE ((m.drop 0).take 1) = 0x10 + type := by
    simp [m, Header.octets, ofOctetsBE]; omega
  have fflags : ofOctetsBE ((m.drop 1).take 1) = (if sec then 0x80 else 0) + (if group then 0x40 else 0) := by
    cases sec <;> cases group <;> rfl
  have hsize : 6 ≤ m.length := by simp [m, Header.octets]; omega
  show Header.parse false m = _
  simp only [Header.parse, ftid, flen, ftype, fflags, headerLen]
  rw [if_neg (by simp; omega), show (0x10 + type) % 16 = type by omega]
  cases sec <;> cases group <;> rfl

/-! ### A record of a request (R63) -/

/-- The octets of a record with a VALUE, as a request carries it (R63). -/
def OpRec.octets (o : OpRec) : List Octet :=
  octetsBE 1 o.op ++ [0#8] ++ octetsBE 2 o.idx ++ octetsBE 1 o.sub ++ [0#8] ++ octetsBE 4 o.row ++ octetsBE 2 o.off ++
    octetsBE 2 o.dlen ++ o.value

/-- A record whose fields have the widths of R63 and whose VALUE has DLEN octets. -/
structure OpRec.Fits (o : OpRec) : Prop where
  op : o.op < 256
  idx : o.idx < 65536
  sub : o.sub < 256
  row : o.row < 2 ^ 32
  off : o.off < 65536
  dlen : o.dlen < 65536
  value : o.value.length = o.dlen

/-- A body that is one record other than a READ reads back as that record (R63). -/
theorem parseOps_octets {o : OpRec} (h : o.Fits) (hop : o.op ≠ 1) (fuel : Nat) :
    parseOps (fuel + 1) o.octets = some [o] := by
  have fop : ofOctetsBE ((o.octets.drop 0).take 1) = o.op :=
    ofOctetsBE_field (before := []) rfl h.op (o.octets.drop 1)
  have fidx : ofOctetsBE ((o.octets.drop 2).take 2) = o.idx :=
    ofOctetsBE_field (before := o.octets.take 2) rfl h.idx (o.octets.drop 4)
  have fsub : ofOctetsBE ((o.octets.drop 4).take 1) = o.sub :=
    ofOctetsBE_field (before := o.octets.take 4) rfl h.sub (o.octets.drop 5)
  have frow : ofOctetsBE ((o.octets.drop 6).take 4) = o.row :=
    ofOctetsBE_field (before := o.octets.take 6) rfl h.row (o.octets.drop 10)
  have foff : ofOctetsBE ((o.octets.drop 10).take 2) = o.off :=
    ofOctetsBE_field (before := o.octets.take 10) rfl h.off (o.octets.drop 12)
  have fdlen : ofOctetsBE ((o.octets.drop 12).take 2) = o.dlen :=
    ofOctetsBE_field (before := o.octets.take 12) rfl h.dlen o.value
  have hvalue : o.octets.drop 14 = o.value := rfl
  have hlen : o.octets.length = 14 + o.dlen := by simp [OpRec.octets, h.value]; omega
  have hend : o.octets.drop (14 + o.dlen) = [] := List.drop_eq_nil_of_le hlen.le
  have htake : o.value.take o.dlen = o.value := List.take_of_length_le h.value.le
  obtain ⟨c, rest, hc⟩ : ∃ c rest, o.octets = c :: rest := ⟨_, _, rfl⟩
  rw [hc] at fop fidx fsub frow foff fdlen hvalue hlen hend ⊢
  rw [parseOps]
  · simp only [fop, fidx, fsub, frow, foff, fdlen, hvalue, hlen, hend, htake, hop, if_false, lt_irrefl]
    simp [parseOps]
  · simp

end Sys2Proof.Machine
end

section
/-!
SUPPORT. A request at the commit point: the response cache, the repeats, and one submission from its arrival to its
response (R57 to R66).
-/

namespace Sys2Proof.Machine

/-! ### The response cache (R66) -/

/-- A response just cached is found again, whatever else its source's cache holds. -/
theorem Block.cached_cacheResponse (b : Block) (p : Port) (tid : Nat) (body : List Octet) :
    (b.cacheResponse p tid body).cached p tid = some ⟨sourceOf p, tid, b.now, body⟩ := by
  set mine := b.plais.cache.filter fun c => c.src == sourceOf p && c.tid != tid with hmine
  have hcache : (b.cacheResponse p tid body).plais.cache =
      (b.plais.cache.filter fun c => c.src != sourceOf p) ++ (mine.drop (mine.length - 31) ++ [⟨sourceOf p, tid, b.now, body⟩]) := by
    simp only [Block.cacheResponse, ← hmine, List.length_append, List.length_singleton, Nat.reduceSubDiff]
    rw [List.drop_append_of_le_length (Nat.sub_le _ _)]
  unfold Block.cached
  rw [hcache, List.find?_append, List.find?_append, List.find?_eq_none.mpr, List.find?_eq_none.mpr]
  · simp [Block.cacheResponse]
  · intro c hc
    have := List.mem_filter.mp (List.mem_of_mem_drop hc)
    simp_all
  · intro c hc
    have := (List.mem_filter.mp hc).2
    simp_all

/-! ### What a request meets (R65, R66) -/

theorem State.request_cached {s : State} {p : Port} {h : Header} {c : Cached} (hc : s.blk.cached p h.tid = some c)
    (to_ : Reply) (row : Nat) (body : List Octet) (fits : Bool) :
    s.request p to_ row h body fits =
      { s with blk := (s.blk.add Obj.dupRequest).sendReply to_ row 1 h.tid c.msg h.sec } := by
  simp [State.request, hc]

theorem State.request_joined {s : State} {p : Port} {to_ : Reply} {h : Header} {c : Block}
    (hc : s.blk.cached p h.tid = none) (hj : s.blk.joinRepeat p to_ h = some c) (row : Nat) (body : List Octet)
    (fits : Bool) : s.request p to_ row h body fits = { s with blk := c } := by
  simp [State.request, hc, hj]

theorem State.request_malformed {s : State} {p : Port} {to_ : Reply} {h : Header} {body : List Octet} {fits : Bool}
    (hc : s.blk.cached p h.tid = none) (hj : s.blk.joinRepeat p to_ h = none) (hr : h.records body fits = none)
    (row : Nat) : s.request p to_ row h body fits =
      { s with blk := (s.blk.cacheResponse p h.tid malformedAnswer).sendReply to_ row 1 h.tid malformedAnswer h.sec } := by
  simp [State.request, hc, hj, hr, Block.malformed]

theorem State.request_records {s : State} {p : Port} {to_ : Reply} {h : Header} {body : List Octet} {fits : Bool}
    {ops : List OpRec} (hc : s.blk.cached p h.tid = none) (hj : s.blk.joinRepeat p to_ h = none)
    (hr : h.records body fits = some ops) (row : Nat) : s.request p to_ row h body fits =
      (let w := s.blk.waitOf p (.message to_ row h.tid h.sec h.group ops ((List.range ops.length).zip ops))
       State.point { s with blk := s.blk.enqueueAsk w }) := by
  simp [State.request, hc, hj, hr]

/-- Where nothing waits there is no first copy to wait with. -/
theorem Block.joinRepeat_of_idle {b : Block} (hw : b.plais.waiting = []) (p : Port) (to_ : Reply) (h : Header) :
    b.joinRepeat p to_ h = none := by
  simp [Block.joinRepeat, hw]

/-! ### The commit point over one submission (R57, R58) -/

theorem portRank_lt {p : Port} : portRank p < 16 := by
  cases p with
  | engine n => have := n.isLt; simp [portRank]; omega
  | _ => simp [portRank, portNum]

theorem Plais.choose_of_idle {p : Plais} (hw : p.waiting = []) : p.choose = none := by
  have hheads : p.heads = [] := by simp [Plais.heads, Plais.first, hw]
  simp [Plais.choose, hheads]

/-- The commit point rests where nothing waits and no region commit is under way. -/
theorem State.servePoint_of_idle {s : State} (hw : s.blk.plais.waiting = []) (hc : s.blk.region.commit = none) (fuel : Nat) :
    s.servePoint fuel = s := by
  cases fuel with
  | zero => rfl
  | succ fuel =>
    simp [State.servePoint, Plais.begun, hw, hc, Plais.choose_of_idle hw]

theorem Plais.heads_single {p : Plais} {w : Wait} (hw : p.waiting = [w]) : p.heads = [w] := by
  have hfirst : p.first = fun rank => if portRank w.port = rank then some w else none := by
    funext rank; by_cases h : portRank w.port = rank <;> simp [Plais.first, hw, h]
  have hr : portRank w.port < 16 := portRank_lt
  rw [Plais.heads, hfirst]
  generalize portRank w.port = k at hr
  interval_cases k <;> rfl

theorem Plais.choose_single {p : Plais} {w : Wait} (hw : p.waiting = [w]) : p.choose = some w := by
  unfold Plais.choose
  rw [p.heads_single hw]
  by_cases h : agedAt ≤ w.age <;> simp [h]

/-- The commit point takes the only submission, which is then done. -/
theorem State.servePoint_single {s t : State} {w : Wait} (hw : s.blk.plais.waiting = [w]) (hbegun : w.begun = false)
    (hc : s.blk.region.commit = none)
    (hserve : (({ s with blk := { s.blk with plais := { s.blk.plais with waiting := [] } } } : State).tierAs
      (some w.tier)).serve w = (none, t)) (fuel : Nat) :
    s.servePoint (fuel + 1) = State.servePoint fuel { t.tierAs none with
      blk := { (t.tierAs none).blk with plais := (t.tierAs none).blk.plais.older ((t.tierAs none).committed - s.committed) } } := by
  have hnone : s.blk.plais.begun = none := by simp [Plais.begun, hw, hbegun]
  have hage : s.blk.plais.byAge = false := by
    simp [Plais.byAge, Plais.choose_single hw, Plais.heads_single hw]
  have hout : s.blk.plais.without w = { s.blk.plais with waiting := [] } := by simp [Plais.without, hw]
  simp [State.servePoint, hnone, hc, Plais.choose_single hw, hage, hout, hserve]

theorem Plais.emptied_of_idle {p : Plais} (hw : p.waiting = []) : { p with waiting := [] } = p := by
  cases p; simp_all

theorem Plais.older_of_idle {p : Plais} (hw : p.waiting = []) (n : Nat) : p.older n = p := by
  cases p; simp_all [Plais.older]

/-- The commit point over one submission that it finishes at once, and that leaves nothing behind. -/
theorem State.point_single {s t : State} {w : Wait} (hw : s.blk.plais.waiting = [w]) (hbegun : w.begun = false)
    (hc : s.blk.region.commit = none)
    (hserve : (({ s with blk := { s.blk with plais := { s.blk.plais with waiting := [] } } } : State).tierAs
      (some w.tier)).serve w = (none, t)) (hidle : t.blk.plais.waiting = []) (hct : t.blk.region.commit = none) :
    s.point = t.tierAs none := by
  obtain ⟨n, hn⟩ : ∃ n, s.blk.plais.backlog = n + 1 := by
    refine Nat.exists_eq_succ_of_ne_zero ?_
    simp only [Plais.backlog, hw, List.map_cons, List.map_nil, sumOfList, List.foldl_cons, List.foldl_nil]
    split <;> omega
  have holder := Plais.older_of_idle (p := (t.tierAs none).blk.plais) hidle
  rw [State.point, hn, State.servePoint_single hw hbegun hc hserve, holder]
  exact State.servePoint_of_idle (s := t.tierAs none) hidle hct n

/-! ### A request of one WRITE record (R59, R64, R66) -/

/-- A request whose one record writes an object other than REGION_COMMIT's is done at once. -/
theorem State.serve_write {s : State} {w : Wait} {to_ : Reply} {peer tid : Nat} {sec : Bool} {o : OpRec}
    (hbegun : w.begun = false) (hask : w.ask = .message to_ peer tid sec false [o] [(0, o)]) (hop : o.op = 2)
    (hidx : o.idx ≠ 0x2C00) (hreset : s.resetDue = false) :
    s.serve w = (none, (s.opWrite w.port o).2.finishRequest w to_ peer tid sec [o]
      (w.results ++ [(0, (s.opWrite w.port o).1, [])])) := by
  have hbegin : s.blk.beginOp w.port false [(0, o)] = none := by
    simp [Block.beginOp, nextOps, hop, Block.beginCommit, hidx]
  simp [State.serve, hbegun, hask, hbegin, nextOps, State.opsRun, hreset, State.opApply, hop]

theorem valueCode_chipIdleTime {v : Nat} (hlo : 10 ≤ v) (hhi : v ≤ 86400) : Obj.chipIdleTime.valueCode 4 v = 0 := by
  have htop : v ≤ Obj.chipIdleTime.top := by show v ≤ 256 ^ 4 - 1; omega
  have hrange : Obj.chipIdleTime.rng.ok (Obj.chipIdleTime.asInt v) = true := by
    show (decide ((10 : Int) ≤ v) && decide ((v : Int) ≤ 86400)) = true
    simp; omega
  have htype : Obj.chipIdleTime.typeOk v = true := rfl
  have hsize : Obj.chipIdleTime.size = 4 := rfl
  simp [Reg.valueCode, Reg.inRange, htop, hrange, htype, hsize]

/-- The checks of R44 pass a write of CHIP_IDLE_TIME by the console within its range. -/
theorem Block.checkWrite_chipIdleTime {b : Block} {v : Nat} (hentry : b.mode.entry = none) (hrec : b.recovery = false)
    (hcore : b.coreF) (hlo : 10 ≤ v) (hhi : v ≤ 86400) :
    b.checkWrite .console 0x1302 1 noRow 4 v = .ok (Obj.chipIdleTime, 0) := by
  have hfind : b.find 0x1302 1 = .ok Obj.chipIdleTime := rfl
  have hrows : b.rowsOf Obj.chipIdleTime = 0 := rfl
  have hon : b.domainOn (ownerOf 0x1302 1) = true := by
    have howner : ownerOf 0x1302 1 = 0 := rfl
    rw [howner]
    cases hm : b.mode.mode <;> simp_all [Block.domainOn, Block.coreF]
  have haccess : b.checkAccess .console 0x1302 1 noRow true = .ok (Obj.chipIdleTime, 0) := by
    have hrow : noSuchRow Obj.chipIdleTime (b.rowFor .console noRow) = false := rfl
    have hright : b.rightCode .console Obj.chipIdleTime 0 true = 0 := rfl
    have htier : b.tierCode Obj.chipIdleTime = 0 := rfl
    have hlink : b.linkPermits .console 0x1302 true = true := rfl
    have hloc : Obj.chipIdleTime.loc = false := rfl
    simp [Block.checkAccess, hentry, hrec, hfind, hrows, hon, hrow, hright, htier, hlink, hloc]
  simp [Block.checkWrite, haccess, valueCode_chipIdleTime hlo hhi]

/-- A finished request of a device that goes on, with no repeats held, leaves its response cached and sent. -/
theorem State.finishRequest_single {s : State} {w : Wait} (hcore : s.blk.coreF) (hboot : s.blk.boot = none)
    (hrep : w.repeats = []) (to_ : Reply) (row tid : Nat) (sec : Bool) (o : OpRec) (code : Nat) (value : List Octet) :
    s.finishRequest w to_ row tid sec [o] [(0, code, value)] =
      { s with blk := (s.blk.cacheResponse w.port tid (o.answer code value)).sendReply to_ row 1 tid (o.answer code value) sec } := by
  have hbody : responseBody [o] [(0, code, value)] = o.answer code value := by simp [responseBody]
  have hboot' : (s.blk.cacheResponse w.port tid (o.answer code value)).boot = none := hboot
  simp [State.finishRequest, hbody, hcore, hboot, hboot', hrep]

/-! ### A write of CHIP_IDLE_TIME on the console -/

/-- The record that writes CHIP_IDLE_TIME. -/
def chipIdleRecord (v : Nat) : OpRec :=
  { op := 2, idx := 0x1302, sub := 1, row := noRow, off := 0, dlen := 4, value := octetsBE 4 v }

theorem chipIdleRecord_octets (v : Nat) : (chipIdleRecord v).octets =
    [2#8, 0#8, 0x13#8, 0x02#8, 1#8, 0#8] ++ octetsBE 4 noRow ++ octetsBE 2 0 ++ octetsBE 2 4 ++ octetsBE 4 v := by
  have hop : octetsBE 1 2 = [2#8] := by decide
  have hidx : octetsBE 2 0x1302 = [0x13#8, 0x02#8] := by decide
  have hsub : octetsBE 1 1 = [1#8] := by decide
  simp [OpRec.octets, chipIdleRecord, hop, hidx, hsub]

theorem chipIdleRecord_records (tid v : Nat) :
    ({ type := 0, tid := tid, len := 18 } : Header).records (chipIdleRecord v).octets true = some [chipIdleRecord v] := by
  have hfits : (chipIdleRecord v).Fits :=
    { op := by simp [chipIdleRecord], idx := by simp [chipIdleRecord], sub := by simp [chipIdleRecord]
      row := by simp [chipIdleRecord, noRow], off := by simp [chipIdleRecord], dlen := by simp [chipIdleRecord]
      value := octetsBE_length 4 v }
  have hparse : parseOps 18 (chipIdleRecord v).octets = some [chipIdleRecord v] :=
    parseOps_octets hfits (by simp [chipIdleRecord]) 17
  simp [Header.records, hparse]

/-- What asks the commit point for one write of CHIP_IDLE_TIME on the console. -/
def chipIdleAsk (tid v : Nat) : Ask := .message .console 0 tid false false [chipIdleRecord v] [(0, chipIdleRecord v)]

/-- The block after a console request that writes CHIP_IDLE_TIME: the object written, the access counted, the response
cached and sent. -/
def Block.chipIdleWritten (b : Block) (tid v : Nat) : Block :=
  ((((b.dropStaged .console).put Obj.chipIdleTime v).account .console 0).cacheResponse .console tid
    ((chipIdleRecord v).answer 0 [])).sendConsole 1 tid ((chipIdleRecord v).answer 0 [])

section
variable {s : State} {v : Nat} (hentry : s.blk.mode.entry = none) (hrec : s.blk.recovery = false) (hcore : s.blk.coreF)
  (hlo : 10 ≤ v) (hhi : v ≤ 86400)
include hentry hrec hcore hlo hhi

/-- A write of CHIP_IDLE_TIME that passes the checks leaves the object with its value, the access counted. -/
theorem State.writeVia_chipIdleTime :
    s.writeVia .console 0x1302 1 noRow 4 v .plain =
      (0, { s with blk := (s.blk.put Obj.chipIdleTime v).account .console 0 }) := by
  have hact : s.actWrite .console v .plain Obj.chipIdleTime 0 = (0, { s with blk := s.blk.put Obj.chipIdleTime v }) := rfl
  have hmark (b : Block) : b.markUsed Obj.chipIdleTime 0 = b := rfl
  have hcursor (b : Block) : b.stepCursor .console 0x1302 1 noRow = b := by
    have hregs : b.regsAt 0x1302 = [Obj.chipIdleTime, Obj.chipIdleModes, Obj.dramIdle, Obj.ethIdle, Obj.radioIdle] := rfl
    have hrows : b.rowsOf Obj.chipIdleTime = 0 := rfl
    simp [Block.stepCursor, hregs, hrows]
  simp [State.writeVia, Block.checkWrite_chipIdleTime hentry hrec hcore hlo hhi, hact, hmark, hcursor]

theorem State.opWrite_chipIdleRecord :
    s.opWrite .console (chipIdleRecord v) =
      (0, { s with blk := ((s.blk.dropStaged .console).put Obj.chipIdleTime v).account .console 0 }) := by
  have hvalue : ofOctetsBE (octetsBE 4 v) = v := ofOctetsBE_octetsBE_of_lt (by omega)
  have hoctets : s.blk.opOctets .console (chipIdleRecord v) = octetsBE 4 v := rfl
  unfold State.opWrite
  simp only [hoctets, hvalue, octetsBE_length]
  exact State.writeVia_chipIdleTime (s := { s with blk := s.blk.dropStaged .console }) hentry hrec hcore hlo hhi

theorem State.serve_chipIdleAsk (hboot : s.blk.boot = none) (b : Block) (tid : Nat) :
    s.serve (b.waitOf .console (chipIdleAsk tid v)) = (none, { s with blk := s.blk.chipIdleWritten tid v }) := by
  have hreset : s.resetDue = false := by simp [State.resetDue, hboot, hcore]
  let w := b.waitOf .console (chipIdleAsk tid v)
  have hserve := State.serve_write (w := w) (o := chipIdleRecord v) rfl rfl rfl (by simp [chipIdleRecord]) hreset
  have hwrite : s.opWrite w.port (chipIdleRecord v) = _ := State.opWrite_chipIdleRecord hentry hrec hcore hlo hhi
  rw [hwrite] at hserve
  refine hserve.trans (congrArg (Prod.mk none) ?_)
  exact State.finishRequest_single
    (s := { s with blk := ((s.blk.dropStaged .console).put Obj.chipIdleTime v).account .console 0 }) hcore hboot rfl
    .console 0 tid false (chipIdleRecord v) 0 []

theorem State.request_chipIdleRecord {tid : Nat} (hwait : s.blk.plais.waiting = []) (hcommit : s.blk.region.commit = none)
    (hboot : s.blk.boot = none) (hcached : s.blk.cached .console tid = none) :
    s.request .console .console 0 { type := 0, tid := tid, len := 18 } (chipIdleRecord v).octets true =
      ({ s with blk := s.blk.chipIdleWritten tid v } : State).tierAs none := by
  rw [State.request_records hcached (Block.joinRepeat_of_idle hwait _ _ _) (chipIdleRecord_records tid v)]
  let w := s.blk.waitOf .console (chipIdleAsk tid v)
  let taken : State := { s with blk := { s.blk with plais := { s.blk.plais with waiting := [], tier := some w.tier } } }
  have hserve := State.serve_chipIdleAsk (s := taken) hentry hrec hcore hlo hhi hboot s.blk tid
  have hqueue : (s.blk.enqueueAsk w).plais.waiting = [w] := by simp [Block.enqueueAsk, hwait]
  refine (State.point_single (s := { s with blk := s.blk.enqueueAsk w }) hqueue rfl hcommit hserve rfl hcommit).trans ?_
  have hempty : { s.blk.plais with waiting := [] } = s.blk.plais := Plais.emptied_of_idle hwait
  show ({ s with blk := Block.chipIdleWritten { s.blk with plais := { ({ s.blk.plais with waiting := [] } : Plais) with
    tier := some w.tier } } tid v } : State).tierAs none = _
  rw [hempty]
  rfl

end

/-! ### What the write leaves -/

/-- An access that succeeds leaves every object but COMMITS and its port's LAST_RESULT. -/
theorem Block.get_account_ok (b : Block) (p : Port) {q : Reg} {k : Nat} (hc : q.key k ≠ Obj.commits.key 0)
    (hr : q.key k ≠ Obj.lastResult.key (portLoc p)) : (b.account p 0).get q k = b.get q k := by
  show ((b.add Obj.commits).put Obj.lastResult 0 (portLoc p)).get q k = b.get q k
  rw [Block.get_put_ne _ _ hr, Block.get_add_ne _ _ hc]

theorem Block.chipIdleWritten_get (b : Block) (tid v : Nat) : (b.chipIdleWritten tid v).get Obj.chipIdleTime = v := by
  show (((b.dropStaged .console).put Obj.chipIdleTime v).account .console 0).get Obj.chipIdleTime = v
  rw [Block.get_account_ok _ _ (by decide) (by decide), Block.get_put_same]

theorem Block.chipIdleWritten_cached (b : Block) (tid v : Nat) : (b.chipIdleWritten tid v).cached .console tid =
    some ⟨.console, tid, b.now, (chipIdleRecord v).answer 0 []⟩ :=
  Block.cached_cacheResponse (((b.dropStaged .console).put Obj.chipIdleTime v).account .console 0) .console tid _

theorem Block.chipIdleWritten_outs (b : Block) (tid v : Nat) : (b.chipIdleWritten tid v).outs = b.outs ++
    [.console (consoleFrame (({ type := 1, tid := tid, len := 14 } : Header).octets ++ (chipIdleRecord v).answer 0 []))] :=
  rfl

end Sys2Proof.Machine
end

section
/-!
SUPPORT. The transports of Plais, each by what its checks let through, and the statement about requests (R62 to R76).
-/

namespace Sys2Proof.Machine

/-! ### Commands that come after a time -/

theorem State.atAll_of_served {s : State} (hf : s.blk.frozen = false) (t : Nat) (f : State → State) :
    s.atAll t f = .next (f { s with blk := s.blk.tick t }).settle := by
  simp [State.atAll, hf, State.timedAll]

theorem exec_of_atAll {c : Instr} {s u : State} {t : Nat} {f : State → State} (he : exec c s = s.atAll t f)
    (hf : s.blk.frozen = false) (hu : f { s with blk := s.blk.tick t } = u) : exec c s = .next u.settle := by
  rw [he, State.atAll_of_served hf, hu]

/-- A command of the whole machine whose effect changes the block alone takes that effect. -/
theorem Takes.of_atAll {c : Instr} {s : State} {t : Nat} {f : State → State} {y : Block} (he : exec c s = s.atAll t f)
    (hf : s.blk.frozen = false) (hy : f { s with blk := s.blk.tick t } = { s with blk := y }) :
    Takes c s fun x => x = y :=
  ⟨{ s with blk := y }, exec_of_atAll he hf hy, rfl, rfl, rfl, rfl⟩

/-! ### The console (R74) -/

theorem Block.portOpen_console {b : Block} (hcore : b.coreF) (hreset : b.pins.resetLow = false) :
    b.portOpen .console = true := by
  simp [Block.portOpen, hcore, hreset]

theorem State.short_of_closed {s : State} {p : Port} (h : s.blk.portOpen p = false) (to_ : Reply) (m : List Octet) :
    s.short p to_ m = s := by
  simp [State.short, h]

theorem State.short_of_parse {s : State} {p : Port} {m : List Octet} {h : Header} (hopen : s.blk.portOpen p = true)
    (hm : Header.parse false m = some h) (to_ : Reply) :
    s.short p to_ m = s.message p to_ 0 h (m.drop 6) (h.fits (m.length - 6)) := by
  simp [State.short, hopen, hm]

theorem State.short_of_bad {s : State} {p : Port} {m : List Octet} (hopen : s.blk.portOpen p = true)
    (hm : Header.parse false m = none) (to_ : Reply) :
    s.short p to_ m = { s with blk := s.blk.add Obj.frameDiscard } := by
  simp [State.short, hopen, hm, Block.frameDiscard]

theorem Header.parse_of_too_short {long : Bool} {m : List Octet} (h : m.length < headerLen long) :
    Header.parse long m = none := by
  simp [Header.parse, h]

/-- A frame of a message does what the message does. -/
theorem State.consoleIn_consoleFrame (s : State) (m : List Octet) :
    s.consoleIn (consoleFrame m) = s.short .console .console m := by
  cases h : s.blk.portOpen .console with
  | false => rw [State.short_of_closed h]; simp [State.consoleIn, h]
  | true => simp [State.consoleIn, h, consoleMessage_consoleFrame]

theorem State.consoleIn_of_bad {s : State} {f : List Octet} (hopen : s.blk.portOpen .console = true)
    (hf : consoleMessage f = none) : s.consoleIn f = { s with blk := s.blk.add Obj.frameDiscard } := by
  simp [State.consoleIn, hopen, hf, Block.frameDiscard]

/-! ### CAN FD (R75, R76) -/

/-- Where no message of a source is being assembled there is none to drop. -/
theorem Block.dropAsm_of_none {b : Block} {src tid : Nat} (h : b.asmOf src tid = none) : b.dropAsm src tid = b := by
  have hkeep : (b.plais.asm.filter fun a => !(a.src == src && a.tidLo == tid)) = b.plais.asm :=
    List.filter_eq_self.mpr fun a ha => by rw [Bool.eq_false_of_not_eq_true (List.find?_eq_none.mp h a ha)]; rfl
  unfold Block.dropAsm
  rw [hkeep]

/-- A segment that is a message of its own, of a node of 1 to 127 and for this node, is taken as its message. -/
theorem State.canSegment_single {s : State} {ident : Nat} (hopen : s.blk.portOpen (.can (ident / 2 ^ 10 % 128)) = true)
    (hnode : ident / 2 ^ 17 % 128 = s.blk.get Obj.canNode) (hkind : ident / 2 ^ 24 % 4 = 0) (hseg : ident / 16 % 32 = 0)
    (hend : ident.testBit 9 = true) (hsrc : ident / 2 ^ 10 % 128 ≠ 0)
    (hasm : s.blk.asmOf (ident / 2 ^ 10 % 128) (ident % 16) = none) (d : List Octet) :
    s.canSegment ident d =
      s.short (.can (ident / 2 ^ 10 % 128)) (.can (ident / 2 ^ 10 % 128)) (canMessage d) := by
  simp only [State.canSegment, State.canTake, hopen, hnode, hkind, hseg, hasm, hsrc, bitSet, hend,
    Block.dropAsm_of_none hasm]
  simp

/-- A frame of Plais that the controller takes is activity, and its segment is handled. -/
theorem State.canReceived_plais {s : State} {ident : Nat} {d : List Octet} (hruns : s.blk.feRuns = true)
    (hbus : s.blk.get Obj.busState < 2) (hlen : s.blk.is Obj.fdEnable = true ∨ d.length ≤ 8)
    (hplais : s.blk.canIsPlais ident true = true) :
    s.canReceived ident true d = ({ s with blk := s.blk.active } : State).canSegment ident d := by
  have hfd : (!s.blk.is Obj.fdEnable && decide (8 < d.length)) = false := by
    rcases hlen with h | h <;> simp [h]
  simp [State.canReceived, hruns, hbus, hfd, hplais]

/-! ### UDP (R69, R72) -/

theorem State.udpDatagram_of_long {s : State} {m : List Octet} (hopen : s.blk.portOpen (.udp 0) = true)
    (hm : 1424 < m.length) (addr port : Nat) :
    s.udpDatagram addr port m = { s with blk := s.blk.add Obj.frameDiscard } := by
  simp [State.udpDatagram, hopen, udpMost, hm, Block.frameDiscard]

theorem State.udpDatagram_of_fit {s : State} {m : List Octet} (hopen : s.blk.portOpen (.udp 0) = true)
    (hm : m.length ≤ 1424) (addr port : Nat) : s.udpDatagram addr port m = s.network false (.udp addr port) m := by
  simp [State.udpDatagram, hopen, udpMost, Nat.not_lt.mpr hm]

theorem State.network_of_unauthentic {s : State} {m : List Octet} {h : Header} (hm : Header.parse true m = some h)
    (ha : s.blk.authentic h m = none) (mesh : Bool) (to_ : Reply) :
    s.network mesh to_ m = { s with blk := s.blk.add Obj.authDiscard } := by
  simp [State.network, hm, ha]

theorem State.network_of_authentic {s : State} {m body : List Octet} {h : Header} {b : Block}
    (hm : Header.parse true m = some h) (ha : s.blk.authentic h m = some (body, b)) (to_ : Reply) :
    s.network false to_ m = ({ s with blk := b } : State).message (.udp (s.blk.speaker h)) to_ (s.blk.speaker h) h body
      (h.fits (m.length - 16)) := by
  simp [State.network, hm, ha]

theorem State.message_of_request {s : State} {h : Header} (ht : h.type = 0) (p : Port) (to_ : Reply) (row : Nat)
    (body : List Octet) (fits : Bool) : s.message p to_ row h body fits = s.request p to_ row h body fits := by
  simp [State.message, ht]

/-! ### Commands that bring messages -/

section Console
variable {s : State} {t : Nat} (hf : s.blk.frozen = false) (hcore : (s.blk.tick t).coreF)
  (hreset : (s.blk.tick t).pins.resetLow = false)
include hf hcore hreset

theorem takes_badConsoleFrame {f : List Octet} (hbad : consoleMessage f = none) :
    Takes (.consoleFrameReceived t f) s fun y => y = (s.blk.tick t).add Obj.frameDiscard :=
  .of_atAll rfl hf (State.consoleIn_of_bad (s := { s with blk := s.blk.tick t }) (Block.portOpen_console hcore hreset) hbad)

theorem takes_tooShortConsoleMessage {m : List Octet} (hm : m.length < 6) (addr port : Nat) :
    Takes (.plaisRequest t .console addr port m) s fun y => y = (s.blk.tick t).add Obj.frameDiscard :=
  .of_atAll rfl hf (State.short_of_bad (s := { s with blk := s.blk.tick t }) (Block.portOpen_console hcore hreset)
    (Header.parse_of_too_short hm) .console)

theorem exec_consoleRequest {h : Header} (htype : h.type = 0) (hlong : h.long = false) (hkey : h.keyId = 0)
    (hcounter : h.counter = 0) (htid : h.tid < 65536) (hlen : h.len < 65536) (addr port : Nat) (body : List Octet) :
    exec (.plaisRequest t .console addr port (h.octets ++ body)) s =
      .next (({ s with blk := s.blk.tick t } : State).request .console .console 0 h body (h.fits body.length)).settle := by
  have hsize : h.octets.length = 6 := by simp [Header.octets, hlong]
  have hmsg := State.short_of_parse (s := { s with blk := s.blk.tick t }) (Block.portOpen_console hcore hreset)
    (Header.parse_octets (by omega) hlong hkey hcounter htid hlen body) .console
  rw [State.message_of_request htype, ← hsize, List.drop_left, List.length_append, Nat.add_sub_cancel_left] at hmsg
  exact exec_of_atAll rfl hf hmsg

end Console

theorem exec_singleCanSegment {s : State} {t ident : Nat} {d : List Octet} (hf : s.blk.frozen = false)
    (hruns : (s.blk.tick t).feRuns) (hbus : (s.blk.tick t).get Obj.busState < 2)
    (hlen : (s.blk.tick t).is Obj.fdEnable ∨ d.length ≤ 8) (hplais : (s.blk.tick t).canIsPlais ident true)
    (hopen : (s.blk.tick t).portOpen (.can (ident / 2 ^ 10 % 128)))
    (hnode : ident / 2 ^ 17 % 128 = (s.blk.tick t).get Obj.canNode) (hkind : ident / 2 ^ 24 % 4 = 0)
    (hseg : ident / 16 % 32 = 0) (hend : ident.testBit 9) (hsrc : ident / 2 ^ 10 % 128 ≠ 0)
    (hasm : (s.blk.tick t).asmOf (ident / 2 ^ 10 % 128) (ident % 16) = none) (addr port : Nat) :
    exec (.canSegmentReceived t ident d) s =
      .next (({ s with blk := (s.blk.tick t).active } : State).plaisRequest (.can (ident / 2 ^ 10 % 128)) addr port
        (canMessage d)).settle :=
  exec_of_atAll rfl hf ((State.canReceived_plais (s := { s with blk := s.blk.tick t }) hruns hbus hlen hplais).trans
    (State.canSegment_single (s := { s with blk := (s.blk.tick t).active }) hopen hnode hkind hseg hend hsrc hasm d))

section Udp
variable {s : State} {t : Nat} {m : List Octet} (hf : s.blk.frozen = false) (hopen : (s.blk.tick t).portOpen (.udp 0))
include hf hopen

theorem takes_tooLongDatagram (hm : 1424 < m.length) (addr port : Nat) :
    Takes (.udpDatagramReceived t addr port m) s fun y => y = (s.blk.tick t).add Obj.frameDiscard :=
  .of_atAll rfl hf (State.udpDatagram_of_long (s := { s with blk := s.blk.tick t }) hopen hm addr port)

variable {h : Header} (hm : m.length ≤ 1424) (hparse : Header.parse true m = some h)
include hm hparse

theorem takes_unauthenticDatagram (hauth : (s.blk.tick t).authentic h m = none) (addr port : Nat) :
    Takes (.udpDatagramReceived t addr port m) s fun y => y = (s.blk.tick t).add Obj.authDiscard :=
  .of_atAll rfl hf ((State.udpDatagram_of_fit (s := { s with blk := s.blk.tick t }) hopen hm addr port).trans
    (State.network_of_unauthentic (s := { s with blk := s.blk.tick t }) hparse hauth false (.udp addr port)))

theorem exec_authenticRequest {l : List Octet} {c : Block} (hauth : (s.blk.tick t).authentic h m = some (l, c))
    (htype : h.type = 0) (addr port : Nat) :
    exec (.udpDatagramReceived t addr port m) s =
      .next (({ s with blk := c } : State).request (.udp ((s.blk.tick t).speaker h)) (.udp addr port)
        ((s.blk.tick t).speaker h) h l (h.fits (m.length - 16))).settle := by
  have hmsg := State.network_of_authentic (s := { s with blk := s.blk.tick t }) hparse hauth (.udp addr port)
  rw [State.message_of_request htype] at hmsg
  exact exec_of_atAll rfl hf
    ((State.udpDatagram_of_fit (s := { s with blk := s.blk.tick t }) hopen hm addr port).trans hmsg)

end Udp

theorem exec_consoleFrame (s : State) (t addr port : Nat) (m : List Octet) :
    exec (.consoleFrameReceived t (consoleFrame m)) s = exec (.plaisRequest t .console addr port m) s := by
  show s.atAll t (fun x => x.consoleIn (consoleFrame m)) = s.atAll t fun x => x.short .console .console m
  simp only [State.consoleIn_consoleFrame]

/-- Settles O32: the console by COBS and its CRC losing nothing, the other transports by what their checks let
through, a repeat by the response cache, and a single WRITE by one turn of the commit point. -/
theorem requestsAreAppliedOnceAndAnswered : Obligations.RequestsAreAppliedOnceAndAnswered := by
  intro s t addr port hf b x
  refine ⟨exec_consoleFrame s t addr port, fun f hcore hreset => takes_badConsoleFrame hf hcore hreset,
    fun m hcore hreset hm => takes_tooShortConsoleMessage hf hcore hreset hm addr port,
    fun h body hcore hreset htype hlong hkey hcounter htid hlen =>
      exec_consoleRequest hf hcore hreset htype hlong hkey hcounter htid hlen addr port body,
    fun u p to_ row h body fits => ⟨?cached, ?joined, ?malformed, Block.cached_cacheResponse u.blk p h.tid body⟩, ?write,
    fun ident d hruns hbus hlen hplais hopen hnode hkind hseg hend hsrc hasm =>
      exec_singleCanSegment hf hruns hbus hlen hplais hopen hnode hkind hseg hend hsrc hasm addr port,
    fun m hopen hm => takes_tooLongDatagram hf hopen hm addr port,
    fun m h hopen hm hparse hauth => takes_unauthenticDatagram hf hopen hm hparse hauth addr port,
    fun m h l c hopen hm hparse hauth htype => exec_authenticRequest hf hopen hm hparse hauth htype addr port⟩
  case cached => exact fun c hc => State.request_cached hc to_ row body fits
  case joined => exact fun c hc hj => State.request_joined hc hj row body fits
  case malformed => exact fun hc hj hfits => State.request_malformed hc hj (by simp [Header.records, hfits]) row
  case write =>
    intro u tid v hwait hcommit hentry hrec hcore hboot hcached hlo hhi o body z
    have hbody : body = (chipIdleRecord v).octets := (chipIdleRecord_octets v).symm
    have hz : z = (({ u with blk := u.blk.chipIdleWritten tid v } : State).tierAs none).blk := by
      simp only [z, hbody]
      rw [State.request_chipIdleRecord hentry hrec hcore hlo hhi hwait hcommit hboot hcached]
    rw [hz]
    exact ⟨Block.chipIdleWritten_get u.blk tid v, Block.chipIdleWritten_cached u.blk tid v,
      Block.chipIdleWritten_outs u.blk tid v⟩

end Sys2Proof.Machine
end

section
/-!
SUPPORT. Every command keeps the queue behind it and the canonical form of memory: the instructions of the engines by
the operation that they share, the debug port, and the commands of the block.
-/

namespace Sys2Proof.Machine

namespace Keeps

/-! ### Instructions that compute -/

theorem sum (s : State) (n : Eng) (rd : GReg) (a b : Word) (c sub : Bool) : Keeps s (s.sum n rd a b c sub) :=
  (compute s n rd _ _).trans (modCpu _ _ _)

theorem logic (s : State) (n : Eng) (rd : GReg) (v : Word) : Keeps s (s.logic n rd v) := compute s n rd _ _

theorem shift (s : State) (n : Eng) (rd : GReg) (k : Shift) (a : Word) (amount : Nat) :
    Keeps s (s.shift n rd k a amount) := compute s n rd _ _

theorem move (s : State) (n : Eng) (rd : GReg) (v : Word) : Keeps s (s.move n rd v) :=
  (setReg s _ _ _).trans (retire _ _)

theorem bcdSum (s : State) (n : Eng) (rd ra rb : GReg) (c : Bool) : Keeps s (s.bcdSum n rd ra rb c) :=
  compute s n rd _ _

theorem bcdDiff (s : State) (n : Eng) (rd ra rb : GReg) (c : Bool) : Keeps s (s.bcdDiff n rd ra rb c) :=
  compute s n rd _ _

theorem crRefused (s : State) (n : Eng) (o : Op) : Keeps s (s.crRefused n o) := raiseWord s n _ o

theorem setReg_jump (s : State) (n r : Nat) (v : Word) (a : BitVec 40) : Keeps s ((s.setReg n r v).jump n a) :=
  (setReg s n r v).trans (jump _ _ _)

theorem ite {s t u : State} {p : Prop} [Decidable p] (ht : Keeps s t) (hu : Keeps s u) :
    Keeps s (if p then t else u) := by
  split
  · exact ht
  · exact hu

end Keeps

/-! ### Mould instructions (R459 to R461): their loads and free values alone change the machine before the end -/

@[simp] theorem MouldRun.dst_st (m : MouldRun) (code : Nat) (v : Word) : (m.dst code v).st = m.st := by
  unfold MouldRun.dst; repeat' split
  all_goals rfl

@[simp] theorem MouldRun.setF_st (m : MouldRun) (setf : Bool) (f : Flags) : (m.setF setf f).st = m.st := by
  unfold MouldRun.setF; split <;> rfl

@[simp] theorem MouldRun.add_st (m : MouldRun) (dst : Nat) (setf : Bool) (a b : Word) (c sub : Bool) :
    (m.add dst setf a b c sub).st = m.st := by
  unfold MouldRun.add; dsimp only; split <;> simp

/-- What a micro-operation or a row answers keeps queue and memory: the run that goes on, or what an exception
leaves. -/
structure MouldKeeps (s : State) (d : Except Exc MouldRun × MouldRun) : Prop where
  left : Keeps s d.2.st
  ok : ∀ x, d.1 = .ok x → Keeps s x.st

namespace MouldKeeps

theorem of_ok {m x : MouldRun} (h : Keeps m.st x.st) : MouldKeeps m.st (.ok x, m) :=
  ⟨.refl _, fun _ e => by cases e; exact h⟩

theorem of_st {m x : MouldRun} (h : x.st = m.st) : MouldKeeps m.st (.ok x, m) := of_ok (h ▸ .refl _)

theorem of_error {s : State} {e : Exc} {x : MouldRun} (h : Keeps s x.st) : MouldKeeps s (.error e, x) :=
  ⟨h, fun _ e => by cases e⟩

theorem free (m : MouldRun) : Keeps m.st m.free.2.st := .blk m.st _

theorem freeFlags (m : MouldRun) (setf : Bool) : Keeps m.st (m.freeFlags setf).st := by
  unfold MouldRun.freeFlags; split
  · exact free m
  · exact .refl m.st

theorem bswap (m : MouldRun) (dst : Nat) (setf : Bool) (a : Word) (imm : Nat) :
    Keeps m.st (m.bswap dst setf a imm).st := by
  have taken {d : Word × MouldRun} (h : Keeps m.st d.2.st) : Keeps m.st ((d.2.dst dst d.1).freeFlags setf).st :=
    h.trans (by simpa using freeFlags (d.2.dst dst d.1) setf)
  unfold MouldRun.bswap
  extract_lets d
  refine taken ?_
  unfold d; split
  case h_4 => exact free m
  all_goals exact .refl m.st

theorem load (m : MouldRun) (n : Eng) (dst : Nat) (a : Word) (k : Nat) : MouldKeeps m.st (m.load n dst a k) := by
  have h := Keeps.loadAt m.st n a.toNat k
  unfold MouldRun.load; split
  · rename_i e; rw [e] at h; exact of_ok (by simpa using h)
  · rename_i e; rw [e] at h; exact of_error h

theorem store (m : MouldRun) (n : Eng) (a : Word) (k : Nat) (v : Word) : MouldKeeps m.st (m.store n a k v) := by
  unfold MouldRun.store; split
  · exact of_error (.refl _)
  · exact of_st rfl

theorem uop (m : MouldRun) (n : Eng) (w : BitVec 32) : MouldKeeps m.st (m.uop n w) := by
  unfold MouldRun.uop
  extract_lets imm a b d sf at_ ok
  split
  case h_14 => exact of_ok (bswap m d sf a _)
  case h_15 => exact of_ok (by simpa using freeFlags (m.dst d _) sf)
  case h_18 | h_19 | h_20 | h_21 => exact load m n d at_ _
  case h_22 | h_23 | h_24 | h_25 => exact store m n at_ _ b
  case h_26 => exact of_ok (by split <;> exact .refl m.st)
  all_goals exact of_st (by simp)

theorem run (n : Eng) (l : List (BitVec 32)) : ∀ m : MouldRun, MouldKeeps m.st (m.run n l) := by
  induction l with
  | nil => exact fun m => of_ok (.refl _)
  | cons w rest ih =>
    intro m
    unfold MouldRun.run
    split
    · exact ih { m with skip := m.skip - 1 }
    · have h := uop m n w
      split
      · rename_i x y e; rw [e] at h
        have hx := h.ok x rfl
        exact ⟨hx.trans (ih x).left, fun z hz => hx.trans ((ih x).ok z hz)⟩
      · rename_i e; rw [e] at h; exact of_error h.left

theorem of_run {m : MouldRun} {n : Eng} {l : List (BitVec 32)} {d : Except Exc MouldRun × MouldRun}
    (e : m.run n l = d) : MouldKeeps m.st d := e ▸ run n l m

theorem stores (n : Eng) (l : List (Nat × Nat × Nat)) (s : State) :
    Keeps s (l.foldl (fun t x => t.storeDo n x.1 x.2.1 x.2.2) s) := by
  apply Keeps.foldl
  exact fun t x => .storeDo t n x.1 x.2.1 x.2.2

theorem finish (m : MouldRun) (n : Eng) (mould : Nat) (rd ra rb : GReg) : Keeps m.st (m.finish n mould rd ra rb) := by
  unfold MouldRun.finish
  extract_lets s1 w s2 f s3
  have hw (t : State) (i : Nat) (r : GReg) : Keeps t (w t i r) := by
    unfold w; split
    · exact .setReg t n r _
    · exact .refl t
  have h1 : Keeps m.st s1 := stores n m.stores m.st
  have h2 : Keeps s1 s2 := (hw s1 0 rd).trans ((hw (w s1 0 rd) 1 ra).trans (hw (w (w s1 0 rd) 1 ra) 2 rb))
  have h3 : Keeps s2 s3 := .modCpu s2 n _
  exact (h1.trans (h2.trans h3)).trans ((Keeps.blk s3 _).trans ((Keeps.retire _ n).trans (.settle _)))

end MouldKeeps

namespace Keeps

theorem mould {s t : State} {n : Eng} {m : Fin 16} {rd ra rb : GReg} {imm9 : BitVec 9}
    (h : execMouldInstruction n m rd ra rb imm9 s = .next t) : Keeps s t := by
  refine instr (fun u => ?_) h
  dsimp only
  split
  · exact reserved u n _
  · split
    · rename_i x y e
      exact ((MouldKeeps.of_run e).ok x rfl).trans (MouldKeeps.finish x n m rd ra rb)
    · rename_i e
      exact (MouldKeeps.of_run e).left.trans (raiseWord _ n _ _)

end Keeps

namespace Keeps

/-! ### The instructions of the engines -/

theorem of_instr {s t : State} {n : Eng} {f : State → State} (h : s.instr n f = .next t) (hf : ∀ u, Keeps u (f u)) :
    Keeps s t := instr hf h

theorem runOp {s t : State} {n : Eng} {o : Op} (h : s.runOp n o = .next t) : Keeps s t := by
  unfold State.runOp at h
  cases o
  case reserved => exact of_instr h fun u => reserved u n _
  case nop | fenceS => exact of_instr h fun u => retire u n
  case fence | fenceD => exact of_instr h fun u => ordered u n fun v => retire v n
  case trap => exact of_instr h fun u => raiseOpen u n _
  case mcall => exact of_instr h fun u => notAtA u n _ fun v => raiseOpen v n _
  case xret => exact of_instr h fun u => notAtA u n _ fun v => blk v _
  case halt => exact of_instr h fun u => notAtA u n _ fun v => (retire v n).trans (modCpu _ n _)
  case safept => exact of_instr h fun u => (retire u n).trans (.ite (blk _ _) (refl _))
  case wdkick => exact of_instr h fun u => (retire u n).trans (modCpu _ n _)
  case crd => exact of_instr h fun u => .ite (move u n _ _) (crRefused u n _)
  case cwr => exact of_instr h fun u => .ite ((modCpu u n _).trans (retire _ n)) (crRefused u n _)
  case add | adc | sub | sbc | cmp | addi | cmpi => exact of_instr h fun u => sum u n _ _ _ _ _
  case and | or | xor | clz | popc | andi | ori | xori => exact of_instr h fun u => logic u n _ _
  case shl | shr | sar | ror | shiShl | shiShr | shiSar | shiRor => exact of_instr h fun u => shift u n _ _ _ _
  case movz | movk | mulhu | mulhs => exact of_instr h fun u => move u n _ _
  case mul | divu | divs | remu | rems => exact of_instr h fun u => compute u n _ _ _
  case ld64 | ld32u | ld32s | ld16u | ld16s | ld8u | ld8s | ldacq => exact of_instr h fun u => loadTo u n _ _ _ _
  case st64 | st32 | st16 | st8 => exact of_instr h fun u => storeFrom u n _ _ _
  case strel => exact of_instr h fun u => ordered u n fun v => storeFrom v n _ _ _
  case cas | aadd | aswap => exact of_instr h fun u => ordered u n fun v => atomic v n _ _ _
  case bCond => exact of_instr h fun u => .ite (jump u n _) (retire u n)
  case jal | jalr => exact of_instr h fun u => setReg_jump u n _ _ _
  case wfe => exact of_instr h fun u => eProfile u n _ fun v => .ite ((blk v _).trans (retire _ n)) (modCpu v n _)
  case sev => exact of_instr h fun u => eProfile u n _ fun v => .ite (raiseWord v n _ _) ((retire v n).trans (blk _ _))
  case wuntil => exact of_instr h fun u => eProfile u n _ fun v => .ite ((blk v _).trans (retire _ n)) (modCpu v n _)
  case dadd | daddX => exact of_instr h fun u => decimal u n _ _ _ fun v => bcdSum v n _ _ _ _
  case dsub | dsubX | dcmp => exact of_instr h fun u => decimal u n _ _ _ fun v => bcdDiff v n _ _ _ _
  case dadj => exact of_instr h fun u => .ite (reserved u n _) (compute u n _ _ _)
  case mouldInstruction => exact mould h

/-! ### The debug port (R398) -/

theorem tapStep (s : State) (n : Eng) : Keeps s (s.tapStep n) := by
  unfold State.tapStep; split
  · exact refl s
  · extract_lets s1
    split
    · rename_i u e
      have hu : Keeps s u := (modCpu s n _).trans (runOp e)
      split
      · exact hu.trans (modCpu u n _)
      · exact hu
    · exact refl s

theorem tapRead (s : State) (a : Nat) : Keeps s (s.tapRead a) := by
  unfold State.tapRead; split
  · exact blk s _
  · split
    · exact blk s _
    · have h := windowLoad s 0 a 1
      split
      · exact refl s
      · split
        all_goals
          rename_i e; rw [e] at h
          exact h.blk_of _
    · exact ((touch s a).trans (readPlace _ _ _ _)).blk_of _

theorem tapWrite (s : State) (a : Nat) (v : Octet) : Keeps s (s.tapWrite a v) := by
  unfold State.tapWrite; split
  · exact refl s
  · split
    · exact refl s
    · exact .ite (refl s) (windowStore s 0 a 1 _)
    · exact (touch s a).trans (writePlace _ _ _ _)

theorem tap (s : State) (op : TapOp) : Keeps s (s.tap op) := by
  unfold State.tap; extract_lets b; split
  · exact refl s
  · cases op with
    | idcode => exact blk s _
    | bypass => exact blk s _
    | halt n => exact .ite (modCpu s n _) (refl s)
    | step n => exact .ite (tapStep s n) (refl s)
    | inspect n item => exact .ite (blk s _) (refl s)
    | readMem a => exact .ite (tapRead s a) (refl s)
    | writeMem a v => exact .ite (tapWrite s a v) (refl s)

end Keeps

/-- A command that is an instruction of an engine runs as that instruction. -/
theorem exec_eq_runOp {c : Instr} {n : Eng} {o : Op} (h : opOf c = some (n, o)) (s : State) :
    exec c s = s.runOp n o := by
  cases c <;> cases h <;> rfl

namespace Keeps

/-! ### Every command -/

theorem of_atAll {s t : State} {k : Nat} {f : State → State} (h : s.atAll k f = .next t) (hf : ∀ u, Keeps u (f u)) :
    Keeps s t := atAll hf h

/-- The commands that are no instruction of an engine, by who takes them. -/
theorem exec_of_no_op {c : Instr} {s t : State} (hc : opOf c = none) (h : exec c s = .next t) : Keeps s t := by
  cases c
  case vfurRise | vfurFall | rtcCrystalStable | rtcCrystalStop | pwrOkRise | pwrOkFall | pfwNAssert | brownout |
      resetNRelease | duskAlarm | wakeAlarmDelayExpiry | wakeEvent | railsGood | railTimeoutExpiry | maintNFitted |
      maintNRemoved | presencePress | presenceLongHold | presenceWindowExpiry | sealCheck | sealConfirmCheck |
      abandonSummary | culletRecordWrite | culletCrcWritten | thermalCheck | watchdogExpiry | presenceNEdge |
      resetNAssert | brownoutEnd =>
    exact furnace h
  case restoreDelayExpiry | fabricStallExpiry | unitSelfCheckFail | ethLinkChange | ethIdleExpiry | radioIdleExpiry |
      dramIdleExpiry | dramSelfRefreshExit | chipIdleExpiry | dawnDrainStart | drainAcceptanceClose |
      drainGuardDeadline | drainComplete | canMessageTimeout | respCacheExpiry | noticeRetryExpiry | noticeAckReceived
      | ethFrameReceived | pauseRefresh | ethTxStart | ethTxEnd | rxSyncConfirm | rxHeaderDecoded | rxPpduEnd |
      landingDrain | classifyFrame | flowIdleExpiry | bridgeAgeExpiry | shaperRelease | samplePass |
      abandonNoticePeriodEnd | gatherSelect | gatherSealDone | gatherAgeExpiry | txCommand | txCommit |
      ppduFirstSample | ppduTxEnd | responseReceived | responseTimeout | retryHoldExpiry | synthLock |
      lockTimeoutExpiry | lockLost | tuneStart | calSegmentStart | calSegmentEnd | calStarveExpiry | paSupplyRead |
      coexInChange | blankTailExpiry | regionFlip | shadowLoad | shadowCrcCheck | radarDetected | cacExpiry |
      nopExpiry | backoffSlot | ccaBusy | csmaCcaEnd | ackWaitExpiry | lowbandAckReceived | dutyBinBoundary |
      indirectEnqueue | childPoll | childPersistExpiry | inactivityExpiry | guardExpiry | lostPartnerListen |
      scanDwellEnd | scanIntervalExpiry | dwPoll | dwTimeValidExpiry | roundStart | assocRequest | disassocReceived |
      probeRequest | twtSetup | twtLeadStart | twtSpStart | tbtt | ebSend | caneAckReceived | caneNackReceived |
      caneProbeReceived | ackDelayExpiry | holdTimeExpiry | resendTimeExpiry | strandDeadTimeExpiry |
      probeIntervalExpiry | retiringKeyClear | sourceTimeoutExpiry | holdoverLimitExpiry | rtcAlign | triggerFire |
      ppsOutFall | captureEdge | timerReload | timerCompare | timerPinCapture | zxEdge | zxTimeoutExpiry | relaySwitch
      | daliRowStart | daliRowEnd | daliCollision | daliBusDown | daliBusUp | daliPoll | detectorEdge |
      maxTravelExpiry | stuckTimeExpiry | intervalBoundary | recordHoldExpiry | adcScanEnd | adcPersistExpiry |
      cycleWindowExpiry | canBusOff | lehrPeriodExpiry | strainSweepDone | vcoreSettleExpiry | wsScrub | dramRequest |
      dramAgePromote | dramScrub | dramRefresh | dramRetrainStart | dramRetrainDone | xspiReadTimeout | swapWaitExpiry
      | engineEvent | wuntilTarget | busOffRecovery | pauseQuantaExpiry | calPeriodExpiry | tmrIoCountEdge =>
    exact at_ h
  case warmReset | keyHashProgram | dictWrite | customerDeclare | vcoreLimitWrite =>
    exact of_atAll h fun u => portWrite u _ _ _ _ _ _ _
  case coldReset | presenceClose | sealClear | rollbackSet | debugUnlock | debugLock | debugDisable | defaultsRestore
      | insert | verdict | regionCommit | regionClear | testModeWrite | jobRun | presentSelWrite | stepAllowWrite |
      presentSet | globalGo | dimLevelWrite | lehrRun | csWrite | swapGo | bootConfirm | modeRequestHibernate |
      modeRequestDayWatch | modeRequestFieldOnly | modeRequestRelay | modeRequestFullService | modeRequestDegraded |
      flushQueue | flushStation | flushNeighbour | flushCaneLink | flushAll | xspiProgram | xspiSectorErase |
      xspiBlockErase | engineHalt | engineRun | engineResume =>
    exact of_atAll h fun u => setOne u _ _ _
  case revoke | ethModeWrite | txRingDoorbell | rxRingHeadWrite | histClear | bssEnableWrite | kick | remove |
      neighbourAdmit | delete | rekey | keyWrite | erase | offsetIn | sourceWrite | triggerEnable | timerCompareWrite
      | timerPeriodWrite | relayCommandWrite | daliSubmit | alarmClear | alarmRaiseWrite =>
    exact of_atAll h fun u => setObj u _ _ _ _
  case sealEnableWrite | bindingWrite | tuneWrite | mouldRowWrite => exact of_atAll h fun u => set u _ _ _ _ _
  case missTake | maxOctetsRead | lateRead | captureTimeRead | pop | overflowRead | countLowRead | eventsRead =>
    exact of_atAll h fun u => portRead u _ _ _ _
  case windowStore => exact of_atAll h fun u => storeEvent u _ _ _ _
  case plaisRequest => exact of_atAll h fun u => plaisRequest u _ _ _ _
  case udpDatagramReceived => exact of_atAll h fun u => udpDatagram u _ _ _
  case consoleFrameReceived => exact of_atAll h fun u => consoleIn u _
  case canSegmentReceived | canFrameReceived => exact of_atAll h fun u => canReceived u _ _ _
  case rxRingFill => exact of_atAll h fun u => rxFill u _
  case jobDone => exact of_atAll h fun u => jobDone u _
  case xspiOpDone => exact of_atAll h fun u => flashDone u _
  case tapAccess => exact of_atAll h fun u => tap u _
  case swapEngineLoaded => exact of_atAll h swapLoaded
  case confirmTimeExpiry => exact of_atAll h confirmExpiry
  all_goals cases hc

theorem exec {c : Instr} {s t : State} (h : exec c s = .next t) : Keeps s t := by
  cases hc : opOf c with
  | none => exact exec_of_no_op hc h
  | some x => exact runOp ((exec_eq_runOp hc s).symm.trans h)

/-- A step takes the command at the front off the queue, and keeps the canonical form of memory. -/
theorem step {s t : State} (h : step s = .next t) : Keeps { s with pending := s.pending.tail } t := by
  unfold Machine.step at h
  split at h
  · rename_i hp
    cases h
    exact ⟨by simp [hp], id⟩
  · rename_i hp
    rw [hp]
    exact exec h

end Keeps

/-- Settles O4: every command keeps the canonical form, whichever way it takes its effect. -/
theorem everyStepKeepsMemoryCanonical : Obligations.EveryStepKeepsMemoryCanonical :=
  fun _ _ hwf h => (Keeps.step h).mem hwf

end Sys2Proof.Machine
end

section
/-!
SUPPORT. The loads of the engines (R35, R441, R446): the number that octets of memory give, where a load leads, and what
each outcome of a load leaves.
-/

namespace Sys2Proof.Machine

/-! ### The number that octets give -/

/-- Bit by bit, the number of octets loaded from memory, least significant first (R35). -/
theorem testBit_ofOctetsLE_memLoad (m : List Host.Cell) (k : Nat) : ∀ a j : Nat,
    (ofOctetsLE (memLoad m a k)).testBit j = (decide (j < 8 * k) && (memGet m (a + j / 8)).getLsbD (j % 8)) := by
  induction k with
  | zero => simp [memLoad, ofOctetsLE]
  | succ k ih =>
    intro a j
    have hsum : ofOctetsLE (memLoad m a (k + 1)) = 2 ^ 8 * ofOctetsLE (memLoad m (a + 1) k) + (memGet m a).toNat := by
      simp [memLoad, ofOctetsLE, Nat.add_comm]
    rw [hsum, Nat.testBit_two_pow_mul_add _ (memGet m a).isLt, ih]
    split
    · rename_i hj
      have h0 : j / 8 = 0 := Nat.div_eq_of_lt hj
      have hlt : j < 8 * (k + 1) := by omega
      simp [h0, hlt, Nat.mod_eq_of_lt hj, BitVec.getLsbD]
    · rename_i hj
      have hdiv : a + 1 + (j - 8) / 8 = a + j / 8 := by omega
      have hmod : (j - 8) % 8 = j % 8 := by omega
      have hlt : (j - 8 < 8 * k) = (j < 8 * (k + 1)) := by simp; omega
      simp [hdiv, hmod, hlt]

theorem getLsbD_zeroExt_memLoad (m : List Host.Cell) (a : Nat) {k j : Nat} (hj : j < 64) :
    (zeroExt (ofOctetsLE (memLoad m a k))).getLsbD j =
      (decide (j < 8 * k) && (memGet m (a + j / 8)).getLsbD (j % 8)) := by
  rw [zeroExt, BitVec.getLsbD_ofNat, testBit_ofOctetsLE_memLoad, decide_eq_true hj, Bool.true_and]

theorem getLsbD_signExt_memLoad (m : List Host.Cell) (a : Nat) {k j : Nat} (hk : 0 < k) (hj : j < 64) :
    (signExt (8 * k) (ofOctetsLE (memLoad m a k))).getLsbD j =
      if j < 8 * k then (memGet m (a + j / 8)).getLsbD (j % 8) else (memGet m (a + k - 1)).getLsbD 7 := by
  rw [signExt, BitVec.getLsbD_signExtend, decide_eq_true hj, Bool.true_and]
  split
  · rename_i h
    rw [BitVec.getLsbD_ofNat, testBit_ofOctetsLE_memLoad]
    simp [h]
  · have hlast : a + (8 * k - 1) / 8 = a + k - 1 := by omega
    have hmod : (8 * k - 1) % 8 = 7 := by omega
    have hlt : 8 * k - 1 < 8 * k := by omega
    rw [BitVec.msb_eq_getLsbD_last, BitVec.getLsbD_ofNat, testBit_ofOctetsLE_memLoad, hlast, hmod]
    simp only [hlt, decide_true, Bool.true_and]

theorem State.memAddr_eq (s : State) (n : Nat) (ra : Nat) (imm : BitVec 16) :
    s.memAddr n ra imm = BitVec.ofInt 64 ((s.reg n ra).toNat + imm.toInt) := by
  rw [BitVec.ofInt_add]
  simp [State.memAddr, sext16, BitVec.signExtend]

/-! ### Where a load leads (R31, R439) -/

/-- Every privilege reaches the dictionary window (R439). -/
theorem Block.placeOf_of_inWindow (b : Block) (n : Nat) (p : Priv) {a : Nat} (k : Nat) (h : Machine.inWindow a = true) :
    b.placeOf n p .load a k = .ok .window := by
  obtain ⟨hlo, hhi⟩ : 0xF000000000 ≤ a ∧ a < 0xF010000000 := by simpa [Machine.inWindow] using h
  have hok : b.appletOk n a k = true := by simp [Block.appletOk, hlo, hhi]
  simp [Block.placeOf, hok]
  simp (disch := omega) only [if_neg, if_pos]

theorem Block.placeBuffer_ne_window (b : Block) (n a k : Nat) (p : Priv) (x : Access3) :
    b.placeBuffer n a k p x ≠ .ok .window := by
  unfold Block.placeBuffer; repeat' split
  all_goals simp

theorem placeInner_ne_window (n a : Nat) (p : Priv) (x : Access3) : placeInner n a p x ≠ .ok .window := by
  unfold placeInner; repeat' split
  all_goals simp

theorem Block.placeStore_ne_window (b : Block) (n a k : Nat) (p : Priv) (x : Access3) :
    b.placeStore n a k p x ≠ .ok .window := by
  unfold Block.placeStore placeFirmware; repeat' split
  all_goals simp [Block.placeBuffer_ne_window, placeInner_ne_window]

theorem Block.placeMram_ne_window (b : Block) (a : Nat) (x : Access3) : b.placeMram a x ≠ .ok .window := by
  unfold Block.placeMram; repeat' split
  all_goals simp

theorem Block.placeFlash_ne_window (b : Block) (a : Nat) (x : Access3) : b.placeFlash a x ≠ .ok .window := by
  unfold Block.placeFlash; dsimp only; repeat' split
  all_goals simp

theorem Block.placeDram_ne_window (b : Block) (a : Nat) : b.placeDram a ≠ .ok .window := by
  unfold Block.placeDram; repeat' split
  all_goals simp

theorem Block.placeLocal_ne_window (b : Block) (n a k : Nat) (p : Priv) (x : Access3) :
    b.placeLocal n a k p x ≠ .ok .window := by
  unfold Block.placeLocal placeSram; dsimp only; repeat' split
  all_goals simp

/-- Outside the window no access leads to it. -/
theorem Block.placeOf_ne_window (b : Block) (n a k : Nat) (p : Priv) (x : Access3) (h : Machine.inWindow a = false) :
    b.placeOf n p x a k ≠ .ok .window := by
  unfold Block.placeOf; dsimp only; repeat' split
  all_goals simp_all [Machine.inWindow, Block.placeStore_ne_window, Block.placeMram_ne_window,
    Block.placeFlash_ne_window, Block.placeDram_ne_window, Block.placeLocal_ne_window]

/-! ### What a load does -/

section
variable (s : State) (n : Eng) (rd : GReg) (addr : Word) {k : Nat} (ext : Nat → Word)

/-- A load stands only at the window. -/
theorem State.loadStands_of_not_inWindow {a : Nat} (h : inWindow a = false) (k : Nat) : s.loadStands n a k = false := by
  simp [State.loadStands, h]

theorem State.loadTo_misaligned (h : addr.toNat % k ≠ 0) :
    s.loadTo n rd addr k ext = s.raise n .misalign addr := by
  simp [State.loadTo, State.loadStands, State.loadAt, h]

theorem State.loadTo_error (h : addr.toNat % k = 0) {e : Exc}
    (hp : s.blk.placeOf n (s.priv n) .load addr.toNat k = .error e) :
    s.loadTo n rd addr k ext = (s.errorAt e addr.toNat).raise n e addr := by
  have hw : Machine.inWindow addr.toNat = false := by
    by_contra hw
    rw [Block.placeOf_of_inWindow _ _ _ _ (by simpa using hw)] at hp
    cases hp
  simp [State.loadTo, s.loadStands_of_not_inWindow n hw, State.loadAt, h, hp]

/-- Outside the window a load that raises nothing takes the number of what its place reads as. -/
theorem State.loadTo_place (h : addr.toNat % k = 0) (hw : Machine.inWindow addr.toNat = false) {p : Place}
    (hp : s.blk.placeOf n (s.priv n) .load addr.toNat k = .ok p) :
    s.loadTo n rd addr k ext =
      (((s.touch addr.toNat).readPlace p addr.toNat k).2.setReg n rd
        (ext (ofOctetsLE ((s.touch addr.toNat).readPlace p addr.toNat k).1))).retire n := by
  have hne : p ≠ .window := fun e => Block.placeOf_ne_window _ _ _ _ _ _ hw (hp.trans (by rw [e]))
  simp [State.loadTo, s.loadStands_of_not_inWindow n hw, State.loadAt, h, hp, hw]

end

/-! ### What an instruction leaves that raises or completes from a machine of its own -/

@[simp] theorem State.touch_mem (s : State) (a : Nat) : (s.touch a).mem = s.mem := by
  unfold State.touch; split <;> rfl

@[simp] theorem State.errorAt_cpu (s : State) (e : Exc) (a n : Nat) : (s.errorAt e a).blk.cpu n = s.blk.cpu n := by
  unfold State.errorAt; split <;> simp

@[simp] theorem Block.countEntry_cpus (b : Block) (n : Nat) (e : Exc) : (b.countEntry n e).cpus = b.cpus := by
  unfold Block.countEntry; dsimp only; split <;> simp

theorem enter_eq_entered (e : Exc) (addr : Word) : (fun c : Cpu => c.enter e addr) = entered e addr := by
  funext c; rfl

/-- An instruction that raises an exception outside a handler takes it. -/
theorem ExceptsFrom.of_raise {i : Instr} {s u : State} {n : Eng} {e : Exc} {addr : Word}
    (he : exec i s = .next (u.raise n e addr)) (hpend : u.pending = s.pending) (hexl : (u.blk.cpu n).exl = false) :
    ExceptsFrom i s u n e addr := by
  have hraise : u.raise n e addr = { u with
      blk := { u.blk.countEntry n e with cpus := u.blk.cpus.modify n (entered e addr) } } := by
    simp only [State.raise, Block.takeException, hexl, Bool.false_eq_true, if_false, Block.modCpu, modAt,
      Block.countEntry_cpus, enter_eq_entered]
  exact ⟨_, he.trans (congrArg _ hraise), hpend, rfl, rfl, rfl⟩

/-- An instruction that writes one register and retires completes. -/
theorem CompletesFrom.of_retire {i : Instr} {s u : State} {n : Eng} {rd : GReg} {v : Word}
    (he : exec i s = .next ((u.setReg n rd v).retire n)) (hpend : u.pending = s.pending) :
    CompletesFrom i s u n rd v fun c => { c with pc := c.pc + 4 } := by
  refine ⟨_, he, by simpa using hpend, by simp, fun m r _ hr => ?_, ?_⟩
  · rw [State.reg_retire, State.reg_setReg u n rd v hr]
  · simp [State.retire, Block.modCpu, modAt]

/-! ### The load instructions -/

/-- How a load of `k` octets extends their number (R441). -/
def loadExt (k : Nat) (signed : Bool) (v : Nat) : Word := if signed then signExt (8 * k) v else zeroExt v

theorem getLsbD_loadExt_low (m : List Host.Cell) (a : Nat) {k j : Nat} (signed : Bool) (hk : 8 * k ≤ 64)
    (hj : j < 8 * k) :
    (loadExt k signed (ofOctetsLE (memLoad m a k))).getLsbD j = (memGet m (a + j / 8)).getLsbD (j % 8) := by
  cases signed with
  | false => simpa [loadExt, hj] using getLsbD_zeroExt_memLoad m a (k := k) (j := j) (by omega)
  | true => simpa [loadExt, hj] using getLsbD_signExt_memLoad m a (k := k) (j := j) (by omega) (by omega)

theorem getLsbD_loadExt_high (m : List Host.Cell) (a : Nat) {k j : Nat} (signed : Bool) (hk : 0 < k) (hlo : 8 * k ≤ j)
    (hj : j < 64) :
    (loadExt k signed (ofOctetsLE (memLoad m a k))).getLsbD j = (signed && (memGet m (a + k - 1)).getLsbD 7) := by
  cases signed with
  | false => simpa [loadExt, Nat.not_lt.mpr hlo] using getLsbD_zeroExt_memLoad m a (k := k) hj
  | true => simpa [loadExt, Nat.not_lt.mpr hlo] using getLsbD_signExt_memLoad m a hk hj

section
variable {i : Instr} {s : State} {n : Eng} {rd : GReg} {addr : Word} {k : Nat} {signed : Bool}
  (he : exec i s = .next ((s.fetched n).loadTo n rd addr k (loadExt k signed)))
include he

theorem load_misaligned (h : addr.toNat % k ≠ 0) (hexl : ((s.fetched n).blk.cpu n).exl = false) :
    Excepts i s n .misalign addr :=
  .of_raise (he.trans (by rw [State.loadTo_misaligned _ _ _ _ _ h])) (s.fetched_pending n) hexl

theorem load_error (h : addr.toNat % k = 0) {e : Exc}
    (hp : (s.fetched n).blk.placeOf n ((s.fetched n).blk.cpu n).priv .load addr.toNat k = .error e)
    (hexl : ((s.fetched n).blk.cpu n).exl = false) :
    ExceptsFrom i s ((s.fetched n).errorAt e addr.toNat) n e addr :=
  .of_raise (he.trans (by rw [State.loadTo_error _ _ _ _ _ h hp]))
    ((Keeps.errorAt _ _ _).pending.trans (s.fetched_pending n)) (by simpa using hexl)

section
variable (h : addr.toNat % k = 0) (hw : inWindow addr.toNat = false)
include h hw

theorem load_place {p : Place}
    (hp : (s.fetched n).blk.placeOf n ((s.fetched n).blk.cpu n).priv .load addr.toNat k = .ok p) :
    CompletesFrom i s (((s.fetched n).touch addr.toNat).readPlace p addr.toNat k).2 n rd
      (loadExt k signed (ofOctetsLE (((s.fetched n).touch addr.toNat).readPlace p addr.toNat k).1))
      fun x => { x with pc := x.pc + 4 } :=
  .of_retire (he.trans (by rw [State.loadTo_place _ _ _ _ _ h hw hp]))
    (((Keeps.touch _ _).trans (Keeps.readPlace _ _ _ _)).pending.trans (s.fetched_pending n))

/-- A load from plain memory completes with the octets there, least significant first, extended. -/
theorem load_plain (hk : 0 < k) (h64 : 8 * k ≤ 64)
    (hp : (s.fetched n).blk.placeOf n ((s.fetched n).blk.cpu n).priv .load addr.toNat k = .ok .plain) :
    ∃ v : Word,
      (∀ j, j < 8 * k → v.getLsbD j = (memGet (s.fetched n).mem (addr.toNat + j / 8)).getLsbD (j % 8)) ∧
      (∀ j, 8 * k ≤ j → j < 64 →
        v.getLsbD j = (signed && (memGet (s.fetched n).mem (addr.toNat + k - 1)).getLsbD 7)) ∧
      CompletesFrom i s ((s.fetched n).touch addr.toNat) n rd v fun x => { x with pc := x.pc + 4 } := by
  have hread : ((s.fetched n).touch addr.toNat).readPlace .plain addr.toNat k =
      (memLoad (s.fetched n).mem addr.toNat k, (s.fetched n).touch addr.toNat) := by
    simp [State.readPlace]
  have hdone := load_place he h hw hp
  rw [hread] at hdone
  exact ⟨_, fun j hj => getLsbD_loadExt_low _ _ _ h64 hj, fun j hlo hj => getLsbD_loadExt_high _ _ _ hk hlo hj,
    hdone⟩

end
end

/-- Settles O11: every load instruction is one load of its width, which is misaligned, raises the bus error of its
place, or completes with what its place reads as. -/
theorem loadsReadMemoryOrRaise : Obligations.LoadsReadMemoryOrRaise := by
  intro s n rd ra imm hr s0 addr a c load
  have haddr : s0.memAddr n ra imm = addr := State.memAddr_eq _ _ _ _
  have run {i : Instr} {ext : Nat → Word} {k : Nat}
      (hi : exec i s = s.instr n fun u => u.loadTo n rd (u.memAddr n ra imm) k ext) :
      exec i s = .next (s0.loadTo n rd addr k ext) := by
    rw [hi, State.instr_ready hr, ← haddr]
  have loads {i : Instr} {k : Nat} {signed : Bool} (hk : 0 < k) (h64 : 8 * k ≤ 64)
      (hi : exec i s = .next (s0.loadTo n rd addr k (loadExt k signed))) : load i k signed :=
    ⟨fun h => load_misaligned hi h, fun h e hp => load_error hi h hp, fun h p hp hw => load_place hi h hw hp,
      fun h hp hw => load_plain hi h hw hk h64 hp⟩
  exact ⟨loads (by decide) (by decide) (run rfl), loads (by decide) (by decide) (run rfl),
    loads (by decide) (by decide) (run rfl), loads (by decide) (by decide) (run rfl),
    loads (by decide) (by decide) (run rfl), loads (by decide) (by decide) (run rfl),
    loads (by decide) (by decide) (run rfl), loads (by decide) (by decide) (run rfl)⟩

end Sys2Proof.Machine
end

section
/-!
SUPPORT. Fencing (R21, R24, R128, R131): the bits of a unit, what the record of a fence leaves, and the cold reset that
a second fence or GD's fault makes.
-/

namespace Sys2Proof.Machine

/-! ### Commands of the block -/

/-- A command of the block takes its effect on the block as it is when the command comes. -/
theorem Takes.of_at {c : Instr} {s : State} {t : Nat} {f : Block → Block} {P : Block → Prop}
    (he : exec c s = s.at t f) (hf : s.blk.frozen = false) (hP : P (f (s.blk.tick t))) : Takes c s P :=
  ⟨{ s with blk := f (s.blk.tick t) }, by rw [he]; simp [State.at, hf, State.timed], rfl, rfl, rfl, hP⟩

/-! ### Domains -/

theorem Block.coreF_of_mains {b : Block} (h : b.baseMode.mains = true) : b.coreF = true := by
  unfold Block.baseMode at h
  cases hm : b.mode.mode <;> simp_all [Block.coreF, Mode.mains]

theorem Block.coreF_of_coreA {b : Block} (h : b.coreA = true) : b.coreF = true := by
  cases hm : b.mode.mode <;> simp_all [Block.coreF, Block.coreA]

/-- Core-F is on wherever a radio's domain is. -/
theorem Block.coreF_of_radioOn {b : Block} {r : Radio} (h : b.domainOn (3 + radioNum r) = true) : b.coreF = true := by
  cases r with
  | l =>
    have hbase : b.baseMode.mains = true ∨ b.baseMode = .dayWatch := by
      simp [Block.domainOn, radioNum] at h
      exact h.1.1
    rcases hbase with hm | hm
    · exact Block.coreF_of_mains hm
    · unfold Block.baseMode at hm
      cases hmode : b.mode.mode <;> simp_all [Block.coreF]
  | _ =>
    simp [Block.domainOn, radioNum] at h
    exact Block.coreF_of_mains h.1.1

theorem Block.coreF_of_ethOn {b : Block} (h : b.domainOn 7 = true) : b.coreF = true := by
  simp [Block.domainOn] at h
  exact Block.coreF_of_mains h.1

/-! ### The bits of a unit (R24) -/

theorem testBit_foldl_setBit (l : List Nat) : ∀ f i : Nat,
    (l.foldl (fun m j => setBit m j) f).testBit i = (f.testBit i || l.contains i) := by
  induction l with
  | nil => simp
  | cons j rest ih =>
    intro f i
    rw [List.foldl_cons, ih]
    simp [setBit, Nat.testBit_or, Nat.testBit_two_pow, Bool.or_assoc, eq_comm]

/-! ### What a fence records (R24, R128) -/

/-- The keys that a move to Degraded Service may write. -/
def degradeKeys : List Nat := [Obj.transitions.key 0, Obj.maintBase.key 0] ++ Tells.noticeKeys

theorem Block.modeShift_get (b : Block) (m : Mode) (cause : Nat) {q : Reg} {k : Nat} (h : q.key k ∉ degradeKeys) :
    (b.modeShift m cause).get q k = b.get q k := by
  obtain ⟨htrans, -, hnotice⟩ : q.key k ≠ Obj.transitions.key 0 ∧ q.key k ≠ Obj.maintBase.key 0 ∧
      q.key k ∉ Tells.noticeKeys := by simpa [degradeKeys] using h
  unfold Block.modeShift; dsimp only; split
  · rfl
  · rw [Block.abandonSummary, Block.get_post, Block.get_notice _ _ _ _ _ hnotice, Block.get_add_ne _ _ htrans]
    rfl

theorem Block.degrade_get (b : Block) {q : Reg} {k : Nat} (h : q.key k ∉ degradeKeys) :
    b.degrade.get q k = b.get q k := by
  have hbase : q.key k ≠ Obj.maintBase.key 0 := fun e => h (by simp [degradeKeys, e])
  unfold Block.degrade; split
  · exact b.modeShift_get _ _ h
  · split
    · exact Block.get_put_ne _ _ hbase
    · rfl
  · rfl

theorem Block.degrade_fwd (b : Block) : b.degrade.fwd = b.fwd := by
  unfold Block.degrade Block.modeShift Block.abandonSummary; dsimp only; repeat' split
  all_goals simp

/-- Degraded Service powers what Full Service powers. -/
theorem Block.degrade_coreF (b : Block) : b.degrade.coreF = b.coreF := by
  have hbase : (if b.get Obj.maintBase = 5 then b.put Obj.maintBase 6 else b).mode = b.mode := by split <;> rfl
  unfold Block.degrade Block.modeShift Block.abandonSummary Block.coreF; dsimp only
  cases hm : b.mode.mode <;> simp [hm, hbase]

/-- The record of a fence: the unit's bits `mask`, what LAST_FENCED and LAST_FENCE_CAUSE name, the counts, Degraded
Service, the log and the notice. -/
def Block.fenceTold (b : Block) (bit cause mask n : Nat) : Block :=
  let b4 := (((b.put Obj.fabricFenced mask).put Obj.lastFenced bit).put Obj.lastFenceCause cause).add Obj.unitFences
  let b5 := if cause = 1 then b4.add Obj.fabricStallCount else b4
  (b5.degrade.post 0x0010 ([bit, cause] ++ bytesLE 4 n) (first := true)).notice 0x0180 Obj.fabricFenced noRow
    ([bit, cause] ++ bytesBE 4 n)

section
variable (b : Block) (bit cause mask n : Nat)

theorem Block.fenceTold_get {q : Reg} {k : Nat} (h : q.key k ∉ degradeKeys) : (b.fenceTold bit cause mask n).get q k =
    (let b4 := (((b.put Obj.fabricFenced mask).put Obj.lastFenced bit).put Obj.lastFenceCause cause).add Obj.unitFences
     if cause = 1 then b4.add Obj.fabricStallCount else b4).get q k := by
  have hnotice : q.key k ∉ Tells.noticeKeys := fun e => h (List.mem_append_right _ e)
  unfold Block.fenceTold
  rw [Block.get_notice _ _ _ _ _ hnotice, Block.get_post, Block.degrade_get _ h]

theorem Block.fenceTold_fabricFenced : (b.fenceTold bit cause mask n).get Obj.fabricFenced = mask := by
  rw [Block.fenceTold_get _ _ _ _ _ (by decide)]
  dsimp only; split <;> simp (disch := decide) [Block.get_add_ne, Block.get_put_ne]

theorem Block.fenceTold_lastFenced : (b.fenceTold bit cause mask n).get Obj.lastFenced = bit := by
  rw [Block.fenceTold_get _ _ _ _ _ (by decide)]
  dsimp only; split <;> simp (disch := decide) [Block.get_add_ne, Block.get_put_ne]

theorem Block.fenceTold_lastFenceCause : (b.fenceTold bit cause mask n).get Obj.lastFenceCause = cause := by
  rw [Block.fenceTold_get _ _ _ _ _ (by decide)]
  dsimp only; split <;> simp (disch := decide) [Block.get_add_ne]

theorem Block.fenceTold_fwd : (b.fenceTold bit cause mask n).fwd = b.fwd := by
  unfold Block.fenceTold; dsimp only; split <;> simp [Block.degrade_fwd]

theorem Block.fenceTold_coreF : (b.fenceTold bit cause mask n).coreF = b.coreF := by
  have hmode {c d : Block} (e : c.mode = d.mode) : c.coreF = d.coreF := by unfold Block.coreF; rw [e]
  unfold Block.fenceTold; dsimp only
  rw [hmode (Block.notice_mode _ _ _ _ _), hmode (Block.post_mode _ _ _ _ _), Block.degrade_coreF]
  split <;> rfl

end

/-- The block in which a unit has been fenced, before that is recorded: a swap is abandoned, what a second fence takes
is lost, what the unit held goes its way, and the fence joins the history. -/
def Block.fenceHeld (b : Block) (bit : Nat) : Block :=
  let c := ((b.swapAbort 5).loseFrames (b.fenceLost bit)).fenceEffect bit
  { c with fences := (c.fences.filter fun x => decide (b.now < x.2 + secs 86400)) ++ [(bit, b.now)] }

/-- A unit that is not fenced is fenced and that is recorded; a second fence of a pair makes a cold reset (R131). -/
theorem Block.fence_of_open {b : Block} {bit : Nat} (hbit : bit < 20) (hgd : bit ≠ 11) (hcore : b.coreF = true)
    (hopen : (b.get Obj.fabricFenced).testBit bit = false) (cause : Nat) :
    ∃ n, b.fence bit cause =
      let d := (b.fenceHeld bit).fenceTold bit cause
        ((unitBits bit).foldl (fun m i => setBit m i) (b.get Obj.fabricFenced)) n
      if pairFenced (b.get Obj.fabricFenced) bit then d.coldReset 7 else d := by
  let c := (b.swapAbort 5).loseFrames (b.fenceLost bit)
  refine ⟨c.frames.length - (c.fenceEffect bit).frames.length, ?_⟩
  unfold Block.fence
  simp only [hgd, Nat.not_le.mpr hbit, hcore, bitSet, hopen]
  rfl

/-- What the record of a fence shows of a unit that is not fenced. -/
theorem Block.fence_shows {b : Block} {bit : Nat} (hbit : bit < 20) (hgd : bit ≠ 11) (hcore : b.coreF = true)
    (hopen : (b.get Obj.fabricFenced).testBit bit = false) (hpair : pairFenced (b.get Obj.fabricFenced) bit = false)
    (cause : Nat) :
    (∀ i, ((b.fence bit cause).get Obj.fabricFenced).testBit i =
      ((b.get Obj.fabricFenced).testBit i || (unitBits bit).contains i)) ∧
    (b.fence bit cause).get Obj.lastFenced = bit ∧ (b.fence bit cause).get Obj.lastFenceCause = cause ∧
    (b.fence bit cause).fwd = (b.fenceHeld bit).fwd := by
  obtain ⟨n, hn⟩ := Block.fence_of_open hbit hgd hcore hopen cause
  simp only [hpair, Bool.false_eq_true, if_false] at hn
  rw [hn]
  refine ⟨fun i => ?_, Block.fenceTold_lastFenced _ _ _ _ _, Block.fenceTold_lastFenceCause _ _ _ _ _,
    Block.fenceTold_fwd _ _ _ _ _⟩
  rw [Block.fenceTold_fabricFenced, testBit_foldl_setBit]

/-! ### The cold reset (R501) -/

theorem Block.regionStart_mode (b : Block) : b.regionStart.mode = b.mode := by
  unfold Block.regionStart; split
  · rfl
  · extract_lets
    split
    · rfl
    · exact Block.post_mode _ _ _ _ _

theorem Block.regionStart_get (b : Block) (q : Reg) (k : Nat) : b.regionStart.get q k = b.get q k := by
  unfold Block.regionStart; split
  · rfl
  · extract_lets
    split
    · rfl
    · rw [Block.get_post]; rfl

theorem Block.resetRecord_mode (b : Block) (source kind : Nat) (m : Mode) :
    (b.resetRecord source kind m).mode = b.mode := by
  simp [Block.resetRecord]

theorem Block.resetRecord_source (b : Block) (source kind : Nat) (m : Mode) :
    (b.resetRecord source kind m).get Obj.resetSource = source := by
  unfold Block.resetRecord; dsimp only; split <;> simp (disch := decide) [Block.get_add_ne, Block.get_put_ne]

theorem Block.swapKept_get (b : Block) (w : Option Swap) (c : Block) {q : Reg} {k : Nat}
    (hs : q.key k ≠ Obj.swapStatus.key 0) (hd : q.key k ≠ Obj.swapDone.key 0) :
    (b.swapKept w c).get q k = b.get q k := by
  unfold Block.swapKept; split
  · rw [Block.get_put_ne _ _ hd, Block.get_put_ne _ _ hs]
  · rfl

theorem Block.debugSet_get (b : Block) (v : Nat) {q : Reg} {k : Nat} (hd : q.key k ≠ Obj.debugState.key 0)
    (hn : q.key k ∉ Tells.noticeKeys) : (b.debugSet v).get q k = b.get q k := by
  unfold Block.debugSet; dsimp only; split
  · rfl
  · rw [Block.get_notice _ _ _ _ _ hn, Block.get_post, Block.get_put_ne _ _ hd]

/-- A cold reset of a running device closes acceptance and leaves it waking, with the reset's source. -/
theorem Block.coldReset_of_coreF {b : Block} (h : b.coreF = true) (source : Nat) :
    (b.coldReset source).mode.mode = .hibernate ∧ (b.coldReset source).mode.trans = .waking ∧
      (b.coldReset source).mode.acc = {} ∧ (b.coldReset source).get Obj.resetSource = source := by
  have hoff : b.mode.mode ≠ .off := fun e => by simp [Block.coreF, e] at h
  have hhib : b.mode.mode ≠ .hibernate := fun e => by simp [Block.coreF, e] at h
  unfold Block.coldReset
  extract_lets mode b0 held lossy b1 b2 before slot b3 b4 b5 b6 b7 target b8
  rw [if_neg hoff, if_neg hhib]
  refine ⟨rfl, rfl, rfl, ?_⟩
  have h6 : b6.get Obj.resetSource = source := by
    unfold b6
    rw [Block.regionStart_get, Block.swapKept_get _ _ _ (by decide) (by decide), Block.get_put_ne _ _ (by decide),
      Block.resetRecord_source]
  have h7 : b7.get Obj.resetSource = b6.get Obj.resetSource := by
    unfold b7; split
    · exact Block.debugSet_get _ _ (by decide) (by decide)
    · rfl
  have h8 : b8.get Obj.resetSource = b7.get Obj.resetSource := by
    unfold b8; split <;> rfl
  exact h8.trans (h7.trans h6)

/-- GD's fault makes a cold reset with source 5 wherever there is power (R22). -/
theorem Block.coldReset_gd {b : Block} (h : b.mode.mode ≠ .off) :
    (b.coldReset 5).mode.mode = .hibernate ∧ (b.coldReset 5).get Obj.resetSource = 5 := by
  by_cases hhib : b.mode.mode = .hibernate
  · unfold Block.coldReset
    rw [if_neg h, if_pos hhib, if_pos rfl, Block.regionStart_mode, Block.regionStart_get, Block.resetRecord_mode,
      Block.resetRecord_source]
    exact ⟨hhib, rfl⟩
  · have hcore : b.coreF = true := by cases hm : b.mode.mode <;> simp_all [Block.coreF]
    obtain ⟨hmode, -, -, hsource⟩ := Block.coldReset_of_coreF hcore 5
    exact ⟨hmode, hsource⟩

/-! ### The second fence of a pair (R131) -/

theorem Block.swapAbort_mode (b : Block) (status : Nat) : (b.swapAbort status).mode = b.mode := by
  unfold Block.swapAbort; split
  · rw [Block.swapEnd, Block.notice_mode]
    show (b.swapRelease _).mode = b.mode
    unfold Block.swapRelease; split <;> rfl
  · rfl

theorem Block.dropAll_mode (b : Block) (ids : List Nat) : (b.dropAll ids).mode = b.mode := by
  induction ids generalizing b with
  | nil => rfl
  | cons i rest ih => exact (ih (b.dropFrame i)).trans rfl

theorem Block.loseFrames_mode (b : Block) (ids : List Nat) : (b.loseFrames ids).mode = b.mode := by
  unfold Block.loseFrames; split
  · rfl
  · simp [Block.dropAll_mode]

theorem pairFenced_unit {f bit : Nat} (h : pairFenced f bit = true) : bit = 0 ∨ bit = 1 ∨ bit = 15 ∨ bit = 16 := by
  simp [pairFenced] at h
  omega

/-- What fencing an application core or a DRAM channel does to what it held leaves the mode. -/
theorem Block.fenceHeld_mode_of_pair (b : Block) {bit : Nat} (h : bit = 0 ∨ bit = 1 ∨ bit = 15 ∨ bit = 16) :
    (b.fenceHeld bit).mode = b.mode := by
  have heffect (c : Block) : (c.fenceEffect bit).mode = c.mode := by
    rcases h with rfl | rfl | rfl | rfl
    · rfl
    · rfl
    all_goals
      show (if c.dram.up then c.put Obj.dramState 4 else c).mode = c.mode
      split <;> rfl
  show (Block.fenceEffect _ bit).mode = b.mode
  rw [heffect, Block.loseFrames_mode, Block.swapAbort_mode]

/-- The second fence of a pair leaves a device that wakes after a cold reset with source 7. -/
theorem Block.fence_of_pair {b : Block} {bit : Nat} (hcore : b.coreF = true)
    (hopen : (b.get Obj.fabricFenced).testBit bit = false) (hpair : pairFenced (b.get Obj.fabricFenced) bit = true)
    (cause : Nat) :
    (b.fence bit cause).mode.mode = .hibernate ∧ (b.fence bit cause).mode.trans = .waking ∧
      (b.fence bit cause).mode.acc = {} ∧ (b.fence bit cause).get Obj.resetSource = 7 := by
  have hunit := pairFenced_unit hpair
  obtain ⟨n, hn⟩ := Block.fence_of_open (by omega) (by omega) hcore hopen cause
  simp only [hpair, if_true] at hn
  rw [hn]
  apply Block.coldReset_of_coreF
  rw [Block.fenceTold_coreF, Block.coreF, b.fenceHeld_mode_of_pair hunit]
  exact hcore

/-! ### The line of a fenced Ethernet port (R129) -/

theorem Block.fenceEth_line (b : Block) (port : Nat) : (b.fenceEth port).fwd.line.getD port none = none := by
  have hline (l : List (Option Nat)) : (l.set port none).getD port none = none := by
    by_cases h : port < l.length <;> simp [List.getD_eq_getElem?_getD, h]
  unfold Block.fenceEth; extract_lets onLine partner b1 b2
  clear_value onLine
  cases onLine <;> exact hline _

theorem Block.fenceHeld_line (b : Block) (port : Fin 2) :
    (b.fenceHeld (17 + port.val)).fwd.line.getD port.val none = none := by
  fin_cases port <;> exact Block.fenceEth_line _ _

/-! ### Units that fail (R21, R128) -/

theorem unitDomain_radio (r : Radio) : unitDomain (12 + radioNum r) = 3 + radioNum r := by cases r <;> rfl

theorem unitBits_radio (r : Radio) : unitBits (12 + radioNum r) = [2 + radioNum r, 12 + radioNum r] := by
  cases r <;> rfl

theorem unitDomain_eth (port : Fin 2) : unitDomain (17 + port.val) = 7 := by fin_cases port <;> rfl

theorem unitBits_eth (port : Fin 2) : unitBits (17 + port.val) = [17 + port.val] := by fin_cases port <;> rfl

theorem Block.unitFails_of_off {b : Block} {unit : Nat} (h : 20 ≤ unit ∨ b.domainOn (unitDomain unit) = false)
    (cause : Nat) : b.unitFails unit cause = b := by
  rcases h with h | h <;> simp [Block.unitFails, h, Nat.not_lt.mpr]

theorem Block.unitFails_of_on {b : Block} {unit : Nat} (hunit : unit < 20) (h : b.domainOn (unitDomain unit) = true)
    (cause : Nat) : b.unitFails unit cause = b.fence unit cause := by
  simp [Block.unitFails, hunit, h]

/-- A unit that is fenced already is left as it is, but for a radio's second part (R24). -/
theorem Block.unitFails_of_fenced {b : Block} {unit : Nat} (hgd : unit ≠ 11)
    (hfenced : (b.get Obj.fabricFenced).testBit unit = true) (hradio : unit < 12 ∨ 14 < unit) (cause : Nat) :
    b.unitFails unit cause = b := by
  have hagain : b.fenceAgain unit cause = b := by
    unfold Block.fenceAgain; rw [if_neg]; simp; omega
  unfold Block.unitFails; split
  · unfold Block.fence; simp [hgd, bitSet, hfenced, hagain]
  · rfl

/-- Settles O22: a fence by its record, the second of a pair and GD's by the cold reset they make. -/
theorem failedUnitsAreFenced : Obligations.FailedUnitsAreFenced := by
  intro s t unit r port hf b f
  have stalls {P : Block → Prop} {u : Nat} (h : P (b.unitFails u 1)) : Takes (.fabricStallExpiry t u) s P :=
    .of_at (f := fun b => b.unitFails u 1) rfl hf h
  have fails {P : Block → Prop} {c : SelfCheck} (h : P (b.selfCheckFail c)) : Takes (.unitSelfCheckFail t c) s P :=
    .of_at (f := fun b => b.selfCheckFail c) rfl hf h
  have hradio : radioNum r < 3 := by cases r <;> simp [radioNum]
  have hport : port.val < 2 := port.isLt
  refine ⟨fun hunit hgd hon hopen hcore hpair => stalls ?stall, fun hunit hgd hon hopen hcore hpair => stalls ?pair,
    fun hmode => stalls ?gd, fun hoff => stalls (b.unitFails_of_off hoff 1),
    fun hunit hgd hfenced hnot => stalls (b.unitFails_of_fenced hgd hfenced hnot 1),
    fun hon hopen => fails ?radio, fun hoff => fails ?radioOff, fun hon hopen => fails ?eth, fun hoff => fails ?ethOff,
    fun hon hopen => fails ?flash, fun hoff => fails ?flashOff⟩
  case stall =>
    rw [Block.unitFails_of_on hunit hon]
    obtain ⟨hbits, hlast, hcause, -⟩ := Block.fence_shows hunit hgd hcore hopen hpair 1
    exact ⟨hbits, hlast, hcause⟩
  case pair =>
    rw [Block.unitFails_of_on hunit hon]
    exact Block.fence_of_pair hcore hopen hpair 1
  case gd =>
    rw [Block.unitFails_of_on (by omega) (by simpa [unitDomain, engineDomain, Block.domainOn] using hmode)]
    exact Block.coldReset_gd hmode
  case radio =>
    have hunits := Block.fence_shows (b := b) (bit := 12 + radioNum r) (by omega) (by omega)
      (Block.coreF_of_radioOn hon) hopen (by simp [pairFenced]; omega) 4
    rw [Block.selfCheckFail, Block.unitFails_of_on (by omega) (by rw [unitDomain_radio]; exact hon)]
    obtain ⟨hbits, hlast, hcause, -⟩ := hunits
    exact ⟨by simp [hbits, unitBits_radio], by simp [hbits, unitBits_radio], hlast, hcause⟩
  case radioOff => exact b.unitFails_of_off (.inr ((congrArg _ (unitDomain_radio r)).trans hoff)) 4
  case eth =>
    have hunits := Block.fence_shows (b := b) (bit := 17 + port.val) (by omega) (by omega)
      (Block.coreF_of_ethOn hon) hopen (by simp [pairFenced]; omega) 4
    rw [Block.selfCheckFail, Block.unitFails_of_on (by omega) (by rw [unitDomain_eth]; exact hon)]
    obtain ⟨hbits, hlast, hcause, hfwd⟩ := hunits
    exact ⟨by simp [hbits, unitBits_eth], hlast, hcause, by rw [hfwd]; exact b.fenceHeld_line port⟩
  case ethOff => exact b.unitFails_of_off (.inr ((congrArg _ (unitDomain_eth port)).trans hoff)) 4
  case flash =>
    rw [Block.selfCheckFail, Block.unitFails_of_on (unit := 19) (by omega) hon]
    obtain ⟨hbits, hlast, hcause, -⟩ := Block.fence_shows (bit := 19) (by omega) (by omega)
      (Block.coreF_of_coreA hon) hopen (by simp [pairFenced]) 6
    exact ⟨by simp [hbits, unitBits], hlast, hcause⟩
  case flashOff =>
    rcases hoff with hoff | hfenced
    · exact b.unitFails_of_off (unit := 19) (.inr hoff) 6
    · exact b.unitFails_of_fenced (by omega) hfenced (by omega) 6

end Sys2Proof.Machine
end

section
/-!
SUPPORT. What the shared operations of transmission leave: the frames held, one frame to the other, and the exchange
that a radio is in.
-/

namespace Sys2Proof.Machine

/-! ### A radio changed -/

theorem radioNum_lt (r : Radio) : radioNum r < 3 := by cases r <;> simp [radioNum]

theorem radioNum_ne {q r : Radio} (h : q ≠ r) : radioNum q ≠ radioNum r := by
  cases q <;> cases r <;> simp_all [radioNum]

theorem Block.radio_modRadio_same {b : Block} (h : b.radios.length = 3) (r : Radio) (f : RadioUnit → RadioUnit) :
    (b.modRadio r f).radio r = f (b.radio r) := by
  have hr : radioNum r < b.radios.length := h ▸ radioNum_lt r
  simp [Block.radio, Block.modRadio, modAt, List.getD_eq_getElem?_getD, hr]

theorem Block.radio_modRadio_ne (b : Block) {q r : Radio} (h : q ≠ r) (f : RadioUnit → RadioUnit) :
    (b.modRadio r f).radio q = b.radio q := by
  simp [Block.radio, Block.modRadio, modAt, List.getD_eq_getElem?_getD, (radioNum_ne h).symm]

@[simp] theorem Block.modRadio_radios_length (b : Block) (r : Radio) (f : RadioUnit → RadioUnit) :
    (b.modRadio r f).radios.length = b.radios.length := by
  simp [Block.modRadio, modAt]

/-! ### Frames, one to the other -/

/-- What the transmission of others leaves of a frame: what it is, and that it is on air. -/
structure Frame.Kept (f g : Frame) : Prop where
  id : g.id = f.id
  pkt : g.pkt = f.pkt
  queue : g.queue = f.queue
  air : g.air = f.air
  state : f.air = true → f.state = .sent → g.state = .sent

theorem Frame.Kept.refl (f : Frame) : Frame.Kept f f := ⟨rfl, rfl, rfl, rfl, fun _ h => h⟩

theorem Frame.Kept.trans {f g h : Frame} (a : Frame.Kept f g) (b : Frame.Kept g h) : Frame.Kept f h :=
  ⟨b.id.trans a.id, b.pkt.trans a.pkt, b.queue.trans a.queue, b.air.trans a.air,
    fun ha hs => b.state (a.air.trans ha) (a.state ha hs)⟩

theorem Frame.kept_trans {l m n : List Frame} (h : List.Forall₂ Frame.Kept l m) (k : List.Forall₂ Frame.Kept m n) :
    List.Forall₂ Frame.Kept l n := by
  induction h generalizing n with
  | nil => exact k
  | cons hab _ ih =>
    cases k with
    | cons hbc hrest => exact .cons (hab.trans hbc) (ih hrest)

/-- The frames of one block are those of the other, in order, each kept. -/
def FramesKept (b c : Block) : Prop := List.Forall₂ Frame.Kept b.frames c.frames

namespace FramesKept

theorem of_eq {b c : Block} (h : c.frames = b.frames) : FramesKept b c := by
  unfold FramesKept
  rw [h]
  exact List.forall₂_same.mpr fun f _ => .refl f

theorem refl (b : Block) : FramesKept b b := of_eq rfl

theorem trans {a b c : Block} (h : FramesKept a b) (k : FramesKept b c) : FramesKept a c :=
  Frame.kept_trans h k

theorem map {b c : Block} {f : Frame → Frame} (hc : c.frames = b.frames.map f) (hf : ∀ x, Frame.Kept x (f x)) :
    FramesKept b c := by
  unfold FramesKept
  rw [hc, List.forall₂_map_right_iff]
  exact List.forall₂_same.mpr fun x _ => hf x

theorem modFrame (b : Block) (fid : Nat) {f : Frame → Frame} (hf : ∀ x, Frame.Kept x (f x)) :
    FramesKept b (b.modFrame fid f) := by
  refine map rfl fun x => ?_
  split
  · exact hf x
  · exact .refl x

theorem foldl {α : Type} {f : Block → α → Block} (h : ∀ b x, FramesKept b (f b x)) (l : List α) :
    ∀ b, FramesKept b (l.foldl f b) := by
  induction l with
  | nil => exact refl
  | cons x rest ih => exact fun b => (h b x).trans (ih _)

theorem stays {b c : Block} (h : FramesKept b c) : ∀ f ∈ b.frames, ∃ g ∈ c.frames, Frame.Kept f g := by
  obtain ⟨hlen, hget⟩ := List.forall₂_iff_get.mp h
  intro f hf
  obtain ⟨i, hi, rfl⟩ := List.getElem_of_mem hf
  exact ⟨c.frames[i]'(hlen ▸ hi), List.getElem_mem _, hget i hi _⟩

theorem old {b c : Block} (h : FramesKept b c) : ∀ g ∈ c.frames, ∃ f ∈ b.frames, Frame.Kept f g := by
  obtain ⟨hlen, hget⟩ := List.forall₂_iff_get.mp h
  intro g hg
  obtain ⟨i, hi, rfl⟩ := List.getElem_of_mem hg
  exact ⟨b.frames[i]'(hlen ▸ hi), List.getElem_mem _, hget i _ hi⟩

end FramesKept

/-! ### What a remelt leaves (R255 to R257) -/

/-- The objects that a remelt under a code counts in. -/
def remeltKeys (code : Nat) : List Nat :=
  [(remeltReg code).key 0, Obj.cascadeRemelts.key 0, Obj.pnBurnt.key 0, Obj.mpdusRemelted.key 0]

/-- From one block to another gathers may have gone, and with them the state of their frames and the counts under the
keys `ks`; nothing else differs. -/
structure Remelts (ks : List Nat) (b c : Block) : Prop where
  rest : { c with regs := b.regs, frames := b.frames, gth := b.gth } = b
  get : ∀ (r : Reg) (k : Nat), r.key k ∉ ks → c.get r k = b.get r k
  frames : FramesKept b c
  gathers : ∀ h ∈ c.gth.gathers, ∃ g ∈ b.gth.gathers, g.id = h.id ∧ g.state = h.state

namespace Remelts

theorem refl (ks : List Nat) (b : Block) : Remelts ks b b :=
  ⟨rfl, fun _ _ _ => rfl, .refl b, fun h hh => ⟨h, hh, rfl, rfl⟩⟩

theorem trans {ks : List Nat} {a b c : Block} (h : Remelts ks a b) (k : Remelts ks b c) : Remelts ks a c := by
  refine ⟨?_, fun r q n => (k.get r q n).trans (h.get r q n), h.frames.trans k.frames, fun x hx => ?_⟩
  · have e := h.rest
    rw [← k.rest] at e
    exact e
  · obtain ⟨y, hy, hid, hstate⟩ := k.gathers x hx
    obtain ⟨z, hz, hid', hstate'⟩ := h.gathers y hy
    exact ⟨z, hz, hid'.trans hid, hstate'.trans hstate⟩

theorem foldl {ks : List Nat} {α : Type} {f : Block → α → Block} (h : ∀ b x, Remelts ks b (f b x)) (l : List α) :
    ∀ b, Remelts ks b (l.foldl f b) := by
  induction l with
  | nil => exact refl ks
  | cons x rest ih => exact fun b => (h b x).trans (ih _)

theorem add {ks : List Nat} (b : Block) {r : Reg} {row : Nat} (n : Nat) (h : r.key row ∈ ks) :
    Remelts ks b (b.add r n row) :=
  ⟨rfl, fun _ _ m => Block.get_add_ne b n fun e => m (by rw [e]; exact h), .of_eq rfl, fun g hg => ⟨g, hg, rfl, rfl⟩⟩

theorem modFrame (ks : List Nat) (b : Block) (fid : Nat) {f : Frame → Frame} (hf : ∀ x, Frame.Kept x (f x)) :
    Remelts ks b (b.modFrame fid f) :=
  ⟨rfl, fun _ _ _ => rfl, .modFrame b fid hf, fun g hg => ⟨g, hg, rfl, rfl⟩⟩

theorem settleState (ks : List Nat) (b : Block) (fid : Nat) : Remelts ks b (b.settleState fid) :=
  modFrame ks b _ fun f => ⟨rfl, rfl, rfl, rfl, fun ha _ => by simp [ha]⟩

theorem unplaceAll (ks : List Nat) (b : Block) (g : Gather) : Remelts ks b (b.unplaceAll g) := by
  refine foldl (fun c m => ?_) _ b
  split
  · split
    · exact refl ks c
    · refine modFrame ks c _ fun f => ?_
      unfold Frame.unplace; repeat' split
      all_goals exact ⟨rfl, rfl, rfl, rfl, fun _ h => h⟩
  · exact refl ks c

/-- Gathers mapped, each to one of its identity and state. -/
theorem mapGathers (ks : List Nat) (b : Block) {f : Gather → Gather}
    (hf : ∀ g, (f g).id = g.id ∧ (f g).state = g.state) :
    Remelts ks b { b with gth := { b.gth with gathers := b.gth.gathers.map f } } := by
  refine ⟨rfl, fun _ _ _ => rfl, .of_eq rfl, fun h hh => ?_⟩
  obtain ⟨g, hg, rfl⟩ := List.mem_map.mp hh
  exact ⟨g, hg, (hf g).1.symm, (hf g).2.symm⟩

section
variable {ks : List Nat} (hpn : Obj.pnBurnt.key 0 ∈ ks) (hmpdus : Obj.mpdusRemelted.key 0 ∈ ks)
include hpn hmpdus

theorem undoMpdu (b : Block) (r : Radio) (m : Mpdu) : Remelts ks b (b.undoMpdu r m) := by
  have counted {c : Block} {p : Bool} {q : Reg} (h : q.key 0 ∈ ks) : Remelts ks c (if p then c.add q else c) := by
    split
    · exact add c 1 h
    · exact refl ks c
  unfold Block.undoMpdu; split
  · split
    · exact mapGathers ks b fun g => by split <;> exact ⟨rfl, rfl⟩
    · exact refl ks b
  · have hsn : Remelts ks b (b.setSn r m.recv m.tid m.sn) :=
      ⟨rfl, fun _ _ _ => rfl, .of_eq rfl, fun g hg => ⟨g, hg, rfl, rfl⟩⟩
    exact hsn.trans ((counted hpn).trans (counted hmpdus))

theorem undoGather (b : Block) (g : Gather) : Remelts ks b (b.undoGather g) := by
  unfold Block.undoGather
  extract_lets u b1 b2
  have hout : Remelts ks b b1 :=
    ⟨rfl, fun _ _ _ => rfl, .of_eq rfl, fun h hh => ⟨h, List.mem_of_mem_filter hh, rfl, rfl⟩⟩
  have hundone : Remelts ks b1 b2 := foldl (fun c m => undoMpdu hpn hmpdus c g.radio m) _ b1
  refine (hout.trans hundone).trans (Remelts.trans (foldl (fun c m => ?_) g.mpdus b2) (unplaceAll ks _ g))
  split
  · exact settleState ks c _
  · exact refl ks c

end

theorem remelt (b : Block) (code : Nat) (sel : Gather → Bool) : Remelts (remeltKeys code) b (b.remelt code sel) := by
  unfold Block.remelt
  extract_lets all chosen set u b1
  have hall : Remelts (remeltKeys code) b { b with gth := { b.gth with gathers := all } } :=
    mapGathers _ b fun g => by split <;> exact ⟨rfl, rfl⟩
  have hcounts : Remelts (remeltKeys code) { b with gth := { b.gth with gathers := all } } b1 :=
    (add _ _ (by simp [remeltKeys])).trans (add _ _ (by simp [remeltKeys]))
  exact (hall.trans hcounts).trans
    (foldl (fun c g => undoGather (by simp [remeltKeys]) (by simp [remeltKeys]) c g) _ b1)

end Remelts

end Sys2Proof.Machine
end

section
/-!
SUPPORT. What one radio's work leaves of another radio's exchange: the command, its phase, what waits behind it and the
PPDU on air.
-/

namespace Sys2Proof.Machine

/-- The exchange that a radio is in. -/
def RadioUnit.exchange (u : RadioUnit) : Option TxCmd × Phase × List TxCmd × Option OnAir :=
  (u.cmd, u.phase, u.own, u.air)

theorem Block.radio_modRadio_cases (b : Block) (q r : Radio) (f : RadioUnit → RadioUnit) :
    (b.modRadio q f).radio r = f (b.radio r) ∨ (b.modRadio q f).radio r = b.radio r := by
  by_cases h : r = q
  · subst h
    by_cases hr : radioNum r < b.radios.length
    · exact .inl (by simp [Block.radio, Block.modRadio, modAt, List.getD_eq_getElem?_getD, hr])
    · exact .inr (by simp [Block.radio, Block.modRadio, modAt, List.getD_eq_getElem?_getD, Nat.not_lt.mp hr])
  · exact .inr (b.radio_modRadio_ne h f)

/-- From one block to another nothing of the frames, the gathers, the blanks and the exchange of a radio differs. -/
structure Steady (r : Radio) (b c : Block) : Prop where
  frames : c.frames = b.frames
  gth : c.gth = b.gth
  now : c.now = b.now
  blanks : c.coex.blanks = b.coex.blanks
  radios : c.radios.length = b.radios.length
  exchange : (c.radio r).exchange = (b.radio r).exchange
  delivered : c.get Obj.deliveredTotal = b.get Obj.deliveredTotal

namespace Steady

variable {r : Radio}

theorem of_eq {b c : Block} (hf : c.frames = b.frames) (hg : c.gth = b.gth) (hn : c.now = b.now)
    (hb : c.coex.blanks = b.coex.blanks) (hr : c.radios = b.radios) (hregs : c.regs = b.regs) : Steady r b c :=
  ⟨hf, hg, hn, hb, by rw [hr], by unfold Block.radio; rw [hr], by unfold Block.get; rw [hregs]⟩

theorem refl (b : Block) : Steady r b b := of_eq rfl rfl rfl rfl rfl rfl

theorem trans {a b c : Block} (h : Steady r a b) (k : Steady r b c) : Steady r a c :=
  ⟨k.frames.trans h.frames, k.gth.trans h.gth, k.now.trans h.now, k.blanks.trans h.blanks, k.radios.trans h.radios,
    k.exchange.trans h.exchange, k.delivered.trans h.delivered⟩

theorem foldl {α : Type} {f : Block → α → Block} (h : ∀ b x, Steady r b (f b x)) (l : List α) :
    ∀ b, Steady r b (l.foldl f b) := by
  induction l with
  | nil => exact refl
  | cons x rest ih => exact fun b => (h b x).trans (ih _)

theorem put (b : Block) {q : Reg} {row : Nat} (v : Nat) (h : Obj.deliveredTotal.key 0 ≠ q.key row) :
    Steady r b (b.put q v row) := ⟨rfl, rfl, rfl, rfl, rfl, rfl, b.get_put_ne v h⟩

theorem modRadio (b : Block) (q : Radio) {f : RadioUnit → RadioUnit} (hf : ∀ u, (f u).exchange = u.exchange) :
    Steady r b (b.modRadio q f) := by
  refine ⟨rfl, rfl, rfl, rfl, by simp, ?_, rfl⟩
  rcases b.radio_modRadio_cases q r f with h | h <;> rw [h]
  exact hf _

/-! ### Events and results -/

theorem emit (b : Block) (o : Out) : Steady r b (b.emit o) := of_eq rfl rfl rfl rfl rfl rfl

theorem tryWake (b : Block) (n : Nat) : Steady r b (b.tryWake n) := by
  unfold Block.tryWake; split
  · next cpu _ =>
    have hcpu : Steady r b (b.modCpu n fun _ => cpu) := of_eq rfl rfl rfl rfl rfl rfl
    refine hcpu.trans (put _ _ ?_)
    simp [Reg.key, Reg.eng, Obj.deliveredTotal, Obj.engRetired]
    omega
  · exact refl b

theorem event (b : Block) (n bit : Nat) : Steady r b (b.event n bit) := by
  unfold Block.event; extract_lets c m f c1; split
  · have hcpu : Steady r b (b.modCpu n fun _ => c1) := of_eq rfl rfl rfl rfl rfl rfl
    exact hcpu.trans (tryWake _ n)
  · exact refl b

theorem edgeResult (b : Block) (q : Radio) (e : Nat) (l : List Nat) : Steady r b (b.edgeResult q e l) :=
  (emit b _).trans (event _ _ _)

/-- The status of a PPDU sent. -/
theorem txStatus (b : Block) (q : Radio) : Steady r b (b.txStatus q 0) := edgeResult b q 1 [0]

/-! ### The charge and the lines -/

theorem dutyCorrect (b : Block) (c : Charge) (used : Nat) : Steady r b (b.dutyCorrect c used) := by
  unfold Block.dutyCorrect
  split
  all_goals
    refine foldl (fun c i => ?_) _ b
    exact of_eq rfl rfl rfl rfl rfl rfl

theorem coexOut (b : Block) (q : Radio) (on : Bool) : Steady r b (b.coexOut q on) := by
  unfold Block.coexOut; split <;> exact of_eq rfl rfl rfl rfl rfl rfl

theorem blankTail (b : Block) (source : Nat) : Steady r b (b.blankTail source) := by
  unfold Block.blankTail; extract_lets c; split <;> exact of_eq rfl rfl rfl rfl rfl rfl

theorem femDrive (b : Block) (q : Radio) (at_ : Nat) : Steady r b (b.femDrive q at_) := by
  unfold Block.femDrive; split <;> exact of_eq rfl rfl rfl rfl rfl rfl

theorem freeze (b : Block) (q : Radio) (until_ : Nat) : Steady r b (b.freeze q until_) := modRadio b q fun _ => rfl

theorem splitFollow (b : Block) : Steady r b b.splitFollow := by
  unfold Block.splitFollow; split
  · exact refl b
  · exact modRadio b .m fun _ => rfl

/-- What follows the end of a PPDU's carrier. -/
theorem linesFall (b : Block) (q : Radio) (source : Nat) :
    Steady r b (((((b.coexOut q false).blankTail source).femDrive q b.now).freeze q b.now).splitFollow) :=
  ((((coexOut b q false).trans (blankTail _ source)).trans (femDrive _ q _)).trans (freeze _ q _)).trans (splitFollow _)

end Steady

/-- From one block to another every frame is kept, and so is the exchange of a radio. -/
structure Spares (r : Radio) (b c : Block) : Prop where
  frames : FramesKept b c
  radios : c.radios.length = b.radios.length
  exchange : (c.radio r).exchange = (b.radio r).exchange

namespace Spares

variable {r : Radio}

theorem of_eq {b c : Block} (hf : c.frames = b.frames) (hr : c.radios = b.radios) : Spares r b c :=
  ⟨.of_eq hf, by rw [hr], by unfold Block.radio; rw [hr]⟩

theorem refl (b : Block) : Spares r b b := of_eq rfl rfl

theorem trans {a b c : Block} (h : Spares r a b) (k : Spares r b c) : Spares r a c :=
  ⟨h.frames.trans k.frames, k.radios.trans h.radios, k.exchange.trans h.exchange⟩

theorem foldl {α : Type} {f : Block → α → Block} (h : ∀ b x, Spares r b (f b x)) (l : List α) :
    ∀ b, Spares r b (l.foldl f b) := by
  induction l with
  | nil => exact refl
  | cons x rest ih => exact fun b => (h b x).trans (ih _)

theorem of_remelts {ks : List Nat} {b c : Block} (h : Remelts ks b c) : Spares r b c := by
  have hr : c.radios = b.radios := by have e := congrArg Block.radios h.rest; exact e
  exact ⟨h.frames, by rw [hr], by unfold Block.radio; rw [hr]⟩

theorem of_steady {b c : Block} (h : Steady r b c) : Spares r b c := ⟨.of_eq h.frames, h.radios, h.exchange⟩

theorem of_tells {ks : List Nat} {b c : Block} (h : Tells ks b c) : Spares r b c := of_eq h.frames h.radios

theorem modFrame (b : Block) (fid : Nat) {f : Frame → Frame} (hf : ∀ x, Frame.Kept x (f x)) :
    Spares r b (b.modFrame fid f) := ⟨.modFrame b fid hf, rfl, rfl⟩

theorem modRadio_ne (b : Block) {q : Radio} (h : r ≠ q) (f : RadioUnit → RadioUnit) : Spares r b (b.modRadio q f) :=
  ⟨.of_eq rfl, by simp, by rw [b.radio_modRadio_ne h]⟩

theorem modRadio (b : Block) (q : Radio) {f : RadioUnit → RadioUnit} (hf : ∀ u, (f u).exchange = u.exchange) :
    Spares r b (b.modRadio q f) := by
  refine ⟨.of_eq rfl, by simp, ?_⟩
  rcases b.radio_modRadio_cases q r f with h | h <;> rw [h]
  exact hf _

/-! ### Commands of another radio -/

theorem rampEnd (b : Block) {q : Radio} (h : r ≠ q) : Spares r b (b.rampEnd q) := by
  unfold Block.rampEnd; split
  · exact refl b
  · extract_lets b1
    exact (modRadio_ne b h _).trans (of_steady (.linesFall b1 q _))

theorem contend (b : Block) (q : Radio) (ac : Nat) : Spares r b (b.contend q ac) := by
  unfold Block.contend; split <;> exact of_eq rfl rfl

theorem contention (b : Block) (q : Radio) (c : TxCmd) (ac : Nat) : Spares r b
    (if c.kind != .contended then b else if q == .l then b.csmaStart
      else if (b.radio q).txop.isSome then b else b.contend q ac) := by
  repeat' split
  · exact refl b
  · exact of_eq rfl rfl
  · exact refl b
  · exact contend b q ac

theorem takeCmd (b : Block) {q : Radio} (h : r ≠ q) (c : TxCmd) (ac : Nat) : Spares r b (b.takeCmd q c ac) :=
  (modRadio_ne b h _).trans (contention _ q c ac)

theorem endCmd (b : Block) {q : Radio} (h : r ≠ q) : Spares r b (b.endCmd q) := by
  unfold Block.endCmd; extract_lets b0 b1
  have h0 : Spares r b b0 := modRadio_ne b h _
  have h1 : Spares r b0 b1 := by
    unfold b1; split
    · unfold Block.goHome; split
      · exact refl b0
      · exact modRadio b0 .l fun _ => rfl
    · exact refl b0
  split
  · exact h0.trans h1
  · exact (h0.trans h1).trans ((modRadio_ne b1 h _).trans (takeCmd _ h _ _))

theorem missedTrigger (b : Block) (gid : Nat) : Spares r b (b.missedTrigger gid) := by
  unfold Block.missedTrigger; split
  · exact refl b
  · exact (of_eq rfl rfl : Spares r b (b.modGather gid _)).trans (of_remelts (.remelt _ _ _))

theorem uncommit (b : Block) {q : Radio} (h : r ≠ q) : Spares r b (b.uncommit q) := by
  unfold Block.uncommit; split
  · exact refl b
  · extract_lets b1
    have h1 : Spares r b b1 := (of_steady (.dutyCorrect b _ 0)).trans (rampEnd _ h)
    split
    · exact h1.trans ((of_eq rfl rfl : Spares r b1 (b1.modGather _ _)).trans (missedTrigger _ _))
    · exact h1

/-! ### Strands and attempts -/

theorem updateLink (b : Block) (k : Nat) : Spares r b (b.updateLink k) := by
  unfold Block.updateLink; extract_lets old ups new b1
  have h1 : Spares r b b1 := of_eq rfl rfl
  repeat' split
  · exact h1.trans (of_tells (.notice _ _ _ _ _))
  · exact h1.trans (of_tells (.notice _ _ _ _ _))
  · exact h1

theorem failStrand (b : Block) (k : Nat) (q : Radio) (cause after : Nat) :
    Spares r b (b.failStrand k q cause after) := by
  unfold Block.failStrand; split
  · extract_lets b1 ids b2 b3
    have h1 : Spares r b b1 := of_remelts (.remelt _ _ _)
    have h2 : Spares r b1 b2 := by
      refine foldl (fun c i => ?_) ids b1
      exact (of_eq rfl rfl : Spares r c (c.handOn q i)).trans (modFrame _ i fun _ => ⟨rfl, rfl, rfl, rfl, fun _ h => h⟩)
    have h3 : Spares r b2 b3 := of_eq rfl rfl
    exact (h1.trans (h2.trans h3)).trans ((of_tells (.notice _ _ _ _ _)).trans (updateLink _ k))
  · split
    · exact (of_eq rfl rfl : Spares r b (b.setStrand k q after)).trans (updateLink _ k)
    · exact refl b

theorem strandAttemptFailed (b : Block) (k : Nat) (q : Radio) : Spares r b (b.strandAttemptFailed k q) := by
  unfold Block.strandAttemptFailed; extract_lets n b1
  have h1 : Spares r b b1 := of_eq rfl rfl
  split
  · exact h1.trans (failStrand _ _ _ _ _)
  · exact h1

theorem attemptFailed (b : Block) (fid : Nat) : Spares r b (b.attemptFailed fid) := by
  unfold Block.attemptFailed; split
  · exact refl b
  · extract_lets row
    split
    · have h1 : Spares r b (b.modFrame fid fun x => { x with attempts := 0 }) :=
        modFrame b fid fun _ => ⟨rfl, rfl, rfl, rfl, fun _ h => h⟩
      exact h1.trans (of_eq rfl rfl)
    · exact modFrame b fid fun _ => ⟨rfl, rfl, rfl, rfl, fun _ h => h⟩

theorem frameNotAcked (b : Block) (q : Radio) (fid : Nat) : Spares r b (b.frameNotAcked q fid) := by
  unfold Block.frameNotAcked; split
  · exact refl b
  · extract_lets b1
    have h1 : Spares r b b1 := attemptFailed b fid
    repeat' split
    · exact h1.trans (strandAttemptFailed _ _ _)
    · exact h1.trans (of_eq rfl rfl)
    · exact h1

/-- The copy that a twin send withdraws is in a gather, or a command of Radio L. -/
theorem withdrawTwin (b : Block) (h : r ≠ .l) (fid : Nat) : Spares r b (b.withdrawTwin fid) := by
  unfold Block.withdrawTwin; split
  · exact refl b
  · split
    · exact refl b
    · extract_lets waiting k b1
      have h1 : Spares r b b1 := by
        unfold b1; repeat' split
        · exact (of_remelts (.remelt _ _ _)).trans (of_eq rfl rfl)
        · exact ((uncommit b h).trans (endCmd _ h)).trans (of_eq rfl rfl)
        · exact refl b
      exact h1.trans (modFrame b1 fid fun _ => ⟨rfl, rfl, rfl, rfl, fun _ h => h⟩)

end Spares

end Sys2Proof.Machine
end

section
/-!
SUPPORT. The outcome of a gather: what is acknowledged is delivered, every other frame stays, and the radio's exchange
ends (R195, R253).
-/

namespace Sys2Proof.Machine

/-- The frame is one of a Cane link's. -/
def Frame.OfCane (f : Frame) : Prop := 4352 ≤ f.queue ∧ f.queue < 4608

theorem Frame.caneLink_eq_none {f : Frame} (h : ¬ f.OfCane) : f.caneLink = none := by
  simpa [Frame.caneLink, Frame.OfCane] using h

theorem Block.frame?_eq_none {b : Block} {fid : Nat} : b.frame? fid = none ↔ ∀ f ∈ b.frames, f.id ≠ fid := by
  simp [Block.frame?]

theorem Block.of_frame? {b : Block} {fid : Nat} {f : Frame} (h : b.frame? fid = some f) : f ∈ b.frames ∧ f.id = fid :=
  ⟨List.mem_of_find?_eq_some h, by simpa using List.find?_some h⟩

/-- An identity that no frame had is had by none after. -/
theorem Block.frame?_gone {b c : Block} (h : ∀ g ∈ c.frames, ∃ f ∈ b.frames, Frame.Kept f g) {fid : Nat}
    (hb : b.frame? fid = none) : c.frame? fid = none := by
  refine Block.frame?_eq_none.mpr fun g hg hid => ?_
  obtain ⟨f, hf, hfg⟩ := h g hg
  exact Block.frame?_eq_none.mp hb f hf (hfg.id.symm.trans hid)

/-- From one block to another only frames of the identities `ids` may have gone; every other one is kept, and so is the
exchange of a radio. -/
structure Resolves (r : Radio) (ids : List Nat) (b c : Block) : Prop where
  stays : ∀ f ∈ b.frames, f.id ∉ ids → ∃ g ∈ c.frames, Frame.Kept f g
  old : ∀ g ∈ c.frames, ∃ f ∈ b.frames, Frame.Kept f g
  radios : c.radios.length = b.radios.length
  exchange : (c.radio r).exchange = (b.radio r).exchange

namespace Resolves

variable {r : Radio}

theorem of_spares {b c : Block} (h : Spares r b c) (ids : List Nat) : Resolves r ids b c :=
  ⟨fun f hf _ => h.frames.stays f hf, h.frames.old, h.radios, h.exchange⟩

theorem trans {ids : List Nat} {a b c : Block} (h : Resolves r ids a b) (k : Resolves r ids b c) :
    Resolves r ids a c := by
  refine ⟨fun f hf hid => ?_, fun g hg => ?_, k.radios.trans h.radios, k.exchange.trans h.exchange⟩
  · obtain ⟨g, hg, hfg⟩ := h.stays f hf hid
    obtain ⟨x, hx, hgx⟩ := k.stays g hg (by rw [hfg.id]; exact hid)
    exact ⟨x, hx, hfg.trans hgx⟩
  · obtain ⟨f, hf, hfg⟩ := k.old g hg
    obtain ⟨x, hx, hxf⟩ := h.old f hf
    exact ⟨x, hx, hxf.trans hfg⟩

theorem mono {ids jds : List Nat} {b c : Block} (h : Resolves r ids b c) (hsub : ids ⊆ jds) : Resolves r jds b c :=
  ⟨fun f hf hid => h.stays f hf fun m => hid (hsub m), h.old, h.radios, h.exchange⟩

theorem gone {ids : List Nat} {b c : Block} (h : Resolves r ids b c) {fid : Nat} (hb : b.frame? fid = none) :
    c.frame? fid = none := Block.frame?_gone h.old hb

/-- A frame that is no Cane link's is none after. -/
theorem not_cane {ids : List Nat} {b c : Block} (h : Resolves r ids b c) {fid : Nat}
    (hb : ∀ f ∈ b.frames, f.id = fid → ¬ f.OfCane) : ∀ g ∈ c.frames, g.id = fid → ¬ g.OfCane := by
  intro g hg hid
  obtain ⟨f, hf, hfg⟩ := h.old g hg
  have hnot := hb f hf (hfg.id.symm.trans hid)
  unfold Frame.OfCane at hnot ⊢
  rw [hfg.queue]
  exact hnot

end Resolves

/-! ### One frame acknowledged -/

theorem Block.deliver_frames (b : Block) (fid : Nat) :
    (b.deliver fid).frames = b.frames.filter fun f => f.id != fid := by
  unfold Block.deliver; split
  case h_1 h =>
    refine (List.filter_eq_self.mpr fun f hf => ?_).symm
    simpa using Block.frame?_eq_none.mp h f hf
  case h_2 => rfl

theorem Block.deliver_radios (b : Block) (fid : Nat) : (b.deliver fid).radios = b.radios := by
  unfold Block.deliver; split <;> rfl

theorem Block.frame?_deliver (b : Block) (fid : Nat) : (b.deliver fid).frame? fid = none :=
  Block.frame?_eq_none.mpr fun f hf => by
    rw [b.deliver_frames] at hf
    simpa using (List.mem_filter.mp hf).2

theorem resolves_deliver (r : Radio) (b : Block) (fid : Nat) : Resolves r [fid] b (b.deliver fid) := by
  refine ⟨fun f hf hid => ⟨f, ?_, .refl f⟩, fun g hg => ⟨g, ?_, .refl g⟩, by rw [b.deliver_radios],
    by unfold Block.radio; rw [b.deliver_radios]⟩
  · rw [b.deliver_frames]
    exact List.mem_filter.mpr ⟨hf, by simpa using hid⟩
  · rw [b.deliver_frames] at hg
    exact List.mem_of_mem_filter hg

theorem resolves_frameAcked {r : Radio} (h : r ≠ .l) (b : Block) (fid : Nat) :
    Resolves r [fid] b (b.frameAcked r fid) := by
  unfold Block.frameAcked; split
  · exact .of_spares (.refl b) _
  · split
    case h_1 k _ =>
      have hmark : Spares r b (b.modFrame fid fun x => { x with acked := true, attempts := 0 }) :=
        .modFrame b fid fun _ => ⟨rfl, rfl, rfl, rfl, fun _ h => h⟩
      have hhand : Spares r b ((b.modFrame fid fun x => { x with acked := true, attempts := 0 }).handOn r fid) :=
        hmark.trans (.of_eq rfl rfl)
      have hwithdrawn := hhand.trans (.withdrawTwin _ h fid)
      refine .of_spares (hwithdrawn.trans ?_) _
      exact .of_eq rfl rfl
    case h_2 => exact resolves_deliver r b fid

theorem frame?_frameAcked {r : Radio} {b : Block} {fid : Nat} (hcane : ∀ f ∈ b.frames, f.id = fid → ¬ f.OfCane) :
    (b.frameAcked r fid).frame? fid = none := by
  unfold Block.frameAcked; split
  · assumption
  · next f hf =>
    obtain ⟨hmem, hid⟩ := Block.of_frame? hf
    rw [Frame.caneLink_eq_none (hcane f hmem hid)]
    exact b.frame?_deliver fid

/-! ### The frames of a gather -/

theorem resolves_acked {r : Radio} (h : r ≠ .l) (ids : List Nat) :
    ∀ b : Block, Resolves r ids b (ids.foldl (fun (d : Block) i => d.frameAcked r i) b) := by
  induction ids with
  | nil => exact fun b => .of_spares (.refl b) _
  | cons i rest ih =>
    exact fun b => ((resolves_frameAcked h b i).mono (by simp)).trans ((ih _).mono (List.subset_cons_self i rest))

theorem frame?_acked {r : Radio} (h : r ≠ .l) {ids : List Nat} {fid : Nat} (hfid : fid ∈ ids) :
    ∀ {b : Block}, (∀ f ∈ b.frames, f.id = fid → ¬ f.OfCane) →
      (ids.foldl (fun (d : Block) i => d.frameAcked r i) b).frame? fid = none := by
  induction ids with
  | nil => cases hfid
  | cons i rest ih =>
    intro b hcane
    have hfirst := resolves_frameAcked h b i
    rcases List.mem_cons.mp hfid with rfl | hrest
    · exact (resolves_acked h rest _).gone (frame?_frameAcked hcane)
    · exact ih hrest (hfirst.not_cane hcane)

/-- The identities of the frames that a gather carries. -/
def Block.gatherFrames (b : Block) (gid : Nat) : List Nat :=
  match b.gather? gid with
  | some g => g.mpdus.filterMap (·.fid)
  | none => []

theorem Block.cmdFrames_of_gather {b : Block} {c : TxCmd} {gid : Nat} (h : c.what = .gather gid) :
    b.cmdFrames c = b.gatherFrames gid := by
  unfold Block.cmdFrames; rw [h]; rfl

/-- The frames of a gather that an answer acknowledges, as the outcome takes them. -/
def Block.ackedOf (b : Block) (gid : Nat) (acked : List Nat) : List Nat :=
  (b.gatherFrames gid).filter fun i => acked.contains i

theorem Block.mem_ackedOf {b : Block} {gid fid : Nat} {acked : List Nat} :
    fid ∈ b.ackedOf gid acked ↔ fid ∈ b.gatherFrames gid ∧ fid ∈ acked := by
  simp [Block.ackedOf]

/-- What the outcome of a gather does once its acknowledged frames are resolved spares the rest. -/
theorem gatherOutcome_spares (b : Block) (r : Radio) (gid : Nat) (acked : List Nat) (answered : Bool) :
    ∃ marked, Spares r b marked ∧
      Spares r ((b.ackedOf gid acked).foldl (fun (d : Block) i => d.frameAcked r i) marked)
        (b.gatherOutcome r gid acked answered) := by
  unfold Block.gatherOutcome
  extract_lets fids bad holes b1 b2 b3
  refine ⟨b.markFailed gid bad, .of_eq rfl rfl, ?_⟩
  have h2 : Spares r b1 b2 := .foldl (fun c i => .frameNotAcked c r i) bad b1
  have h3 : Spares r b2 b3 := by
    unfold b3; split
    · exact .of_remelts (.remelt _ _ _)
    · exact .refl b2
  exact (h2.trans h3).trans (.of_eq rfl rfl)

theorem resolves_gatherOutcome {r : Radio} (h : r ≠ .l) (b : Block) (gid : Nat) (acked : List Nat) (answered : Bool) :
    Resolves r (b.ackedOf gid acked) b (b.gatherOutcome r gid acked answered) := by
  obtain ⟨marked, hmarked, hrest⟩ := gatherOutcome_spares b r gid acked answered
  exact ((Resolves.of_spares hmarked _).trans (resolves_acked h _ marked)).trans (.of_spares hrest _)

theorem frame?_gatherOutcome {r : Radio} (h : r ≠ .l) {b : Block} {gid fid : Nat} {acked : List Nat}
    (hfid : fid ∈ b.ackedOf gid acked) (hcane : ∀ f ∈ b.frames, f.id = fid → ¬ f.OfCane) (answered : Bool) :
    (b.gatherOutcome r gid acked answered).frame? fid = none := by
  obtain ⟨marked, hmarked, hrest⟩ := gatherOutcome_spares b r gid acked answered
  exact (Resolves.of_spares hrest []).gone
    (frame?_acked h hfid ((Resolves.of_spares hmarked []).not_cane hcane))

/-- Where nothing is acknowledged every frame is kept. -/
theorem gatherOutcome_none (b : Block) (r : Radio) (gid : Nat) (answered : Bool) :
    Spares r b (b.gatherOutcome r gid [] answered) := by
  obtain ⟨marked, hmarked, hrest⟩ := gatherOutcome_spares b r gid [] answered
  have hnone : b.ackedOf gid [] = [] := by simp [Block.ackedOf]
  rw [hnone] at hrest
  exact hmarked.trans hrest

/-! ### The end of the exchange -/

/-- The end of a command behind which nothing waits leaves its radio idle. -/
theorem Block.endCmd_idle {b : Block} {r : Radio} (hl : r ≠ .l) (hn : b.radios.length = 3)
    (hown : (b.radio r).own = []) :
    ((b.endCmd r).radio r).phase = .idle ∧ ((b.endCmd r).radio r).cmd = none ∧ (b.endCmd r).frames = b.frames := by
  have hbeq : (r == .l) = false := by simpa using hl
  unfold Block.endCmd
  simp [hbeq, Block.radio_modRadio_same hn, hown]

theorem FramesKept.sameFrames {b c : Block} (h : FramesKept b c) : Claims.sameFrames b c := by
  have hframes : List.Forall₂ (fun g f : Frame => (g.id, g.pkt) = (f.id, f.pkt)) c.frames b.frames :=
    (List.Forall₂.flip h).imp fun g f hk => by rw [hk.id, hk.pkt]
  unfold Claims.sameFrames
  exact List.forall₂_eq_eq_eq ▸ List.forall₂_map_left_iff.mpr (List.forall₂_map_right_iff.mpr hframes)

/-- The exchange of a gather ends: what its outcome leaves of the frames stays, and the radio is idle. -/
theorem endExchange_gather {b : Block} {r : Radio} {c : TxCmd} {gid : Nat} (hl : r ≠ .l) (hn : b.radios.length = 3)
    (hcmd : (b.radio r).cmd = some c) (hwhat : c.what = .gather gid) (hphase : (b.radio r).phase = .awaiting)
    (hown : (b.radio r).own = []) (acked : List Nat) (answered pending : Bool) :
    let x := b.endExchange r acked answered pending
    (x.radio r).phase = .idle ∧ (x.radio r).cmd = none ∧ FramesKept (b.gatherOutcome r gid acked answered) x := by
  have hbeq : (r == .l) = false := by simpa using hl
  have hout := resolves_gatherOutcome hl b gid acked answered
  unfold Block.endExchange
  simp only [hcmd, hphase, hwhat, hbeq, bne_self_eq_false, Bool.false_eq_true, if_false]
  generalize hw : (((b.gatherOutcome r gid acked answered).widen r (b.cmdAc c) !answered).modRadio r fun x =>
    { x with quietFrom := b.now, txop := if answered then x.txop else none }).freeze r b.now = w
  have hafter : Spares r (b.gatherOutcome r gid acked answered) w := by
    rw [← hw]
    have hwiden : Spares r (b.gatherOutcome r gid acked answered)
        ((b.gatherOutcome r gid acked answered).widen r (b.cmdAc c) !answered) := .of_eq rfl rfl
    refine (hwiden.trans (.modRadio _ r ?_)).trans (.of_steady (.freeze _ r _))
    exact fun _ => rfl
  have hwown : (w.radio r).own = [] :=
    (congrArg (fun e => e.2.2.1) (hafter.exchange.trans hout.exchange)).trans hown
  obtain ⟨hidle, hnone, hframes⟩ := Block.endCmd_idle hl ((hafter.radios.trans hout.radios).trans hn) hwown
  have hevent : Spares r (w.endCmd r) ((w.endCmd r).event (2 + radioNum r) 18) := .of_steady (.event _ _ _)
  have hphase' := congrArg (fun e => e.2.1) hevent.exchange
  have hcmd' := congrArg (fun e => e.1) hevent.exchange
  exact ⟨hphase'.trans hidle, hcmd'.trans hnone, (hafter.frames.trans (.of_eq hframes)).trans hevent.frames⟩

end Sys2Proof.Machine
end

section
/-!
SUPPORT. A command taken, and what the commit makes of it (R147, R161, R166, R195 to R197, R204).
-/

namespace Sys2Proof.Machine

variable {b : Block} {r : Radio} {c : TxCmd}

/-! ### The command -/

theorem Block.txCommand_of_not
    (h : b.radioOn r = false ∨ (b.radio r).phase ≠ .idle ∨ commandable c = false ∨ b.cmdValid r c = false) :
    b.txCommand r c = b := by
  unfold Block.txCommand
  rw [if_neg]
  rcases h with h | h | h | h <;> simp [h]

theorem Block.txCommand_of (hon : b.radioOn r = true) (hidle : (b.radio r).phase = .idle) (hc : commandable c = true)
    (hvalid : b.cmdValid r c = true) : b.txCommand r c = b.takeCmd r c (b.cmdAc c) := by
  simp [Block.txCommand, hon, hidle, hc, hvalid]

theorem Block.drawBackoff_kept (b : Block) (x : Backoff) : (b.drawBackoff x).frames = b.frames ∧
    (b.drawBackoff x).gth = b.gth ∧ (b.drawBackoff x).radios = b.radios := ⟨rfl, rfl, rfl⟩

theorem Block.contend_kept (b : Block) (r : Radio) (ac : Nat) : (b.contend r ac).frames = b.frames ∧
    (b.contend r ac).gth = b.gth ∧ (b.contend r ac).radios = b.radios := by
  unfold Block.contend; split
  · exact ⟨rfl, rfl, rfl⟩
  · exact b.drawBackoff_kept _

/-- What a command that is taken makes of its radio. -/
def RadioUnit.withCmd (u : RadioUnit) (now : Nat) (r : Radio) (c : TxCmd) (ac : Nat) : RadioUnit :=
  { u with
    cmd := some c, phase := .waiting, waitFrom := now, delayed := false
    txop := if r == .l then none else u.txop.filter fun o => o.1 == ac
    seg := match u.seg with
      | some s => if s.at_ = now && s.kind != 4 then none
        else some { s with abandon := s.abandon || (s.kind != 4 && !s.forced) }
      | none => none }

/-- The contention that a command may open leaves the frames, the gathers and the radios. -/
theorem Block.takeCmd_kept (b : Block) (r : Radio) (c : TxCmd) (ac : Nat) : (b.takeCmd r c ac).frames = b.frames ∧
    (b.takeCmd r c ac).gth = b.gth ∧
    (b.takeCmd r c ac).radios = (b.modRadio r fun u => u.withCmd b.now r c ac).radios := by
  unfold Block.takeCmd; extract_lets b1
  repeat' split
  · exact ⟨rfl, rfl, rfl⟩
  · exact ⟨rfl, rfl, rfl⟩
  · exact ⟨rfl, rfl, rfl⟩
  · exact b1.contend_kept r ac

theorem Block.radio_takeCmd (hn : b.radios.length = 3) (ac : Nat) :
    (b.takeCmd r c ac).radio r = (b.radio r).withCmd b.now r c ac := by
  obtain ⟨-, -, hradios⟩ := b.takeCmd_kept r c ac
  calc (b.takeCmd r c ac).radio r = (b.modRadio r fun u => u.withCmd b.now r c ac).radio r := by
        unfold Block.radio; rw [hradios]
    _ = _ := Block.radio_modRadio_same hn r _

theorem Block.txCommand_takes (hon : b.radioOn r = true) (hidle : (b.radio r).phase = .idle)
    (hc : commandable c = true) (hvalid : b.cmdValid r c = true) :
    b.txCommand r c = b.takeCmd r c (b.cmdAc c) ∧ (b.txCommand r c).frames = b.frames ∧
      (b.txCommand r c).gth = b.gth ∧ (b.radios.length = 3 → ((b.txCommand r c).radio r).cmd = some c ∧
        ((b.txCommand r c).radio r).phase = .waiting ∧ ((b.txCommand r c).radio r).waitFrom = b.now) := by
  rw [Block.txCommand_of hon hidle hc hvalid]
  obtain ⟨hframes, hgth, -⟩ := b.takeCmd_kept r c (b.cmdAc c)
  refine ⟨rfl, hframes, hgth, fun hn => ?_⟩
  rw [Block.radio_takeCmd hn]
  exact ⟨rfl, rfl, rfl⟩

/-! ### The commit -/

theorem Block.txCommit_of_none (h : (b.radio r).cmd = none) : b.txCommit r = b := by
  simp [Block.txCommit, h]

theorem Block.txCommit_of_loses (h : (b.radio r).cmd = some c) (hmay : b.mayCommit r c = true)
    (hvalid : b.cmdValid r c = true) (hloses : (c.kind == .contended && (b.radio r).busy b.now) = true) :
    b.txCommit r = b.loseTurn r c := by
  unfold Block.txCommit; simp only [h, hmay, hvalid, hloses, Bool.not_true, Bool.false_eq_true, if_false, if_true]

/-- The commit of a command that may go, is still good and does not lose its turn. -/
theorem Block.txCommit_of_free (h : (b.radio r).cmd = some c) (hmay : b.mayCommit r c = true)
    (hvalid : b.cmdValid r c = true) (hfree : (c.kind == .contended && (b.radio r).busy b.now) = false) :
    b.txCommit r =
      if b.waitsForSibling c then b else if !b.hasTurn r c then b.giveUpTurn r c else b.checkedCommit r c := by
  unfold Block.txCommit; simp only [h, hmay, hvalid, hfree, Bool.not_true, Bool.false_eq_true, if_false]

theorem Block.txCommit_of_not_may (h : (b.radio r).cmd = some c) (hmay : b.mayCommit r c = false) :
    b.txCommit r = b := by
  simp [Block.txCommit, h, hmay]

theorem Block.txCommit_of_not_valid (h : (b.radio r).cmd = some c) (hmay : b.mayCommit r c = true)
    (hvalid : b.cmdValid r c = false) : b.txCommit r = b.endCmd r := by
  simp [Block.txCommit, h, hmay, hvalid]

/-- What a command that passes every check commits. -/
def Block.commitPassed (b : Block) (r : Radio) (c : TxCmd) : Block :=
  match c.what, r with
  | .frame fid, .l => (b.dropSegment .l).commitLow c fid
  | .mgmt k n _, _ => (b.dropSegment r).commitMgmt r c k n
  | .caneCtl k t, _ => (b.dropSegment r).commitCtl r c k t
  | _, _ => (b.dropSegment r).commitPpdu r c

theorem Block.checkedCommit_of_status
    (hst : b.channelStatus r (b.occupied r c.ppdu.form).1 (b.occupied r c.ppdu.form).2 ≠ 0) :
    b.checkedCommit r c = (b.txStatus r (b.channelStatus r (b.occupied r c.ppdu.form).1
      (b.occupied r c.ppdu.form).2)).endCmd r := by
  unfold Block.checkedCommit
  extract_lets ch st late short
  exact if_pos hst

section
variable (hst : b.channelStatus r (b.occupied r c.ppdu.form).1 (b.occupied r c.ppdu.form).2 = 0)
include hst

theorem Block.checkedCommit_of_late (hlate : b.lateFrames c ≠ []) :
    b.checkedCommit r c = (b.abandon 2 9 (b.lateFrames c)).endCmd r := by
  unfold Block.checkedCommit
  extract_lets ch st late short
  rw [if_neg (not_not_intro hst), if_pos (by simpa [late] using hlate)]

variable (hlate : b.lateFrames c = [])
include hlate

theorem Block.checkedCommit_of_short
    (hshort : b.dutyShort r (b.occupied r c.ppdu.form).1 (b.occupied r c.ppdu.form).2 c.isAck
      (b.paOn r (b.airOf c.ppdu) c.kind) ≠ []) :
    b.checkedCommit r c = b.deferCmd r c (b.dutyShort r (b.occupied r c.ppdu.form).1 (b.occupied r c.ppdu.form).2
      c.isAck (b.paOn r (b.airOf c.ppdu) c.kind)) := by
  unfold Block.checkedCommit
  extract_lets ch st late short
  rw [if_neg (not_not_intro hst), if_neg (by simpa [late] using hlate), if_pos (by simpa [short] using hshort)]

/-- A command that passes every check commits what it carries. -/
theorem Block.checkedCommit_of_passed
    (hshort : b.dutyShort r (b.occupied r c.ppdu.form).1 (b.occupied r c.ppdu.form).2 c.isAck
      (b.paOn r (b.airOf c.ppdu) c.kind) = []) :
    b.checkedCommit r c = b.commitPassed r c := by
  unfold Block.checkedCommit
  extract_lets ch st late short
  rw [if_neg (not_not_intro hst), if_neg (by simpa [late] using hlate), if_neg (by simpa [short] using hshort)]
  rfl

end

theorem Block.commitPassed_gather {gid : Nat} (h : c.what = .gather gid) :
    b.commitPassed r c = (b.dropSegment r).commitPpdu r c := by
  unfold Block.commitPassed; rw [h]

theorem Block.commitPassed_mgmt {k n : Nat} {a : Bool} (h : c.what = .mgmt k n a) :
    b.commitPassed r c = (b.dropSegment r).commitMgmt r c k n := by
  unfold Block.commitPassed; rw [h]

theorem Block.commitPassed_ctlEnd {k : Nat} (h : c.what = .caneCtl k 4) :
    b.commitPassed r c = (b.dropSegment r).commitPpdu r c := by
  unfold Block.commitPassed; rw [h]; simp [Block.commitCtl]

theorem Block.frame?_dropSegment (b : Block) (r : Radio) (fid : Nat) : (b.dropSegment r).frame? fid = b.frame? fid := by
  unfold Block.dropSegment; split <;> rfl

/-- A frame of Radio L that takes no counter is committed as it stands. -/
theorem Block.commitPassed_plain {fid : Nat} {f : Frame} (h : c.what = .frame fid) (hf : b.frame? fid = some f)
    (hctx : (b.dropSegment .l).lowCtx f = none) (hpn : f.pn = none) :
    b.commitPassed .l c = ((b.dropSegment .l).lowPlace f).commitPpdu .l c := by
  have hf' : (b.dropSegment .l).frame? fid = some f := (b.frame?_dropSegment .l fid).trans hf
  unfold Block.commitPassed; rw [h]
  simp [Block.commitLow, Block.lowSeal, hf', hctx, hpn]

/-! ### Frames a command's end leaves -/

theorem Block.txStatus_frames (b : Block) (r : Radio) (code : Nat) : (b.txStatus r code).frames = b.frames := by
  unfold Block.txStatus; extract_lets b1; split
  · exact (Steady.edgeResult (r := r) b r 1 _).frames
  · exact (Steady.edgeResult (r := r) b r 1 _).frames

theorem Block.endCmd_frames (b : Block) (r : Radio) : (b.endCmd r).frames = b.frames := by
  unfold Block.endCmd; extract_lets b0 b1
  have h1 : b1.frames = b.frames := by
    unfold b1; split
    · unfold Block.goHome; split <;> rfl
    · rfl
  split
  · exact h1
  · exact (Block.takeCmd_kept _ r _ 3).1.trans h1

/-- What no step of a fold changes the fold leaves. -/
theorem Block.foldl_same {α β : Type} {f : Block → α → Block} {g : Block → β}
    (h : ∀ b x, g (f b x) = g b) (l : List α) :
    ∀ b, g (l.foldl f b) = g b := by
  induction l with
  | nil => exact fun _ => rfl
  | cons x rest ih => exact fun b => (ih _).trans (h b x)

theorem Block.deferCmd_frames (b : Block) (r : Radio) (c : TxCmd) (rows : List Nat) :
    (b.deferCmd r c rows).frames = b.frames := by
  unfold Block.deferCmd
  extract_lets b1
  have h1 : b1.frames = (b.txStatus r 6).frames := by
    refine Block.foldl_same (g := Block.frames) (fun d row => ?_) rows _
    rfl
  rw [Block.endCmd_frames, ← b.txStatus_frames r 6, ← h1]
  rfl

end Sys2Proof.Machine
end

section
/-!
SUPPORT. The first sample of a PPDU: what it carries goes on air (R159, R161, R253).
-/

namespace Sys2Proof.Machine

/-! ### Frames on air -/

/-- Every frame of an identity is on air. -/
def Block.Aired (b : Block) (fid : Nat) : Prop := ∀ f ∈ b.frames, f.id = fid → f.air = true ∧ f.state = .sent

theorem FramesKept.aired {b c : Block} (h : FramesKept b c) {fid : Nat} (ha : b.Aired fid) : c.Aired fid := by
  intro g hg hid
  obtain ⟨f, hf, hfg⟩ := h.old g hg
  obtain ⟨hair, hstate⟩ := ha f hf (hfg.id.symm.trans hid)
  exact ⟨hfg.air.trans hair, hfg.state hair hstate⟩

/-- What putting frames on air leaves: the gathers and their count, the time, and that a frame is on air. -/
structure Airs (b c : Block) : Prop where
  gth : c.gth = b.gth
  now : c.now = b.now
  sent : c.get Obj.gathersSent = b.get Obj.gathersSent
  aired : ∀ fid, b.Aired fid → c.Aired fid

namespace Airs

theorem refl (b : Block) : Airs b b := ⟨rfl, rfl, rfl, fun _ h => h⟩

theorem trans {a b c : Block} (h : Airs a b) (k : Airs b c) : Airs a c :=
  ⟨k.gth.trans h.gth, k.now.trans h.now, k.sent.trans h.sent, fun fid ha => k.aired fid (h.aired fid ha)⟩

theorem of_frames {b c : Block} (hg : c.gth = b.gth) (hn : c.now = b.now)
    (hs : c.get Obj.gathersSent = b.get Obj.gathersSent) (hf : FramesKept b c) : Airs b c :=
  ⟨hg, hn, hs, fun _ => hf.aired⟩

theorem put (b : Block) {q : Reg} {row : Nat} (v : Nat) (h : Obj.gathersSent.key 0 ≠ q.key row) :
    Airs b (b.put q v row) :=
  of_frames rfl rfl (b.get_put_ne v h) (.of_eq rfl)

theorem foldl {α : Type} {f : Block → α → Block} (h : ∀ b x, Airs b (f b x)) (l : List α) :
    ∀ b, Airs b (l.foldl f b) := by
  induction l with
  | nil => exact refl
  | cons x rest ih => exact fun b => (h b x).trans (ih _)

theorem pushStamp (b : Block) {q : Nat} (hq : q < 5) (ident time : Nat) : Airs b (b.pushStamp q ident time) := by
  unfold Block.pushStamp; split
  · exact of_frames rfl rfl rfl (.of_eq rfl)
  · extract_lets b1
    have hfull : Airs b (b.put Obj.tsqOverflow 1 q) := put b 1 (Reg.key_ne (by decide) (by decide) (by omega))
    have h1 : Airs b b1 := hfull.trans (put _ _ (Reg.key_ne (by decide) (by decide) (by omega)))
    have ht := Tells.notice b1 0x01B4 Obj.tsqOverflow q ([q] ++ bytesBE 4 (b1.get Obj.tsqLost q))
    exact h1.trans (of_frames ht.gth ht.now (ht.get _ _ (by decide)) (.of_eq ht.frames))

end Airs

/-- What pushing a stamp leaves, marking one on the frame's transmission leaves. -/
theorem Block.txStamp_induct {P : Block → Prop} {b : Block} {q : Nat} (hb : P b)
    (hpush : ∀ ident time, P (b.pushStamp q ident time)) (f : Frame) (n d : Nat) : P (b.txStamp q f n d) := by
  unfold Block.txStamp; split
  · exact hb
  · extract_lets m other
    have hother : P other := by
      unfold other; split
      · exact hpush _ _
      · exact hb
    split
    · repeat' split
      · exact hother
      · exact hb
      · exact hpush _ _
      · exact hb
    · exact hother

theorem Block.pushStamp_frames (b : Block) (q ident time : Nat) : (b.pushStamp q ident time).frames = b.frames := by
  unfold Block.pushStamp; split
  · rfl
  · extract_lets b1
    exact (Tells.notice b1 _ _ _ _).frames

theorem Block.txStamp_frames (b : Block) (q : Nat) (f : Frame) (n d : Nat) : (b.txStamp q f n d).frames = b.frames :=
  b.txStamp_induct (P := fun c => c.frames = b.frames) rfl (fun _ _ => b.pushStamp_frames q _ _) f n d

namespace Airs

theorem txStamp (b : Block) {q : Nat} (hq : q < 5) (f : Frame) (n d : Nat) : Airs b (b.txStamp q f n d) :=
  b.txStamp_induct (refl b) (pushStamp b hq) f n d

theorem lowNumber (b : Block) (f : Frame) : Airs b (b.lowNumber f) := by
  have hrow {row : Nat} (h : b.lowNbr f = some row) : row < 1024 := by
    unfold Block.lowNbr at h
    split at h
    · next hq => simp at h hq; omega
    · split at h
      · split at h
        · simp at h; omega
        · cases h
      · cases h
  unfold Block.lowNumber; split
  · next row h =>
    split
    · exact refl b
    · have hmark : Airs b (b.modFrame f.id fun x => { x with txSeq := some (b.get Obj.nbrTxSeq row) }) :=
        of_frames rfl rfl rfl (.modFrame b _ fun _ => ⟨rfl, rfl, rfl, rfl, fun _ h => h⟩)
      have := hrow h
      exact hmark.trans (put _ _ (Reg.key_ne (by decide) (by decide) (by omega)))
  · exact refl b

theorem dataOnAir (b : Block) (r : Radio) (f : Frame) : Airs b (b.dataOnAir r f) := by
  unfold Block.dataOnAir; split <;> exact of_frames rfl rfl rfl (.of_eq rfl)

/-- What is done before a frame is marked: its number on Radio L, and its cane data. -/
theorem numbered (b : Block) (r : Radio) (f : Frame) :
    Airs b ((if r == .l then b.lowNumber f else b).dataOnAir r f) := by
  refine Airs.trans ?_ (dataOnAir _ r f)
  split
  · exact lowNumber b f
  · exact refl b

end Airs

/-- A frame as it is once put on air. -/
def Frame.sentAt (x : Frame) (now : Nat) : Frame :=
  { x with air := true, state := .sent, lastTx := now, resend := false }

/-- A frame marked as on air is so, and every other one that was stays so. -/
theorem Block.modFrame_aired (b : Block) (fid now : Nat) (j : Nat) (h : j = fid ∨ b.Aired j) :
    (b.modFrame fid (·.sentAt now)).Aired j := by
  intro g hg hid
  obtain ⟨f, hf, rfl⟩ := List.mem_map.mp hg
  split
  · exact ⟨rfl, rfl⟩
  · next hne =>
    rw [if_neg hne] at hid
    rcases h with rfl | h
    · simp [hid] at hne
    · exact h f hf hid

theorem radioStamps_lt (r : Radio) : 2 + radioNum r < 5 := by have := radioNum_lt r; omega

/-- A frame put on air: the work before it, the mark, and its stamp. -/
theorem Block.frameOnAir_eq {b : Block} {fid : Nat} {f : Frame} (h : b.frame? fid = some f) (r : Radio) :
    ∃ c, Airs b c ∧ (b.frameOnAir r fid).frames = (c.modFrame fid (·.sentAt b.now)).frames ∧
      Airs (c.modFrame fid (·.sentAt b.now)) (b.frameOnAir r fid) := by
  refine ⟨_, Airs.numbered b r f, ?_⟩
  unfold Block.frameOnAir; rw [h]; simp only
  split
  · exact ⟨rfl, .refl _⟩
  · exact ⟨Block.txStamp_frames _ _ _ _ _, .txStamp _ (radioStamps_lt r) _ _ _⟩

theorem airs_frameOnAir (b : Block) (r : Radio) (fid : Nat) : Airs b (b.frameOnAir r fid) := by
  cases h : b.frame? fid with
  | none => unfold Block.frameOnAir; rw [h]; exact .refl b
  | some f =>
    obtain ⟨c, hc, -, hd⟩ := Block.frameOnAir_eq h r
    have hmark : Airs c (c.modFrame fid (·.sentAt b.now)) :=
      ⟨rfl, rfl, rfl, fun j hj => c.modFrame_aired fid b.now j (.inr hj)⟩
    exact (hc.trans hmark).trans hd

theorem aired_frameOnAir (b : Block) (r : Radio) (fid : Nat) : (b.frameOnAir r fid).Aired fid := by
  cases h : b.frame? fid with
  | none =>
    unfold Block.frameOnAir; rw [h]
    exact fun f hf hid => absurd hid (Block.frame?_eq_none.mp h f hf)
  | some f =>
    obtain ⟨c, -, -, hd⟩ := Block.frameOnAir_eq h r
    exact hd.aired fid (c.modFrame_aired fid b.now fid (.inl rfl))

/-- The last transmission of a frame put on air is now. -/
theorem lastTx_frameOnAir (b : Block) (r : Radio) {fid : Nat} : ∀ f ∈ (b.frameOnAir r fid).frames, f.id = fid →
    f.lastTx = b.now := by
  intro g hg hid
  cases h : b.frame? fid with
  | none =>
    unfold Block.frameOnAir at hg; rw [h] at hg
    exact absurd hid (Block.frame?_eq_none.mp h g hg)
  | some f =>
    obtain ⟨c, -, hframes, -⟩ := Block.frameOnAir_eq h r
    rw [hframes] at hg
    obtain ⟨x, -, rfl⟩ := List.mem_map.mp hg
    split
    · rfl
    · next hne => rw [if_neg hne] at hid; simp [hid] at hne

theorem aired_framesOnAir (r : Radio) {ids : List Nat} {fid : Nat} (hfid : fid ∈ ids) :
    ∀ b : Block, (ids.foldl (fun (c : Block) i => c.frameOnAir r i) b).Aired fid := by
  induction ids with
  | nil => cases hfid
  | cons i rest ih =>
    intro b
    rcases List.mem_cons.mp hfid with rfl | hrest
    · exact (Airs.foldl (fun c j => airs_frameOnAir c r j) rest _).aired _ (aired_frameOnAir b r _)
    · exact ih hrest _

/-! ### A gather on air (R253) -/

theorem gatherOnAir_eq {b : Block} {gid : Nat} {g : Gather} (h : b.gather? gid = some g) (r : Radio) :
    ∃ c, Airs ((b.modGather gid fun x => { x with state := .sent }).add Obj.gathersSent) c ∧
      (∀ fid ∈ g.mpdus.filterMap (·.fid), c.Aired fid) ∧ Remelts (remeltKeys 4) c (b.gatherOnAir r gid) := by
  unfold Block.gatherOnAir; rw [h]
  exact ⟨_, .foldl (f := fun (c : Block) i => c.frameOnAir r i) (fun c i => airs_frameOnAir c r i) _ _,
    fun fid hfid => aired_framesOnAir r hfid _, .remelt _ 4 _⟩

theorem gatherOnAir_sent {b : Block} {gid : Nat} {g : Gather} (h : b.gather? gid = some g) (r : Radio) :
    (∀ h ∈ (b.gatherOnAir r gid).gth.gathers, h.id = gid → h.state = .sent) ∧
      (b.gatherOnAir r gid).get Obj.gathersSent = Obj.gathersSent.raised (b.get Obj.gathersSent + 1) ∧
      ∀ f ∈ (b.gatherOnAir r gid).frames, some f.id ∈ g.mpdus.map (·.fid) → f.air ∧ f.state = .sent := by
  obtain ⟨c, hairs, haired, hremelt⟩ := gatherOnAir_eq h r
  refine ⟨fun y hy hid => ?_, ?_, fun f hf hmem => ?_⟩
  · obtain ⟨z, hz, hzid, hzstate⟩ := hremelt.gathers y hy
    rw [hairs.gth] at hz
    obtain ⟨w, -, rfl⟩ := List.mem_map.mp hz
    rw [← hzstate]
    split
    · rfl
    · next hne =>
      rw [if_neg hne] at hzid
      simp [hzid, hid] at hne
  · rw [hremelt.get _ _ (by decide), hairs.sent]
    exact Block.get_add_same _ _ _ _
  · have hfid : f.id ∈ g.mpdus.filterMap (·.fid) := by
      obtain ⟨m, hm, he⟩ := List.mem_map.mp hmem
      exact List.mem_filterMap.mpr ⟨m, hm, he⟩
    exact hremelt.frames.aired (haired _ hfid) f hf rfl

/-! ### A management message on air -/

theorem Block.link_modLink {b : Block} {k : Nat} (hk : k < b.links.length) (f : Link → Link) :
    (b.modLink k f).link k = f (b.link k) := by
  simp [Block.link, Block.modLink, modAt, List.getD_eq_getElem?_getD, hk]

theorem Block.lowTakes_links (b : Block) (k : Nat) (r : Radio) : (b.lowTakes k r).links = b.links := by
  unfold Block.lowTakes; extract_lets n; split <;> rfl

theorem Block.lowTakes_frames (b : Block) (k : Nat) (r : Radio) : (b.lowTakes k r).frames = b.frames := by
  unfold Block.lowTakes; extract_lets n; split <;> rfl

theorem Block.lt_links_of_send {b : Block} {k : Nat} (h : (b.link k).send ≠ []) : k < b.links.length := by
  by_contra hk
  exact h (by simp [Block.link, List.getD_eq_getElem?_getD, Nat.not_lt.mp hk])

/-- The messages of a link's send list with one changed, found by its number. -/
theorem map_send {n : Nat} {l l' : List MgmtSend} {m : MgmtSend} (hm : m.cseq = n) (hother : ∀ y ∈ l ++ l', y.cseq ≠ n)
    (f : MgmtSend → MgmtSend) :
    (l ++ m :: l').map (fun y => if y.cseq == n then f y else y) = l ++ f m :: l' := by
  have hkeep {x : List MgmtSend} (h : ∀ y ∈ x, y.cseq ≠ n) : x.map (fun y => if y.cseq == n then f y else y) = x :=
    (List.map_congr_left fun y hy => by simp [h y hy]).trans (List.map_id x)
  rw [List.map_append, List.map_cons, hkeep fun y hy => hother y (List.mem_append_left _ hy),
    hkeep fun y hy => hother y (List.mem_append_right _ hy), if_pos (by simpa using hm)]

theorem mgmtOnAir_sent {b : Block} {k n : Nat} {q : Bool} {l l' : List MgmtSend} {m : MgmtSend}
    (hsend : (b.link k).send = l ++ m :: l') (hm : m.cseq = n) (hother : ∀ y ∈ l ++ l', y.cseq ≠ n) (r : Radio) :
    ((b.mgmtOnAir k r n q).link k).send =
        l ++ { m with sent := true, acked := false, lastTx := b.now, numbered := true } :: l' ∧
      (b.mgmtOnAir k r n q).frames = b.frames ∧ ∃ addr snap,
        .cane k r 0 7 addr (snap ++ (caneDataHeader 15 n false m.again q ++ BitVec.ofNat 8 m.kind :: m.payload)) ∈
          (b.mgmtOnAir k r n q).outs := by
  have hfind : (b.link k).send.find? (fun y => y.cseq == n) = some m := by
    have hl : ∀ y ∈ l, (y.cseq == n) = false := fun y hy => by simpa using hother y (List.mem_append_left _ hy)
    rw [hsend, List.find?_append, List.find?_eq_none.mpr fun y hy => by simp [hl y hy]]
    simp [hm]
  have hk : k < b.links.length := Block.lt_links_of_send (by simp [hsend])
  unfold Block.mgmtOnAir; rw [hfind]; simp only
  generalize hc : (if m.numbered then b else b.lowTakes k r) = c
  have hlinks : c.links = b.links := by
    rw [← hc]; split
    · rfl
    · exact b.lowTakes_links k r
  have hframes : c.frames = b.frames := by
    rw [← hc]; split
    · rfl
    · exact b.lowTakes_frames k r
  refine ⟨?_, hframes, _, _, List.mem_append_right _ (List.mem_singleton.mpr rfl)⟩
  have hlink : c.link k = b.link k := by unfold Block.link; rw [hlinks]
  have hsends : ((c.strandSends k r).link k).send = l ++ m :: l' := by
    unfold Block.strandSends Block.modStrand
    extract_lets owed
    rw [Block.link_modLink (hlinks ▸ hk), hlink]
    exact hsend
  have hk' : k < (c.strandSends k r).links.length := Block.lt_links_of_send (by simp [hsends])
  exact (congrArg Link.send (Block.link_modLink hk' _)).trans
    ((congrArg (List.map _) hsends).trans (map_send hm hother _))

/-! ### The first sample -/

section
variable {b : Block} {r : Radio}

theorem Block.firstSample_of_none (h : (b.radio r).air = none) : b.firstSample r = b := by
  unfold Block.firstSample; rw [h]

variable {a : OnAir} (ha : (b.radio r).air = some a)
include ha

theorem Block.firstSample_of_not (h : a.started = true ∨ b.now < a.rampAt + 32 * a.ramp.up) : b.firstSample r = b := by
  unfold Block.firstSample; rw [ha]
  exact if_pos (by simpa using h)

/-- The block once the first sample is out, before what it carries is. -/
def Block.sampled (b : Block) (r : Radio) (a : OnAir) : Block :=
  (b.modRadio r fun y => { y with air := some { a with started := true } }).emit (.radio r 13 (b.airValues a.cmd))

theorem Block.firstSample_of_due (hs : a.started = false) (hdue : a.rampAt + 32 * a.ramp.up ≤ b.now) :
    b.firstSample r = (b.sampled r a).carriedOnAir r a.cmd := by
  unfold Block.firstSample; rw [ha]
  exact if_neg (by simp [hs, hdue])

end

theorem Block.carriedOnAir_gather (b : Block) (r : Radio) {c : TxCmd} {gid : Nat} (h : c.what = .gather gid) :
    b.carriedOnAir r c = b.gatherOnAir r gid := by
  unfold Block.carriedOnAir; rw [h]

theorem Block.carriedOnAir_frame (b : Block) (r : Radio) {c : TxCmd} {fid : Nat} (h : c.what = .frame fid) :
    b.carriedOnAir r c = b.frameOnAir r fid := by
  unfold Block.carriedOnAir; rw [h]

theorem Block.carriedOnAir_mgmt (b : Block) (r : Radio) {c : TxCmd} {k n : Nat} {q : Bool} (h : c.what = .mgmt k n q) :
    b.carriedOnAir r c = b.mgmtOnAir k r n q := by
  unfold Block.carriedOnAir; rw [h]

end Sys2Proof.Machine
end

section
/-!
SUPPORT. The end of a PPDU and the commit of one: what they make of the radio, and what they leave (R143, R149, R159,
R166, R253).
-/

namespace Sys2Proof.Machine

variable {b : Block} {r : Radio}

/-! ### The end of a PPDU -/

theorem Steady.learnLevels (b : Block) (q : Radio) (centre first : Nat) (levels detector : List Int) :
    Steady r b (b.learnLevels q centre first levels detector) := by
  unfold Block.learnLevels
  refine foldl (fun c x => ?_) _ b
  exact modRadio c q fun _ => rfl

theorem deliveredTotal_ne_calStatus (r : Radio) : Obj.deliveredTotal.key 0 ≠ (Obj.calStatus.of r).key 0 := by
  cases r <;> decide

/-- What the end of a PPDU's carrier leaves: the radio's command and phase with nothing on air. -/
structure Ended (r : Radio) (b c : Block) : Prop where
  frames : c.frames = b.frames
  radios : c.radios.length = b.radios.length
  exchange : (c.radio r).exchange = ((b.radio r).cmd, (b.radio r).phase, (b.radio r).own, none)
  delivered : c.get Obj.deliveredTotal = b.get Obj.deliveredTotal

theorem Ended.fields {b c : Block} (h : Ended r b c) : (c.radio r).cmd = (b.radio r).cmd ∧
    (c.radio r).phase = (b.radio r).phase ∧ (c.radio r).own = (b.radio r).own ∧ (c.radio r).air = none := by
  simpa [RadioUnit.exchange] using h.exchange

theorem Ended.steady {b c d : Block} (h : Ended r b c) (k : Steady r c d) : Ended r b d :=
  ⟨k.frames.trans h.frames, k.radios.trans h.radios, k.exchange.trans h.exchange, k.delivered.trans h.delivered⟩

theorem Steady.ended {b c d : Block} (h : Steady r b c) (k : Ended r c d) : Ended r b d := by
  refine ⟨k.frames.trans h.frames, k.radios.trans h.radios, k.exchange.trans ?_, k.delivered.trans h.delivered⟩
  obtain ⟨hcmd, hphase, hown, -⟩ : (c.radio r).cmd = (b.radio r).cmd ∧ (c.radio r).phase = (b.radio r).phase ∧
      (c.radio r).own = (b.radio r).own ∧ (c.radio r).air = (b.radio r).air := by
    simpa [RadioUnit.exchange] using h.exchange
  rw [hcmd, hphase, hown]

theorem ended_rampEnd (hn : b.radios.length = 3) {a : OnAir} (ha : (b.radio r).air = some a) :
    Ended r b (b.rampEnd r) := by
  have hoff : Ended r b (b.modRadio r fun u => { u with air := none, quietFrom := b.now }) :=
    ⟨rfl, by simp, by rw [Block.radio_modRadio_same hn]; rfl, rfl⟩
  refine hoff.steady ?_
  unfold Block.rampEnd; rw [ha]
  exact .linesFall _ r _

theorem Block.txEnd_of_none (h : (b.radio r).air = none) (detector : List Int) : b.txEnd r detector = b := by
  unfold Block.txEnd; rw [h]

theorem Block.txEnd_of_not_started {a : OnAir} (ha : (b.radio r).air = some a) (hs : a.started = false)
    (detector : List Int) : b.txEnd r detector = b := by
  unfold Block.txEnd; rw [ha]
  exact if_pos (by simp [hs])

/-- The end of a PPDU that is on air: the carrier ends, and then an answer is awaited or the command ends. -/
theorem Block.txEnd_eq {a : OnAir} (ha : (b.radio r).air = some a) (hs : a.started = true) (hn : b.radios.length = 3)
    (detector : List Int) :
    ∃ c, Ended r b c ∧ b.txEnd r detector =
      if a.own then c
      else if wantsAnswer a.cmd then
        (c.txStatus r 0).modRadio r fun x => { x with phase := .awaiting, endAt := b.now - 32 * a.ramp.down }
      else (c.txStatus r 0).endUnanswered r a.cmd := by
  have hrun : ¬ (!a.started) = true := by simp [hs]
  unfold Block.txEnd; rw [ha]; simp only [if_neg hrun]
  generalize hb1 : (b.dutyCorrect a.charge ((b.now - a.rampAt) / 32)).learnLevels r a.centre
    (firstChain a.cmd.ppdu.form) a.levels detector = b1
  generalize hb2 :
    (if b.calOn r 3 then b1.put (Obj.calStatus.of r) (setBit (b1.get (Obj.calStatus.of r)) 3) else b1) = b2
  have h1 : Steady r b b1 := hb1 ▸ (Steady.dutyCorrect b _ _).trans (.learnLevels _ _ _ _ _ _)
  have h2 : Steady r b1 b2 := by
    rw [← hb2]; split
    · exact .put _ _ (deliveredTotal_ne_calStatus r)
    · exact .refl b1
  have hair : (b2.radio r).air = some a := (congrArg (fun e => e.2.2.2) (h1.trans h2).exchange).trans ha
  have hend : Ended r b2 (b2.rampEnd r) := ended_rampEnd ((h1.trans h2).radios.trans hn) hair
  exact ⟨_, (((h1.trans h2).ended hend).steady (.emit _ _)).steady (.emit _ _), rfl⟩

/-! ### A frame sent with no acknowledgement (R112) -/

theorem Block.endCmd_regs (b : Block) (r : Radio) : (b.endCmd r).regs = b.regs := by
  have hcontend (b : Block) (r : Radio) (ac : Nat) : (b.contend r ac).regs = b.regs := by
    unfold Block.contend; split <;> rfl
  have htake (b : Block) (c : TxCmd) : (b.takeCmd r c 3).regs = b.regs := by
    unfold Block.takeCmd; extract_lets b1
    repeat' split
    · rfl
    · rfl
    · rfl
    · exact hcontend b1 r 3
  unfold Block.endCmd; extract_lets b0 b1
  have h1 : b1.regs = b.regs := by
    unfold b1; split
    · unfold Block.goHome; split <;> rfl
    · rfl
  split
  · exact h1
  · exact (htake _ _).trans h1

theorem Block.deliver_counted {fid : Nat} (h : (b.frame? fid).isSome) :
    (b.deliver fid).get Obj.deliveredTotal = Obj.deliveredTotal.raised (b.get Obj.deliveredTotal + 1) := by
  have hdrop : (b.dropFrame fid).get Obj.deliveredTotal = b.get Obj.deliveredTotal :=
    Block.get_put_ne _ _ (by decide)
  obtain ⟨f, hf⟩ := Option.isSome_iff_exists.mp h
  unfold Block.deliver; rw [hf]
  simp only [Block.get_add_same, hdrop]

theorem Block.sentNoAck_delivers {fid : Nat} (h : (b.frame? fid).isSome)
    (hcane : ∀ f ∈ b.frames, f.id = fid → ¬ f.OfCane) (r : Radio) :
    (b.sentNoAck r fid).frame? fid = none ∧
      (b.sentNoAck r fid).get Obj.deliveredTotal = Obj.deliveredTotal.raised (b.get Obj.deliveredTotal + 1) := by
  obtain ⟨f, hf⟩ := Option.isSome_iff_exists.mp h
  obtain ⟨hmem, hid⟩ := Block.of_frame? hf
  unfold Block.sentNoAck; rw [hf]
  simp only [Frame.caneLink_eq_none (hcane f hmem hid), Option.isSome_none, Bool.false_eq_true, if_false]
  split
  · refine ⟨b.frame?_deliver fid, ?_⟩
    unfold Block.showIndirect
    rw [Block.get_put_ne _ _ (by simp [Reg.key, Obj.deliveredTotal, Obj.nbrIndirect]; omega)]
    exact Block.deliver_counted h
  · exact ⟨b.frame?_deliver fid, Block.deliver_counted h⟩

theorem Block.endUnanswered_delivers {c : TxCmd} {fid : Nat} (hwhat : c.what = .frame fid) (h : (b.frame? fid).isSome)
    (hcane : ∀ f ∈ b.frames, f.id = fid → ¬ f.OfCane) (r : Radio) :
    (b.endUnanswered r c).frame? fid = none ∧
      (b.endUnanswered r c).get Obj.deliveredTotal = Obj.deliveredTotal.raised (b.get Obj.deliveredTotal + 1) := by
  have he : b.endUnanswered r c = (b.sentNoAck r fid).endCmd r := by
    simp [Block.endUnanswered, Block.cmdFrames, hwhat]
  obtain ⟨hgone, hcount⟩ := Block.sentNoAck_delivers h hcane r
  rw [he]
  unfold Block.frame? Block.get at *
  rw [Block.endCmd_frames, Block.endCmd_regs]
  exact ⟨hgone, hcount⟩

section
variable {a : OnAir} (ha : (b.radio r).air = some a) (hs : a.started = true) (hn : b.radios.length = 3)
include ha hs hn

/-- A PPDU of the radio's own work ends and leaves its command. -/
theorem Block.txEnd_own (hown : a.own = true) (detector : List Int) :
    ((b.txEnd r detector).radio r).air = none ∧ ((b.txEnd r detector).radio r).phase = (b.radio r).phase ∧
      ((b.txEnd r detector).radio r).cmd = (b.radio r).cmd ∧ (b.txEnd r detector).frames = b.frames := by
  obtain ⟨c, hc, he⟩ := Block.txEnd_eq ha hs hn detector
  obtain ⟨hcmd, hphase, -, hair⟩ := hc.fields
  rw [he, if_pos hown]
  exact ⟨hair, hphase, hcmd, hc.frames⟩

/-- A PPDU that wants an answer ends and awaits it. -/
theorem Block.txEnd_awaits (hown : a.own = false) (hwants : wantsAnswer a.cmd = true) (detector : List Int) :
    ((b.txEnd r detector).radio r).air = none ∧ ((b.txEnd r detector).radio r).phase = .awaiting ∧
      ((b.txEnd r detector).radio r).cmd = (b.radio r).cmd ∧
      ((b.txEnd r detector).radio r).endAt = b.now - 32 * a.ramp.down ∧ (b.txEnd r detector).frames = b.frames := by
  obtain ⟨c, hc, he⟩ := Block.txEnd_eq ha hs hn detector
  have hc' : Ended r b (c.txStatus r 0) := hc.steady (.txStatus c r)
  obtain ⟨hcmd, -, -, hair⟩ := hc'.fields
  rw [he, if_neg (by simp [hown]), if_pos hwants, Block.radio_modRadio_same (hc'.radios.trans hn)]
  exact ⟨hair, rfl, hcmd, rfl, hc'.frames⟩

/-- A frame sent with no acknowledgement is delivered when its PPDU ends. -/
theorem Block.txEnd_delivers {fid : Nat} (hown : a.own = false) (hwhat : a.cmd.what = .frame fid)
    (hnoAck : a.cmd.noAck = true) (hfid : (b.frame? fid).isSome)
    (hcane : ∀ f ∈ b.frames, f.id = fid → ¬ f.OfCane) (detector : List Int) :
    (b.txEnd r detector).frame? fid = none ∧
      (b.txEnd r detector).get Obj.deliveredTotal = Obj.deliveredTotal.raised (b.get Obj.deliveredTotal + 1) := by
  obtain ⟨c, hc, he⟩ := Block.txEnd_eq ha hs hn detector
  have hc' : Ended r b (c.txStatus r 0) := hc.steady (.txStatus c r)
  have hwants : ¬ wantsAnswer a.cmd = true := by simp [wantsAnswer, hwhat, hnoAck]
  rw [he, if_neg (by simp [hown]), if_neg hwants, ← hc'.delivered]
  refine Block.endUnanswered_delivers hwhat ?_ ?_ r
  · unfold Block.frame?; rw [hc'.frames]; exact hfid
  · rw [hc'.frames]; exact hcane

end

/-! ### A commit (R147, R149, R253) -/

theorem Steady.endRx (b : Block) (q : Radio) (m1 : Bool) (status : Nat) : Steady r b (b.endRx q m1 status) := by
  unfold Block.endRx; split
  · exact .refl b
  · refine ((Steady.modRadio b q fun u => ?_).trans (.edgeResult _ q 11 _)).trans (.splitFollow _)
    unfold RadioUnit.setRx; split <;> rfl

theorem Steady.applyBlanks (b : Block) : Steady r b b.applyBlanks := by
  unfold Block.applyBlanks
  refine foldl (fun c x => ?_) _ b
  split
  · refine (Steady.endRx c x.1 x.2 3).trans (.put _ _ ?_)
    cases x.1 <;> decide
  · exact .refl c

/-! The outputs of coexistence through the blanks. -/

theorem Block.event_pins (b : Block) (n bit : Nat) : (b.event n bit).pins = b.pins := by
  unfold Block.event Block.tryWake; extract_lets c m f c1
  repeat' split
  all_goals rfl

theorem Block.endRx_pins (b : Block) (q : Radio) (m1 : Bool) (status : Nat) : (b.endRx q m1 status).pins = b.pins := by
  unfold Block.endRx; split
  · rfl
  · unfold Block.splitFollow Block.edgeResult
    split <;> exact Block.event_pins _ _ _

theorem Block.applyBlanks_pins (b : Block) : b.applyBlanks.pins = b.pins := by
  unfold Block.applyBlanks
  refine Block.foldl_same (g := Block.pins) (fun c x => ?_) _ b
  split
  · exact c.endRx_pins x.1 x.2 3
  · rfl

theorem Block.femDrive_coexOut (b : Block) (q : Radio) (at_ : Nat) :
    (b.femDrive q at_).pins.coexOut = b.pins.coexOut := by
  unfold Block.femDrive; split <;> rfl

/-- The lines that a PPDU raises leave the frames, the gathers and the radio's exchange, and its source blanks. -/
structure Raised (r : Radio) (source : Nat) (b c : Block) : Prop where
  frames : c.frames = b.frames
  gth : c.gth = b.gth
  exchange : (c.radio r).exchange = (b.radio r).exchange
  coexOut : b.pins.coexOut.length = 4 → c.pins.coexOut.getD (radioNum r) false = true
  blanks : source ∈ c.coex.blanks

theorem Block.coexOut_on (hp : b.pins.coexOut.length = 4) (r : Radio) :
    (b.coexOut r true).pins.coexOut.getD (radioNum r) false = true := by
  have hr : radioNum r < b.pins.coexOut.length := hp ▸ (radioNum_lt r).trans (by decide)
  unfold Block.coexOut; split
  · assumption
  · simp [Block.emit, List.getD_eq_getElem?_getD, hr]

theorem Block.mem_blankOn (b : Block) (source : Nat) : source ∈ (b.blankOn source).coex.blanks := by
  unfold Block.blankOn; extract_lets c
  rw [(Steady.applyBlanks (r := .h) _).blanks]
  show source ∈ if c.blanks.contains source then c.blanks else c.blanks ++ [source]
  split
  · simpa using ‹c.blanks.contains source = true›
  · simp

theorem raised_lines (b : Block) (r : Radio) (source at_ : Nat) :
    Raised r source b (((b.coexOut r true).blankOn source).femDrive r at_) := by
  have hout : Steady r b (b.coexOut r true) := .coexOut b r true
  have hfem : Steady r ((b.coexOut r true).blankOn source) _ := .femDrive _ r at_
  generalize hw : b.coexOut r true = w at hout hfem
  have hblank : (w.blankOn source).frames = w.frames ∧ (w.blankOn source).gth = w.gth ∧
      ((w.blankOn source).radio r).exchange = (w.radio r).exchange ∧ (w.blankOn source).pins = w.pins := by
    unfold Block.blankOn; extract_lets c
    have h := Steady.applyBlanks (r := r) { w with coex := {
      blanks := if c.blanks.contains source then c.blanks else c.blanks ++ [source]
      tails := c.tails.filter fun x => x.1 != source
      riseAt := w.now
      before := if c.riseAt = w.now then c.before else w.blankMask } }
    exact ⟨h.frames, h.gth, h.exchange, Block.applyBlanks_pins _⟩
  obtain ⟨hframes, hgth, hexch, hpins⟩ := hblank
  refine ⟨?_, ?_, ?_, fun hp => ?_, ?_⟩
  · rw [hfem.frames, hframes, hout.frames]
  · rw [hfem.gth, hgth, hout.gth]
  · rw [hfem.exchange, hexch, hout.exchange]
  · rw [Block.femDrive_coexOut, hpins, ← hw]
    exact Block.coexOut_on hp r
  · rw [hfem.blanks]
    exact w.mem_blankOn source

/-- What a commit has before it raises the lines. -/
structure Driven (r : Radio) (c : TxCmd) (b d : Block) (a : OnAir) : Prop where
  frames : d.frames = b.frames
  gth : d.gth = b.gth
  pins : d.pins = b.pins
  phase : (d.radio r).phase = .onAir
  air : (d.radio r).air = some a
  cmd : a.cmd = c
  own : a.own = false
  started : a.started = false
  rampAt : a.rampAt = b.now + if c.kind = .immediate then 0 else us (b.get Obj.coexLead)

/-- What driving the front end leaves: it counts a level that was held back. -/
theorem Block.drive_kept (b : Block) (r : Radio) (centre bw : Nat) (power : Int) (first : Nat) :
    (b.drive r centre bw power first).2.frames = b.frames ∧ (b.drive r centre bw power first).2.gth = b.gth ∧
      (b.drive r centre bw power first).2.pins = b.pins ∧ (b.drive r centre bw power first).2.radios = b.radios ∧
      (b.drive r centre bw power first).2.get Obj.coexLead = b.get Obj.coexLead := by
  unfold Block.drive
  extract_lets l b1
  simp only
  split
  · refine ⟨rfl, rfl, rfl, rfl, Block.get_add_ne b1 1 ?_⟩
    cases r <;> decide
  · exact ⟨rfl, rfl, rfl, rfl, rfl⟩

/-- What charging the duty leaves. -/
theorem Block.dutyCharge_kept (b : Block) (r : Radio) (centre bw : Nat) (isAck : Bool) (paOn : Nat) :
    (b.dutyCharge r centre bw isAck paOn).2.frames = b.frames ∧ (b.dutyCharge r centre bw isAck paOn).2.gth = b.gth ∧
      (b.dutyCharge r centre bw isAck paOn).2.pins = b.pins ∧
      (b.dutyCharge r centre bw isAck paOn).2.radios = b.radios := by
  unfold Block.dutyCharge
  extract_lets rows
  have h := Block.foldl_same (f := fun (c : Block) row => c.dutyAdd row b.lifeSec isAck false paOn)
    (g := fun b => (b.frames, b.gth, b.pins, b.radios)) (fun _ _ => rfl) rows b
  simpa using h

/-- A commit of a gather locks it and drives the front end, then raises the lines. -/
theorem Block.commitPpdu_gather {c : TxCmd} {gid : Nat} (hn : b.radios.length = 3) (hwhat : c.what = .gather gid) :
    ∃ d a e, Driven r c (b.modGather gid fun g => { g with state := .locked }) d a ∧
      Raised r (blankSource r c.ppdu.form.format) d e ∧ Steady r e (b.commitPpdu r c) ∧
      (b.commitPpdu r c).pins = e.pins := by
  unfold Block.commitPpdu
  extract_lets f b1 b2 ch d ramp q rampAt air b3 b4
  have hb1 : b1 = b.modGather gid fun g => { g with state := .locked } := by
    unfold b1; rw [hwhat]
  refine ⟨b3, air, b4, ?driven, ?raised, ?steady, ?pins⟩
  case raised => exact raised_lines b3 r _ _
  case steady =>
    clear_value b4
    exact ((Steady.emit b4 _).trans (.emit _ _)).trans (.emit _ _)
  case pins =>
    clear_value b4
    rfl
  case driven =>
    obtain ⟨hdframes, hdgth, hdpins, hdradios, hlead⟩ := b2.drive_kept r ch.1 ch.2 c.power (firstChain f)
    obtain ⟨hqframes, hqgth, hqpins, hqradios⟩ :=
      d.2.dutyCharge_kept r ch.1 ch.2 c.isAck (d.2.paOn r (d.2.airOf c.ppdu) c.kind)
    have hq : q.2.radios.length = 3 := by
      rw [hqradios, hdradios]
      simp [b2, hb1, Block.modGather, hn]
    have hradio : b3.radio r = _ := Block.radio_modRadio_same hq r _
    refine ⟨?_, ?_, ?_, by rw [hradio]; rfl, by rw [hradio], rfl, rfl, rfl, ?_⟩
    · rw [← hb1]; exact hqframes.trans hdframes
    · rw [← hb1]; exact hqgth.trans hdgth
    · rw [← hb1]; exact hqpins.trans hdpins
    · have hget : b2.get Obj.coexLead = b.get Obj.coexLead := by unfold b2; rw [hb1]; rfl
      show b.now + d.2.leadOf c.kind = _
      unfold Block.leadOf
      rw [hlead, hget]
      simp only [beq_iff_eq]
      rfl

end Sys2Proof.Machine
end

section
/-!
The obligation on transmission (O42), from the commands of a radio to the response.
-/

namespace Sys2Proof.Machine

section
variable {b : Block} {r : Radio}

/-! ### Holds and attempts (R112) -/

theorem Block.holdEnd_of_not {q : Nat} (h : ∀ e, assocGet b.fwd.holds q = some e → b.now < e) : b.holdEnd q = b := by
  unfold Block.holdEnd; split
  · next e he => rw [if_neg (by have := h e he; omega)]
  · rfl

theorem Block.holdEnd_of_due {q e : Nat} (h : assocGet b.fwd.holds q = some e) (he : e ≤ b.now) :
    b.holdEnd q = { b with fwd := { b.fwd with holds := assocDel b.fwd.holds q } } := by
  unfold Block.holdEnd; rw [h]; exact if_pos he

theorem Block.attemptFailed_of_more {fid : Nat} {f : Frame} (hf : b.frame? fid = some f)
    (h : f.attempts + 1 < b.get Obj.retryRetryLimit (b.retryRow f.queue)) :
    b.attemptFailed fid = b.modFrame fid fun x => { x with attempts := x.attempts + 1 } := by
  unfold Block.attemptFailed; rw [hf]; exact if_neg (by omega)

theorem Block.attemptFailed_of_last {fid : Nat} {f : Frame} (hf : b.frame? fid = some f)
    (h : b.get Obj.retryRetryLimit (b.retryRow f.queue) ≤ f.attempts + 1) :
    (b.attemptFailed fid).queueHeld f.queue = true ∧
      (b.attemptFailed fid).get Obj.retryExhausted = Obj.retryExhausted.raised (b.get Obj.retryExhausted + 1) := by
  unfold Block.attemptFailed; rw [hf]; simp only [if_pos h]
  exact ⟨by simp [Block.queueHeld], Block.get_add_same _ _ _ _⟩

/-! ### Responses and their absence -/

theorem Block.endExchange_of_none (h : (b.radio r).cmd = none) (acked : List Nat) (answered pending : Bool) :
    b.endExchange r acked answered pending = b := by
  unfold Block.endExchange; simp only [h]

theorem Block.responseReceived_eq (h : r ≠ .l) (acked : List Nat) :
    b.responseReceived r acked [] = b.endExchange r acked true false := by
  unfold Block.responseReceived; rw [if_neg (by simpa using h)]; rfl

theorem Block.responseReceived_of_none (h : (b.radio r).cmd = none) (acked : List Nat) :
    b.responseReceived r acked [] = b := by
  unfold Block.responseReceived; split
  · rfl
  · exact Block.endExchange_of_none h acked true false

theorem Block.responseTimeout_of_none (h : (b.radio r).cmd = none) : b.responseTimeout r [] = b := by
  unfold Block.responseTimeout; extract_lets end_; split
  · rfl
  · exact Block.endExchange_of_none h [] false false

theorem Block.responseTimeout_of_not
    (h : b.now < (b.radio r).answerBy r ∨ b.hearing r ((b.radio r).answerBy r) = true) :
    b.responseTimeout r [] = b := by
  unfold Block.responseTimeout; extract_lets end_
  rw [if_pos]
  rcases h with h | h <;> simp [end_, h]

theorem Block.responseTimeout_of_due (hl : r ≠ .l) (hdue : (b.radio r).answerBy r ≤ b.now)
    (hquiet : b.hearing r ((b.radio r).answerBy r) = false) :
    b.responseTimeout r [] = b.endExchange r [] false false := by
  unfold Block.responseTimeout; extract_lets end_
  have hgo : ¬ (r == .l || decide (b.now < end_) || b.hearing r end_) = true := by
    simp [end_, hl, hquiet, hdue]
  rw [if_neg hgo]; rfl

section
variable {c : TxCmd} {gid : Nat} (hl : r ≠ .l) (hn : b.radios.length = 3) (hcmd : (b.radio r).cmd = some c)
  (hwhat : c.what = .gather gid) (hphase : (b.radio r).phase = .awaiting) (hown : (b.radio r).own = [])
include hl hn hcmd hwhat hphase hown

/-- The response ends the exchange: it delivers what it acknowledges of the gather and leaves the rest. -/
theorem Block.responseReceived_gather (acked : List Nat) :
    ((b.responseReceived r acked []).radio r).phase = .idle ∧ ((b.responseReceived r acked []).radio r).cmd = none ∧
      (∀ fid ∈ b.cmdFrames c, fid ∈ acked → (∀ f ∈ b.frames, f.id = fid → ¬ f.OfCane) →
        (b.responseReceived r acked []).frame? fid = none) ∧
      ∀ f ∈ b.frames, (f.id ∉ acked ∨ f.id ∉ b.cmdFrames c) →
        ∃ g ∈ (b.responseReceived r acked []).frames, g.id = f.id ∧ g.pkt = f.pkt := by
  rw [Block.responseReceived_eq hl, Block.cmdFrames_of_gather hwhat]
  obtain ⟨hidle, hnone, hkept⟩ := endExchange_gather hl hn hcmd hwhat hphase hown acked true false
  have hout := resolves_gatherOutcome hl b gid acked true
  refine ⟨hidle, hnone, fun fid hfid hacked hcane => ?_, fun f hf hid => ?_⟩
  · exact Block.frame?_gone hkept.old (frame?_gatherOutcome hl (Block.mem_ackedOf.mpr ⟨hfid, hacked⟩) hcane true)
  · have hnot : f.id ∉ b.ackedOf gid acked := by
      rw [Block.mem_ackedOf]; tauto
    obtain ⟨g, hg, hfg⟩ := hout.stays f hf hnot
    obtain ⟨x, hx, hgx⟩ := hkept.stays g hg
    exact ⟨x, hx, hgx.id.trans hfg.id, hgx.pkt.trans hfg.pkt⟩

/-- A timeout ends the exchange and loses no frame. -/
theorem Block.responseTimeout_gather (hdue : (b.radio r).answerBy r ≤ b.now)
    (hquiet : b.hearing r ((b.radio r).answerBy r) = false) :
    ((b.responseTimeout r []).radio r).phase = .idle ∧ ((b.responseTimeout r []).radio r).cmd = none ∧
      Claims.sameFrames b (b.responseTimeout r []) := by
  rw [Block.responseTimeout_of_due hl hdue hquiet]
  obtain ⟨hidle, hnone, hkept⟩ := endExchange_gather hl hn hcmd hwhat hphase hown [] false false
  exact ⟨hidle, hnone, ((gatherOutcome_none b r gid false).frames.trans hkept).sameFrames⟩

end

end

theorem Block.commitPpdu_of_gather (w : Block) {c : TxCmd} {gid : Nat} (hn : w.radios.length = 3)
    (hp : w.pins.coexOut.length = 4) (hwhat : c.what = .gather gid) (r : Radio) :
    let x := w.commitPpdu r c
    x.frames = w.frames ∧ x.gth = (w.modGather gid fun g => { g with state := .locked }).gth ∧
      (x.radio r).phase = .onAir ∧ x.pins.coexOut.getD (radioNum r) false = true ∧
      blankSource r c.ppdu.form.format ∈ x.coex.blanks ∧
      ∃ a, (x.radio r).air = some a ∧ a.cmd = c ∧ a.own = false ∧ a.started = false ∧
        a.rampAt = w.now + (if c.kind = .immediate then 0 else us (w.get Obj.coexLead)) := by
  obtain ⟨d, a, e, hd, he, hx, hpins⟩ := Block.commitPpdu_gather (r := r) hn hwhat
  have hexch := hx.exchange.trans he.exchange
  simp only [RadioUnit.exchange, Prod.mk.injEq] at hexch
  obtain ⟨-, hphase, -, hair⟩ := hexch
  intro x
  have hout : x.pins.coexOut.getD (radioNum r) false = true :=
    (congrArg (fun p => p.coexOut.getD (radioNum r) false) hpins).trans (he.coexOut (hd.pins ▸ hp))
  exact ⟨hx.frames.trans (he.frames.trans hd.frames), hx.gth.trans (he.gth.trans hd.gth), hphase.trans hd.phase, hout,
    hx.blanks.symm ▸ he.blanks, a, hair.trans hd.air, hd.cmd, hd.own, hd.started, hd.rampAt⟩

/-! ### The obligation -/

/-- Settles O42: each command by the equation of its effect, and the exchange's end by what the outcome of a gather
leaves. -/
theorem transmissionRunsFromCommandToResponse : Obligations.TransmissionRunsFromCommandToResponse := by
  refine ⟨?radio, ?commit, ?attempt⟩
  case attempt =>
    intro w fid f hfid row
    exact ⟨Block.attemptFailed_of_more hfid, Block.attemptFailed_of_last hfid⟩
  case commit =>
    exact fun w r c gid hn hp hwhat => w.commitPpdu_of_gather hn hp hwhat r
  intro s t r hf b u
  have command {c : TxCmd} {P : Block → Prop} (h : P (b.txCommand r c)) : Takes (.txCommand t r c) s P :=
    .of_at (f := fun b => b.txCommand r c) rfl hf h
  have commits {P : Block → Prop} (h : P (b.txCommit r)) : Takes (.txCommit t r) s P :=
    .of_at (f := fun b => b.txCommit r) rfl hf h
  have first {P : Block → Prop} (h : P (b.firstSample r)) : Takes (.ppduFirstSample t r) s P :=
    .of_at (f := fun b => b.firstSample r) rfl hf h
  have ends {detector : List Int} {P : Block → Prop} (h : P (b.txEnd r detector)) :
      Takes (.ppduTxEnd t r detector) s P := .of_at (f := fun b => b.txEnd r detector) rfl hf h
  have answers {acked : List Nat} {P : Block → Prop} (h : P (b.responseReceived r acked [])) :
      Takes (.responseReceived t r acked []) s P := .of_at (f := fun b => b.responseReceived r acked []) rfl hf h
  have times {P : Block → Prop} (h : P (b.responseTimeout r [])) : Takes (.responseTimeout t r []) s P :=
    .of_at (f := fun b => b.responseTimeout r []) rfl hf h
  have holds {q : Nat} {P : Block → Prop} (h : P (b.holdEnd q)) : Takes (.retryHoldExpiry t q) s P :=
    .of_at (f := fun b => b.holdEnd q) rfl hf h
  refine ⟨fun c h => command (Block.txCommand_of_not h), fun c hon hidle hc hvalid => command ?taken,
    fun h => ⟨commits (Block.txCommit_of_none h), fun acked => answers (Block.responseReceived_of_none h acked),
      times (Block.responseTimeout_of_none h)⟩,
    fun h => ⟨first (Block.firstSample_of_none h), fun detector => ends (Block.txEnd_of_none h detector)⟩,
    fun c hcmd => ?committed, fun a ha => ?aired, fun c gid hcmd hwhat hphase hown hl hn => ?answered,
    fun q h => holds (Block.holdEnd_of_not h), fun q e h he => holds ?held⟩
  case taken => exact Block.txCommand_takes hon hidle hc hvalid
  case held =>
    rw [Block.holdEnd_of_due h he]
    exact ⟨rfl, by simp [Block.queueHeld]⟩
  case answered =>
    exact ⟨fun acked => answers (Block.responseReceived_gather hl hn hcmd hwhat hphase hown acked),
      fun h => times (Block.responseTimeout_of_not h),
      fun hdue hquiet => times (Block.responseTimeout_gather hl hn hcmd hwhat hphase hown hdue hquiet)⟩
  case committed =>
    intro ch st late short loses
    refine ⟨fun hmay => commits (Block.txCommit_of_not_may hcmd hmay),
      fun hmay hvalid => commits (Block.txCommit_of_not_valid hcmd hmay hvalid),
      fun hmay hvalid hloses => commits (Block.txCommit_of_loses hcmd hmay hvalid hloses), fun hmay hvalid hloses => ?_⟩
    have turn := Block.txCommit_of_free hcmd hmay hvalid hloses
    refine ⟨fun hwait => commits ?_, fun hwait hturn => commits ?_, fun hwait hturn => ?_⟩
    · rw [turn, if_pos hwait]
    · simp [turn, hwait, hturn]
    have checked : b.txCommit r = b.checkedCommit r c := by simp [turn, hwait, hturn]
    have passed (hst : st = 0) (hlate : late = []) (hshort : short = []) : b.txCommit r = b.commitPassed r c :=
      checked.trans (Block.checkedCommit_of_passed hst hlate hshort)
    exact ⟨fun hst => commits (checked.trans (Block.checkedCommit_of_status hst)),
      fun hst hlate => commits (checked.trans (Block.checkedCommit_of_late hst hlate)),
      fun hst hlate hshort => commits (by
        rw [checked, Block.checkedCommit_of_short hst hlate hshort]
        exact ⟨rfl, Block.deferCmd_frames _ _ _ _⟩),
      fun gid hst hlate hshort hwhat => commits ((passed hst hlate hshort).trans (Block.commitPassed_gather hwhat)),
      fun k n a hst hlate hshort hwhat => commits ((passed hst hlate hshort).trans (Block.commitPassed_mgmt hwhat)),
      fun k hst hlate hshort hwhat => commits ((passed hst hlate hshort).trans (Block.commitPassed_ctlEnd hwhat)),
      fun fid f hst hlate hshort hwhat hr hfid hctx hpn => commits (by
        subst hr
        exact (passed hst hlate hshort).trans (Block.commitPassed_plain hwhat hfid hctx hpn))⟩
  case aired =>
    refine ⟨fun h => first (Block.firstSample_of_not ha h), fun hs hdue => ?_,
      fun detector hs => ends (Block.txEnd_of_not_started ha hs detector), fun detector hs hn => ?_⟩
    · have out := Block.firstSample_of_due ha hs hdue
      refine ⟨first out, fun gid g hwhat hgather => first ?_, fun fid hwhat => first ?_,
        fun k n q l m l' hwhat hsend hm hother => first ?_⟩
      · rw [out, Block.carriedOnAir_gather _ r hwhat]
        exact gatherOnAir_sent (b := b.sampled r a) hgather r
      · rw [out, Block.carriedOnAir_frame _ r hwhat]
        intro f hmem hid
        obtain ⟨hair, hsent⟩ := aired_frameOnAir (b.sampled r a) r fid f hmem hid
        exact ⟨hair, hsent, lastTx_frameOnAir (b.sampled r a) r f hmem hid⟩
      · rw [out, Block.carriedOnAir_mgmt _ r hwhat]
        exact mgmtOnAir_sent (b := b.sampled r a) hsend hm hother r
    · exact ⟨fun hown => ends (Block.txEnd_own ha hs hn hown detector),
        fun hown hwants => ends (Block.txEnd_awaits ha hs hn hown hwants detector),
        fun fid hown hwhat hnoAck hfid hcane =>
          ends (Block.txEnd_delivers ha hs hn hown hwhat hnoAck hfid hcane detector)⟩

end Sys2Proof.Machine
end

section
/-!
SUPPORT. Counters of authenticated messages (R69): a record of accepted counters, what each further counter leaves of
it, and the statement that none is accepted twice.
-/

namespace Sys2Proof.Machine

theorem testBit_setBit (f i j : Nat) : (setBit f i).testBit j = (f.testBit j || decide (i = j)) := by
  simp [setBit, Nat.testBit_or, Nat.testBit_two_pow]

/-- The 64 values below the highest counter after it has risen by `e`: the old ones move up, and the old highest is
one of them. -/
theorem testBit_risenBelow (below e : Nat) {i : Nat} (hi : i < 63) :
    ((below * 2 + 1) * 2 ^ (min 64 e - 1) % 2 ^ 64).testBit i =
      (decide (min 64 e - 1 ≤ i) && (below * 2 + 1).testBit (i - (min 64 e - 1))) := by
  rw [Nat.testBit_mod_two_pow, Nat.testBit_mul_two_pow]
  simp [show i < 64 by omega]

namespace AuthRec

/-- A record refuses a counter: it is the highest, or below it by 64 or more, or marked. -/
def Spent (x : AuthRec) (c : Nat) : Prop :=
  c ≤ x.highest ∧ ∀ j < 63, x.highest = c + (j + 1) → x.below.testBit j = true

theorem spent_of_far {x : AuthRec} {c : Nat} (h : c + 64 ≤ x.highest) : x.Spent c :=
  ⟨by omega, fun j hj e => by omega⟩

theorem accept_of_spent {x : AuthRec} {c : Nat} (h : x.Spent c) : accept (some x) c = none := by
  obtain ⟨hle, hmarked⟩ := h
  have hrefused : (decide (x.highest - c = 0) || decide (64 ≤ x.highest - c) ||
      bitSet x.below (x.highest - c - 1)) = true := by
    by_cases hnear : x.highest - c = 0 ∨ 64 ≤ x.highest - c
    · simp; tauto
    · simp [bitSet, hmarked (x.highest - c - 1) (by omega) (by omega)]
  simp [accept, Nat.not_lt.mpr hle, hrefused]

/-- A counter that is accepted either is the new highest or is marked below the highest that stays. -/
theorem accept_cases {x y : AuthRec} {c : Nat} (h : accept (some x) c = some y) :
    (x.highest < c ∧
      y = { highest := c, below := (x.below * 2 + 1) * 2 ^ (min 64 (c - x.highest) - 1) % 2 ^ 64 }) ∨
    (c ≤ x.highest ∧ y = { x with below := setBit x.below (x.highest - c - 1) }) := by
  by_cases hc : x.highest < c
  · exact .inl ⟨hc, by simpa [accept, hc] using h.symm⟩
  · simp only [accept, hc, if_false] at h
    split at h
    · cases h
    · exact .inr ⟨by omega, by simpa using h.symm⟩

theorem spent_of_accept {a : Option AuthRec} {y : AuthRec} {c : Nat} (h : accept a c = some y) : y.Spent c := by
  cases a with
  | none =>
    obtain rfl : { highest := c, below := 0 } = y := by simpa [accept] using h
    exact ⟨le_rfl, fun j _ e => by simp only at e; omega⟩
  | some x =>
    obtain ⟨-, rfl⟩ | ⟨hle, rfl⟩ := accept_cases h
    · exact ⟨le_rfl, fun j _ e => by simp only at e; omega⟩
    · refine ⟨hle, fun j _ e => ?_⟩
      simp only at e
      simp [testBit_setBit, e]

/-- What a record refuses it refuses after every further counter. -/
theorem Spent.accept {x y : AuthRec} {c k : Nat} (hc : x.Spent c) (h : accept (some x) k = some y) : y.Spent c := by
  obtain ⟨hle, hmarked⟩ := hc
  obtain ⟨hrise, rfl⟩ | ⟨-, rfl⟩ := accept_cases h
  · refine ⟨by simp only; omega, fun j hj e => ?_⟩
    simp only at e ⊢
    have hstep : min 64 (k - x.highest) - 1 = k - x.highest - 1 := by omega
    rw [testBit_risenBelow _ _ hj, hstep]
    obtain hsame | ⟨i, hi⟩ : x.highest = c ∨ ∃ i, x.highest = c + (i + 1) := by
      by_cases hx : x.highest = c
      · exact .inl hx
      · exact .inr ⟨x.highest - c - 1, by omega⟩
    · simp [show j - (k - x.highest - 1) = 0 by omega]; omega
    · have hbit : (x.below * 2 + 1).testBit (i + 1) = true := by
        rw [Nat.testBit_succ, show (x.below * 2 + 1) / 2 = x.below by omega]
        exact hmarked i (by omega) hi
      rw [show j - (k - x.highest - 1) = i + 1 by omega, hbit]
      simp; omega
  · exact ⟨hle, fun j hj e => by simp [testBit_setBit, hmarked j hj e]⟩

/-- A record after a message with a counter, accepted or not. -/
def after (x : AuthRec) (k : Nat) : AuthRec := (AuthRec.accept (some x) k).getD x

theorem Spent.after {x : AuthRec} {c : Nat} (h : x.Spent c) (k : Nat) : (x.after k).Spent c := by
  unfold AuthRec.after
  cases hk : AuthRec.accept (some x) k with
  | none => exact h
  | some y => exact h.accept hk

end AuthRec

/-- Settles O34, by induction over the later counters: what the record refuses stays refused. -/
theorem noPlaisCounterIsAcceptedTwice : Obligations.NoPlaisCounterIsAcceptedTwice := by
  intro c a a1 later hacc take final
  have hspent : final.Spent c :=
    List.foldlRecOn (motive := fun x => x.Spent c) later take (AuthRec.spent_of_accept hacc) fun x hx k _ => hx.after k
  obtain ⟨hle, -⟩ := id hspent
  exact ⟨AuthRec.accept_of_spent hspent, hle, fun k hk => AuthRec.accept_of_spent (AuthRec.spent_of_far hk)⟩

/-! ### The octets of a console frame (R74) -/

/-- COBS leaves no zero, whatever block is under way. -/
theorem zero_notMem_cobsGo (l : List Octet) :
    ∀ {block : List Octet} (_ : block.length ≤ 253) (_ : 0#8 ∉ block), 0#8 ∉ cobsGo l block := by
  induction l with
  | nil =>
    intro block hb hz
    simpa [cobsGo, hz] using (cobsCode_ne_zero (n := block.length) (by omega)).symm
  | cons o rest ih =>
    intro block hb hz
    by_cases ho : o = 0
    · have hrest := ih (block := []) (by simp) (by simp)
      simpa [cobsGo, ho, hz, hrest] using (cobsCode_ne_zero (n := block.length) (by omega)).symm
    · have hno : o ≠ 0#8 := ho
      by_cases hfull : block.length = 253
      · have hrest := ih (block := []) (by simp) (by simp)
        simp [cobsGo, hno, hno.symm, hfull, hz, hrest]
      · simpa [cobsGo, hno, hfull] using ih (block := block ++ [o]) (by simp; omega) (by simp [hz, hno.symm])

/-- Settles O35: COBS and its CRC lose nothing, and no block of COBS holds a zero. -/
theorem consoleFramesReadBack : Obligations.ConsoleFramesReadBack := by
  intro m
  have hz : 0#8 ∉ cobsEncode (m ++ octetsBE 2 (crc16 m)) := zero_notMem_cobsGo _ (by simp) (by simp)
  refine ⟨consoleMessage_consoleFrame m, by simp [consoleFrame], fun o ho e => hz ?_⟩
  simpa [consoleFrame, e] using ho

end Sys2Proof.Machine
end

section
/-!
SUPPORT. The timers of Plais (R66, R76) and the notices that wait for their acknowledgement (R78), and the statement
about them.
-/

namespace Sys2Proof.Machine

/-! ### Messages that are being assembled (R76) -/

theorem Block.asmOf_dropAsm (b : Block) (src tid : Nat) : (b.dropAsm src tid).asmOf src tid = none :=
  List.find?_eq_none.mpr fun a ha => by
    simpa only [Bool.not_eq_true', Bool.not_eq_true] using (List.mem_filter.mp ha).2

theorem Block.canTimeout_of_due {b : Block} {src tid : Nat} {a : CanAsm} (ha : b.asmOf src tid = some a)
    (hdue : a.start + ms 100 ≤ b.now) : b.canTimeout src tid = (b.dropAsm src tid).add Obj.frameDiscard := by
  simp [Block.canTimeout, ha, hdue, Block.frameDiscard]

theorem Block.canTimeout_of_early {b : Block} {src tid : Nat}
    (h : ∀ a, b.asmOf src tid = some a → b.now < a.start + ms 100) : b.canTimeout src tid = b := by
  unfold Block.canTimeout
  cases ha : b.asmOf src tid with
  | none => rfl
  | some a => exact if_neg (Nat.not_le.mpr (h a ha))

/-! ### The response cache (R66) -/

theorem Block.mem_cacheExpiry {b : Block} {p : Port} {tid : Nat} {c : Cached} :
    c ∈ (b.cacheExpiry p tid).plais.cache ↔ c ∈ b.plais.cache ∧
      (c.src = sourceOf p → c.tid = tid → b.now - c.at_ < secs (b.get Obj.respCacheTime)) := by
  simp only [Block.cacheExpiry, List.mem_filter, Bool.not_eq_true', Bool.and_eq_false_iff, beq_eq_false_iff_ne,
    decide_eq_false_iff_not, Nat.not_le]
  tauto

/-- A response that ages out leaves what the cache holds under any other source or TID. -/
theorem Block.cached_cacheExpiry_ne (b : Block) {p p2 : Port} {tid k : Nat} (h : (sourceOf p2, k) ≠ (sourceOf p, tid)) :
    (b.cacheExpiry p tid).cached p2 k = b.cached p2 k := by
  have hkept : ∀ c : Cached, (c.src == sourceOf p2 && c.tid == k) = true → (c.src == sourceOf p && c.tid == tid) = false := by
    intro c hc
    simp only [Bool.and_eq_true, beq_iff_eq] at hc
    obtain ⟨hsrc, htid⟩ := hc
    simp only [hsrc, htid, Bool.and_eq_false_iff, beq_eq_false_iff_ne]
    exact not_and_or.mp fun e => h (Prod.ext e.1 e.2)
  show List.find? _ (b.plais.cache.filter _) = List.find? _ b.plais.cache
  rw [List.find?_filter]
  congr 1
  funext c
  by_cases hc : (c.src == sourceOf p2 && c.tid == k) = true
  · simp only [hkept c hc, Bool.false_and, Bool.not_false, true_and, Bool.decide_eq_true]
    rfl
  · simp [hc]

/-! ### Queues of notices (R78) -/

theorem Plais.queueOf_dest (p : Plais) (d : Dest) : (p.queueOf d).dest = d := by
  unfold Plais.queueOf
  cases h : p.queues.find? fun q => q.dest == d with
  | none => rfl
  | some q => simpa using List.find?_some h

theorem find?_map_replaced {l : List NoticeQueue} {q : NoticeQueue} (h : (l.any fun x => x.dest == q.dest) = true) :
    (l.map fun x => if x.dest == q.dest then q else x).find? (fun x => x.dest == q.dest) = some q := by
  induction l with
  | nil => simp at h
  | cons x rest ih =>
    by_cases hx : x.dest = q.dest
    · simp [hx]
    · simpa [hx] using ih (by simpa [hx] using h)

/-- A queue that was replaced is the one its destination has. -/
theorem Plais.queueOf_setQueue (p : Plais) (q : NoticeQueue) : (p.setQueue q).queueOf q.dest = q := by
  unfold Plais.setQueue Plais.queueOf
  split
  · rename_i h
    rw [find?_map_replaced h]
    rfl
  · rename_i h
    have hnone : p.queues.find? (fun x => x.dest == q.dest) = none := by simpa using h
    simp [List.find?_append, hnone]

/-- An acknowledgement takes from its destination's queue what was sent at or before its SEQ, and nothing else. -/
theorem Block.queue_noticeAck (b : Block) (d : Dest) (seq : Nat) :
    ((b.noticeAck d seq).plais.queueOf d).queue = (b.plais.queueOf d).queue.filter fun n =>
      !(n.sentAt.isSome && seqAtOrBefore n.seq seq) := by
  unfold Block.noticeAck; extract_lets q left
  split
  · rename_i h; exact (List.length_filter_eq_length_iff.mp h |> List.filter_eq_self.mpr).symm
  · have hq := b.plais.queueOf_setQueue { q with queue := left }
    have hdest : ({ q with queue := left } : NoticeQueue).dest = d := b.plais.queueOf_dest d
    exact congrArg NoticeQueue.queue ((congrArg _ hdest.symm).trans hq)

theorem Block.noticeRetry_of_none {b : Block} {d : Dest} (h : ∀ n ∈ (b.plais.queueOf d).queue, n.sentAt = none) :
    b.noticeRetry d = b := by
  have hnone : (b.plais.queueOf d).queue.find? (fun n => n.sentAt.isSome) = none :=
    List.find?_eq_none.mpr fun n hn => by simp [h n hn]
  simp [Block.noticeRetry, hnone]

section
variable {b : Block} {d : Dest} {n : Notice} {w : Nat} {to_ : Reply}
  (hn : (b.plais.queueOf d).queue.find? (fun n => n.sentAt.isSome) = some n) (hw : n.sentAt = some w)
  (hto : b.noticeReply d = some to_)
include hn hw hto

theorem Block.noticeRetry_of_due (hdue : w + ms (b.get Obj.noticeRetry) ≤ b.now) :
    b.noticeRetry d = (b.modNotice d n.seq fun y => { y with sentAt := some b.now }).sendNotice d to_ n := by
  simp [Block.noticeRetry, hn, hto, hw, Block.retryDue, hdue]

theorem Block.noticeRetry_of_early (hearly : b.now < w + ms (b.get Obj.noticeRetry)) : b.noticeRetry d = b := by
  simp [Block.noticeRetry, hn, hto, hw, Block.retryDue, Nat.not_le.mpr hearly]

end

/-- Settles O33: each timer by the block it leaves when it is due and when it is not, an acknowledgement by the queue
it leaves. -/
theorem plaisTimersAndNoticeAcknowledgements : Obligations.PlaisTimersAndNoticeAcknowledgements := by
  intro s t p d hf hp b q life
  have retries {P : Block → Prop} (h : P (b.noticeRetry d)) : Takes (.noticeRetryExpiry t p) s P :=
    .of_at (f := fun b => b.noticeRetry d) (by show execNoticeRetryExpiry t p s = _; simp [execNoticeRetryExpiry, hp]) hf h
  have acks {P : Block → Prop} {seq : Nat} (h : P (b.noticeAck d seq)) : Takes (.noticeAckReceived t p seq) s P :=
    .of_at (f := fun b => b.noticeAck d seq) (by show execNoticeAckReceived t p seq s = _; simp [execNoticeAckReceived, hp]) hf h
  refine ⟨fun src tid a ha hdue => .of_at (f := fun b => b.canTimeout src tid) rfl hf ?timeout,
    fun src tid hearly => .of_at (f := fun b => b.canTimeout src tid) rfl hf (Block.canTimeout_of_early hearly),
    fun tid => .of_at (f := fun b => b.cacheExpiry p tid) rfl hf ⟨?aged, ?fresh, fun p2 k h => b.cached_cacheExpiry_ne h⟩,
    fun hnone => retries (Block.noticeRetry_of_none hnone),
    fun n w to_ hn hw hto => ⟨fun hdue => retries (Block.noticeRetry_of_due hn hw hto hdue),
      fun hearly => retries (Block.noticeRetry_of_early hn hw hto hearly)⟩,
    fun seq => acks ?acked⟩
  case timeout =>
    rw [Block.canTimeout_of_due ha hdue]
    exact ⟨b.asmOf_dropAsm src tid, Block.get_add_same _ _ _ _⟩
  case aged => exact fun c hc => (Block.mem_cacheExpiry.mp hc).2
  case fresh => exact fun c hc hlife => Block.mem_cacheExpiry.mpr ⟨hc, fun _ _ => hlife⟩
  case acked =>
    rw [Block.queue_noticeAck]
    refine List.filter_congr fun n _ => ?_
    rw [Bool.eq_iff_iff]
    cases n.sentAt with
    | none => simp
    | some w => simp [seqAtOrBefore]

end Sys2Proof.Machine
end

section
/-!
SUPPORT. The checks of a write (R44) as a list of steps of which the first that fails gives the result, and the
statement about their order.
-/

namespace Sys2Proof.Machine

/-- What a list of checks answers: the first result that is not 0, else what passed. -/
def firstFault {α : Type} (codes : List Nat) (a : α) : Except Nat α :=
  match codes.find? (· ≠ 0) with
  | some e => .error e
  | none => .ok a

section
variable {α : Type} (a : α)

@[simp] theorem firstFault_nil : firstFault [] a = .ok a := rfl

theorem firstFault_cons (c : Nat) (codes : List Nat) :
    firstFault (c :: codes) a = if c = 0 then firstFault codes a else .error c := by
  by_cases h : c = 0 <;> simp [firstFault, h]

/-- A step that answers as two in a row, the second where the first answers 0, stands for the two. -/
theorem firstFault_split {c d e : Nat} (h : c = if d = 0 then e else d) (before after : List Nat) :
    firstFault (before ++ c :: after) a = firstFault (before ++ d :: e :: after) a := by
  induction before with
  | nil => subst h; by_cases hd : d = 0 <;> simp [firstFault_cons, hd]
  | cons x rest ih => simp only [List.cons_append, firstFault_cons, ih]

end

theorem Block.find_of_noObject {b : Block} {idx : Nat} (h : b.regsAt idx = []) (sub : Nat) :
    b.find idx sub = .error (if otherRadio idx then 2 else 1) := by
  simp [Block.find, h]

theorem Block.find_of_noSub {b : Block} {idx sub : Nat} (h : b.regsAt idx ≠ []) (hsub : sub ≠ 0)
    (hnone : ∀ r ∈ b.regsAt idx, r.sub ≠ sub) : b.find idx sub = .error 2 := by
  have hfind : (b.regsAt idx).find? (fun r => r.sub == sub) = none := by simpa using hnone
  unfold Block.find
  split
  · rename_i h0; exact absurd h0 h
  · simp [hsub, hfind]

section
variable {b : Block} (hentry : b.mode.entry = none) (hrec : b.recovery = false)
include hentry hrec

theorem Block.checkWrite_of_notFound {idx sub e : Nat} (h : b.find idx sub = .error e) (p : Port) (row len v : Nat) :
    b.checkWrite p idx sub row len v = .error e := by
  simp [Block.checkWrite, Block.checkAccess, hentry, hrec, h]

/-- An object that is found is written where none of steps 3 to 10 of R44 fails; the first that does answers. -/
theorem Block.checkWrite_of_found {idx sub : Nat} {r : Reg} (h : b.find idx sub = .ok r) (halarm : r.idx ≠ 0x6500)
    (p : Port) (row len v : Nat) :
    let k := b.rowFor p row
    let place := if r.loc then portRow p r else if b.rowsOf r = 0 then 0 else k
    b.checkWrite p idx sub row len v = firstFault
      [if b.rowsOf r ≠ 0 ∧ b.rowsOf r ≤ k then 11 else 0, if b.domainOn (ownerOf idx sub) then 0 else 10,
        b.rightCode p r place true, if b.linkPermits p idx true then 0 else 14, b.tierCode r, r.valueCode len v]
      (r, place) := by
  intro k place
  have hrow : noSuchRow r k = false := by simp [noSuchRow, halarm]
  have haccess : b.checkAccess p idx sub row true =
      if b.rowsOf r ≠ 0 ∧ b.rowsOf r ≤ k then .error 11 else if b.domainOn (ownerOf idx sub) = false then .error 10
      else if b.rightCode p r place true ≠ 0 then .error (b.rightCode p r place true)
      else if b.linkPermits p idx true = false then .error 14
      else if b.tierCode r ≠ 0 then .error (b.tierCode r) else .ok (r, place) := by
    simp [Block.checkAccess, hentry, hrec, h, hrow, k, place]
  rw [Block.checkWrite, haccess]
  by_cases hbeyond : b.rowsOf r ≠ 0 ∧ b.rowsOf r ≤ k
  · simp [firstFault_cons, hbeyond]
  by_cases hon : b.domainOn (ownerOf idx sub) = false
  · simp [firstFault_cons, hbeyond, hon]
  by_cases hright : b.rightCode p r place true ≠ 0
  · simp [firstFault_cons, hbeyond, hon, hright]
  by_cases hlink : b.linkPermits p idx true = false
  · simp [firstFault_cons, hbeyond, hon, hright, hlink]
  by_cases htier : b.tierCode r ≠ 0
  · simp [firstFault_cons, hbeyond, hon, hright, hlink, htier]
  simp [firstFault_cons, hbeyond, hon, not_not.mp hright, hlink, not_not.mp htier]

end

/-- The window and the jumper and mode are steps 7 and 8 (R44, R45). -/
theorem Block.tierCode_steps {b : Block} (htier : b.plais.tier = none) (r : Reg) :
    b.tierCode r =
      (let window := if r.acc ∈ [Access.rwp1, .rwp2, .wop2] ∧ b.window = none then 7 else 0
       if window = 0 then
         (if r.acc ∈ [Access.rwp2, .wop2] ∧ ¬ (b.pins.maintFitted ∧ b.mode.mode = .maintenance) then 8 else 0)
       else window) := by
  have hheld : b.tierHeld = if b.window = none then 0 else
      if b.pins.maintFitted ∧ b.mode.mode = .maintenance then 2 else 1 := by
    simp [Block.tierHeld, htier, Block.tierNow, Block.windowNow]
  simp only [Block.tierCode, hheld]
  cases r.acc <;> by_cases hw : b.window = none <;>
    by_cases hm : b.pins.maintFitted ∧ b.mode.mode = .maintenance <;> simp [hw, hm]

/-- The length and the range are steps 9 and 10 (R44). -/
theorem Reg.valueCode_steps (r : Reg) (len v : Nat) :
    r.valueCode len v =
      (let length := if len = r.size then 0 else 5
       if length = 0 then (if r.inRange v then 0 else 6) else length) := by
  by_cases hlen : len = r.size <;> by_cases hv : r.inRange v <;> simp [Reg.valueCode, hlen, hv]

/-- Settles O30: an object not found by its absence, one found by the steps behind it. -/
theorem checksComeInOrderAndTheFirstThatFailsDecides : Obligations.ChecksComeInOrderAndTheFirstThatFailsDecides := by
  intro w p idx sub row len v hentry hrec htier
  refine ⟨fun h => Block.checkWrite_of_notFound hentry hrec (Block.find_of_noObject h sub) p row len v,
    fun h hsub hnone => Block.checkWrite_of_notFound hentry hrec (Block.find_of_noSub h hsub hnone) p row len v, ?_⟩
  intro r hfind halarm k place shutCan codes
  have hright : w.rightCode p r place true =
      if r.acc = .ro ∨ w.closedTo p r place ∨ shutCan then 3 else if r.acc = .w1 ∧ r.key place ∈ w.regs.used then 12 else 0 := by
    simp [Block.rightCode, shutCan, Block.is, or_assoc]
  let before (right : Nat) : List Nat := [if w.rowsOf r ≠ 0 ∧ w.rowsOf r ≤ k then 11 else 0,
    if w.domainOn (ownerOf idx sub) then 0 else 10, right, if w.linkPermits p idx true then 0 else 14]
  have hfound : w.checkWrite p idx sub row len v =
      firstFault (before (w.rightCode p r place true) ++ [w.tierCode r, r.valueCode len v]) (r, place) :=
    Block.checkWrite_of_found hentry hrec hfind halarm p row len v
  rw [hright] at hfound
  exact hfound.trans ((firstFault_split (r, place) (Block.tierCode_steps htier r) (before _) [r.valueCode len v]).trans
    (firstFault_split (r, place) (r.valueCode_steps len v) (before _ ++ [_, _]) []))

end Sys2Proof.Machine
end

section
/-!
SUPPORT. A command that is one write by a port (R44, R57): what a write that the checks pass is told of its object, and
what the command then takes.
-/

namespace Sys2Proof.Machine

/-! ### The object found (R41, R44) -/

theorem radioOfIdx_le {idx : Nat} (h : 0x2000 ≤ idx) : 0x400 * radioOfIdx idx ≤ idx := by
  unfold radioOfIdx; omega

theorem page70_idx {r : Reg} (h : r ∈ Obj.page70) : r.idx = 0x7000 := by
  revert r; decide

theorem page72_idx {r : Reg} (h : r ∈ Obj.page72) : r.idx = 0x7200 := by
  revert r; decide

theorem custRegs_idx {r : Reg} (h : r ∈ custRegs) : r.idx = 0x1022 := by
  obtain ⟨_, -, rfl⟩ := List.mem_map.mp h
  rfl

/-- The objects of the device at an index carry that index. -/
theorem deviceRegs_idx {idx : Nat} {r : Reg} (h : r ∈ deviceRegs idx) : r.idx = idx := by
  unfold deviceRegs at h
  split at h
  · rename_i hradio
    simp only [Bool.and_eq_true, decide_eq_true_eq] at hradio
    obtain ⟨hlo, -⟩ := hradio
    have hle := radioOfIdx_le hlo
    have hshared : ∀ l : List Reg, r ∈ (l.filter fun r => r.idx == idx - 0x400 * radioOfIdx idx &&
        bitSet r.radios (radioOfIdx idx)).map (fun r => r.onRadio (radioOfIdx idx)) → r.idx = idx := by
      intro l hl
      obtain ⟨q, hq, rfl⟩ := List.mem_map.mp hl
      have hidx : q.idx = idx - 0x400 * radioOfIdx idx := by
        have hq2 := (List.mem_filter.mp hq).2
        simp only [Bool.and_eq_true, beq_iff_eq] at hq2
        exact hq2.1
      show q.idx + 0x400 * radioOfIdx idx = idx
      omega
    dsimp only at h
    split at h
    · exact hshared _ h
    · rcases List.mem_append.mp h with h | h
      · exact hshared _ h
      · simpa using (List.mem_filter.mp h).2
  · split at h
    · rename_i heng
      simp only [Bool.and_eq_true, decide_eq_true_eq] at heng
      split at h
      · rename_i hmod
        simp only [Bool.and_eq_true, decide_eq_true_eq] at hmod
        obtain ⟨q, hq, rfl⟩ := List.mem_map.mp h
        have := page70_idx hq
        show q.idx + 0x10 * _ = idx
        omega
      · simp at h
    · split at h
      · rename_i heng
        simp only [Bool.and_eq_true, decide_eq_true_eq] at heng
        split at h
        · rename_i hmod
          simp only [Bool.and_eq_true, decide_eq_true_eq] at hmod
          obtain ⟨q, hq, rfl⟩ := List.mem_map.mp h
          have := page72_idx hq
          show q.idx + 0x10 * _ = idx
          omega
        · simp at h
      · split at h
        · rename_i hcust
          exact (custRegs_idx h).trans hcust.symm
        · simpa using (List.mem_filter.mp h).2

theorem Block.regsAt_idx {b : Block} {idx : Nat} {r : Reg} (h : r ∈ b.regsAt idx) : r.idx = idx := by
  unfold Block.regsAt at h
  split at h
  · simpa using (List.mem_filter.mp h).2
  · exact deviceRegs_idx h

/-- An object is found at its own index and subindex. -/
theorem Block.find_ok {b : Block} {idx sub : Nat} {r : Reg} (h : b.find idx sub = .ok r) : r.idx = idx ∧ r.sub = sub := by
  unfold Block.find at h
  split at h
  · cases h
  · split at h
    · rename_i hsub
      cases h
      exact ⟨rfl, hsub.symm⟩
    · split at h
      · rename_i hfind
        cases h
        exact ⟨b.regsAt_idx (List.mem_of_find?_eq_some hfind), by simpa using List.find?_some hfind⟩
      · cases h

/-- What passes steps 1 to 8 of R44 is the object found, at the port's own row, the only one or the one named. -/
theorem Block.checkAccess_ok {b : Block} {p : Port} {idx sub row : Nat} {wr : Bool} {r : Reg} {k : Nat}
    (h : b.checkAccess p idx sub row wr = .ok (r, k)) :
    b.find idx sub = .ok r ∧ k = if r.loc then portRow p r else if b.rowsOf r = 0 then 0 else b.rowFor p row := by
  unfold Block.checkAccess at h
  split at h
  · cases h
  split at h
  · cases h
  split at h
  · cases h
  · rename_i hfind
    extract_lets rows w at_ rc tc at h
    iterate 6
      split at h
      · cases h
    simp only [Except.ok.injEq, Prod.mk.injEq] at h
    obtain ⟨rfl, hk⟩ := h
    exact ⟨hfind, hk.symm⟩

theorem Block.checkWrite_ok {b : Block} {p : Port} {idx sub row len v : Nat} {r : Reg} {k : Nat}
    (h : b.checkWrite p idx sub row len v = .ok (r, k)) :
    b.find idx sub = .ok r ∧ k = if r.loc then portRow p r else if b.rowsOf r = 0 then 0 else b.rowFor p row := by
  unfold Block.checkWrite at h
  split at h
  · cases h
  · rename_i haccess
    dsimp only at h
    split at h
    · cases h; exact Block.checkAccess_ok haccess
    · cases h

/-! ### The write -/

/-- A write other than REGION_COMMIT's begins none. -/
theorem Block.beginCommit_none {b : Block} {idx sub : Nat} (h : ¬ (idx = 0x2C00 ∧ sub = 6)) (p : Port) (row len v : Nat) :
    b.beginCommit p idx sub row len v = none := by
  simp [Block.beginCommit, h]

section
variable {s : State} {p : Port} {idx sub row len v : Nat} {act : Act}

theorem State.portWrite_of_closed (h : s.blk.portOpen p = false) : s.portWrite p idx sub row len v act = s := by
  simp [State.portWrite, h]

theorem State.portWrite_of_busy (ho : s.blk.portOpen p = true) (hi : s.blk.pointIdle = false) :
    s.portWrite p idx sub row len v act =
      { s with blk := s.blk.enqueueAsk (s.blk.waitOf p (.write idx sub row len v act)) } := by
  simp [State.portWrite, ho, hi]

theorem State.writeVia_of_refused {e : Nat} (h : s.blk.checkWrite p idx sub row len v = .error e) :
    s.writeVia p idx sub row len v act =
      (e, { s with blk := (s.blk.account p e).stepCursor p idx sub row }) := by
  simp [State.writeVia, h]

theorem State.writeVia_of_passed {r : Reg} {k : Nat} (h : s.blk.checkWrite p idx sub row len v = .ok (r, k)) :
    s.writeVia p idx sub row len v act =
      (let d := s.actWrite p v act r k
       (d.1, { d.2 with blk := ((if d.1 = 0 then d.2.blk.markUsed r k else d.2.blk).account p d.1).stepCursor p idx sub row })) := by
  simp only [State.writeVia, h]
  by_cases hd : (s.actWrite p v act r k).1 = 0 <;> simp [hd]

variable (hbegin : ¬ (idx = 0x2C00 ∧ sub = 6))
include hbegin

theorem State.takeWrite_of_refused {e : Nat} (h : s.blk.checkWrite p idx sub row len v = .error e) :
    s.takeWrite p idx sub row len v act =
      { s with blk := ((s.blk.account p e).stepCursor p idx sub row).answer p act e 0 } := by
  simp [State.takeWrite, Block.beginCommit_none hbegin, State.writeVia_of_refused h]

theorem State.takeWrite_of_passed {r : Reg} {k : Nat} (h : s.blk.checkWrite p idx sub row len v = .ok (r, k)) :
    s.takeWrite p idx sub row len v act =
      (let d := s.actWrite p v act r k
       { d.2 with blk := (((if d.1 = 0 then d.2.blk.markUsed r k else d.2.blk).account p d.1).stepCursor p idx sub
          row).answer p act d.1 0 }) := by
  simp [State.takeWrite, Block.beginCommit_none hbegin, State.writeVia_of_passed h]

theorem State.portWrite_of_refused {e : Nat} (ho : s.blk.portOpen p = true) (hi : s.blk.pointIdle = true)
    (ha : act ≠ .window) (h : s.blk.checkWrite p idx sub row len v = .error e) :
    s.portWrite p idx sub row len v act = { s with blk := s.blk.answered p idx sub row e 0 } := by
  simp [State.portWrite, ho, hi, State.takeWrite_of_refused hbegin h, Block.answer, ha, Block.answered]

theorem State.portWrite_of_passed {r : Reg} {k : Nat} (ho : s.blk.portOpen p = true) (hi : s.blk.pointIdle = true)
    (ha : act ≠ .window) (h : s.blk.checkWrite p idx sub row len v = .ok (r, k)) :
    s.portWrite p idx sub row len v act =
      (let d := s.actWrite p v act r k
       { d.2 with blk := (if d.1 = 0 then d.2.blk.markUsed r k else d.2.blk).answered p idx sub row d.1 0 }) := by
  simp [State.portWrite, ho, hi, State.takeWrite_of_passed hbegin h, Block.answer, ha, Block.answered]

end

/-- A command that is one write by a port takes what R44 and R57 say of a write, where what its act does to the object
found is a change of the block alone. -/
theorem Writes.of_portWrite {c : Instr} {s : State} {t : Nat} {p : Port} {idx sub row len v : Nat}
    {f : Block → Reg → Nat → Nat × Block} {act : Act}
    (he : exec c s = s.atAll t fun x => x.portWrite p idx sub row len v act) (hbegin : ¬ (idx = 0x2C00 ∧ sub = 6))
    (ha : act ≠ .window)
    (hact : ∀ (x : State) (r : Reg) (k : Nat), x.blk.checkWrite p idx sub row len v = .ok (r, k) →
      x.actWrite p v act r k = x.lift (f x.blk r k)) :
    Writes c s t p idx sub row len v f act := by
  rintro hf b rfl
  refine ⟨fun ho => .of_atAll he hf (State.portWrite_of_closed ho), fun ho hi => .of_atAll he hf (State.portWrite_of_busy ho hi),
    fun ho hi => ⟨fun e h => .of_atAll he hf (State.portWrite_of_refused hbegin ho hi ha h), fun r k h => .of_atAll he hf ?_⟩⟩
  rw [State.portWrite_of_passed hbegin ho hi ha h, hact _ r k h]
  rfl

end Sys2Proof.Machine
end

section
/-!
SUPPORT. Requests of a mode (R60, R86, R87): what the moves, drains and entries that they make leave in the mode, and
the statement about them.
-/

namespace Sys2Proof.Machine

/-! ### What leaves the mode -/

theorem Block.foldl_mode {α : Type} {f : Block → α → Block} (h : ∀ b x, (f b x).mode = b.mode) (l : List α) (b : Block) :
    (l.foldl f b).mode = b.mode :=
  List.foldlRecOn (motive := fun c => c.mode = b.mode) l f rfl fun c hc x _ => (h c x).trans hc

theorem Block.remelt_mode (b : Block) (code : Nat) (sel : Gather → Bool) : (b.remelt code sel).mode = b.mode :=
  (congrArg Block.mode (Remelts.remelt b code sel).rest :)

theorem Block.updateLink_mode (b : Block) (k : Nat) : (b.updateLink k).mode = b.mode := by
  unfold Block.updateLink
  extract_lets old ups new b1
  have h1 : b1.mode = b.mode := rfl
  split
  · rw [Block.notice_mode, h1]
  · split
    · rw [Block.notice_mode, h1]
    · exact h1

theorem Block.handOn_mode (b : Block) (x : Radio) (fid : Nat) : (b.handOn x fid).mode = b.mode := by
  unfold Block.handOn Block.freeGathers; rfl

theorem Block.failStrand_mode (b : Block) (k : Nat) (x : Radio) (cause after : Nat) :
    (b.failStrand k x cause after).mode = b.mode := by
  unfold Block.failStrand
  split
  · extract_lets b1 ids b2 b3
    have h1 : b1.mode = b.mode := b.remelt_mode 6 _
    have h2 : b2.mode = b1.mode := by
      refine Block.foldl_mode ?_ _ b1
      exact fun c i => c.handOn_mode x i
    have h3 : b3.mode = b2.mode := rfl
    rw [Block.updateLink_mode, Block.notice_mode, h3, h2, h1]
  · split
    · exact Block.updateLink_mode _ k
    · rfl

theorem Block.configStrands_mode (b : Block) (k : Nat) : (b.configStrands k).mode = b.mode := by
  unfold Block.configStrands
  rw [Block.updateLink_mode]
  refine Block.foldl_mode (fun c x => ?_) _ b
  split
  · split <;> rfl
  · split
    · exact c.failStrand_mode k x 0 0
    · rfl

theorem Block.linksUp_mode (b : Block) : b.linksUp.mode = b.mode := by
  refine Block.foldl_mode (fun c k => ?_) _ b
  split
  · exact c.configStrands_mode k
  · rfl

theorem Block.entered_mode (b : Block) (left new : Mode) (cause : Nat) :
    (b.entered left new cause).mode.mode = new ∧ (b.entered left new cause).mode.trans = .none := by
  unfold Block.entered; dsimp only
  split
  · exact ⟨rfl, rfl⟩
  · simp [Block.abandonSummary, Block.openAcceptance]

/-- A move ends in its target, with no transition under way. -/
theorem Block.moveTo_mode (b : Block) (target : Mode) (cause : Nat) :
    (b.moveTo target cause).mode.mode = target ∧ (b.moveTo target cause).mode.trans = .none := by
  unfold Block.moveTo
  extract_lets left a z b1 b2 m b3 b4 b5 b6
  have h6 : b6.mode = b5.mode := by
    unfold b6; split
    · exact b5.linksUp_mode
    · rfl
  have hend : (if z = .dayWatch && a ≠ .dayWatch then b6.dayBegin else b6).mode = b6.mode := by
    split <;> rfl
  rw [hend, h6]
  exact b4.entered_mode left target cause

/-- A drain that starts leaves the mode and what is accepted, and is what it is told. -/
theorem Block.drainStart_mode (b : Block) (dawn : Bool) (target : Mode) (deadline cause : Nat) :
    (b.drainStart dawn target deadline cause).mode = { b.mode with
      trans := .draining, target := target, drain := some { dawn, target, start := b.now, deadline, cause }
      lastActivity := b.now } := by
  unfold Block.drainStart
  extract_lets d m b1 t b2 close b3
  have h3 : b3.mode = b2.mode := by
    unfold b3; split
    · refine Block.foldl_mode ?_ _ b2
      exact fun c k => rfl
    · rfl
  refine (Block.foldl_mode ?_ _ b3).trans ?_
  · exact fun c row => rfl
  · rw [h3, Block.notice_mode]
    rfl

theorem Block.modeShift_mode (b : Block) (new : Mode) (cause : Nat) : (b.modeShift new cause).mode.mode = new := by
  unfold Block.modeShift; dsimp only
  split
  · assumption
  · simp [Block.abandonSummary]

theorem Block.drainAims_mode (b : Block) (f : Mode → Mode) : (b.drainAims f).mode.mode = b.mode.mode := by
  unfold Block.drainAims; split <;> rfl

/-- Maintenance is left for the base mode, Full and Degraded Service as the fences say. -/
theorem Block.leaveMaint_mode (b : Block) (cause : Nat) :
    (b.leaveMaint cause).mode.mode =
      if Mode.ofNum (b.get Obj.maintBase) = .degraded then b.serviceTarget .fullService else Mode.ofNum (b.get Obj.maintBase) := by
  unfold Block.leaveMaint; dsimp only
  rw [Block.drainAims_mode, Block.modeShift_mode]

/-! ### What a request does (R86, R87) -/

/-- The move, drain or entry that a request of a mode makes outside Maintenance. -/
def Block.requested (b : Block) (v : Nat) : Block :=
  let t := b.serviceTarget (Mode.ofNum v)
  if b.mode.mode.mains then
    if v ≤ 3 then b.drainStart true t (b.now + secs (b.get Obj.drainLead)) 0
    else if v = 4 then b.drainStart false t (b.now + secs (b.get Obj.drainLead)) 0
    else b.moveTo t 0
  else if v ≤ 3 then b.leaveFor t 0
  else b.goTo t 0

section
variable {b : Block} {v : Nat}

theorem Block.requestMode_of_degraded (h : ¬ (b.mode.mode = .maintenance ∧ b.get Obj.maintBase = 6)) :
    b.requestMode 6 = (6, b) := by
  simp only [Block.requestMode]
  rw [if_pos]
  simpa [-not_and, not_and_or] using h

/-- In Maintenance whose base is Degraded Service, 6 leaves it (R87). -/
theorem Block.requestMode_of_degradedBase (ht : b.mode.trans = .none) (hm : b.mode.mode = .maintenance)
    (hbase : b.get Obj.maintBase = 6) : b.requestMode 6 = (0, (b.leaveMaint 0).put Obj.modeRequest 6) := by
  simp [Block.requestMode, ht, hm, hbase, Mode.num]

variable (hlo : 1 ≤ v) (hhi : v ≤ 5)
include hlo hhi

/-- Values 1 to 5 are modes that may be requested. -/
theorem requestRange : (v = 0 || decide (6 < v) || (v = 6 && !(b.mode.mode == .maintenance && b.get Obj.maintBase == 6))) = false := by
  simp; omega

theorem Block.requestMode_of_transition (ht : b.mode.trans ≠ .none) (hne : v ≠ b.mode.target.num)
    (hdeg : ¬ (v = 5 ∧ b.mode.target = .degraded)) : b.requestMode v = (9, b) := by
  simp only [Block.requestMode, requestRange hlo hhi]
  simp [ht, hne, hdeg]

variable (ht : b.mode.trans = .none)
include ht

theorem Block.requestMode_of_same (h : v = b.mode.mode.num) : b.requestMode v = (0, b.put Obj.modeRequest v) := by
  simp only [Block.requestMode, requestRange hlo hhi]
  simp [ht, h]

/-- In Maintenance its base mode alone may be requested (R87). -/
theorem Block.requestMode_of_maintenance (hm : b.mode.mode = .maintenance) :
    b.requestMode v =
      if v = b.get Obj.maintBase then (0, (b.leaveMaint 0).put Obj.modeRequest v) else (9, b) := by
  have hne : v ≠ Mode.maintenance.num := by simp [Mode.num]; omega
  simp only [Block.requestMode, requestRange hlo hhi]
  simp [ht, hm, hne]

theorem Block.requestMode_of_unpowered (hv : 4 ≤ v) (hm : b.mode.mode = .dayWatch ∨ b.mode.mode = .fieldOnly)
    (hp : b.pins.pwrOk = false) : b.requestMode v = (9, b) := by
  have hne : v ≠ b.mode.mode.num := by rcases hm with hm | hm <;> rw [hm] <;> simp [Mode.num] <;> omega
  have hmaint : b.mode.mode ≠ .maintenance := by rcases hm with hm | hm <;> simp [hm]
  have hdeg : b.mode.mode ≠ .degraded := by rcases hm with hm | hm <;> simp [hm]
  simp only [Block.requestMode, requestRange hlo hhi]
  simp [ht, hne, hmaint, hdeg, hv, hp]

/-- Any other request that has what it needs is met. -/
theorem Block.requestMode_of_free (hne : v ≠ b.mode.mode.num) (hmaint : b.mode.mode ≠ .maintenance)
    (hp : 4 ≤ v → b.pins.pwrOk = true) (hfull : v = 5 → b.mode.mode ≠ .degraded ∧ b.get Obj.lehrStep ≠ 4) :
    b.requestMode v = (0, (b.requested v).put Obj.modeRequest v) := by
  have hsame : (decide (v = b.mode.mode.num) ||
      (decide (v = 5) && decide (b.mode.mode = .degraded) && decide (b.serviceTarget .fullService = .degraded))) = false := by
    simp [hne]; tauto
  have hpower : (decide (4 ≤ v) && !b.pins.pwrOk) = false := by simpa using hp
  have hstep : (decide (v = 5) && decide (b.get Obj.lehrStep = 4)) = false := by simp; tauto
  simp only [Block.requestMode, requestRange hlo hhi, hsame, hpower, hstep]
  by_cases hmains : b.mode.mode.mains
  · by_cases h3 : v ≤ 3
    · simp [ht, hmaint, Block.requested, hmains, h3]
    · by_cases h4 : v = 4 <;> simp [ht, hmaint, Block.requested, hmains, h3, h4]
  · by_cases h3 : v ≤ 3 <;> simp [ht, hmaint, Block.requested, hmains, h3]

end

/-! ### What each request leaves -/

theorem Block.serviceTarget_of_ne (b : Block) {m : Mode} (h : m ≠ .fullService) : b.serviceTarget m = m := by
  simp [Block.serviceTarget, h]

/-- Below lehr step 4 a request of Full Service leads to it, or to Degraded Service while a unit is fenced. -/
theorem Block.serviceTarget_full {b : Block} (h : b.get Obj.lehrStep ≠ 4) :
    b.serviceTarget .fullService = if b.get Obj.fabricFenced = 0 then .fullService else .degraded := by
  by_cases hf : b.get Obj.fabricFenced = 0 <;> simp [Block.serviceTarget, h, hf]

theorem Mode.mains_iff {m : Mode} : m.mains = true ↔ m = .relay ∨ m = .fullService ∨ m = .degraded := by
  cases m <;> simp [Mode.mains]

section
variable {b : Block} {v : Nat}

theorem Block.requested_drain {v : Nat} (hm : b.mode.mode.mains = true) (hv : v ≤ 4) :
    b.requested v = b.drainStart (decide (v ≤ 3)) (Mode.ofNum v) (b.now + secs (b.get Obj.drainLead)) 0 := by
  have ht : b.serviceTarget (Mode.ofNum v) = Mode.ofNum v :=
    b.serviceTarget_of_ne (by interval_cases v <;> simp [Mode.ofNum])
  by_cases h3 : v ≤ 3
  · simp [Block.requested, hm, ht, h3]
  · obtain rfl : v = 4 := by omega
    simp [Block.requested, hm, ht]

theorem Block.requested_free (hm : b.mode.mode = .dayWatch ∨ b.mode.mode = .fieldOnly) (hv : v ≤ 4)
    (hframes : v ≤ 3 → b.frames = []) : b.requested v = b.goTo (Mode.ofNum v) 0 := by
  have ht : b.serviceTarget (Mode.ofNum v) = Mode.ofNum v :=
    b.serviceTarget_of_ne (by interval_cases v <;> simp [Mode.ofNum])
  have hmains : b.mode.mode.mains = false := by rcases hm with hm | hm <;> simp [hm, Mode.mains]
  by_cases h3 : v ≤ 3
  · simp [Block.requested, hmains, ht, h3, Block.leaveFor, hframes h3]
  · simp [Block.requested, hmains, ht, h3]

end

/-! ### The rows of the table -/

section
variable {b : Block} (ht : b.mode.trans = .none)
include ht

theorem Block.requestMode_base {v : Nat} (hlo : 1 ≤ v) (hhi : v ≤ 5) (hm : b.mode.mode = .maintenance)
    (hv : v = b.get Obj.maintBase) :
    (b.requestMode v).1 = 0 ∧ (b.requestMode v).2.mode.mode = Mode.ofNum v := by
  have hne : Mode.ofNum v ≠ .degraded := by interval_cases v <;> simp [Mode.ofNum]
  rw [Block.requestMode_of_maintenance hlo hhi ht hm, if_pos hv]
  refine ⟨rfl, ?_⟩
  dsimp only
  rw [Block.put_mode, Block.leaveMaint_mode, ← hv, if_neg hne]

theorem Block.requestMode_degradedBase (hm : b.mode.mode = .maintenance) (hbase : b.get Obj.maintBase = 6)
    (hstep : b.get Obj.lehrStep ≠ 4) :
    (b.requestMode 6).1 = 0 ∧
      (b.requestMode 6).2.mode.mode = if b.get Obj.fabricFenced = 0 then .fullService else .degraded := by
  have hdeg : Mode.ofNum 6 = .degraded := rfl
  rw [Block.requestMode_of_degradedBase ht hm hbase]
  refine ⟨rfl, ?_⟩
  dsimp only
  rw [Block.put_mode, Block.leaveMaint_mode, hbase, if_pos hdeg, Block.serviceTarget_full hstep]

/-- A request of a mode without mains traffic drains, and so does one of Relay from the modes above it. -/
theorem Block.requestMode_drain {v : Nat} (hlo : 1 ≤ v) (hhi : v ≤ 4) (hm : b.mode.mode.mains = true)
    (hv : 4 ≤ v → b.pins.pwrOk = true ∧ b.mode.mode ≠ .relay) :
    (b.requestMode v).1 = 0 ∧ (b.requestMode v).2.mode = { b.mode with
      trans := .draining, target := Mode.ofNum v, lastActivity := b.now
      drain := some { dawn := decide (v ≤ 3), target := Mode.ofNum v, start := b.now,
                      deadline := b.now + secs (b.get Obj.drainLead), cause := 0 } } := by
  obtain ⟨hne, hmaint⟩ : v ≠ b.mode.mode.num ∧ b.mode.mode ≠ .maintenance := by
    rcases Mode.mains_iff.mp hm with h | h | h <;> simp [h, Mode.num] at hv ⊢ <;> omega
  rw [Block.requestMode_of_free hlo (by omega) ht hne hmaint (fun h => (hv h).1) (by omega), Block.requested_drain hm hhi]
  exact ⟨rfl, Block.drainStart_mode _ _ _ _ _⟩

theorem Block.requestMode_full (hm : b.mode.mode = .relay) (hp : b.pins.pwrOk = true) (hstep : b.get Obj.lehrStep ≠ 4) :
    (b.requestMode 5).1 = 0 ∧
      (b.requestMode 5).2.mode.mode = if b.get Obj.fabricFenced = 0 then .fullService else .degraded := by
  have hmove : b.requested 5 = b.moveTo (b.serviceTarget .fullService) 0 := by
    simp [Block.requested, hm, Mode.mains, Mode.ofNum]
  rw [Block.requestMode_of_free (by omega) (by omega) ht (by simp [hm, Mode.num]) (by simp [hm]) (fun _ => hp)
    fun _ => ⟨by simp [hm], hstep⟩, hmove]
  refine ⟨rfl, ?_⟩
  dsimp only
  rw [Block.put_mode, (b.moveTo_mode _ 0).1, Block.serviceTarget_full hstep]

/-- Day Watch and Field Only with nothing held go where they are asked, toward Relay with PWR_OK. -/
theorem Block.requestMode_goTo {v : Nat} (hlo : 1 ≤ v) (hhi : v ≤ 4) (hne : v ≠ b.mode.mode.num)
    (hm : b.mode.mode = .dayWatch ∨ b.mode.mode = .fieldOnly) (hp : 4 ≤ v → b.pins.pwrOk = true)
    (hframes : v ≤ 3 → b.frames = []) :
    b.requestMode v = (0, (b.goTo (Mode.ofNum v) 0).put Obj.modeRequest v) := by
  rw [Block.requestMode_of_free hlo (by omega) ht hne (by rcases hm with hm | hm <;> simp [hm]) hp (by omega),
    Block.requested_free hm hhi hframes]

/-- From Field Only such a request moves at once. -/
theorem Block.requestMode_fromField {v : Nat} (hv : v = 2 ∨ v = 4) (hm : b.mode.mode = .fieldOnly)
    (hp : 4 ≤ v → b.pins.pwrOk = true) (hframes : v ≤ 3 → b.frames = []) :
    (b.requestMode v).1 = 0 ∧ (b.requestMode v).2.mode.mode = Mode.ofNum v ∧ (b.requestMode v).2.mode.trans = .none := by
  have hgo : b.goTo (Mode.ofNum v) 0 = b.moveTo (Mode.ofNum v) 0 := by
    rcases hv with rfl | rfl <;> simp [Block.goTo, hm, Mode.ofNum]
  rw [Block.requestMode_goTo ht (by omega) (by omega) (by simp [hm, Mode.num]; omega) (.inr hm) hp hframes, hgo]
  exact ⟨rfl, b.moveTo_mode _ 0⟩

/-- From Day Watch it starts Core-A. -/
theorem Block.requestMode_fromDay {v : Nat} (hv : v = 3 ∨ v = 4) (hm : b.mode.mode = .dayWatch)
    (hp : 4 ≤ v → b.pins.pwrOk = true) (hframes : v ≤ 3 → b.frames = []) :
    b.requestMode v = (0, (b.startCoreA (Mode.ofNum v) 0).put Obj.modeRequest v) := by
  have hgo : b.goTo (Mode.ofNum v) 0 = b.startCoreA (Mode.ofNum v) 0 := by
    rcases hv with rfl | rfl <;> simp [Block.goTo, hm, Mode.ofNum]
  rw [Block.requestMode_goTo ht (by omega) (by omega) (by simp [hm, Mode.num]; omega) (.inl hm) hp hframes, hgo]

theorem Block.requestMode_hibernate (hm : b.mode.mode = .dayWatch ∨ b.mode.mode = .fieldOnly) (hframes : b.frames = []) :
    b.requestMode 1 = (0, (b.entryStart 0).put Obj.modeRequest 1) := by
  rw [Block.requestMode_goTo ht (by omega) (by omega) (by rcases hm with hm | hm <;> simp [hm, Mode.num]) hm (by omega)
    fun _ => hframes]
  simp [Block.goTo, Mode.ofNum]

end

/-- A command that requests a mode is one write of MODE_REQUEST. -/
theorem writes_modeRequest {c : Instr} {s : State} {t : Nat} {p : Port} {v : Nat}
    (he : exec c s = s.atAll t fun x => x.requestVia p v) :
    Writes c s t p 0x1300 2 noRow 1 v fun w _ _ => w.requestMode v := by
  refine .of_portWrite (act := .plain) he (by omega) (by simp) fun x r k h => ?_
  obtain ⟨hfind, -⟩ := Block.checkWrite_ok h
  obtain rfl : Obj.modeRequest = r := by
    have hreg : x.blk.find 0x1300 2 = .ok Obj.modeRequest := rfl
    exact Except.ok.inj (hreg.symm.trans hfind)
  rfl

/-- Settles O24: each command as one write of MODE_REQUEST, and each request by the move, drain or entry that it
makes. -/
theorem modeRequestsFollowTheTable : Obligations.ModeRequestsFollowTheTable := by
  refine ⟨fun s t p => ⟨writes_modeRequest rfl, writes_modeRequest rfl, writes_modeRequest rfl, writes_modeRequest rfl,
    writes_modeRequest rfl, writes_modeRequest rfl⟩, ?_⟩
  intro w m base drains
  have drains_of {v : Nat} (hlo : 1 ≤ v) (hhi : v ≤ 4) (ht : w.mode.trans = .none) (hm : m.mains = true)
      (hv : 4 ≤ v → w.pins.pwrOk = true ∧ m ≠ .relay) : drains v (decide (v ≤ 3)) (Mode.ofNum v) := by
    obtain ⟨hcode, hmode⟩ := Block.requestMode_drain ht hlo hhi hm hv
    simp only [drains, hcode, hmode]
    simp [m]
  refine ⟨Block.requestMode_of_degraded, fun v hlo hhi => Block.requestMode_of_transition hlo hhi,
    fun v hlo hhi => Block.requestMode_of_same hlo hhi,
    fun v hlo hhi ht hm hne => (Block.requestMode_of_maintenance hlo hhi ht hm).trans (if_neg hne),
    fun v hlo hhi ht hm hbase => Block.requestMode_base ht hlo hhi hm hbase,
    fun ht hm hbase hstep => Block.requestMode_degradedBase ht hm hbase hstep,
    fun v hv ht hm hp => Block.requestMode_of_unpowered (by omega) (by omega) ht (by omega) (by simpa using hm) hp,
    fun v hlo hhi ht hm => ?drain, fun ht hm hp => ?stationDrain, fun ht hm hp => Block.requestMode_full ht hm hp,
    fun ht hm hp => Block.requestMode_fromField ht (.inr rfl) hm (fun _ => hp) (by omega), fun ht hm hp => ?dayToRelay,
    fun ht hm hframes => Block.requestMode_fromField ht (.inl rfl) hm (by omega) fun _ => hframes,
    fun ht hm hframes => ?dayToField, fun ht hm hframes => ?hibernate⟩
  case drain => simpa [hhi] using drains_of hlo (by omega) ht hm (by omega)
  case stationDrain =>
    have hservice : m = .fullService ∨ m = .degraded := by simpa using hm
    exact drains_of (v := 4) (by omega) le_rfl ht (by rcases hservice with h | h <;> simp [h, Mode.mains])
      fun _ => ⟨hp, by rcases hservice with h | h <;> simp [h]⟩
  case dayToRelay =>
    rw [Block.requestMode_fromDay ht (.inr rfl) hm (fun _ => hp) (by omega)]
    exact ⟨rfl, rfl, rfl, rfl⟩
  case dayToField =>
    rw [Block.requestMode_fromDay ht (.inl rfl) hm (by omega) fun _ => hframes]
    exact ⟨rfl, rfl, rfl⟩
  case hibernate =>
    rw [Block.requestMode_hibernate ht (by simpa using hm) hframes]
    exact ⟨rfl, rfl, rfl, rfl⟩

end Sys2Proof.Machine
end

section
/-!
SUPPORT. The Furnace's supply and its clock (R47, R86, R388, R497, R525): what a power-up keeps of the time, the mode
and the seal's timers, and the statement about the commands.
-/

namespace Sys2Proof.Machine

/-- A command of the Furnace takes its effect whatever RESET_N holds. -/
theorem Takes.of_furnace {c : Instr} {s : State} {t : Nat} {f : Block → Block} {P : Block → Prop}
    (he : exec c s = s.furnace t f) (hP : P (f (s.blk.tick t))) : Takes c s P :=
  ⟨{ s with blk := f (s.blk.tick t) }, he, rfl, rfl, rfl, hP⟩

/-! ### What a power-up keeps -/

/-- From one block to another the time, the mode and the seal's timers stay. -/
structure KeepsFurnace (b c : Block) : Prop where
  now : c.now = b.now
  mode : c.mode = b.mode
  sealing : c.sealing = b.sealing

namespace KeepsFurnace

theorem refl (b : Block) : KeepsFurnace b b := ⟨rfl, rfl, rfl⟩

theorem trans {a b c : Block} (h : KeepsFurnace a b) (k : KeepsFurnace b c) : KeepsFurnace a c :=
  ⟨k.now.trans h.now, k.mode.trans h.mode, k.sealing.trans h.sealing⟩

theorem foldl {α : Type} {f : Block → α → Block} (h : ∀ b x, KeepsFurnace b (f b x)) (l : List α) (b : Block) :
    KeepsFurnace b (l.foldl f b) :=
  List.foldlRecOn (motive := KeepsFurnace b) l f (refl b) fun c hc x _ => hc.trans (h c x)

theorem post (b : Block) (type : Nat) (payload : List Nat) (first : Bool) (flags : Nat) :
    KeepsFurnace b (b.post type payload first flags) :=
  ⟨b.post_now _ _ _ _, b.post_mode _ _ _ _, b.post_sealing _ _ _ _⟩

theorem mramFault (b : Block) (f : MramFault) : KeepsFurnace b (b.mramFault f) := by
  unfold Block.mramFault; dsimp only
  repeat' split
  all_goals exact ⟨rfl, rfl, rfl⟩

theorem crcWritten (b : Block) : KeepsFurnace b b.crcWritten := by
  unfold Block.crcWritten; dsimp only
  repeat' split
  all_goals exact ⟨rfl, rfl, rfl⟩

theorem writeNow (b : Block) (p : Post) : KeepsFurnace b (b.writeNow p) := by
  have hstart : KeepsFurnace b (b.startRecord p) := ⟨rfl, rfl, rfl⟩
  exact (hstart.trans (crcWritten _)).trans (crcWritten _)

theorem resetRecord (b : Block) (source kind : Nat) (before : Mode) :
    KeepsFurnace b (b.resetRecord source kind before) :=
  (post b _ _ _ _).trans ⟨rfl, rfl, rfl⟩

theorem regionStart (b : Block) : KeepsFurnace b b.regionStart := by
  unfold Block.regionStart
  split
  · exact refl b
  · extract_lets region b1 active records
    have h1 : KeepsFurnace b b1 := ⟨rfl, rfl, rfl⟩
    split
    · exact h1
    · exact h1.trans (post b1 _ _ _ _)

theorem barAllDfs (b : Block) : KeepsFurnace b b.barAllDfs := by
  unfold Block.barAllDfs; split <;> exact ⟨rfl, rfl, rfl⟩

end KeepsFurnace

/-! ### VFUR rises (R388, R497) -/

/-- The block that a power-up has made at a time `rise`, before a wake source that is active already wakes it. -/
structure Risen (rise : Nat) (b : Block) : Prop where
  now : b.now = rise
  mode : b.mode.mode = .hibernate ∧ b.mode.trans = .none ∧ b.mode.waking = none
  sealing : b.sealing.nextCheck = rise + 9766

theorem Risen.keeps {rise : Nat} {b c : Block} (h : Risen rise b) (k : KeepsFurnace b c) : Risen rise c := by
  obtain ⟨hnow, hmode, hsealing⟩ := h
  exact ⟨k.now.trans hnow, k.mode ▸ hmode, k.sealing ▸ hsealing⟩

/-- A power-up makes a block in Hibernate, and the active sources among those enabled wake it. -/
theorem Block.vfurRise_of_off {b : Block} (h : b.mode.mode = .off) (active : Nat) (faults : List MramFault) :
    ∃ c, Risen b.now c ∧ b.vfurRise active faults =
      (let bits := (List.range 6).filter fun i => bitSet active i && c.wakeEnabled i
       if bits.isEmpty then c else c.wakeStart (bits.foldl setBit 0) (c.wakeTarget (bits.foldl setBit 0))) := by
  unfold Block.vfurRise
  rw [if_neg (by simp [h])]
  extract_lets pins b0 b1 kept owed written m b2 b3 log b4 ids crc fused b5 b6 risenPins b7 bits mask
  have h0 : Risen b.now b0 := ⟨rfl, ⟨rfl, rfl, rfl⟩, rfl⟩
  have h1 : Risen b.now b1 := by
    have hgd : KeepsFurnace b0 b0.gdStart := ⟨rfl, rfl, rfl⟩
    have hscan (c : Block) : KeepsFurnace c c.culletScan := ⟨rfl, rfl, rfl⟩
    exact h0.keeps ((hgd.trans (.foldl KeepsFurnace.mramFault faults _)).trans (hscan _))
  clear_value b1
  have h2 : Risen b.now b2 := by
    obtain ⟨hnow, hmode, hsealing⟩ := h1
    have hwritten : KeepsFurnace b1 written := .writeNow b1 _
    unfold b2; split
    · exact ⟨hwritten.now.trans hnow, hmode, (congrArg _ hwritten.sealing).trans hsealing⟩
    · exact ⟨hnow, hmode, hsealing⟩
  clear_value b2
  have h4 : KeepsFurnace b2 b4 := by
    refine (KeepsFurnace.resetRecord b2 0 0 .off).trans ?_
    unfold b4; split
    · exact .refl b3
    · rename_i rest _
      have hqueue : KeepsFurnace b3 { b3 with cullet := { log with queue := rest } } := ⟨rfl, rfl, rfl⟩
      exact hqueue.trans (.writeNow _ _)
  clear_value b4 crc fused
  have h5 : KeepsFurnace b4 b5 := by
    unfold b5; split
    · exact ⟨rfl, rfl, rfl⟩
    · have hput : KeepsFurnace b4 (b4.put Obj.identityOk 0) := ⟨rfl, rfl, rfl⟩
      exact hput.trans (.writeNow _ _)
  clear_value b5
  have h7 : KeepsFurnace b5 b7 := by
    have hduty (c : Block) : KeepsFurnace c c.dutyStart := ⟨rfl, rfl, rfl⟩
    have hend : KeepsFurnace b5.regionStart.dutyStart.barAllDfs b7 := ⟨rfl, rfl, rfl⟩
    exact (((KeepsFurnace.regionStart b5).trans (hduty _)).trans (.barAllDfs _)).trans hend
  exact ⟨b7, h2.keeps ((h4.trans h5).trans h7), rfl⟩

theorem Block.mainEn_up (b : Block) : (b.mainEn true).pins.mainEn = true := by
  unfold Block.mainEn; split
  · assumption
  · rfl

theorem Block.mainEn_keeps (b : Block) (v : Bool) : KeepsFurnace b (b.mainEn v) := by
  unfold Block.mainEn; split <;> exact ⟨rfl, rfl, rfl⟩

/-- A wake leaves Hibernate waking from now on, its main rails asked for. -/
theorem Risen.wakeStart {rise : Nat} {b : Block} (h : Risen rise b) (bits : Nat) (target : Mode) :
    (b.wakeStart bits target).mode.mode = .hibernate ∧ (b.wakeStart bits target).sealing.nextCheck = rise + 9766 ∧
      (b.wakeStart bits target).mode.trans = .waking ∧ (b.wakeStart bits target).mode.waking = some rise ∧
      (b.wakeStart bits target).pins.mainEn = true := by
  obtain ⟨hnow, ⟨hmode, -, -⟩, hsealing⟩ := h
  unfold Block.wakeStart
  extract_lets b1 m
  have hkeeps := Block.mainEn_keeps { b1 with mode := { m with trans := .waking, target := target, waking := some b.now, held := 0 } } true
  rw [hkeeps.mode, hkeeps.sealing]
  exact ⟨hmode, hsealing, rfl, congrArg some hnow, Block.mainEn_up _⟩

/-- Settles O19: a power-up by the block it makes before a wake, the loss of VFUR and the crystal by what they are. -/
theorem furnaceSupplyCommands : Obligations.FurnaceSupplyCommands := by
  intro s t active faults b
  refine ⟨fun hoff => .of_furnace (f := fun b => b.vfurRise active faults) rfl ?rise,
    fun hon => .of_furnace (f := fun b => b.vfurRise active faults) rfl (if_pos hon),
    .of_furnace (f := Block.vfurFall) rfl ⟨rfl, rfl, rfl, rfl, rfl, rfl, rfl, rfl, rfl, rfl⟩,
    fun hon => ⟨.of_furnace (f := fun b => b.rtcFrom 1) rfl (if_neg hon),
      .of_furnace (f := fun b => b.rtcFrom 0) rfl (if_neg hon)⟩,
    fun hoff => ⟨.of_furnace (f := fun b => b.rtcFrom 1) rfl (if_pos hoff),
      .of_furnace (f := fun b => b.rtcFrom 0) rfl (if_pos hoff)⟩⟩
  case rise =>
    obtain ⟨c, hrisen, hc⟩ := Block.vfurRise_of_off hoff active faults
    have hwoken := hrisen.wakeStart
    rw [hc]
    extract_lets bits
    obtain ⟨-, ⟨hmode, htrans, hwaking⟩, hsealing⟩ := hrisen
    split
    · rename_i hnone
      have hquiet : active.testBit 1 = false := by
        have hmem : 1 ∉ bits := by simp [List.isEmpty_iff.mp hnone]
        simpa [bits, bitSet, Block.wakeEnabled] using hmem
      exact ⟨hmode, hsealing, fun _ => ⟨htrans, hwaking⟩, fun h => by simp [hquiet] at h⟩
    · rename_i hsome
      obtain ⟨hm, hs, ht, hw, hp⟩ := hwoken (bits.foldl setBit 0) (c.wakeTarget (bits.foldl setBit 0))
      exact ⟨hm, hs, fun h => absurd (by simp [bits, bitSet, h]) hsome, fun _ => ⟨ht, hw, hp⟩⟩

end Sys2Proof.Machine
end

section
/-!
SUPPORT. Writes with their object's effect (R44, R57), the restore of defaults (R49), stores to the dictionary window
(R52, R53), and the statement about them.
-/

namespace Sys2Proof.Machine

open Sys2Proof.Claims

/-! ### The effect of a write (R44) -/

/-- An object whose write is done in the units of the block: none of those of the whole machine, and no commit of its
own. -/
def writesInBlock (idx sub : Nat) : Prop :=
  idx < 0x7200 ∧ idx ≠ 0x4410 ∧ ¬ (idx = 0x1620 ∧ sub = 3) ∧ ¬ (idx = 0x1011 ∧ sub = 7)

theorem State.anyWrite_of_block (s : State) (p : Port) (v : Nat) {r : Reg} (k : Nat) (h : writesInBlock r.idx r.sub) :
    s.anyWrite p v r k = s.lift (s.blk.applyWrite p r k v) := by
  obtain ⟨hlow, hring, hswap, hrestore⟩ := h
  have hmould : ¬ (0x7200 ≤ r.idx ∧ r.idx < 0x7400) := by omega
  have hcs : ¬ (r.idx = 0x8210 ∧ r.sub = 4) := by omega
  simp [State.anyWrite, State.commitWrite, hrestore, hmould, hring, hswap, hcs]

/-- What passes the checks of such a write is an object of that index and subindex. -/
theorem Block.writesInBlock_of_checkWrite {b : Block} {p : Port} {idx sub row len v : Nat} {r : Reg} {k : Nat}
    (h : b.checkWrite p idx sub row len v = .ok (r, k)) (hin : writesInBlock idx sub) : writesInBlock r.idx r.sub := by
  obtain ⟨hfind, -⟩ := Block.checkWrite_ok h
  obtain ⟨hidx, hsub⟩ := Block.find_ok hfind
  rwa [hidx, hsub]

/-- A general write takes the effect of its object. -/
theorem writes_dictWrite (s : State) (t : Nat) (p : Port) {idx sub : Nat} (row len v : Nat) (hin : writesInBlock idx sub)
    (hbegin : ¬ (idx = 0x2C00 ∧ sub = 6)) :
    Writes (.dictWrite t p idx sub row len v) s t p idx sub row len v fun w r k => w.applyWrite p r k v :=
  .of_portWrite (act := .plain) rfl hbegin (by simp) fun x r k h =>
    State.anyWrite_of_block x p v k (Block.writesInBlock_of_checkWrite h hin)

/-- A write of an object that is the only one of its kind is one of that object, at row 0. -/
theorem Block.checkWrite_only {b : Block} {p : Port} {idx sub row len v : Nat} {q r : Reg} {k : Nat}
    (h : b.checkWrite p idx sub row len v = .ok (r, k)) (hreg : b.find idx sub = .ok q) (hloc : q.loc = false)
    (hrows : b.rowsOf q = 0) : r = q ∧ k = 0 := by
  obtain ⟨hfind, hk⟩ := Block.checkWrite_ok h
  obtain rfl := Except.ok.inj (hreg.symm.trans hfind)
  simp [hloc, hrows] at hk
  exact ⟨rfl, hk⟩

theorem writes_chipIdleTime (s : State) (t : Nat) (p : Port) (row v : Nat) :
    Writes (.dictWrite t p 0x1302 1 row 4 v) s t p 0x1302 1 row 4 v fun w _ _ => (0, w.put Obj.chipIdleTime v) := by
  refine .of_portWrite (act := .plain) rfl (by omega) (by simp) fun x r k h => ?_
  obtain ⟨rfl, rfl⟩ := Block.checkWrite_only (q := Obj.chipIdleTime) h rfl rfl rfl
  rfl

/-- FABRIC_STALL_LIMIT holds while it leaves twice the longest transfer. -/
theorem Block.writeStallLimit (b : Block) (p : Port) (v : Nat) : b.applyWrite p Obj.fabricStallLimit 0 v =
    if 2 * b.get Obj.xspiTimeout + 100 ≤ v then (0, b.put Obj.fabricStallLimit v) else (6, b) := by
  have hok : Block.stallOk (b.put Obj.fabricStallLimit v) = decide (2 * b.get Obj.xspiTimeout + 100 ≤ v) := by
    unfold Block.stallOk
    rw [Block.get_put_same, Block.get_put_ne _ _ (by decide)]
  show Block.rangeWrite b Obj.fabricStallLimit 0 v Block.stallOk = _
  simp [Block.rangeWrite, hok]

theorem writes_stallLimit (s : State) (t : Nat) (p : Port) (row v : Nat) :
    Writes (.dictWrite t p 0x1540 1 row 4 v) s t p 0x1540 1 row 4 v fun w _ _ =>
      if 2 * w.get Obj.xspiTimeout + 100 ≤ v then (0, w.put Obj.fabricStallLimit v) else (6, w) := by
  refine .of_portWrite (act := .plain) rfl (by omega) (by simp) fun x r k h => ?_
  obtain ⟨rfl, rfl⟩ := Block.checkWrite_only (q := Obj.fabricStallLimit) h rfl rfl rfl
  rw [← Block.writeStallLimit x.blk p]
  rfl

/-! ### Customer objects (R81) -/

theorem writes_customerDeclare (s : State) (t : Nat) (p : Port) (row sub len v : Nat) :
    Writes (.customerDeclare t p row sub len v) s t p 0x1022 sub row len v fun w r k => w.writeCust r k v := by
  refine .of_portWrite (act := .plain) rfl (by omega) (by simp) fun x r k h => ?_
  obtain ⟨hfind, -⟩ := Block.checkWrite_ok h
  obtain ⟨hidx, -⟩ := Block.find_ok hfind
  have hin : writesInBlock r.idx r.sub := by rw [hidx]; unfold writesInBlock; omega
  rw [State.actWrite, State.anyWrite_of_block x p v k hin, Block.applyWrite, if_pos hidx]

theorem Block.writeCust_of_undeclared {b : Block} {r : Reg} {k v : Nat} (hbefore : b.custObject k = none)
    (hafter : (b.put r v k).custObject k = none) : b.writeCust r k v = (0, b.put r v k) := by
  simp [Block.writeCust, hbefore, hafter]

/-! ### The restore of defaults (R49) -/

theorem State.actWrite_restore (s : State) (p : Port) (v k : Nat) :
    s.actWrite p v .plain Obj.defaultsRestore k = s.restore p v := rfl

theorem State.restore_code (s : State) (p : Port) (v : Nat) : (s.restore p v).1 = 0 := by
  unfold State.restore; split <;> rfl

theorem Block.markUsed_defaultsRestore (b : Block) (k : Nat) : b.markUsed Obj.defaultsRestore k = b := rfl

/-- A write of DEFAULTS_RESTORE is one of that object. -/
theorem Block.checkWrite_restore {b : Block} {p : Port} {row len v : Nat} {r : Reg} {k : Nat}
    (h : b.checkWrite p 0x1011 7 row len v = .ok (r, k)) : r = Obj.defaultsRestore :=
  (Block.checkWrite_only h rfl rfl rfl).1

theorem restores_iff (all : Bool) (r : Reg) : restores all r = true ↔
    (r.acc = .rw ∨ r.acc = .rwp1) ∧ r.home ≠ .fuse ∧ r.sub ≠ 0 ∧ (all ∨ r.idx < 0xA000) := by
  simp [restores, and_assoc]

section
variable {u : State} {p : Port} {all : Bool} {r : Reg} {k row : Nat} (hkey : u.blk.ofKey k = some (r, row))
include hkey

/-- A restore leaves an object that it sets at its default. -/
theorem State.restoreOne_get (h : restores all r = true) : (u.restoreOne p all k).blk.get r row = r.default row := by
  simp only [State.restoreOne, hkey, h]
  exact Block.get_put_same ..

theorem State.restoreOne_of_excepted (h : restores all r = false) : u.restoreOne p all k = u := by
  simp [State.restoreOne, hkey, h]

end

theorem writes_restoreNothing (s : State) (t : Nat) (p : Port) :
    Writes (.defaultsRestore t p 0) s t p 0x1011 7 noRow 1 0 fun w _ _ => (0, w) := by
  refine .of_portWrite (act := .plain) rfl (by omega) (by simp) fun x r k h => ?_
  obtain rfl := Block.checkWrite_restore h
  rfl

/-- A restore that passes the checks is done, and answered. -/
theorem exec_defaultsRestore {s : State} {t : Nat} {p : Port} {v k : Nat} {r : Reg} (hf : s.blk.frozen = false)
    (ho : (s.blk.tick t).portOpen p = true) (hi : (s.blk.tick t).pointIdle = true)
    (h : (s.blk.tick t).checkWrite p 0x1011 7 noRow 1 v = .ok (r, k)) :
    let d := ({ s with blk := s.blk.tick t } : State).restore p v
    exec (.defaultsRestore t p v) s =
      .next ({ d.2 with blk := d.2.blk.answered p 0x1011 7 noRow 0 0 } : State).settle := by
  intro d
  obtain rfl := Block.checkWrite_restore h
  refine exec_of_atAll rfl hf ((State.portWrite_of_passed (act := .plain) (by decide) ho hi (by simp) h).trans ?_)
  simp only [State.actWrite_restore, State.restore_code, Block.markUsed_defaultsRestore, if_true, d]
  rfl

/-! ### A store as an event of the window (R52, R53) -/

section
variable {x : State} {n : Eng} {a k v : Nat}

theorem State.storeEvent_of_outside (h : inWindow a = false ∨ k = 0 ∨ (x.blk.cpu n).run ≠ .running) :
    x.storeEvent n a k v = x := by
  unfold State.storeEvent
  exact if_pos (by simpa [or_assoc] using h)

variable (hin : inWindow a = true) (hk : k ≠ 0) (hrun : (x.blk.cpu n).run = .running)
include hin hk hrun

theorem State.storeEvent_of_fault {e : Exc} (h : x.storeFault n a k = some e) :
    x.storeEvent n a k v = x.storeRaise n a e := by
  simp [State.storeEvent, hin, hk, hrun, h]

theorem State.storeEvent_of_store (h : x.storeFault n a k = none)
    (hp : x.blk.placeOf n (x.priv n) .store a k = .ok .window) : x.storeEvent n a k v = (x.windowStore n a k v).settle := by
  simp [State.storeEvent, hin, hk, hrun, h, State.storeDo, hp]

end

/-! ### A store to the window (R53) -/

/-- The address of an octet of an object in the window. -/
def windowAddr (idx sub off : Nat) : Nat := 0xF000000000 + idx * 0x1000 + sub * 0x10 + off

section
variable {idx sub off : Nat} (hidx : idx < 0x10000) (hsub : sub < 0x100) (hoff : off < 16)
include hidx hsub hoff

/-- The bits of a window address are the index, the subindex and the octet. -/
theorem windowAddr_parts : inWindow (windowAddr idx sub off) = true ∧ winIdx (windowAddr idx sub off) = idx ∧
    winSub (windowAddr idx sub off) = sub ∧ windowAddr idx sub off % 16 = off := by
  unfold inWindow winIdx winSub windowAddr
  refine ⟨?_, by omega, by omega, by omega⟩
  rw [Bool.and_eq_true, decide_eq_true_eq, decide_eq_true_eq]
  omega

/-- A store to a value of up to 8 octets submits it where it is of its width at offset 0, else an access with
TYPE_LENGTH's empty value. -/
theorem State.windowStore_of_short {x : State} {n : Eng} {k v : Nat} {r : Reg} (hreg : x.blk.find idx sub = .ok r)
    (hsize : r.size ≤ 8) : x.windowStore n (windowAddr idx sub off) k v =
      ({ x with blk := x.blk.storeDrops n idx sub } : State).windowSubmit n idx sub
        (if off = 0 ∧ k = r.size then k else 0) (if off = 0 ∧ k = r.size then r.ofWindow (octetsLE k v) else 0) := by
  obtain ⟨-, haddrIdx, haddrSub, haddrOff⟩ := windowAddr_parts hidx hsub hoff
  have hoctet : x.blk.winOctet n r.size (windowAddr idx sub off) = off := by
    rw [Block.winOctet, if_neg (by omega), haddrOff, Nat.add_zero]
  unfold State.windowStore; dsimp only
  rw [haddrIdx, haddrSub, hreg]
  dsimp only
  rw [hoctet, if_pos hsize]
  by_cases h : off = 0 ∧ k = r.size <;> simp [h]

end

/-- A write that a check refuses begins no region commit. -/
theorem Block.beginCommit_of_refused {b : Block} {p : Port} {idx sub row len v e : Nat}
    (h : b.checkWrite p idx sub row len v = .error e) : b.beginCommit p idx sub row len v = none := by
  simp [Block.beginCommit, h]

section
variable {x : State} {n : Eng} {idx sub len v : Nat}

theorem State.windowSubmit_of_busy (h : x.blk.pointIdle = false) : x.windowSubmit n idx sub len v =
    { x with blk := x.blk.enqueueAsk (x.blk.waitOf (.engine n) (.write idx sub noRow len v .window)) } := by
  simp [State.windowSubmit, h]

variable (hi : x.blk.pointIdle = true)
include hi

/-- A submission that a check refuses counts, and has no answer but its result code. -/
theorem State.windowSubmit_of_refused {e : Nat} (h : x.blk.checkWrite (.engine n) idx sub noRow len v = .error e) :
    x.windowSubmit n idx sub len v =
      { x with blk := (x.blk.account (.engine n) e).stepCursor (.engine n) idx sub noRow } := by
  rw [State.windowSubmit, if_pos hi, State.takeWrite, Block.beginCommit_of_refused h, State.writeVia_of_refused h]
  rfl

/-- A submission that passes has its object's effect. -/
theorem State.windowSubmit_of_passed {q : Reg} {j : Nat} (hin : writesInBlock idx sub) (hbegin : ¬ (idx = 0x2C00 ∧ sub = 6))
    (h : x.blk.checkWrite (.engine n) idx sub noRow len v = .ok (q, j)) :
    x.windowSubmit n idx sub len v =
      (let e := x.blk.applyWrite (.engine n) q j v
       { x with
          blk := ((if e.1 = 0 then e.2.markUsed q j else e.2).account (.engine n) e.1).stepCursor (.engine n) idx sub noRow }) := by
  rw [State.windowSubmit, if_pos hi, State.takeWrite_of_passed hbegin h, State.actWrite,
    State.anyWrite_of_block x _ v j (Block.writesInBlock_of_checkWrite h hin)]
  rfl

end

/-- Settles O31: each command as one write whose object's act is known, the restore object by object, and a store to the
window as the submission that its offset and width make. -/
theorem writesAndWindowStoresAreCheckedAndApplied : Obligations.WritesAndWindowStoresAreCheckedAndApplied := by
  refine ⟨fun s t p idx sub row len v => ⟨fun hlow hring hswap hrestore hbegin =>
      writes_dictWrite s t p row len v ⟨hlow, hring, hswap, hrestore⟩ hbegin, writes_chipIdleTime s t p row v,
    writes_stallLimit s t p row v, writes_customerDeclare s t p row sub len v,
    fun w r k => Block.writeCust_of_undeclared, writes_restoreNothing s t p,
    fun hf ho => .of_atAll rfl hf (State.portWrite_of_closed ho),
    fun hf ho hi r k hv h => ⟨_, exec_defaultsRestore hf ho hi h, State.restore_code _ p v, rfl⟩,
    fun u all r k row hkey => ⟨State.restoreOne_get hkey, State.restoreOne_of_excepted hkey⟩, restores_iff⟩,
    fun s t n a k v hf => ⟨fun h => .of_atAll rfl hf (State.storeEvent_of_outside h), fun hin hk hrun =>
      ⟨fun e h => exec_of_atAll rfl hf (State.storeEvent_of_fault hin hk hrun h),
        fun h hp => exec_of_atAll rfl hf (State.storeEvent_of_store hin hk hrun h hp)⟩⟩, ?_⟩
  intro x n idx sub off k v r hidx hsub hoff a p y len value
  refine ⟨(windowAddr_parts hidx hsub hoff).1, fun hreg hsize => ?_⟩
  have hstore : x.windowStore n a k v = ({ x with blk := y } : State).windowSubmit n idx sub len value :=
    State.windowStore_of_short hidx hsub hoff hreg hsize
  rw [hstore]
  exact ⟨fun hi => State.windowSubmit_of_busy hi, fun hi => ⟨fun e h => State.windowSubmit_of_refused hi h,
    fun q j h hlow hring hswap hrestore hbegin => State.windowSubmit_of_passed hi ⟨hlow, hring, hswap, hrestore⟩ hbegin h⟩⟩

end Sys2Proof.Machine
end

section
/-!
SUPPORT. Alarms (R376): what an alarm that becomes active or ends shows, and what it leaves.
-/

namespace Sys2Proof.Machine

open Sys2Proof.Claims

/-! ### Objects apart -/

/-- Two objects of one row hold their values apart. -/
theorem Reg.key_ne_same_row {q r : Reg} (k : Nat) (h : q.idx * 256 + q.sub ≠ r.idx * 256 + r.sub) : q.key k ≠ r.key k :=
  fun e => h (Nat.eq_of_mul_eq_mul_right (by decide) (Nat.add_right_cancel e))

/-- A write of one object leaves the values of another, for rows of a table. -/
theorem Block.get_put_other (b : Block) {q r : Reg} {k row : Nat} (v : Nat)
    (h : q.idx * 256 + q.sub ≠ r.idx * 256 + r.sub) (hk : k < 1048576) (hrow : row < 1048576) :
    (b.put r v row).get q k = b.get q k :=
  Block.get_put_ne b v (Reg.key_ne h hk hrow)

@[simp] theorem Block.get_modField (b : Block) (f : Field → Field) (q : Reg) (k : Nat) :
    (b.modField f).get q k = b.get q k := rfl

@[simp] theorem Block.get_active (b : Block) (q : Reg) (k : Nat) : b.active.get q k = b.get q k := rfl

/-! ### Bits -/

/-- A number with a bit set is its bits above it, the bit, and its bits below it. -/
theorem eq_of_testBit {v i : Nat} (h : v.testBit i = true) : v = 2 ^ (i + 1) * (v / 2 ^ (i + 1)) + (2 ^ i + v % 2 ^ i) := by
  have hbit : v / 2 ^ i % 2 = 1 := by simpa [Nat.testBit_eq_decide_div_mod_eq] using h
  have hmod : v % 2 ^ (i + 1) = v % 2 ^ i + 2 ^ i * (v / 2 ^ i % 2) := by rw [pow_succ, Nat.mod_mul]
  have := Nat.div_add_mod v (2 ^ (i + 1))
  rw [hmod, hbit] at this
  omega

theorem testBit_clearBit (v i j : Nat) : (clearBit v i).testBit j = (v.testBit j && decide (j ≠ i)) := by
  unfold clearBit
  by_cases h : v.testBit i
  · have hv := eq_of_testBit h
    set q := v / 2 ^ (i + 1)
    set r := v % 2 ^ i with hr
    have hlt : r < 2 ^ i := Nat.mod_lt _ (by positivity)
    have hsub : v - 2 ^ i = 2 ^ (i + 1) * q + r := by omega
    have hlt' : 2 ^ i + r < 2 ^ (i + 1) := by rw [pow_succ]; omega
    rw [if_pos h, hsub, hv, Nat.testBit_two_pow_mul_add q (by omega), Nat.testBit_two_pow_mul_add q hlt']
    rcases lt_trichotomy j i with hj | rfl | hj
    · simp [hj.ne, show j < i + 1 by omega, Nat.testBit_two_pow_add_gt hj]
    · simp [Nat.testBit_lt_two_pow hlt]
    · simp [hj.ne', show ¬ j < i + 1 by omega]
  · by_cases hj : j = i
    · subst hj; simp [h]
    · simp [h, hj]

/-! ### What leaves the block stays told -/

theorem Block.mem_outs_foldl {α : Type} {f : Block → α → Block} {o : Out} (h : ∀ b x, o ∈ b.outs → o ∈ (f b x).outs)
    (l : List α) {b : Block} (hb : o ∈ b.outs) : o ∈ (l.foldl f b).outs :=
  List.foldlRecOn (motive := fun c => o ∈ c.outs) l f hb fun c hc x _ => h c x hc

theorem Block.mem_outs_emit {b : Block} {o : Out} (h : o ∈ b.outs) (x : Out) : o ∈ (b.emit x).outs := by
  rw [Block.outs_emit]; exact List.mem_append_left _ h

theorem Block.mem_outs_queueNotice {b : Block} {o : Out} (h : o ∈ b.outs) (d : Dest) (n : Notice) :
    o ∈ (b.queueNotice d n).outs := by
  unfold Block.queueNotice; dsimp only
  split
  · split
    · unfold Block.sendCan; dsimp only
      split
      · exact h
      · refine Block.mem_outs_foldl ?_ _ h
        exact fun c x hc => Block.mem_outs_emit hc _
    · exact h
  · split <;> exact h

theorem Block.mem_outs_notice {b : Block} {o : Out} (h : o ∈ b.outs) (code : Nat) (r : Reg) (row : Nat)
    (payload : List Nat) : o ∈ (b.notice code r row payload).outs := by
  unfold Block.notice; dsimp only
  split
  · refine Block.mem_outs_foldl ?_ _ h
    exact fun c d hc => Block.mem_outs_queueNotice hc d _
  · exact h

/-! ### One alarm of a row -/

/-- The objects that an alarm writes, with those of its notice. -/
def alarmObjects : List Nat :=
  [Obj.alarmDetail, Obj.alarmActive, Obj.alarmLatched, Obj.alarmRaises, Obj.alarmLastRaised, Obj.noticeSeqNext,
    Obj.noticeLost].map fun r => r.idx * 256 + r.sub

/-- The keys that an alarm of a row writes. -/
def alarmKeys (row : Nat) : List Nat :=
  [Obj.alarmDetail.key row, Obj.alarmActive.key row, Obj.alarmLatched.key row, Obj.alarmRaises.key row,
    Obj.alarmLastRaised.key row] ++ Tells.noticeKeys

theorem key_notMem_alarmKeys {q : Reg} {k row : Nat} (h : q.idx * 256 + q.sub ∉ alarmObjects) (hk : k < 1048576)
    (hrow : row < 1048576) : q.key k ∉ alarmKeys row := by
  simp only [alarmObjects, List.map_cons, List.map_nil, List.mem_cons, List.not_mem_nil, not_or, or_false] at h
  obtain ⟨h1, h2, h3, h4, h5, h6, h7⟩ := h
  simp only [alarmKeys, Tells.noticeKeys, List.cons_append, List.nil_append, List.mem_cons, List.not_mem_nil, or_false, not_or]
  exact ⟨Reg.key_ne h1 hk hrow, Reg.key_ne h2 hk hrow, Reg.key_ne h3 hk hrow, Reg.key_ne h4 hk hrow, Reg.key_ne h5 hk hrow,
    Reg.key_ne h6 hk (by omega), Reg.key_ne h7 hk (by omega)⟩

/-- DETAIL of another row is not among the keys of an alarm. -/
theorem alarmDetail_notMem_alarmKeys {j row : Nat} (h : j ≠ row) (hj : j < 1048576) (hrow : row < 1048576) :
    Obj.alarmDetail.key j ∉ alarmKeys row := by
  simp only [alarmKeys, Tells.noticeKeys, List.cons_append, List.nil_append, List.mem_cons, List.not_mem_nil, or_false, not_or]
  exact ⟨Reg.key_row_ne _ h, Reg.key_ne (by decide) hj hrow, Reg.key_ne (by decide) hj hrow, Reg.key_ne (by decide) hj hrow,
    Reg.key_ne (by decide) hj hrow, Reg.key_ne (by decide) hj (by omega), Reg.key_ne (by decide) hj (by omega)⟩

/-- The block in which an alarm of a row other than DRIVER_HOT's has become active or ended, before that is
activity. -/
def Block.alarmTold (b : Block) (row bit : Nat) (on : Bool) (value : Int) : Block :=
  let d := b.get Obj.alarmDetail row
  if on then
    let b1 := ((b.put Obj.alarmDetail (setBit d bit) row).put Obj.alarmActive 1 row).put Obj.alarmLatched 1 row
    let b2 := (b1.add Obj.alarmRaises 1 row).put Obj.alarmLastRaised b.stampTime row
    (b2.notice 0x0201 Obj.alarmActive row (alarmPayload bit value)).alarmRecord row 0 bit value
  else
    let b1 := (b.put Obj.alarmDetail (clearBit d bit) row).put Obj.alarmActive (if clearBit d bit = 0 then 0 else 1) row
    b1.notice 0x0202 Obj.alarmActive row (alarmPayload bit value)

/-- Which alarms are evaluated rests on the core, on the fences and on the row's ENABLE. -/
theorem alarmsRun_congr {b c : Block} {row : Nat} (hcore : c.coreF = b.coreF)
    (hfence : c.get Obj.fabricFenced = b.get Obj.fabricFenced) (hon : c.get Obj.alarmEnable row = b.get Obj.alarmEnable row) :
    alarmsRun c row ↔ alarmsRun b row := by
  rw [alarmsRun, alarmsRun, Block.feRuns, Block.feRuns, hcore, hfence, Block.is, Block.is, hon]

section
variable (b : Block) {row : Nat} (bit : Nat) (on : Bool) (value : Int)

theorem Block.setAlarm_of_still (h : ¬ alarmsRun b row ∨ alarmBit b row bit = on) : b.setAlarm row bit on value = b := by
  unfold Block.setAlarm; dsimp only
  rw [if_pos]
  simp only [alarmsRun, alarmBit, not_and_or, Bool.not_eq_true] at h
  rcases h with (h | h) | h <;> simp [h, bitSet]

theorem Block.setAlarm_of_changed (h2 : row ≠ 2) (hrun : alarmsRun b row) (hbit : alarmBit b row bit ≠ on) :
    b.setAlarm row bit on value = (b.alarmTold row bit on value).active := by
  have heffect (c : Block) (x : Bool) : c.alarmEffect row x b = c := by simp [Block.alarmEffect, h2]
  obtain ⟨hfe, henable⟩ := hrun
  unfold Block.setAlarm; dsimp only
  have hskip : (!b.feRuns || !b.is Obj.alarmEnable row || decide (bitSet (b.get Obj.alarmDetail row) bit = on)) = false := by
    simp only [hfe, henable, Bool.not_true, Bool.false_or, decide_eq_false_iff_not]
    exact hbit
  rw [hskip]
  simp only [heffect, Block.alarmTold]
  cases on <;> rfl

theorem Block.alarmTold_tells : Tells (alarmKeys row) b (b.alarmTold row bit on value) := by
  have notice (c : Block) (code : Nat) : Tells (alarmKeys row) c (c.notice code Obj.alarmActive row (alarmPayload bit value)) := by
    have h := Tells.notice c code Obj.alarmActive row (alarmPayload bit value)
    exact ⟨h.rest, fun r k hk => h.get r k fun e => hk (List.mem_append_right _ e)⟩
  unfold Block.alarmTold; dsimp only
  split
  · refine Tells.trans (Tells.trans ?_ (notice _ _)) (Tells.post _ _ _ _ _ _)
    refine ((((Tells.put b _ ?_).trans (Tells.put _ _ ?_)).trans (Tells.put _ _ ?_)).trans (Tells.add _ _ ?_)).trans (Tells.put _ _ ?_)
    all_goals simp [alarmKeys]
  · refine Tells.trans ((Tells.put b _ ?_).trans (Tells.put _ _ ?_)) (notice _ _)
    all_goals simp [alarmKeys]

theorem Block.mem_outs_alarmTold {o : Out} (h : o ∈ b.outs) : o ∈ (b.alarmTold row bit on value).outs := by
  unfold Block.alarmTold Block.alarmRecord; dsimp only
  split
  · rw [Block.post_outs]
    exact Block.mem_outs_notice (by simpa using h) _ _ _ _
  · exact Block.mem_outs_notice (by simpa using h) _ _ _ _

theorem Block.alarmTold_detail :
    (b.alarmTold row bit on value).get Obj.alarmDetail row =
      if on then setBit (b.get Obj.alarmDetail row) bit else clearBit (b.get Obj.alarmDetail row) bit := by
  have hother (c : Block) {r : Reg} (v : Nat) (h : Obj.alarmDetail.idx * 256 + Obj.alarmDetail.sub ≠ r.idx * 256 + r.sub) :
      (c.put r v row).get Obj.alarmDetail row = c.get Obj.alarmDetail row := Block.get_put_ne c v (Reg.key_ne_same_row row h)
  have hnotice : Obj.alarmDetail.key row ∉ Tells.noticeKeys := by
    simp [Tells.noticeKeys, Reg.key, Obj.alarmDetail, Obj.noticeSeqNext, Obj.noticeLost]
    omega
  unfold Block.alarmTold Block.alarmRecord Block.add; dsimp only
  split
  · rw [Block.get_post, Block.get_notice _ _ _ _ _ hnotice]
    rw [hother _ _ (by decide), hother _ _ (by decide), hother _ _ (by decide), hother _ _ (by decide), Block.get_put_same]
  · rw [Block.get_notice _ _ _ _ _ hnotice, hother _ _ (by decide), Block.get_put_same]

variable (h2 : row ≠ 2)
include h2

/-- What a row other than DRIVER_HOT's does: nothing, or its record and notice, and the activity. -/
theorem Block.setAlarm_cases : b.setAlarm row bit on value = b ∨
    b.setAlarm row bit on value = (b.alarmTold row bit on value).active := by
  by_cases h : ¬ alarmsRun b row ∨ alarmBit b row bit = on
  · exact .inl (b.setAlarm_of_still bit on value h)
  · obtain ⟨hrun, hbit⟩ := not_or.mp h
    exact .inr (b.setAlarm_of_changed bit on value h2 (not_not.mp hrun) hbit)

theorem Block.setAlarm_get_of_key {q : Reg} {k : Nat} (h : q.key k ∉ alarmKeys row) :
    (b.setAlarm row bit on value).get q k = b.get q k := by
  obtain e | e := b.setAlarm_cases bit on value h2 <;> rw [e]
  exact (b.alarmTold_tells bit on value).get q k h

theorem Block.setAlarm_field : (b.setAlarm row bit on value).field = b.field := by
  obtain e | e := b.setAlarm_cases bit on value h2 <;> rw [e]
  exact (b.alarmTold_tells bit on value).field

theorem Block.setAlarm_coreF : (b.setAlarm row bit on value).coreF = b.coreF := by
  obtain e | e := b.setAlarm_cases bit on value h2 <;> rw [e]
  have hmode := congrArg ModeUnit.mode (b.alarmTold_tells (row := row) bit on value).mode
  simp only [Block.coreF, Block.active, hmode]

theorem Block.mem_outs_setAlarm {o : Out} (h : o ∈ b.outs) : o ∈ (b.setAlarm row bit on value).outs := by
  obtain e | e := b.setAlarm_cases bit on value h2 <;> rw [e]
  · exact h
  · exact b.mem_outs_alarmTold bit on value h

variable (hrow : row < 1048576)
include hrow

theorem Block.setAlarm_get {q : Reg} {k : Nat} (h : q.idx * 256 + q.sub ∉ alarmObjects) (hk : k < 1048576) :
    (b.setAlarm row bit on value).get q k = b.get q k :=
  b.setAlarm_get_of_key bit on value h2 (key_notMem_alarmKeys h hk hrow)

/-- An alarm leaves which rows are evaluated. -/
theorem Block.setAlarm_alarmsRun {j : Nat} (hj : j < 1048576) : alarmsRun (b.setAlarm row bit on value) j ↔ alarmsRun b j :=
  alarmsRun_congr (b.setAlarm_coreF bit on value h2)
    (b.setAlarm_get bit on value h2 hrow (by decide) (by decide)) (b.setAlarm_get bit on value h2 hrow (by decide) hj)

/-- An alarm leaves those of other rows. -/
theorem Block.alarmBit_setAlarm_row {j : Nat} (hj : j < 1048576) (hne : j ≠ row) (i : Nat) :
    alarmBit (b.setAlarm row bit on value) j i = alarmBit b j i := by
  rw [alarmBit, b.setAlarm_get_of_key bit on value h2 (alarmDetail_notMem_alarmKeys hne hj hrow), alarmBit]

omit hrow

/-- Where its row is evaluated an alarm is as it is set. -/
theorem Block.alarmBit_setAlarm_same (hrun : alarmsRun b row) : alarmBit (b.setAlarm row bit on value) row bit = on := by
  by_cases hbit : alarmBit b row bit = on
  · rw [b.setAlarm_of_still bit on value (.inr hbit), hbit]
  · rw [b.setAlarm_of_changed bit on value h2 hrun hbit, alarmBit, Block.get_active, Block.alarmTold_detail]
    cases on <;> simp [testBit_setBit, testBit_clearBit]

/-- The other alarms of its row stay. -/
theorem Block.alarmBit_setAlarm_bit {i : Nat} (hne : i ≠ bit) :
    alarmBit (b.setAlarm row bit on value) row i = alarmBit b row i := by
  obtain e | e := b.setAlarm_cases bit on value h2 <;> rw [e]
  rw [alarmBit, Block.get_active, Block.alarmTold_detail]
  cases on <;> simp [testBit_setBit, testBit_clearBit, alarmBit, hne, hne.symm]

end

end Sys2Proof.Machine
end

section
/-!
SUPPORT. DALI (R363 to R367): rows, tries, the bus and its polls.
-/

namespace Sys2Proof.Machine

open Sys2Proof.Claims

/-! ### Rows (R364) -/

theorem Block.daliShow_get (b : Block) {q : Reg} {k : Nat}
    (h : q.idx * 256 + q.sub ≠ Obj.daliBusState.idx * 256 + Obj.daliBusState.sub) (hk : k < 1048576) :
    b.daliShow.get q k = b.get q k := Block.get_put_other b _ h hk (by decide)

/-- The objects that the end of a row writes. -/
def daliEndObjects : List Nat :=
  [Obj.daliState, Obj.daliResult, Obj.daliReply, Obj.daliBusState].map fun r => r.idx * 256 + r.sub

section
variable (b : Block) {row : Nat} (hrow : row < 32) (result reply : Nat)

include hrow

theorem Block.daliFinish_get {q : Reg} {k : Nat} (h : q.idx * 256 + q.sub ∉ daliEndObjects) (hk : k < 1048576) :
    (b.daliFinish row result reply).get q k = b.get q k := by
  simp only [daliEndObjects, List.map_cons, List.map_nil, List.mem_cons, List.not_mem_nil, not_or, or_false] at h
  obtain ⟨hstate, hresult, hreply, hbus⟩ := h
  have hlarge : row < 1048576 := by omega
  unfold Block.daliFinish; dsimp only
  rw [Block.daliShow_get _ hbus hk, Block.get_modField, Block.get_put_other _ _ hreply hk hlarge,
    Block.get_put_other _ _ hresult hk hlarge, Block.get_put_other _ _ hstate hk hlarge]

/-- A row that has ended shows that it has, its result and its reply. -/
theorem Block.daliFinish_shows :
    (b.daliFinish row result reply).get Obj.daliState row = 3 ∧
      (b.daliFinish row result reply).get Obj.daliResult row = result ∧
      (b.daliFinish row result reply).get Obj.daliReply row = reply := by
  have hlarge : row < 1048576 := by omega
  unfold Block.daliFinish; dsimp only
  refine ⟨?_, ?_, ?_⟩ <;> rw [Block.daliShow_get _ (by decide) hlarge, Block.get_modField]
  · rw [Block.get_put_other _ _ (by decide) hlarge hlarge, Block.get_put_other _ _ (by decide) hlarge hlarge,
      Block.get_put_same]
  · rw [Block.get_put_other _ _ (by decide) hlarge hlarge, Block.get_put_same]
  · rw [Block.get_put_same]

/-- The end of one row leaves what another shows. -/
theorem Block.daliFinish_get_row {q : Reg} {k : Nat} (hq : q.idx * 256 + q.sub ≠ Obj.daliBusState.idx * 256 + Obj.daliBusState.sub)
    (hk : k < 32) (hne : k ≠ row) : (b.daliFinish row result reply).get q k = b.get q k := by
  have hkey (r : Reg) : q.key k ≠ r.key row := by
    refine fun e => hne ?_
    have := congrArg (· % 1048576) e
    rwa [Reg.key, Reg.key, Nat.mul_add_mod_of_lt (by omega), Nat.mul_add_mod_of_lt (by omega)] at this
  unfold Block.daliFinish; dsimp only
  rw [Block.daliShow_get _ hq (by omega), Block.get_modField, Block.get_put_ne _ _ (hkey _), Block.get_put_ne _ _ (hkey _),
    Block.get_put_ne _ _ (hkey _)]

end

/-- A row has ended with a result, a reply and no row running. -/
def daliEnded (row result reply : Nat) (x : Block) : Prop :=
  x.field.daliRun = none ∧ x.get Obj.daliState row = 3 ∧ x.get Obj.daliResult row = result ∧ x.get Obj.daliReply row = reply

theorem Block.daliFinish_ended (b : Block) {row : Nat} (hrow : row < 32) (result reply : Nat) :
    daliEnded row result reply (b.daliFinish row result reply) :=
  ⟨rfl, b.daliFinish_shows hrow result reply⟩

/-! ### Tries (R364, R365) -/

@[simp] theorem Block.daliSend_get (b : Block) (row : Nat) (q : Reg) (k : Nat) : (b.daliSend row).get q k = b.get q k := by
  unfold Block.daliSend; dsimp only; split <;> rfl

@[simp] theorem Block.daliSend_field (b : Block) (row : Nat) : (b.daliSend row).field = b.field := by
  unfold Block.daliSend; dsimp only; split <;> rfl

/-- What a row sends follows from its frame, its flags and the priority alone. -/
theorem Block.daliSend_outs_congr {b c : Block} {row : Nat} (houts : c.outs = b.outs)
    (hflags : c.get Obj.daliFlags row = b.get Obj.daliFlags row) (hframe : c.get Obj.daliFrame row = b.get Obj.daliFrame row)
    (hprio : c.get Obj.daliPriority = b.get Obj.daliPriority) : (c.daliSend row).outs = (b.daliSend row).outs := by
  unfold Block.daliSend; dsimp only
  rw [hflags, hframe, hprio]
  split <;> simp [houts]

theorem Block.daliRetry_again {b : Block} {d : DaliRun} (h : d.tries + 1 ≤ b.get Obj.daliRetries) :
    (b.daliRetry d).field.daliRun = some { d with tries := d.tries + 1 } ∧ (b.daliRetry d).outs = (b.daliSend d.row).outs ∧
      ∀ q k, (b.daliRetry d).get q k = b.get q k := by
  unfold Block.daliRetry
  rw [if_neg (by omega)]
  exact ⟨by simp [Block.modField], Block.daliSend_outs_congr rfl rfl rfl rfl, fun q k => by simp⟩

theorem Block.daliRetry_over {b : Block} {d : DaliRun} (h : b.get Obj.daliRetries < d.tries + 1) :
    b.daliRetry d = b.daliFinish d.row 4 0 := by
  unfold Block.daliRetry; exact if_pos h

/-! ### Rows that start and end (R364) -/

/-- FE runs DALI on a bus that is up. -/
def daliServed (b : Block) : Prop := b.feRuns = true ∧ b.is Obj.daliEnable = true ∧ b.field.daliDown = false

theorem daliServed_iff (b : Block) : (b.feRuns && b.is Obj.daliEnable && !b.field.daliDown) = true ↔ daliServed b := by
  simp [daliServed, and_assoc]

theorem Block.daliStart_of_none {b : Block} (h : b.field.daliQueue = [] ∨ ¬ daliServed b ∨ b.field.daliRun ≠ none) :
    b.daliStart = b := by
  unfold Block.daliStart
  split
  · rfl
  · rename_i hq
    refine if_neg fun hgo => ?_
    rw [Bool.and_eq_true, daliServed_iff, Option.isNone_iff_eq_none] at hgo
    simp [hq, hgo] at h

/-- The first row of the queue starts: it runs, shows that it does, and its frame is sent. -/
theorem Block.daliStart_of_queued {b : Block} {row : Nat} {l : List Nat} (hq : b.field.daliQueue = row :: l)
    (hs : daliServed b) (hrun : b.field.daliRun = none) (hrow : row < 32) :
    b.daliStart.field.daliRun = some { row := row } ∧ b.daliStart.field.daliQueue = l ∧ b.daliStart.get Obj.daliState row = 2 ∧
      b.daliStart.get Obj.daliBusState = 2 ∧ b.daliStart.outs = (b.daliSend row).outs := by
  have hlarge : row < 1048576 := by omega
  have hgo : (b.feRuns && b.is Obj.daliEnable && !b.field.daliDown && b.field.daliRun.isNone) = true := by
    rw [Bool.and_eq_true, daliServed_iff, hrun]; exact ⟨hs, rfl⟩
  obtain ⟨-, henable, hup⟩ := hs
  let c := ((b.modField fun f => { f with daliQueue := l, daliRun := some { row } }).put Obj.daliState 2 row).daliSend row
  have hc : b.daliStart = c.daliShow := by
    unfold Block.daliStart; simp only [hq, hgo, if_true]; rfl
  have hget (q : Reg) (h : q.idx * 256 + q.sub ≠ Obj.daliState.idx * 256 + Obj.daliState.sub) {k : Nat} (hk : k < 1048576) :
      c.get q k = b.get q k := by
    show (Block.daliSend _ _).get _ _ = _
    rw [Block.daliSend_get, Block.get_put_other _ _ h hk hlarge, Block.get_modField]
  have hfield : c.field = { b.field with daliQueue := l, daliRun := some { row } } := Block.daliSend_field _ _
  rw [hc]
  refine ⟨congrArg Field.daliRun hfield, congrArg Field.daliQueue hfield, ?_, ?_, ?_⟩
  · rw [Block.daliShow_get _ (by decide) hlarge]
    show (Block.daliSend _ _).get _ _ = _
    rw [Block.daliSend_get, Block.get_put_same]
  · have hon : c.is Obj.daliEnable = true := by rw [Block.is, hget _ (by decide) (by decide)]; exact henable
    rw [Block.daliShow, Block.get_put_same]
    simp [hon, hfield, hup]
  · show c.outs = _
    refine Block.daliSend_outs_congr rfl ?_ ?_ ?_ <;> rw [Block.get_put_other _ _ (by decide) (by omega) hlarge] <;> rfl

theorem Block.daliEnd_of_none {b : Block} (h : b.field.daliRun = none ∨ b.feRuns = false) (e : DaliEnd) : b.daliEnd e = b := by
  unfold Block.daliEnd
  split
  · rfl
  · rename_i d hrun
    simp_all

section
variable {b : Block} {d : DaliRun} (hrun : b.field.daliRun = some d)
include hrun

/-- A row that expects no reply ends with the end of its sending, and with nothing else but a collision. -/
theorem Block.daliEnd_of_sent (hfe : b.feRuns = true) (hwants : (b.get Obj.daliFlags d.row).testBit 1 = false) :
    b.daliEnd .sent = (b.daliArc d.row).daliFinish d.row 0 0 ∧ (∀ v, b.daliEnd (.reply v) = b) ∧ b.daliEnd .silence = b ∧
      b.daliEnd .garbled = b := by
  simp [Block.daliEnd, hrun, hfe, bitSet, hwants]

/-- A row that expects a reply ends with it, with silence or with an answer that is not read. -/
theorem Block.daliEnd_of_reply (hfe : b.feRuns = true) (hwants : (b.get Obj.daliFlags d.row).testBit 1 = true) :
    (∀ v, b.daliEnd (.reply v) = (b.daliArc d.row).daliFinish d.row 1 (v % 256)) ∧
      b.daliEnd .silence = (b.daliArc d.row).daliFinish d.row 2 0 ∧
      b.daliEnd .garbled = (b.daliArc d.row).daliFinish d.row 3 0 ∧ b.daliEnd .sent = b := by
  simp [Block.daliEnd, hrun, hfe, bitSet, hwants]

theorem Block.daliEnd_interleaved_of_single (h : (b.get Obj.daliFlags d.row).testBit 2 = false) :
    b.daliEnd .interleaved = b := by
  simp [Block.daliEnd, hrun, bitSet, h]

/-- Another master's frame in a pair fails the try. -/
theorem Block.daliEnd_interleaved_of_pair (hfe : b.feRuns = true) (h : (b.get Obj.daliFlags d.row).testBit 2 = true) :
    b.daliEnd .interleaved = b.daliRetry d := by
  simp [Block.daliEnd, hrun, hfe, bitSet, h]

end

/-! ### Collisions (R365) -/

theorem Block.daliCollision_of_unserved {b : Block} (h : ¬ daliServed b) : b.daliCollision = b := by
  unfold Block.daliCollision; exact if_neg (mt (daliServed_iff b).mp h)

theorem Block.daliCollision_of_idle {b : Block} (h : daliServed b) (hrun : b.field.daliRun = none) :
    b.daliCollision = b.add Obj.daliCollisions := by
  unfold Block.daliCollision; rw [if_pos ((daliServed_iff b).mpr h), hrun]

section
variable {b : Block} {d : DaliRun} (hs : daliServed b) (hrun : b.field.daliRun = some d) (hrow : d.row < 32)
include hs hrun

theorem Block.daliCollision_of_running : b.daliCollision = (b.add Obj.daliCollisions).daliRetry d := by
  unfold Block.daliCollision; rw [if_pos ((daliServed_iff b).mpr hs), hrun]

include hrow

/-- A collision before the last try counts, and the row is sent again. -/
theorem Block.daliCollision_again (h : d.tries + 1 ≤ b.get Obj.daliRetries) :
    (b.daliCollision.field.daliRun = some { d with tries := d.tries + 1 } ∧ b.daliCollision.outs = (b.daliSend d.row).outs) ∧
      b.daliCollision.get Obj.daliCollisions = Obj.daliCollisions.raised (b.get Obj.daliCollisions + 1) := by
  have hget {q : Reg} {k : Nat} (hk : k < 1048576)
      (hq : q.idx * 256 + q.sub ≠ Obj.daliCollisions.idx * 256 + Obj.daliCollisions.sub) :
      (b.add Obj.daliCollisions).get q k = b.get q k := Block.get_add_ne b 1 (Reg.key_ne hq hk (by decide))
  obtain ⟨hagain, houts, hkept⟩ := Block.daliRetry_again (b := b.add Obj.daliCollisions) (d := d)
    (by rwa [hget (by decide) (by decide)])
  rw [Block.daliCollision_of_running hs hrun]
  refine ⟨⟨hagain, houts.trans ?_⟩, (hkept _ _).trans (Block.get_add_same ..)⟩
  exact Block.daliSend_outs_congr rfl (hget (by omega) (by decide)) (hget (by omega) (by decide)) (hget (by decide) (by decide))

/-- A collision of the last try counts, and the row ends with result 4. -/
theorem Block.daliCollision_over (h : b.get Obj.daliRetries < d.tries + 1) :
    daliEnded d.row 4 0 b.daliCollision ∧
      b.daliCollision.get Obj.daliCollisions = Obj.daliCollisions.raised (b.get Obj.daliCollisions + 1) := by
  have hretries : (b.add Obj.daliCollisions).get Obj.daliRetries = b.get Obj.daliRetries :=
    Block.get_add_ne b 1 (by decide)
  rw [Block.daliCollision_of_running hs hrun, Block.daliRetry_over (hretries ▸ h)]
  exact ⟨Block.daliFinish_ended _ hrow 4 0,
    (Block.daliFinish_get _ hrow 4 0 (by decide) (by decide)).trans (Block.get_add_same ..)⟩

end

/-! ### The bus (R366) -/

/-- The rows that end when the bus goes down: the one that runs, and the queue. -/
def daliRows (b : Block) : List Nat := (b.field.daliRun.map (·.row)).toList ++ b.field.daliQueue

/-- Rows that end one after another all show that they have. -/
theorem Block.foldl_daliFinish_shows (result reply : Nat) {l : List Nat} (hl : ∀ r ∈ l, r < 32) {row : Nat} (hrow : row < 32)
    {b : Block} (h : row ∈ l ∨ (b.get Obj.daliState row = 3 ∧ b.get Obj.daliResult row = result)) :
    (l.foldl (fun (c : Block) r => c.daliFinish r result reply) b).get Obj.daliState row = 3 ∧
      (l.foldl (fun (c : Block) r => c.daliFinish r result reply) b).get Obj.daliResult row = result := by
  induction l generalizing b with
  | nil => simpa using h
  | cons r l ih =>
    rw [List.forall_mem_cons] at hl
    obtain ⟨hr, hl⟩ := hl
    refine ih hl ?_
    obtain rfl | hne := eq_or_ne row r
    · obtain ⟨hstate, hresult, -⟩ := b.daliFinish_shows hr result reply
      exact .inr ⟨hstate, hresult⟩
    · rw [Block.daliFinish_get_row b hr result reply (by decide) hrow hne,
        Block.daliFinish_get_row b hr result reply (by decide) hrow hne]
      simpa [hne] using h

theorem Block.foldl_daliFinish_field (result reply : Nat) (l : List Nat) {b : Block} (h : l = [] → b.field.daliRun = none) :
    (l.foldl (fun (c : Block) r => c.daliFinish r result reply) b).field = { b.field with daliRun := none } := by
  induction l generalizing b with
  | nil =>
    show b.field = _
    rw [← h rfl]
  | cons r l ih => exact (ih fun _ => rfl).trans rfl

theorem Block.foldl_daliFinish_get (result reply : Nat) {l : List Nat} (hl : ∀ r ∈ l, r < 32) (b : Block) {q : Reg} {k : Nat}
    (h : q.idx * 256 + q.sub ∉ daliEndObjects) (hk : k < 1048576) :
    (l.foldl (fun (c : Block) r => c.daliFinish r result reply) b).get q k = b.get q k := by
  induction l generalizing b with
  | nil => rfl
  | cons r l ih =>
    rw [List.forall_mem_cons] at hl
    exact (ih hl.2 _).trans (b.daliFinish_get hl.1 result reply h hk)

theorem Block.foldl_daliFinish_coreF (result reply : Nat) (l : List Nat) (b : Block) :
    (l.foldl (fun (c : Block) r => c.daliFinish r result reply) b).coreF = b.coreF := by
  induction l generalizing b with
  | nil => rfl
  | cons r l ih => exact (ih _).trans rfl

theorem Block.daliDown_of_unserved {b : Block} (h : ¬ daliServed b) : b.daliDown = b := by
  unfold Block.daliDown; exact if_neg (mt (daliServed_iff b).mp h)

/-- A bus that goes down ends every row with result 5 and raises its alarm. -/
theorem Block.daliDown_of_served {b : Block} (h : daliServed b) (hrows : ∀ r ∈ daliRows b, r < 32) :
    b.daliDown.field.daliDown = true ∧ b.daliDown.field.daliQueue = [] ∧ b.daliDown.field.daliRun = none ∧
      (alarmsRun b 6 → alarmBit b.daliDown 6 0 = true) ∧
      ∀ r ∈ daliRows b, b.daliDown.get Obj.daliState r = 3 ∧ b.daliDown.get Obj.daliResult r = 5 := by
  let c := (daliRows b).foldl (fun (c : Block) r => c.daliFinish r 5 0)
    (b.modField fun f => { f with daliDown := true, daliQueue := [] })
  have hc : b.daliDown = c.daliShow.setAlarm 6 0 true := by
    unfold Block.daliDown
    rw [if_pos ((daliServed_iff b).mpr h)]
    show Block.setAlarm (Block.daliShow (List.foldl _ _ _)) 6 0 true = _
    congr 3
    unfold daliRows
    cases b.field.daliRun <;> rfl
  have hfield : c.field = { b.field with daliDown := true, daliQueue := [], daliRun := none } := by
    refine Block.foldl_daliFinish_field 5 0 (daliRows b) fun hnil => ?_
    show b.field.daliRun = none
    simpa using (List.append_eq_nil_iff.mp hnil).1
  have hget {q : Reg} {k : Nat} (hq : q.idx * 256 + q.sub ∉ daliEndObjects) (hk : k < 1048576) : c.get q k = b.get q k :=
    Block.foldl_daliFinish_get 5 0 hrows _ hq hk
  have hruns : alarmsRun c.daliShow 6 ↔ alarmsRun b 6 := by
    refine alarmsRun_congr (Block.foldl_daliFinish_coreF ..) ?_ ?_ <;>
      rw [Block.daliShow_get _ (by decide) (by decide), hget (by decide) (by decide)]
  have hafter : b.daliDown.field = c.field := by rw [hc, Block.setAlarm_field _ _ _ _ (by decide)]; rfl
  rw [hafter, hfield]
  refine ⟨rfl, rfl, rfl, fun hr => ?_, fun r hr => ?_⟩
  · rw [hc]; exact Block.alarmBit_setAlarm_same _ _ _ _ (by decide) (hruns.mpr hr)
  · have hr32 := hrows r hr
    rw [hc]
    rw [Block.setAlarm_get _ _ _ _ (by decide) (by decide) (by decide) (by omega),
      Block.setAlarm_get _ _ _ _ (by decide) (by decide) (by decide) (by omega),
      Block.daliShow_get _ (by decide) (by omega), Block.daliShow_get _ (by decide) (by omega)]
    exact Block.foldl_daliFinish_shows 5 0 hrows hr32 (.inl hr)

theorem Block.daliUp_of_up {b : Block} (h : b.field.daliDown = false) : b.daliUp = b := by
  unfold Block.daliUp; simp [h]

/-- A bus that comes up ends its alarm. -/
theorem Block.daliUp_of_down {b : Block} (h : b.field.daliDown = true) :
    b.daliUp.field.daliDown = false ∧ (alarmsRun b 6 → alarmBit b.daliUp 6 0 = false) := by
  unfold Block.daliUp; rw [if_pos h]
  refine ⟨by rw [Block.setAlarm_field _ _ _ _ (by decide)]; rfl, fun hr => ?_⟩
  refine Block.alarmBit_setAlarm_same _ _ _ _ (by decide) ((alarmsRun_congr (b := b) rfl ?_ ?_).mpr hr) <;>
    exact Block.daliShow_get _ (by decide) (by decide)

end Sys2Proof.Machine
end

section
/-!
SUPPORT. The polls of DALI (R367).
-/

namespace Sys2Proof.Machine

open Sys2Proof.Claims

/-! ### What a poll of any address leaves -/

/-- What the polls of all addresses leave: which alarms are evaluated, the addresses asked, the time of the polls, and
what was told. -/
structure PollRests (b c : Block) : Prop where
  lamp : alarmsRun c 7 ↔ alarmsRun b 7
  gear : alarmsRun c 8 ↔ alarmsRun b 8
  mask : c.get Obj.daliPollMask = b.get Obj.daliPollMask
  pollAt : c.field.pollAt = b.field.pollAt
  outs : ∀ o ∈ b.outs, o ∈ c.outs

theorem PollRests.refl (b : Block) : PollRests b b := ⟨.rfl, .rfl, rfl, rfl, fun _ h => h⟩

theorem PollRests.trans {b c d : Block} (h : PollRests b c) (g : PollRests c d) : PollRests b d :=
  ⟨g.lamp.trans h.lamp, g.gear.trans h.gear, g.mask.trans h.mask, g.pollAt.trans h.pollAt, fun o ho => g.outs o (h.outs o ho)⟩

theorem PollRests.missed (b : Block) (m : List (Nat × Nat)) : PollRests b (b.modField fun f => { f with daliMissed := m }) :=
  ⟨.rfl, .rfl, rfl, rfl, fun _ h => h⟩

theorem PollRests.query (b : Block) (a : Nat) : PollRests b (b.daliQuery a) :=
  ⟨.rfl, .rfl, rfl, rfl, fun _ h => Block.mem_outs_emit h _⟩

theorem PollRests.setAlarm (b : Block) {row : Nat} (h2 : row ≠ 2) (hrow : row < 1048576) (bit : Nat) (on : Bool) :
    PollRests b (b.setAlarm row bit on) :=
  ⟨b.setAlarm_alarmsRun bit on 0 h2 hrow (by decide), b.setAlarm_alarmsRun bit on 0 h2 hrow (by decide),
    b.setAlarm_get bit on 0 h2 hrow (by decide) (by decide), congrArg Field.pollAt (b.setAlarm_field bit on 0 h2),
    fun _ ho => b.mem_outs_setAlarm bit on 0 h2 ho⟩

/-! ### What a poll of another address leaves -/

/-- What the polls of other addresses leave of one: its alarms, and the replies missed. -/
structure PollKeeps (a : Nat) (b c : Block) : Prop where
  lamp : alarmBit c 7 a = alarmBit b 7 a
  gear : alarmBit c 8 a = alarmBit b 8 a
  missed : assocGet c.field.daliMissed a = assocGet b.field.daliMissed a

theorem PollKeeps.refl (a : Nat) (b : Block) : PollKeeps a b b := ⟨rfl, rfl, rfl⟩

theorem PollKeeps.trans {a : Nat} {b c d : Block} (h : PollKeeps a b c) (g : PollKeeps a c d) : PollKeeps a b d :=
  ⟨g.lamp.trans h.lamp, g.gear.trans h.gear, g.missed.trans h.missed⟩

theorem PollKeeps.lampAlarm {a i : Nat} (h : a ≠ i) (b : Block) (on : Bool) : PollKeeps a b (b.setAlarm 7 i on) :=
  ⟨b.alarmBit_setAlarm_bit i on 0 (by decide) h, b.alarmBit_setAlarm_row i on 0 (by decide) (by decide) (by decide) (by decide) a,
    by rw [b.setAlarm_field i on 0 (by decide)]⟩

theorem PollKeeps.gearAlarm {a i : Nat} (h : a ≠ i) (b : Block) (on : Bool) : PollKeeps a b (b.setAlarm 8 i on) :=
  ⟨b.alarmBit_setAlarm_row i on 0 (by decide) (by decide) (by decide) (by decide) a, b.alarmBit_setAlarm_bit i on 0 (by decide) h,
    by rw [b.setAlarm_field i on 0 (by decide)]⟩

/-! ### The poll of one address -/

section
variable (b : Block) (i : Nat) (reply : Option Nat)

theorem Block.daliPolled_rests : PollRests b (b.daliPolled i reply) := by
  unfold Block.daliPolled
  split
  · exact .refl b
  · split
    · exact ((PollRests.missed b _).trans (.setAlarm _ (by decide) (by decide) _ _)).trans (.setAlarm _ (by decide) (by decide) _ _)
    · dsimp only
      split
      · exact (PollRests.missed b _).trans (.setAlarm _ (by decide) (by decide) _ _)
      · exact .missed b _

theorem Block.daliPolled_keeps {a : Nat} (h : a ≠ i) : PollKeeps a b (b.daliPolled i reply) := by
  unfold Block.daliPolled
  split
  · exact .refl a b
  · split
    · have hdel : PollKeeps a b (b.modField fun f => { f with daliMissed := assocDel f.daliMissed i }) :=
        ⟨rfl, rfl, assocGet_del_ne _ h⟩
      exact (hdel.trans (.lampAlarm h _ _)).trans (.gearAlarm h _ _)
    · have hput (n : Nat) : PollKeeps a b (b.modField fun f => { f with daliMissed := assocPut f.daliMissed i n }) :=
        ⟨rfl, rfl, assocGet_put_ne _ _ h⟩
      dsimp only
      split
      · exact (hput _).trans (.gearAlarm h _ _)
      · exact hput _

/-- What the poll of an address in the mask leaves of it: with a reply nothing is missed and the alarms follow it, without
one the missed replies count and the third raises the alarm. -/
def PollTold (b : Block) (i : Nat) (reply : Option Nat) (c : Block) : Prop :=
  (∀ n, reply = some n → assocGet c.field.daliMissed i = none ∧ (alarmsRun b 7 → alarmBit c 7 i = (n % 4 != 0)) ∧
    (alarmsRun b 8 → alarmBit c 8 i = false)) ∧
  (reply = none → assocNat c.field.daliMissed i = assocNat b.field.daliMissed i + 1 ∧
    (2 ≤ assocNat b.field.daliMissed i → alarmsRun b 8 → alarmBit c 8 i = true))

theorem Block.daliPolled_told (hmask : (b.get Obj.daliPollMask).testBit i = true) :
    PollTold b i reply (b.daliPolled i reply) := by
  unfold Block.daliPolled
  rw [if_neg (by simp [bitSet, hmask])]
  cases reply with
  | some v =>
    refine ⟨fun n hn => ?_, nofun⟩
    obtain rfl := Option.some.inj hn
    refine ⟨?_, fun h => ?_, fun h => ?_⟩
    · rw [Block.setAlarm_field _ _ _ _ (by decide), Block.setAlarm_field _ _ _ _ (by decide)]
      exact assocGet_del_same _ _
    · rw [Block.alarmBit_setAlarm_row _ _ _ _ (by decide) (by decide) (by decide) (by decide)]
      exact Block.alarmBit_setAlarm_same _ _ _ _ (by decide) h
    · exact Block.alarmBit_setAlarm_same _ _ _ _ (by decide) ((PollRests.setAlarm _ (by decide) (by decide) _ _).gear.mpr h)
  | none =>
    refine ⟨nofun, fun _ => ?_⟩
    have hput : assocNat (assocPut b.field.daliMissed i (assocNat b.field.daliMissed i + 1)) i =
        assocNat b.field.daliMissed i + 1 := by
      rw [assocNat, assocGet_put_same]; rfl
    dsimp only
    split
    · refine ⟨?_, fun _ h => Block.alarmBit_setAlarm_same _ _ _ _ (by decide) h⟩
      rw [Block.setAlarm_field _ _ _ _ (by decide)]; exact hput
    · exact ⟨hput, fun h => by omega⟩

/-- An address is asked, and its reply or silence told. -/
def Block.daliAsked (b : Block) (replies : List (Nat × Option Nat)) (a : Nat) : Block :=
  (b.daliQuery a).daliPolled a ((replies.find? fun x => x.1 == a).bind (·.2))

end

/-! ### A round of polls -/

theorem foldl_daliAsked_rests (replies : List (Nat × Option Nat)) (l : List Nat) (b : Block) :
    PollRests b (l.foldl (fun c a => c.daliAsked replies a) b) := by
  refine List.foldlRecOn (motive := PollRests b) l _ (.refl b) fun c hc a _ => hc.trans ?_
  exact (PollRests.query c a).trans (Block.daliPolled_rests _ a _)

theorem foldl_daliAsked_keeps (replies : List (Nat × Option Nat)) {l : List Nat} {a : Nat} (h : a ∉ l) (b : Block) :
    PollKeeps a b (l.foldl (fun c i => c.daliAsked replies i) b) := by
  refine List.foldlRecOn (motive := PollKeeps a b) l _ (.refl a b) fun c hc i hi => hc.trans ?_
  have hquery : PollKeeps a c (c.daliQuery i) := ⟨rfl, rfl, rfl⟩
  exact hquery.trans (Block.daliPolled_keeps _ i _ fun e => h (e ▸ hi))

/-- What a poll told of its address stands where that before it did, and after the polls of others. -/
theorem PollTold.of_keeps {a : Nat} {reply : Option Nat} {b b' c c' : Block} (h : PollTold b' a reply c) (hrest : PollRests b b')
    (hbefore : PollKeeps a b b') (hafter : PollKeeps a c c') : PollTold b a reply c' := by
  unfold PollTold assocNat at *
  rw [hafter.missed, hafter.lamp, hafter.gear, ← hbefore.missed]
  rwa [hrest.lamp, hrest.gear] at h

/-- In a round each address is asked once, and what is told of it is told of it as it was before the round. -/
theorem foldl_daliAsked_told (replies : List (Nat × Option Nat)) {l : List Nat} (hl : l.Nodup) {a : Nat} (ha : a ∈ l) (b : Block)
    (hmask : (b.get Obj.daliPollMask).testBit a = true) :
    .dali ((2 * a + 1) * 256 + 0x90) 16 5 ∈ (l.foldl (fun c i => c.daliAsked replies i) b).outs ∧
      PollTold b a ((replies.find? fun y => y.1 == a).bind (·.2)) (l.foldl (fun c i => c.daliAsked replies i) b) := by
  obtain ⟨l1, l2, rfl⟩ := List.append_of_mem ha
  rw [List.nodup_append, List.nodup_cons] at hl
  obtain ⟨-, ⟨hafter, -⟩, hbefore⟩ := hl
  rw [List.foldl_append, List.foldl_cons]
  set c := l1.foldl (fun c i => c.daliAsked replies i) b
  have hrest : PollRests b c := foldl_daliAsked_rests replies l1 b
  have hkeep : PollKeeps a b c := foldl_daliAsked_keeps replies (fun h => hbefore a h a (by simp) rfl) b
  refine ⟨?_, ?_⟩
  · refine (foldl_daliAsked_rests replies l2 _).outs _ ((Block.daliPolled_rests _ a _).outs _ ?_)
    simp [Block.daliQuery]
  · refine PollTold.of_keeps (Block.daliPolled_told (c.daliQuery a) a _ ?_) (hrest.trans (.query c a))
      (hkeep.trans ⟨rfl, rfl, rfl⟩) (foldl_daliAsked_keeps replies hafter _)
    rwa [(PollRests.query c a).mask, hrest.mask]

/-- The polls of a block are due. -/
def daliPollDue (b : Block) : Prop :=
  b.field.pollAt = none ∨ ∃ e, b.field.pollAt = some e ∧ e + secs (b.get Obj.daliPollPeriod) ≤ b.now

/-- What is due is decided as the model decides it. -/
theorem daliPollDue_iff (b : Block) : (match b.field.pollAt with
    | some t => decide (t + secs (b.get Obj.daliPollPeriod) ≤ b.now)
    | none => true) = true ↔ daliPollDue b := by
  unfold daliPollDue
  cases b.field.pollAt <;> simp

theorem Block.daliPoll_of_rest {b : Block} (h : ¬ daliServed b ∨ ¬ daliPollDue b) (replies : List (Nat × Option Nat)) :
    b.daliPoll replies = b := by
  unfold Block.daliPoll; dsimp only
  refine if_neg fun hgo => ?_
  obtain ⟨hs, hdue⟩ := Bool.and_eq_true_iff.mp hgo
  exact h.elim (· ((daliServed_iff b).mp hs)) (· ((daliPollDue_iff b).mp hdue))

theorem Block.daliPoll_of_due {b : Block} (hs : daliServed b) (hdue : daliPollDue b) (replies : List (Nat × Option Nat)) :
    b.daliPoll replies = ((List.range 64).filter fun a => bitSet (b.get Obj.daliPollMask) a).foldl
      (fun c a => c.daliAsked replies a) (b.modField fun f => { f with pollAt := some b.now }) := by
  unfold Block.daliPoll; dsimp only
  exact if_pos (Bool.and_eq_true_iff.mpr ⟨(daliServed_iff b).mpr hs, (daliPollDue_iff b).mpr hdue⟩)

/-- A round of polls that is due. -/
theorem Block.daliPoll_told {b : Block} (hs : daliServed b) (hdue : daliPollDue b) (replies : List (Nat × Option Nat)) :
    (b.daliPoll replies).field.pollAt = some b.now ∧ ∀ a < 64, (b.get Obj.daliPollMask).testBit a →
      .dali ((2 * a + 1) * 256 + 0x90) 16 5 ∈ (b.daliPoll replies).outs ∧
        PollTold b a ((replies.find? fun y => y.1 == a).bind (·.2)) (b.daliPoll replies) := by
  rw [Block.daliPoll_of_due hs hdue]
  refine ⟨(foldl_daliAsked_rests replies _ _).pollAt, fun a ha hmask => ?_⟩
  exact foldl_daliAsked_told replies (List.nodup_range.filter _) (by simp [ha, bitSet, hmask])
    (b.modField fun f => { f with pollAt := some b.now }) hmask

end Sys2Proof.Machine
end

section
/-!
SUPPORT. CAN FD (R374, R375), the submission of a DALI row (R364, R366), and the statement about both.
-/

namespace Sys2Proof.Machine

open Sys2Proof.Claims

/-! ### CAN FD -/

/-- A filter that a frame matches is one of the 16, is in use, and agrees with the frame (R375). -/
theorem Block.canFilter_some {b : Block} {ident f : Nat} {ide : Bool} (h : b.canFilter ident ide = some f) :
    f < 16 ∧ b.get Obj.canfFilterMask f ≠ 0 ∧ b.is Obj.canfFilterIde f = ide ∧
      (ident &&& b.get Obj.canfFilterMask f) = (b.get Obj.canfFilterId f &&& b.get Obj.canfFilterMask f) := by
  have hmatch := List.find?_some h
  simp only [Bool.and_eq_true, bne_iff_ne, beq_iff_eq] at hmatch
  obtain ⟨⟨hmask, hide⟩, hid⟩ := hmatch
  exact ⟨List.mem_range.mp (List.mem_of_find?_eq_some h), hmask, hide, hid⟩

/-- FE takes a frame of a number of octets: it runs, the port is not off the bus, and the frame has a length in use. -/
def canTakes (b : Block) (len : Nat) : Prop :=
  b.feRuns = true ∧ b.get Obj.busState < 2 ∧ (b.is Obj.fdEnable = true ∨ len ≤ 8)

/-- A frame is dropped where the model says so. -/
theorem not_canTakes_iff (b : Block) (len : Nat) :
    (!b.feRuns || decide (2 ≤ b.get Obj.busState) || (!b.is Obj.fdEnable && decide (8 < len))) = true ↔ ¬ canTakes b len := by
  cases hfe : b.feRuns <;> cases hfd : b.is Obj.fdEnable <;> simp [canTakes, hfe, hfd]
  all_goals omega

section
variable {s : State} {ident : Nat} {ide : Bool} {data : List Octet}

theorem State.canReceived_of_dropped (h : ¬ canTakes s.blk data.length) : s.canReceived ident ide data = s := by
  unfold State.canReceived
  exact if_pos ((not_canTakes_iff _ _).mpr h)

section
variable (h : canTakes s.blk data.length)
include h

theorem State.canReceived_of_plais (hp : s.blk.canIsPlais ident ide = true) : s.canReceived ident ide data =
    ({ s with blk := s.blk.active } : State).canSegment ident data := by
  unfold State.canReceived; dsimp only
  rw [if_neg (mt (not_canTakes_iff _ _).mp (not_not.mpr h)), if_pos hp]

/-- A frame that is not Plais goes to its first filter, or is dropped. -/
theorem State.canReceived_of_other (hp : s.blk.canIsPlais ident ide = false) {f : Option Nat}
    (hf : s.blk.canFilter ident ide = f) : s.canReceived ident ide data =
      { s with blk := f.elim s.blk.active fun f => s.blk.active.emit (.canIn f ident data) } := by
  unfold State.canReceived; dsimp only
  rw [if_neg (mt (not_canTakes_iff _ _).mp (not_not.mpr h)), if_neg (by simp [hp]), hf]
  cases f <;> rfl

end

end

/-- The port leaves the bus, counted, with its alarm. -/
theorem Block.canBusOff_of_on {b : Block} (hfe : b.feRuns = true) (hon : b.get Obj.busState ≠ 2) :
    b.canBusOff.get Obj.busState = 2 ∧ b.canBusOff.get Obj.busOffs = Obj.busOffs.raised (b.get Obj.busOffs + 1) ∧
      (alarmsRun b 12 → alarmBit b.canBusOff 12 0 = true) := by
  unfold Block.canBusOff
  rw [if_pos (by simp [hfe, hon])]
  refine ⟨?_, ?_, fun h => Block.alarmBit_setAlarm_same _ _ _ _ (by decide) ?_⟩
  · rw [Block.setAlarm_get _ _ _ _ (by decide) (by decide) (by decide) (by decide), Block.get_add_ne _ _ (by decide),
      Block.get_put_same]
  · rw [Block.setAlarm_get _ _ _ _ (by decide) (by decide) (by decide) (by decide), Block.get_add_same,
      Block.get_put_ne _ _ (by decide), Block.get_put_ne _ _ (by decide)]
    rfl
  · refine (alarmsRun_congr ?_ ?_ ?_).mpr h
    · rfl
    all_goals
      rw [Block.get_add_ne _ _ (by decide), Block.get_put_ne _ _ (by decide), Block.get_put_ne _ _ (by decide)]
      rfl

theorem Block.canBusOff_of_off {b : Block} (h : b.feRuns = false ∨ b.get Obj.busState = 2) : b.canBusOff = b := by
  unfold Block.canBusOff
  exact if_neg (by rcases h with h | h <;> simp [h])

/-- Recovery leaves the port error active, its counts at zero and its alarm ended. -/
theorem Block.canRecover_of_off {b : Block} (h : b.get Obj.busState = 2) :
    b.canRecover.get Obj.busState = 0 ∧ b.canRecover.get Obj.tec = 0 ∧ b.canRecover.get Obj.rec = 0 ∧
      (alarmsRun b 12 → alarmBit b.canRecover 12 0 = false) := by
  unfold Block.canRecover
  rw [if_pos h]
  refine ⟨?_, ?_, ?_, fun h => Block.alarmBit_setAlarm_same _ _ _ _ (by decide) ?_⟩
  · rw [Block.setAlarm_get _ _ _ _ (by decide) (by decide) (by decide) (by decide), Block.get_put_ne _ _ (by decide),
      Block.get_put_ne _ _ (by decide), Block.get_put_same]
  · rw [Block.setAlarm_get _ _ _ _ (by decide) (by decide) (by decide) (by decide), Block.get_put_ne _ _ (by decide),
      Block.get_put_same]
  · rw [Block.setAlarm_get _ _ _ _ (by decide) (by decide) (by decide) (by decide), Block.get_put_same]
  · refine (alarmsRun_congr ?_ ?_ ?_).mpr h
    · rfl
    all_goals rw [Block.get_put_ne _ _ (by decide), Block.get_put_ne _ _ (by decide), Block.get_put_ne _ _ (by decide)]

/-! ### The submission of a row -/

theorem Block.writeDaliState_of_other (b : Block) (row : Nat) {v : Nat} (h : v ≠ 1) : b.writeDaliState row v = (6, b) := by
  unfold Block.writeDaliState; exact if_pos h

theorem Block.writeDaliState_of_underWay {b : Block} {row : Nat} (h : b.get Obj.daliState row = 1 ∨ b.get Obj.daliState row = 2) :
    b.writeDaliState row 1 = (9, b) := by
  unfold Block.writeDaliState; dsimp only
  rw [if_neg (by decide), if_pos (by simpa using h)]

/-- On a bus that is up a row is queued; on one that is down it ends at once. -/
theorem Block.writeDaliState_of_submitted {b : Block} {row : Nat} (h1 : b.get Obj.daliState row ≠ 1)
    (h2 : b.get Obj.daliState row ≠ 2) : b.writeDaliState row 1 =
      if b.field.daliDown = true ∧ b.feRuns = true ∧ b.is Obj.daliEnable = true then
        (0, ((b.put Obj.daliState 3 row).put Obj.daliResult 5 row).put Obj.daliReply 0 row)
      else (0, (b.put Obj.daliState 1 row).modField fun f => { f with daliQueue := f.daliQueue ++ [row] }) := by
  unfold Block.writeDaliState; dsimp only
  rw [if_neg (by decide), if_neg (by simp [h1, h2])]
  simp only [Bool.and_eq_true, and_assoc]

/-- The submission of a row is one write of its STATE. -/
theorem writes_daliSubmit (s : State) (t row v : Nat) (p : Port) :
    Writes (.daliSubmit t p row v) s t p 0x6010 3 row 1 v fun w _ k => w.writeDaliState k v := by
  refine .of_portWrite (act := .plain) rfl (by omega) (by simp) fun x r k h => ?_
  obtain ⟨hfind, -⟩ := Block.checkWrite_ok h
  obtain rfl : Obj.daliState = r := by
    have hreg : x.blk.find 0x6010 3 = .ok Obj.daliState := rfl
    exact Except.ok.inj (hreg.symm.trans hfind)
  rfl

/-- What a submission does to the block. -/
theorem Block.writeDaliState_cases (w : Block) (row v : Nat) :
    (v ≠ 1 → w.writeDaliState row v = (6, w)) ∧
    (w.get Obj.daliState row = 1 ∨ w.get Obj.daliState row = 2 → w.writeDaliState row 1 = (9, w)) ∧
    (w.get Obj.daliState row ≠ 1 → w.get Obj.daliState row ≠ 2 →
      let x := (w.writeDaliState row 1).2
      let down := w.field.daliDown = true ∧ w.feRuns = true ∧ w.is Obj.daliEnable = true
      (w.writeDaliState row 1).1 = 0 ∧
      (¬ down → x.get Obj.daliState row = 1 ∧ x.field.daliQueue = w.field.daliQueue ++ [row]) ∧
      (down → x.get Obj.daliState row = 3 ∧ x.get Obj.daliResult row = 5 ∧ x.field = w.field)) := by
  refine ⟨w.writeDaliState_of_other row, Block.writeDaliState_of_underWay, fun h1 h2 => ?_⟩
  intro x down
  have hx : w.writeDaliState row 1 = _ := Block.writeDaliState_of_submitted h1 h2
  simp only [x, hx]
  refine ⟨by split <;> rfl, fun h => ?_, fun h => ?_⟩
  · rw [if_neg h]
    exact ⟨Block.get_put_same .., rfl⟩
  · have hkey {q r : Reg} (hne : q.idx * 256 + q.sub ≠ r.idx * 256 + r.sub) := Reg.key_ne_same_row row hne
    rw [if_pos h]
    refine ⟨?_, ?_, rfl⟩
    · rw [Block.get_put_ne _ _ (hkey (by decide)), Block.get_put_ne _ _ (hkey (by decide)), Block.get_put_same]
    · rw [Block.get_put_ne _ _ (hkey (by decide)), Block.get_put_same]

/-- Settles O54: each command by what its operation does in the case that the statement names; the end of the bus by an
induction over its rows, a round of polls by splitting it at the address asked. -/
theorem daliRowsAndCanFramesAreHandled : Obligations.DaliRowsAndCanFramesAreHandled := by
  refine ⟨fun s t row v p => ⟨writes_daliSubmit s t row v p, ?_⟩, Block.writeDaliState_cases,
    fun w ident f ide h => Block.canFilter_some h⟩
  intro hf b served rows
  refine ⟨fun h => .of_at rfl hf (Block.daliStart_of_none h),
    fun l hq hs hrun hrow => .of_at rfl hf (Block.daliStart_of_queued hq hs hrun hrow),
    fun e h => .of_at rfl hf (Block.daliEnd_of_none h e),
    fun h => .of_at rfl hf (Block.daliCollision_of_unserved h),
    fun hs hrun => .of_at rfl hf (Block.daliCollision_of_idle hs hrun), ?_,
    fun h => ⟨.of_at rfl hf (Block.daliDown_of_unserved h), fun l => .of_at rfl hf (Block.daliPoll_of_rest (.inl h) l)⟩,
    fun hs hrows => .of_at rfl hf (Block.daliDown_of_served hs hrows),
    fun h => .of_at rfl hf (Block.daliUp_of_up h), fun h => .of_at rfl hf (Block.daliUp_of_down h),
    fun replies => ⟨fun h => .of_at rfl hf (Block.daliPoll_of_rest (.inr h) replies),
      fun hs hdue => .of_at rfl hf (Block.daliPoll_told hs hdue replies)⟩, ?_,
    fun h => .of_at rfl hf (Block.canBusOff_of_off h), fun hfe hon => .of_at rfl hf (Block.canBusOff_of_on hfe hon),
    fun h => .of_at rfl hf (if_neg h), fun h => .of_at rfl hf (Block.canRecover_of_off h)⟩
  · intro d hrun hrow wants pair ends again counted
    have ends_of {e : DaliEnd} {c : Block} {result reply : Nat} (h : b.daliEnd e = c.daliFinish d.row result reply) :
        Takes (.daliRowEnd t e) s (ends result reply) :=
      .of_at rfl hf (show daliEnded d.row result reply (b.daliEnd e) from h ▸ c.daliFinish_ended hrow result reply)
    refine ⟨fun hfe hw => ?_, fun hfe hw => ?_, fun hp => .of_at rfl hf (Block.daliEnd_interleaved_of_single hrun hp),
      fun htry => ⟨fun hfe hp => .of_at rfl hf ?_, fun hs => .of_at rfl hf (Block.daliCollision_again hs hrun hrow htry)⟩,
      fun htry => ⟨fun hfe hp => ends_of (c := b) ?_, fun hs => .of_at rfl hf (Block.daliCollision_over hs hrun hrow htry)⟩⟩
    · obtain ⟨hsent, hreply, hsilence, hgarbled⟩ := Block.daliEnd_of_sent hrun hfe hw
      exact ⟨ends_of hsent, .of_at rfl hf (hreply v), .of_at rfl hf hsilence, .of_at rfl hf hgarbled⟩
    · obtain ⟨hreply, hsilence, hgarbled, hsent⟩ := Block.daliEnd_of_reply hrun hfe hw
      exact ⟨ends_of (hreply v), ends_of hsilence, ends_of hgarbled, .of_at rfl hf hsent⟩
    · obtain ⟨hagain, houts, -⟩ := Block.daliRetry_again htry
      rw [show (s.blk.tick t).daliEnd .interleaved = b.daliRetry d from Block.daliEnd_interleaved_of_pair hrun hfe hp]
      exact ⟨hagain, houts⟩
    · exact (Block.daliEnd_interleaved_of_pair hrun hfe hp).trans (Block.daliRetry_over htry)
  · intro ident ide data w on
    exact ⟨fun h => .of_atAll rfl hf (State.canReceived_of_dropped h),
      fun h hp => exec_of_atAll rfl hf (State.canReceived_of_plais h hp),
      fun h hp hn => .of_atAll rfl hf (State.canReceived_of_other (s := { s with blk := b }) h hp hn),
      fun f h hp hn => .of_atAll rfl hf (State.canReceived_of_other (s := { s with blk := b }) h hp hn)⟩

end Sys2Proof.Machine
end

section
/-!
The machine as it leaves manufacture (R82, R497).
-/

namespace Sys2Proof.Machine

theorem State.reset_reg (n r : Nat) : State.reset.reg n r = 0 := by
  unfold State.reg State.reset; dsimp only
  split
  · rfl
  · by_cases h : 32 * n + r < 384 <;> simp [h]

theorem State.reset_cpu (n : Nat) : State.reset.blk.cpu n = {} :=
  List.getElem?_getD_replicate_default_eq _ 12 n

/-- Off powers no engine's domain. -/
theorem Block.domainOn_of_off {b : Block} (h : b.mode.mode = .off) (n : Nat) : b.domainOn (engineDomain n) = false := by
  unfold engineDomain
  repeat' split
  all_goals simp [Block.domainOn, Block.coreF, Block.coreA, h]

/-- Settles O2: the power-up values field by field. -/
theorem resetIsTheDeviceWithoutPower : Obligations.ResetIsTheDeviceWithoutPower := by
  refine ⟨rfl, rfl, rfl, rfl, rfl, rfl, rfl, rfl, rfl, rfl, rfl, fun n _ => ⟨?_, fun r _ => ?_⟩, fun n => ?_⟩
  · rw [State.reset_cpu]
  · exact State.reset_reg n r
  · exact Block.domainOn_of_off rfl n

end Sys2Proof.Machine
end

section
/-!
SUPPORT. What stands while domains power down and up (R29, R82, R132): the levels that the block senses, the mode but
for its activity, and LOST_POWER_LAST, through every unit's loss of power.
-/

namespace Sys2Proof.Machine

/-- The levels of the pins and supplies that the block senses. -/
def Pins.sensed (p : Pins) : Bool × Bool × List Nat := (p.pwrOk, p.maintFitted, p.lowRails)

/-- The mode unit but for the tick from which idleness counts. -/
def ModeUnit.still (m : ModeUnit) : ModeUnit := { m with lastActivity := 0 }

/-- The index and subindex of LOST_POWER_LAST in one number. -/
def lostCode : Nat := Obj.lostPowerLast.idx * 256 + Obj.lostPowerLast.sub

/-- A Stored object has its value from the two stores of its class. -/
theorem Block.get_of_stored {b c : Block} {q : Reg} (hq : q.home = .stored) (hf : c.regs.stored = b.regs.stored)
    (hs : c.regs.slots = b.regs.slots) (k : Nat) : c.get q k = b.get q k := by
  simp only [Block.get, RegFile.get, RegFile.slotBad, RegFile.sel, hq, hf, hs]

/-- From one block to another the sensed levels, the mode but for its activity, and LOST_POWER_LAST stand. -/
structure Stands (b c : Block) : Prop where
  pins : c.pins.sensed = b.pins.sensed
  mode : c.mode.still = b.mode.still
  lost : c.get Obj.lostPowerLast = b.get Obj.lostPowerLast

namespace Stands

theorem refl (b : Block) : Stands b b := ⟨rfl, rfl, rfl⟩

theorem trans {a b c : Block} (h : Stands a b) (k : Stands b c) : Stands a c :=
  ⟨k.pins.trans h.pins, k.mode.trans h.mode, k.lost.trans h.lost⟩

/-- What stands before a step that leaves it stands after it. -/
theorem after {a b c : Block} (k : Stands b c) (h : Stands a b) : Stands a c := h.trans k

/-- Where the stores of the Stored objects are the same, so is LOST_POWER_LAST. -/
theorem of_stored {b c : Block} (hp : c.pins.sensed = b.pins.sensed) (hm : c.mode.still = b.mode.still)
    (hf : c.regs.stored = b.regs.stored) (hs : c.regs.slots = b.regs.slots) : Stands b c :=
  ⟨hp, hm, Block.get_of_stored rfl hf hs 0⟩

theorem foldl {α : Type} {f : Block → α → Block} (h : ∀ b x, Stands b (f b x)) (l : List α) (b : Block) :
    Stands b (l.foldl f b) :=
  List.foldlRecOn (motive := Stands b) l f (refl b) fun _ hc x _ => hc.trans (h _ x)

theorem ite {p : Prop} [Decidable p] {b c d : Block} (hc : Stands b c) (hd : Stands b d) :
    Stands b (if p then c else d) := by
  split
  · exact hc
  · exact hd

theorem put (b : Block) {q : Reg} {row : Nat} (v : Nat) (h : Obj.lostPowerLast.key 0 ≠ q.key row) :
    Stands b (b.put q v row) := ⟨rfl, rfl, b.get_put_ne v h⟩

/-- The keys of an object that lies above LOST_POWER_LAST in the dictionary differ from its, whatever the row. -/
theorem key_ne_of_above {q : Reg} (h : lostCode < q.idx * 256 + q.sub) (row : Nat) :
    Obj.lostPowerLast.key 0 ≠ q.key row :=
  Nat.ne_of_lt (Nat.lt_of_lt_of_le (Nat.mul_lt_mul_of_pos_right h (by decide)) (Nat.le_add_right _ row))

theorem put_above (b : Block) {q : Reg} (v : Nat) (row : Nat) (h : lostCode < q.idx * 256 + q.sub) :
    Stands b (b.put q v row) := put b v (key_ne_of_above h row)

theorem add_above (b : Block) {q : Reg} (n : Nat) (row : Nat) (h : lostCode < q.idx * 256 + q.sub) :
    Stands b (b.add q n row) := put_above b _ row h

theorem put_of (b : Block) {q : Reg} (r : Radio) (v : Nat) (row : Nat) (h : lostCode < q.idx * 256 + q.sub) :
    Stands b (b.put (q.of r) v row) :=
  put_above b v row (h.trans_le (Nat.add_le_add_right (Nat.mul_le_mul_right _ (Nat.le_add_right _ _)) _))

theorem add_of (b : Block) {q : Reg} (r : Radio) (n : Nat) (row : Nat) (h : lostCode < q.idx * 256 + q.sub) :
    Stands b (b.add (q.of r) n row) := put_of b r _ row h

theorem add_eng (b : Block) {q : Reg} (n k row : Nat) (h : lostCode < q.idx * 256 + q.sub) :
    Stands b (b.add (q.eng n) k row) :=
  add_above b k row (h.trans_le (Nat.add_le_add_right (Nat.mul_le_mul_right _ (Nat.le_add_right _ _)) _))

theorem of_tells {ks : List Nat} {b c : Block} (h : Tells ks b c) (hk : Obj.lostPowerLast.key 0 ∉ ks) : Stands b c :=
  ⟨by rw [h.pins], by rw [h.mode], h.get _ _ hk⟩

theorem notice (b : Block) (code : Nat) (r : Reg) (row : Nat) (payload : List Nat) :
    Stands b (b.notice code r row payload) := of_tells (.notice b code r row payload) (by decide)

theorem post (b : Block) (type : Nat) (payload : List Nat) (first : Bool) (flags : Nat) :
    Stands b (b.post type payload first flags) := of_tells (.post [] b type payload first flags) (by simp)

theorem of_remelts {ks : List Nat} {b c : Block} (h : Remelts ks b c) (hk : Obj.lostPowerLast.key 0 ∉ ks) :
    Stands b c := by
  have hp : c.pins = b.pins := by have e := congrArg Block.pins h.rest; exact e
  have hm : c.mode = b.mode := by have e := congrArg Block.mode h.rest; exact e
  exact ⟨by rw [hp], by rw [hm], h.get _ _ hk⟩

theorem remelt (b : Block) (code : Nat) (sel : Gather → Bool) : Stands b (b.remelt code sel) := by
  refine of_remelts (.remelt b code sel) ?_
  have hcause : Obj.lostPowerLast.key 0 ≠ (remeltReg code).key 0 := by unfold remeltReg; split <;> decide
  simp only [remeltKeys, List.mem_cons, List.not_mem_nil, or_false, not_or]
  exact ⟨hcause, by decide, by decide, by decide⟩

theorem active (b : Block) : Stands b b.active := ⟨rfl, rfl, rfl⟩

/-! ### Engines and events -/

theorem tryWake (b : Block) (n : Nat) : Stands b (b.tryWake n) := by
  unfold Block.tryWake; split
  · next c _ =>
    have hcpu : Stands b (b.modCpu n fun _ => c) := ⟨rfl, rfl, rfl⟩
    exact hcpu.trans (add_eng _ n 1 0 (by decide))
  · exact refl b

theorem event (b : Block) (n bit : Nat) : Stands b (b.event n bit) := by
  unfold Block.event; extract_lets c m f c1; split
  · have hcpu : Stands b (b.modCpu n fun _ => c1) := ⟨rfl, rfl, rfl⟩
    exact hcpu.trans (tryWake _ n)
  · exact refl b

theorem tbSwitch (b : Block) : Stands b b.tbSwitch := by
  refine foldl (fun c n => ?_) _ b
  exact (event _ n 16).after ⟨rfl, rfl, rfl⟩

/-! ### Alarms and the field outputs -/

theorem setAlarm (b : Block) {row : Nat} (bit : Nat) (on : Bool) (value : Int) (h2 : row ≠ 2) (hrow : row < 13) :
    Stands b (b.setAlarm row bit on value) := by
  have htold : Stands b (b.alarmTold row bit on value) :=
    of_tells (b.alarmTold_tells bit on value) (key_notMem_alarmKeys (by decide) (by decide) (by omega))
  rcases b.setAlarm_cases bit on value h2 with e | e <;> rw [e]
  · exact refl b
  · exact htold.trans (active _)

theorem relayWear (b : Block) (r : Nat) : Stands b (b.relayWear r) := setAlarm b r _ 0 (by decide) (by decide)

theorem relayPin (b : Block) (r : Nat) (on : Bool) : Stands b (b.relayPin r on) := by
  unfold Block.relayPin; split
  · exact refl b
  · extract_lets b1 b2
    have h1 : Stands b b1 := (put_above b _ r (by decide)).trans (add_above _ 1 r (by decide))
    have h2 : Stands b1 (b2.emit (.pin (16 + r) on)) := ⟨rfl, rfl, rfl⟩
    exact (h1.trans h2).trans (relayWear _ r)

theorem fieldRelease (b : Block) : Stands b b.fieldRelease := by
  unfold Block.fieldRelease; extract_lets b1
  have h1 : Stands b b1 := ⟨rfl, rfl, rfl⟩
  exact (h1.trans ((relayPin _ 0 false).trans (relayPin _ 1 false))).trans ⟨rfl, rfl, rfl⟩

theorem alarmEvaluate (b : Block) (row : Nat) : Stands b (b.alarmEvaluate row) := by
  unfold Block.alarmEvaluate
  split
  · exact (relayWear b 0).trans (relayWear _ 1)
  · exact ite (setAlarm b 0 true 0 (by decide) (by decide)) (refl b)
  · exact setAlarm b 0 _ 0 (by decide) (by decide)
  · exact ite (foldl (fun c d => setAlarm c d _ 0 (by decide) (by decide)) _ b) (refl b)
  · exact foldl (fun c k => setAlarm c k _ _ (by decide) (by decide)) _ b
  · exact foldl (fun c k => setAlarm c k _ _ (by decide) (by decide)) _ b
  · exact setAlarm b 0 _ 0 (by decide) (by decide)
  · exact refl b

/-! ### The lines and the commands of a radio -/

theorem dutyCorrect (b : Block) (c : Charge) (used : Nat) : Stands b (b.dutyCorrect c used) := by
  unfold Block.dutyCorrect
  refine ite (foldl (fun d i => ?_) _ b) (foldl (fun d i => ?_) _ b) <;> exact ⟨rfl, rfl, rfl⟩

theorem coexOut (b : Block) (r : Radio) (on : Bool) : Stands b (b.coexOut r on) := ite (refl b) ⟨rfl, rfl, rfl⟩

theorem blankTail (b : Block) (source : Nat) : Stands b (b.blankTail source) := ite ⟨rfl, rfl, rfl⟩ (refl b)

theorem femDrive (b : Block) (r : Radio) (at_ : Nat) : Stands b (b.femDrive r at_) := ite (refl b) ⟨rfl, rfl, rfl⟩

theorem splitFollow (b : Block) : Stands b b.splitFollow := ite (refl b) ⟨rfl, rfl, rfl⟩

theorem rampEnd (b : Block) (r : Radio) : Stands b (b.rampEnd r) := by
  unfold Block.rampEnd; split
  · exact refl b
  · next a _ =>
    extract_lets b1
    have h1 : Stands b b1 := ⟨rfl, rfl, rfl⟩
    have hfreeze (c : Block) : Stands c (c.freeze r b.now) := ⟨rfl, rfl, rfl⟩
    exact ((((h1.trans (coexOut _ r false)).trans (blankTail _ _)).trans (femDrive _ r _)).trans (hfreeze _)).trans
      (splitFollow _)

theorem contend (b : Block) (r : Radio) (ac : Nat) : Stands b (b.contend r ac) := ite (refl b) ⟨rfl, rfl, rfl⟩

theorem takeCmd (b : Block) (r : Radio) (c : TxCmd) (ac : Nat) : Stands b (b.takeCmd r c ac) := by
  unfold Block.takeCmd; extract_lets b1
  have h1 : Stands b b1 := ⟨rfl, rfl, rfl⟩
  exact ite h1 (ite (h1.trans ⟨rfl, rfl, rfl⟩) (ite h1 (h1.trans (contend b1 r ac))))

theorem endCmd (b : Block) (r : Radio) : Stands b (b.endCmd r) := by
  unfold Block.endCmd; extract_lets b0 b1
  have h0 : Stands b b0 := ⟨rfl, rfl, rfl⟩
  have h1 : Stands b0 b1 := ite (ite (refl b0) ⟨rfl, rfl, rfl⟩) (refl b0)
  split
  · exact h0.trans h1
  · next l _ =>
    have hown : Stands b1 (b1.modRadio r fun u => { u with own := l }) := ⟨rfl, rfl, rfl⟩
    exact (h0.trans h1).trans (hown.trans (takeCmd _ r _ 3))

theorem missedTrigger (b : Block) (gid : Nat) : Stands b (b.missedTrigger gid) := by
  unfold Block.missedTrigger; split
  · exact refl b
  · exact (remelt _ _ _).after ⟨rfl, rfl, rfl⟩

theorem uncommit (b : Block) (r : Radio) : Stands b (b.uncommit r) := by
  unfold Block.uncommit; split
  · exact refl b
  · extract_lets b1
    have h1 : Stands b b1 := (dutyCorrect b _ 0).trans (rampEnd _ r)
    split
    · exact (missedTrigger _ _).after (h1.trans ⟨rfl, rfl, rfl⟩)
    · exact h1

theorem edgeResult (b : Block) (r : Radio) (e : Nat) (l : List Nat) : Stands b (b.edgeResult r e l) :=
  (event _ _ _).after ⟨rfl, rfl, rfl⟩

theorem txStatus (b : Block) (r : Radio) (code : Nat) : Stands b (b.txStatus r code) := by
  have habove : lostCode < (txStatusReg code).idx * 256 + (txStatusReg code).sub := by
    unfold txStatusReg; split <;> decide
  have h1 : Stands b (b.edgeResult r 1 [code]) := edgeResult b r 1 _
  exact ite h1 (h1.trans (add_of _ r 1 0 habove))

theorem retryUnchanged (b : Block) (r : Radio) (c : TxCmd) : Stands b (b.retryUnchanged r c) := by
  unfold Block.retryUnchanged; split <;> exact ⟨rfl, rfl, rfl⟩

/-! ### What a radio puts on air -/

theorem pushStamp (b : Block) (q ident time : Nat) : Stands b (b.pushStamp q ident time) := by
  refine ite ⟨rfl, rfl, rfl⟩ (Stands.trans ?_ (notice _ _ _ _ _))
  exact (put_above b 1 q (by decide)).trans (add_above _ 1 q (by decide))

theorem lowNumber (b : Block) (f : Frame) : Stands b (b.lowNumber f) := by
  unfold Block.lowNumber; split
  · exact ite (refl b) ((put_above _ _ _ (by decide)).after ⟨rfl, rfl, rfl⟩)
  · exact refl b

theorem dataOnAir (b : Block) (r : Radio) (f : Frame) : Stands b (b.dataOnAir r f) := by
  unfold Block.dataOnAir; split <;> exact ⟨rfl, rfl, rfl⟩

theorem frameOnAir (b : Block) (r : Radio) (fid : Nat) : Stands b (b.frameOnAir r fid) := by
  unfold Block.frameOnAir; split
  · exact refl b
  · next f _ =>
    extract_lets b0 b1
    have h0 : Stands b b0 := (ite (lowNumber b f) (refl b)).trans (dataOnAir _ r f)
    have h1 : Stands b b1 := h0.trans ⟨rfl, rfl, rfl⟩
    exact ite h1 (h1.trans (Block.txStamp_induct (refl b1) (fun _ _ => pushStamp b1 _ _ _) _ _ _))

theorem gatherOnAir (b : Block) (r : Radio) (gid : Nat) : Stands b (b.gatherOnAir r gid) := by
  unfold Block.gatherOnAir; split
  · exact refl b
  · extract_lets b1 b2
    have h1 : Stands b b1 := (add_above _ 1 0 (by decide)).after ⟨rfl, rfl, rfl⟩
    have h2 : Stands b1 b2 := foldl (fun c i => frameOnAir c r i) _ b1
    exact (h1.trans h2).trans (remelt _ _ _)

theorem lowTakes (b : Block) (k : Nat) (r : Radio) : Stands b (b.lowTakes k r) :=
  ite (put_above b _ _ (by decide)) (refl b)

theorem mgmtOnAir (b : Block) (k : Nat) (r : Radio) (cseq : Nat) (ackReq : Bool) :
    Stands b (b.mgmtOnAir k r cseq ackReq) := by
  unfold Block.mgmtOnAir; split
  · exact refl b
  · extract_lets b1
    have h1 : Stands b b1 := ite (refl b) (lowTakes b k r)
    exact h1.trans ⟨rfl, rfl, rfl⟩

theorem ctlOnAir (b : Block) (k type : Nat) (r : Radio) : Stands b (b.ctlOnAir k type r) := by
  unfold Block.ctlOnAir; extract_lets b1
  have h1 : Stands b b1 := ite (refl b) ((lowTakes b k r).trans ⟨rfl, rfl, rfl⟩)
  split
  · exact h1.trans ⟨rfl, rfl, rfl⟩
  · refine h1.trans ?_
    unfold Block.nackOnAir; extract_lets l; split
    · exact refl b1
    · have hair (o : List Octet) : Stands b1 (b1.caneAir k r 2 7 o) := ⟨rfl, rfl, rfl⟩
      exact ((hair _).trans (add_above _ 1 k (by decide))).trans ⟨rfl, rfl, rfl⟩
  · exact h1.trans ⟨rfl, rfl, rfl⟩
  · exact h1.trans ⟨rfl, rfl, rfl⟩
  · exact h1

theorem carriedOnAir (b : Block) (r : Radio) (c : TxCmd) : Stands b (b.carriedOnAir r c) := by
  unfold Block.carriedOnAir; split
  · exact gatherOnAir b r _
  · exact frameOnAir b r _
  · exact mgmtOnAir b _ r _ _
  · exact ctlOnAir b _ _ r
  · exact refl b

theorem cutPpdu (b : Block) (r : Radio) (status : Nat) : Stands b (b.cutPpdu r status) := by
  unfold Block.cutPpdu; split
  · exact refl b
  · next a _ =>
    extract_lets used b1 b2
    have h1 : Stands b b1 := ite (refl b) (carriedOnAir b r _)
    have h2 : Stands b1 b2 := ((dutyCorrect b1 _ _).trans (rampEnd _ r)).trans ⟨rfl, rfl, rfl⟩
    have hend : Stands b2 (((b2.txStatus r status).retryUnchanged r a.cmd).endCmd r) :=
      ((txStatus b2 r status).trans (retryUnchanged _ r _)).trans (endCmd _ r)
    exact (h1.trans h2).trans (ite (refl b2) hend)

/-! ### A radio's domain -/

theorem stopPpdu (b : Block) (r : Radio) : Stands b (b.stopPpdu r) := by
  unfold Block.stopPpdu; extract_lets b0 u b1
  have h0 : Stands b b0 := ⟨rfl, rfl, rfl⟩
  have h1 : Stands b0 b1 := ite (cutPpdu b0 r 4) (uncommit b0 r)
  have hidle (c : Block) : Stands c (c.modRadio r fun x => { x with cmd := none, phase := .idle, own := [] }) :=
    ⟨rfl, rfl, rfl⟩
  refine (h0.trans h1).trans (ite (Stands.trans ?_ (hidle _)) (hidle b1))
  split
  · exact retryUnchanged b1 r _
  · exact refl b1

theorem radioDown (b : Block) (r : Radio) : Stands b (b.radioDown r) := by
  unfold Block.radioDown; extract_lets b2 b3 b4 region b5
  have h2 : Stands b b2 := (stopPpdu b r).trans ⟨rfl, rfl, rfl⟩
  have hloads (c : Block) : Stands c c.loadsSettle := ⟨rfl, rfl, rfl⟩
  have h3 : Stands b2 b3 := ((put_of b2 r 0 0 (by decide)).trans (put_of _ r 0 0 (by decide))).trans (hloads _)
  have h4 : Stands b3 b4 := ⟨rfl, rfl, rfl⟩
  clear_value b4
  have h5 : Stands b4 b5 := by
    unfold b5; split
    · exact ⟨rfl, rfl, rfl⟩
    · exact put_above b4 0 0 (by decide)
    · exact ⟨rfl, rfl, rfl⟩
  exact (h2.trans (h3.trans (h4.trans h5))).trans (femDrive b5 r _)

theorem updateLink (b : Block) (k : Nat) : Stands b (b.updateLink k) := by
  unfold Block.updateLink; extract_lets old ups new b1
  have h1 : Stands b b1 := put_above b new k (by decide)
  exact ite (h1.trans (notice _ _ _ _ _)) (ite (h1.trans (notice _ _ _ _ _)) h1)

theorem setStrand (b : Block) (k : Nat) (r : Radio) (v : Nat) : Stands b (b.setStrand k r v) :=
  put_above b _ k (by decide)

theorem strandsDown (b : Block) (r : Radio) : Stands b (b.strandsDown r) := by
  refine foldl (fun c k => ?_) _ b
  exact ite (refl c) (((remelt c 6 _).trans (setStrand _ k r 1)).trans (updateLink _ k))

/-- A Stored object keeps its value through a domain's loss of power. -/
theorem clearDomain (b : Block) (d : Nat) : Stands b (b.clearDomain d) := ⟨rfl, rfl, rfl⟩

theorem radioOff (b : Block) (r : Radio) : Stands b (b.radioOff r) :=
  ite (refl b) (((strandsDown b r).trans (radioDown _ r)).trans (clearDomain _ _))

theorem calDue (b : Block) (r : Radio) (kind : Nat) : Stands b (b.calDue r kind) := ite ⟨rfl, rfl, rfl⟩ (refl b)

theorem settleOn (b : Block) (r : Radio) (freq bw : Nat) : Stands b (b.settleOn r freq bw) := by
  unfold Block.settleOn; extract_lets u cross b1 b2 b3
  have h1 : Stands b b1 := (put_of _ r 1 0 (by decide)).after ⟨rfl, rfl, rfl⟩
  have h2 : Stands b1 b2 := ((put_of b1 r _ 0 (by decide)).trans (calDue _ r 4)).trans (calDue _ r 0)
  have h3 : Stands b2 b3 := (ite (calDue b2 r 1) (refl b2)).trans (femDrive _ r _)
  refine (h1.trans (h2.trans h3)).trans ?_
  split
  · exact ⟨rfl, rfl, rfl⟩
  · exact (put_above b3 _ 0 (by decide)).trans (splitFollow _)
  · exact refl b3

theorem radioOnUp (b : Block) (r : Radio) : Stands b (b.radioOnUp r) := by
  refine ite (refl b) ?_
  unfold Block.radioUp; extract_lets b1 b2
  have h1 : Stands b b1 := ⟨rfl, rfl, rfl⟩
  have h2 : Stands b1 b2 := foldl (fun c k => calDue c r k) _ b1
  exact (h1.trans h2).trans ((settleOn b2 r _ _).trans (remelt _ 7 _))

/-! ### The other domains -/

theorem dramUp (b : Block) : Stands b b.dramUp := by
  unfold Block.dramUp; extract_lets d size ok f spill d1 b1
  have hdram (x : Dram) : Stands b { b with dram := x } := ⟨rfl, rfl, rfl⟩
  have h1 : Stands b b1 := ((hdram d1).trans (put_above _ _ 0 (by decide))).trans (put_above _ _ 0 (by decide))
  refine ite ((h1.trans (put_above _ _ 0 (by decide))).trans (put_above _ _ 0 (by decide))) ?_
  exact ((hdram _).trans (put_above _ _ 0 (by decide))).trans (put_above _ _ 0 (by decide))

theorem detectorsGap (b : Block) : Stands b b.detectorsGap := by
  unfold Block.detectorsGap; extract_lets st b1
  have hlane (c : Block) (l : Nat) (f : Lane → Lane) : Stands c (c.modLane l f) := ⟨rfl, rfl, rfl⟩
  have hcars (c : Block) (l : Nat) : Stands c (c.carsLost l) := foldl (fun d v => hlane d l _) _ c
  have h1 : Stands b b1 := foldl (fun c l => (hcars c l).trans (hlane _ l _)) _ b
  clear_value b1
  exact h1.trans ⟨rfl, rfl, rfl⟩

theorem coreAOff (b : Block) : Stands b b.coreAOff := by
  unfold Block.coreAOff; extract_lets b1 links held p m b2
  have htime : Stands b b.timeDown := ⟨rfl, rfl, rfl⟩
  have hengines (c : Block) : Stands c ((c.clearDomain 2).enginesOff 2) := .of_stored rfl rfl rfl rfl
  have hlose (c : Block) : Stands c (c.lose .coreA) := ⟨rfl, rfl, rfl⟩
  have h1 : Stands b b1 := ((htime.trans (tbSwitch _)).trans (detectorsGap _)).trans (hengines _)
  clear_value b1
  have h2 : Stands b1 b2 := .of_stored rfl rfl rfl rfl
  exact (h1.trans h2).trans ((put b2 _ (by decide)).trans (hlose _))

theorem coreFOff (b : Block) : Stands b b.coreFOff := by
  unfold Block.coreFOff; extract_lets b1
  have h1 : Stands b b1 := (fieldRelease b).trans (.of_stored rfl rfl rfl rfl)
  clear_value b1
  exact h1.trans (.of_stored rfl rfl rfl rfl)

theorem domainDown (b : Block) (d : Nat) : Stands b (b.domainDown d) := by
  unfold Block.domainDown; split
  · exact coreFOff b
  · exact coreAOff b
  · exact radioOff b .h
  · exact radioOff b .m
  · exact radioOff b .l
  · exact ⟨rfl, rfl, rfl⟩
  · exact ⟨rfl, rfl, rfl⟩

theorem downTo (b : Block) (a z : Mode) : Stands b (b.downTo a z) := foldl domainDown _ b

end Stands

end Sys2Proof.Machine
end

section
/-!
SUPPORT. Held work given up (R96, R121): what abandoning frames and a station's departure leave.
-/

namespace Sys2Proof.Machine

/-- A row listed of a table is a row that its keys can name. -/
theorem Block.lt_of_mem_listedRows {b : Block} {q : Reg} {row : Nat} (h : row ∈ b.listedRows q) : row < 1048576 := by
  obtain ⟨c, -, rfl⟩ := List.mem_map.mp h
  exact Nat.mod_lt _ (by decide)

/-- From one block to another frames may have gone and none has come, and the time, the mode, the pins, LOST_POWER_LAST
and DRAIN_FLUSHED are the same. -/
structure Releases (b c : Block) : Prop where
  now : c.now = b.now
  mode : c.mode = b.mode
  pins : c.pins = b.pins
  frames : ∀ f ∈ c.frames, ∃ g ∈ b.frames, g.id = f.id ∧ g.queue = f.queue
  lost : c.get Obj.lostPowerLast = b.get Obj.lostPowerLast
  flushed : c.get Obj.drainFlushed = b.get Obj.drainFlushed

namespace Releases

theorem of_eq {b c : Block} (hnow : c.now = b.now) (hmode : c.mode = b.mode) (hpins : c.pins = b.pins)
    (hframes : c.frames = b.frames) (hregs : c.regs = b.regs) : Releases b c :=
  ⟨hnow, hmode, hpins, fun f hf => ⟨f, hframes ▸ hf, rfl, rfl⟩, by unfold Block.get; rw [hregs],
    by unfold Block.get; rw [hregs]⟩

theorem refl (b : Block) : Releases b b := of_eq rfl rfl rfl rfl rfl

theorem trans {a b c : Block} (h : Releases a b) (k : Releases b c) : Releases a c := by
  refine ⟨k.now.trans h.now, k.mode.trans h.mode, k.pins.trans h.pins, fun f hf => ?_, k.lost.trans h.lost,
    k.flushed.trans h.flushed⟩
  obtain ⟨g, hg, hid, hqueue⟩ := k.frames f hf
  obtain ⟨x, hx, hid', hqueue'⟩ := h.frames g hg
  exact ⟨x, hx, hid'.trans hid, hqueue'.trans hqueue⟩

theorem foldl {α : Type} {f : Block → α → Block} {l : List α} (h : ∀ b, ∀ x ∈ l, Releases b (f b x)) (b : Block) :
    Releases b (l.foldl f b) :=
  List.foldlRecOn (motive := Releases b) l f (refl b) fun _ hc x hx => hc.trans (h _ x hx)

theorem put (b : Block) {q : Reg} {row : Nat} (v : Nat) (hl : Obj.lostPowerLast.key 0 ≠ q.key row)
    (hf : Obj.drainFlushed.key 0 ≠ q.key row) : Releases b (b.put q v row) :=
  ⟨rfl, rfl, rfl, fun f h => ⟨f, h, rfl, rfl⟩, b.get_put_ne v hl, b.get_put_ne v hf⟩

theorem of_tells {ks : List Nat} {b c : Block} (h : Tells ks b c) (hl : Obj.lostPowerLast.key 0 ∉ ks)
    (hf : Obj.drainFlushed.key 0 ∉ ks) : Releases b c :=
  ⟨h.now, h.mode, h.pins, fun f hx => ⟨f, h.frames ▸ hx, rfl, rfl⟩, h.get _ _ hl, h.get _ _ hf⟩

theorem notice (b : Block) (code : Nat) (r : Reg) (row : Nat) (payload : List Nat) :
    Releases b (b.notice code r row payload) := of_tells (.notice b code r row payload) (by decide) (by decide)

theorem remelt (b : Block) {code : Nat} (sel : Gather → Bool) (hl : Obj.lostPowerLast.key 0 ∉ remeltKeys code)
    (hf : Obj.drainFlushed.key 0 ∉ remeltKeys code) : Releases b (b.remelt code sel) := by
  have h := Remelts.remelt b code sel
  have hn : (b.remelt code sel).now = b.now := by have e := congrArg Block.now h.rest; exact e
  have hm : (b.remelt code sel).mode = b.mode := by have e := congrArg Block.mode h.rest; exact e
  have hp : (b.remelt code sel).pins = b.pins := by have e := congrArg Block.pins h.rest; exact e
  refine ⟨hn, hm, hp, fun f hx => ?_, h.get _ _ hl, h.get _ _ hf⟩
  obtain ⟨g, hg, hkept⟩ := h.frames.old f hx
  exact ⟨g, hg, hkept.id.symm, hkept.queue.symm⟩

theorem dropFrame (b : Block) (fid : Nat) : Releases b (b.dropFrame fid) := by
  unfold Block.dropFrame; extract_lets fwd b1
  have h1 : Releases b b1 := ⟨rfl, rfl, rfl, fun f h => ⟨f, List.mem_of_mem_filter h, rfl, rfl⟩, rfl, rfl⟩
  have hmpdus (c : Block) : Releases c (c.resolveMpdus fid) := of_eq rfl rfl rfl rfl rfl
  exact h1.trans ((put b1 _ (by decide) (by decide)).trans (hmpdus _))

theorem coverAbandon (b : Block) (d code : Nat) (l : List Frame) : Releases b (b.coverAbandon d code l) := by
  unfold Block.coverAbandon; split
  · exact of_eq rfl rfl rfl rfl rfl
  · extract_lets b1
    have h1 : Releases b b1 := notice b _ _ _ _
    exact h1.trans (of_eq rfl rfl rfl rfl rfl)

theorem abandon (b : Block) (code : Nat) (fids : List Nat) : Releases b (b.abandon code 7 fids) := by
  unfold Block.abandon; extract_lets fs ids dests b1 b2
  have h1 : Releases b b1 :=
    (remelt b _ (by decide) (by decide)).trans (foldl (fun c i _ => dropFrame c i) _)
  have h2 : Releases b1 b2 := by
    have hl : Obj.lostPowerLast.key 0 ≠ (abandonReg code).key 0 := by unfold abandonReg; split <;> decide
    have hf : Obj.drainFlushed.key 0 ≠ (abandonReg code).key 0 := by unfold abandonReg; split <;> decide
    exact put b1 _ hl hf
  exact (h1.trans h2).trans (foldl (fun c d _ => coverAbandon c d code _) b2)

theorem departStation (b : Block) (row : Nat) (hrow : row < 1048576) : Releases b (b.departStation row) := by
  have other {q : Reg} {k : Nat} (c : Block) (v : Nat) (hk : k < 1048576)
      (hl : Obj.lostPowerLast.idx * 256 + Obj.lostPowerLast.sub ≠ q.idx * 256 + q.sub)
      (hf : Obj.drainFlushed.idx * 256 + Obj.drainFlushed.sub ≠ q.idx * 256 + q.sub) : Releases c (c.put q v k) :=
    put c v (Reg.key_ne hl (by decide) hk) (Reg.key_ne hf (by decide) hk)
  unfold Block.departStation; split
  · extract_lets bss reg b1 b2 b3 m
    have h1 : Releases b b1 := abandon b 1 _
    have h2 : Releases b1 b2 := by
      unfold b2; split
      · have hbss : bss % 16 < 1048576 := by omega
        unfold reg
        cases b.staRadio row <;> exact other b1 _ hbss (by decide) (by decide)
      · exact refl b1
    have h3 : Releases b2 b3 := by
      unfold b3 Block.clearRow staRegs
      simp only [List.foldl_cons, List.foldl_nil]
      exact (((((other b2 _ hrow (by decide) (by decide)).trans (other _ _ hrow (by decide) (by decide))).trans
        (other _ _ hrow (by decide) (by decide))).trans (other _ _ hrow (by decide) (by decide))).trans
        (other _ _ hrow (by decide) (by decide))).trans (other _ _ hrow (by decide) (by decide))
    clear_value b3
    exact (h1.trans (h2.trans h3)).trans (of_eq rfl rfl rfl rfl rfl)
  · exact refl b

theorem disassociate (b : Block) (row : Nat) (hrow : row < 1048576) : Releases b (b.disassociate row) := by
  unfold Block.disassociate; split
  · have hemit : Releases b (b.emit (.radio (b.staRadio row) 5 [row])) := of_eq rfl rfl rfl rfl rfl
    exact hemit.trans (departStation _ row hrow)
  · exact refl b

theorem stationsLeave (b : Block) : Releases b b.stationsLeave :=
  foldl (fun c _ hrow => departStation c _ (Block.lt_of_mem_listedRows hrow)) b

/-- The stations with nothing held for them are disassociated. -/
theorem stationsFree (b : Block) : Releases b ((b.listedRows Obj.staState).foldl (fun (c : Block) row =>
    if c.frames.any fun f => f.inScope 2 row then c else c.disassociate row) b) := by
  refine foldl (fun c row hrow => ?_) b
  split
  · exact refl c
  · exact disassociate c row (Block.lt_of_mem_listedRows hrow)

theorem drainStations (b : Block) : Releases b b.drainStations := by
  unfold Block.drainStations; split
  · split
    · exact stationsFree b
    · exact refl b
  · exact refl b

theorem stands {b c : Block} (h : Releases b c) : Stands b c := ⟨by rw [h.pins], by rw [h.mode], h.lost⟩

/-- With no frame held none is held after. -/
theorem idle {b c : Block} (h : Releases b c) (hb : b.frames = []) : c.frames = [] := by
  refine List.eq_nil_iff_forall_not_mem.mpr fun f hf => ?_
  obtain ⟨g, hg, -⟩ := h.frames f hf
  simp [hb] at hg

end Releases

/-! ### The frames abandoned -/

theorem Block.mem_dropAll {f : Frame} (ids : List Nat) : ∀ b : Block, f ∈ (b.dropAll ids).frames → f.id ∉ ids := by
  induction ids with
  | nil => simp
  | cons i rest ih =>
    intro b hf
    have hrest : Releases (b.dropFrame i) ((b.dropFrame i).dropAll rest) :=
      .foldl (f := Block.dropFrame) (fun c j _ => .dropFrame c j) _
    obtain ⟨g, hg, hid, -⟩ := hrest.frames f hf
    have hne : g.id ≠ i := by simpa using List.of_mem_filter hg
    exact List.not_mem_cons_of_ne_of_not_mem (hid ▸ hne) (ih _ hf)

/-- No frame of the list abandoned is held any more. -/
theorem Block.mem_abandon {b : Block} {code : Nat} {fids : List Nat} {f : Frame}
    (hf : f ∈ (b.abandon code 7 fids).frames) : f.id ∉ fids := by
  obtain ⟨g, hg, hid, -⟩ := (Releases.abandon b code fids).frames f hf
  unfold Block.abandon at hf; extract_lets fs ids dests b1 b2 at hf
  have hcover : Releases b2 (dests.foldl (fun c d => c.coverAbandon d code (fs.filter fun f => destOf f.queue == d)) b2) :=
    .foldl (fun c d _ => .coverAbandon c d code _) b2
  obtain ⟨x, hx, hxid, -⟩ := hcover.frames f hf
  have hgone : x.id ∉ ids := Block.mem_dropAll ids _ hx
  intro hmem
  have hg' : g ∈ fs := List.mem_filter.mpr ⟨hg, by simpa [hid] using hmem⟩
  exact hgone (List.mem_map.mpr ⟨g, hg', hid.trans hxid.symm⟩)

end Sys2Proof.Machine
end

section
/-!
SUPPORT. Drains (R89, R95 to R97): what each step of a drain leaves, and the statement about their commands.
-/

namespace Sys2Proof.Machine

/-- A move leaves no drain under way. -/
theorem Block.moveTo_drain (b : Block) (target : Mode) (cause : Nat) : (b.moveTo target cause).mode.drain = none := by
  have hentered (c : Block) (left : Mode) : (c.entered left target cause).mode.drain = none := by
    unfold Block.entered; dsimp only
    split
    · rfl
    · simp [Block.abandonSummary, Block.openAcceptance]
  unfold Block.moveTo
  extract_lets left a z b1 b2 m b3 b4 b5 b6
  have h6 : b6.mode = b5.mode := by
    unfold b6; split
    · exact b5.linksUp_mode
    · rfl
  have hend : (if z = .dayWatch && a ≠ .dayWatch then b6.dayBegin else b6).mode = b6.mode := by
    split <;> rfl
  rw [hend, h6]
  exact hentered b4 left

section
variable {b : Block} {d : Drain}

/-! ### The start (R95, R96) -/

theorem Block.dawnDrain_of_due (hm : b.mode.mode.mains = true)
    (hfree : b.mode.trans = .none ∧ b.mode.drain = none ∨ ∃ d, b.mode.drain = some d ∧ d.dawn = false)
    (ht : b.drainTime = true) : b.dawnDrain = b.drainStart true (Mode.ofNum (b.get Obj.dayTarget))
      (b.now + (secs (b.get Obj.drainLead) - b.ticksInSecond)) 1 := by
  have hmaint : b.mode.mode ≠ .maintenance := fun e => by simp [e, Mode.mains] at hm
  have hbase : b.baseMode.mains = true := by simp [Block.baseMode, hmaint, hm]
  unfold Block.dawnDrain; dsimp only
  rcases hfree with ⟨htrans, hnone⟩ | ⟨d, hd, hdawn⟩
  · simp [hnone, htrans, hbase, ht, hmaint]
  · simp [hd, hdawn, hbase, ht, hmaint]

theorem Block.dawnDrain_of_other (ht : b.drainTime = false) : b.dawnDrain = b := by
  simp [Block.dawnDrain, ht]

/-! ### Acceptance closes (R96, R97) -/

theorem Block.drainClose_of_due (hd : b.mode.drain = some d) (hopen : d.closed = false)
    (hdue : d.start + secs (b.get Obj.announceTime) ≤ b.now) : b.drainClose.mode = { b.mode with
      drain := some { d with closedAt := some b.now }
      acc := if d.dawn then {} else { b.mode.acc with station := false } } := by
  unfold Block.drainClose; rw [hd]; dsimp only
  rw [if_neg (by simp [hopen, hdue]), (Releases.drainStations _).mode]

theorem Block.drainClose_of_early (hd : b.mode.drain = some d)
    (h : d.closed = true ∨ b.now < d.start + secs (b.get Obj.announceTime)) : b.drainClose = b := by
  unfold Block.drainClose; rw [hd]
  exact if_pos (by simpa using h)

/-! ### The guard (R96, R97) -/

/-- The frames that the guard of a drain abandons at a tick: those that the drain covers, but for those whose
acknowledgement has begun. -/
def Block.guarded (b : Block) (d : Drain) (g : Nat) (f : Frame) : Bool :=
  d.covers f && !(radios3.flatMap (b.ackBegun g)).contains f.id

/-- Frames flushed by a drain are counted, by the device and by the drain. -/
def Block.flushNoted (b : Block) (d : Drain) (n : Nat) : Block :=
  let b1 := b.add Obj.drainFlushed n
  { b1 with mode := { b1.mode with drain := some { d with flushed := d.flushed + n } } }

/-- The flush abandons what the guard does not spare and counts it. -/
theorem Block.drainFlush_of_guard (hd : b.mode.drain = some d) {g : Nat} (hg : d.guardAt = some g) :
    let n := (b.frames.filter (b.guarded d g)).length
    b.drainFlush.mode.drain = some { d with flushed := d.flushed + n } ∧
      b.drainFlush.get Obj.drainFlushed = Obj.drainFlushed.raised (b.get Obj.drainFlushed + n) ∧
      ∀ f ∈ b.drainFlush.frames, b.guarded d g f = false := by
  intro n
  let ids := b.idsWhere (b.guarded d g)
  have hn : ids.length = n := List.length_map _
  generalize hc : b.abandon 3 7 ids = c
  have habandon : Releases b c := hc ▸ .abandon b 3 ids
  let noted := c.flushNoted d ids.length
  have hfree := Releases.stationsFree noted
  have heq : b.drainFlush = (noted.listedRows Obj.staState).foldl (fun (c : Block) row =>
      if c.frames.any fun f => f.inScope 2 row then c else c.disassociate row) noted := by
    subst hc
    unfold Block.drainFlush; rw [hd]; dsimp only
    split
    · next g' hg' =>
      obtain rfl := Option.some.inj (hg'.symm.trans hg)
      rfl
    · next hnone => simp [hg] at hnone
  rw [heq]
  refine ⟨by rw [hfree.mode, ← hn]; rfl, ?_, fun f hf => ?_⟩
  · calc _ = (c.add Obj.drainFlushed ids.length).get Obj.drainFlushed := hfree.flushed
      _ = Obj.drainFlushed.raised (c.get Obj.drainFlushed + ids.length) := Block.get_add_same _ _ _ _
      _ = _ := by rw [habandon.flushed, hn]
  · obtain ⟨x, hx, hid, hqueue⟩ := hfree.frames f hf
    obtain ⟨y, hy, hid', hqueue'⟩ := habandon.frames x hx
    have hheld : x ∈ (b.abandon 3 7 ids).frames := hc.symm ▸ (hx : x ∈ c.frames)
    have hsame : b.guarded d g y = b.guarded d g f := by
      simp only [Block.guarded, Drain.covers, hid', hid, hqueue', hqueue]
    rw [← hsame]
    by_contra hy'
    exact Block.mem_abandon hheld (List.mem_map.mpr ⟨y, List.mem_filter.mpr ⟨hy, by simpa using hy'⟩, hid'⟩)

/-- The guard notes its tick and flushes. -/
theorem Block.drainGuard_of_due (hd : b.mode.drain = some d) (hclosed : d.closed = true) (hg : d.guardAt = none)
    (hdue : d.deadline ≤ b.now + secs (b.get Obj.drainGuard)) : b.drainGuard =
      ({ b with mode := { b.mode with drain := some { d with guardAt := some b.now } } } : Block).drainFlush := by
  unfold Block.drainGuard; rw [hd]
  exact if_neg (by simp [hclosed, hg, hdue])

theorem Block.drainGuard_of_early (hd : b.mode.drain = some d)
    (h : d.closed = false ∨ d.guardAt ≠ none ∨ b.now + secs (b.get Obj.drainGuard) < d.deadline) : b.drainGuard = b := by
  unfold Block.drainGuard; rw [hd]
  refine if_pos ?_
  rcases h with h | h | h
  · simp [h]
  · simp [Option.isSome_iff_ne_none.mpr h]
  · simp [h]

/-! ### The end (R96, R102) -/

/-- The block in which a drain outside Maintenance has ended and told so, before the move to its target. -/
def Block.drainTold (b : Block) (d : Drain) : Block :=
  b.drainStations.notice 0x0403 Obj.transition noRow ([b.mode.mode.num, d.target.num] ++ bytesBE 4 d.flushed)

theorem Block.drainTold_releases (b : Block) (d : Drain) : Releases b (b.drainTold d) :=
  (Releases.drainStations b).trans (.notice _ _ _ _ _)

theorem Block.drainDone_of_done (hd : b.mode.drain = some d) (hclosed : d.closed = true)
    (hm : b.mode.mode ≠ .maintenance) (hframes : ∀ f ∈ b.frames, d.covers f = false)
    (hwake : d.target = .hibernate → b.heldWakes = 0) : b.drainDone = (b.drainTold d).goTo d.target d.cause := by
  have hnone : (b.frames.any fun f => d.covers f) = false := by simpa using hframes
  unfold Block.drainDone; rw [hd]; dsimp only
  rw [if_neg (by simp [hclosed, hnone]), if_neg hm, if_neg hm, if_neg (by simpa using hwake)]
  rfl

theorem Block.drainDone_of_held (hd : b.mode.drain = some d) {f : Frame} (hf : f ∈ b.frames) (hcovers : d.covers f = true) :
    b.drainDone = b := by
  have hany : (b.frames.any fun f => d.covers f) = true := List.any_eq_true.mpr ⟨f, hf, hcovers⟩
  unfold Block.drainDone; rw [hd]
  exact if_pos (by simp [hany])

end

theorem Block.drain_of_none {b : Block} (h : b.mode.drain = none) :
    b.drainClose = b ∧ b.drainGuard = b ∧ b.drainDone = b := by
  simp [Block.drainClose, Block.drainGuard, Block.drainDone, h]

/-- Settles O25: each command by the step of the drain that it is. -/
theorem drainsRunTheirStepsInOrder : Obligations.DrainsRunTheirStepsInOrder := by
  intro s t hf b
  have starts {P : Block → Prop} (h : P b.dawnDrain) : Takes (.dawnDrainStart t) s P := .of_at rfl hf h
  have closes {P : Block → Prop} (h : P b.drainClose) : Takes (.drainAcceptanceClose t) s P := .of_at rfl hf h
  have guards {P : Block → Prop} (h : P b.drainGuard) : Takes (.drainGuardDeadline t) s P := .of_at rfl hf h
  have ends {P : Block → Prop} (h : P b.drainDone) : Takes (.drainComplete t) s P := .of_at rfl hf h
  refine ⟨fun hm hfree ht => starts ?start, fun ht => starts (Block.dawnDrain_of_other ht),
    fun d hd hopen hdue => closes ?close, fun d hd h => closes (Block.drainClose_of_early hd h),
    fun d hd hclosed hg hdue => guards ?guard, fun d hd h => guards (Block.drainGuard_of_early hd h),
    fun d hd hclosed hm hframes htarget => ends ?move,
    fun d hd hclosed hm hframes htarget hwake => ends ?hibernate,
    fun d f hd hmem hcovers => ends (Block.drainDone_of_held hd hmem hcovers), fun h => ?none⟩
  case start =>
    rw [Block.dawnDrain_of_due hm hfree ht, Block.drainStart_mode]
    exact ⟨rfl, rfl, rfl, rfl⟩
  case close =>
    rw [Block.drainClose_of_due hd hopen hdue]
    exact ⟨rfl, rfl⟩
  case guard =>
    rw [Block.drainGuard_of_due hd hclosed hg hdue]
    obtain ⟨hdrain, hflushed, hleft⟩ := Block.drainFlush_of_guard (d := { d with guardAt := some b.now })
      (b := { b with mode := { b.mode with drain := some { d with guardAt := some b.now } } }) rfl rfl
    refine ⟨hdrain, hflushed, fun f hmem => ?_⟩
    have hspared : (d.covers f && !(radios3.flatMap (b.ackBegun b.now)).contains f.id) = false := hleft f hmem
    cases hcovers : d.covers f with
    | false => exact .inl rfl
    | true => exact .inr (by simpa [hcovers] using hspared)
  case move =>
    have hnothib : d.target ≠ .hibernate := fun e => by simp [e] at htarget
    have hnotday : (b.drainTold d).mode.mode ≠ .dayWatch := fun e => by
      rw [(b.drainTold_releases d).mode] at e
      simp [e, Mode.mains] at hm
    rw [Block.drainDone_of_done hd hclosed (fun e => by simp [e, Mode.mains] at hm) hframes fun e => absurd e hnothib,
      Block.goTo, if_neg hnothib, if_neg hnotday]
    obtain ⟨hmode, htrans⟩ := (b.drainTold d).moveTo_mode d.target d.cause
    exact ⟨hmode, htrans, Block.moveTo_drain _ _ _⟩
  case hibernate =>
    have hrel := b.drainTold_releases d
    rw [Block.drainDone_of_done hd hclosed hm hframes fun _ => hwake, Block.goTo, if_pos htarget]
    have hmode : (b.drainTold d).mode.mode = b.mode.mode := congrArg ModeUnit.mode hrel.mode
    exact ⟨hmode, rfl, congrArg (fun n => some ({ start := n } : Entry)) hrel.now, rfl⟩
  case none =>
    obtain ⟨hclose, hguard, hdone⟩ := Block.drain_of_none h
    exact ⟨closes hclose, guards hguard, ends hdone⟩

end Sys2Proof.Machine
end

section
/-!
SUPPORT. Wakes and the wait for the rails (R101, R102, R498): what a wake source does in each state of the mode unit,
what rails good and their time-out leave, and the statement about the commands.
-/

namespace Sys2Proof.Machine

/-! ### MAIN_EN (R498, R520) -/

theorem Block.mainEn_level (b : Block) (v : Bool) : (b.mainEn v).pins.mainEn = v := by
  unfold Block.mainEn; split
  · assumption
  · rfl

theorem Block.mainEn_pwrOk (b : Block) (v : Bool) : (b.mainEn v).pins.pwrOk = b.pins.pwrOk := by
  unfold Block.mainEn; split <;> rfl

theorem Block.mainEn_get (b : Block) (v : Bool) (q : Reg) (k : Nat) : (b.mainEn v).get q k = b.get q k := by
  unfold Block.mainEn; split <;> rfl

theorem Block.mainEn_mode (b : Block) (v : Bool) : (b.mainEn v).mode = b.mode := (b.mainEn_keeps v).mode

theorem Block.mainEn_boot (b : Block) (v : Bool) : (b.mainEn v).boot = b.boot := by
  unfold Block.mainEn; split <;> rfl

/-! ### A wake source (R101, R102) -/

/-- The device is in Hibernate, with no entry, drain or wake under way. -/
def Block.asleep (b : Block) : Prop :=
  b.mode.entry = none ∧ b.mode.drain = none ∧ b.mode.mode = .hibernate ∧ b.mode.waking = none

/-- From a block asleep, a wake is under way that the sources `bits` started: from now on, toward `target`. -/
structure Woken (b x : Block) (bits : Nat) (target : Mode) : Prop where
  mode : x.mode.mode = .hibernate ∧ x.mode.trans = .waking ∧ x.mode.waking = some b.now ∧ x.mode.target = target
  mainEn : x.pins.mainEn = true
  pwrOk : x.pins.pwrOk = b.pins.pwrOk
  cause : x.get Obj.wakeCause = bits
  count : x.get Obj.wakeCount = Obj.wakeCount.raised (b.get Obj.wakeCount + 1)

section
variable {b : Block}

theorem Block.wakeStart_woken (hm : b.mode.mode = .hibernate) (bits : Nat) (target : Mode) :
    Woken b (b.wakeStart bits target) bits target := by
  unfold Block.wakeStart; extract_lets b1 m
  refine ⟨?_, Block.mainEn_level _ _, Block.mainEn_pwrOk _ _, ?_, ?_⟩
  · rw [Block.mainEn_mode]
    exact ⟨hm, rfl, rfl, rfl⟩
  · rw [Block.mainEn_get]
    exact (Block.get_add_ne _ 1 (by decide)).trans (Block.get_put_same b _ _ _)
  · rw [Block.mainEn_get]
    refine (Block.get_add_same _ _ 1 0).trans ?_
    rw [Block.get_put_ne b bits (by decide)]

theorem Block.drainHolds_of_none (h : b.mode.drain = none) : b.drainHolds = false := by
  simp [Block.drainHolds, h]

theorem Block.wakeLatch_of_disabled {bit : Nat} (h : b.wakeEnabled bit = false) : b.wakeLatch bit = b := by
  simp [Block.wakeLatch, h]

theorem Block.wakeLatch_of_asleep (h : b.asleep) {bit : Nat} (hon : b.wakeEnabled bit = true) :
    b.wakeLatch bit = b.wakeStart (2 ^ bit) (b.wakeTarget (2 ^ bit)) := by
  obtain ⟨hentry, hdrain, hmode, hwaking⟩ := h
  simp [Block.wakeLatch, hon, hentry, Block.drainHolds_of_none hdrain, hmode, hwaking]

theorem Block.wakeLatch_of_entry {bit : Nat} (hon : b.wakeEnabled bit = true) {e : Entry} (he : b.mode.entry = some e) :
    b.wakeLatch bit = if e.committed then { b with mode := { b.mode with held := setBit b.mode.held bit } }
      else b.entryAbandon (2 ^ bit) := by
  simp [Block.wakeLatch, hon, he]

theorem Block.wakeLatch_of_held {bit : Nat} (hon : b.wakeEnabled bit = true) (he : b.mode.entry = none)
    (hdrain : b.drainHolds = true) :
    b.wakeLatch bit = { b with mode := { b.mode with held := setBit b.mode.held bit } } := by
  simp [Block.wakeLatch, hon, he, hdrain]

/-- In a mode other than Hibernate a wake source does nothing. -/
theorem Block.wakeLatch_of_awake (he : b.mode.entry = none) (hdrain : b.drainHolds = false)
    (hm : b.mode.mode ≠ .hibernate) (bit : Nat) : b.wakeLatch bit = b := by
  unfold Block.wakeLatch; rw [he]; dsimp only; rw [hdrain]
  split
  · rfl
  · cases h : b.mode.mode with
    | hibernate => exact absurd h hm
    | _ => rfl

theorem Block.entryAbandon_leaves (b : Block) (bits : Nat) :
    (b.entryAbandon bits).mode.mode = b.mode.mode ∧ (b.entryAbandon bits).mode.entry = none ∧
      (b.entryAbandon bits).mode.trans = .none ∧ (b.entryAbandon bits).get Obj.entryAbandoned = 1 := by
  unfold Block.entryAbandon; extract_lets m b1
  rw [Block.notice_mode, Block.get_notice _ _ _ _ _ (by decide)]
  exact ⟨rfl, rfl, rfl, Block.get_put_same b1 _ _ _⟩

theorem Block.wakeTarget_two_pow (b : Block) (bit : Nat) :
    b.wakeTarget (2 ^ bit) = Mode.ofNum (b.get (if bit = 3 then Obj.nightTarget else Obj.unpoweredTarget)) := by
  simp [Block.wakeTarget, bitSet, Nat.testBit_two_pow]

/-- What an enabled source makes of a device asleep. -/
theorem Block.wakeLatch_woken (h : b.asleep) {bit : Nat} (hon : b.wakeEnabled bit = true) :
    Woken b (b.wakeLatch bit) (2 ^ bit)
      (Mode.ofNum (b.get (if bit = 3 then Obj.nightTarget else Obj.unpoweredTarget))) := by
  obtain ⟨-, -, hmode, -⟩ := id h
  rw [Block.wakeLatch_of_asleep h hon, Block.wakeTarget_two_pow]
  exact Block.wakeStart_woken hmode _ _

/-! ### The event of a wake source (R101) -/

theorem Block.mainsBack_of_other (h : b.mode.mode ≠ .dayWatch ∧ b.mode.mode ≠ .fieldOnly) : b.mainsBack = b := by
  simp [Block.mainsBack, h.1, h.2]

/-- PWR_OK rises where no drain holds the event, in a mode that it does not move. -/
theorem Block.pwrOkRise_of_hibernate (h : b.asleep) (hon : b.wakeEnabled 3 = true) :
    b.pwrOkRise = ({ b with pins := { b.pins with pwrOk := true } } : Block).wakeLatch 3 := by
  generalize hc : ({ b with pins := { b.pins with pwrOk := true } } : Block) = c
  have hasleep : c.asleep := by rw [← hc]; exact h
  have henabled : c.wakeEnabled 3 = true := by rw [← hc]; exact hon
  have hwoken := Block.wakeLatch_woken hasleep henabled
  have hdrain : c.drainHolds = false := by
    obtain ⟨-, hnone, -, -⟩ := hasleep
    exact Block.drainHolds_of_none hnone
  have hmode : (c.wakeLatch 3).mode.mode = .hibernate := hwoken.mode.1
  unfold Block.pwrOkRise; rw [hc]; dsimp only
  rw [hdrain]
  exact Block.mainsBack_of_other (by simp [hmode])

theorem Block.wakeEvent_of_other {bit : Nat} (h3 : bit ≠ 3) (gpio : Nat) :
    b.wakeEvent bit gpio = if bit = 5 ∧ b.gpioWakes gpio = false then b else b.wakeLatch bit := by
  unfold Block.wakeEvent; split
  · exact absurd rfl h3
  · cases h : b.gpioWakes gpio <;> simp
  · next h5 => rw [if_neg fun h => h5 h.1]

/-- What the event of an enabled source makes of a device asleep; with that of PWR_OK the pin itself rises. -/
theorem Block.wakeEvent_woken (h : b.asleep) {bit gpio : Nat} (hon : b.wakeEnabled bit = true)
    (hgpio : bit = 5 → b.gpioWakes gpio = true) :
    Woken { b with pins := { b.pins with pwrOk := b.pins.pwrOk || decide (bit = 3) } } (b.wakeEvent bit gpio) (2 ^ bit)
      (Mode.ofNum (b.get (if bit = 3 then Obj.nightTarget else Obj.unpoweredTarget))) := by
  by_cases h3 : bit = 3
  · subst h3
    have hrise : b.wakeEvent 3 gpio = b.pwrOkRise := rfl
    rw [hrise, Block.pwrOkRise_of_hibernate h hon]
    have hpin : (b.pins.pwrOk || decide (3 = 3)) = true := by simp
    rw [hpin]
    exact Block.wakeLatch_woken (b := { b with pins := { b.pins with pwrOk := true } }) h hon
  · have hpin : (b.pins.pwrOk || decide (bit = 3)) = b.pins.pwrOk := by simp [h3]
    have hgpio' : ¬ (bit = 5 ∧ b.gpioWakes gpio = false) := fun ⟨h5, hno⟩ => by simp [hgpio h5] at hno
    rw [Block.wakeEvent_of_other h3, if_neg hgpio', hpin]
    exact Block.wakeLatch_woken h hon

/-! ### The alarms (R94, R95, R101) -/

theorem Block.duskAlarm_of_due (h : b.duskTime = true) : b.duskAlarm = b.wakeLatch 0 := if_pos h

theorem Block.wakeAlarm_of_late (h : b.asleep) (hd : b.get Obj.wakeAlarmDelay ≠ 0)
    (hlate : b.mode.hibSince + secs (b.get Obj.wakeAlarmDelay) ≤ b.now) : b.wakeAlarm = b.wakeLatch 0 := by
  obtain ⟨hentry, -, hmode, -⟩ := h
  exact if_pos (by simp [hd, hmode, hentry, hlate])

theorem Block.wakeAlarm_of_not
    (h : ¬ (b.get Obj.wakeAlarmDelay ≠ 0 ∧ b.mode.hibSince + secs (b.get Obj.wakeAlarmDelay) ≤ b.now)) :
    b.wakeAlarm = b := by
  refine if_neg ?_
  simp only [Bool.and_eq_true, decide_eq_true_eq]
  tauto

/-! ### The rails (R498) -/

theorem Block.dutyRestore_keeps (b : Block) : b.dutyRestore.regs = b.regs ∧ b.dutyRestore.mode = b.mode := by
  unfold Block.dutyRestore; split <;> exact ⟨rfl, rfl⟩

theorem Block.debugSet_mode (b : Block) (v : Nat) : (b.debugSet v).mode = b.mode := by
  unfold Block.debugSet; extract_lets old; split
  · rfl
  · rw [Block.notice_mode, Block.post_mode]; rfl

theorem Block.resetRecord_kind (b : Block) (source kind : Nat) (m : Mode) :
    (b.resetRecord source kind m).get Obj.resetKind = kind := by
  unfold Block.resetRecord; dsimp only; split <;> simp (disch := decide) [Block.get_add_ne]

/-- A start keeps what the Furnace holds of the level of VIO_B. -/
theorem Block.resetRecord_vioB (b : Block) (source kind : Nat) (m : Mode) :
    (b.resetRecord source kind m).get Obj.vioBLevel = b.get Obj.vioBLevel := by
  unfold Block.resetRecord; dsimp only; split <;> simp (disch := decide) [Block.get_add_ne, Block.get_put_ne]

theorem Block.coldState_vioB (b : Block) : b.coldState.get Obj.vioBLevel = b.get Obj.vioBLevel := by
  unfold Block.coldState; dsimp only
  rw [Block.get_put_ne _ _ (by decide), Block.get_put_ne _ _ (by decide), Block.get_put_ne _ _ (by decide)]
  rfl

theorem Block.coldState_mode (b : Block) : b.coldState.mode = b.mode := rfl

/-- The records and the state of a start from Hibernate, before it is due. -/
def Block.railsUp (b : Block) (vio : Bool) : Block :=
  let b2 := ((b.put Obj.vioBLevel (if vio then 1 else 0)).coldState.resetRecord 9 0 .hibernate).regionStart
  if b2.get Obj.debugState = 2 then b2.debugSet (if b2.is Obj.sbEnforced then 1 else 0) else b2

theorem Block.railsUp_mode (b : Block) (vio : Bool) : (b.railsUp vio).mode = b.mode := by
  unfold Block.railsUp; extract_lets b2
  have h2 : b2.mode = b.mode := by
    unfold b2; rw [Block.regionStart_mode, Block.resetRecord_mode, Block.coldState_mode, Block.put_mode]
  split
  · rw [Block.debugSet_mode, h2]
  · exact h2

theorem Block.railsUp_shows (b : Block) (vio : Bool) : (b.railsUp vio).get Obj.resetSource = 9 ∧
    (b.railsUp vio).get Obj.resetKind = 0 ∧ (b.railsUp vio).get Obj.vioBLevel = if vio then 1 else 0 := by
  unfold Block.railsUp; extract_lets b2
  have h2 : b2.get Obj.resetSource = 9 ∧ b2.get Obj.resetKind = 0 ∧ b2.get Obj.vioBLevel = if vio then 1 else 0 := by
    unfold b2
    simp only [Block.regionStart_get, Block.resetRecord_source, Block.resetRecord_kind, Block.resetRecord_vioB,
      Block.coldState_vioB, Block.get_put_same, and_self]
  split
  · rw [Block.debugSet_get _ _ (by decide) (by decide), Block.debugSet_get _ _ (by decide) (by decide),
      Block.debugSet_get _ _ (by decide) (by decide)]
    exact h2
  · exact h2

theorem Block.railsGood_of_waking (hm : b.mode.mode = .hibernate) (hw : b.mode.waking ≠ none) (vio : Bool) :
    b.railsGood vio = { (b.railsUp vio).dutyRestore with
      mode := { (b.railsUp vio).mode with waking := none }
      boot := some { kind := 0, left := .hibernate, alive := .hibernate, target := b.mode.target } } := by
  unfold Block.railsGood Block.railsUp
  rw [if_pos (by simp [hm, Option.isSome_iff_ne_none, hw])]

theorem Block.rails_of_not (h : b.mode.mode ≠ .hibernate ∨ b.mode.waking = none) (vio : Bool) :
    b.railsGood vio = b ∧ b.railTimeout = b := by
  rcases h with h | h <;> simp [Block.railsGood, Block.railTimeout, h]

/-- A wake from Hibernate is given up. -/
def Block.wakeEnded (b : Block) : Block :=
  { b with mode := { b.mode with trans := .none, target := .hibernate, waking := none } }

/-- The rails have not come: the wake is given up with MAIN_EN 0, and counts. -/
def Block.railsFailed (b : Block) : Block :=
  (((b.wakeEnded.mainEn false).add Obj.railFails).add Obj.brownouts).put Obj.lastBrownoutRail 15

theorem Block.railTimeout_of_due {w : Nat} (hm : b.mode.mode = .hibernate) (hw : b.mode.waking = some w)
    (hdue : w + ms (b.get Obj.railTimeout) ≤ b.now) : b.railTimeout = b.railsFailed.post 0x0052
      ([15, 0, 0, 0] ++ bytesLE 4 (b.get Obj.railTimeout * 1000)) (first := true) := by
  unfold Block.railTimeout
  refine if_pos (Bool.and_eq_true_iff.mpr ⟨decide_eq_true hm, ?_⟩)
  rw [hw, Option.any_some]
  exact decide_eq_true hdue

theorem Block.railsFailed_mode (b : Block) : b.railsFailed.mode = b.wakeEnded.mode := by
  simp [Block.railsFailed, Block.mainEn_mode]

theorem Block.railsFailed_pins (b : Block) : b.railsFailed.pins = (b.wakeEnded.mainEn false).pins := by
  simp [Block.railsFailed]

theorem Block.railsFailed_boot (b : Block) : b.railsFailed.boot = b.boot := by
  simp only [Block.railsFailed, Block.put_boot, Block.add_boot, Block.mainEn_boot]
  rfl

theorem Block.railsFailed_lastBrownoutRail (b : Block) : b.railsFailed.get Obj.lastBrownoutRail = 15 :=
  Block.get_put_same _ _ _ _

theorem Block.railsFailed_railFails (b : Block) :
    b.railsFailed.get Obj.railFails = Obj.railFails.raised (b.get Obj.railFails + 1) := by
  unfold Block.railsFailed
  rw [Block.get_put_ne _ _ (by decide), Block.get_add_ne _ _ (by decide), Block.get_add_same, Block.mainEn_get]
  rfl

end

/-- Settles O26: the events of wake sources by what their latch does, the rails by the start they make due and the wake
that their time-out ends. -/
theorem wakesFollowTheLatchAndRailsGoodStartsTheDevice : Obligations.WakesFollowTheLatchAndRailsGoodStartsTheDevice := by
  constructor
  · intro s t bit gpio b asleep late
    have dusk {P : Block → Prop} (h : P b.duskAlarm) : Takes (.duskAlarm t) s P := .of_furnace rfl h
    have alarm {P : Block → Prop} (h : P b.wakeAlarm) : Takes (.wakeAlarmDelayExpiry t) s P := .of_furnace rfl h
    have event {P : Block → Prop} (h : P (b.wakeEvent bit gpio)) : Takes (.wakeEvent t bit gpio) s P :=
      .of_furnace (f := fun b => b.wakeEvent bit gpio) rfl h
    have clock (h : asleep) (hon : b.wakeEnabled 0 = true) : let x := b.wakeLatch 0
        x.mode.mode = .hibernate ∧ x.mode.trans = .waking ∧ x.mode.waking = some b.now ∧ x.pins.mainEn = true ∧
          x.mode.target = Mode.ofNum (b.get Obj.unpoweredTarget) ∧ x.get Obj.wakeCause = 1 ∧
          x.get Obj.wakeCount = Obj.wakeCount.raised (b.get Obj.wakeCount + 1) := by
      obtain ⟨⟨hmode, htrans, hwaking, htarget⟩, hmain, -, hcause, hcount⟩ := Block.wakeLatch_woken h hon
      exact ⟨hmode, htrans, hwaking, hmain, htarget, hcause, hcount⟩
    refine ⟨fun h hon hdue => dusk ?dusk, fun h => dusk ?duskNot, fun h hon hlate => alarm ?alarm,
      fun h => alarm ?alarmNot, fun h hon hgpio => event ?wake, fun e h3 h5 hon he hopen => event ?abandon,
      fun e h3 h5 hon he hcommitted => event ?held, fun h3 h => event ?none⟩
    case dusk => rw [Block.duskAlarm_of_due hdue]; exact clock h hon
    case duskNot =>
      rcases h with h | h
      · simp [Block.duskAlarm, h]
      · simp [Block.duskAlarm, Block.wakeLatch_of_disabled h]
    case alarm =>
      obtain ⟨hdelay, hpast⟩ := hlate
      rw [Block.wakeAlarm_of_late h hdelay hpast]; exact clock h hon
    case alarmNot =>
      rcases h with h | h
      · exact Block.wakeAlarm_of_not h
      · simp [Block.wakeAlarm, Block.wakeLatch_of_disabled h]
    case wake =>
      obtain ⟨⟨hmode, htrans, hwaking, htarget⟩, hmain, hpin, hcause, hcount⟩ := Block.wakeEvent_woken h hon hgpio
      exact ⟨hmode, htrans, hwaking, hmain, hpin, htarget, hcause, hcount⟩
    case abandon =>
      rw [Block.wakeEvent_of_other h3, if_neg fun h => h5 h.1, Block.wakeLatch_of_entry hon he, if_neg (by simp [hopen])]
      exact b.entryAbandon_leaves _
    case held =>
      rw [Block.wakeEvent_of_other h3, if_neg fun h => h5 h.1, Block.wakeLatch_of_entry hon he, if_pos hcommitted]
    case none =>
      rw [Block.wakeEvent_of_other h3]
      rcases h with h | h | ⟨he, hdrain, hm⟩
      · rw [Block.wakeLatch_of_disabled h, ite_self]
      · exact if_pos h
      · rw [Block.wakeLatch_of_awake he hdrain hm, ite_self]
  · intro s t vio b
    have good {P : Block → Prop} (h : P (b.railsGood vio)) : Takes (.railsGood t vio) s P :=
      .of_furnace (f := fun b => b.railsGood vio) rfl h
    have timeout {P : Block → Prop} (h : P b.railTimeout) : Takes (.railTimeoutExpiry t) s P := .of_furnace rfl h
    refine ⟨fun hm hw => good ?good, fun w hm hw hdue => timeout ?timeout, fun h => ?none⟩
    case good =>
      obtain ⟨hsource, hkind, hvio⟩ := b.railsUp_shows vio
      have hregs (q : Reg) : (b.railsGood vio).get q = (b.railsUp vio).get q := by
        rw [Block.railsGood_of_waking hm hw]
        exact congrArg (fun f => RegFile.get f q 0) (b.railsUp vio).dutyRestore_keeps.1
      rw [hregs, hregs, hregs, Block.railsGood_of_waking hm hw]
      exact ⟨by rw [Block.railsUp_mode]; exact hm, rfl, hsource, hkind, hvio, rfl⟩
    case timeout =>
      rw [Block.railTimeout_of_due hm hw hdue, Block.post_mode, Block.post_pins, Block.post_boot, Block.get_post,
        Block.get_post, Block.railsFailed_mode, Block.railsFailed_pins]
      exact ⟨hm, rfl, rfl, Block.mainEn_level _ _, b.railsFailed_boot, b.railsFailed_lastBrownoutRail,
        b.railsFailed_railFails⟩
    case none =>
      obtain ⟨hgood, htimeout⟩ := Block.rails_of_not h vio
      exact ⟨good hgood, timeout htimeout⟩

end Sys2Proof.Machine
end

section
/-!
SUPPORT. Presence and the jumper (R88, R381 to R385): what a press, the window's end and the jumper leave, and the
statement about their commands.
-/

namespace Sys2Proof.Machine

/-! ### A level held for its time -/

section
variable {o : Option Nat} {d n : Nat}

theorem any_due {w : Nat} (h : o = some w) (hd : w + d ≤ n) : o.any (fun w => decide (w + d ≤ n)) = true := by
  rw [h, Option.any_some, decide_eq_true hd]

theorem any_not_due (h : ∀ w, o = some w → n < w + d) : o.any (fun w => decide (w + d ≤ n)) = false := by
  cases o with
  | none => rfl
  | some w => rw [Option.any_some, decide_eq_false (Nat.not_le.mpr (h w rfl))]

end

/-! ### What a press sees (R381) -/

/-- From one block to another the time, the window, the press with its length and counter, and the jumper stand. -/
structure Attends (b c : Block) : Prop where
  now : c.now = b.now
  window : c.window = b.window
  pressed : c.pins.pressed = b.pins.pressed
  fitted : c.pins.maintFitted = b.pins.maintFitted
  length : c.get Obj.presenceWindow = b.get Obj.presenceWindow
  seq : c.get Obj.presenceSeq = b.get Obj.presenceSeq

namespace Attends

theorem refl (b : Block) : Attends b b := ⟨rfl, rfl, rfl, rfl, rfl, rfl⟩

theorem trans {a b c : Block} (h : Attends a b) (k : Attends b c) : Attends a c :=
  ⟨k.now.trans h.now, k.window.trans h.window, k.pressed.trans h.pressed,
    k.fitted.trans h.fitted, k.length.trans h.length, k.seq.trans h.seq⟩

theorem after {a b c : Block} (k : Attends b c) (h : Attends a b) : Attends a c := h.trans k

theorem ite {p : Prop} [Decidable p] {b c d : Block} (hc : Attends b c) (hd : Attends b d) :
    Attends b (if p then c else d) := by
  split
  · exact hc
  · exact hd

theorem of_tells {ks : List Nat} {b c : Block} (h : Tells ks b c) (hl : Obj.presenceWindow.key 0 ∉ ks)
    (hs : Obj.presenceSeq.key 0 ∉ ks) : Attends b c :=
  ⟨h.now, h.window, by rw [h.pins], by rw [h.pins], h.get _ _ hl, h.get _ _ hs⟩

theorem put (b : Block) {q : Reg} (v : Nat) (hl : Obj.presenceWindow.key 0 ≠ q.key 0)
    (hs : Obj.presenceSeq.key 0 ≠ q.key 0) : Attends b (b.put q v) :=
  ⟨rfl, rfl, rfl, rfl, b.get_put_ne v hl, b.get_put_ne v hs⟩

theorem notice (b : Block) (code : Nat) (r : Reg) (row : Nat) (payload : List Nat) :
    Attends b (b.notice code r row payload) := of_tells (.notice b code r row payload) (by decide) (by decide)

theorem post (b : Block) (type : Nat) (payload : List Nat) (first : Bool) (flags : Nat) :
    Attends b (b.post type payload first flags) := of_tells (.post [] b type payload first flags) (by simp) (by simp)

theorem mainEn (b : Block) (v : Bool) : Attends b (b.mainEn v) := by
  unfold Block.mainEn; split <;> exact ⟨rfl, rfl, rfl, rfl, rfl, rfl⟩

theorem openAcceptance (b : Block) : Attends b b.openAcceptance := ⟨rfl, rfl, rfl, rfl, rfl, rfl⟩

/-! ### Wakes -/

theorem wakeStart (b : Block) (bits : Nat) (target : Mode) : Attends b (b.wakeStart bits target) := by
  unfold Block.wakeStart; extract_lets b1 m
  have h1 : Attends b b1 := (put b bits (by decide) (by decide)).trans (put _ _ (by decide) (by decide))
  exact (mainEn _ true).after (h1.trans ⟨rfl, rfl, rfl, rfl, rfl, rfl⟩)

theorem entryAbandon (b : Block) (bits : Nat) : Attends b (b.entryAbandon bits) := by
  unfold Block.entryAbandon; extract_lets m b1
  have h1 : Attends b b1 := ⟨rfl, rfl, rfl, rfl, rfl, rfl⟩
  exact (h1.trans (put b1 1 (by decide) (by decide))).trans ((openAcceptance _).trans (notice _ _ _ _ _))

theorem wakeLatch (b : Block) (bit : Nat) : Attends b (b.wakeLatch bit) := by
  have hheld : Attends b { b with mode := { b.mode with held := setBit b.mode.held bit } } :=
    ⟨rfl, rfl, rfl, rfl, rfl, rfl⟩
  unfold Block.wakeLatch
  refine ite (refl b) ?_
  split
  · exact ite hheld (entryAbandon b _)
  · refine ite hheld ?_
    split
    · exact ite (refl b) (wakeStart b _ _)
    · exact refl b

/-! ### Maintenance -/

theorem modeShift (b : Block) (new : Mode) (cause : Nat) : Attends b (b.modeShift new cause) := by
  unfold Block.modeShift; extract_lets left m b1
  have h1 : Attends b b1 := ⟨rfl, rfl, rfl, rfl, rfl, rfl⟩
  have hadd : Attends b1 (b1.add Obj.transitions) := put b1 _ (by decide) (by decide)
  exact ite (refl b) (((h1.trans hadd).trans (notice _ _ _ _ _)).trans (post _ _ _ _ _))

theorem enterMaint (b : Block) : Attends b b.enterMaint := by
  unfold Block.enterMaint; extract_lets m b0 b1
  have h0 : Attends b b0 := ite ⟨rfl, rfl, rfl, rfl, rfl, rfl⟩ (refl b)
  have h1 : Attends b b1 := (h0.trans (put b0 _ (by decide) (by decide))).trans (modeShift _ _ _)
  split
  · exact h1.trans ⟨rfl, rfl, rfl, rfl, rfl, rfl⟩
  · exact h1

theorem maintCheck (b : Block) : Attends b b.maintCheck := by
  unfold Block.maintCheck; extract_lets both rise m b1 m1 b2
  have h1 : Attends b b1 := ⟨rfl, rfl, rfl, rfl, rfl, rfl⟩
  have h2 : Attends b b2 := ⟨rfl, rfl, rfl, rfl, rfl, rfl⟩
  refine ite ?_ h1
  split
  · exact h1.trans (enterMaint b1)
  · exact h1.trans (enterMaint b1)
  · exact h1.trans (enterMaint b1)
  · exact h1.trans (enterMaint b1)
  · split
    · exact h2.trans ⟨rfl, rfl, rfl, rfl, rfl, rfl⟩
    · exact ite h2 (h2.trans ⟨rfl, rfl, rfl, rfl, rfl, rfl⟩)
  · exact h1

end Attends

section
variable {b : Block}

/-! ### Into Maintenance (R86, R88) -/

/-- The device is in Maintenance, with the mode `base` as its base. -/
def Block.InMaintenance (base : Mode) (x : Block) : Prop := x.mode.mode = .maintenance ∧ x.get Obj.maintBase = base.num

/-- The modes that the jumper leaves for Maintenance. -/
def maintBases : List Mode := [.fieldOnly, .relay, .fullService, .degraded]

theorem Block.modeShift_maintBase (b : Block) (new : Mode) (cause : Nat) :
    (b.modeShift new cause).get Obj.maintBase = b.get Obj.maintBase := by
  unfold Block.modeShift; extract_lets left m b1; split
  · rfl
  · rw [Block.abandonSummary, Block.get_post, Block.get_notice _ _ _ _ _ (by decide), Block.get_add_ne _ _ (by decide)]
    rfl

theorem Block.enterMaint_enters (he : b.mode.entry = none) : b.enterMaint.InMaintenance b.mode.mode := by
  unfold Block.enterMaint; extract_lets m b0 b1
  have h0 : b0 = b := if_neg (by simp [he])
  have h1 : b1.InMaintenance b.mode.mode := by
    refine ⟨Block.modeShift_mode _ _ _, ?_⟩
    unfold b1
    rw [Block.modeShift_maintBase, h0, Block.get_put_same]
  split
  · exact h1
  · exact h1

theorem Block.InMaintenance.of_eq {base : Mode} {x y : Block} (h : x.InMaintenance base)
    (hm : y.mode.mode = x.mode.mode) (hr : y.regs = x.regs) : y.InMaintenance base := by
  obtain ⟨hmode, hbase⟩ := h
  refine ⟨hm.trans hmode, ?_⟩
  simpa only [Block.get, hr] using hbase

/-- Without both conditions Maintenance is not entered, and the next rising edge counts. -/
theorem Block.maintCheck_of_apart (h : b.pins.maintFitted = false ∨ b.window = none) :
    b.maintCheck = { b with mode := { b.mode with both := false } } := by
  have hboth : (b.pins.maintFitted && b.windowNow) = false := by
    rcases h with h | h <;> simp [Block.windowNow, h]
  simp [Block.maintCheck, hboth]

theorem Block.maintCheck_enters (hbase : b.mode.mode ∈ maintBases) (he : b.mode.entry = none)
    (hboth : b.mode.both = false) (hfit : b.pins.maintFitted = true) (hw : b.window ≠ none) :
    b.maintCheck.InMaintenance b.mode.mode := by
  have hcheck : b.maintCheck = ({ b with mode := { b.mode with both := true } } : Block).enterMaint := by
    have hopen : b.windowNow = true := by simp [Block.windowNow, Option.isSome_iff_ne_none, hw]
    unfold Block.maintCheck; dsimp only
    rw [hfit, hopen, hboth]
    simp only [maintBases, List.mem_cons, List.not_mem_nil, or_false] at hbase
    rcases hbase with h | h | h | h <;> simp [h]
  rw [hcheck]
  exact Block.enterMaint_enters (b := { b with mode := { b.mode with both := true } }) he

/-! ### A press (R381) -/

/-- The input has been low for the time of a press, and a press may come of it. -/
structure Block.Pressing (b : Block) (w : Nat) : Prop where
  powered : b.mode.mode ≠ .off
  free : b.pins.presenceStuck = false
  fresh : b.pins.pressed = false
  low : b.pins.presenceLow = some w
  due : w + ms 500 ≤ b.now

/-- The block once a press is taken. -/
def Block.taken (b : Block) : Block := { b with pins := { b.pins with pressed := true } }

theorem Block.presencePress_of_pressing {w : Nat} (h : b.Pressing w) :
    b.presencePress = if b.drainHolds then b.taken.wakeLatch 1 else (b.taken.wakeLatch 1).pressEvent := by
  unfold Block.presencePress
  rw [if_neg]
  · rfl
  · rw [decide_eq_false h.powered, h.free, h.fresh, any_due h.low h.due]
    decide

theorem Block.presencePress_of_not (h : b.mode.mode = .off ∨ b.pins.presenceStuck = true ∨ b.pins.pressed = true ∨
    ∀ w, b.pins.presenceLow = some w → b.now < w + ms 500) : b.presencePress = b := by
  refine if_pos ?_
  simp only [Bool.or_eq_true, decide_eq_true_eq, Bool.not_eq_true']
  rcases h with h | h | h | h
  · exact .inl (.inl (.inl h))
  · exact .inl (.inl (.inr h))
  · exact .inl (.inr h)
  · exact .inr (any_not_due h)

/-- What a press event leaves: the window open for its length, the press counted, the device active. -/
structure Opens (b x : Block) : Prop where
  window : x.window = some (b.now + secs (b.get Obj.presenceWindow))
  active : x.mode.lastActivity = b.now
  pressed : x.pins.pressed = b.pins.pressed
  seq : x.get Obj.presenceSeq = Obj.presenceSeq.raised (b.get Obj.presenceSeq + 1)

/-- A press recorded and noticed, the window open, before the jumper is looked at. -/
def Block.pressTold (b : Block) : Block :=
  let len := b.get Obj.presenceWindow
  let b1 := { b with window := some (b.now + secs len) }.add Obj.presenceSeq
  let seq := b1.get Obj.presenceSeq
  (b1.post 0x0020 (bytesLE 4 seq ++ bytesLE 2 len ++ [b1.get Obj.sealState])).notice 0x0301 Obj.presenceSeq noRow
    (bytesBE 4 seq ++ bytesBE 2 len ++ [b1.get Obj.sealState])

theorem Block.pressEvent_eq (b : Block) : b.pressEvent = b.pressTold.maintCheck.active := rfl

theorem Block.pressTold_window (b : Block) : b.pressTold.window = some (b.now + secs (b.get Obj.presenceWindow)) := by
  simp [Block.pressTold]

theorem Block.pressTold_mode (b : Block) : b.pressTold.mode = b.mode := by simp [Block.pressTold]

theorem Block.pressTold_pins (b : Block) : b.pressTold.pins = b.pins := by simp [Block.pressTold]

theorem Block.pressTold_now (b : Block) : b.pressTold.now = b.now := by simp [Block.pressTold]

theorem Block.pressTold_seq (b : Block) :
    b.pressTold.get Obj.presenceSeq = Obj.presenceSeq.raised (b.get Obj.presenceSeq + 1) := by
  unfold Block.pressTold; extract_lets len b1 seq
  rw [Block.get_notice _ _ _ _ _ (by decide), Block.get_post]
  exact Block.get_add_same _ _ 1 0

theorem Block.pressEvent_opens (b : Block) : Opens b b.pressEvent := by
  have hcheck := Attends.maintCheck b.pressTold
  rw [Block.pressEvent_eq]
  exact ⟨hcheck.window.trans b.pressTold_window, hcheck.now.trans b.pressTold_now,
    hcheck.pressed.trans (by rw [Block.pressTold_pins]), hcheck.seq.trans b.pressTold_seq⟩

theorem Opens.of_attends {a b x : Block} (ha : Attends a b) (h : Opens b x) : Opens a x :=
  ⟨by rw [h.window, ha.now, ha.length], h.active.trans ha.now, h.pressed.trans ha.pressed, by rw [h.seq, ha.seq]⟩

theorem Block.pressEvent_enters (hbase : b.mode.mode ∈ maintBases) (he : b.mode.entry = none)
    (hboth : b.mode.both = false) (hfit : b.pins.maintFitted = true) : b.pressEvent.InMaintenance b.mode.mode := by
  have hmode := b.pressTold_mode
  have henters : b.pressTold.maintCheck.InMaintenance b.pressTold.mode.mode :=
    Block.maintCheck_enters (by rwa [hmode]) (by rwa [hmode]) (by rwa [hmode]) (by rwa [Block.pressTold_pins])
      (by rw [Block.pressTold_window]; exact Option.some_ne_none _)
  rw [hmode] at henters
  exact henters.of_eq rfl rfl

theorem Block.presencePress_opens {w : Nat} (h : b.Pressing w) (hd : b.drainHolds = false) :
    Opens b.taken b.presencePress := by
  rw [Block.presencePress_of_pressing h, hd]
  exact .of_attends (Attends.wakeLatch b.taken 1) (b.taken.wakeLatch 1).pressEvent_opens

/-- In a mode of the jumper the press wakes nothing, and enters Maintenance. -/
theorem Block.presencePress_enters {w : Nat} (h : b.Pressing w) (hd : b.drainHolds = false)
    (hbase : b.mode.mode ∈ maintBases) (he : b.mode.entry = none) (hboth : b.mode.both = false)
    (hfit : b.pins.maintFitted = true) : b.presencePress.InMaintenance b.mode.mode := by
  have hawake : b.taken.mode.mode ≠ .hibernate := by
    have hne : ∀ m ∈ maintBases, m ≠ .hibernate := by decide
    exact hne _ hbase
  have hlatch : b.taken.wakeLatch 1 = b.taken := Block.wakeLatch_of_awake (b := b.taken) he hd hawake 1
  rw [Block.presencePress_of_pressing h, hd, hlatch]
  exact Block.pressEvent_enters (b := b.taken) hbase he hboth hfit

theorem Block.presencePress_held {w : Nat} (h : b.Pressing w) (hd : b.drainHolds = true) (he : b.mode.entry = none) :
    b.presencePress = { b with
      pins := { b.pins with pressed := true }
      mode := { b.mode with held := setBit b.mode.held 1 } } := by
  rw [Block.presencePress_of_pressing h, hd]
  exact Block.wakeLatch_of_held (b := b.taken) (bit := 1) rfl he hd

/-! ### The window closes (R382) -/

theorem Block.closeWindow_of_none (h : b.window = none) (cause : Nat) : b.closeWindow cause = b := by
  simp [Block.closeWindow, h]

theorem Block.closeWindow_of_open (h : b.window ≠ none) (cause : Nat) : b.closeWindow cause =
    { { b with window := none }.notice 0x0302 Obj.windowOpen noRow [cause] with
      mode := { b.mode with both := false } } := by
  obtain ⟨w, hw⟩ := Option.ne_none_iff_exists'.mp h
  unfold Block.closeWindow; rw [hw]; dsimp only
  rw [Block.maintCheck_of_apart (.inr (by rw [Block.notice_window])), Block.notice_mode]

theorem Block.closeWindow_window (b : Block) (cause : Nat) : (b.closeWindow cause).window = none := by
  by_cases h : b.window = none
  · rw [Block.closeWindow_of_none h, h]
  · rw [Block.closeWindow_of_open h]
    exact Block.notice_window _ _ _ _ _

theorem Block.closeWindow_pins (b : Block) (cause : Nat) : (b.closeWindow cause).pins = b.pins := by
  by_cases h : b.window = none
  · rw [Block.closeWindow_of_none h]
  · rw [Block.closeWindow_of_open h]
    exact Block.notice_pins _ _ _ _ _

theorem Block.presenceHold_of_due {w : Nat} (hm : b.mode.mode ≠ .off) (hs : b.pins.presenceStuck = false)
    (hw : b.pins.presenceLow = some w) (hd : w + secs 10 ≤ b.now) :
    b.presenceHold = ({ b with pins := { b.pins with presenceStuck := true } } : Block).closeWindow 1 := by
  have hcond : (decide (b.mode.mode = .off) || b.pins.presenceStuck ||
      !b.pins.presenceLow.any fun w => decide (w + secs 10 ≤ b.now)) = false := by
    rw [decide_eq_false hm, hs, any_due hw hd]; rfl
  unfold Block.presenceHold
  rw [if_neg (ne_true_of_eq_false hcond), hw]
  rfl

theorem Block.presenceHold_of_not (h : b.mode.mode = .off ∨ b.pins.presenceStuck = true ∨
    ∀ w, b.pins.presenceLow = some w → b.now < w + secs 10) : b.presenceHold = b := by
  refine if_pos ?_
  simp only [Bool.or_eq_true, decide_eq_true_eq, Bool.not_eq_true']
  rcases h with h | h | h
  · exact .inl (.inl h)
  · exact .inl (.inr h)
  · exact .inr (any_not_due h)

theorem Block.windowExpiry_of_due {w : Nat} (hw : b.window = some w) (hd : w ≤ b.now) :
    b.windowExpiry = b.closeWindow 0 := if_pos (any_due (d := 0) hw hd)

theorem Block.windowExpiry_of_not (h : ∀ w, b.window = some w → b.now < w) : b.windowExpiry = b :=
  if_neg (ne_true_of_eq_false (any_not_due (d := 0) h))

theorem writes_presenceClose {c : Instr} {s : State} {t : Nat} {p : Port}
    (he : exec c s = s.atAll t fun x => x.setOne p Obj.presenceClose 1) :
    Writes c s t p 0x1100 5 noRow 1 1 fun w _ _ => (0, w.closeWindow 2) := by
  refine .of_portWrite (act := .plain) he (by omega) (by simp) fun x r k h => ?_
  obtain ⟨hfind, -⟩ := Block.checkWrite_ok h
  obtain rfl : Obj.presenceClose = r := by
    have hreg : x.blk.find 0x1100 5 = .ok Obj.presenceClose := rfl
    exact Except.ok.inj (hreg.symm.trans hfind)
  rfl

/-! ### The jumper (R88, R385) -/

/-- MAINT_N at a level, recorded and noticed, before Maintenance is looked at. -/
def Block.jumperTold (b : Block) (fitted : Bool) : Block :=
  ({ b with pins := { b.pins with maintFitted := fitted } }.post 0x0021 [if fitted then 1 else 0]).notice
    (if fitted then 0x0303 else 0x0304) Obj.maintFitted

theorem Block.jumperTold_mode (b : Block) (v : Bool) : (b.jumperTold v).mode = b.mode := by simp [Block.jumperTold]

theorem Block.jumperTold_window (b : Block) (v : Bool) : (b.jumperTold v).window = b.window := by
  simp [Block.jumperTold]

theorem Block.jumperTold_pins (b : Block) (v : Bool) :
    (b.jumperTold v).pins = { b.pins with maintFitted := v } := by simp [Block.jumperTold]

theorem Block.jumperTold_maintBase (b : Block) (v : Bool) :
    (b.jumperTold v).get Obj.maintBase = b.get Obj.maintBase := by
  unfold Block.jumperTold
  rw [Block.get_notice _ _ _ _ _ (by decide), Block.get_post]
  rfl

theorem Block.maintChange_of_same {v : Bool} (h : b.pins.maintFitted = v) : b.maintChange v = b := if_pos h

theorem Block.maintChange_of_off {v : Bool} (h : b.pins.maintFitted ≠ v) (hm : b.mode.mode = .off) :
    b.maintChange v = { b with pins := { b.pins with maintFitted := v } } := by
  unfold Block.maintChange
  rw [if_neg h, if_pos hm]

theorem Block.maintChange_of_powered {v : Bool} (h : b.pins.maintFitted ≠ v) (hm : b.mode.mode ≠ .off) :
    b.maintChange v =
      if v = false ∧ (b.jumperTold v).maintCheck.mode.mode = .maintenance
      then (b.jumperTold v).maintCheck.active.leaveMaint 7 else (b.jumperTold v).maintCheck.active := by
  unfold Block.maintChange
  rw [if_neg h, if_neg hm]
  refine if_congr ?_ rfl rfl
  simp only [Bool.and_eq_true, Bool.not_eq_true', decide_eq_true_eq]
  rfl

/-- The block once MAINT_N is told and is not enough for Maintenance. -/
theorem Block.maintCheck_jumperTold {v : Bool} (h : v = false ∨ b.window = none) :
    (b.jumperTold v).maintCheck.active.mode.mode = b.mode.mode ∧
      (b.jumperTold v).maintCheck.active.pins = { b.pins with maintFitted := v } := by
  have hapart : (b.jumperTold v).pins.maintFitted = false ∨ (b.jumperTold v).window = none := by
    rwa [Block.jumperTold_pins, Block.jumperTold_window]
  rw [Block.maintCheck_of_apart hapart]
  refine ⟨?_, b.jumperTold_pins v⟩
  have hmode := congrArg ModeUnit.mode (b.jumperTold_mode v)
  exact hmode

theorem Block.maintChange_fitted_enters (hfit : b.pins.maintFitted = false) (hbase : b.mode.mode ∈ maintBases)
    (he : b.mode.entry = none) (hboth : b.mode.both = false) (hw : b.window ≠ none) :
    (b.maintChange true).InMaintenance b.mode.mode ∧ (b.maintChange true).pins.maintFitted = true := by
  have hoff : b.mode.mode ≠ .off := by
    have hne : ∀ m ∈ maintBases, m ≠ .off := by decide
    exact hne _ hbase
  have hmode := b.jumperTold_mode true
  have hpins : (b.jumperTold true).pins.maintFitted = true := by rw [Block.jumperTold_pins]
  have henters : (b.jumperTold true).maintCheck.InMaintenance (b.jumperTold true).mode.mode :=
    Block.maintCheck_enters (by rwa [hmode]) (by rwa [hmode]) (by rwa [hmode]) hpins (by rwa [Block.jumperTold_window])
  rw [hmode] at henters
  rw [Block.maintChange_of_powered (by simp [hfit]) hoff, if_neg (by simp)]
  exact ⟨henters.of_eq rfl rfl, (Attends.maintCheck _).fitted.trans hpins⟩

/-- A level of MAINT_N that meets no open window and leaves no Maintenance moves nothing but the pin. -/
theorem Block.maintChange_alone {v : Bool} (hne : b.pins.maintFitted ≠ v)
    (h : v = false ∧ b.mode.mode ≠ .maintenance ∨ v = true ∧ b.window = none) :
    (b.maintChange v).mode.mode = b.mode.mode ∧ (b.maintChange v).pins = { b.pins with maintFitted := v } := by
  by_cases hoff : b.mode.mode = .off
  · rw [Block.maintChange_of_off hne hoff]
    exact ⟨rfl, rfl⟩
  · obtain ⟨hmode, hpins⟩ := Block.maintCheck_jumperTold (b := b) (v := v) (h.imp And.left And.right)
    have hstays : ¬ (v = false ∧ (b.jumperTold v).maintCheck.mode.mode = .maintenance) := by
      rintro ⟨hv, hmaint⟩
      rcases h with ⟨-, hm⟩ | ⟨ht, -⟩
      · exact hm (hmode.symm.trans hmaint)
      · simp [hv] at ht
    rw [Block.maintChange_of_powered hne hoff, if_neg hstays]
    exact ⟨hmode, hpins⟩

/-! ### Out of Maintenance (R86, R88) -/

theorem Stands.stopTest (b : Block) (r : Radio) (status : Nat) : Stands b (b.stopTest r status) := by
  unfold Block.stopTest; extract_lets b1
  have h1 : Stands b b1 := ⟨rfl, rfl, rfl⟩
  split
  · exact h1
  · next c _ =>
    refine ite h1 ?_
    split
    · exact h1.trans (endCmd b1 r)
    · next a _ =>
      have hemit (x : Block) (o o' : Out) : Stands x ((x.emit o).emit o') := ⟨rfl, rfl, rfl⟩
      refine ite (h1.trans (endCmd b1 r)) (ite ?_ ?_)
      · exact (endCmd _ r).after ((txStatus _ r status).after
          ((hemit _ _ _).after (h1.trans ((dutyCorrect b1 _ _).trans (rampEnd _ r)))))
      · exact h1.trans (((uncommit b1 r).trans (txStatus _ r status)).trans (endCmd _ r))

theorem Stands.debugSet (b : Block) (v : Nat) : Stands b (b.debugSet v) := by
  unfold Block.debugSet; extract_lets old
  exact ite (refl b) (((put_above b v 0 (by decide)).trans (post _ _ _ _ _)).trans (notice _ _ _ _ _))

/-- With Maintenance a test transmission and an unlocked debug port end, and nothing that the block senses. -/
theorem Stands.maintEnds (b : Block) : Stands b b.maintEnds := by
  unfold Block.maintEnds; extract_lets b1
  have hstop (c : Block) (r : Radio) : Stands c (c.writeTestMode r 0).2 :=
    (stopTest c r 0).trans (put_of _ r 0 0 (by decide))
  have h1 : Stands b b1 := foldl (fun c r => ite (refl c) (hstop c r)) _ b
  exact ite (h1.trans (debugSet b1 _)) h1

theorem Block.drainAims_pins (b : Block) (f : Mode → Mode) : (b.drainAims f).pins = b.pins := by
  unfold Block.drainAims; split <;> rfl

theorem Block.leaveMaint_fitted (b : Block) (cause : Nat) :
    (b.leaveMaint cause).pins.maintFitted = b.pins.maintFitted := by
  unfold Block.leaveMaint; extract_lets base t
  rw [Block.drainAims_pins, (Attends.modeShift _ _ _).fitted]
  exact congrArg (fun p => p.2.1) (Stands.maintEnds b).pins

/-- The jumper removed in Maintenance goes back to a base mode other than Degraded. -/
theorem Block.maintChange_removed (hfit : b.pins.maintFitted = true) (hm : b.mode.mode = .maintenance)
    (hbase : b.get Obj.maintBase ∈ [3, 4, 5]) :
    (b.maintChange false).mode.mode = Mode.ofNum (b.get Obj.maintBase) ∧
      (b.maintChange false).pins.maintFitted = false := by
  obtain ⟨hmode, hpins⟩ := Block.maintCheck_jumperTold (b := b) (v := false) (.inl rfl)
  have hget : (b.jumperTold false).maintCheck.active.get Obj.maintBase = b.get Obj.maintBase := by
    rw [Block.get_active, Block.maintCheck_of_apart (.inl (by rw [Block.jumperTold_pins]))]
    exact b.jumperTold_maintBase false
  have hserved : Mode.ofNum (b.get Obj.maintBase) ≠ .degraded := by
    have hne : ∀ n ∈ [3, 4, 5], Mode.ofNum n ≠ .degraded := by decide
    exact hne _ hbase
  rw [Block.maintChange_of_powered (by simp [hfit]) (by simp [hm]), if_pos ⟨rfl, hmode.trans hm⟩]
  refine ⟨?_, ?_⟩
  · rw [Block.leaveMaint_mode, hget, if_neg hserved]
  · rw [Block.leaveMaint_fitted, hpins]

end

/-- Settles O27: a press by its time, wakes and event; the window's end by the mode unit's edge; the jumper by the
conditions of Maintenance. -/
theorem presenceOpensTheWindowAndTheJumperMaintenance : Obligations.PresenceOpensTheWindowAndTheJumperMaintenance := by
  intro s t p b base enters
  have of_eq {c : Instr} {f : Block → Block} (he : exec c s = s.furnace t f) {y : Block} (hy : f b = y) :
      Takes c s fun x => x = y := .of_furnace he hy
  refine ⟨?_, ?_, ?_, ?_, ?_, ?_, ?_, writes_presenceClose rfl, Block.closeWindow_window, of_eq rfl rfl, of_eq rfl rfl,
    ?_, ?_, ?_, ?_, ?_, ?_⟩
  · intro w hoff hstuck hpressed hlow hdue hd
    have hpress : b.Pressing w := ⟨hoff, hstuck, hpressed, hlow, hdue⟩
    have hopens := Block.presencePress_opens hpress hd
    exact .of_furnace rfl ⟨hopens.window, hopens.active, hopens.pressed, hopens.seq, fun hbase he hboth hfit =>
      Block.presencePress_enters hpress hd hbase he hboth hfit⟩
  · intro w hoff hstuck hpressed hlow hdue hd he
    exact of_eq rfl (Block.presencePress_held ⟨hoff, hstuck, hpressed, hlow, hdue⟩ hd he)
  · exact fun h => of_eq rfl (Block.presencePress_of_not h)
  · intro w hoff hstuck hlow hdue
    refine .of_furnace rfl ?_
    rw [Block.presenceHold_of_due hoff hstuck hlow hdue]
    exact ⟨Block.closeWindow_window _ _, Block.closeWindow_pins _ _⟩
  · exact fun h => of_eq rfl (Block.presenceHold_of_not h)
  · intro w hw hdue
    refine .of_furnace rfl ?_
    rw [Block.windowExpiry_of_due hw hdue, Block.closeWindow_of_open (by simp [b, hw])]
    exact ⟨Block.notice_window _ _ _ _ _, rfl⟩
  · exact fun h => of_eq rfl (Block.windowExpiry_of_not h)
  · intro hfit hbase he hboth hw
    exact .of_furnace rfl (Block.maintChange_fitted_enters hfit hbase he hboth hw)
  · intro hfit hw
    exact .of_furnace rfl (Block.maintChange_alone (by simp [b, hfit]) (.inr ⟨rfl, hw⟩))
  · exact fun hfit hm hbase => .of_furnace rfl (Block.maintChange_removed hfit hm hbase)
  · intro hfit hm
    exact .of_furnace rfl (Block.maintChange_alone (by simp [b, hfit]) (.inl ⟨rfl, hm⟩))
  · exact fun h => of_eq rfl (Block.maintChange_of_same h)
  · exact fun h => of_eq rfl (Block.maintChange_of_same h)

end Sys2Proof.Machine
end

section
/-!
SUPPORT. Idle timers (R91 to R93, R488): what a link change and the end of each idle time leave, and the statement about
their commands.
-/

namespace Sys2Proof.Machine

section
variable {b : Block}

/-! ### The Ethernet ports (R91, R263) -/

theorem Block.linkChange_of_up {port speed : Nat} (hs : b.ethServes port = true) (h0 : speed ≠ 0)
    (hfits : speedFits (b.get Obj.ethMode port) speed = true) : b.linkChange port speed =
      ({ b with fwd := { b.fwd with low := b.fwd.low.set port false } } : Block).put Obj.ethLink speed port := by
  simp [Block.linkChange, hs, h0, hfits]

theorem Block.linkChange_of_down {port : Nat} (hs : b.ethServes port = true) : b.linkChange port 0 = b.lineDown port := by
  simp [Block.linkChange, hs]

/-- With no frame on its line, the link that falls only forgets what paused the port, and its idle time starts. -/
theorem Block.lineDown_of_quiet {port : Nat} (hline : b.fwd.line.getD port none = none) (hup : b.get Obj.ethLink port ≠ 0) :
    b.lineDown port = ({ b with fwd := { b.fwd with
      paused := b.fwd.paused.set port [], xoff := b.fwd.xoff.set port (0, 0)
      downAt := b.fwd.downAt.set port b.now } } : Block).put Obj.ethLink 0 port := by
  simp only [Block.lineDown, hline]
  exact if_neg hup

theorem Block.ethIdle_of_due {port : Nat} (hs : b.ethServes port = true) (hdown : b.get Obj.ethLink port = 0)
    (hdue : b.fwd.downAt.getD port 0 + secs (b.get Obj.ethIdle) ≤ b.now) :
    b.ethIdle port = { b with fwd := { b.fwd with low := b.fwd.low.set port true } } := by
  refine if_pos ?_
  simp only [Bool.and_eq_true, beq_iff_eq, decide_eq_true_eq]
  exact ⟨⟨hs, hdown⟩, hdue⟩

theorem Block.ethIdle_of_early {port : Nat} (h : b.now < b.fwd.downAt.getD port 0 + secs (b.get Obj.ethIdle)) :
    b.ethIdle port = b := by
  refine if_neg ?_
  simp only [Bool.and_eq_true, decide_eq_true_eq]
  exact fun ⟨_, hdue⟩ => Nat.not_le.mpr h hdue

/-! ### The radios (R91) -/

theorem Block.femDrive_radios (b : Block) (r : Radio) (at_ : Nat) : (b.femDrive r at_).radios = b.radios := by
  unfold Block.femDrive; split <;> rfl

theorem Block.femDrive_regs (b : Block) (r : Radio) (at_ : Nat) : (b.femDrive r at_).regs = b.regs := by
  unfold Block.femDrive; split <;> rfl

theorem Block.radioIdle_of_due {r : Radio} (hl : r ≠ .l) (hon : b.radioOn r = true) (hasked : b.radioAsked r = false)
    (hppdu : (b.radio r).inPpdu = false) (hdue : (b.radio r).idleFrom + ms (b.get Obj.radioIdle) ≤ b.now) :
    b.radioIdle r = ((b.put (Obj.synthState.of r) 0).modRadio r fun u =>
      { u with low := true, freq := 0, seg := none }).femDrive r b.now := by
  refine if_pos ?_
  simp only [Bool.and_eq_true, decide_eq_true_eq, Bool.not_eq_true']
  exact ⟨⟨⟨⟨hl, hon⟩, hasked⟩, hppdu⟩, hdue⟩

/-- Radio L has no idle time, and before its end another radio stays as it is. -/
theorem Block.radioIdle_of_not {r : Radio} (h : r = .l ∨ b.now < (b.radio r).idleFrom + ms (b.get Obj.radioIdle)) :
    b.radioIdle r = b := by
  refine if_neg ?_
  simp only [Bool.and_eq_true, decide_eq_true_eq]
  rintro ⟨⟨⟨⟨hl, -⟩, -⟩, -⟩, hdue⟩
  exact h.elim hl fun hearly => Nat.not_le.mpr hearly hdue

theorem Block.radioIdle_leaves {r : Radio} (hl : r ≠ .l) (hon : b.radioOn r = true) (hasked : b.radioAsked r = false)
    (hppdu : (b.radio r).inPpdu = false) (hdue : (b.radio r).idleFrom + ms (b.get Obj.radioIdle) ≤ b.now) :
    (b.radioIdle r).get (Obj.synthState.of r) = 0 ∧
      (b.radioIdle r).radios = b.radios.modify (radioNum r) fun u => { u with low := true, freq := 0, seg := none } := by
  rw [Block.radioIdle_of_due hl hon hasked hppdu hdue]
  refine ⟨?_, Block.femDrive_radios _ _ _⟩
  rw [Block.get, Block.femDrive_regs]
  exact Block.get_put_same b (Obj.synthState.of r) 0 0

/-! ### The DRAM (R488) -/

theorem Block.dramIdle_of_due (hactive : b.dramActive = true) (hreqs : b.dram.reqs = []) (htrain : b.dram.training = none)
    (hentering : b.dram.entering = none) (hdue : b.dram.idleFrom + us (b.get Obj.dramIdle) ≤ b.now) :
    b.dramIdle = { b with dram := { b.dram with entering := some b.now } } := by
  refine if_pos ?_
  rw [hactive, hreqs, htrain, hentering, decide_eq_true hdue]
  rfl

/-- Self-refresh that ends applies DRAM_SPREAD, and the DRAM shows itself as its channels are. -/
theorem Block.dramSelfRefreshExit_leaves (hwaking : b.dram.waking = true) (hup : b.dram.up = true)
    (hstate : b.get Obj.dramState = 2) :
    b.dramSelfRefreshExit.dram = { b.dram with waking := false, idleFrom := b.now } ∧
      b.dramSelfRefreshExit.get Obj.dramSpreadNow = b.get Obj.dramSpread ∧
      b.dramSelfRefreshExit.get Obj.dramState = if b.chFenced 0 || b.chFenced 1 then 4 else 1 := by
  unfold Block.dramSelfRefreshExit
  rw [if_pos hwaking]
  unfold Block.dramExit; extract_lets st b1
  rw [if_pos (by simp [hup, hstate])]
  refine ⟨rfl, Block.get_put_same _ _ _ _, ?_⟩
  exact (Block.get_put_ne _ _ (by decide)).trans (Block.get_put_same b _ _ _)

/-! ### The chip (R92, R93) -/

theorem Block.chipIdle_of_due {m : Mode} (hm : m = .fieldOnly ∨ m = .dayWatch) (hmode : b.mode.mode = m)
    (htrans : b.mode.trans = .none) (hpwr : b.pins.pwrOk = false) (hbit : (b.get Obj.chipIdleModes).testBit m.num = true)
    (hframes : b.frames = []) (hdue : b.mode.lastActivity + secs (b.get Obj.chipIdleTime) ≤ b.now) :
    b.chipIdle = b.entryStart 3 := by
  have hleave : b.leaveFor .hibernate 3 = b.entryStart 3 := by simp [Block.leaveFor, hframes, Block.goTo]
  have hmodes : (decide (b.mode.mode = .dayWatch) || decide (b.mode.mode = .fieldOnly)) = true := by
    rcases hm with h | h <;> simp [hmode, h]
  have hbits : bitSet (b.get Obj.chipIdleModes) b.mode.mode.num = true := by rw [hmode]; exact hbit
  refine (if_pos ?_).trans hleave
  simp only [Bool.and_eq_true, decide_eq_true_eq, Bool.not_eq_true']
  exact ⟨⟨⟨⟨hmodes, htrans⟩, hpwr⟩, hbits⟩, hdue⟩

theorem Block.chipIdle_of_not (h : b.pins.pwrOk = true ∨ b.now < b.mode.lastActivity + secs (b.get Obj.chipIdleTime)) :
    b.chipIdle = b := by
  refine if_neg ?_
  simp only [Bool.and_eq_true, decide_eq_true_eq, Bool.not_eq_true']
  rintro ⟨⟨⟨-, hpwr⟩, -⟩, hdue⟩
  exact h.elim (fun hon => by simp [hpwr] at hon) fun hearly => Nat.not_le.mpr hearly hdue

end

/-- Settles O23: each timer at its end and before it, by what its unit does. -/
theorem idleTimersEnterLowPower : Obligations.IdleTimersEnterLowPower := by
  intro s t hf b
  have of_eq {c : Instr} (f : Block → Block) (he : exec c s = s.at t f) {y : Block} (hy : f b = y) :
      Takes c s fun x => x = y := .of_at he hf hy
  refine ⟨?_, ?_, ?_, ?_, ?_, ?_, ?_, ?_, ?_, ?_⟩
  · exact fun port speed hs h0 hfits => of_eq (·.linkChange port speed) rfl (Block.linkChange_of_up hs h0 hfits)
  · intro port hs hline hup
    exact of_eq (·.linkChange port 0) rfl ((Block.linkChange_of_down hs).trans (Block.lineDown_of_quiet hline hup))
  · exact fun port hs hdown hdue => of_eq (·.ethIdle port) rfl (Block.ethIdle_of_due hs hdown hdue)
  · exact fun port hearly => of_eq (·.ethIdle port) rfl (Block.ethIdle_of_early hearly)
  · exact fun r hl hon hasked hppdu hdue => .of_at rfl hf (Block.radioIdle_leaves hl hon hasked hppdu hdue)
  · exact fun r h => of_eq (·.radioIdle r) rfl (Block.radioIdle_of_not h)
  · exact fun hactive hreqs htrain hentering hdue =>
      of_eq Block.dramIdle rfl (Block.dramIdle_of_due hactive hreqs htrain hentering hdue)
  · exact fun hwaking hup hstate => .of_at rfl hf (Block.dramSelfRefreshExit_leaves hwaking hup hstate)
  · intro m hm hmode htrans hpwr hbit hframes hdue
    refine .of_at rfl hf ?_
    rw [Block.chipIdle_of_due hm hmode htrans hpwr hbit hframes hdue]
    exact ⟨rfl, rfl, rfl, hmode, Block.get_put_same _ _ _ _⟩
  · exact fun h => of_eq Block.chipIdle rfl (Block.chipIdle_of_not h)

end Sys2Proof.Machine
end

section
/-!
SUPPORT. The loss of power (R90, R132, R520): what a power-down, a move and a cold reset leave of the levels that the
block senses, of the frames held and of LOST_POWER_LAST.
-/

namespace Sys2Proof.Machine

/-! ### More of what stands -/

namespace Stands

theorem pwrOk {b c : Block} (h : Stands b c) : c.pins.pwrOk = b.pins.pwrOk := congrArg (fun p => p.1) h.pins

theorem lowRails {b c : Block} (h : Stands b c) : c.pins.lowRails = b.pins.lowRails := congrArg (fun p => p.2.2) h.pins

theorem modeOf {b c : Block} (h : Stands b c) : c.mode.mode = b.mode.mode := by
  have e := congrArg ModeUnit.mode h.mode; exact e

theorem entry {b c : Block} (h : Stands b c) : c.mode.entry = b.mode.entry := by
  have e := congrArg ModeUnit.entry h.mode; exact e

theorem swapAbort (b : Block) (status : Nat) : Stands b (b.swapAbort status) := by
  unfold Block.swapAbort; split
  · next w _ =>
    have hrelease : Stands b (b.swapRelease w) := by
      unfold Block.swapRelease; split <;> exact ⟨rfl, rfl, rfl⟩
    have hput (c : Block) : Stands c ({ c with images := { c.images with swap := none } }.put Obj.swapStatus status) :=
      (put_above _ _ 0 (by decide)).after ⟨rfl, rfl, rfl⟩
    exact (hrelease.trans (hput _)).trans (notice _ _ _ _ _)
  · exact refl b

theorem restoreUnits (b : Block) : Stands b b.restoreUnits := by
  unfold Block.restoreUnits; extract_lets f bits named pairOf last show_ b1 m b2 b3 b4
  have h2 : Stands b b2 := ((put_above b 0 0 (by decide)).trans (put_above _ 0 0 (by decide))).trans ⟨rfl, rfl, rfl⟩
  have h3 : Stands b2 b3 := ite (ite (put_above b2 1 0 (by decide)) (refl b2)) (refl b2)
  have h4 : Stands b3 b4 := foldl (fun c i => (post c _ _ _ _).trans (notice _ _ _ _ _)) _ b3
  exact (h2.trans (h3.trans h4)).trans (ite (foldl alarmEvaluate _ b4) (refl b4))

theorem resetRecord (b : Block) (source kind : Nat) (m : Mode) : Stands b (b.resetRecord source kind m) := by
  unfold Block.resetRecord; extract_lets b1 b2
  have h2 : Stands b b2 :=
    (post b _ _ _ _).trans ((put_above _ source 0 (by decide)).trans (put_above _ kind 0 (by decide)))
  split
  · exact h2.trans (add_above b2 1 0 (by decide))
  · exact h2.trans (add_above b2 1 0 (by decide))

theorem regionStart (b : Block) : Stands b b.regionStart := by
  unfold Block.regionStart; split
  · exact refl b
  · extract_lets u b1 active rec_
    have h1 : Stands b b1 := ⟨rfl, rfl, rfl⟩
    exact ite h1 (h1.trans (post _ _ _ _ _))

theorem swapKept (b : Block) (w : Option Swap) (c : Block) : Stands b (b.swapKept w c) := by
  unfold Block.swapKept; split
  · exact (put_above b _ 0 (by decide)).trans (put_above _ _ 0 (by decide))
  · exact refl b

/-- A Stored object keeps its value where the other classes are cleared. -/
theorem coldState (b : Block) : Stands b b.coldState := by
  unfold Block.coldState; extract_lets r b1 b2
  have h1 : Stands b b1 := .of_stored rfl rfl rfl rfl
  have h2 : Stands b1 b2 := (put_above b1 _ 0 (by decide)).trans (put _ _ (by decide))
  exact (h1.trans h2).trans (put_above b2 _ 0 (by decide))

theorem failStrand (b : Block) (k : Nat) (r : Radio) (cause after : Nat) : Stands b (b.failStrand k r cause after) := by
  unfold Block.failStrand; extract_lets b1 ids b2 b3
  have h1 : Stands b b1 := remelt b 6 _
  have hback (c : Block) (i : Nat) : Stands c ((c.handOn r i).modFrame i fun f =>
      { f with resend := true, again := true, strand := none, twin := none, attempts := 0 }) := ⟨rfl, rfl, rfl⟩
  have h2 : Stands b1 b2 := foldl hback ids b1
  have hmods (c : Block) (f : Link → Link) (g : Strand → Strand) : Stands c ((c.modLink k f).modStrand k r g) :=
    ⟨rfl, rfl, rfl⟩
  have h3 : Stands b2 b3 := (setStrand b2 k r after).trans (hmods _ _ _)
  have htold : Stands b ((b3.notice 0x0190 Obj.linkStrandState k ([radioNum r, cause] ++ bytesBE 4 ids.length)).updateLink k) :=
    (h1.trans (h2.trans h3)).trans ((notice _ _ _ _ _).trans (updateLink _ k))
  have hset : Stands b ((b.setStrand k r after).updateLink k) := (setStrand b k r after).trans (updateLink _ k)
  clear_value b3
  exact ite htold (ite hset (refl b))

theorem configStrands (b : Block) (k : Nat) : Stands b (b.configStrands k) := by
  unfold Block.configStrands; extract_lets b1
  have h1 : Stands b b1 := foldl (fun c r =>
    ite (ite (setStrand c k r 1) (refl c)) (ite (failStrand c k r 0 0) (setStrand c k r 0))) _ b
  clear_value b1
  exact (updateLink _ k).after (h1.trans ⟨rfl, rfl, rfl⟩)

theorem linksUp (b : Block) : Stands b b.linksUp := foldl (fun c k => ite (configStrands c k) (refl c)) _ b

end Stands

/-! ### The frames held through a loss of power (R132) -/

theorem Block.setAlarm_frames (b : Block) {row : Nat} (bit : Nat) (on : Bool) (value : Int) (h2 : row ≠ 2) :
    (b.setAlarm row bit on value).frames = b.frames := by
  have htold : (b.alarmTold row bit on value).frames = b.frames := (b.alarmTold_tells bit on value).frames
  rcases b.setAlarm_cases bit on value h2 with e | e <;> rw [e]
  exact htold

theorem Block.relayPin_frames (b : Block) (r : Nat) (on : Bool) : (b.relayPin r on).frames = b.frames := by
  unfold Block.relayPin; split
  · rfl
  · extract_lets b1 b2
    have h2 : b2.frames = b.frames := rfl
    have hemit (c : Block) (o : Out) : (c.emit o).frames = c.frames := rfl
    clear_value b2
    exact (Block.setAlarm_frames _ r _ 0 (by decide)).trans ((hemit _ _).trans h2)

theorem Block.fieldRelease_frames (b : Block) : b.fieldRelease.frames = b.frames := by
  have hshow (c : Block) : c.dimsShow.frames = c.frames := rfl
  unfold Block.fieldRelease; extract_lets b1
  have h1 : b1.frames = b.frames := rfl
  clear_value b1
  rw [hshow, Block.relayPin_frames, Block.relayPin_frames, h1]

theorem Block.coreFOff_frames (b : Block) : b.coreFOff.frames = b.frames := by
  have hengines (c : Block) : ((c.clearDomain 1).enginesOff 1).frames = c.frames := rfl
  unfold Block.coreFOff; extract_lets b1
  have h1 : b1.frames = b.frames := (hengines _).trans b.fieldRelease_frames
  clear_value b1
  exact h1

theorem Block.coreAOff_frames (b : Block) : b.coreAOff.frames = [] := by
  unfold Block.coreAOff; extract_lets b1 links held p m b2
  rfl

/-- With Core-A goes every frame that a mains mode holds. -/
theorem Block.downTo_frames (b : Block) {m z : Mode} (hm : m.mains = true) (hz : z = .hibernate ∨ z = .dayWatch) :
    (b.downTo m z).frames = [] := by
  have hlist : ([3, 4, 5, 7, 6, 2, 1].filter fun d => m.has d && !z.has d) =
      if z = .hibernate then [3, 4, 5, 7, 6, 2, 1] else [3, 4, 7, 6, 2] := by
    rcases Mode.mains_iff.mp hm with rfl | rfl | rfl <;> rcases hz with rfl | rfl <;> rfl
  unfold Block.downTo; rw [hlist]
  rcases hz with rfl | rfl
  · exact (Block.coreFOff_frames _).trans (Block.coreAOff_frames _)
  · exact Block.coreAOff_frames _

/-! ### The power-down into Hibernate (R104) -/

theorem Stands.hibernateRecords (b : Block) : Stands b b.hibernateRecords := by
  unfold Block.hibernateRecords; extract_lets real m b1
  have hregs : b1.regs = b.regs := Block.post_regs _ _ _ _ _
  have hmode : b1.mode = { b.mode with mode := .hibernate } := Block.post_mode _ _ _ _ _
  have hpins : b1.pins = b.pins := Block.post_pins _ _ _ _ _
  clear_value b1
  refine (post _ _ _ _ _).after ⟨congrArg Pins.sensed hpins, ?_, ?_⟩
  · show ({ b1.mode with mode := real } : ModeUnit).still = b.mode.still
    rw [hmode]
  · simp only [Block.get, hregs]

theorem Block.baseOf_of_mains {m : Mode} (b : Block) (h : m.mains = true) : b.baseOf m = m :=
  if_neg fun e => by simp [e, Mode.mains] at h

/-- What the power-down from a mains mode into Hibernate leaves. -/
structure PowersDown (b x : Block) : Prop where
  mode : x.mode.mode = .hibernate
  entry : x.mode.entry = b.mode.entry
  mainEn : x.pins.mainEn = false
  pwrOk : x.pins.pwrOk = b.pins.pwrOk
  frames : x.frames = []
  lost : x.get Obj.lostPowerLast = b.get Obj.lostPowerLast

theorem Block.mainEn_frames (b : Block) (v : Bool) : (b.mainEn v).frames = b.frames := by
  unfold Block.mainEn; split <;> rfl

theorem Block.hibernateDown_powersDown {b : Block} (hm : b.mode.mode.mains = true) : PowersDown b b.hibernateDown := by
  unfold Block.hibernateDown; extract_lets left b1 b2 b3 r b4 m b5
  have hleft : left = b.mode.mode := b.baseOf_of_mains hm
  have hhas : left.has 2 = true := by
    rw [hleft]
    rcases Mode.mains_iff.mp hm with h | h | h <;> rw [h] <;> rfl
  have hduty (c : Block) : Stands c c.dutyFold := ⟨rfl, rfl, rfl⟩
  have h1 : Stands b b1 := ((Stands.hibernateRecords b).trans (hduty _)).trans (Releases.stationsLeave _).stands
  have h3 : b3 = b2 := if_pos (by simp [hhas])
  have h2 : Stands b b2 := h1.trans (.downTo b1 left .hibernate)
  have h5 : b5.pins.pwrOk = b2.pins.pwrOk ∧ b5.mode.entry = b2.mode.entry ∧ b5.frames = b2.frames ∧
      b5.get Obj.lostPowerLast = b2.get Obj.lostPowerLast := by
    rw [← h3]
    exact ⟨rfl, rfl, rfl, Block.get_of_stored rfl rfl rfl 0⟩
  obtain ⟨hpwr, hentry, hframes, hlost⟩ := h5
  refine ⟨?_, ?_, b5.mainEn_level false, (b5.mainEn_pwrOk false).trans (hpwr.trans h2.pwrOk), ?_, ?_⟩
  · rw [Block.put_mode, Block.mainEn_mode]
  · rw [Block.put_mode, Block.mainEn_mode]
    exact hentry.trans h2.entry
  · rw [Block.put_frames, Block.mainEn_frames, hframes]
    exact Block.downTo_frames b1 (hleft ▸ hm) (.inl rfl)
  · rw [Block.get_put_ne _ _ (by decide), Block.mainEn_get, hlost]
    exact h2.lost

/-! ### Moves (R86, R89) -/

/-- The entry into a mode leaves the levels, the frames and LOST_POWER_LAST. -/
theorem Block.entered_leaves (b : Block) (left new : Mode) (cause : Nat) :
    (b.entered left new cause).pins = b.pins ∧ (b.entered left new cause).frames = b.frames ∧
      (b.entered left new cause).get Obj.lostPowerLast = b.get Obj.lostPowerLast := by
  unfold Block.entered; extract_lets m b1 b2
  split
  · exact ⟨rfl, rfl, rfl⟩
  · rw [Block.abandonSummary, Block.post_pins, Block.post_frames, Block.get_post, Block.notice_pins, Block.notice_frames,
      Block.get_notice _ _ _ _ _ (by decide)]
    exact ⟨rfl, rfl, Block.get_add_ne b1 1 (by decide)⟩

theorem Block.moveTo_dayWatch {b : Block} (hm : b.mode.mode.mains = true) (cause : Nat) :
    (b.moveTo .dayWatch cause).frames = [] ∧ (b.moveTo .dayWatch cause).pins.pwrOk = b.pins.pwrOk ∧
      (b.moveTo .dayWatch cause).get Obj.lostPowerLast = b.get Obj.lostPowerLast := by
  unfold Block.moveTo; extract_lets left a z b1 b2 m b3 b4 b5 b6
  have ha : a = b.mode.mode := b.baseOf_of_mains hm
  have h2 : Stands b b2 := (Releases.stationsLeave b).stands.trans (.downTo b1 a z)
  have hframes : b2.frames = [] := Block.downTo_frames b1 (ha ▸ hm) (.inr rfl)
  have h4 : b4 = b3 := by
    unfold b4; rw [ha]
    rcases Mode.mains_iff.mp hm with h | h | h <;> rw [h] <;> rfl
  obtain ⟨hpins, hkept, hlost⟩ := b4.entered_leaves left .dayWatch cause
  have hend : (if z = .dayWatch && a ≠ .dayWatch then b6.dayBegin else b6) = b5.dayBegin := by
    have hne : a ≠ .dayWatch := fun e => by simp [← ha, e, Mode.mains] at hm
    exact if_pos (by simp [hne, z, Block.baseOf])
  have hbegin (c : Block) : c.dayBegin.frames = c.frames ∧ c.dayBegin.pins = c.pins ∧
      c.dayBegin.get Obj.lostPowerLast = c.get Obj.lostPowerLast := ⟨rfl, rfl, rfl⟩
  obtain ⟨hbframes, hbpins, hblost⟩ := hbegin b5
  have h3 : b4.frames = b2.frames ∧ b4.pins = b2.pins ∧ b4.get Obj.lostPowerLast = b2.get Obj.lostPowerLast := by
    rw [h4]
    exact ⟨rfl, rfl, rfl⟩
  obtain ⟨h3frames, h3pins, h3lost⟩ := h3
  rw [hend, hbframes, hbpins, hblost, hkept, hpins, hlost, h3frames, h3pins, h3lost]
  exact ⟨hframes, h2.pwrOk, h2.lost⟩

theorem Block.moveTo_relay_pwrOk {b : Block} (hm : b.mode.mode = .fieldOnly) (cause : Nat) :
    (b.moveTo .relay cause).pins.pwrOk = b.pins.pwrOk := by
  unfold Block.moveTo; extract_lets left a z b1 b2 m b3 b4 b5 b6
  have h2 : Stands b b2 := (Releases.stationsLeave b).stands.trans (.downTo b1 a z)
  have h4 : Stands b3 b4 := by
    have ha : a = .fieldOnly := by unfold a left; rw [hm]; rfl
    have hup : b4 = (((b3.dramUp.ethPower.radioOnUp .h).radioOnUp .m).radioOnUp .l) := by unfold b4; rw [ha]; rfl
    have heth (c : Block) : Stands c c.ethPower := ⟨rfl, rfl, rfl⟩
    rw [hup]
    exact (((Stands.dramUp b3).trans (heth _)).trans (.radioOnUp _ .h)).trans ((Stands.radioOnUp _ .m).trans (.radioOnUp _ .l))
  obtain ⟨hpins, -, -⟩ := b4.entered_leaves left .relay cause
  have h6 : Stands b5 b6 := .ite (.linksUp b5) (.refl b5)
  exact h6.pwrOk.trans ((congrArg Pins.pwrOk hpins).trans (h4.pwrOk.trans h2.pwrOk))

/-! ### The cold reset (R501) -/

/-- What a cold reset that gives up what has begun leaves: the levels sensed, and a cold start due. -/
theorem Block.coldReset_leaves {b : Block} (h : b.coreF = true) {source : Nat} (hs : source ≠ 3 ∧ source ≠ 7) :
    (b.coldReset source).pins.lowRails = b.pins.lowRails ∧ (b.coldReset source).get Obj.resetKind = 0 ∧
      (b.coldReset source).boot.map (·.kind) = some 0 := by
  have hoff : b.mode.mode ≠ .off := fun e => by simp [Block.coreF, e] at h
  have hhib : b.mode.mode ≠ .hibernate := fun e => by simp [Block.coreF, e] at h
  unfold Block.coldReset
  extract_lets mode b0 held lossy b1 b2 before slot b3 b4 b5 b6 b7 target b8
  rw [if_neg hoff, if_neg hhib]
  have h0 : b0 = b := if_neg (by simp [hs])
  have h1 : Stands b b1 := by
    unfold b1; rw [h0]
    exact .ite ((Stands.add_above b held 0 (by decide)).trans (.post _ _ _ _ _)) (.refl b)
  have h2 : Stands b1 b2 := (Stands.swapAbort b1 6).trans (.restoreUnits _)
  have h4 : Stands b2 b4 := (Stands.downTo b2 _ _).trans (.ite (.coreAOff b3) (.refl b3))
  have h5 : Stands b4 b5 := ((Stands.coldState b4).trans (.put_above _ _ 0 (by decide))).trans
    (.put _ 0 (by decide))
  have h6 : Stands b5 b6 := ((Stands.resetRecord b5 _ _ _).trans (.put_above _ _ 0 (by decide))).trans
    ((Stands.swapKept _ _ _).trans (.regionStart _))
  have h7 : Stands b6 b7 := .ite (.debugSet b6 _) (.refl b6)
  have h8 : Stands b7 b8 := .ite ⟨rfl, rfl, rfl⟩ (.refl b7)
  have hkind : b6.get Obj.resetKind = 0 := by
    unfold b6
    rw [Block.regionStart_get, Block.swapKept_get _ _ _ (by decide) (by decide), Block.get_put_ne _ _ (by decide),
      Block.resetRecord_kind]
  have hkind7 : b7.get Obj.resetKind = b6.get Obj.resetKind := by
    unfold b7; split
    · exact Block.debugSet_get _ _ (by decide) (by decide)
    · rfl
  have hkind8 : b8.get Obj.resetKind = b7.get Obj.resetKind := by
    unfold b8; split <;> rfl
  exact ⟨((h1.trans h2).trans (h4.trans h5)).lowRails ▸ (h6.trans (h7.trans h8)).lowRails,
    hkind8.trans (hkind7.trans hkind), rfl⟩

end Sys2Proof.Machine
end

section
/-!
SUPPORT. Power fails and brownouts (R86, R90, R103, R520): the power-fail path, the rise of PWR_OK in each mode, the
rails, and the statement about their commands.
-/

namespace Sys2Proof.Machine

section
variable {b : Block}

/-! ### The power-fail path (R90, R132) -/

/-- A mains device whose held frames are lost: acceptance closed, the number recorded, drains and entries ended. -/
def Block.powerLost (b : Block) (trigger : Nat) : Block :=
  let n := b.get Obj.acceptedHeld
  let b1 := b.closeAcceptance.postUrgent
    { type := 0x0002
      payload := bytesLE 4 n ++ [trigger, b.mode.mode.num, if b.mode.trans = .draining then 1 else 0]
      first := true }
  let b2 := ((b1.add Obj.lostPower n).put Obj.lostPowerLast n).put Obj.acceptedHeld 0
  let b3 := { b2 with frames := [], gth := {}, fwd := { b2.fwd with misses := [], filled := [], line := [none, none] } }
  ({ b3 with mode := { b3.mode with trans := .none, drain := none, entry := none } } : Block).swapAbort 6

theorem Block.powerLost_mode (b : Block) (trigger : Nat) : (b.powerLost trigger).mode =
    { b.mode with acc := {}, trans := .none, drain := none, entry := none } := Block.swapAbort_mode _ _

theorem Block.powerLost_pwrOk (b : Block) (trigger : Nat) : (b.powerLost trigger).pins.pwrOk = b.pins.pwrOk :=
  (Stands.swapAbort _ _).pwrOk

theorem Block.powerLost_lost (b : Block) (trigger : Nat) :
    (b.powerLost trigger).get Obj.lostPowerLast = b.get Obj.acceptedHeld := by
  unfold Block.powerLost; extract_lets n b1 b2 b3 m
  have h2 : b2.get Obj.lostPowerLast = n := (Block.get_put_ne _ _ (by decide)).trans (Block.get_put_same _ _ _ _)
  exact (Stands.swapAbort _ _).lost.trans h2

/-- The payload of the notice of a power fail: the mode left, the target and the number of frames held. -/
def Block.powerNote (b : Block) : List Nat :=
  [b.mode.mode.num, (Mode.ofNum (b.get Obj.powerfailTarget)).num] ++ bytesBE 4 (b.get Obj.acceptedHeld)

/-- The end of the path in Hibernate, since `now` and with a notice owed. -/
def Block.hibernatesOwing (c : Block) (now : Nat) (note : List Nat) : Block :=
  { c.hibernateDown with mode := { c.hibernateDown.mode with
    trans := .none, target := .hibernate, hibSince := now, powerFailOwed := some note } }

theorem Block.powerFail_of_mains (hm : b.mode.mode.mains = true) (trigger : Nat) : b.powerFail trigger =
    if Mode.ofNum (b.get Obj.powerfailTarget) = .hibernate then (b.powerLost trigger).hibernatesOwing b.now b.powerNote
    else ((b.powerLost trigger).notice 0x0405 Obj.lostPowerLast noRow b.powerNote).moveTo
      (Mode.ofNum (b.get Obj.powerfailTarget)) 6 := by
  have hmaint : b.mode.mode ≠ .maintenance := fun e => by simp [e, Mode.mains] at hm
  unfold Block.powerFail; extract_lets m n target drain b0 b1 b2 fwd b3 note unit b4 b5 unit'
  have h0 : b0 = b := by
    unfold b0 m
    rw [if_neg hmaint]
  have h4 : b4 = b.powerLost trigger := by
    unfold Block.powerLost b4 unit b3 fwd b2 b1
    rw [h0]
  have hpath : (m.mains || decide (m = .maintenance)) = true := by simp [m, hm]
  clear_value b4
  subst h4
  exact if_pos hpath

/-- Without mains and outside Maintenance there is no path to take. -/
theorem Block.powerFail_of_other (hm : b.mode.mode.mains = false) (hmaint : b.mode.mode ≠ .maintenance) (trigger : Nat) :
    b.powerFail trigger = b := by
  unfold Block.powerFail; extract_lets m n target drain b0 b1 b2 fwd b3 note unit b4 b5
  clear_value b5
  rw [if_neg (by simp [m, hm, hmaint])]

/-- What the power-fail path to Hibernate leaves of a mains device. -/
structure FailsToHibernate (b x : Block) : Prop where
  mode : x.mode.mode = .hibernate ∧ x.mode.target = .hibernate ∧ x.mode.trans = .none ∧ x.mode.entry = none
  since : x.mode.hibSince = b.now
  owed : x.mode.powerFailOwed = some ([b.mode.mode.num, 1] ++ bytesBE 4 (b.get Obj.acceptedHeld))
  mainEn : x.pins.mainEn = false
  pwrOk : x.pins.pwrOk = b.pins.pwrOk
  frames : x.frames = []
  lost : x.get Obj.lostPowerLast = b.get Obj.acceptedHeld

theorem Block.powerFail_hibernate (hm : b.mode.mode.mains = true) (ht : b.get Obj.powerfailTarget = 1) (trigger : Nat) :
    FailsToHibernate b (b.powerFail trigger) := by
  have hmode := b.powerLost_mode trigger
  have hdown : PowersDown (b.powerLost trigger) (b.powerLost trigger).hibernateDown :=
    Block.hibernateDown_powersDown (by rw [hmode]; exact hm)
  have hentry : (b.powerLost trigger).mode.entry = none := by rw [hmode]
  have hlost := hdown.lost.trans (b.powerLost_lost trigger)
  have hpwr := hdown.pwrOk.trans (b.powerLost_pwrOk trigger)
  have hnote : b.powerNote = [b.mode.mode.num, 1] ++ bytesBE 4 (b.get Obj.acceptedHeld) := by
    rw [Block.powerNote, ht]
    rfl
  rw [Block.powerFail_of_mains hm, ht, if_pos (show Mode.ofNum 1 = .hibernate from rfl), hnote]
  exact ⟨⟨hdown.mode, rfl, rfl, hdown.entry.trans hentry⟩, rfl, rfl, hdown.mainEn, hpwr, hdown.frames, hlost⟩

/-- What the power-fail path to Day Watch leaves of a mains device. -/
structure FailsToDayWatch (b x : Block) : Prop where
  mode : x.mode.mode = .dayWatch ∧ x.mode.trans = .none
  pwrOk : x.pins.pwrOk = b.pins.pwrOk
  frames : x.frames = []
  lost : x.get Obj.lostPowerLast = b.get Obj.acceptedHeld

theorem Block.powerFail_dayWatch (hm : b.mode.mode.mains = true) (ht : b.get Obj.powerfailTarget = 2) (trigger : Nat) :
    FailsToDayWatch b (b.powerFail trigger) := by
  have hmode := congrArg ModeUnit.mode (b.powerLost_mode trigger)
  have htold (note : List Nat) : Stands (b.powerLost trigger)
      ((b.powerLost trigger).notice 0x0405 Obj.lostPowerLast noRow note) := .notice _ _ _ _ _
  rw [Block.powerFail_of_mains hm, ht, if_neg (by decide)]
  generalize b.powerNote = note
  have hmains : ((b.powerLost trigger).notice 0x0405 Obj.lostPowerLast noRow note).mode.mode.mains = true := by
    rwa [(htold note).modeOf, hmode]
  obtain ⟨hframes, hpwr, hlost⟩ := Block.moveTo_dayWatch hmains 6
  exact ⟨Block.moveTo_mode _ _ _, hpwr.trans ((htold note).pwrOk.trans (b.powerLost_pwrOk trigger)), hframes,
    hlost.trans ((htold note).lost.trans (b.powerLost_lost trigger))⟩

/-! ### PWR_OK falls (R86, R360) -/

/-- The block once PWR_OK has fallen, before the power-fail path: activity, and ZX_MISSING ended. -/
def Block.pwrFallen (b : Block) : Block := ({ b with pins := { b.pins with pwrOk := false } }.active).setAlarm 5 0 false

theorem Block.pwrOkFall_eq (b : Block) : b.pwrOkFall = b.pwrFallen.powerFail 1 := rfl

theorem Block.pwrFallen_told (b : Block) :
    b.pwrFallen.now = b.now ∧ b.pwrFallen.mode = { b.mode with lastActivity := b.now } ∧
      b.pwrFallen.pins = { b.pins with pwrOk := false } ∧ b.pwrFallen.frames = b.frames := by
  have htold (c : Block) : Tells (alarmKeys 5) c (c.alarmTold 5 0 false 0) := c.alarmTold_tells 0 false 0
  unfold Block.pwrFallen
  generalize hc : ({ b with pins := { b.pins with pwrOk := false } } : Block).active = c
  rcases c.setAlarm_cases 0 false 0 (row := 5) (by decide) with e | e
  · rw [e, ← hc]
    exact ⟨rfl, rfl, rfl, rfl⟩
  · have hmode : (c.alarmTold 5 0 false 0).active.mode = { c.mode with lastActivity := c.now } := by
      rw [← (htold c).mode, ← (htold c).now]
      rfl
    rw [e, hmode]
    refine ⟨(htold c).now.trans ?_, ?_, (htold c).pins.trans ?_, (htold c).frames.trans ?_⟩ <;> rw [← hc] <;> rfl

theorem Block.pwrFallen_get (b : Block) {q : Reg} (h : q.idx * 256 + q.sub ∉ alarmObjects) :
    b.pwrFallen.get q = b.get q := Block.setAlarm_get _ 0 false 0 (by decide) (by decide) h (by decide)

theorem Block.pwrFallen_zx (h : Claims.alarmsRun b 5) : Claims.alarmBit b.pwrFallen 5 0 = false :=
  Block.alarmBit_setAlarm_same _ 0 false 0 (by decide) h

/-! ### PWR_OK rises (R86, R103) -/

theorem Block.pwrOkRise_of_held (h : b.drainHolds = true) : b.pwrOkRise =
    { b with pins := { b.pins with pwrOk := true }, mode := { b.mode with held := setBit b.mode.held 3 } } := if_pos h

/-- In a mode other than Hibernate the rise is the pin's and the way to NIGHT_TARGET. -/
theorem Block.pwrOkRise_of_awake (hd : b.mode.drain = none) (he : b.mode.entry = none) (hm : b.mode.mode ≠ .hibernate) :
    b.pwrOkRise = ({ b with pins := { b.pins with pwrOk := true } } : Block).mainsBack := by
  generalize hc : ({ b with pins := { b.pins with pwrOk := true } } : Block) = c
  have hholds : c.drainHolds = false := Block.drainHolds_of_none (by rw [← hc]; exact hd)
  have hlatch : c.wakeLatch 3 = c :=
    Block.wakeLatch_of_awake (by rw [← hc]; exact he) hholds (by rw [← hc]; exact hm) 3
  unfold Block.pwrOkRise; rw [hc]; dsimp only
  rw [hholds, hlatch]
  rfl

/-- From Day Watch or Field Only the rise goes to a NIGHT_TARGET of Relay. -/
theorem Block.mainsBack_relay (hpwr : b.pins.pwrOk = true) (hm : b.mode.mode = .fieldOnly ∨ b.mode.mode = .dayWatch)
    (ht : b.mode.trans = .none) (hr : b.recovery = false) (hn : b.get Obj.nightTarget = 4) :
    b.mainsBack = b.goTo .relay 2 := by
  have hne : Mode.relay ≠ b.mode.mode := by rcases hm with h | h <;> simp [h]
  have hmodes : (decide (b.mode.mode = .dayWatch) || decide (b.mode.mode = .fieldOnly)) = true := by
    rcases hm with h | h <;> simp [h]
  have htarget : b.serviceTarget (Mode.ofNum (b.get Obj.nightTarget)) = .relay := by
    rw [hn]; exact b.serviceTarget_of_ne (by decide)
  unfold Block.mainsBack; dsimp only
  rw [hpwr, ht, hmodes, hr, htarget, if_neg hne]
  rfl

/-! ### The rails (R520) -/

/-- A brownout of a rail, shown, counted and recorded. -/
def Block.sagged (b : Block) (rail lowest dur : Nat) : Block :=
  let b0 := { b with pins := { b.pins with
    lowRails := if b.pins.lowRails.contains rail then b.pins.lowRails else b.pins.lowRails ++ [rail] } }
  ((b0.add Obj.brownouts).put Obj.lastBrownoutRail rail).post 0x0052
    ([rail, 0] ++ bytesLE 2 (min lowest 65535) ++ bytesLE 4 (min dur 0xFFFFFFFF)) (first := true)

theorem Block.sagged_mode (b : Block) (rail lowest dur : Nat) : (b.sagged rail lowest dur).mode = b.mode := by
  simp [Block.sagged]

theorem Block.sagged_frames (b : Block) (rail lowest dur : Nat) : (b.sagged rail lowest dur).frames = b.frames := by
  simp [Block.sagged]

theorem Block.mem_lowRails_sagged (b : Block) (rail lowest dur : Nat) : rail ∈ (b.sagged rail lowest dur).pins.lowRails := by
  simp only [Block.sagged, Block.post_pins, Block.put_pins, Block.add_pins]
  split
  · next h => exact List.contains_iff_mem.mp h
  · simp

theorem Block.sagged_rail (b : Block) (rail lowest dur : Nat) :
    (b.sagged rail lowest dur).get Obj.lastBrownoutRail = rail := by
  rw [Block.sagged, Block.get_post, Block.get_put_same]

theorem Block.sagged_brownouts (b : Block) (rail lowest dur : Nat) :
    (b.sagged rail lowest dur).get Obj.brownouts = Obj.brownouts.raised (b.get Obj.brownouts + 1) := by
  rw [Block.sagged, Block.get_post, Block.get_put_ne _ _ (by decide), Block.get_add_same]
  rfl

theorem Block.brownout_of_unmonitored {rail : Nat}
    (h : b.mode.mode = .off ∨ 7 ≤ rail ∨ rail ≠ 2 ∧ b.pins.mainEn = false) (lowest dur : Nat) :
    b.brownout rail lowest dur = b := by
  refine if_pos ?_
  simp only [Bool.or_eq_true, Bool.and_eq_true, decide_eq_true_eq, Bool.not_eq_true']
  tauto

theorem Block.brownout_of_monitored {rail : Nat} (hoff : b.mode.mode ≠ .off) (hrail : rail < 7)
    (hon : rail = 2 ∨ b.pins.mainEn = true) (lowest dur : Nat) : b.brownout rail lowest dur =
      if rail ≤ 2 then (b.sagged rail lowest dur).coldReset 8 else b.sagged rail lowest dur := by
  refine if_neg ?_
  simp only [Bool.or_eq_true, Bool.and_eq_true, decide_eq_true_eq, Bool.not_eq_true', not_or, not_and, ne_eq]
  exact ⟨⟨hoff, Nat.not_le.mpr hrail⟩, fun hne hlow => by simp [hlow, hne] at hon⟩

end

/-- Settles O20: the power-fail path to each target, the rise of PWR_OK in each mode, and each rail's brownout. -/
theorem powerFailsAndBrownoutsAreHandled : Obligations.PowerFailsAndBrownoutsAreHandled := by
  intro s t rail lowest dur b note
  have of_eq {c : Instr} (f : Block → Block) (he : exec c s = s.furnace t f) {y : Block} (hy : f b = y) :
      Takes c s fun x => x = y := .of_furnace he hy
  obtain ⟨hnow, hmode, hpins, hframes⟩ := b.pwrFallen_told
  have hheld : b.pwrFallen.get Obj.acceptedHeld = b.get Obj.acceptedHeld := b.pwrFallen_get (by decide)
  have htarget : b.pwrFallen.get Obj.powerfailTarget = b.get Obj.powerfailTarget := b.pwrFallen_get (by decide)
  have hcode : b.pwrFallen.mode.mode = b.mode.mode := by rw [hmode]
  have hlow : b.pwrFallen.pins.pwrOk = false := by rw [hpins]
  refine ⟨?_, ?_, ?_, ?_, ?_, ?_, ?_, ?_, ?_, ?_, ?_, of_eq (·.brownoutEnd rail) rfl rfl⟩
  · intro hm ht
    have hpfw := Block.powerFail_hibernate hm ht 0
    have hfall := Block.powerFail_hibernate (b := b.pwrFallen) (hcode ▸ hm) (htarget.trans ht) 1
    refine ⟨.of_furnace rfl ?_, .of_furnace rfl ?_⟩
    · obtain ⟨⟨h1, h2, h3, h4⟩, hsince, howed, hmain, -, hnone, hlost⟩ := hpfw
      exact ⟨h1, h2, h3, h4, hsince, howed, hmain, hnone, hlost⟩
    · obtain ⟨⟨h1, h2, h3, h4⟩, hsince, howed, hmain, hpwr, hnone, hlost⟩ := hfall
      rw [hcode, hheld] at howed
      exact ⟨h1, h2, h3, h4, hsince.trans hnow, howed, hmain, hpwr.trans hlow, hnone, hlost.trans hheld⟩
  · intro hm ht
    have hpfw := Block.powerFail_dayWatch hm ht 0
    have hfall := Block.powerFail_dayWatch (b := b.pwrFallen) (hcode ▸ hm) (htarget.trans ht) 1
    exact ⟨.of_furnace rfl ⟨hpfw.mode.1, hpfw.mode.2, hpfw.frames, hpfw.lost⟩,
      .of_furnace rfl ⟨hfall.mode.1, hfall.mode.2, hfall.pwrOk.trans hlow, hfall.frames, hfall.lost.trans hheld⟩⟩
  · intro hm hmaint
    have hfall : b.pwrOkFall = b.pwrFallen :=
      b.pwrOkFall_eq.trans (Block.powerFail_of_other (b := b.pwrFallen) (hcode ▸ hm) (hcode ▸ hmaint) 1)
    refine ⟨of_eq (·.powerFail 0) rfl (Block.powerFail_of_other hm hmaint 0), .of_furnace rfl ?_⟩
    rw [hfall]
    exact ⟨hpins, hmode, hframes, Block.pwrFallen_zx⟩
  · exact fun h => of_eq Block.pwrOkRise rfl (Block.pwrOkRise_of_held h)
  · intro hm hd he hw hon
    have hasleep : b.asleep := ⟨he, hd, hm, hw⟩
    have hwoken := Block.wakeLatch_woken (b := { b with pins := { b.pins with pwrOk := true } }) hasleep (bit := 3) hon
    refine .of_furnace rfl ?_
    rw [Block.pwrOkRise_of_hibernate hasleep hon]
    obtain ⟨hmode, htrans, hwaking, htarget⟩ := hwoken.mode
    exact ⟨hwoken.pwrOk, hwoken.mainEn, hmode, htrans, hwaking, htarget, hwoken.cause⟩
  · intro hm hd he ht hr hn
    have hrise : b.pwrOkRise = ({ b with pins := { b.pins with pwrOk := true } } : Block).moveTo .relay 2 := by
      rw [Block.pwrOkRise_of_awake hd he (by simp [hm]),
        Block.mainsBack_relay (b := { b with pins := { b.pins with pwrOk := true } }) rfl (.inl hm) ht hr hn]
      simp [Block.goTo, hm]
    refine .of_furnace rfl ?_
    rw [hrise]
    exact ⟨Block.moveTo_relay_pwrOk (b := { b with pins := { b.pins with pwrOk := true } }) hm 2, Block.moveTo_mode _ _ _⟩
  · intro hm hd he ht hr hn
    have hrise : b.pwrOkRise = ({ b with pins := { b.pins with pwrOk := true } } : Block).startCoreA .relay 2 := by
      rw [Block.pwrOkRise_of_awake hd he (by simp [hm]),
        Block.mainsBack_relay (b := { b with pins := { b.pins with pwrOk := true } }) rfl (.inr hm) ht hr hn]
      simp [Block.goTo, hm]
    refine .of_furnace rfl ?_
    rw [hrise]
    exact ⟨rfl, hm, rfl, rfl, rfl⟩
  · intro hm hd he
    have hne : b.mode.mode ≠ .hibernate ∧ b.mode.mode ≠ .dayWatch ∧ b.mode.mode ≠ .fieldOnly := by
      rcases Mode.mains_iff.mp hm with h | h | h <;> simp [h]
    obtain ⟨hhib, hday, hfield⟩ := hne
    refine of_eq Block.pwrOkRise rfl ((Block.pwrOkRise_of_awake hd he hhib).trans ?_)
    exact Block.mainsBack_of_other (b := { b with pins := { b.pins with pwrOk := true } }) ⟨hday, hfield⟩
  · exact fun h => of_eq (·.brownout rail lowest dur) rfl (Block.brownout_of_unmonitored h lowest dur)
  · intro hoff hon h3 h7
    refine .of_furnace rfl ?_
    rw [Block.brownout_of_monitored hoff h7 (.inr hon), if_neg (by omega)]
    exact ⟨b.sagged_mode _ _ _, b.sagged_frames _ _ _, b.mem_lowRails_sagged _ _ _, b.sagged_rail _ _ _,
      b.sagged_brownouts _ _ _⟩
  · intro hoff hhib h2 hon
    have hcore : (b.sagged rail lowest dur).coreF = true := by
      unfold Block.coreF; rw [Block.sagged_mode]
      cases h : b.mode.mode <;> simp_all
    obtain ⟨hmode, htrans, hacc, hsource⟩ := Block.coldReset_of_coreF hcore 8
    obtain ⟨hrails, hkind, hboot⟩ := Block.coldReset_leaves hcore (source := 8) (by decide)
    refine .of_furnace rfl ?_
    rw [Block.brownout_of_monitored hoff (by omega) hon, if_pos h2]
    exact ⟨hrails ▸ b.mem_lowRails_sagged rail lowest dur, hmode, htrans, hacc, hsource, hkind, hboot⟩

end Sys2Proof.Machine
end

section
/-!
SUPPORT. What abandoned frames leave (R121 to R123): every other frame, and all that neither counts nor notices them; and
the statement about flushes and the notices of abandonment.
-/

namespace Sys2Proof.Machine

/-! ### Frames abandoned: what stays -/

/-- The objects that an abandonment under a code and a trigger writes. -/
def abandonKeys (code trigger : Nat) : List Nat :=
  Obj.acceptedHeld.key 0 :: (abandonReg code).key 0 :: (remeltKeys trigger ++ Tells.noticeKeys)

/-- From one block to another none but the frames `ids` may have gone, and their gathers, misses, periods, notices and
the counts under the keys `ks` may differ; nothing else does. -/
structure Sheds (ks ids : List Nat) (b c : Block) : Prop where
  rest : { c with
    regs := b.regs, frames := b.frames, gth := b.gth, periods := b.periods, outs := b.outs, plais := b.plais
    cullet := b.cullet, fwd := { c.fwd with misses := b.fwd.misses, filled := b.fwd.filled } } = b
  get : ∀ (r : Reg) (k : Nat), r.key k ∉ ks → c.get r k = b.get r k
  old : ∀ g ∈ c.frames, ∃ f ∈ b.frames, Frame.Kept f g
  stays : ∀ f ∈ b.frames, f.id ∉ ids → ∃ g ∈ c.frames, Frame.Kept f g

namespace Sheds

variable {ks ids : List Nat}

/-- Where the frames are the same, the rest and the objects are all there is to say. -/
theorem of_frames {b c : Block} (hframes : c.frames = b.frames)
    (hrest : { c with
      regs := b.regs, frames := b.frames, gth := b.gth, periods := b.periods, outs := b.outs, plais := b.plais
      cullet := b.cullet, fwd := { c.fwd with misses := b.fwd.misses, filled := b.fwd.filled } } = b)
    (hget : ∀ (r : Reg) (k : Nat), r.key k ∉ ks → c.get r k = b.get r k) : Sheds ks ids b c :=
  ⟨hrest, hget, fun g hg => ⟨g, hframes ▸ hg, .refl g⟩, fun f hf _ => ⟨f, hframes ▸ hf, .refl f⟩⟩

theorem refl (b : Block) : Sheds ks ids b b := of_frames rfl rfl fun _ _ _ => rfl

theorem trans {a b c : Block} (h : Sheds ks ids a b) (k : Sheds ks ids b c) : Sheds ks ids a c := by
  refine ⟨?_, fun r q n => (k.get r q n).trans (h.get r q n), fun g hg => ?_, fun f hf hid => ?_⟩
  · have e := h.rest
    rw [← k.rest] at e
    exact e
  · obtain ⟨x, hx, hkx⟩ := k.old g hg
    obtain ⟨f, hf, hkf⟩ := h.old x hx
    exact ⟨f, hf, hkf.trans hkx⟩
  · obtain ⟨x, hx, hkx⟩ := h.stays f hf hid
    obtain ⟨g, hg, hkg⟩ := k.stays x hx (hkx.id ▸ hid)
    exact ⟨g, hg, hkx.trans hkg⟩

theorem foldl {α : Type} {f : Block → α → Block} {l : List α} (h : ∀ b, ∀ x ∈ l, Sheds ks ids b (f b x)) (b : Block) :
    Sheds ks ids b (l.foldl f b) :=
  List.foldlRecOn (motive := Sheds ks ids b) l f (refl b) fun _ hc x hx => hc.trans (h _ x hx)

theorem put (b : Block) {q : Reg} {row : Nat} (v : Nat) (h : q.key row ∈ ks) : Sheds ks ids b (b.put q v row) :=
  of_frames rfl rfl fun _ _ hn => b.get_put_ne v fun e => hn (by rw [e]; exact h)

theorem of_tells {b c : Block} (h : Tells Tells.noticeKeys b c) (hk : Tells.noticeKeys ⊆ ks) : Sheds ks ids b c := by
  refine of_frames h.frames ?_ fun r k hn => h.get r k fun hm => hn (hk hm)
  have e := h.rest
  rw [← e]

theorem of_remelts {js : List Nat} {b c : Block} (h : Remelts js b c) (hk : js ⊆ ks) : Sheds ks ids b c := by
  refine ⟨?_, fun r k hn => h.get r k fun hm => hn (hk hm), h.frames.old, fun f hf _ => h.frames.stays f hf⟩
  have e := h.rest
  rw [← e]

theorem dropFrame (b : Block) {fid : Nat} (hk : Obj.acceptedHeld.key 0 ∈ ks) (hid : fid ∈ ids) :
    Sheds ks ids b (b.dropFrame fid) := by
  unfold Block.dropFrame; extract_lets fwd b1
  have hout : Sheds ks ids b b1 :=
    ⟨rfl, fun _ _ _ => rfl, fun g hg => ⟨g, List.mem_of_mem_filter hg, .refl g⟩,
      fun f hf hn => ⟨f, List.mem_filter.mpr ⟨hf, by simpa using ne_of_mem_of_not_mem hid hn |>.symm⟩, .refl f⟩⟩
  have hmpdus (c : Block) : Sheds ks ids c (c.resolveMpdus fid) := of_frames rfl rfl fun _ _ _ => rfl
  exact hout.trans ((put b1 _ hk).trans (hmpdus _))

theorem coverAbandon (b : Block) (d code : Nat) (l : List Frame) (hk : Tells.noticeKeys ⊆ ks) :
    Sheds ks ids b (b.coverAbandon d code l) := by
  unfold Block.coverAbandon; split
  · exact of_frames rfl rfl fun _ _ _ => rfl
  · extract_lets b1
    have h1 : Sheds ks ids b b1 := of_tells (.notice b _ _ _ _) hk
    exact h1.trans (of_frames rfl rfl fun _ _ _ => rfl)

theorem abandon (b : Block) (code trigger : Nat) (fids : List Nat) :
    Sheds (abandonKeys code trigger) fids b (b.abandon code trigger fids) := by
  have hnotice : Tells.noticeKeys ⊆ abandonKeys code trigger := by intro x hx; simp [abandonKeys, hx]
  have hremelt : remeltKeys trigger ⊆ abandonKeys code trigger := by intro x hx; simp [abandonKeys, hx]
  unfold Block.abandon; extract_lets fs ids dests b1 b2
  have hids : ∀ i ∈ ids, i ∈ fids := fun i hi => by
    obtain ⟨f, hf, rfl⟩ := List.mem_map.mp hi
    simpa using List.of_mem_filter hf
  have h1 : Sheds (abandonKeys code trigger) fids b b1 :=
    (of_remelts (.remelt b trigger _) hremelt).trans (foldl (fun c i hi => dropFrame c (by simp [abandonKeys]) (hids i hi)) _)
  have h2 : Sheds (abandonKeys code trigger) fids b1 b2 := put b1 _ (by simp [abandonKeys])
  exact (h1.trans h2).trans (foldl (fun c d _ => coverAbandon c d code _ hnotice) b2)

/-! What the rest says of each part. -/

section
variable {b c : Block} (h : Sheds ks ids b c)
include h

theorem now : c.now = b.now := by rw [← h.rest]
theorem mode : c.mode = b.mode := by rw [← h.rest]
theorem mac : c.mac = b.mac := by rw [← h.rest]
theorem links : c.links = b.links := by rw [← h.rest]
theorem radios : c.radios = b.radios := by rw [← h.rest]
theorem time : c.time = b.time := by rw [← h.rest]
theorem nextFrame : c.nextFrame = b.nextFrame := by rw [← h.rest]

end

end Sheds

/-- The frames abandoned are gone, and each that stays is one that was held. -/
theorem Block.mem_abandoned {b : Block} {code trigger : Nat} {fids : List Nat} {g : Frame}
    (hg : g ∈ (b.abandon code trigger fids).frames) : g.id ∉ fids ∧ ∃ f ∈ b.frames, Frame.Kept f g := by
  obtain ⟨f, hf, hkept⟩ := (Sheds.abandon b code trigger fids).old g hg
  refine ⟨fun hmem => ?_, f, hf, hkept⟩
  unfold Block.abandon at hg; extract_lets fs ids dests b1 b2 at hg
  have hcover : Sheds Tells.noticeKeys [] b2
      (dests.foldl (fun c d => c.coverAbandon d code (fs.filter fun f => destOf f.queue == d)) b2) :=
    .foldl (fun c d _ => .coverAbandon c d code _ fun _ hx => hx) b2
  obtain ⟨x, hx, hkx⟩ := hcover.old g hg
  have hgone : x.id ∉ ids := Block.mem_dropAll ids _ hx
  have hfs : f ∈ fs := List.mem_filter.mpr ⟨hf, by simpa [← hkept.id] using hmem⟩
  exact hgone (List.mem_map.mpr ⟨f, hfs, hkept.id.symm.trans hkx.id⟩)

/-! ### Scopes (R123) -/

theorem Frame.Kept.inScope {f g : Frame} (h : Frame.Kept f g) (scope target : Nat) :
    g.inScope scope target = f.inScope scope target := by
  unfold Frame.inScope; rw [h.queue]

theorem Block.mem_idsWhere {b : Block} {t : Frame → Bool} {i : Nat} :
    i ∈ b.idsWhere t ↔ ∃ f ∈ b.frames, t f = true ∧ f.id = i := by
  simp [Block.idsWhere, and_assoc]

/-- Once what is in a scope is abandoned, nothing in it is held, and every other frame is, with its packet and queue. -/
theorem Block.abandon_departs (b : Block) (code trigger scope target : Nat) :
    let x := b.abandon code trigger (b.idsWhere fun f => f.inScope scope target)
    (∀ f ∈ x.frames, f.inScope scope target = false) ∧
      ∀ f ∈ b.frames, (∀ g ∈ b.frames, g.inScope scope target → g.id ≠ f.id) → ∃ g ∈ x.frames, Frame.Kept f g := by
  intro x
  refine ⟨fun g hg => ?_, fun f hf hout => ?_⟩
  · obtain ⟨hgone, f, hf, hkept⟩ := Block.mem_abandoned hg
    by_contra hin
    rw [hkept.inScope, Bool.not_eq_false] at hin
    exact hgone (Block.mem_idsWhere.mpr ⟨f, hf, hin, hkept.id.symm⟩)
  · refine (Sheds.abandon b code trigger _).stays f hf fun hmem => ?_
    obtain ⟨g, hg, hin, hid⟩ := Block.mem_idsWhere.mp hmem
    exact hout g hg hin hid

/-! ### The commands -/

/-- A command that writes one object of the dictionary takes what R44 and R57 say of a write, where what its act does to
that object is a change of the block alone. -/
theorem Writes.of_object {c : Instr} {s : State} {t : Nat} {p : Port} (q : Reg) {row len v : Nat}
    {f : Block → Reg → Nat → Nat × Block} {act : Act}
    (he : exec c s = s.atAll t fun x => x.portWrite p q.idx q.sub row len v act) (hbegin : ¬ (q.idx = 0x2C00 ∧ q.sub = 6))
    (ha : act ≠ .window) (hreg : ∀ b : Block, b.find q.idx q.sub = .ok q)
    (hact : ∀ (x : State) (k : Nat), x.actWrite p v act q k = x.lift (f x.blk q k)) :
    Writes c s t p q.idx q.sub row len v f act := by
  refine .of_portWrite he hbegin ha fun x r k h => ?_
  obtain ⟨hfind, -⟩ := Block.checkWrite_ok h
  obtain rfl : q = r := Except.ok.inj ((hreg _).symm.trans hfind)
  exact hact x k

theorem writes_flush {c : Instr} {s : State} {t : Nat} {p : Port} {scope : Nat} (h1 : 1 ≤ scope) (h5 : scope ≤ 5)
    (he : exec c s = s.atAll t fun x => x.flushVia p scope) :
    Writes c s t p 0x1520 1 noRow 1 scope fun w _ _ => (0, w.flush scope (w.get Obj.flushTarget)) := by
  have hwrite (w : Block) : w.writeFlush scope = (0, w.flush scope (w.get Obj.flushTarget)) := by
    simp [Block.writeFlush, Nat.not_lt.mpr h5, Nat.ne_of_gt h1]
  refine .of_object Obj.flushAction he (by decide) (by simp) (fun _ => rfl) fun x k => ?_
  rw [← hwrite]
  rfl

section
variable {b : Block} {d code : Nat}

theorem Block.periodEnd_of_none (h : b.periods.find? (fun q => q.dest == d && q.code == code) = none) :
    b.periodEnd d code = b := by
  simp [Block.periodEnd, h]

variable {q : Period} (h : b.periods.find? (fun q => q.dest == d && q.code == code) = some q)
include h

theorem Block.periodEnd_of_early (hearly : b.now < q.start + ms (b.get Obj.abandonNoticePeriod)) : b.periodEnd d code = b := by
  simp [Block.periodEnd, h, hearly]

theorem Block.periodEnd_of_empty (hdue : q.start + ms (b.get Obj.abandonNoticePeriod) ≤ b.now) (hnone : q.frames = 0) :
    b.periodEnd d code = { b with periods := b.periods.filter fun q => !(q.dest == d && q.code == code) } := by
  simp [Block.periodEnd, h, Nat.not_lt.mpr hdue, hnone]

theorem Block.periodEnd_of_frames (hdue : q.start + ms (b.get Obj.abandonNoticePeriod) ≤ b.now) (hsome : q.frames ≠ 0) :
    (b.periodEnd d code).periods = (b.periods.filter fun q => !(q.dest == d && q.code == code)) ++
        [{ q with start := b.now, frames := 0, entries := [] }] ∧
      (b.periodEnd d code).frames = b.frames := by
  have heq : b.periodEnd d code = ({ b with periods := (b.periods.filter fun q => !(q.dest == d && q.code == code)) ++
      [{ q with start := b.now, frames := 0, entries := [] }] } : Block).abandonNotice d code q.frames := by
    simp [Block.periodEnd, h, Nat.not_lt.mpr hdue, hsome]
  rw [heq]
  exact ⟨by simp [Block.abandonNotice], by simp [Block.abandonNotice]⟩

end

theorem Block.hourlySummary_of_not {b : Block} (h : b.mode.mode = .off ∨ b.now < b.mode.hourAt + secs 3600) :
    b.hourlySummary = b := by
  simp [Block.hourlySummary, h]

theorem Block.hourlySummary_of_due {b : Block} (hm : b.mode.mode ≠ .off) (hdue : b.mode.hourAt + secs 3600 ≤ b.now) :
    b.hourlySummary = ({ b with mode := { b.mode with hourAt := b.now } } : Block).abandonSummary 0 := by
  simp [Block.hourlySummary, hm, Nat.not_lt.mpr hdue]

/-- Settles O40: each flush as one write that abandons what its scope selects, the end of a period by its three cases,
the summary by the record of the counters as they are. -/
theorem flushesLeaveNothingInTheirScope : Obligations.FlushesLeaveNothingInTheirScope := by
  unfold Obligations.FlushesLeaveNothingInTheirScope
  have flush {c : Instr} {s : State} {t : Nat} {p : Port} {scope : Nat} (h : 1 ≤ scope ∧ scope ≤ 5)
      (he : exec c s = s.atAll t fun x => x.flushVia p scope) := writes_flush h.1 h.2 he
  refine ⟨fun s t p => ⟨flush (by decide) rfl, flush (by decide) rfl, flush (by decide) rfl, flush (by decide) rfl,
      flush (by decide) rfl⟩,
    fun w scope target => ⟨(Sheds.abandon w 3 7 _).mode, ?_⟩, fun s t dest code hf => ?_, fun s t => ?_⟩
  · obtain ⟨hgone, hstay⟩ := Block.abandon_departs w 3 7 scope target
    refine ⟨hgone, fun f hf hout => ?_⟩
    obtain ⟨g, hg, hkept⟩ := hstay f hf hout
    exact ⟨g, hg, hkept.id, hkept.pkt, hkept.queue⟩
  · refine ⟨fun h => .of_at rfl hf (Block.periodEnd_of_none h), fun q h => ⟨fun hearly => .of_at rfl hf ?_,
      fun hdue hnone => .of_at rfl hf ?_, fun hdue hsome => .of_at rfl hf ?_⟩⟩
    · exact Block.periodEnd_of_early h hearly
    · exact Block.periodEnd_of_empty h hdue hnone
    · exact Block.periodEnd_of_frames h hdue hsome
  · exact ⟨fun h => .of_furnace rfl (Block.hourlySummary_of_not h),
      fun hm hdue => .of_furnace rfl (Block.hourlySummary_of_due hm hdue)⟩

end Sys2Proof.Machine
end

section
/-!
SUPPORT. Resets (R130, R499 to R502): that no unit's part in a reset moves RESET_N or, once they are shown, the source and
the kind of the reset; and the statement about the resets.
-/

namespace Sys2Proof.Machine

/-! ### What a reset bears through its units -/

/-- The index and subindex of RESET_KIND, which follows RESET_SOURCE, in one number. -/
def resetCode : Nat := Obj.resetKind.idx * 256 + Obj.resetKind.sub

/-- The level of RESET_N, and once a reset is shown its source and its kind. -/
def Block.marks (b : Block) (shown : Bool) : Bool × Nat × Nat :=
  (b.pins.resetLow, if shown then b.get Obj.resetSource else 0, if shown then b.get Obj.resetKind else 0)

/-- From one block to another the marks of a reset are the same. -/
def Bears (s : Bool) (b c : Block) : Prop := c.marks s = b.marks s

namespace Bears

variable {s : Bool}

theorem refl (b : Block) : Bears s b b := rfl

theorem trans {a b c : Block} (h : Bears s a b) (k : Bears s b c) : Bears s a c := Eq.trans k h

theorem after {a b c : Block} (k : Bears s b c) (h : Bears s a b) : Bears s a c := h.trans k

theorem foldl {α : Type} {f : Block → α → Block} (h : ∀ b x, Bears s b (f b x)) (l : List α) (b : Block) :
    Bears s b (l.foldl f b) := Block.foldl_same (g := fun b => b.marks s) h l b

theorem ite {p : Prop} [Decidable p] {b c d : Block} (hc : Bears s b c) (hd : Bears s b d) :
    Bears s b (if p then c else d) := by
  split
  · exact hc
  · exact hd

theorem of_get {b c : Block} (hlow : c.pins.resetLow = b.pins.resetLow)
    (hsource : c.get Obj.resetSource = b.get Obj.resetSource) (hkind : c.get Obj.resetKind = b.get Obj.resetKind) :
    Bears s b c := by
  unfold Bears Block.marks; rw [hlow, hsource, hkind]

/-- Before the reset is shown only RESET_N counts. -/
theorem of_low {b c : Block} (h : c.pins.resetLow = b.pins.resetLow) : Bears false b c := by
  unfold Bears Block.marks; rw [h]; rfl

theorem low {b c : Block} (h : Bears s b c) : c.pins.resetLow = b.pins.resetLow := congrArg Prod.fst h

theorem source {b c : Block} (h : Bears true b c) : c.get Obj.resetSource = b.get Obj.resetSource :=
  congrArg (fun m => m.2.1) h

theorem kind {b c : Block} (h : Bears true b c) : c.get Obj.resetKind = b.get Obj.resetKind :=
  congrArg (fun m => m.2.2) h

theorem put (b : Block) {q : Reg} {row : Nat} (v : Nat) (hs : Obj.resetSource.key 0 ≠ q.key row)
    (hk : Obj.resetKind.key 0 ≠ q.key row) : Bears s b (b.put q v row) :=
  of_get rfl (b.get_put_ne v hs) (b.get_put_ne v hk)

theorem put_above (b : Block) {q : Reg} (v : Nat) (row : Nat) (h : resetCode < q.idx * 256 + q.sub) :
    Bears s b (b.put q v row) := by
  have hkey : resetCode * 1048576 < q.key row :=
    Nat.lt_of_lt_of_le (Nat.mul_lt_mul_of_pos_right h (by decide)) (Nat.le_add_right _ row)
  exact put b v (Nat.ne_of_lt (Nat.lt_trans (by decide) hkey)) (Nat.ne_of_lt hkey)

theorem add_above (b : Block) {q : Reg} (n : Nat) (row : Nat) (h : resetCode < q.idx * 256 + q.sub) :
    Bears s b (b.add q n row) := put_above b _ row h

theorem put_of (b : Block) {q : Reg} (r : Radio) (v : Nat) (row : Nat) (h : resetCode < q.idx * 256 + q.sub) :
    Bears s b (b.put (q.of r) v row) :=
  put_above b v row (h.trans_le (Nat.add_le_add_right (Nat.mul_le_mul_right _ (Nat.le_add_right _ _)) _))

theorem add_of (b : Block) {q : Reg} (r : Radio) (n : Nat) (row : Nat) (h : resetCode < q.idx * 256 + q.sub) :
    Bears s b (b.add (q.of r) n row) := put_of b r _ row h

theorem add_eng (b : Block) {q : Reg} (n k row : Nat) (h : resetCode < q.idx * 256 + q.sub) :
    Bears s b (b.add (q.eng n) k row) :=
  add_above b k row (h.trans_le (Nat.add_le_add_right (Nat.mul_le_mul_right _ (Nat.le_add_right _ _)) _))

theorem of_tells {ks : List Nat} {b c : Block} (h : Tells ks b c) (hs : Obj.resetSource.key 0 ∉ ks)
    (hk : Obj.resetKind.key 0 ∉ ks) : Bears s b c :=
  of_get (by rw [h.pins]) (h.get _ _ hs) (h.get _ _ hk)

theorem notice (b : Block) (code : Nat) (r : Reg) (row : Nat) (payload : List Nat) :
    Bears s b (b.notice code r row payload) := of_tells (.notice b code r row payload) (by decide) (by decide)

theorem post (b : Block) (type : Nat) (payload : List Nat) (first : Bool) (flags : Nat) :
    Bears s b (b.post type payload first flags) := of_tells (.post [] b type payload first flags) (by simp) (by simp)

theorem of_remelts {ks : List Nat} {b c : Block} (h : Remelts ks b c) (hs : Obj.resetSource.key 0 ∉ ks)
    (hk : Obj.resetKind.key 0 ∉ ks) : Bears s b c := by
  have hp : c.pins = b.pins := by have e := congrArg Block.pins h.rest; exact e
  exact of_get (by rw [hp]) (h.get _ _ hs) (h.get _ _ hk)

theorem remelt (b : Block) (code : Nat) (sel : Gather → Bool) : Bears s b (b.remelt code sel) := by
  have hs : Obj.resetSource.key 0 ≠ (remeltReg code).key 0 := by unfold remeltReg; split <;> decide
  have hk : Obj.resetKind.key 0 ≠ (remeltReg code).key 0 := by unfold remeltReg; split <;> decide
  refine of_remelts (.remelt b code sel) ?_ ?_ <;>
    simp only [remeltKeys, List.mem_cons, List.not_mem_nil, or_false, not_or]
  · exact ⟨hs, by decide, by decide, by decide⟩
  · exact ⟨hk, by decide, by decide, by decide⟩

theorem active (b : Block) : Bears s b b.active := rfl

/-! ### Engines and events -/

theorem tryWake (b : Block) (n : Nat) : Bears s b (b.tryWake n) := by
  unfold Block.tryWake; split
  · next c _ =>
    have hcpu : Bears s b (b.modCpu n fun _ => c) := rfl
    exact hcpu.trans (add_eng _ n 1 0 (by decide))
  · exact refl b

theorem event (b : Block) (n bit : Nat) : Bears s b (b.event n bit) := by
  unfold Block.event; extract_lets c m f c1; split
  · have hcpu : Bears s b (b.modCpu n fun _ => c1) := rfl
    exact hcpu.trans (tryWake _ n)
  · exact refl b

theorem tbSwitch (b : Block) : Bears s b b.tbSwitch := by
  refine foldl (fun c n => ?_) _ b
  exact (event _ n 16).after rfl

/-! ### Alarms and the field outputs -/

theorem setAlarm (b : Block) {row : Nat} (bit : Nat) (on : Bool) (value : Int) (h2 : row ≠ 2) (hrow : row < 13) :
    Bears s b (b.setAlarm row bit on value) := by
  have htold : Bears s b (b.alarmTold row bit on value) :=
    of_tells (b.alarmTold_tells bit on value) (key_notMem_alarmKeys (by decide) (by decide) (by omega))
      (key_notMem_alarmKeys (by decide) (by decide) (by omega))
  rcases b.setAlarm_cases bit on value h2 with e | e <;> rw [e]
  · exact refl b
  · exact htold.trans (active _)

theorem relayWear (b : Block) (r : Nat) : Bears s b (b.relayWear r) := setAlarm b r _ 0 (by decide) (by decide)

theorem relayPin (b : Block) (r : Nat) (on : Bool) : Bears s b (b.relayPin r on) := by
  unfold Block.relayPin; split
  · exact refl b
  · extract_lets b1 b2
    have h1 : Bears s b b1 := (put_above b _ r (by decide)).trans (add_above _ 1 r (by decide))
    have h2 : Bears s b1 (b2.emit (.pin (16 + r) on)) := rfl
    exact (h1.trans h2).trans (relayWear _ r)

theorem fieldRelease (b : Block) : Bears s b b.fieldRelease := by
  unfold Block.fieldRelease; extract_lets b1
  have h1 : Bears s b b1 := rfl
  exact (h1.trans ((relayPin _ 0 false).trans (relayPin _ 1 false))).trans rfl

theorem alarmEvaluate (b : Block) (row : Nat) : Bears s b (b.alarmEvaluate row) := by
  unfold Block.alarmEvaluate
  split
  · exact (relayWear b 0).trans (relayWear _ 1)
  · exact ite (setAlarm b 0 true 0 (by decide) (by decide)) (refl b)
  · exact setAlarm b 0 _ 0 (by decide) (by decide)
  · exact ite (foldl (fun c d => setAlarm c d _ 0 (by decide) (by decide)) _ b) (refl b)
  · exact foldl (fun c k => setAlarm c k _ _ (by decide) (by decide)) _ b
  · exact foldl (fun c k => setAlarm c k _ _ (by decide) (by decide)) _ b
  · exact setAlarm b 0 _ 0 (by decide) (by decide)
  · exact refl b

/-! ### The lines and the commands of a radio -/

theorem dutyCorrect (b : Block) (c : Charge) (used : Nat) : Bears s b (b.dutyCorrect c used) := by
  unfold Block.dutyCorrect
  refine ite (foldl (fun d i => ?_) _ b) (foldl (fun d i => ?_) _ b) <;> exact rfl

theorem coexOut (b : Block) (r : Radio) (on : Bool) : Bears s b (b.coexOut r on) := ite (refl b) rfl

theorem blankTail (b : Block) (source : Nat) : Bears s b (b.blankTail source) := ite rfl (refl b)

theorem femDrive (b : Block) (r : Radio) (at_ : Nat) : Bears s b (b.femDrive r at_) := ite (refl b) rfl

theorem splitFollow (b : Block) : Bears s b b.splitFollow := ite (refl b) rfl

theorem rampEnd (b : Block) (r : Radio) : Bears s b (b.rampEnd r) := by
  unfold Block.rampEnd; split
  · exact refl b
  · next a _ =>
    extract_lets b1
    have h1 : Bears s b b1 := rfl
    have hfreeze (c : Block) : Bears s c (c.freeze r b.now) := rfl
    exact ((((h1.trans (coexOut _ r false)).trans (blankTail _ _)).trans (femDrive _ r _)).trans (hfreeze _)).trans
      (splitFollow _)

theorem contend (b : Block) (r : Radio) (ac : Nat) : Bears s b (b.contend r ac) := ite (refl b) rfl

theorem takeCmd (b : Block) (r : Radio) (c : TxCmd) (ac : Nat) : Bears s b (b.takeCmd r c ac) := by
  unfold Block.takeCmd; extract_lets b1
  have h1 : Bears s b b1 := rfl
  exact ite h1 (ite (h1.trans rfl) (ite h1 (h1.trans (contend b1 r ac))))

theorem endCmd (b : Block) (r : Radio) : Bears s b (b.endCmd r) := by
  unfold Block.endCmd; extract_lets b0 b1
  have h0 : Bears s b b0 := rfl
  have h1 : Bears s b0 b1 := ite (ite (refl b0) rfl) (refl b0)
  split
  · exact h0.trans h1
  · next l _ =>
    have hown : Bears s b1 (b1.modRadio r fun u => { u with own := l }) := rfl
    exact (h0.trans h1).trans (hown.trans (takeCmd _ r _ 3))

theorem missedTrigger (b : Block) (gid : Nat) : Bears s b (b.missedTrigger gid) := by
  unfold Block.missedTrigger; split
  · exact refl b
  · exact (remelt _ _ _).after rfl

theorem uncommit (b : Block) (r : Radio) : Bears s b (b.uncommit r) := by
  unfold Block.uncommit; split
  · exact refl b
  · extract_lets b1
    have h1 : Bears s b b1 := (dutyCorrect b _ 0).trans (rampEnd _ r)
    split
    · exact (missedTrigger _ _).after (h1.trans rfl)
    · exact h1

theorem edgeResult (b : Block) (r : Radio) (e : Nat) (l : List Nat) : Bears s b (b.edgeResult r e l) :=
  (event _ _ _).after rfl

theorem txStatus (b : Block) (r : Radio) (code : Nat) : Bears s b (b.txStatus r code) := by
  have habove : resetCode < (txStatusReg code).idx * 256 + (txStatusReg code).sub := by
    unfold txStatusReg; split <;> decide
  have h1 : Bears s b (b.edgeResult r 1 [code]) := edgeResult b r 1 _
  exact ite h1 (h1.trans (add_of _ r 1 0 habove))

theorem retryUnchanged (b : Block) (r : Radio) (c : TxCmd) : Bears s b (b.retryUnchanged r c) := by
  unfold Block.retryUnchanged; split <;> exact rfl

/-! ### What a radio puts on air -/

theorem pushStamp (b : Block) (q ident time : Nat) : Bears s b (b.pushStamp q ident time) := by
  refine ite rfl (Bears.trans ?_ (notice _ _ _ _ _))
  exact (put_above b 1 q (by decide)).trans (add_above _ 1 q (by decide))

theorem lowNumber (b : Block) (f : Frame) : Bears s b (b.lowNumber f) := by
  unfold Block.lowNumber; split
  · exact ite (refl b) ((put_above _ _ _ (by decide)).after rfl)
  · exact refl b

theorem dataOnAir (b : Block) (r : Radio) (f : Frame) : Bears s b (b.dataOnAir r f) := by
  unfold Block.dataOnAir; split <;> exact rfl

theorem frameOnAir (b : Block) (r : Radio) (fid : Nat) : Bears s b (b.frameOnAir r fid) := by
  unfold Block.frameOnAir; split
  · exact refl b
  · next f _ =>
    extract_lets b0 b1
    have h0 : Bears s b b0 := (ite (lowNumber b f) (refl b)).trans (dataOnAir _ r f)
    have h1 : Bears s b b1 := h0.trans rfl
    exact ite h1 (h1.trans (Block.txStamp_induct (refl b1) (fun _ _ => pushStamp b1 _ _ _) _ _ _))

theorem gatherOnAir (b : Block) (r : Radio) (gid : Nat) : Bears s b (b.gatherOnAir r gid) := by
  unfold Block.gatherOnAir; split
  · exact refl b
  · extract_lets b1 b2
    have h1 : Bears s b b1 := (add_above _ 1 0 (by decide)).after rfl
    have h2 : Bears s b1 b2 := foldl (fun c i => frameOnAir c r i) _ b1
    exact (h1.trans h2).trans (remelt _ _ _)

theorem lowTakes (b : Block) (k : Nat) (r : Radio) : Bears s b (b.lowTakes k r) :=
  ite (put_above b _ _ (by decide)) (refl b)

theorem mgmtOnAir (b : Block) (k : Nat) (r : Radio) (cseq : Nat) (ackReq : Bool) :
    Bears s b (b.mgmtOnAir k r cseq ackReq) := by
  unfold Block.mgmtOnAir; split
  · exact refl b
  · extract_lets b1
    have h1 : Bears s b b1 := ite (refl b) (lowTakes b k r)
    exact h1.trans rfl

theorem ctlOnAir (b : Block) (k type : Nat) (r : Radio) : Bears s b (b.ctlOnAir k type r) := by
  unfold Block.ctlOnAir; extract_lets b1
  have h1 : Bears s b b1 := ite (refl b) ((lowTakes b k r).trans rfl)
  split
  · exact h1.trans rfl
  · refine h1.trans ?_
    unfold Block.nackOnAir; extract_lets l; split
    · exact refl b1
    · have hair (o : List Octet) : Bears s b1 (b1.caneAir k r 2 7 o) := rfl
      exact ((hair _).trans (add_above _ 1 k (by decide))).trans rfl
  · exact h1.trans rfl
  · exact h1.trans rfl
  · exact h1

theorem carriedOnAir (b : Block) (r : Radio) (c : TxCmd) : Bears s b (b.carriedOnAir r c) := by
  unfold Block.carriedOnAir; split
  · exact gatherOnAir b r _
  · exact frameOnAir b r _
  · exact mgmtOnAir b _ r _ _
  · exact ctlOnAir b _ _ r
  · exact refl b

theorem cutPpdu (b : Block) (r : Radio) (status : Nat) : Bears s b (b.cutPpdu r status) := by
  unfold Block.cutPpdu; split
  · exact refl b
  · next a _ =>
    extract_lets used b1 b2
    have h1 : Bears s b b1 := ite (refl b) (carriedOnAir b r _)
    have h2 : Bears s b1 b2 := ((dutyCorrect b1 _ _).trans (rampEnd _ r)).trans rfl
    have hend : Bears s b2 (((b2.txStatus r status).retryUnchanged r a.cmd).endCmd r) :=
      ((txStatus b2 r status).trans (retryUnchanged _ r _)).trans (endCmd _ r)
    exact (h1.trans h2).trans (ite (refl b2) hend)

/-! ### A radio's domain -/

theorem stopPpdu (b : Block) (r : Radio) : Bears s b (b.stopPpdu r) := by
  unfold Block.stopPpdu; extract_lets b0 u b1
  have h0 : Bears s b b0 := rfl
  have h1 : Bears s b0 b1 := ite (cutPpdu b0 r 4) (uncommit b0 r)
  have hidle (c : Block) : Bears s c (c.modRadio r fun x => { x with cmd := none, phase := .idle, own := [] }) :=
    rfl
  refine (h0.trans h1).trans (ite (Bears.trans ?_ (hidle _)) (hidle b1))
  split
  · exact retryUnchanged b1 r _
  · exact refl b1

theorem radioDown (b : Block) (r : Radio) : Bears s b (b.radioDown r) := by
  unfold Block.radioDown; extract_lets b2 b3 b4 region b5
  have h2 : Bears s b b2 := (stopPpdu b r).trans rfl
  have hloads (c : Block) : Bears s c c.loadsSettle := rfl
  have h3 : Bears s b2 b3 := ((put_of b2 r 0 0 (by decide)).trans (put_of _ r 0 0 (by decide))).trans (hloads _)
  have h4 : Bears s b3 b4 := rfl
  clear_value b4
  have h5 : Bears s b4 b5 := by
    unfold b5; split
    · exact rfl
    · exact put_above b4 0 0 (by decide)
    · exact rfl
  exact (h2.trans (h3.trans (h4.trans h5))).trans (femDrive b5 r _)

theorem updateLink (b : Block) (k : Nat) : Bears s b (b.updateLink k) := by
  unfold Block.updateLink; extract_lets old ups new b1
  have h1 : Bears s b b1 := put_above b new k (by decide)
  exact ite (h1.trans (notice _ _ _ _ _)) (ite (h1.trans (notice _ _ _ _ _)) h1)

theorem setStrand (b : Block) (k : Nat) (r : Radio) (v : Nat) : Bears s b (b.setStrand k r v) :=
  put_above b _ k (by decide)

theorem strandsDown (b : Block) (r : Radio) : Bears s b (b.strandsDown r) := by
  refine foldl (fun c k => ?_) _ b
  exact ite (refl c) (((remelt c 6 _).trans (setStrand _ k r 1)).trans (updateLink _ k))

theorem radioOff (b : Block) (r : Radio) : Bears false b (b.radioOff r) :=
  ite (refl b) (((strandsDown b r).trans (radioDown _ r)).trans rfl)

theorem calDue (b : Block) (r : Radio) (kind : Nat) : Bears s b (b.calDue r kind) := ite rfl (refl b)

theorem settleOn (b : Block) (r : Radio) (freq bw : Nat) : Bears s b (b.settleOn r freq bw) := by
  unfold Block.settleOn; extract_lets u cross b1 b2 b3
  have h1 : Bears s b b1 := (put_of _ r 1 0 (by decide)).after rfl
  have h2 : Bears s b1 b2 := ((put_of b1 r _ 0 (by decide)).trans (calDue _ r 4)).trans (calDue _ r 0)
  have h3 : Bears s b2 b3 := (ite (calDue b2 r 1) (refl b2)).trans (femDrive _ r _)
  refine (h1.trans (h2.trans h3)).trans ?_
  split
  · exact rfl
  · exact (put_above b3 _ 0 (by decide)).trans (splitFollow _)
  · exact refl b3

theorem radioUp (b : Block) (r : Radio) : Bears s b (b.radioUp r) := by
  unfold Block.radioUp; extract_lets b1 b2
  have h1 : Bears s b b1 := rfl
  have h2 : Bears s b1 b2 := foldl (fun c k => calDue c r k) _ b1
  exact (h1.trans h2).trans ((settleOn b2 r _ _).trans (remelt _ 7 _))

/-! ### The other domains -/

theorem detectorsGap (b : Block) : Bears s b b.detectorsGap := by
  unfold Block.detectorsGap; extract_lets st b1
  have hlane (c : Block) (l : Nat) (f : Lane → Lane) : Bears s c (c.modLane l f) := rfl
  have hcars (c : Block) (l : Nat) : Bears s c (c.carsLost l) := foldl (fun d v => hlane d l _) _ c
  have h1 : Bears s b b1 := foldl (fun c l => (hcars c l).trans (hlane _ l _)) _ b
  clear_value b1
  exact h1.trans rfl

theorem coreAOff (b : Block) : Bears false b b.coreAOff := by
  unfold Block.coreAOff; extract_lets b1 links held p m b2
  have htime : Bears false b b.timeDown := of_low rfl
  have hengines (c : Block) : Bears false c ((c.clearDomain 2).enginesOff 2) := of_low rfl
  have hlose (c : Block) (n : Nat) : Bears false c ((c.put Obj.acceptedHeld n).lose .coreA) := of_low rfl
  have h1 : Bears false b b1 := ((htime.trans (tbSwitch _)).trans (detectorsGap _)).trans (hengines _)
  clear_value b1
  have h2 : Bears false b1 b2 := of_low rfl
  exact (h1.trans h2).trans (hlose b2 _)

theorem coreFOff (b : Block) : Bears false b b.coreFOff := by
  unfold Block.coreFOff; extract_lets b1
  have h1 : Bears false b b1 := (fieldRelease b).trans (of_low rfl)
  clear_value b1
  exact h1.trans (of_low rfl)

theorem domainDown (b : Block) (d : Nat) : Bears false b (b.domainDown d) := by
  unfold Block.domainDown; split
  · exact coreFOff b
  · exact coreAOff b
  · exact radioOff b .h
  · exact radioOff b .m
  · exact radioOff b .l
  · exact rfl
  · exact rfl

theorem downTo (b : Block) (a z : Mode) : Bears false b (b.downTo a z) := foldl domainDown _ b

/-! ### What both resets do -/

theorem swapAbort (b : Block) (status : Nat) : Bears s b (b.swapAbort status) := by
  unfold Block.swapAbort; split
  · next w _ =>
    have hrelease : Bears s b (b.swapRelease w) := by
      unfold Block.swapRelease; split <;> exact rfl
    have hput (c : Block) : Bears s c ({ c with images := { c.images with swap := none } }.put Obj.swapStatus status) :=
      (put_above _ _ 0 (by decide)).after rfl
    exact (hrelease.trans (hput _)).trans (notice _ _ _ _ _)
  · exact refl b

theorem restoreUnits (b : Block) : Bears s b b.restoreUnits := by
  unfold Block.restoreUnits; extract_lets f bits named pairOf last show_ b1 m b2 b3 b4
  have h2 : Bears s b b2 := ((put b 0 (by decide) (by decide)).trans (put _ 0 (by decide) (by decide))).trans rfl
  have h3 : Bears s b2 b3 := ite (ite (put_above b2 1 0 (by decide)) (refl b2)) (refl b2)
  have h4 : Bears s b3 b4 := foldl (fun c i => (post c _ _ _ _).trans (notice _ _ _ _ _)) _ b3
  exact (h2.trans (h3.trans h4)).trans (ite (foldl alarmEvaluate _ b4) (refl b4))

theorem regionStart (b : Block) : Bears s b b.regionStart := by
  unfold Block.regionStart; split
  · exact refl b
  · extract_lets u b1 active rec_
    have h1 : Bears s b b1 := rfl
    exact ite h1 (h1.trans (post _ _ _ _ _))

theorem swapKept (b : Block) (w : Option Swap) (c : Block) : Bears s b (b.swapKept w c) := by
  unfold Block.swapKept; split
  · exact (put_above b _ 0 (by decide)).trans (put_above _ _ 0 (by decide))
  · exact refl b

theorem debugSet (b : Block) (v : Nat) : Bears s b (b.debugSet v) := by
  unfold Block.debugSet; extract_lets old
  exact ite (refl b) (((put_above b v 0 (by decide)).trans (post _ _ _ _ _)).trans (notice _ _ _ _ _))

/-! ### The warm reset (R125, R126) -/

theorem deliver (b : Block) (fid : Nat) : Bears s b (b.deliver fid) := by
  unfold Block.deliver; split
  · exact refl b
  · have hout : Bears s b (b.dropFrame fid) := by
      unfold Block.dropFrame; extract_lets fwd b1
      have h1 : Bears s b b1 := rfl
      exact (h1.trans (put b1 _ (by decide) (by decide))).trans rfl
    exact hout.trans (put _ _ (by decide) (by decide))

theorem sentNoAck (b : Block) (r : Radio) (fid : Nat) : Bears s b (b.sentNoAck r fid) := by
  unfold Block.sentNoAck; split
  · exact refl b
  · exact ite rfl (ite ((deliver b fid).trans (put_above _ _ _ (by decide))) (deliver b fid))

theorem finishPpdu (b : Block) (r : Radio) : Bears s b (b.finishPpdu r) := by
  unfold Block.finishPpdu; split
  · exact refl b
  · next a _ =>
    extract_lets b1 b2 b3
    have h1 : Bears s b b1 := ite (refl b) (carriedOnAir b r _)
    have h2 : Bears s b b2 := (h1.trans (rampEnd b1 r)).trans rfl
    have h3 : Bears s b b3 := h2.trans (txStatus b2 r 0)
    exact ite (uncommit b r) (ite h2 (ite h3 (h3.trans (foldl (fun c i => sentNoAck c r i) _ b3))))

theorem radioSettles (b : Block) (done : List Nat) (r : Radio) : Bears s b (b.radioSettles done r) :=
  (finishPpdu b r).trans rfl

theorem ethEnd (b : Block) (port : Nat) : Bears s b (b.ethEnd port) := by
  unfold Block.ethEnd; split
  · exact refl b
  · have hcount (c : Block) (fid : Nat) : Bears s c ((c.deliver fid).add Obj.ethTxFrames 1 port) :=
      (deliver c fid).trans (add_above _ 1 port (by decide))
    exact (hcount _ _).after rfl

theorem remeltAll (b : Block) : Bears s b b.remeltAll := by
  refine foldl (fun c g => ?_) _ b
  exact of_remelts (.undoGather (ks := remeltKeys 7) (by simp [remeltKeys]) (by simp [remeltKeys]) c g) (by decide) (by decide)

theorem replayDone (b : Block) (fid : Nat) : Bears s b (b.replayDone fid) := by
  unfold Block.replayDone; split
  · exact refl b
  · refine ite (refl b) ?_
    split
    · exact rfl
    · exact deliver b fid

theorem landingDrain (b : Block) (r : Radio) : Bears s b (b.landingDrain r) := by
  unfold Block.landingDrain; split
  · exact refl b
  · split
    · exact refl b
    · exact ite rfl (refl b)

theorem journalLanded (b : Block) : Bears s b b.journalLanded :=
  foldl (fun c r => foldl (fun d _ => landingDrain d r) _ c) _ b

theorem undegrade (b : Block) : Bears s b b.undegrade := by
  have shift (m : Mode) (cause : Nat) : Bears s b (b.modeShift m cause) := by
    unfold Block.modeShift; extract_lets left m1 b1
    have h1 : Bears s b b1 := rfl
    exact ite (refl b) ((h1.trans (put b1 _ (by decide) (by decide))).trans ((notice _ _ _ _ _).trans (post _ _ _ _ _)))
  unfold Block.undegrade; split
  · exact shift _ _
  · exact ite (put b _ (by decide) (by decide)) (refl b)
  · exact refl b

end Bears

/-! ### The cold reset (R501) -/

/-- A device that runs: supplied and not in Hibernate. -/
def Block.runs (b : Block) : Prop := b.mode.mode ≠ .off ∧ b.mode.mode ≠ .hibernate

/-- What a cold reset with a source leaves. -/
structure ColdStart (source : Nat) (x : Block) : Prop where
  mode : x.mode.mode = .hibernate ∧ x.mode.trans = .waking ∧ x.mode.acc = {} ∧ x.mode.drain = none ∧ x.mode.entry = none
  shown : x.get Obj.resetSource = source ∧ x.get Obj.resetKind = 0
  due : x.boot.map (·.kind) = some 0

theorem Block.coldReset_start {b : Block} (h : b.runs) (source : Nat) : ColdStart source (b.coldReset source) := by
  unfold Block.coldReset
  extract_lets mode b0 held lossy b1 b2 before slot b3 b4 b5 b6 b7 target b8
  rw [if_neg h.1, if_neg h.2]
  have h6 : b6.get Obj.resetSource = source ∧ b6.get Obj.resetKind = 0 := by
    unfold b6
    rw [Block.regionStart_get, Block.regionStart_get, Block.swapKept_get _ _ _ (by decide) (by decide),
      Block.swapKept_get _ _ _ (by decide) (by decide), Block.get_put_ne _ _ (by decide), Block.get_put_ne _ _ (by decide),
      Block.resetRecord_source, Block.resetRecord_kind]
    exact ⟨rfl, rfl⟩
  have h7 : Bears true b6 b7 := .ite (.debugSet b6 _) (.refl b6)
  have h8 : Bears true b6 b8 := h7.trans (.ite rfl (.refl b7))
  exact ⟨⟨rfl, rfl, rfl, rfl, rfl⟩, ⟨h8.source.trans h6.1, h8.kind.trans h6.2⟩, rfl⟩

/-- A cold reset that waits for nothing under way leaves RESET_N as it is. -/
theorem Block.coldReset_resetLow {b : Block} (h : b.runs) {source : Nat} (hs : source ≠ 3 ∧ source ≠ 7) :
    (b.coldReset source).pins.resetLow = b.pins.resetLow := by
  unfold Block.coldReset
  extract_lets mode b0 held lossy b1 b2 before slot b3 b4 b5 b6 b7 target b8
  rw [if_neg h.1, if_neg h.2]
  have h0 : b0 = b := if_neg (by simp [hs])
  have h1 : Bears false b b1 := by
    unfold b1; rw [h0]
    exact .ite (.trans (b := b.add Obj.lostCold held) (.of_low rfl) (.post _ _ _ _ _)) (.refl b)
  have h2 : Bears false b1 b2 := (Bears.swapAbort b1 6).trans (.restoreUnits _)
  have h4 : Bears false b2 b4 := (Bears.downTo b2 _ _).trans (.ite (.coreAOff b3) (.refl b3))
  have hcleared (c : Block) : Bears false c ((c.coldState.put Obj.bootSlot slot).put Obj.acceptedHeld 0) := .of_low rfl
  have h5 : Bears false b4 b5 := hcleared b4
  have hrecord (c : Block) : Bears false c ((c.resetRecord source 0 before).put Obj.bootSlot 0) :=
    (Bears.post c _ _ _ _).trans (.of_low rfl)
  have h6 : Bears false b5 b6 := (hrecord b5).trans ((Bears.swapKept _ _ _).trans (.regionStart _))
  have h7 : Bears false b6 b7 := .ite (.debugSet b6 _) (.refl b6)
  have hgd (c : Block) : Bears false c c.gdStart := .of_low rfl
  have h8 : Bears false b7 b8 := .ite (hgd b7) (.refl b7)
  have hall : Bears false b b8 := ((h1.trans h2).trans (h4.trans h5)).trans (h6.trans (h7.trans h8))
  exact hall.low

theorem Block.coldReset_of_not_runs {b : Block} (h : ¬ b.runs) {source : Nat} (hs : source ≠ 5) : b.coldReset source = b := by
  unfold Block.coldReset; dsimp only
  by_cases hoff : b.mode.mode = .off
  · rw [if_pos hoff]
  · have hhib : b.mode.mode = .hibernate := by_contra fun e => h ⟨hoff, e⟩
    rw [if_neg hoff, if_pos hhib, if_neg hs]

/-! ### The warm reset: what it shows -/

/-- What a warm reset with a source leaves. -/
structure WarmStart (source : Nat) (x : Block) : Prop where
  shown : x.get Obj.resetSource = source ∧ x.get Obj.resetKind = 1
  due : x.boot.map (·.kind) = some 1

theorem Block.warmReset_start (b : Block) (source : Nat) (done : List Nat) (repaired : Nat) :
    WarmStart source (b.warmReset source done repaired) := by
  unfold Block.warmReset
  extract_lets b0 before b1 b2 b3 melted b4 b5 gathers g6 b6 retried b7 r8 p8 m8 b8 b9 b10 back b11 b12 b13 open_ b14
  have h1 : b1.get Obj.resetSource = source ∧ b1.get Obj.resetKind = 1 :=
    ⟨Block.resetRecord_source _ _ _ _, Block.resetRecord_kind _ _ _ _⟩
  have h3 : Bears true b1 b3 :=
    (Bears.foldl (fun c r => .radioSettles c done r) radios3 b1).trans ((Bears.ethEnd b2 0).trans (.ethEnd _ 1))
  have h5 : Bears true b3 b5 := (Bears.remeltAll b3).trans (.foldl .replayDone done b4)
  clear_value b5
  have h6 : Bears true b5 b6 := rfl
  have hhalt (c : Block) : Bears true c c.enginesHalt := rfl
  have h7 : Bears true b6 b7 := ((Bears.journalLanded b6).trans (hhalt _)).trans (.put _ _ (by decide) (by decide))
  clear_value b7
  have h8 : Bears true b7 b8 := (Bears.swapKept _ _ _).after rfl
  have h9 : Bears true b8 b9 :=
    .ite (((Bears.add_above b8 1 0 (by decide)).trans (.add_above _ 1 1 (by decide))).trans (.put_above _ _ 0 (by decide)))
      (.refl b8)
  have h10 : Bears true b9 b10 := (Bears.put b9 _ (by decide) (by decide)).trans (.notice _ _ _ _ _)
  have h11 : Bears true b10 b11 := .ite ((Bears.restoreUnits b10).trans (.undegrade _)) (.refl b10)
  have h12 : Bears true b11 b12 := .foldl (fun c r => .ite (.radioUp c r) (.refl c)) back b11
  have h13 : Bears true b12 b13 := .ite (.debugSet b12 _) (.refl b12)
  have hopen (c : Block) : Bears true c c.openAcceptance := rfl
  have h14 : Bears true b13 b14 := .ite (hopen b13) (.refl b13)
  have hall : Bears true b1 b14 :=
    ((h3.trans h5).trans (h6.trans (h7.trans h8))).trans ((h9.trans (h10.trans h11)).trans (h12.trans (h13.trans h14)))
  clear_value b14
  exact ⟨⟨hall.source.trans h1.1, hall.kind.trans h1.2⟩, rfl⟩

/-! ### The commands -/

theorem Block.resetRelease_of_running {b : Block} (h : b.runs) :
    ColdStart 1 b.resetRelease ∧ b.resetRelease.pins.resetLow = false := by
  have h' : ({ b with pins := { b.pins with resetLow := false } } : Block).runs := h
  exact ⟨Block.coldReset_start h' 1, Block.coldReset_resetLow h' (by decide)⟩

theorem Block.restoreDelayEnd_of_asked {b : Block} (hmay : b.mayRestore = true) (hcore : b.coreF = true)
    (he : b.mode.entry = none) (done : List Nat) (repaired : Nat) :
    b.restoreDelayEnd done repaired = b.warmReset 4 done repaired := by
  simp [Block.restoreDelayEnd, hmay, Block.warmAsked, hcore, he]

/-- Settles O21: a cold reset by what its last step writes and its units leave, a warm one by what follows its record. -/
theorem resetsLeaveAStartDueWithTheirSource : Obligations.ResetsLeaveAStartDueWithTheirSource := by
  intro s t p done repaired b running cold warm
  have hcold {source : Nat} {x : Block} (h : ColdStart source x) : cold source x := by
    obtain ⟨⟨hmode, htrans, hacc, hdrain, hentry⟩, ⟨hsource, hkind⟩, hdue⟩ := h
    exact ⟨hmode, htrans, hacc, hdrain, hentry, hsource, hkind, hdue⟩
  have hwarm {source : Nat} {x : Block} (h : WarmStart source x) : warm source x := ⟨h.shown.1, h.shown.2, h.due⟩
  refine ⟨.of_furnace rfl rfl, fun hrun => .of_furnace rfl ?_, fun hrun => .of_furnace rfl ?_, ?_,
    fun c hrun => hcold (Block.coldReset_start hrun 3), ?_, fun c => hwarm (c.warmReset_start 2 done repaired),
    fun hf hmay hcore he => .of_at rfl hf ?_, fun hf hmay => .of_at rfl hf (if_neg hmay)⟩
  · obtain ⟨hstart, hlow⟩ := Block.resetRelease_of_running hrun
    exact ⟨hcold hstart, hlow⟩
  · exact Block.coldReset_of_not_runs (b := { b with pins := { b.pins with resetLow := false } }) hrun (by decide)
  · exact .of_object Obj.coldReset rfl (by decide) (by simp) (fun _ => rfl) fun _ _ => rfl
  · exact .of_object Obj.warmReset rfl (by decide) (by simp) (fun _ => rfl) fun _ _ => rfl
  · rw [Block.restoreDelayEnd_of_asked hmay hcore he]
    exact hwarm (b.warmReset_start 4 done repaired)

end Sys2Proof.Machine
end

section
/-!
SUPPORT. Ethernet ports and shapers (R112, R121, R264 to R266, R284 to R286): what a received frame, a pause, the start
and the end of a frame on the line, a shaper's release and a write of MODE leave; and the statement about them.
-/

namespace Sys2Proof.Machine

section
variable {b : Block} {port : Nat}

/-! ### Frames received (R264) -/

theorem Block.ethReceive_of_down (h : b.ethUp port = false) (pkt : Packet) (ok : Bool) (pause : Option (List (Nat × Nat))) :
    b.ethReceive port pkt ok pause = b := by
  simp [Block.ethReceive, h]

section
variable (hup : b.ethUp port = true) {pkt : Packet}
include hup

theorem Block.ethReceive_of_bad (pause : Option (List (Nat × Nat))) :
    b.ethReceive port pkt false pause = b.add Obj.ethRxFcsDrop 1 port := by
  simp [Block.ethReceive, hup]

theorem Block.ethReceive_of_long (hlen : b.get Obj.ethMaxFrame port < pkt.len) (pause : Option (List (Nat × Nat))) :
    b.ethReceive port pkt true pause = b.add Obj.ethRxLongDrop 1 port := by
  simp [Block.ethReceive, hup, hlen]

variable (hlen : pkt.len ≤ b.get Obj.ethMaxFrame port)
include hlen

theorem Block.ethReceive_of_pause (l : List (Nat × Nat)) :
    b.ethReceive port pkt true (some l) = (b.add Obj.ethRxFrames 1 port).pauseRx port l := by
  simp [Block.ethReceive, hup, Nat.not_lt.mpr hlen]

/-- Without a drain or a reset under way a frame that meets closed acceptance is counted no further. -/
theorem Block.ethReceive_of_closed
    (hacc : ((b.add Obj.ethRxFrames 1 port).accNow ((b.add Obj.ethRxFrames 1 port).lineStart port pkt.len)).eth = false)
    (hd : b.mode.drain = none) (hb : b.boot = none) : b.ethReceive port pkt true none = b.add Obj.ethRxFrames 1 port := by
  simp [Block.ethReceive, hup, Nat.not_lt.mpr hlen, hacc, Block.drainDrop, hd, hb]

/-- A frame with no policer, for which the pool and the journal have room, is accepted. -/
theorem Block.ethReceive_of_open
    (hacc : ((b.add Obj.ethRxFrames 1 port).accNow ((b.add Obj.ethRxFrames 1 port).lineStart port pkt.len)).eth = true)
    (hctx : (b.add Obj.ethRxFrames 1 port).ctxRow (ethCtx port pkt) = none)
    (hpool : (b.add Obj.ethRxFrames 1 port).poolUsed + pkt.len ≤ poolSize)
    (hjournal : (b.add Obj.ethRxFrames 1 port).journalFree = true) :
    b.ethReceive port pkt true none = (b.add Obj.ethRxFrames 1 port).accept (ethCtx port pkt) pkt none false
      (some ((b.add Obj.ethRxFrames 1 port).rxPortStamp port pkt.len, port)) := by
  simp [Block.ethReceive, hup, Nat.not_lt.mpr hlen, hacc, Block.police, hctx, Block.place, hpool, hjournal]

end

/-- An accepted frame is the last of those held, and one more accepted. -/
theorem Block.accept_frames (b : Block) (c : Ctx) (pkt : Packet) (landed : Option Radio) (spilled : Bool)
    (stamp : Option (Nat × Nat)) :
    ∃ f, (b.accept c pkt landed spilled stamp).frames = b.frames ++ [f] ∧ f.id = b.nextFrame ∧ f.ctx = c ∧ f.pkt = pkt ∧
      f.at_ = b.now ∧ f.queue = 8191 ∧ f.landed = landed ∧ f.spilled = spilled ∧ f.stamp = stamp :=
  ⟨_, rfl, rfl, rfl, rfl, rfl, rfl, rfl, rfl, rfl⟩

theorem Block.accept_total (b : Block) (c : Ctx) (pkt : Packet) (landed : Option Radio) (spilled : Bool)
    (stamp : Option (Nat × Nat)) : (b.accept c pkt landed spilled stamp).get Obj.acceptedTotal =
      Obj.acceptedTotal.raised (b.get Obj.acceptedTotal + 1) := by
  unfold Block.accept; dsimp only
  rw [Block.get_add_ne _ _ (by decide), Block.get_add_same]
  rfl

/-! ### Pauses (R264, R265) -/

theorem Block.pauseRefresh_of_due (hx : b.xoffNow port ≠ 0)
    (hdue : (b.fwd.xoff.getD port (0, 0)).2 + (b.quantaTicks port 65535 + 1) / 2 ≤ b.now) : b.pauseRefresh port =
      ({ b with fwd := { b.fwd with xoff := b.fwd.xoff.set port (b.xoffNow port, b.now) } } : Block).emit
        (.pause port (b.xoffNow port) 65535) := by
  unfold Block.pauseRefresh; dsimp only
  rw [if_pos (by simpa [hx] using hdue)]

theorem Block.pauseRefresh_of_not (h : b.xoffNow port = 0 ∨
    b.now < (b.fwd.xoff.getD port (0, 0)).2 + (b.quantaTicks port 65535 + 1) / 2) : b.pauseRefresh port = b := by
  unfold Block.pauseRefresh; dsimp only
  rw [if_neg]
  rcases h with h | h
  · simp [h]
  · simp only [Bool.and_eq_true, decide_eq_true_eq]
    exact fun ⟨_, hdue⟩ => Nat.not_le.mpr h hdue

theorem Block.pauseRx_single {quanta prio : Nat} (hcovers : b.flowCovers port prio = true)
    (hport : port < b.fwd.paused.length) : (b.pauseRx port [(prio, quanta)]).fwd.paused.getD port [] =
      if quanta = 0 then assocDel (b.fwd.paused.getD port []) prio
      else assocPut (b.fwd.paused.getD port []) prio (b.now + b.quantaTicks port quanta) := by
  simp [Block.pauseRx, hcovers, List.getD_eq_getElem?_getD, hport]

/-- A port without flow control neither takes a pause nor is held by one. -/
theorem Block.flowCovers_of_off (h : b.get Obj.ethFlowCtrl port = 0) (prio : Nat) : b.flowCovers port prio = false := by
  simp [Block.flowCovers, h]

theorem Block.pauseRx_of_off (h : b.get Obj.ethFlowCtrl port = 0) (l : List (Nat × Nat)) :
    (b.pauseRx port l).fwd.paused = b.fwd.paused := by
  unfold Block.pauseRx; dsimp only
  rw [List.foldl_fixed' (fun x => by simp [Block.flowCovers_of_off h])]
  refine List.ext_getElem? fun i => ?_
  by_cases hi : port = i
  · subst hi
    by_cases hport : port < b.fwd.paused.length
    · simp [List.getD_eq_getElem?_getD, hport]
    · simp [hport]
  · simp [hi]

theorem Block.isPaused_of_off (h : b.get Obj.ethFlowCtrl port = 0) (pkt : Packet) : b.isPaused port pkt = false := by
  simp [Block.isPaused, Block.flowCovers_of_off h]

/-! ### The start and the end of a frame on the line (R112, R284) -/

theorem Block.pickBound_of_none (h : b.boundHeads port = []) (ok : Frame → Bool) : b.pickBound port ok = none := by
  have hdrr (n : Nat) (q : Nat → Nat) (last : Nat) (l : List (Nat × Nat)) : drrPick [] q n last l = none := by
    cases n <;> rfl
  simp [Block.pickBound, h, Block.topHeads, hdrr]

/-- A pick changes only the deficits and the queue served last. -/
theorem Block.pickBound_some {ok : Frame → Bool} {f : Frame} {c : Block} (h : b.pickBound port ok = some (f, c)) :
    ∃ defs, c = { b with fwd := { b.fwd with deficit := defs, turn := assocPut b.fwd.turn port f.queue } } := by
  unfold Block.pickBound at h; extract_lets heads last stay pick at h
  generalize pick = o at h
  cases o with
  | none => cases h
  | some picked =>
    cases h
    exact ⟨_, rfl⟩

theorem Block.lineFrame_fwd (b : Block) (port : Nat) (f : Frame) : (b.lineFrame port f).fwd = b.fwd := by
  have hstamp (n d : Nat) : (b.txStamp port f n d).fwd = b.fwd := by
    refine Block.txStamp_induct (P := fun c => c.fwd = b.fwd) rfl (fun ident time => ?_) f n d
    unfold Block.pushStamp; split
    · rfl
    · exact Block.notice_fwd _ _ _ _ _
  unfold Block.lineFrame; extract_lets rate n b1
  have h1 : b1.fwd = b.fwd := by
    unfold b1; split
    · rfl
    · exact hstamp _ _
  exact h1

theorem Block.ethStart_of_not (h : b.ethUp port = false ∨ b.fwd.line.getD port none ≠ none ∨ b.boundHeads port = [])
    (fuel : Nat) : b.ethStart port (fuel + 1) = b := by
  unfold Block.ethStart
  rcases h with h | h | h
  · simp [h]
  · rw [if_pos (by rw [Option.isSome_iff_ne_none.mpr h, Bool.or_true])]
  · simp [Block.pickBound_of_none h]

section
variable (hup : b.ethUp port = true) (hfree : b.fwd.line.getD port none = none) {f : Frame} {c : Block}
  (hpick : b.pickBound port (fun f => !b.isPaused port f.pkt) = some (f, c))
include hup hfree hpick

theorem Block.ethStart_of_fresh (hexp : b.expired f = false) (fuel : Nat) : b.ethStart port (fuel + 1) =
    (({ c with fwd := { c.fwd with line := c.fwd.line.set port (some f.id) } } : Block).lineFrame port f).emit
      (.frame f.queue f.id) := by
  have hidle : (!b.ethUp port || (b.fwd.line.getD port none).isSome) = false := by rw [hup, hfree]; rfl
  unfold Block.ethStart
  rw [hidle, hpick]; dsimp only
  rw [hexp]; rfl

theorem Block.ethStart_of_expired (hexp : b.expired f = true) (fuel : Nat) :
    b.ethStart port (fuel + 1) = (b.abandon 2 9 [f.id]).ethStart port fuel := by
  have hidle : (!b.ethUp port || (b.fwd.line.getD port none).isSome) = false := by rw [hup, hfree]; rfl
  rw [Block.ethStart, hidle, hpick]; dsimp only
  rw [hexp]; rfl

end

theorem Block.ethEnd_of_free (h : b.fwd.line.getD port none = none) : b.ethEnd port = b := by
  unfold Block.ethEnd; rw [h]

/-- A frame that leaves the held work frees none but its own misses and descriptors of what forwarding keeps. -/
theorem Block.deliver_fwd (b : Block) (fid : Nat) :
    (b.deliver fid).fwd.line = b.fwd.line ∧ (b.deliver fid).fwd.completed = b.fwd.completed := by
  unfold Block.deliver; split <;> exact ⟨rfl, rfl⟩

theorem Block.deliver_get (b : Block) (fid : Nat) {q : Reg} {k : Nat} (hheld : q.key k ≠ Obj.acceptedHeld.key 0)
    (htotal : q.key k ≠ Obj.deliveredTotal.key 0) : (b.deliver fid).get q k = b.get q k := by
  unfold Block.deliver; split
  · rfl
  · rw [Block.get_add_ne _ _ htotal]
    exact Block.get_put_ne _ _ hheld

theorem Block.ethEnd_of_line {fid : Nat} (h : b.fwd.line.getD port none = some fid) (hport : port < 1048576) :
    let x := b.ethEnd port
    x.fwd.line = b.fwd.line.set port none ∧ x.frame? fid = none ∧
      x.fwd.completed = (modAt b.fwd.completed port fun l => (l ++ [fid]).drop (l.length - 63)) ∧
      x.get Obj.ethTxFrames port = Obj.ethTxFrames.raised (b.get Obj.ethTxFrames port + 1) := by
  intro x
  have hx : x = ((({ b with fwd := { b.fwd with
      line := b.fwd.line.set port none
      completed := modAt b.fwd.completed port fun l => (l ++ [fid]).drop (l.length - 63) } } : Block).deliver fid).add
        Obj.ethTxFrames 1 port) := by
    unfold x Block.ethEnd; rw [h]
  rw [hx]
  obtain ⟨hline, hlog⟩ := Block.deliver_fwd ({ b with fwd := { b.fwd with
      line := b.fwd.line.set port none
      completed := modAt b.fwd.completed port fun l => (l ++ [fid]).drop (l.length - 63) } } : Block) fid
  refine ⟨hline, Block.frame?_deliver _ fid, hlog, ?_⟩
  rw [Block.get_add_same, Block.deliver_get _ _ (Reg.key_ne (by decide) hport (by decide))
    (Reg.key_ne (by decide) hport (by decide))]
  rfl

/-! ### Shapers (R285) -/

theorem Block.shaperRelease_of_not {row : Nat} (h : (b.shapNow row).tokens < 0 ∨ b.shaperNext row = none) :
    b.shaperRelease row = b := by
  unfold Block.shaperRelease; dsimp only; split
  · rfl
  · next f hf =>
    rcases h with h | h
    · exact if_neg (Int.not_le.mpr h)
    · simp [h] at hf

theorem Block.shaperRelease_of_tokens {row : Nat} {f : Frame} (hf : b.shaperNext row = some f)
    (htokens : 0 ≤ (b.shapNow row).tokens) :
    let x := b.shaperRelease row
    x.frames = (b.frames.map fun g => if g.id = f.id then { g with released := true } else g) ∧
      assocGet x.fwd.shap row = some ⟨(b.shapNow row).tokens - b.counted row f.pkt.len * tokenUnit, b.now⟩ ∧
      x.fwd.round = b.fwd.round.filter (· != f.queue) ++ [f.queue] := by
  unfold Block.shaperRelease
  simp only [hf, htokens, if_true]
  exact ⟨by simp [Block.modFrame], assocGet_put_same _ _ _, rfl⟩

/-! ### The mode of a port (R266) -/

/-- MODE 2 takes port 0 while port 1 is off, and port 1 takes none but 0 beside it. -/
def badEthMode (b : Block) (k v : Nat) : Prop :=
  (v = 2 ∧ (k = 1 ∨ b.get Obj.ethMode 1 ≠ 0)) ∨ (k = 1 ∧ v ≠ 0 ∧ b.get Obj.ethMode 0 = 2)

theorem Block.writeEthMode_of_bad {k v : Nat} (h : badEthMode b k v) (r : Reg) : b.writeEthMode r k v = (6, b) := by
  refine if_pos ?_
  simpa [badEthMode, and_assoc] using h

theorem Block.writeEthMode_of_good {k v : Nat} (h : ¬ badEthMode b k v) (r : Reg) :
    b.writeEthMode r k v = (0, { (b.put r v k).lineDown k with
      fwd := { ((b.put r v k).lineDown k).fwd with low := ((b.put r v k).lineDown k).fwd.low.set k false } }) := by
  refine if_neg ?_
  simpa [badEthMode, and_assoc] using h

theorem Block.lineDown_get (b : Block) (k : Nat) {q : Reg} {j : Nat} (h : q.key j ≠ Obj.ethLink.key k) :
    (b.lineDown k).get q j = b.get q j := by
  unfold Block.lineDown; extract_lets f0 b0 f1 b1 f2
  have h1 : b1.get q j = b.get q j := by unfold b1; split <;> rfl
  split
  · exact h1
  · rw [Block.get_put_ne _ _ h]
    exact h1

theorem Block.lineDown_link (b : Block) (k : Nat) : (b.lineDown k).get Obj.ethLink k = 0 := by
  unfold Block.lineDown; extract_lets f0 b0 f1 b1 f2; split
  · next h => exact h
  · exact Block.get_put_same _ _ _ _

theorem Block.writeEthMode_takes {k v : Nat} (hk : k < 1048576) (h : ¬ badEthMode b k v) :
    (b.writeEthMode Obj.ethMode k v).1 = 0 ∧ (b.writeEthMode Obj.ethMode k v).2.get Obj.ethMode k = v ∧
      (b.writeEthMode Obj.ethMode k v).2.get Obj.ethLink k = 0 := by
  rw [Block.writeEthMode_of_good h]
  refine ⟨rfl, ?_, ?_⟩
  · exact (Block.lineDown_get _ k (Reg.key_ne (by decide) hk hk)).trans (Block.get_put_same _ _ _ _)
  · exact Block.lineDown_link _ k

end

/-- Settles O36: each command by its operation in the case that the statement names. -/
theorem ethernetPortsAcceptAndDeliverFrames : Obligations.EthernetPortsAcceptAndDeliverFrames := by
  unfold Obligations.EthernetPortsAcceptAndDeliverFrames
  refine ⟨fun s t port pkt hf => ?_, fun s t q row v => ?_, fun w k v hk => ?_, fun w k quanta l => ⟨?_, ?_, ?_⟩⟩
  · have hport : port.val < 1048576 := by omega
    refine ⟨fun ok pause hdown => .of_at rfl hf (Block.ethReceive_of_down hdown _ _ _), fun hup => ⟨fun pause => ?_,
      fun pause hlen => ?_, fun hlen => ⟨fun l => ?_, fun hacc hd hb => ?_, fun hacc hctx hpool hjournal => ?_⟩⟩,
      fun mask => .of_at rfl hf rfl, fun hx hdue => .of_at rfl hf (Block.pauseRefresh_of_due hx hdue),
      fun h => .of_at rfl hf (Block.pauseRefresh_of_not h), fun h => .of_at rfl hf (Block.ethStart_of_not h _),
      fun f c hup hfree hpick => ⟨fun hexp => .of_at rfl hf ?_, fun hexp => .of_at rfl hf ?_⟩,
      fun fid hline => .of_at rfl hf (Block.ethEnd_of_line hline hport), fun h => .of_at rfl hf (Block.ethEnd_of_free h),
      fun row f hnext htokens => .of_at rfl hf (Block.shaperRelease_of_tokens hnext htokens),
      fun row h => .of_at rfl hf (Block.shaperRelease_of_not h)⟩
    · exact .of_at rfl hf (Block.ethReceive_of_bad hup pause)
    · exact .of_at rfl hf (Block.ethReceive_of_long hup hlen pause)
    · exact .of_at rfl hf (Block.ethReceive_of_pause hup hlen l)
    · exact .of_at rfl hf (Block.ethReceive_of_closed hup hlen hacc hd hb)
    · refine .of_at rfl hf ?_
      rw [Block.ethReceive_of_open hup hlen hacc hctx hpool hjournal]
      exact ⟨Block.accept_frames _ _ _ _ _ _, (Block.accept_total _ _ _ _ _ _).trans
        (by rw [Block.get_add_ne _ _ (Reg.key_ne (by decide) (by decide) hport)])⟩
    · obtain ⟨defs, rfl⟩ := Block.pickBound_some hpick
      rw [Block.ethStart_of_fresh hup hfree hpick hexp]
      refine ⟨rfl, ?_, ?_⟩
      · exact congrArg Forward.line (Block.lineFrame_fwd _ _ _)
      · exact congrArg Forward.turn (Block.lineFrame_fwd _ _ _)
    · exact Block.ethStart_of_expired hup hfree hpick hexp _
  · exact .of_object Obj.ethMode rfl (by decide) (by simp) (fun _ => rfl) fun _ _ => rfl
  · exact ⟨fun h => Block.writeEthMode_of_bad h _, fun h => Block.writeEthMode_takes (by omega) h⟩
  · intro hflow hlen hk
    exact Block.pauseRx_single (by simp [Block.flowCovers, hflow]) (by omega)
  · exact fun h => Block.pauseRx_of_off h l
  · exact fun pkt h => Block.isPaused_of_off h pkt

end Sys2Proof.Machine
end

section
/-!
SUPPORT. Classification and the miss port (R110, R118, R274 to R281): what the verdict on a frame makes of it, flows and
learned rows as they come and go, misses taken and answered; and the statement about them.
-/

namespace Sys2Proof.Machine

/-! ### A command that is one read by a port (R44, R57) -/

section
variable {s : State} {p : Port} {idx sub row : Nat}

theorem State.portRead_of_closed (h : s.blk.portOpen p = false) : s.portRead p idx sub row = s := by
  simp [State.portRead, h]

theorem State.portRead_of_busy (ho : s.blk.portOpen p = true) (hi : s.blk.pointIdle = false) :
    s.portRead p idx sub row = { s with blk := s.blk.enqueueAsk (s.blk.waitOf p (.read idx sub row)) } := by
  simp [State.portRead, ho, hi]

variable (ho : s.blk.portOpen p = true) (hi : s.blk.pointIdle = true)
include ho hi

theorem State.portRead_of_refused {e : Nat} (h : s.blk.checkAccess p idx sub row false = .error e) :
    s.portRead p idx sub row = { s with blk := s.blk.answered p idx sub row e 0 } := by
  have hmeets : s.blk.meetsWrite p idx sub row = false := by simp [Block.meetsWrite, h]
  simp [State.portRead, ho, hi, State.takeRead, hmeets, Block.read, h, Block.answered]

theorem State.portRead_of_meeting (h : s.blk.meetsWrite p idx sub row = true) :
    s.portRead p idx sub row = { s with blk := s.blk.hold (s.blk.waitOf p (.read idx sub row)) } := by
  simp [State.portRead, ho, hi, State.takeRead, h]

theorem State.portRead_of_passed {r : Reg} {k : Nat} (h : s.blk.checkAccess p idx sub row false = .ok (r, k))
    (hmeets : s.blk.meetsWrite p idx sub row = false) : s.portRead p idx sub row =
      { s with blk := (s.blk.readReg p r k).2.2.answered p idx sub row (s.blk.readReg p r k).1 (s.blk.readReg p r k).2.1 } := by
  simp [State.portRead, ho, hi, State.takeRead, hmeets, Block.read, h, Block.answered]

end

/-- A command that reads one object of the dictionary takes what R44 and R57 say of a read, with what the read of that
object gives and leaves. -/
theorem Reads.of_object {c : Instr} {s : State} {t : Nat} {p : Port} (q : Reg) {row : Nat} {f : Block → Reg → Nat → Nat × Block}
    (he : exec c s = s.atAll t fun x => x.portRead p q.idx q.sub row) (hreg : ∀ b : Block, b.find q.idx q.sub = .ok q)
    (hread : ∀ (b : Block) (k : Nat), b.readReg p q k = (0, (f b q k).1, (f b q k).2)) :
    Reads c s t p q.idx q.sub row f := by
  rintro hf b rfl
  refine ⟨fun ho => .of_atAll he hf (State.portRead_of_closed ho), fun ho hi => .of_atAll he hf (State.portRead_of_busy ho hi),
    fun ho hi => ⟨fun e h => .of_atAll he hf (State.portRead_of_refused ho hi h),
      fun h => .of_atAll he hf (State.portRead_of_meeting ho hi h), fun r k h hmeets => .of_atAll he hf ?_⟩⟩
  obtain ⟨hfind, -⟩ := Block.checkAccess_ok h
  obtain rfl : q = r := Except.ok.inj ((hreg _).symm.trans hfind)
  rw [State.portRead_of_passed (s := { s with blk := s.blk.tick t }) ho hi h hmeets, hread]

section
variable {b : Block}

/-! ### A frame classified (R274 to R280) -/

theorem Block.classify_of_gone {fid : Nat} (h : b.frame? fid = none) : b.classify fid = b := by
  simp [Block.classify, h]

section
variable {fid : Nat} {f : Frame} (hf : b.frame? fid = some f)
include hf

theorem Block.classify_of_waiting (h : b.mayClassify f = false) : b.classify fid = b := by
  simp [Block.classify, hf, h]

variable (hmay : b.mayClassify f = true)
include hmay

theorem Block.classify_of_turn : b.classify fid = b.classifyNow f := by
  simp [Block.classify, hf, hmay]

/-- A frame that is neither routed nor bridged is discarded and counted. -/
theorem Block.classify_discards (hctx : b.ctxRow f.ctx = none) (hr : b.routed f.ctx f.pkt = none) :
    b.classify fid = (b.deliver f.id).add Obj.classDiscard := by
  have hzone : b.ctxZone f.ctx = (0, 65535, false) := by simp [Block.ctxZone, hctx]
  rw [Block.classify_of_turn hf hmay]
  simp [Block.classifyNow, hzone, hr]

section
variable {z bd : Nat} (hzone : b.ctxZone f.ctx = (z, bd, false))
include hzone

/-- Where nothing is learned a bridged frame goes by the verdict on it. -/
theorem Block.classify_bridges (hbd : bd ≠ 65535) (hr : b.routed f.ctx f.pkt = none) {q : Nat}
    (hv : b.bridgeVerdict bd f.pkt = .queue q) : b.classify fid = b.enqueue f.id q := by
  rw [Block.classify_of_turn hf hmay]
  simp [Block.classifyNow, hzone, hbd, hr, hv, Block.carryOut]

variable {ip : IpInfo} (hr : b.routed f.ctx f.pkt = some ip)
include hr

theorem Block.classify_misses {code : Nat} (hv : b.routeVerdict z ip f.pkt = (.exception code, none)) :
    b.classify fid = b.miss f code := by
  rw [Block.classify_of_turn hf hmay]
  simp [Block.classifyNow, hzone, hr, hv, Block.carryOut]

theorem Block.classify_routes {q : Nat} (hv : b.routeVerdict z ip f.pkt = (.queue q, none)) : b.classify fid =
    (b.modFrame f.id fun y => { y with
      pkt := b.rewrite ((b.routeFor ip).map fun r => b.get Obj.routeNexthop r) q y.pkt }).enqueue f.id q := by
  rw [Block.classify_of_turn hf hmay]
  simp [Block.classifyNow, hzone, hr, hv, Block.nextHopUsed]

end
end

/-- A frame to one station whose row's destination is in use and takes its length goes to that destination's queue. -/
theorem Block.bridgeVerdict_of_row {bd row q : Nat} {pkt : Packet} (hgroup : groupMac pkt.dst = false)
    (hrow : b.bridgeRow bd pkt.dst = some row)
    (hq : b.egress (b.get Obj.bridgeDestKind row) (b.get Obj.bridgeDest row) (b.classOf none pkt) = some q)
    (hused : b.queueUsed q = true) (hlen : b.tooLong q pkt.len = false) : b.bridgeVerdict bd pkt = .queue q := by
  simp [Block.bridgeVerdict, hgroup, hrow, hq, Block.viaQueue, hused, hlen]

/-! ### Flows and learned rows (R276, R278) -/

theorem Block.flowIdleEnd_of_due {row : Nat} (hvalid : b.is Obj.flowValid row = true) (hidle : b.get Obj.flowIdle row ≠ 0)
    (hdue : assocNat b.fwd.flowHit row + secs (b.get Obj.flowIdle row) ≤ b.now) : b.flowIdleEnd row = b.freeFlow row :=
  if_pos (by simp [hvalid, hidle, hdue])

theorem Block.flowIdleEnd_of_not {row : Nat}
    (h : b.get Obj.flowIdle row = 0 ∨ b.now < assocNat b.fwd.flowHit row + secs (b.get Obj.flowIdle row)) :
    b.flowIdleEnd row = b := by
  refine if_neg ?_
  simp only [Bool.and_eq_true, bne_iff_ne, decide_eq_true_eq]
  rintro ⟨⟨-, hidle⟩, hdue⟩
  rcases h with h | h
  · exact hidle h
  · exact Nat.not_le.mpr h hdue

theorem Block.bridgeAgeEnd_of_due {row : Nat} (hstate : b.get Obj.bridgeState row = 1)
    (hdue : assocNat b.fwd.bridgeSeen row + secs (b.get Obj.bridgeAge4301) ≤ b.now) :
    b.bridgeAgeEnd row = b.freeBridge row :=
  if_pos (by simp [hstate, hdue])

theorem Block.bridgeAgeEnd_of_not {row : Nat}
    (h : b.get Obj.bridgeState row ≠ 1 ∨ b.now < assocNat b.fwd.bridgeSeen row + secs (b.get Obj.bridgeAge4301)) :
    b.bridgeAgeEnd row = b := by
  refine if_neg ?_
  simp only [Bool.and_eq_true, decide_eq_true_eq]
  rintro ⟨hstate, hdue⟩
  rcases h with h | h
  · exact h hstate
  · exact Nat.not_le.mpr h hdue

/-- Clearing a row leaves every object that its list does not name at that row. -/
theorem Block.clearRow_get_other {q : Reg} {k row : Nat} (regs : List Reg) (h : ∀ x ∈ regs, q.key k ≠ x.key row) (b : Block) :
    (b.clearRow regs row).get q k = b.get q k := by
  induction regs generalizing b with
  | nil => rfl
  | cons x rest ih =>
    refine (ih (fun y hy => h y (List.mem_cons_of_mem _ hy)) _).trans ?_
    exact Block.get_put_ne _ _ (h x List.mem_cons_self)

/-- A row of a table is cleared: every object of it that the list names holds its default. -/
theorem Block.clearRow_get {regs : List Reg} (hregs : regs.Pairwise fun q r => q.idx * 256 + q.sub ≠ r.idx * 256 + r.sub)
    (b : Block) {q : Reg} (hq : q ∈ regs) (row : Nat) : (b.clearRow regs row).get q row = q.default row := by
  induction regs generalizing b with
  | nil => cases hq
  | cons r rest ih =>
    obtain ⟨hr, hrest⟩ := List.pairwise_cons.mp hregs
    rcases List.mem_cons.mp hq with rfl | hmem
    · have hlater := Block.clearRow_get_other rest (fun x hx => Reg.key_ne_same_row row (hr x hx)) (b.put q (q.default row) row)
      exact hlater.trans (Block.get_put_same _ _ _ _)
    · exact ih hrest _ hmem

theorem Block.freeFlow_valid (b : Block) (row : Nat) : (b.freeFlow row).get Obj.flowValid row = 0 := by
  have hfwd (c : Block) (w : Forward) : ({ c with fwd := w } : Block).get Obj.flowValid row = c.get Obj.flowValid row := rfl
  exact (hfwd _ _).trans <| Block.clearRow_get (regs := flowRegs) (by decide) b List.mem_cons_self row

theorem Block.freeBridge_state (b : Block) (row : Nat) : (b.freeBridge row).get Obj.bridgeState row = 0 := by
  have hfwd (c : Block) (w : Forward) : ({ c with fwd := w } : Block).get Obj.bridgeState row = c.get Obj.bridgeState row := rfl
  exact (hfwd _ _).trans <| Block.clearRow_get (regs := bridgeRegs) (by decide) b List.mem_cons_self row

/-! ### A flow inserted (R276) -/

section
variable {key : Nat} (action target cls idle : Nat)

theorem Block.insertFlow_of_present (h : b.flowHitRow key ≠ none) :
    b.insertFlow key action target cls idle = (6, 0xFFFFFFFF, b) :=
  if_pos (Option.isSome_iff_ne_none.mpr h)

/-- The four rows of the bucket of a flow key. -/
def flowWays (key : Nat) : List Nat :=
  [4 * flowBucket key, 4 * flowBucket key + 1, 4 * flowBucket key + 2, 4 * flowBucket key + 3]

theorem mem_flowWays {r : Nat} : r ∈ flowWays key ↔ ∃ i < 4, r = 4 * flowBucket key + i := by
  simp only [flowWays, List.mem_cons, List.not_mem_nil, or_false]
  constructor
  · rintro (rfl | rfl | rfl | rfl)
    exacts [⟨0, by omega, rfl⟩, ⟨1, by omega, rfl⟩, ⟨2, by omega, rfl⟩, ⟨3, by omega, rfl⟩]
  · rintro ⟨i, hi, rfl⟩
    omega

/-- The first row of a bucket that passes a test. -/
theorem find?_flowWays {test : Nat → Bool} {i : Nat} (hi : i < 4) (ht : test (4 * flowBucket key + i) = true)
    (hlow : ∀ j < i, test (4 * flowBucket key + j) = false) : (flowWays key).find? test = some (4 * flowBucket key + i) := by
  have h0 : 0 < i → test (4 * flowBucket key) = false := hlow 0
  have h1 : 1 < i → test (4 * flowBucket key + 1) = false := hlow 1
  have h2 : 2 < i → test (4 * flowBucket key + 2) = false := hlow 2
  have hcases : i = 0 ∨ i = 1 ∨ i = 2 ∨ i = 3 := by omega
  rcases hcases with rfl | rfl | rfl | rfl <;> simp_all [flowWays]

variable (hnew : b.flowHitRow key = none)
include hnew

theorem Block.insertFlow_of_full (hfull : ∀ i < 4, b.is Obj.flowValid (4 * flowBucket key + i) = true) :
    b.insertFlow key action target cls idle = (9, 0xFFFFFFFF, b) := by
  have hnone : (flowWays key).find? (fun r => !b.is Obj.flowValid r) = none := by
    refine List.find?_eq_none.mpr fun r hr => ?_
    obtain ⟨i, hi, rfl⟩ := mem_flowWays.mp hr
    simp [hfull i hi]
  unfold flowWays at hnone
  simp only [Block.insertFlow, hnew, hnone]
  rfl

/-- The block with a flow in a row. -/
def Block.withFlow (b : Block) (r key action target cls idle : Nat) : Block :=
  let b1 := (((b.put Obj.flowValid 1 r).put Obj.flowKey key r).put Obj.flowAction action r).put Obj.flowTarget target r
  let b2 := ((b1.put Obj.flowClass cls r).put Obj.flowIdle idle r).put Obj.flowHits 0 r
  { b2 with fwd := { b2.fwd with flowHit := assocPut b2.fwd.flowHit r b2.now } }

theorem Block.insertFlow_of_free {i : Nat} (hi : i < 4) (hfree : b.is Obj.flowValid (4 * flowBucket key + i) = false)
    (hlow : ∀ j < i, b.is Obj.flowValid (4 * flowBucket key + j) = true) : b.insertFlow key action target cls idle =
      (0, 4 * flowBucket key + i, b.withFlow (4 * flowBucket key + i) key action target cls idle) := by
  have hfind := find?_flowWays (key := key) (test := fun r => !b.is Obj.flowValid r) hi (by simp [hfree])
    fun j hj => by simp [hlow j hj]
  unfold flowWays at hfind
  simp only [Block.insertFlow, hnew, hfind]
  rfl

end

section
variable {key r : Nat} (action target cls idle : Nat)

theorem Block.withFlow_shows (b : Block) : (b.withFlow r key action target cls idle).get Obj.flowValid r = 1 ∧
    (b.withFlow r key action target cls idle).get Obj.flowKey r = key ∧
    (b.withFlow r key action target cls idle).get Obj.flowAction r = action ∧
    (b.withFlow r key action target cls idle).get Obj.flowTarget r = target := by
  have hfwd (c : Block) (w : Forward) (q : Reg) : ({ c with fwd := w } : Block).get q r = c.get q r := rfl
  have hne {q x : Reg} (h : q.idx * 256 + q.sub ≠ x.idx * 256 + x.sub) (c : Block) (v : Nat) :
      (c.put x v r).get q r = c.get q r := Block.get_put_ne c v (Reg.key_ne_same_row r h)
  simp only [Block.withFlow, hfwd]
  simp (disch := decide) only [hne, Block.get_put_same, and_self]

theorem Block.withFlow_other (b : Block) (hr : r < 1048576) {k : Nat} (hk : k < 1048576) (hne : k ≠ r) (q : Reg) :
    (b.withFlow r key action target cls idle).get q k = b.get q k := by
  have hfwd (c : Block) (w : Forward) : ({ c with fwd := w } : Block).get q k = c.get q k := rfl
  have hput (c : Block) (x : Reg) (v : Nat) : (c.put x v r).get q k = c.get q k := by
    refine Block.get_put_ne c v fun e => hne ?_
    have := congrArg (· % 1048576) e
    simpa [Reg.key, Nat.add_mod, Nat.mod_eq_of_lt hk, Nat.mod_eq_of_lt hr] using this
  simp only [Block.withFlow, hfwd, hput]

/-- A flow inserted in the first free way of a bucket that did not hold its key is the one that its key hits. -/
theorem Block.withFlow_hit {i : Nat} (hi : i < 4) (hnew : b.flowHitRow key = none) :
    (b.withFlow (4 * flowBucket key + i) key action target cls idle).flowHitRow key = some (4 * flowBucket key + i) := by
  have hsmall : flowBucket key < 4096 := Nat.mod_lt _ (by decide)
  obtain ⟨hvalid, hkey, -, -⟩ := b.withFlow_shows (r := 4 * flowBucket key + i) (key := key) action target cls idle
  have hother (q : Reg) {j : Nat} (hj : j < i) := b.withFlow_other (r := 4 * flowBucket key + i) (key := key) action target cls
    idle (by omega) (k := 4 * flowBucket key + j) (by omega) (by omega) q
  generalize b.withFlow (4 * flowBucket key + i) key action target cls idle = x at *
  have hit : (x.is Obj.flowValid (4 * flowBucket key + i) && x.get Obj.flowKey (4 * flowBucket key + i) == key) = true := by
    simp [Block.is, hvalid, hkey]
  refine find?_flowWays (test := fun r => x.is Obj.flowValid r && x.get Obj.flowKey r == key) hi hit fun j hj => ?_
  have hmem : 4 * flowBucket key + j ∈ flowWays key := mem_flowWays.mpr ⟨j, by omega, rfl⟩
  simpa [Block.is, hother _ hj] using List.find?_eq_none.mp hnew _ hmem

end

/-! ### The miss port (R281) -/

theorem Block.missTake_of_none {n : Nat} (h : n < 5 ∨ 8 < n ∨ ∀ m ∈ b.fwd.misses, m.holder ≠ none) :
    b.missTake n = (65535 * 2 ^ 240, b) := by
  unfold Block.missTake; dsimp only
  by_cases hn : n < 5 ∨ 8 < n
  · rw [if_pos (by simpa using hn)]
  · have hheld : b.fwd.misses.find? (fun m => m.holder.isNone) = none := by
      refine List.find?_eq_none.mpr fun m hm => ?_
      rcases h with h | h | h
      · exact absurd (.inl h) hn
      · exact absurd (.inr h) hn
      · simpa using h m hm
    rw [if_neg (by simpa using hn), hheld]
    split <;> rfl

theorem Block.missTake_of_some {n : Nat} {m : Miss} (h5 : 5 ≤ n) (h8 : n ≤ 8)
    (hroom : (b.fwd.misses.filter fun m => m.holder == some n).length < 4)
    (hm : b.fwd.misses.find? (fun m => m.holder.isNone) = some m) :
    (b.missTake n).2.frames = b.frames ∧ (b.missTake n).2.fwd.misses = b.fwd.misses.map fun y =>
      if y.fid = m.fid then { y with holder := some n, handle := b.fwd.nextHandle % 65535 } else y := by
  unfold Block.missTake; dsimp only
  rw [if_neg (by simp; omega), if_neg (Nat.not_le.mpr hroom), hm]
  exact ⟨rfl, by simp⟩

theorem Block.verdict_of_range {n v : Nat} (h : 2 < octFieldLE v 16 2 1) : b.verdict n v = (6, b) :=
  if_pos (by simp [h])

theorem Block.verdict_of_stale {n v : Nat} (hrange : (b.verdict n v).1 ≠ 6)
    (h : ∀ m ∈ b.fwd.misses, m.holder = some n → m.handle ≠ octFieldLE v 16 0 2) : b.verdict n v = (13, b) := by
  have hnone : b.fwd.misses.find? (fun m => m.holder == some n && m.handle == octFieldLE v 16 0 2) = none := by
    refine List.find?_eq_none.mpr fun m hm => ?_
    simpa using h m hm
  unfold Block.verdict at hrange ⊢
  simp only [hnone] at hrange ⊢
  split at hrange
  · exact absurd rfl hrange
  · next hbad => exact if_neg hbad

end

/-- Settles O38: each command by what its operation does in the case that the statement names. -/
theorem classificationAndTheMissPort : Obligations.ClassificationAndTheMissPort := by
  unfold Obligations.ClassificationAndTheMissPort
  refine ⟨fun s t hf => ?_, fun s t v p => ⟨?_, ?_, ?_⟩, fun w key action target cls idle row n v => ?_⟩
  · refine ⟨fun fid h => .of_at rfl hf (Block.classify_of_gone h), fun fid f h hmay => .of_at rfl hf (Block.classify_of_waiting h hmay),
      fun fid f h hmay hctx hr => .of_at rfl hf (Block.classify_discards h hmay hctx hr),
      fun fid f z row bd q h hmay hzone hbd hr hgroup hrow hq hused hlen => .of_at rfl hf ?_,
      fun fid f z bd ip h hmay hzone hr => ⟨fun code hv => .of_at rfl hf (Block.classify_misses h hmay hzone hr hv),
        fun q hv => .of_at rfl hf (Block.classify_routes h hmay hzone hr hv)⟩,
      fun row hvalid hidle hdue => .of_at rfl hf (Block.flowIdleEnd_of_due hvalid hidle hdue),
      fun row h => .of_at rfl hf (Block.flowIdleEnd_of_not h),
      fun row hstate hdue => .of_at rfl hf (Block.bridgeAgeEnd_of_due hstate hdue),
      fun row h => .of_at rfl hf (Block.bridgeAgeEnd_of_not h)⟩
    exact Block.classify_bridges h hmay hzone hbd hr (Block.bridgeVerdict_of_row hgroup hrow hq hused hlen)
  · exact .of_object Obj.stgInsert rfl (by decide) (by simp) (fun _ => rfl) fun _ _ => rfl
  · exact .of_object Obj.missTake rfl (fun _ => rfl) fun _ _ => rfl
  · exact .of_object Obj.verdict rfl (by decide) (by simp) (fun _ => rfl) fun _ _ => rfl
  · refine ⟨⟨w.freeFlow_valid row, w.freeBridge_state row⟩, Block.insertFlow_of_present action target cls idle,
      fun hnew => ⟨Block.insertFlow_of_full action target cls idle hnew, fun i hi hfree hlow => ?_⟩, Block.missTake_of_none,
      fun m h5 h8 hroom hm => Block.missTake_of_some h5 h8 hroom hm, Block.verdict_of_range, Block.verdict_of_stale⟩
    rw [Block.insertFlow_of_free action target cls idle hnew hi hfree hlow]
    obtain ⟨-, -, haction, htarget⟩ := w.withFlow_shows (r := 4 * flowBucket key + i) (key := key) action target cls idle
    exact ⟨rfl, rfl, Block.withFlow_hit action target cls idle hi hnew, haction, htarget⟩

end Sys2Proof.Machine
end

section
/-!
SUPPORT. The addresses of neighbours (R223): a row whose address is served from the older slot of MRAM (R475) holds it, and
the check of an ADDR write does not see it; so the statement about neighbours fails.
-/

namespace Sys2Proof.Machine

/-- Neighbour 5 was admitted with the address 7 and removed, and then the newer MRAM slot of its ADDR has failed: the row
reads the address in its older slot again. -/
def olderAddrServed : Block :=
  ((({} : Block).put Obj.nbrAddr 7 5).put Obj.nbrAddr 0 5).mramFault (.slot Obj.nbrAddr.idx Obj.nbrAddr.sub 5 true)

theorem olderAddrServed_addr : olderAddrServed.get Obj.nbrAddr 5 = 7 := by decide

/-- The listed rows are those of the newer slots alone. -/
theorem olderAddrServed_listedRows : olderAddrServed.listedRows Obj.nbrAddr = [] := by decide

theorem olderAddrServed_admits : (olderAddrServed.writeNbrAddr 6 7).1 = 0 := by decide

/-- Refutes O46: row 5 of `olderAddrServed` holds the address 7, and a write of 7 to the ADDR of row 6 is taken with
result OK where the statement wants RANGE. -/
theorem not_neighboursAreServedLostAndRemoved : ¬ Obligations.NeighboursAreServedLostAndRemoved := by
  intro h
  obtain ⟨-, -, hwrites⟩ := h
  obtain ⟨-, -, hrange, -⟩ := hwrites olderAddrServed 6 7 (by decide)
  have hrefused : olderAddrServed.writeNbrAddr 6 7 = (6, olderAddrServed) :=
    hrange 5 (by decide) (by decide) (by decide) olderAddrServed_addr
  have hcode : (0 : Nat) = 6 := olderAddrServed_admits.symm.trans (congrArg Prod.fst hrefused)
  exact absurd hcode (by decide)

end Sys2Proof.Machine
end

section
/-!
SUPPORT. Departures (R121 code 1): what a station that leaves its table leaves, and every station of a BSS disabled.
-/

namespace Sys2Proof.Machine

/-! ### Rows of a table -/

theorem Block.clearRow_frames (regs : List Reg) (row : Nat) (b : Block) : (b.clearRow regs row).frames = b.frames :=
  Block.foldl_same (f := fun c r => c.put r (r.default row) row) (g := Block.frames) (fun _ _ => rfl) regs b

theorem assocGet_eq_none {α : Type} {l : List (Nat × α)} {key : Nat} (h : ∀ c ∈ l, c.1 ≠ key) :
    assocGet l key = none := by
  induction l with
  | nil => rfl
  | cons c rest ih =>
    rw [assocGet, if_neg (h c List.mem_cons_self)]
    exact ih fun x hx => h x (List.mem_cons_of_mem _ hx)

/-- A live object of a row that its table does not list holds its default. -/
theorem Block.get_of_not_listed {b : Block} {q : Reg} (hq : q.home = .live) {k : Nat} (hk : k < 1048576)
    (h : k ∉ b.listedRows q) : b.get q k = q.default k := by
  have hnone : assocGet (b.regs.sel q.home) (q.key k) = none := by
    refine assocGet_eq_none fun c hc hkey => h (List.mem_map.mpr ⟨c, List.mem_filter.mpr ⟨hc, ?_⟩, ?_⟩)
    · simpa [hkey, Reg.key, Nat.add_comm, Nat.add_mul_div_right] using hk
    · simpa [hkey, Reg.key, Nat.add_mod] using hk
  have hslot : b.regs.slotBad q k = false := by simp [RegFile.slotBad, hq]
  simp only [Block.get, RegFile.get, hslot, hnone]
  rfl

/-- A row of an object is under none of the keys whose objects are others. -/
theorem Reg.key_notMem {q : Reg} {ks : List Nat} (h : ∀ x ∈ ks, x / 1048576 ≠ q.idx * 256 + q.sub) {k : Nat}
    (hk : k < 1048576) : q.key k ∉ ks := fun hmem =>
  h _ hmem (by simp [Reg.key, Nat.add_comm, Nat.add_mul_div_right, Nat.div_eq_of_lt hk])

/-! ### A station departs -/

theorem Block.departStation_of_unused {b : Block} {row : Nat} (h : b.staUsed row = false) : b.departStation row = b := by
  simp [Block.departStation, h]

section
variable {b : Block} {row : Nat} (hused : b.staUsed row = true)
include hused

theorem Block.departStation_frames :
    (b.departStation row).frames = (b.abandon 1 7 (b.idsWhere fun f => f.inScope 2 row)).frames := by
  unfold Block.departStation; rw [if_pos hused]
  extract_lets bss reg b1 b2 b3 m
  have h2 : b2.frames = b1.frames := by unfold b2; split <;> rfl
  have h3 : b3.frames = b2.frames := Block.clearRow_frames staRegs row b2
  clear_value m b3 b2
  exact h3.trans h2

theorem Block.departStation_state : (b.departStation row).get Obj.staState row = 0 := by
  unfold Block.departStation; rw [if_pos hused]
  extract_lets bss reg b1 b2 b3 m
  have h3 : b3.get Obj.staState row = 0 := Block.clearRow_get (regs := staRegs) (by decide) b2 List.mem_cons_self row
  clear_value m b3
  exact h3

/-- Nothing is held for a station that has departed, and its row is free. -/
theorem Block.departStation_departed :
    Claims.departed 2 row b (b.departStation row) ∧ (b.departStation row).get Obj.staState row = 0 := by
  obtain ⟨hgone, hstay⟩ := Block.abandon_departs b 1 7 2 row
  rw [← Block.departStation_frames hused] at hgone hstay
  refine ⟨⟨hgone, fun f hf hout => ?_⟩, Block.departStation_state hused⟩
  obtain ⟨g, hg, hkept⟩ := hstay f hf hout
  exact ⟨g, hg, hkept.id, hkept.pkt⟩

end

/-- A departure leaves the objects of every other row that are neither the BSS's count nor counted or noticed. -/
theorem Block.departStation_get (b : Block) {row k : Nat} (hrow : row < 1048576) (hk : k < 1048576) (hne : k ≠ row) :
    (b.departStation row).get Obj.staState k = b.get Obj.staState k := by
  unfold Block.departStation; split
  · extract_lets bss reg b1 b2 b3 m
    have h1 : b1.get Obj.staState k = b.get Obj.staState k :=
      (Sheds.abandon b 1 7 _).get _ _ (Reg.key_notMem (by decide) hk)
    have h2 : b2.get Obj.staState k = b1.get Obj.staState k := by
      unfold b2; split
      · refine Block.get_put_ne _ _ (Reg.key_ne ?_ hk (by omega))
        unfold reg; cases b.staRadio row <;> decide
      · rfl
    have hother : ∀ x ∈ staRegs, Obj.staState.key k ≠ x.key row := by
      intro x hx
      simp only [staRegs, List.mem_cons, List.not_mem_nil, or_false] at hx
      rcases hx with rfl | hx
      · exact Reg.key_row_ne _ hne
      · rcases hx with rfl | rfl | rfl | rfl | rfl <;> exact Reg.key_ne (by decide) hk hrow
    have h3 : b3.get Obj.staState k = b2.get Obj.staState k := Block.clearRow_get_other staRegs hother b2
    clear_value m b3 b2 b1
    exact h3.trans (h2.trans h1)
  · rfl

/-- Once a station of a list has departed, its row stays free while the others depart. -/
theorem Block.foldl_departStation_free {k : Nat} (hk : k < 1048576) (l : List Nat) (hl : ∀ x ∈ l, x < 1048576) (b : Block)
    (h : k ∈ l ∨ b.get Obj.staState k = 0) : (l.foldl Block.departStation b).get Obj.staState k = 0 := by
  induction l generalizing b with
  | nil => simpa using h
  | cons x rest ih =>
    refine ih (fun y hy => hl y (List.mem_cons_of_mem _ hy)) _ ?_
    by_cases hx : k = x
    · subst hx
      refine .inr ?_
      by_cases hused : b.staUsed k = true
      · exact Block.departStation_state hused
      · rw [Block.departStation_of_unused (by simpa using hused)]
        simpa [Block.staUsed] using hused
    · rcases h with h | h
      · exact .inl ((List.mem_cons.mp h).resolve_left hx)
      · exact .inr ((Block.departStation_get b (hl x List.mem_cons_self) hk hx).trans h)

end Sys2Proof.Machine
end

section
/-!
SUPPORT. Stations (R214 to R218, R223, R227): rounds, associations, probe requests, TWT, beacons and BSSs; and the statement
about them.
-/

namespace Sys2Proof.Machine

/-! ### Rounds (R214) -/

theorem mem_insertBy {α : Type} {le : α → α → Bool} {x y : α} (l : List α) : y ∈ insertBy le x l ↔ y = x ∨ y ∈ l := by
  induction l with
  | nil => simp [insertBy]
  | cons z rest ih =>
    unfold insertBy; split
    · exact List.mem_cons
    · simp only [List.mem_cons, ih]
      tauto

theorem mem_sortBy {α : Type} {le : α → α → Bool} {y : α} (l : List α) : y ∈ sortBy le l ↔ y ∈ l := by
  induction l with
  | nil => rfl
  | cons x rest ih => rw [sortBy, mem_insertBy, ih, List.mem_cons]

section
variable {b : Block} {r : Radio}

/-- The time of a round has not passed since the last. -/
def Block.roundEarly (b : Block) (r : Radio) : Prop :=
  ∃ e, assocGet b.mac.roundAt (radioNum r) = some e ∧ b.now < e + ms (b.get Obj.roundTime)

theorem Block.roundEarly_iff :
    (assocGet b.mac.roundAt (radioNum r)).any (fun t => decide (b.now < t + ms (b.get Obj.roundTime))) = true ↔ b.roundEarly r := by
  simp [Block.roundEarly, Option.any_eq_true]

theorem Block.roundStart_of_not (h : r = .l ∨ b.radioOn r = false ∨ b.roundEarly r) : b.roundStart r = b := by
  refine if_pos ?_
  rw [Bool.or_eq_true, Bool.or_eq_true, Block.roundEarly_iff]
  simpa [or_assoc] using h

theorem Block.roundStart_of_due (hl : r ≠ .l) (hon : b.radioOn r = true) (hdue : ¬ b.roundEarly r) :
    b.roundStart r = (b.modMac fun m => { m with
        down := m.down.set (radioNum r) (b.candidates r).1, up := m.up.set (radioNum r) (b.candidates r).2
        roundAt := assocPut m.roundAt (radioNum r) b.now }).emit
      (.radio r 15 ((b.candidates r).1 ++ [65535] ++ (b.candidates r).2)) := by
  refine if_neg ?_
  rw [Bool.or_eq_true, Bool.or_eq_true, Block.roundEarly_iff]
  simpa [hl, hon] using hdue

theorem Block.mem_candidates (k : Nat) :
    (k ∈ (b.candidates r).1 ↔ k ∈ b.listedRows Obj.staState ∧ b.eligible r k = true ∧ b.staDemand k ≠ 0) ∧
    (k ∈ (b.candidates r).2 ↔ k ∈ b.listedRows Obj.staState ∧ b.eligible r k = true ∧ assocNat b.mac.reports k ≠ 0) := by
  simp [Block.candidates, Block.byAge, mem_sortBy, and_assoc]

/-! ### Associations (R216, R227) -/

/-- Joining the lists of a round changes the lists alone. -/
structure Joins (b c : Block) : Prop where
  regs : c.regs = b.regs
  outs : c.outs = b.outs
  uapsd : c.mac.uapsd = b.mac.uapsd
  heardSta : c.mac.heardSta = b.mac.heardSta
  inSp : c.mac.inSp = b.mac.inSp

theorem Block.joinLists_joins (b : Block) (row : Nat) : Joins b (b.joinLists row) := by
  unfold Block.joinLists; dsimp only; split <;> exact ⟨rfl, rfl, rfl, rfl, rfl⟩

theorem Joins.get {b c : Block} (h : Joins b c) (q : Reg) (k : Nat) : c.get q k = b.get q k := by
  unfold Block.get; rw [h.regs]

section
variable {bss addr : Nat} (uapsd : Bool)

theorem Block.assocRequest_of_unserved (h : b.bssServed r bss = false) : b.assocRequest r bss addr uapsd = b := by
  simp [Block.assocRequest, h]

variable (hserved : b.bssServed r bss = true)
include hserved

theorem Block.assocRequest_of_drain (hd : b.mode.drain ≠ none) :
    b.assocRequest r bss addr uapsd = b.emit (.radio r 8 [bss, addr, 17]) := by
  simp [Block.assocRequest, hserved, Option.isSome_iff_ne_none.mpr hd]

variable (hd : b.mode.drain = none) (hnew : ∀ k ∈ b.listedRows Obj.staState, b.get Obj.staAddr k ≠ addr)
include hd hnew

/-- The row that an admitted station takes, before it is associated. -/
def Block.withStation (b : Block) (r : Radio) (bss addr row : Nat) (uapsd : Bool) : Block :=
  (((((b.put Obj.staState 1 row).put Obj.staRadioBss (16 * radioNum r + bss) row).put Obj.staAddr addr row).put
    Obj.staAid (row + 1) row).hearSta row b.now |>.modMac fun m =>
      { m with uapsd := m.uapsd.filter (· != row) ++ if uapsd then [row] else [] }).emit
    (.radio r 8 [bss, addr, 0, b.ampduExponent])

theorem Block.assocRequest_of_new : b.assocRequest r bss addr uapsd =
    (let free := (List.range 512).find? fun x => !b.staUsed x
     if !b.admits r bss || free.isNone then (b.add Obj.admitRefused).emit (.radio r 8 [bss, addr, 17])
     else
       let y := b.withStation r bss addr (free.getD 0) uapsd
       if b.get (Obj.bssAkm.of r) bss = 0 then y.associate (free.getD 0) else y.keyBound (free.getD 0)) := by
  have hnone : (b.listedRows Obj.staState).find? (fun x => b.get Obj.staAddr x == addr) = none :=
    List.find?_eq_none.mpr fun k hk => by simpa using hnew k hk
  unfold Block.assocRequest
  rw [hserved, hd, hnone]
  rfl

theorem Block.assocRequest_of_refused (h : b.admits r bss = false ∨ ∀ k < 512, b.staUsed k = true) :
    b.assocRequest r bss addr uapsd = (b.add Obj.admitRefused).emit (.radio r 8 [bss, addr, 17]) := by
  rw [Block.assocRequest_of_new uapsd hserved hd hnew]
  refine if_pos ?_
  rcases h with h | h
  · simp [h]
  · have hfull : (List.range 512).find? (fun x => !b.staUsed x) = none :=
      List.find?_eq_none.mpr fun k hk => by simp [h k (List.mem_range.mp hk)]
    rw [hfull]
    simp

theorem Block.assocRequest_of_admitted {row : Nat} (hadmits : b.admits r bss = true) (hrow : row < 512)
    (hfree : b.staUsed row = false) (hlow : ∀ k < row, b.staUsed k = true) : b.assocRequest r bss addr uapsd =
      (if b.get (Obj.bssAkm.of r) bss = 0 then (b.withStation r bss addr row uapsd).associate row
       else (b.withStation r bss addr row uapsd).keyBound row) := by
  have hfirst : (List.range 512).find? (fun x => !b.staUsed x) = some row := by
    rw [List.find?_range_eq_some]
    exact ⟨by simp [hfree], List.mem_range.mpr hrow, fun k hk => by simp [hlow k hk]⟩
  rw [Block.assocRequest_of_new uapsd hserved hd hnew, hfirst]
  simp [hadmits]

end

/-- From one block to another what an admission has written stands: the answers, the row's address, identifier and BSS, its
U-APSD and when it was heard. -/
structure Seated (row : Nat) (b c : Block) : Prop where
  outs : c.outs = b.outs
  addr : c.get Obj.staAddr row = b.get Obj.staAddr row
  aid : c.get Obj.staAid row = b.get Obj.staAid row
  radioBss : c.get Obj.staRadioBss row = b.get Obj.staRadioBss row
  uapsd : c.mac.uapsd = b.mac.uapsd
  heardSta : c.mac.heardSta = b.mac.heardSta

/-- What an association changes beside the lists of a round. -/
def Block.stationCounted (b : Block) (row : Nat) : Block :=
  (b.put Obj.staState 2 row).add (Obj.bssStations.of (b.staRadio row)) 1 (b.get Obj.staRadioBss row % 16)

theorem Block.associate_joins (b : Block) (row : Nat) : Joins (b.stationCounted row) (b.associate row) :=
  Block.joinLists_joins _ row

section
variable {row : Nat} (hrow : row < 512)
include hrow

theorem Block.get_stationCounted {q : Reg} (hstate : q.idx * 256 + q.sub ≠ Obj.staState.idx * 256 + Obj.staState.sub)
    (hcount : ∀ x, q.idx * 256 + q.sub ≠ (Obj.bssStations.of x).idx * 256 + (Obj.bssStations.of x).sub) :
    (b.stationCounted row).get q row = b.get q row := by
  have hbss := Nat.mod_lt (b.get Obj.staRadioBss row) (show 0 < 16 by decide)
  calc (b.stationCounted row).get q row = (b.put Obj.staState 2 row).get q row :=
        Block.get_add_ne _ _ (Reg.key_ne (hcount _) (by omega) (by omega))
    _ = b.get q row := Block.get_put_ne _ _ (Reg.key_ne_same_row row hstate)

theorem Block.stationCounted_state : (b.stationCounted row).get Obj.staState row = 2 := by
  have hbss := Nat.mod_lt (b.get Obj.staRadioBss row) (show 0 < 16 by decide)
  calc (b.stationCounted row).get Obj.staState row = (b.put Obj.staState 2 row).get Obj.staState row :=
        Block.get_add_ne _ _ (Reg.key_ne (by cases b.staRadio row <;> decide) (by omega) (by omega))
    _ = 2 := Block.get_put_same _ _ _ _

theorem Block.associate_seated (b : Block) : Seated row b (b.associate row) := by
  obtain h := b.associate_joins row
  have hget {q : Reg} (hstate : q.idx * 256 + q.sub ≠ Obj.staState.idx * 256 + Obj.staState.sub)
      (hcount : ∀ x, q.idx * 256 + q.sub ≠ (Obj.bssStations.of x).idx * 256 + (Obj.bssStations.of x).sub) :=
    (h.get q row).trans (Block.get_stationCounted (b := b) hrow hstate hcount)
  exact ⟨h.outs, hget (by decide) (fun x => by cases x <;> decide), hget (by decide) (fun x => by cases x <;> decide),
    hget (by decide) (fun x => by cases x <;> decide), h.uapsd, h.heardSta⟩

theorem Block.keyBound_seated (b : Block) : Seated row b (b.keyBound row) := by
  have hrefl : Seated row b b := ⟨rfl, rfl, rfl, rfl, rfl, rfl⟩
  unfold Block.keyBound; repeat' split
  · exact b.associate_seated hrow
  all_goals exact hrefl

end

/-! What the admitted row holds. -/

section
variable {bss addr row : Nat} (uapsd : Bool)

theorem Block.withStation_get {q : Reg} {k : Nat} (h : ∀ x ∈ [Obj.staState, Obj.staRadioBss, Obj.staAddr, Obj.staAid],
    q.key k ≠ x.key row) : (b.withStation r bss addr row uapsd).get q k = b.get q k := by
  simp only [List.mem_cons, List.not_mem_nil, or_false, forall_eq_or_imp, forall_eq] at h
  obtain ⟨h1, h2, h3, h4⟩ := h
  calc (b.withStation r bss addr row uapsd).get q k
      = ((((b.put Obj.staState 1 row).put Obj.staRadioBss (16 * radioNum r + bss) row).put Obj.staAddr addr row).put
          Obj.staAid (row + 1) row).get q k := rfl
    _ = b.get q k := by rw [Block.get_put_ne _ _ h4, Block.get_put_ne _ _ h3, Block.get_put_ne _ _ h2, Block.get_put_ne _ _ h1]

theorem Block.withStation_row : let y := b.withStation r bss addr row uapsd
    y.get Obj.staState row = 1 ∧ y.get Obj.staRadioBss row = 16 * radioNum r + bss ∧ y.get Obj.staAddr row = addr ∧
      y.get Obj.staAid row = row + 1 := by
  have hne {q x : Reg} (h : q.idx * 256 + q.sub ≠ x.idx * 256 + x.sub) (c : Block) (v : Nat) :
      (c.put x v row).get q row = c.get q row := Block.get_put_ne c v (Reg.key_ne_same_row row h)
  have hput (q : Reg) : (b.withStation r bss addr row uapsd).get q row = ((((b.put Obj.staState 1 row).put Obj.staRadioBss
      (16 * radioNum r + bss) row).put Obj.staAddr addr row).put Obj.staAid (row + 1) row).get q row := rfl
  refine ⟨?_, ?_, ?_, (hput _).trans (Block.get_put_same _ _ _ _)⟩
  · rw [hput, hne (by decide), hne (by decide), hne (by decide), Block.get_put_same]
  · rw [hput, hne (by decide), hne (by decide), Block.get_put_same]
  · rw [hput, hne (by decide), Block.get_put_same]

theorem Block.withStation_mac : let y := b.withStation r bss addr row uapsd
    (row ∈ y.mac.uapsd ↔ uapsd = true) ∧ assocGet y.mac.heardSta row = some b.now := by
  refine ⟨?_, assocGet_put_same _ _ _⟩
  show row ∈ b.mac.uapsd.filter (· != row) ++ (if uapsd then [row] else []) ↔ uapsd = true
  cases uapsd <;> simp

/-- A station's row does not bind a context. -/
theorem Block.withStation_boundCtx (kind who : Nat) :
    (b.withStation r bss addr row uapsd).boundCtx kind who = b.boundCtx kind who := by
  have hget (k : Nat) : (b.withStation r bss addr row uapsd).get Obj.ctxBind k = b.get Obj.ctxBind k :=
    Block.get_of_stored rfl rfl rfl k
  unfold Block.boundCtx; simp only [hget]; rfl

theorem Block.keyBound_of_unbound {b : Block} {row : Nat} (h : b.boundCtx 1 row = none) : b.keyBound row = b := by
  unfold Block.keyBound; rw [h]; simp

variable (hr : r ≠ .l) (hbss : bss < 16) (hrow : row < 512)
include hr hbss hrow

/-- With AKM 0 the admitted station is associated, and its BSS counts it. -/
theorem Block.withStation_associate : let x := (b.withStation r bss addr row uapsd).associate row
    x.get Obj.staState row = 2 ∧
      x.get (Obj.bssStations.of r) bss = (Obj.bssStations.of r).raised (b.get (Obj.bssStations.of r) bss + 1) := by
  set y := b.withStation r bss addr row uapsd with hy
  have hjoins := y.associate_joins row
  obtain ⟨-, hplace, -, -⟩ := Block.withStation_row (b := b) (r := r) (bss := bss) (addr := addr) (row := row) uapsd
  rw [← hy] at hplace
  have hradio : y.staRadio row = r := by
    unfold Block.staRadio; rw [hplace]
    cases r <;> simp_all [radioNum]
  have hmod : y.get Obj.staRadioBss row % 16 = bss := by omega
  have hcounted : y.stationCounted row = (y.put Obj.staState 2 row).add (Obj.bssStations.of r) 1 bss := by
    unfold Block.stationCounted; rw [hradio, hmod]
  have hkey : (Obj.bssStations.of r).key bss ≠ Obj.staState.key row :=
    Reg.key_ne (by cases r <;> decide) (by omega) (by omega)
  have hcount : (y.put Obj.staState 2 row).get (Obj.bssStations.of r) bss = b.get (Obj.bssStations.of r) bss := by
    rw [Block.get_put_ne _ _ hkey]
    refine Block.withStation_get uapsd fun x hx => ?_
    simp only [List.mem_cons, List.not_mem_nil, or_false] at hx
    rcases hx with rfl | rfl | rfl | rfl <;> exact Reg.key_ne (by cases r <;> decide) (by omega) (by omega)
  refine ⟨(hjoins.get _ _).trans (y.stationCounted_state hrow), ?_⟩
  rw [hjoins.get, hcounted, Block.get_add_same, hcount]

end

theorem Block.bssServed_bounds {bss : Nat} (h : b.bssServed r bss = true) : r ≠ .l ∧ bss < 16 := by
  simp only [Block.bssServed, Bool.and_eq_true, decide_eq_true_eq, bne_iff_ne] at h
  obtain ⟨⟨⟨⟨hbss, hl⟩, -⟩, -⟩, -⟩ := h
  exact ⟨hl, hbss⟩

/-- An admitted station is in the lowest free row: associated with AKM 0, else waiting for its key. -/
theorem Block.assocRequest_admits {bss addr row : Nat} (uapsd : Bool) (hserved : b.bssServed r bss = true)
    (hd : b.mode.drain = none) (hnew : ∀ k ∈ b.listedRows Obj.staState, b.get Obj.staAddr k ≠ addr)
    (hadmits : b.admits r bss = true) (hrow : row < 512) (hfree : b.staUsed row = false)
    (hlow : ∀ k < row, b.staUsed k = true) : let x := b.assocRequest r bss addr uapsd
    x.outs = b.outs ++ [.radio r 8 [bss, addr, 0, b.ampduExponent]] ∧ x.get Obj.staAddr row = addr ∧
    x.get Obj.staAid row = row + 1 ∧ x.get Obj.staRadioBss row = 16 * radioNum r + bss ∧
    (row ∈ x.mac.uapsd ↔ uapsd = true) ∧ assocGet x.mac.heardSta row = some b.now ∧
    (b.get (Obj.bssAkm.of r) bss = 0 → x.get Obj.staState row = 2 ∧
      x.get (Obj.bssStations.of r) bss = (Obj.bssStations.of r).raised (b.get (Obj.bssStations.of r) bss + 1)) ∧
    (b.get (Obj.bssAkm.of r) bss ≠ 0 → b.boundCtx 1 row = none → x.get Obj.staState row = 1) := by
  intro x
  obtain ⟨hl, hbss⟩ := Block.bssServed_bounds hserved
  set y := b.withStation r bss addr row uapsd with hy
  obtain ⟨hstate, hplace, haddr, haid⟩ : _ ∧ _ ∧ _ ∧ _ :=
    Block.withStation_row (b := b) (r := r) (bss := bss) (addr := addr) (row := row) uapsd
  obtain ⟨huapsd, hheard⟩ : _ ∧ _ := Block.withStation_mac (b := b) (r := r) (bss := bss) (addr := addr) (row := row) uapsd
  have hx : x = if b.get (Obj.bssAkm.of r) bss = 0 then y.associate row else y.keyBound row :=
    Block.assocRequest_of_admitted uapsd hserved hd hnew hadmits hrow hfree hlow
  have hseat : Seated row y x := by
    rw [hx]; split
    · exact y.associate_seated hrow
    · exact y.keyBound_seated hrow
  refine ⟨hseat.outs, hseat.addr.trans haddr, hseat.aid.trans haid, hseat.radioBss.trans hplace,
    by rw [hseat.uapsd]; exact huapsd, by rw [hseat.heardSta]; exact hheard, fun hakm => ?_, fun hakm hctx => ?_⟩
  · rw [hx, if_pos hakm]
    exact Block.withStation_associate uapsd hl hbss hrow
  · rw [hx, if_neg hakm, Block.keyBound_of_unbound ((Block.withStation_boundCtx uapsd 1 row).trans hctx)]
    exact hstate

/-! ### Probe requests (R227) -/

/-- A BSS answers a probe request for a name. -/
def Block.answersProbe (b : Block) (r : Radio) (ssid len bss : Nat) : Bool :=
  b.bssServed r bss && (if len = 0 then !b.is (Obj.bssHideSsid.of r) bss
    else b.get (Obj.bssSsidLen.of r) bss == len &&
      b.get (Obj.bssSsid.of r) bss / 256 ^ (32 - b.get (Obj.bssSsidLen.of r) bss) == ssid)

theorem Block.foldl_emit_if (p : Nat → Bool) (o : Nat → Out) (l : List Nat) (b : Block) :
    l.foldl (fun c k => if p k then c.emit (o k) else c) b = { b with outs := b.outs ++ (l.filter p).map o } := by
  induction l generalizing b with
  | nil => simp
  | cons k rest ih =>
    rw [List.foldl_cons, ih]
    cases hp : p k <;> simp [hp, Block.emit]

/-- The answers to a probe request. -/
def Block.probeAnswers (b : Block) (r : Radio) (ssid len : Nat) : List Out :=
  ((List.range 16).filter (b.answersProbe r ssid len)).map fun bss => .radio r 9 [bss, b.ampduExponent]

theorem Block.probeRequest_eq (ssid len : Nat) : b.probeRequest r ssid len =
    { b with outs := b.outs ++ b.probeAnswers r ssid len } :=
  Block.foldl_emit_if (b.answersProbe r ssid len) _ _ b

theorem Block.answersProbe_iff {ssid len bss : Nat} : b.answersProbe r ssid len bss = true ↔
    b.bssServed r bss = true ∧
      if len = 0 then b.is (Obj.bssHideSsid.of r) bss = false
      else b.get (Obj.bssSsidLen.of r) bss = len ∧ b.get (Obj.bssSsid.of r) bss / 256 ^ (32 - len) = ssid := by
  unfold Block.answersProbe; rw [Bool.and_eq_true]
  refine and_congr_right fun _ => ?_
  split
  · simp
  · rw [Bool.and_eq_true, beq_iff_eq, beq_iff_eq]
    exact and_congr_right fun hlen => by rw [hlen]

/-! ### Target wake times (R218) -/

section
variable {row sp : Nat}

theorem Block.twtSetup_of_unassociated {broadcast : Bool} (h : b.get Obj.staState row ≠ 2) :
    b.twtSetup row sp broadcast = b := if_neg h

variable (h : b.get Obj.staState row = 2)
include h

theorem Block.twtSetup_of_broadcast : b.twtSetup row sp true =
    (b.put Obj.staPsState 4 row).emit (.radio (b.staRadio row) 10 [row, 2, 0]) := by
  simp [Block.twtSetup, h]

theorem Block.twtSetup_of_accepted (hon : b.is Obj.twtEnable = true) (hmin : b.get Obj.twtMinSp ≤ sp) :
    b.twtSetup row sp false = ((b.modMac fun m => { m with twt := assocPut m.twt row sp }).put Obj.staPsState 3 row).emit
      (.radio (b.staRadio row) 10 [row, 1, sp]) := by
  simp [Block.twtSetup, h, hon, hmin]

theorem Block.twtSetup_of_dictated (hno : ¬ (b.is Obj.twtEnable = true ∧ b.get Obj.twtMinSp ≤ sp)) :
    b.twtSetup row sp false = b.emit (.radio (b.staRadio row) 10 [row, 0, b.get Obj.twtMinSp]) := by
  unfold Block.twtSetup; rw [if_pos h]
  have hnot : ¬ (b.is Obj.twtEnable && decide (b.get Obj.twtMinSp ≤ sp)) = true := by simpa using hno
  exact (if_neg Bool.false_ne_true).trans (if_neg hnot)

end

section
variable {row sp : Nat}

theorem Block.twt_of_none (h : assocGet b.mac.twt row = none) (attended : Bool) :
    b.twtLeadStart row = b ∧ b.twtSpStart row attended = b := by
  simp [Block.twtLeadStart, Block.twtSpStart, h]

theorem Block.twtLeadStart_joins (h : assocGet b.mac.twt row = some sp) :
    Joins (b.modMac fun m => { m with inSp := assocPut m.inSp row (b.now + us (b.get Obj.twtLead) + us sp) })
      (b.twtLeadStart row) := by
  unfold Block.twtLeadStart; rw [h]
  exact Block.joinLists_joins _ row

theorem Block.twtSpStart_of_some (h : assocGet b.mac.twt row = some sp) (attended : Bool) :
    (b.twtSpStart row attended).regs = b.regs ∧
    assocGet (b.twtSpStart row attended).mac.inSp row = some (b.now + us sp) ∧
    (attended = true → assocGet (b.twtSpStart row attended).mac.heardSta row = some b.now) := by
  have hjoins := Block.joinLists_joins (b.modMac fun m => { m with inSp := assocPut m.inSp row (b.now + us sp) }) row
  have hin := (congrArg (assocGet · row) hjoins.inSp).trans (assocGet_put_same _ _ _)
  unfold Block.twtSpStart; rw [h]
  cases attended
  · exact ⟨hjoins.regs, hin, nofun⟩
  · exact ⟨hjoins.regs, hin, fun _ => assocGet_put_same _ _ _⟩

end

/-! ### Beacons (R227) -/

section
variable {bss : Nat} {beacon : Ppdu}

/-- A BSS's beacon is due: served, at its TBTT, and not sent at this one yet. -/
def Block.beaconDue (b : Block) (r : Radio) (bss : Nat) : Prop :=
  b.bssServed r bss = true ∧ b.tbttNow r bss = true ∧ assocGet b.mac.tbtts (16 * radioNum r + bss) ≠ some b.tsf

theorem Block.beaconDue_iff : (b.bssServed r bss && b.tbttNow r bss &&
    assocGet b.mac.tbtts (16 * radioNum r + bss) != some b.tsf) = true ↔ b.beaconDue r bss := by
  simp [Block.beaconDue, and_assoc]

theorem Block.tbtt_of_not (h : ¬ b.beaconDue r bss) : b.tbtt r bss beacon = b :=
  if_neg (mt Block.beaconDue_iff.mp h)

theorem Block.tbtt_of_due (h : b.beaconDue r bss) : b.tbtt r bss beacon =
    (b.modMac fun m => { m with tbtts := assocPut m.tbtts (16 * radioNum r + bss) b.tsf }).sendOwn r
      { what := .beacon bss, ppdu := beacon, power := ownPower, noAck := true } :=
  if_pos (Block.beaconDue_iff.mpr h)

theorem Block.sendOwn_radio (hn : b.radios.length = 3) (c : TxCmd) :
    if (b.radio r).phase = .idle then ((b.sendOwn r c).radio r).cmd = some c ∧ ((b.sendOwn r c).radio r).phase = .waiting
    else ((b.sendOwn r c).radio r).own = (b.radio r).own ++ [c] := by
  unfold Block.sendOwn; split
  · rw [Block.radio_takeCmd hn]
    exact ⟨rfl, rfl⟩
  · rw [Block.radio_modRadio_same hn]

end

/-- A beacon that is due is taken up at once, or waits behind the command under way. -/
theorem Block.tbtt_radio {bss : Nat} {beacon : Ppdu} (h : b.beaconDue r bss) (hn : b.radios.length = 3) :
    let c : TxCmd := { what := .beacon bss, ppdu := beacon, power := ownPower, noAck := true }
    if (b.radio r).phase = .idle then ((b.tbtt r bss beacon).radio r).cmd = some c ∧
      ((b.tbtt r bss beacon).radio r).phase = .waiting
    else ((b.tbtt r bss beacon).radio r).own = (b.radio r).own ++ [c] := by
  rw [Block.tbtt_of_due h]
  exact Block.sendOwn_radio (b := b.modMac _) hn _

/-! ### Writes of KICK and ENABLE (R223, R227) -/

section
variable {row : Nat}

theorem Block.writeKick_of_unused (h : b.staUsed row = false) : b.writeKick row 1 = (9, b) := by
  simp [Block.writeKick, h]

theorem Block.writeKick_of_used (h : b.staUsed row = true) : b.writeKick row 1 = (0, b.departStation row) := by
  simp [Block.writeKick, h]

/-- Another enabled BSS has an address. -/
def Block.bssidTwice (b : Block) (r : Radio) (row : Nat) : Bool :=
  [Radio.h, Radio.m].any fun q => (List.range 16).any fun k =>
    !(q == r && k == row) && b.is (Obj.bssEnable.of q) k && b.get (Obj.bssBssid.of q) k == b.get (Obj.bssBssid.of r) row

theorem Block.writeBssEnable_of_incomplete (h : b.get (Obj.bssBssid.of r) row = 0 ∨ b.bssidTwice r row = true ∨
    b.get (Obj.bssSsidLen.of r) row = 0) : b.writeBssEnable r row 1 = (6, b) := by
  unfold Block.writeBssEnable; rw [if_neg Nat.one_ne_zero]; refine if_pos ?_
  rw [Bool.or_eq_true, Bool.or_eq_true, Bool.or_eq_true]
  rcases h with h | h | h
  · exact .inl (.inl (.inl (by simpa using h)))
  · exact .inl (.inl (.inr h))
  · exact .inl (.inr (by simpa using h))

theorem Block.writeBssEnable_of_complete (hid : b.get (Obj.bssBssid.of r) row ≠ 0) (htwice : b.bssidTwice r row = false)
    (hlen : b.get (Obj.bssSsidLen.of r) row ≠ 0) (hakm : b.get (Obj.bssAkm.of r) row = 0) :
    b.writeBssEnable r row 1 = (0, b.put (Obj.bssEnable.of r) 1 row) := by
  unfold Block.writeBssEnable; rw [if_neg Nat.one_ne_zero]; refine if_neg ?_
  rw [Bool.not_eq_true, Bool.or_eq_false_iff, Bool.or_eq_false_iff, Bool.or_eq_false_iff]
  exact ⟨⟨⟨by simpa using hid, htwice⟩, by simpa using hlen⟩, by simp [hakm]⟩

theorem Block.bssidTwice_of_other {q : Radio} {k : Nat} (hq : q ≠ .l) (hk : k < 16) (hne : (q, k) ≠ (r, row))
    (hon : b.is (Obj.bssEnable.of q) k = true) (hid : b.get (Obj.bssBssid.of q) k = b.get (Obj.bssBssid.of r) row) :
    b.bssidTwice r row = true := by
  have hmem : q ∈ [Radio.h, Radio.m] := by cases q <;> simp_all
  have hother : (q == r && k == row) = false := by
    rw [Bool.and_eq_false_iff, beq_eq_false_iff_ne, beq_eq_false_iff_ne]
    exact not_and_or.mp fun ⟨hr, hrow⟩ => hne (Prod.ext hr hrow)
  exact List.any_eq_true.mpr ⟨q, hmem, List.any_eq_true.mpr ⟨k, List.mem_range.mpr hk, by simp [hother, hon, hid]⟩⟩

theorem Block.bssidTwice_of_none_enabled (h : ∀ q k, q ≠ .l → k < 16 → b.is (Obj.bssEnable.of q) k = false) :
    b.bssidTwice r row = false := by
  refine List.any_eq_false.mpr fun q hq => ?_
  have hl : q ≠ .l := by rintro rfl; simp at hq
  rw [Bool.not_eq_true]
  refine List.any_eq_false.mpr fun k hk => ?_
  simp [h q k hl (List.mem_range.mp hk)]

/-- A BSS that is disabled has no station left. -/
theorem Block.writeBssEnable_zero (b : Block) (hrow : row < 16) : (b.writeBssEnable r row 0).1 = 0 ∧
    (b.writeBssEnable r row 0).2.get (Obj.bssEnable.of r) row = 0 ∧
    ∀ k < 512, b.get Obj.staRadioBss k = 16 * radioNum r + row → (b.writeBssEnable r row 0).2.get Obj.staState k = 0 := by
  refine ⟨rfl, Block.get_put_same _ _ _ _, fun k hk hbss => ?_⟩
  set rows := (b.listedRows Obj.staState).filter fun x => b.get Obj.staRadioBss x == 16 * radioNum r + row with hrows
  have hlt : ∀ x ∈ rows, x < 1048576 := fun x hx => Block.lt_of_mem_listedRows (List.mem_of_mem_filter hx)
  calc (b.writeBssEnable r row 0).2.get Obj.staState k
      = ((rows.foldl Block.departStation b).put (Obj.bssEnable.of r) 0 row).get Obj.staState k := rfl
    _ = (rows.foldl Block.departStation b).get Obj.staState k :=
        Block.get_put_ne _ _ (Reg.key_ne (by cases r <;> decide) (by omega) (by omega))
    _ = 0 := by
        refine Block.foldl_departStation_free (by omega) rows hlt b ?_
        by_cases hlisted : k ∈ b.listedRows Obj.staState
        · exact .inl (List.mem_filter.mpr ⟨hlisted, by simp [hbss]⟩)
        · exact .inr (Block.get_of_not_listed rfl (by omega) hlisted)

end

end

/-- An object of the device is found at its index. -/
theorem Block.find_of_device (b : Block) {idx sub : Nat} {q : Reg} (hdevice : idx < 0xA000) (hsub : sub ≠ 0)
    (h : (deviceRegs idx).find? (fun r => r.sub == sub) = some q) : b.find idx sub = .ok q := by
  have hregs : b.regsAt idx = deviceRegs idx := if_neg (by simp [Nat.not_le.mpr hdevice])
  unfold Block.find; rw [hregs]
  cases hl : deviceRegs idx with
  | nil => rw [hl] at h; contradiction
  | cons x rest =>
    rw [hl] at h
    simp only [if_neg hsub, h]

theorem Block.find_bssEnable (b : Block) (hl : r ≠ .l) :
    b.find (Obj.bssEnable.of r).idx (Obj.bssEnable.of r).sub = .ok (Obj.bssEnable.of r) := by
  cases r with
  | h => exact b.find_of_device (by decide) (by decide) (by decide +kernel)
  | m => exact b.find_of_device (by decide) (by decide) (by decide +kernel)
  | l => exact absurd rfl hl

theorem Block.writeRadio_bssEnable (b : Block) (hl : r ≠ .l) (k v : Nat) :
    b.writeRadio (Obj.bssEnable.of r) (radioNum r) k v = b.writeBssEnable r k v := by
  have hidx : (Obj.bssEnable.of r).idx - 0x400 * radioNum r = 0x2040 := by cases r <;> decide
  have hradio : radioAt (radioNum r) = r := by cases r <;> rfl
  have hnot : radioNum r ≠ 2 := by cases r <;> simp_all [radioNum]
  unfold Block.writeRadio
  rw [hidx, hradio]
  exact if_neg hnot

theorem Block.applyWrite_bssEnable (b : Block) (p : Port) (hl : r ≠ .l) (k v : Nat) :
    b.applyWrite p (Obj.bssEnable.of r) k v = b.writeBssEnable r k v := by
  have hradio : radioOfIdx (Obj.bssEnable.of r).idx = radioNum r := by cases r <;> decide
  unfold Block.applyWrite
  rw [if_neg (by cases r <;> decide), if_neg (by cases r <;> decide), if_neg (by cases r <;> decide),
    if_pos (by cases r <;> decide), hradio, Block.writeRadio_bssEnable b hl]

theorem State.actWrite_bssEnable (s : State) (p : Port) (hl : r ≠ .l) (k v : Nat) :
    s.actWrite p v .plain (Obj.bssEnable.of r) k = s.lift (s.blk.writeBssEnable r k v) := by
  rw [← Block.applyWrite_bssEnable s.blk p hl]
  refine s.anyWrite_of_block p v k ?_
  unfold writesInBlock
  cases r <;> decide

/-! ### The statement -/

/-- Settles O47: each command by its operation in the case that the statement names, a write by the operation behind
its object. -/
theorem stationsAssociateAndDepart : Obligations.StationsAssociateAndDepart := by
  unfold Obligations.StationsAssociateAndDepart
  refine ⟨fun s t row r hf => ?_, fun s t row v p r => ⟨fun hl => ?_, ?_⟩, fun w row r =>
    ⟨fun h => ?_, fun hused hrow => ?_, fun hl hrow => ?_⟩⟩
  · intro b
    refine ⟨⟨fun h => ?_, fun hl hon hdue => ?_⟩, fun k => Block.mem_candidates k, fun bss addr uapsd => ?_, fun h => ?_,
      fun h hrow => ?_, fun ssid len => ?_, fun sp broadcast h => ?_, fun sp h => ⟨?_, fun hok => ?_, fun hno => ?_⟩,
      fun att h => ?_, fun att sp h => ⟨?_, ?_⟩, fun bss beacon => ⟨fun h => ?_, fun h => ?_⟩⟩
    · exact .of_at rfl hf (Block.roundStart_of_not h)
    · refine .of_at rfl hf ?_
      rw [Block.roundStart_of_due hl hon hdue]
      exact ⟨rfl, rfl, assocGet_put_same _ _ _, rfl, rfl⟩
    · refine ⟨fun h => ?_, fun h hd => ?_, fun h hd hnew => ⟨fun hno => ?_, fun hadmits hrow hfree hlow => ?_⟩⟩
      · exact .of_at rfl hf (Block.assocRequest_of_unserved uapsd h)
      · exact .of_at rfl hf (Block.assocRequest_of_drain uapsd h hd)
      · exact .of_at rfl hf (Block.assocRequest_of_refused uapsd h hd hnew hno)
      · exact .of_at rfl hf (Block.assocRequest_admits uapsd h hd hnew hadmits hrow hfree hlow)
    · exact .of_at rfl hf (Block.departStation_of_unused h)
    · exact .of_at rfl hf (Block.departStation_departed h)
    · refine .of_at rfl hf ?_
      rw [Block.probeRequest_eq]
      refine ⟨rfl, fun bss hbss => ?_⟩
      rw [← Block.answersProbe_iff]
      simp [Block.probeAnswers, hbss, b]
    · exact .of_at rfl hf (Block.twtSetup_of_unassociated h)
    · exact .of_at rfl hf (Block.twtSetup_of_broadcast h)
    · refine .of_at rfl hf ?_
      rw [Block.twtSetup_of_accepted h hok.1 hok.2]
      exact ⟨assocGet_put_same _ _ _, Block.get_put_same _ _ _ _, rfl⟩
    · exact .of_at rfl hf (Block.twtSetup_of_dictated h hno)
    · obtain ⟨hlead, hstart⟩ := Block.twt_of_none h att
      exact ⟨.of_at rfl hf hlead, .of_at rfl hf hstart⟩
    · have hjoins := Block.twtLeadStart_joins h
      exact .of_at rfl hf ⟨hjoins.regs,
        (congrArg (assocGet · row) hjoins.inSp).trans (assocGet_put_same _ _ _)⟩
    · exact .of_at rfl hf (Block.twtSpStart_of_some h att)
    · exact .of_at rfl hf (Block.tbtt_of_not h)
    · exact .of_at rfl hf ⟨Block.tbtt_of_due h, fun hn => Block.tbtt_radio h hn⟩
  · exact .of_object (Obj.bssEnable.of r) rfl (by cases r <;> decide) (by simp) (fun x => x.find_bssEnable hl)
      fun x k => x.actWrite_bssEnable p hl k v
  · exact .of_object Obj.staKick rfl (by decide) (by simp) (fun _ => rfl) fun _ _ => rfl
  · exact Block.writeKick_of_unused h
  · rw [Block.writeKick_of_used hused]
    obtain ⟨hdeparted, hstate⟩ := Block.departStation_departed hused
    exact ⟨rfl, hstate, hdeparted⟩
  · refine ⟨fun h => ?_, fun q k hq hk hne hon hid => ?_, fun hid hlen hakm hoff => ?_, w.writeBssEnable_zero hrow⟩
    · exact Block.writeBssEnable_of_incomplete (h.elim .inl fun h => .inr (.inr h))
    · exact Block.writeBssEnable_of_incomplete (.inr (.inl (Block.bssidTwice_of_other hq hk hne hon hid)))
    · exact Block.writeBssEnable_of_complete hid (Block.bssidTwice_of_none_enabled hoff) hlen hakm

end Sys2Proof.Machine
end

section
/-!
SUPPORT. What the units leave of a block that stands in an odd state, and the statement about cane links, which fails: a
failover takes a frame for one that an unlocked gather does not hold where its MPDU there is resolved (R249, R257).
-/

namespace Sys2Proof.Machine

open Sys2Proof.Claims

/-! ### A block that no unit touches

The effect of a command is followed by what the units do by themselves (`State.settle`). A block that is Off, says that it
drains, has an access under check and sections to load is left so by no unit that does anything: from it the effect is
read back. -/

/-- Off, and said to drain. -/
def offDraining : ModeUnit := { trans := .draining }

/-- The block's mode is that odd one. -/
def Block.Stuck (b : Block) : Prop := b.mode.still = offDraining

/-- A unit has worked: the mode is another, no access is under check, or no section is left to load. -/
def Block.Worked (b : Block) : Prop := ¬ b.Stuck ∨ b.plais.tier = none ∨ b.dram.load = false

/-- From one block to another work is never undone, and the frames stay unless a unit has worked. -/
structure Onward (b c : Block) : Prop where
  worked : b.Worked → c.Worked
  frames : c.Worked ∨ c.frames = b.frames

namespace Onward

theorem refl (b : Block) : Onward b b := ⟨id, .inr rfl⟩

theorem trans {a b c : Block} (h : Onward a b) (k : Onward b c) : Onward a c :=
  ⟨fun ha => k.worked (h.worked ha), k.frames.elim .inl fun hk =>
    h.frames.elim (fun hb => .inl (k.worked hb)) fun hh => .inr (hk.trans hh)⟩

theorem of_worked {b c : Block} (h : c.Worked) : Onward b c := ⟨fun _ => h, .inl h⟩

/-- Nothing that a unit's work shows in is changed. -/
theorem of_eq {b c : Block} (hm : c.mode = b.mode) (ht : c.plais.tier = b.plais.tier) (hl : c.dram.load = b.dram.load)
    (hf : c.frames = b.frames) : Onward b c :=
  ⟨fun h => by unfold Block.Worked Block.Stuck at *; rwa [hm, ht, hl], .inr hf⟩

theorem foldl {α : Type} {f : Block → α → Block} (h : ∀ b x, Onward b (f b x)) (l : List α) (b : Block) :
    Onward b (l.foldl f b) :=
  List.foldlRecOn (motive := Onward b) l f (refl b) fun c hc x _ => hc.trans (h c x)

theorem ite {p : Prop} [Decidable p] {b c d : Block} (hc : p → Onward b c) (hd : ¬ p → Onward b d) :
    Onward b (if p then c else d) := by
  split
  · next h => exact hc h
  · next h => exact hd h

/-- A step that does nothing in the odd mode and leaves any other mode. -/
theorem of_loose {b c : Block} (hstuck : b.Stuck → Onward b c) (hloose : ¬ b.Stuck → c.mode.still = b.mode.still) :
    Onward b c := by
  by_cases h : b.Stuck
  · exact hstuck h
  · exact of_worked (.inl fun hc => h ((hloose h).symm.trans hc))

end Onward

/-! What the odd mode says. -/

section
variable {b : Block} (h : b.Stuck)
include h

theorem Block.Stuck.mode : b.mode.mode = .off := (congrArg (fun m => m.mode) h :)

theorem Block.Stuck.trans : b.mode.trans = .draining := (congrArg (fun m => m.trans) h :)

theorem Block.Stuck.drain : b.mode.drain = none := (congrArg (fun m => m.drain) h :)

theorem Block.Stuck.engine : b.mode.acc.engine = false := (congrArg (fun m => m.acc.engine) h :)

theorem Block.Stuck.portOpen (p : Port) : b.portOpen p = false := by
  simp [Block.portOpen, Block.coreF, h.mode]

theorem Block.Stuck.tschRuns : b.tschRuns = false := by
  simp [Block.tschRuns, Block.baseMode, h.mode, Mode.mains]

theorem Block.Stuck.noticeReply (d : Dest) : b.noticeReply d = none := by
  cases d <;> simp [Block.noticeReply, h.portOpen]

end

theorem Block.worked_of_trans {b : Block} (h : b.mode.trans ≠ .draining) : b.Worked := .inl fun hs => h hs.trans

theorem Block.worked_of_drain {b : Block} {d : Drain} (h : b.mode.drain = some d) : b.Worked :=
  .inl fun hs => nomatch hs.drain.symm.trans h

/-! ### The commit point and the Plais messages of links -/

/-- Whatever the commit point serves it leaves no access under check. -/
theorem State.servePoint_cases (n : Nat) (s : State) : s.servePoint n = s ∨ (s.servePoint n).blk.plais.tier = none := by
  induction n generalizing s with
  | zero => exact .inl rfl
  | succ n ih =>
    unfold State.servePoint; extract_lets held
    split
    · exact .inl rfl
    · extract_lets d t old p now
      have hp : p.tier = none := by
        clear_value d
        unfold p; split
        · split <;> rfl
        · rfl
      refine (ih _).elim (fun hrest => .inr ?_) .inr
      rw [hrest]
      exact hp

theorem Block.setKeyCtx_mode (b : Block) (k : KeyCtx) : (b.setKeyCtx k).mode = b.mode := by
  unfold Block.setKeyCtx; split <;> rfl

theorem Block.takeCounter_mode (b : Block) (row : Nat) : (b.takeCounter row).2.mode = b.mode := by
  unfold Block.takeCounter; split
  · unfold Block.consume; extract_lets last b1 left k
    have h1 : b1.mode = b.mode := by unfold b1; split <;> rfl
    split
    · rw [Block.notice_mode, Block.setKeyCtx_mode, h1]
    · exact h1
  · unfold Block.refuseSeal; extract_lets b1 k
    split
    · rfl
    · rw [Block.notice_mode, Block.setKeyCtx_mode]
      rfl
  · rfl

theorem Block.peerMessage_mode (b : Block) (row type tid : Nat) (body : List Octet) (sec : Bool) (most : Nat) :
    (b.peerMessage row type tid body sec most).2.mode = b.mode := by
  have hcounter := b.takeCounter_mode (b.get Obj.peerCtxTx row)
  unfold Block.peerMessage
  generalize (if sec then 16 else 0) = n
  split
  · rfl
  · split
    · rfl
    · dsimp only
      split
      · next b1 hb1 => rw [hb1] at hcounter; exact hcounter
      · next c b1 hb1 => rw [hb1] at hcounter; exact hcounter

theorem Block.sendReply_mode (b : Block) (to_ : Reply) (row type tid : Nat) (body : List Octet) (sec : Bool) :
    (b.sendReply to_ row type tid body sec).mode = b.mode := by
  unfold Block.sendReply; split
  · rfl
  · unfold Block.sendCan; dsimp only; split
    · rfl
    · refine Block.foldl_mode ?_ _ b
      exact fun _ _ => rfl
  · have hmessage := b.peerMessage_mode row type tid body sec udpMost
    split
    · next m b1 hb1 => rw [hb1] at hmessage; exact hmessage
    · next b1 hb1 => rw [hb1] at hmessage; exact hmessage
  · have hmessage := b.peerMessage_mode row type tid body sec (2 ^ 16 + 31)
    split
    · next m b1 hb1 => rw [hb1] at hmessage; exact hmessage
    · next b1 hb1 => rw [hb1] at hmessage; exact hmessage

/-- A Plais message is handled in the mode that stands, or the commit point serves it. -/
def State.Handled (s t : State) : Prop := t.blk.mode = s.blk.mode ∨ t.blk.plais.tier = none

theorem State.request_handled (s : State) (p : Port) (to_ : Reply) (row : Nat) (h : Header) (body : List Octet)
    (fits : Bool) : s.Handled (s.request p to_ row h body fits) := by
  unfold State.request; split
  · exact .inl (Block.sendReply_mode _ _ _ _ _ _ _)
  · next b _ hjoin =>
    refine .inl ?_
    unfold Block.joinRepeat at hjoin; extract_lets isCopy joined at hjoin
    split at hjoin
    · rw [← Option.some.inj hjoin]
    · cases hjoin
  · split
    · exact .inl (Block.sendReply_mode _ _ _ _ _ _ _)
    · next ops _ =>
      extract_lets w
      rcases State.servePoint_cases _ { s with blk := s.blk.enqueueAsk w } with hpoint | hpoint
      · refine .inl ?_
        unfold State.point; rw [hpoint]
        rfl
      · exact .inr hpoint

theorem State.message_handled (s : State) (p : Port) (to_ : Reply) (row : Nat) (h : Header) (body : List Octet)
    (fits : Bool) : s.Handled (s.message p to_ row h body fits) := by
  unfold State.message; split
  · exact s.request_handled p to_ row h body fits
  · split
    · split
      · exact .inl (Block.sendReply_mode _ _ _ _ _ _ _)
      · split
        · refine .inl ?_
          dsimp only
          unfold Block.noticeAck; extract_lets q left
          split <;> rfl
        · exact .inl rfl
    · exact .inl rfl
  · split
    · exact .inl rfl
    · exact .inl (Block.sendReply_mode _ _ _ _ _ _ _)

theorem Block.authentic_mode {b c : Block} {h : Header} {m body : List Octet} (ha : b.authentic h m = some (body, c)) :
    c.mode = b.mode := by
  unfold Block.authentic at ha; split at ha
  · split at ha
    · cases ha
    · cases ha; rfl
  · split at ha
    · cases ha
    · split at ha
      · cases ha
      · next old _ =>
        obtain ⟨d, hd, hc⟩ := Option.map_eq_some_iff.mp ha
        cases hc
        unfold Block.acceptCounter at hd; extract_lets k at hd
        obtain ⟨a, -, ha'⟩ := Option.map_eq_some_iff.mp hd
        rw [← ha']
        exact Block.setKeyCtx_mode _ _

theorem State.meshMessage_onward (s : State) (link : Nat) (m : List Octet) : Onward s.blk (s.meshMessage link m).blk := by
  unfold State.meshMessage; split
  · exact .refl _
  · next hopen =>
    have hloose : ¬ s.blk.Stuck := fun hs => hopen (by simp [hs.portOpen])
    have hhandled : s.Handled (s.network true (.mesh link) m) := by
      unfold State.network; split
      · exact .inl rfl
      · extract_lets row
        split
        · exact .inl rfl
        · next body b hb =>
          rcases State.message_handled { s with blk := b } (if true then .mesh row else .udp row) (.mesh link) row _ body _
            with hmode | htier
          · exact .inl (hmode.trans (Block.authentic_mode hb))
          · exact .inr htier
    rcases hhandled with hmode | htier
    · exact .of_worked (.inl fun hs => hloose (by unfold Block.Stuck at *; rwa [hmode] at hs))
    · exact .of_worked (.inr (.inl htier))

theorem State.takeInbox_onward (s : State) : Onward s.blk s.takeInbox.blk := by
  have hempty : Onward s.blk { s.blk with inbox := [] } := .of_eq rfl rfl rfl rfl
  refine List.foldlRecOn (motive := fun t : State => Onward s.blk t.blk) s.blk.inbox _ hempty fun t ht x _ => ?_
  exact ht.trans (t.meshMessage_onward x.1 x.2)

theorem State.point_onward (s : State) : Onward s.blk s.point.blk := by
  rcases s.servePoint_cases s.blk.plais.backlog with h | h
  · unfold State.point; rw [h]
    exact .refl _
  · exact .of_worked (.inr (.inl h))

/-! ### Losses and starts -/

theorem State.takeLosses_blk (s : State) : s.takeLosses.blk = { s.blk with losses := [] } := by
  have hregs (t : State) (n : Nat) : (t.clearRegs n).blk = t.blk :=
    List.foldlRecOn (motive := fun x : State => x.blk = t.blk) _ _ rfl
      fun x hx r _ => (x.setReg_blk n r 0).trans hx
  have hloss (t : State) (l : Loss) : (l.engines.foldl State.clearRegs { t with mem := memLose t.mem l }).blk = t.blk :=
    List.foldlRecOn (motive := fun x : State => x.blk = t.blk) _ _ rfl fun x hx n _ => (hregs x n).trans hx
  have hall : (s.blk.losses.foldl (fun (t : State) l =>
      l.engines.foldl State.clearRegs { t with mem := memLose t.mem l }) s).blk = s.blk :=
    List.foldlRecOn (motive := fun x : State => x.blk = s.blk) _ _ rfl fun x hx l _ => (hloss x l).trans hx
  unfold State.takeLosses; dsimp only
  rw [hall]

theorem State.takeLosses_onward (s : State) : Onward s.blk s.takeLosses.blk := by
  rw [s.takeLosses_blk]
  exact .of_eq rfl rfl rfl rfl

theorem State.loadSection_dram (s : State) (base : Nat) (x : Section) : (s.loadSection base x).blk.dram = s.blk.dram := by
  have hmould : (s.loadMould base x).blk.dram = s.blk.dram := by
    refine Block.foldl_same (g := Block.dram) ?_ _ s.blk
    exact fun _ _ => rfl
  unfold State.loadSection; extract_lets s1 im im1 im2 b
  have h1 : s1.blk.dram = s.blk.dram := by
    unfold s1; split
    · exact hmould
    · rfl
  have hb : b.dram = s.blk.dram := h1
  clear_value b
  refine Eq.trans ?_ hb
  dsimp only
  split <;> rfl

/-- A start leaves no section to load. -/
theorem State.loadDram_load (s : State) : s.loadDram.blk.dram.load = false := by
  unfold State.loadDram; split
  · extract_lets base s1
    split
    · have hdram := List.foldlRecOn (motive := fun t : State => t.blk.dram = s1.blk.dram)
        ((s1.sectionsAt base).filter fun x => x.kind == 4) (fun (t : State) x => t.loadSection base x) rfl
        fun t ht x _ => (t.loadSection_dram base x).trans ht
      rw [hdram]
      rfl
    · rfl
  · next h => simpa using h

theorem State.boots_onward (s : State) : Onward s.blk s.boots.blk := by
  unfold State.boots; split
  · exact .refl _
  · refine .of_worked (.inr (.inr ?_))
    rw [State.takeLosses_blk]
    exact State.loadDram_load _

/-! ### Wake events held -/

/-- The block does not say that it drains. -/
def Block.Undrained (b : Block) : Prop := b.mode.trans ≠ .draining

section
variable {b : Block} (h : b.Undrained)
include h

theorem Block.Undrained.of_trans {c : Block} (hc : c.mode.trans = b.mode.trans) : c.Undrained := by
  unfold Block.Undrained; rwa [hc]

theorem Block.Undrained.wakeLatch (bit : Nat) : (b.wakeLatch bit).Undrained := by
  unfold Block.wakeLatch; split
  · exact h
  · split
    · split
      · exact h
      · obtain ⟨-, -, htrans, -⟩ := b.entryAbandon_leaves (2 ^ bit)
        exact fun hd => nomatch htrans.symm.trans hd
    · split
      · exact h
      · split
        · split
          · exact h
          · unfold Block.wakeStart Block.Undrained; extract_lets b1 m
            rw [Block.mainEn_mode]
            exact nofun
        · exact h

theorem Block.Undrained.mainsBack : b.mainsBack.Undrained := by
  unfold Block.mainsBack; split
  · extract_lets t
    split
    · exact h
    · unfold Block.goTo; split
      · exact nofun
      · split
        · exact nofun
        · obtain ⟨-, htrans⟩ := b.moveTo_mode t 2
          exact fun hd => nomatch htrans.symm.trans hd
  · exact h

theorem Block.Undrained.sealBroken (cause : Nat) : (b.sealBroken cause).Undrained := by
  refine h.of_trans ?_
  simp [Block.sealBroken, Block.active]

theorem Block.Undrained.enterMaint : b.enterMaint.Undrained := by
  unfold Block.enterMaint; extract_lets m b0 b1
  have h0 : b0.Undrained := by
    unfold b0; split
    · exact nofun
    · exact h
  have h1 : b1.Undrained := by
    refine h0.of_trans ?_
    unfold b1 Block.modeShift; extract_lets left m' c
    split
    · rfl
    · simp [Block.abandonSummary, c, m']
  split
  · exact h1
  · exact h1

theorem Block.Undrained.pressEvent : b.pressEvent.Undrained := by
  have htold : b.pressTold.Undrained := h.of_trans (by rw [Block.pressTold_mode])
  rw [Block.pressEvent_eq]
  suffices b.pressTold.maintCheck.Undrained from this
  generalize b.pressTold = c at htold
  unfold Block.maintCheck; extract_lets both rise m b1 m1 b2
  have h1 : b1.Undrained := htold
  split
  · split
    · exact h1.enterMaint
    · exact h1.enterMaint
    · exact h1.enterMaint
    · exact h1.enterMaint
    · split
      · exact htold
      · split
        · exact htold
        · exact nofun
    · exact h1
  · exact h1

end

theorem Block.deliverHeld_onward (b : Block) : Onward b b.deliverHeld := by
  unfold Block.deliverHeld; split
  · exact .refl b
  · next hfires =>
    have htrans : b.mode.trans = .none := by
      rw [Bool.or_eq_true, not_or, decide_eq_true_eq, decide_eq_true_eq, not_not] at hfires
      exact hfires.2
    extract_lets held seal_ m b1 b2 b3
    have h1 : b1.Undrained := fun hd => nomatch htrans.symm.trans hd
    have h2 : b2.Undrained := by
      unfold b2; split
      · exact (h1.wakeLatch 3).mainsBack
      · exact h1
    have h3 : b3.Undrained := by
      unfold b3
      clear_value seal_
      split
      · exact (h2.wakeLatch 2).sealBroken _
      · exact h2
    refine .of_worked (Block.worked_of_trans ?_)
    split
    · exact (h3.wakeLatch 1).pressEvent
    · exact h3

/-! ### The units' own work -/

theorem Block.tschSlot_onward (b : Block) : Onward b b.tschSlot := by
  refine .of_loose (fun hs => ?_) fun _ => ?_
  · have hidle : b.tschSlot = b := if_neg (by simp [hs.tschRuns])
    rw [hidle]
    exact .refl b
  · have hdeaf (c : Block) (asn : Nat) : Stands c ((c.cellsPass asn).cellsDeaf asn) := by
      have hpass : Stands c (c.cellsPass asn) := ⟨rfl, rfl, rfl⟩
      refine hpass.trans (Stands.foldl (fun d x => ?_) _ _)
      unfold Block.lostStart
      exact .ite (.refl d) ⟨rfl, rfl, rfl⟩
    refine Stands.mode (b := b) ?_
    unfold Block.tschSlot
    refine .ite ?_ (.refl b)
    extract_lets asn cell b1
    have h1 : Stands b b1 := hdeaf b asn
    clear_value b1 cell
    split
    · refine h1.trans ?_
      unfold Block.goHome
      exact .ite ⟨rfl, rfl, rfl⟩ ⟨rfl, rfl, rfl⟩
    · refine h1.trans ?_
      extract_lets f
      unfold Block.hopTo
      refine .ite ⟨rfl, rfl, rfl⟩ ?_
      refine Stands.after ((Stands.settleOn _ .l f 250).trans (.remelt _ 7 _)) ?_
      exact ⟨rfl, rfl, rfl⟩

theorem Block.drainFlush_onward (b : Block) : Onward b b.drainFlush := by
  cases hd : b.mode.drain with
  | none =>
    have hidle : b.drainFlush = b := by unfold Block.drainFlush; rw [hd]
    rw [hidle]
    exact .refl b
  | some d =>
    refine .of_worked ?_
    cases hg : d.guardAt with
    | none =>
      have hidle : b.drainFlush = b := by unfold Block.drainFlush; rw [hd]; dsimp only; rw [hg]
      rw [hidle]
      exact Block.worked_of_drain hd
    | some g =>
      obtain ⟨hdrain, -⟩ := Block.drainFlush_of_guard hd hg
      exact Block.worked_of_drain hdrain

theorem Block.drainStations_onward (b : Block) : Onward b b.drainStations := by
  cases hd : b.mode.drain with
  | none =>
    have hidle : b.drainStations = b := by unfold Block.drainStations; rw [hd]
    rw [hidle]
    exact .refl b
  | some d => exact .of_worked (Block.worked_of_drain ((congrArg ModeUnit.drain (Releases.drainStations b).mode).trans hd))

theorem Block.passMay_onward (b : Block) : Onward b b.passMay := by
  unfold Block.passMay
  refine .ite (fun hmay => ?_) fun _ => .refl b
  rw [Bool.and_eq_true, decide_eq_true_eq] at hmay
  obtain ⟨-, htrans⟩ := hmay
  refine .of_worked (Block.worked_of_trans ?_)
  have hmode : b.passStart.mode = b.mode := by
    unfold Block.passStart; extract_lets b1
    show b1.mode = b.mode
    unfold b1; split <;> rfl
  rw [hmode, htrans]
  exact nofun

theorem Block.pumpDest_mode (d : Dest) (n : Nat) (b : Block) : (b.pumpDest d n).mode = b.mode := by
  induction n generalizing b with
  | zero => rfl
  | succ n ih =>
    have hsent (c : Block) (to_ : Reply) (x : Notice) : (c.sendNotice d to_ x).mode = c.mode :=
      c.sendReply_mode to_ _ _ _ _ _
    unfold Block.pumpDest; extract_lets q
    split
    · split
      · rfl
      · split
        · split
          · rfl
          · exact hsent _ _ _
        · exact (ih _).trans (hsent _ _ _)
    · rfl

theorem Block.pumpDest_of_stuck {b : Block} (h : b.Stuck) (d : Dest) (n : Nat) : b.pumpDest d n = b := by
  cases n with
  | zero => rfl
  | succ n =>
    unfold Block.pumpDest; rw [h.noticeReply]
    dsimp only
    split <;> simp_all

theorem Block.pump_onward (b : Block) : Onward b b.pump := by
  refine .foldl (fun c d => ?_) _ b
  refine .of_loose (fun hs => ?_) fun _ => by rw [Block.pumpDest_mode]
  rw [Block.pumpDest_of_stuck hs]
  exact .refl c

theorem Block.flowControl_onward (b : Block) (port : Nat) : Onward b (b.flowControl port) := by
  unfold Block.flowControl; extract_lets old new f b1
  have h1 : Onward b b1 := .of_eq rfl rfl rfl rfl
  have hemit (o : Out) : Onward b1 (b1.emit o) := .of_eq rfl rfl rfl rfl
  exact h1.trans (.ite (fun _ => .refl b1) fun _ => .ite (fun _ => hemit _) fun _ => hemit _)

theorem Block.slotStarts_onward (b : Block) : Onward b b.slotStarts := by
  unfold Block.slotStarts
  refine .ite (fun _ => ?_) fun _ => .refl b
  have hmac : Onward b (b.modMac fun m => { m with slotDue := false }) := .of_eq rfl rfl rfl rfl
  exact hmac.trans (Block.tschSlot_onward _)

theorem Block.failoversDone_onward (b : Block) : Onward b b.failoversDone := by
  refine .foldl (fun c k => .foldl (fun d x => ?_) _ c) _ b
  split
  · exact .refl d
  · exact .ite (fun _ => .refl d) fun _ => .of_eq rfl rfl rfl rfl

theorem Block.ppsHold_onward (b : Block) : Onward b b.ppsHold := .ite (fun _ => .of_eq rfl rfl rfl rfl) fun _ => .refl b

theorem Block.holdRow_onward (b : Block) : Onward b b.holdRow := by
  have hput (c : Block) (q : Reg) (v row : Nat) : Onward c (c.put q v row) := .of_eq rfl rfl rfl rfl
  unfold Block.holdRow
  refine .ite (fun _ => .refl b) fun _ => ?_
  extract_lets per from_ next
  exact (((((hput b _ _ _).trans (hput _ _ _ _)).trans (hput _ _ _ _)).trans (hput _ _ _ _)).trans (hput _ _ _ _)).trans
    (hput _ _ _ _)

theorem Block.parentFound_onward (b : Block) : Onward b b.parentFound :=
  .ite (fun _ => .of_eq rfl rfl rfl rfl) fun _ => .refl b

theorem Block.radioAwake_onward (b : Block) (r : Radio) : Onward b (b.radioAwake r) :=
  .ite (fun _ => .of_eq rfl rfl rfl rfl) fun _ => .refl b

theorem Block.selfWork_onward (b : Block) : Onward b b.selfWork := by
  refine .trans ?_ (Block.pump_onward _)
  refine .trans ?_ (Onward.foldl Block.radioAwake_onward radios3 _)
  refine .trans (.trans ?_ (Block.flowControl_onward _ 0)) (Block.flowControl_onward _ 1)
  refine .trans (.trans ?_ (Block.parentFound_onward _)) (Block.passMay_onward _)
  refine .trans (.trans ?_ (Block.drainFlush_onward _)) (Block.drainStations_onward _)
  refine .trans (.trans ?_ (Block.slotStarts_onward _)) (Block.failoversDone_onward _)
  exact b.ppsHold_onward.trans (Block.holdRow_onward _)

/-! ### Transmit rings -/

theorem State.ringFrame_mode (s : State) (row d : Nat) : (s.ringFrame row d).2.blk.mode = s.blk.mode := by
  have hpolice (c : Ctx) (len : Nat) : (s.blk.police c len).2.mode = s.blk.mode := by
    unfold Block.police; split
    · rfl
    · extract_lets pol k k1
      split
      · rfl
      · split <;> rfl
  have henqueue (c : Block) (fid q : Nat) : (c.enqueue fid q).mode = c.mode := by
    unfold Block.enqueue; split
    · rfl
    · extract_lets cane srow n f1 waits b1
      split <;> rfl
  unfold State.ringFrame; extract_lets len direct q cls c d1
  split
  · rfl
  · split
    · exact hpolice c len
    · split
      · dsimp only
        split
        · exact (henqueue _ _ _).trans (hpolice c len)
        · exact hpolice c len
      · exact hpolice c len
      · exact hpolice c len

theorem State.takeDescs_mode (row n : Nat) (s : State) : (s.takeDescs row n).blk.mode = s.blk.mode := by
  induction n generalizing s with
  | zero => rfl
  | succ n ih => exact (ih _).trans (s.ringFrame_mode row _)

theorem State.doorbell_still (s : State) (row tail : Nat) : (s.doorbell row tail).2.blk.mode.still = s.blk.mode.still := by
  unfold State.doorbell; extract_lets size b n s1
  split
  · rfl
  · split
    · rfl
    · have h1 : s1.blk.mode = s.blk.mode := State.takeDescs_mode row n { s with blk := b }
      split
      · rw [h1]
      · exact ((Stands.event s1.blk (row / 8) 14).mode).trans (congrArg ModeUnit.still h1)

theorem State.ringsOpen_onward (s : State) : Onward s.blk s.ringsOpen.blk := by
  unfold State.ringsOpen; split
  · exact .refl _
  · next hopen =>
    refine .of_loose (fun hs => absurd (by simp [hs.engine]) hopen) fun _ => ?_
    refine List.foldlRecOn (motive := fun t : State => t.blk.mode.still = s.blk.mode.still) _ _ rfl fun t ht row _ => ?_
    split
    · exact (t.doorbell_still row _).trans ht
    · exact ht

theorem State.boots_after (s : State) {b : Block} (h : Onward s.blk b) : Onward s.blk ({ s with blk := b } : State).boots.blk :=
  h.trans (State.boots_onward { s with blk := b })

theorem State.ringsOpen_after (s : State) {b : Block} (h : Onward s.blk b) :
    Onward s.blk ({ s with blk := b } : State).ringsOpen.blk :=
  h.trans (State.ringsOpen_onward { s with blk := b })

/-! ### What the units leave -/

theorem State.settle_onward (s : State) : Onward s.blk s.settle.blk := by
  unfold State.settle; split
  · exact .refl _
  · split
    · exact s.takeLosses_onward
    · unfold State.settleWork; extract_lets s0 s1 s2 s3
      have h0 : Onward s.blk s0.blk :=
        .trans (.trans s.point_onward (State.takeInbox_onward _)) (State.takeLosses_onward _)
      have h1 : Onward s0.blk s1.blk := s0.boots_onward
      have h2 : Onward s1.blk s2.blk := s1.boots_after s1.blk.deliverHeld_onward
      have h3 : Onward s2.blk s3.blk := s2.ringsOpen_after s2.blk.selfWork_onward
      clear_value s3 s2 s1 s0
      exact ((h0.trans h1).trans (h2.trans h3)).trans s3.blk.pump_onward

/-- Where no unit has worked the frames are those of the effect. -/
theorem State.frames_of_settle {u v : State} (h : u.settle = v) (hv : ¬ v.blk.Worked) : u.blk.frames = v.blk.frames := by
  subst h
  exact (u.settle_onward.frames.resolve_left hv).symm

/-! ### The failover that leaves a frame -/

/-- A cane frame sent on Strand H of link 0, with its twin on Strand M. -/
def twinSent : Frame :=
  { id := 5, ctx := .eth 0 0 0, pkt := {}, at_ := 0, queue := 4352, state := .sent, air := true, strand := some .h
    twin := some .m }

/-- A built gather of Radio H with one MPDU of that frame, which is resolved. -/
def resolvedGather : Gather :=
  { id := 0, radio := .h, state := .built
    mpdus := [{ fid := some 5, recv := 512, tid := 0, sn := 0, resolved := true, strand := some 0 }] }

/-- Strand H of link 0 is up and its STRAND_DEAD_TIME is 0; the block stands in the odd state. -/
def silentStrand : Block :=
  { (({} : Block).put Obj.linkStrandState 2 0).put Obj.strandDeadTimeHm 0 with
    frames := [twinSent], gth := { gathers := [resolvedGather] }, mode := offDraining, pins := { resetLow := true }
    dram := { load := true }, plais := { tier := some 0 } }

/-- The machine with that block. -/
def silentMachine : State := { State.reset with blk := silentStrand }

/-- What the silence of the strand leaves: the remelt of the gather moves the frame to Strand M, and the failover takes it
for none of its own. -/
def silenceTold : State := { silentMachine with blk := (silentStrand.tick 0).strandSilent 0 .h }

theorem exec_strandDeadTimeExpiry (t k : Nat) (x : Radio) (s : State) :
    exec (.strandDeadTimeExpiry t k x) s = s.at t fun b => b.strandSilent k x := rfl

theorem silence_exec : exec (.strandDeadTimeExpiry 0 0 .h) silentMachine = .next silenceTold.settle := by
  have hawake : silentMachine.blk.frozen = false := by decide
  rw [exec_strandDeadTimeExpiry]
  unfold State.at; rw [hawake, if_neg Bool.false_ne_true]
  unfold State.timed silenceTold
  rfl

theorem silenceTold_frames : { twinSent with strand := some .m, twin := none } ∈ silenceTold.settle.blk.frames := by
  decide +kernel

theorem silenceTold_not_worked : ¬ silenceTold.settle.blk.Worked := by
  unfold Block.Worked Block.Stuck
  decide +kernel

/-- Refutes O48: `twinSent` is on the strand that fails and no unlocked gather holds it, its MPDU being resolved; but the
failover's remelt undoes the gather, which takes the frame off the strand, so that it is not set to be sent again. -/
theorem not_caneLinksAcknowledgeResendAndFailOver : ¬ Obligations.CaneLinksAcknowledgeResendAndFailOver := by
  intro h
  obtain ⟨htimes, -⟩ := h
  obtain ⟨-, -, -, -, -, -, -, -, hsilent⟩ := htimes silentMachine 0 0 .h (by decide)
  obtain ⟨u, hexec, -, -, -, -, -, -, hresent⟩ := hsilent (by decide) (by decide +kernel)
  have hsettle : u.settle = silenceTold.settle := Host.Outcome.next.inj (hexec.symm.trans silence_exec)
  have hmem : { twinSent with strand := some .m, twin := none } ∈ u.blk.frames := by
    rw [State.frames_of_settle hsettle silenceTold_not_worked]
    exact silenceTold_frames
  have hback := hresent twinSent (by decide +kernel) (by decide +kernel) (by decide +kernel)
    { twinSent with strand := some .m, twin := none } hmem rfl
  exact absurd hback (by decide)

end Sys2Proof.Machine
end

section
/-!
SUPPORT. Reception on a radio (R114, R117, R171, R177 to R181, R183, R184, R186, R190 to R192, R270 to R273): sync and
capture, headers, the frame of reach mode, the end of a PPDU, the responder's tests of a station's frame, and landing;
and the statement about them.
-/

namespace Sys2Proof.Machine

/-! ### Reach mode on the air (R178 to R181) -/

/-- The first 24 bits of a reach header. -/
def reachFields (fcs32 whiten : Bool) (code len : Nat) : Nat :=
  fcs32.toNat * 2097152 + whiten.toNat * 1048576 + code % 4 * 262144 + len % 2048

theorem reachHcrc_lt (v : Nat) : reachHcrc v < 256 := crcForward_lt (w := 8) (by decide) (by decide) (by decide) _

theorem reachHeader_eq (fcs32 whiten : Bool) (code len : Nat) : reachHeader fcs32 whiten code len =
    reachFields fcs32 whiten code len * 256 + reachHcrc (reachFields fcs32 whiten code len) := by
  cases fcs32 <;> cases whiten <;> simp [reachHeader, reachFields]

theorem reachHeader_div (fcs32 whiten : Bool) (code len : Nat) :
    reachHeader fcs32 whiten code len / 256 = reachFields fcs32 whiten code len := by
  have := reachHcrc_lt (reachFields fcs32 whiten code len)
  rw [reachHeader_eq]; omega

theorem reachHeader_mod (fcs32 whiten : Bool) (code len : Nat) :
    reachHeader fcs32 whiten code len % 256 = reachHcrc (reachFields fcs32 whiten code len) := by
  rw [reachHeader_eq, Nat.mul_add_mod_self_right, Nat.mod_eq_of_lt (reachHcrc_lt _)]

/-- The bits of a header above its check are those of its fields. -/
theorem reachHeader_div_pow (fcs32 whiten : Bool) (code len k : Nat) :
    reachHeader fcs32 whiten code len / 2 ^ (8 + k) = reachFields fcs32 whiten code len / 2 ^ k := by
  rw [pow_add, ← Nat.div_div_eq_div_mul, show 2 ^ 8 = 256 from rfl, reachHeader_div]

theorem reachLength_reachHeader (fcs32 whiten : Bool) (code : Nat) {len : Nat} (h : len < 2048) :
    reachLength (reachHeader fcs32 whiten code len) = len := by
  rw [reachLength, reachHeader_div, reachFields]; omega

theorem testBit_reachHeader (fcs32 whiten : Bool) (code len : Nat) :
    (reachHeader fcs32 whiten code len).testBit 29 = fcs32 := by
  have := whiten.toNat_lt
  rw [Nat.testBit_eq_decide_div_mod_eq, reachHeader_div_pow _ _ _ _ 21, reachFields]
  cases fcs32 <;> simp <;> omega

theorem reachHeaderOk_reachHeader (fcs32 whiten : Bool) {code len : Nat} (hcode : code < 4)
    (hmin : (if fcs32 then 4 else 2) ≤ len) (hmax : len < 2048) :
    reachHeaderOk code (reachHeader fcs32 whiten code len) = true := by
  have hf := fcs32.toNat_lt
  have hw := whiten.toNat_lt
  have hversion : reachFields fcs32 whiten code len / 2 ^ 22 = 0 := by rw [reachFields]; omega
  have hspare : reachFields fcs32 whiten code len / 2 ^ 11 % 128 = 0 := by rw [reachFields]; omega
  have hbranch : reachFields fcs32 whiten code len / 2 ^ 18 % 4 = code := by rw [reachFields]; omega
  simp only [reachHeaderOk, reachHeader_mod, reachHeader_div, reachHeader_div_pow _ _ _ _ 22,
    reachHeader_div_pow _ _ _ _ 11, reachHeader_div_pow _ _ _ _ 18, testBit_reachHeader,
    reachLength_reachHeader _ _ _ hmax, hversion, hspare, hbranch, hmin, decide_true, Bool.and_self]

theorem length_bitsBE (k v : Nat) : (bitsBE k v).length = k := by
  induction k with
  | zero => rfl
  | succ k ih => simp [bitsBE, ih]

theorem length_pn9 (k st : Nat) : (pn9 k st).length = k := by
  induction k generalizing st with
  | zero => rfl
  | succ k ih => simp [pn9, ih]

theorem length_reachEncode (l : List Bool) (st : Nat) : (reachEncode st l).length = 2 * l.length := by
  induction l generalizing st with
  | nil => rfl
  | cons x l ih => simp [reachEncode, ih]; ring

theorem length_reachCode (l : List Bool) : (reachCode l).length = 2 * (l.length + 6) := by
  simp [reachCode, length_reachEncode]

theorem length_psduBits (l : List Octet) : (psduBits l).length = 8 * l.length := by
  simp [psduBits, mul_comm]

theorem length_reachWhiten (l : List Bool) : (reachWhiten l).length = l.length := by
  simp [reachWhiten, length_pn9]

theorem length_reachFrame (preamble sync code : Nat) (fcs32 whiten : Bool) (psdu : List Octet) :
    (reachFrame preamble sync code fcs32 whiten psdu).length = reachSymbols preamble psdu.length := by
  have hbits : (if whiten then reachWhiten (psduBits psdu) else psduBits psdu).length = 8 * psdu.length := by
    split <;> simp [length_reachWhiten, length_psduBits]
  simp only [reachFrame, List.length_append, List.length_replicate, length_bitsBE, length_reachCode, hbits, reachSymbols]

/-! ### Sync and capture (R183 to R186) -/

/-- A reception begun in another tick, or whose header is in, leaves the lower bit no choice. -/
theorem Rx.not_fresh {y : Rx} {now : Nat} (h : y.at_ ≠ now ∨ y.head.isSome = true) :
    ¬ (decide (y.at_ = now) && y.head.isNone) = true := by
  cases h with
  | inl hat => simp [hat]
  | inr hhead => simp [Option.isSome_iff_ne_none.mp hhead]

section
variable {b : Block} {r : Radio} {branch : Nat} {seen : SyncSeen}

/-- A sync that a branch confirms while its receiver may take one. -/
def Block.mayOwn (b : Block) (r : Radio) (branch : Nat) (seen : SyncSeen) : Prop :=
  b.radioOn r ∧ b.searches r branch ∧ b.confirms r branch seen ∧ b.blinded r (branch == branchM1) = false ∧
    (b.radio r).doneAt ≠ some b.now

theorem Block.mayOwn_iff : b.mayOwn r branch seen ↔ (!b.radioOn r || !b.searches r branch || !b.confirms r branch seen ||
    b.blinded r (branch == branchM1) || (b.radio r).doneAt == some b.now) = false := by
  simp [Block.mayOwn, and_assoc]

theorem Block.syncConfirm_of_not (h : ¬ b.mayOwn r branch seen) : b.syncConfirm r branch seen = b :=
  if_pos (by simpa only [Block.mayOwn_iff, Bool.not_eq_false] using h)

section
variable (able : b.mayOwn r branch seen)
include able

theorem Block.syncConfirm_of_blankedNow (h : b.blankedNow r (branch == branchM1) = true) : b.syncConfirm r branch seen =
    ((b.ownRx r branch seen).endRx r (branch == branchM1) 3).add (blankedReg r) :=
  (if_neg (Bool.eq_false_iff.mp (Block.mayOwn_iff.mp able))).trans (if_pos h)

theorem Block.syncConfirm_of_blanked (h : b.isBlanked r (branch == branchM1) = true)
    (hnow : b.blankedNow r (branch == branchM1) = false) : b.syncConfirm r branch seen = b :=
  (if_neg (Bool.eq_false_iff.mp (Block.mayOwn_iff.mp able))).trans
    ((if_neg (Bool.eq_false_iff.mp hnow)).trans (if_pos h))

variable (hopen : b.isBlanked r (branch == branchM1) = false)
include hopen

/-- Without a blank it is the receiver that decides. -/
theorem Block.syncConfirm_of_open : b.syncConfirm r branch seen =
    match (b.radio r).rxOf (branch == branchM1) with
    | none => b.ownRx r branch seen
    | some x =>
      if x.at_ = b.now && x.head.isNone then (if branch < x.branch then b.ownRx r branch seen else b)
      else if b.is (Obj.captureEnable.of r) && decide (x.power + 4 * (b.get (Obj.captureThreshold.of r) : Int) ≤ seen.power) &&
          (r != .l || branch != x.branch) then
        ((b.endRx r (branch == branchM1) 4).add (Obj.rxCaptured.of r)).ownRx r branch seen
      else b := by
  have hnow : b.blankedNow r (branch == branchM1) = false := by simp [Block.blankedNow, hopen]
  refine (if_neg (Bool.eq_false_iff.mp (Block.mayOwn_iff.mp able))).trans
    ((if_neg (Bool.eq_false_iff.mp hnow)).trans ((if_neg (Bool.eq_false_iff.mp hopen)).trans ?_))
  cases (b.radio r).rxOf (branch == branchM1) <;> rfl

theorem Block.syncConfirm_of_free (h : (b.radio r).rxOf (branch == branchM1) = none) :
    b.syncConfirm r branch seen = b.ownRx r branch seen := by
  rw [Block.syncConfirm_of_open able hopen, h]

section
variable {y : Rx} (hrx : (b.radio r).rxOf (branch == branchM1) = some y) (hlate : y.at_ ≠ b.now ∨ y.head.isSome = true)
include hrx hlate

theorem Block.syncConfirm_of_stronger (hon : b.get (Obj.captureEnable.of r) ≠ 0)
    (hpower : y.power + 4 * (b.get (Obj.captureThreshold.of r) : Int) ≤ seen.power) (hother : r ≠ .l ∨ branch ≠ y.branch) :
    b.syncConfirm r branch seen =
      ((b.endRx r (branch == branchM1) 4).add (Obj.rxCaptured.of r)).ownRx r branch seen := by
  rw [Block.syncConfirm_of_open able hopen, hrx]
  exact (if_neg (Rx.not_fresh hlate)).trans (if_pos (by simpa [Block.is, hon, hpower] using hother))

theorem Block.syncConfirm_of_captureOff (hoff : b.get (Obj.captureEnable.of r) = 0) : b.syncConfirm r branch seen = b := by
  rw [Block.syncConfirm_of_open able hopen, hrx]
  exact (if_neg (Rx.not_fresh hlate)).trans (if_neg (by simp [Block.is, hoff]))

end
end
end

/-! ### Headers (R171, R180, R184, R191, R192, R271) -/

section
variable {b : Block} {r : Radio} {head : RxHead}

theorem Block.headerDecoded_of_idle (h : (b.radio r).rxOf (r == .m && head.form.format == fmtOqpsk24) = none) :
    b.headerDecoded r head = b := by
  unfold Block.headerDecoded; simp only [h]

section
variable {y : Rx} (hrx : (b.radio r).rxOf (r == .m && head.form.format == fmtOqpsk24) = some y)
include hrx

theorem Block.headerDecoded_of_known (h : y.head.isSome = true) : b.headerDecoded r head = b := by
  unfold Block.headerDecoded; simp only [hrx]
  exact if_pos h

/-- A reception with its header as the edge takes it. -/
def Block.knowHead (b : Block) (r : Radio) (y : Rx) (head : RxHead) : Block :=
  b.modRadio r fun u => u.setRx (r == .m && head.form.format == fmtOqpsk24)
    (some { y with head := some (headerSays r y.branch head).2 })

variable (hnew : y.head = none)
include hnew

theorem Block.headerDecoded_of_failed (h : (headerSays r y.branch head).1 = false) : b.headerDecoded r head =
    (b.endRx r (r == .m && head.form.format == fmtOqpsk24) 2).add (Obj.rxHdrFail.of r) := by
  unfold Block.headerDecoded; simp only [hrx]
  exact (if_neg (by simp [hnew])).trans (if_pos (by simp [h]))

variable (hok : (headerSays r y.branch head).1 = true)
include hok

theorem Block.headerDecoded_of_unsupported
    (h : formOk r (b.radio r).split false (headerSays r y.branch head).2.form = false) : b.headerDecoded r head =
      (((b.knowHead r y head).endRx r (r == .m && head.form.format == fmtOqpsk24) 5).add
        (Obj.rxUnsupported.of r)).holdCca r head.dur := by
  unfold Block.headerDecoded; simp only [hrx]
  exact (if_neg (by simp [hnew])).trans ((if_neg (by simp [hok])).trans (if_pos (by simp [h])))

variable (hfits : formOk r (b.radio r).split false (headerSays r y.branch head).2.form = true)
include hfits

theorem Block.headerDecoded_of_badLength (h : ¬ ((headerSays r y.branch head).2.len ≠ 0 ∧
    (headerSays r y.branch head).2.len ≤ psduMax (headerSays r y.branch head).2.form)) : b.headerDecoded r head =
      ((b.knowHead r y head).endRx r (r == .m && head.form.format == fmtOqpsk24) 6).add (Obj.rxLength.of r) := by
  unfold Block.headerDecoded; simp only [hrx]
  refine (if_neg (by simp [hnew])).trans ((if_neg (by simp [hok])).trans ((if_neg (by simp [hfits])).trans (if_pos ?_)))
  simp only [Bool.or_eq_true, decide_eq_true_eq]
  omega

theorem Block.headerDecoded_of_good (hlen : (headerSays r y.branch head).2.len ≠ 0)
    (hmax : (headerSays r y.branch head).2.len ≤ psduMax (headerSays r y.branch head).2.form) : b.headerDecoded r head =
      b.modRadio r fun u => u.setRx (r == .m && head.form.format == fmtOqpsk24) (some { y with
        head := some (headerSays r y.branch head).2
        reserved := decide (b.landingUsed r + b.landingReserved r + RxHead.needs (headerSays r y.branch head).2 ≤
          (landingRegion r).1)
        octets := RxHead.needs (headerSays r y.branch head).2
        taps := (headerSays r y.branch head).2.ltf.map fun l =>
          smoothTaps (b.smoothWidth r (headerSays r y.branch head).2.form) l }) := by
  unfold Block.headerDecoded; simp only [hrx]
  refine (if_neg (by simp [hnew])).trans ((if_neg (by simp [hok])).trans ((if_neg (by simp [hfits])).trans (if_neg ?_)))
  simp only [Bool.or_eq_true, decide_eq_true_eq]
  omega

end
end

/-! ### The end of a PPDU (R172, R190, R191, R270) -/

section
variable {b : Block} {r : Radio} {info : RxInfo} {ms : List RxMpdu}

theorem Block.ppduEnd_of_idle (h : (b.radio r).rxOf (r == .m && info.m1) = none) : b.ppduEnd r info ms = b := by
  unfold Block.ppduEnd; simp only [h]

/-- A receiver that a PPDU has left, decoded. -/
def Block.freedRx (b : Block) (r : Radio) (y : Rx) (h : RxHead) (info : RxInfo) : Block :=
  ((b.decode r y h info).modRadio r fun u =>
    ({ u with quietFrom := b.now, doneAt := some b.now } : RadioUnit).setRx (r == .m && info.m1) none).freeze r b.now

/-- A PPDU's status and the counters that go with it. -/
def Block.ppduStatus (b : Block) (r : Radio) (y : Rx) (h : RxHead) (info : RxInfo) (ms : List RxMpdu) : Nat × Block :=
  (b.freedRx r y h info).rxCount r (r == .m && info.m1) h info ms

/-- A PPDU whose status the sequencer has, its MPDUs still to come. -/
def Block.ppduTold (b : Block) (r : Radio) (y : Rx) (h : RxHead) (info : RxInfo) (ms : List RxMpdu) : Block :=
  ((b.ppduStatus r y h info ms).2.edgeResult r 11
    [y.word r (b.ppduStatus r y h info ms).1 info, b.rxStamp (2 + radioNum r) y.first 1]).splitFollow

/-- What the responder knows of a PPDU with a Frame Pending bit for its acknowledgement. -/
def Block.ppduSeen (b : Block) (r : Radio) (y : Rx) (h : RxHead) (info : RxInfo) (ms : List RxMpdu) (pend : Bool) :
    PpduSeen :=
  { r, m1 := r == .m && info.m1, start := y.at_, first := y.first, room := y.reserved
    ack := (b.ppduTold r y h info ms).ackCmd r h.form [] 0 pend info.ackAir }

section
variable {y : Rx} (hrx : (b.radio r).rxOf (r == .m && info.m1) = some y)
include hrx

theorem Block.ppduEnd_of_headless (h : y.head = none) : b.ppduEnd r info ms = b := by
  unfold Block.ppduEnd; simp only [hrx, h]

variable {h : RxHead} (hhead : y.head = some h) (hsoft : info.soft = [])
include hhead hsoft

/-- A PPDU whose MPDUs are as they are reported. -/
theorem Block.ppduEnd_of_head : b.ppduEnd r info ms =
    (let b2 := b.ppduTold r y h info ms
     let p := b.ppduSeen r y h info ms (ms.any b2.pendingFor)
     if (b.ppduStatus r y h info ms).1 = 1 then ms.foldl (fun (c : Block) m => c.heardFrom p m) b2
     else
       let done := ms.foldl (fun (acc : List RxMpdu × Block) m =>
         let d := acc.2.respond p m
         (if d.1 != Mark.none && m.ackReq then acc.1 ++ [m] else acc.1, d.2)) ([], b2)
       done.2.answerPpdu p h.form (isAmpdu h.form ms) info.ackAir done.1 (ms.any b2.pendingFor)) := by
  have hms : b.checkedMpdus r h info ms = ms := if_neg (by simp [hsoft])
  unfold Block.ppduEnd
  simp only [hrx, hhead, hms]
  rfl

theorem Block.ppduEnd_of_fcsFail (hstatus : (b.ppduStatus r y h info ms).1 = 1) : b.ppduEnd r info ms =
    ms.foldl (fun (c : Block) m =>
      c.heardFrom (b.ppduSeen r y h info ms (ms.any (b.ppduTold r y h info ms).pendingFor)) m)
      (b.ppduTold r y h info ms) := by
  rw [Block.ppduEnd_of_head hrx hhead hsoft]
  exact if_pos hstatus

/-- Of one MPDU that asks for no acknowledgement the responder's effect is all. -/
theorem Block.ppduEnd_of_single {m : RxMpdu} (hstatus : (b.ppduStatus r y h info [m]).1 ≠ 1) (hack : m.ackReq = false) :
    b.ppduEnd r info [m] = ((b.ppduTold r y h info [m]).respond
      (b.ppduSeen r y h info [m] ((b.ppduTold r y h info [m]).pendingFor m)) m).2 := by
  have hpend : [m].any (b.ppduTold r y h info [m]).pendingFor = (b.ppduTold r y h info [m]).pendingFor m := by simp
  rw [Block.ppduEnd_of_head hrx hhead hsoft]
  simp only [hpend, List.foldl_cons, List.foldl_nil, hack, Bool.and_false, if_neg hstatus]
  rfl

end
end

/-! ### Landing (R273) -/

theorem Block.landingDrain_of_room {b : Block} {r : Radio} {f : Frame} {spill : Bool} (hf : b.oldestLanded r = some f)
    (hplace : b.place f.pkt.len = some spill) (hfree : b.journalFree = true) :
    b.landingDrain r = b.modFrame f.id fun y => { y with landed := none, spilled := spill } := by
  simp only [Block.landingDrain, hf, hplace, hfree, if_true]

theorem Block.landingDrain_of_none {b : Block} {r : Radio} (h : ∀ f ∈ b.frames, f.landed ≠ some r) :
    b.landingDrain r = b := by
  have hnone : b.frames.filter (fun f => f.landed == some r) = [] :=
    List.filter_eq_nil_iff.mpr fun f hf => by simpa using h f hf
  simp [Block.landingDrain, Block.oldestLanded, hnone]

/-! ### What a remelt and a round's lists leave to be carried -/

/-- A frame as it lies in a buffer, whatever its place in a queue or a gather. -/
structure Frame.Lies (f g : Frame) : Prop where
  id : g.id = f.id
  ctx : g.ctx = f.ctx
  pkt : g.pkt = f.pkt
  landed : g.landed = f.landed

theorem Frame.Lies.refl (f : Frame) : f.Lies f := ⟨rfl, rfl, rfl, rfl⟩

/-- The numbers given and seen stay, and every frame lies where it lay. -/
structure Carries (b c : Block) : Prop where
  nextFrame : c.nextFrame = b.nextFrame
  dups : c.mac.dups = b.mac.dups
  frames : ∀ f ∈ b.frames, ∃ g ∈ c.frames, f.Lies g

namespace Carries

theorem of_frames {b c : Block} (hnext : c.nextFrame = b.nextFrame) (hdups : c.mac.dups = b.mac.dups)
    (hframes : c.frames = b.frames) : Carries b c :=
  ⟨hnext, hdups, fun f hf => ⟨f, hframes ▸ hf, .refl f⟩⟩

theorem refl (b : Block) : Carries b b := of_frames rfl rfl rfl

theorem trans {a b c : Block} (h : Carries a b) (k : Carries b c) : Carries a c := by
  refine ⟨k.nextFrame.trans h.nextFrame, k.dups.trans h.dups, fun f hf => ?_⟩
  obtain ⟨g, hg, hfg⟩ := h.frames f hf
  obtain ⟨x, hx, hgx⟩ := k.frames g hg
  exact ⟨x, hx, hgx.id.trans hfg.id, hgx.ctx.trans hfg.ctx, hgx.pkt.trans hfg.pkt, hgx.landed.trans hfg.landed⟩

theorem foldl {α : Type} {f : Block → α → Block} (h : ∀ b x, Carries b (f b x)) (l : List α) (b : Block) :
    Carries b (l.foldl f b) :=
  List.foldlRecOn (motive := Carries b) l f (refl b) fun _ hc x _ => hc.trans (h _ x)

theorem modFrame (b : Block) (fid : Nat) {f : Frame → Frame} (hf : ∀ x : Frame, x.Lies (f x)) :
    Carries b (b.modFrame fid f) := by
  refine ⟨rfl, rfl, fun x hx => ⟨_, List.mem_map_of_mem hx, ?_⟩⟩
  split
  · exact hf x
  · exact .refl x

theorem undoMpdu (b : Block) (r : Radio) (m : Mpdu) : Carries b (b.undoMpdu r m) := by
  unfold Block.undoMpdu; dsimp only
  split
  · split <;> exact of_frames rfl rfl rfl
  · repeat' split
    all_goals exact of_frames rfl rfl rfl

theorem unplaceAll (b : Block) (g : Gather) : Carries b (b.unplaceAll g) := by
  refine foldl (fun c m => ?_) _ b
  split
  · split
    · exact refl c
    · refine modFrame c _ fun f => ?_
      unfold Frame.unplace; repeat' split
      all_goals exact ⟨rfl, rfl, rfl, rfl⟩
  · exact refl c

theorem undoGather (b : Block) (g : Gather) : Carries b (b.undoGather g) := by
  unfold Block.undoGather
  extract_lets u b1 b2
  have hout : Carries b b1 := of_frames rfl rfl rfl
  have hundone : Carries b1 b2 := foldl (fun c m => undoMpdu c g.radio m) _ b1
  refine (hout.trans hundone).trans (Carries.trans (foldl (fun c m => ?_) g.mpdus b2) (unplaceAll _ g))
  split
  · exact modFrame c _ fun f => ⟨rfl, rfl, rfl, rfl⟩
  · exact refl c

theorem remelt (b : Block) (code : Nat) (sel : Gather → Bool) : Carries b (b.remelt code sel) := by
  unfold Block.remelt
  extract_lets all chosen set u b1
  have hcounts : Carries b b1 := of_frames rfl rfl rfl
  exact hcounts.trans (foldl undoGather _ b1)

theorem joinLists (b : Block) (row : Nat) : Carries b (b.joinLists row) := by
  unfold Block.joinLists; dsimp only
  split <;> exact of_frames rfl rfl rfl

theorem stationSays (b : Block) (row : Nat) (m : RxMpdu) : Carries b (b.stationSays row m) := by
  unfold Block.stationSays
  extract_lets ps b1
  have hps : Carries b b1 := by
    unfold b1
    split
    · exact (of_frames rfl rfl rfl : Carries b (b.put Obj.staPsState _ row)).trans (remelt _ _ _)
    · split
      · exact (of_frames rfl rfl rfl : Carries b (b.put Obj.staPsState 0 row)).trans (joinLists _ _)
      · exact refl b
  refine hps.trans ?_
  split
  · exact (of_frames rfl rfl rfl : Carries b1 (b1.modMac _)).trans (joinLists _ _)
  · exact refl b1

end Carries

/-! ### The responder's tests of a station's frame (R114, R117, R270, R272) -/

theorem Block.mem_dupSeen_dupNote (b : Block) (row tid seq : Nat) : seq ∈ (b.dupNote row tid seq).dupSeen row tid := by
  have hl : (b.dupNote row tid seq).dupSeen row tid =
      (b.dupSeen row tid ++ [seq]).drop ((b.dupSeen row tid ++ [seq]).length - 64) := by
    simp [Block.dupSeen, Block.dupNote, Block.modMac, assocGet_put_same]
  rw [hl, List.drop_append_of_le_length (by simp)]
  simp

section
variable {w : Block} {p : PpduSeen} {m : RxMpdu}

theorem Block.respond_of_unheard (h : m.fcsOk = false ∨ (w.heardFrom p m).senderKnown p.r p.m1 m = false) :
    w.respond p m = (Mark.none, w.heardFrom p m) := by
  unfold Block.respond; dsimp only
  split
  · rfl
  · exact if_pos (by simpa using h)

section
variable (hfcs : m.fcsOk = true) (hknown : (w.heardFrom p m).senderKnown p.r p.m1 m = true) {row : Nat}
  (hsender : m.sender = .station row) (hprot : m.prot = none) (hgroup : m.group = false)
include hfcs hknown hsender hprot hgroup

theorem Block.respond_of_seen (hack : m.ackReq = false) (h : m.seq ∈ (w.heardFrom p m).dupSeen row m.tid) :
    w.respond p m = (Mark.again, (w.heardFrom p m).add Obj.dupDiscards) := by
  have hdup : (w.heardFrom p m).dupTest p.r m = (.again, w.heardFrom p m) := by
    simp [Block.dupTest, Block.ownTest, hgroup, hsender, h]
  unfold Block.respond
  simp [Block.senderCtx, hsender, hfcs, hknown, hprot, hdup, hack, Block.discardDup]

/-- A new frame of a station is what the tests after that for duplicates make of it. -/
theorem Block.respond_of_new (h : m.seq ∉ (w.heardFrom p m).dupSeen row m.tid) :
    w.respond p m = (w.heardFrom p m).markNew p m (.station row m.tid) := by
  have hdup : (w.heardFrom p m).dupTest p.r m = (.marked, w.heardFrom p m) := by
    simp [Block.dupTest, Block.ownTest, hgroup, hsender, h]
  unfold Block.respond
  simp [Block.senderCtx, hsender, hfcs, hknown, hprot, hdup, Block.keepNumbers]

end

section
variable {b : Block} {row : Nat} {pkt : Packet} (hsender : m.sender = .station row) (hbody : m.body = .data pkt)
include hsender hbody

theorem Block.markNew_of_closed (h : (b.accNow p.start).station = false) :
    b.markNew p m (.station row m.tid) = (.none, b) := by
  simp [Block.markNew, packetOf, hbody, Block.senderOpen, hsender, h]

/-- Past every test a station's frame is accepted, and its number seen. -/
theorem Block.markNew_of_open (hctx : b.ctxRow (.station row m.tid) = none) (hprot : m.prot = none) (hack : m.ackReq = false)
    (h : (b.accNow p.start).station = true) (hroom : p.room = true)
    (hfits : b.reserveFits p.r (.station row m.tid) pkt.len = true) : b.markNew p m (.station row m.tid) =
      (.marked, ((b.accept (.station row m.tid) pkt (some p.r) false
        (some (b.rxStamp (2 + radioNum p.r) p.first 1, 2 + radioNum p.r))).dupNote row m.tid m.seq).stationSays row m) := by
  simp [Block.markNew, packetOf, hbody, Block.senderOpen, hsender, h, Block.police, hctx, hroom, hfits, hack,
    Block.acceptRadio, Block.parentActive, Block.replayed, hprot, Block.senderSays]

end
end

/-- A station's frame once accepted is numbered, seen and landed, whatever else it says of its sender. -/
theorem Block.stationSays_accepted (b : Block) (pkt : Packet) (r : Radio) (stamp : Option (Nat × Nat)) (row : Nat)
    (m : RxMpdu) :
    let x := ((b.accept (.station row m.tid) pkt (some r) false stamp).dupNote row m.tid m.seq).stationSays row m
    x.nextFrame = b.nextFrame + 1 ∧ m.seq ∈ x.dupSeen row m.tid ∧
      ∃ f ∈ x.frames, f.id = b.nextFrame ∧ f.ctx = .station row m.tid ∧ f.pkt = pkt ∧ f.landed = some r := by
  obtain ⟨f, hframes, hid, hctx, hpkt, -, -, hlanded, -, -⟩ :=
    Block.accept_frames b (.station row m.tid) pkt (some r) false stamp
  have hkept := Carries.stationSays
    ((b.accept (.station row m.tid) pkt (some r) false stamp).dupNote row m.tid m.seq) row m
  obtain ⟨g, hg, hfg⟩ := hkept.frames f (by simp [Block.dupNote, Block.modMac, hframes])
  refine ⟨hkept.nextFrame, ?_, g, hg, hfg.id.trans hid, hfg.ctx.trans hctx, hfg.pkt.trans hpkt,
    hfg.landed.trans hlanded⟩
  rw [Block.dupSeen, hkept.dups]
  exact Block.mem_dupSeen_dupNote _ row m.tid m.seq

/-! ### The statement -/

/-- Settles O37: each command by its operation in the case that the statement names; of the responder, that a frame
past every test is accepted, and that what it says of its sender moves no frame and forgets no number. -/
theorem receptionAcceptsNewFramesOnce : Obligations.ReceptionAcceptsNewFramesOnce := by
  unfold Obligations.ReceptionAcceptsNewFramesOnce
  refine ⟨fun s t r hf => ?_, ⟨fun fcs32 whiten code len hcode hmin hmax =>
    ⟨reachHeaderOk_reachHeader fcs32 whiten hcode hmin hmax, reachLength_reachHeader fcs32 whiten code hmax⟩,
    length_reachFrame⟩, fun w p m row pkt => ⟨fun h => Block.respond_of_unheard (.inl h),
      fun h => Block.respond_of_unheard (.inr h), fun hfcs hknown hsender hbody hprot hgroup hack => ⟨fun hdup => ?_,
        fun hnew hclosed hctx => ?_, fun hnew hopen hctx hroom hfits => ?_⟩⟩⟩
  · intro b
    refine ⟨fun branch seen => ⟨fun h => ?_, fun able h => ?_, fun able h hnow => ?_, fun able hopen h => ?_,
        fun y able hopen hrx hlate => ⟨fun hon hpower hother => ?_, fun hoff => ?_⟩⟩,
      fun head => ⟨fun h => ?_, fun y hrx h => ?_, fun y hrx hnew => ⟨fun h => ?_, fun hok h => ?_, fun hok hfits h => ?_,
        fun hok hfits h => ?_⟩⟩,
      fun info ms => ⟨fun h => ?_, fun y hrx h => ?_, fun y h hrx hhead hsoft => ⟨fun hstatus => ?_,
        fun m hms hstatus hack => ?_⟩⟩,
      fun f spill hold hplace hfree => ?_, fun h => ?_⟩
    · exact .of_at rfl hf (Block.syncConfirm_of_not h)
    · exact .of_at rfl hf (Block.syncConfirm_of_blankedNow able h)
    · exact .of_at rfl hf (Block.syncConfirm_of_blanked able h hnow)
    · exact .of_at rfl hf (Block.syncConfirm_of_free able hopen h)
    · exact .of_at rfl hf (Block.syncConfirm_of_stronger able hopen hrx hlate hon hpower hother)
    · exact .of_at rfl hf (Block.syncConfirm_of_captureOff able hopen hrx hlate hoff)
    · exact .of_at rfl hf (Block.headerDecoded_of_idle h)
    · exact .of_at rfl hf (Block.headerDecoded_of_known hrx h)
    · exact .of_at rfl hf (Block.headerDecoded_of_failed hrx hnew h)
    · exact .of_at rfl hf (Block.headerDecoded_of_unsupported hrx hnew hok h)
    · exact .of_at rfl hf (Block.headerDecoded_of_badLength hrx hnew hok hfits h)
    · exact .of_at rfl hf (Block.headerDecoded_of_good hrx hnew hok hfits h.1 h.2)
    · exact .of_at rfl hf (Block.ppduEnd_of_idle h)
    · exact .of_at rfl hf (Block.ppduEnd_of_headless hrx h)
    · exact .of_at rfl hf (Block.ppduEnd_of_fcsFail hrx hhead hsoft hstatus)
    · subst hms
      exact .of_at rfl hf (Block.ppduEnd_of_single hrx hhead hsoft hstatus hack)
    · exact .of_at rfl hf (Block.landingDrain_of_room hold hplace hfree)
    · exact .of_at rfl hf (Block.landingDrain_of_none h)
  · exact Block.respond_of_seen hfcs hknown hsender hprot hgroup hack hdup
  · exact (Block.respond_of_new hfcs hknown hsender hprot hgroup hnew).trans
      (Block.markNew_of_closed hsender hbody hclosed)
  · have hx := (Block.respond_of_new hfcs hknown hsender hprot hgroup hnew).trans
      (Block.markNew_of_open hsender hbody hctx hprot hack hopen hroom hfits)
    rw [hx]
    exact ⟨rfl, Block.stationSays_accepted _ pkt _ _ row m⟩

end Sys2Proof.Machine
end

section
/-!
SUPPORT. What the work of an edge leaves (R144, R164, R165): the region, the frames that are held, and the objects that
count for the walls of a radio.
-/

namespace Sys2Proof.Machine

/-! ### The work of an edge -/

/-- The objects that a radio's own transmission and its end do not write: the losses of lock, the radar events and the
state of the region. -/
def walledRegs : List Reg :=
  [Obj.lockLosses.of .h, Obj.lockLosses.of .m, Obj.lockLosses.of .l, Obj.radarEvents.of .h, Obj.regionState]

/-- The greatest index and subindex of a walled object in one number. -/
def wallCode : Nat := Obj.regionState.idx * 256 + Obj.regionState.sub

/-- From one block to another an edge has worked: the region, the frames with their packets, and the walled objects
are the same. -/
structure Works (b c : Block) : Prop where
  region : c.region = b.region
  frames : Claims.sameFrames b c
  get : ∀ q ∈ walledRegs, c.get q = b.get q

/-- An object above the walled ones holds its rows apart from them. -/
theorem walled_key_ne {q r : Reg} (hq : q ∈ walledRegs) (hr : wallCode < r.idx * 256 + r.sub) (row : Nat) :
    q.key 0 ≠ r.key row := by
  have hle : q.idx * 256 + q.sub ≤ wallCode := by revert q; decide
  have := Nat.mul_lt_mul_of_pos_right (hle.trans_lt hr) (show 0 < 1048576 by decide)
  unfold Reg.key; omega

namespace Works

theorem refl (b : Block) : Works b b := ⟨rfl, rfl, fun _ _ => rfl⟩

theorem trans {a b c : Block} (h : Works a b) (k : Works b c) : Works a c :=
  ⟨k.region.trans h.region, k.frames.trans h.frames, fun q hq => (k.get q hq).trans (h.get q hq)⟩

/-- What was so before a step that leaves it is so after it. -/
theorem after {a b c : Block} (k : Works b c) (h : Works a b) : Works a c := h.trans k

theorem foldl {α : Type} {f : Block → α → Block} (h : ∀ b x, Works b (f b x)) (l : List α) (b : Block) :
    Works b (l.foldl f b) :=
  List.foldlRecOn (motive := Works b) l f (refl b) fun _ hc x _ => hc.trans (h _ x)

theorem ite {p : Prop} [Decidable p] {b c d : Block} (hc : Works b c) (hd : Works b d) :
    Works b (if p then c else d) := by
  split
  · exact hc
  · exact hd

/-- Where the region, the frames and every object are the same the edge's work shows nowhere. -/
theorem of_regs {b c : Block} (hregion : c.region = b.region) (hframes : c.frames = b.frames) (hregs : c.regs = b.regs) :
    Works b c :=
  ⟨hregion, by unfold Claims.sameFrames; rw [hframes], fun _ _ => by unfold Block.get; rw [hregs]⟩

theorem put (b : Block) {r : Reg} {row : Nat} (v : Nat) (h : ∀ q ∈ walledRegs, q.key 0 ≠ r.key row) :
    Works b (b.put r v row) := ⟨rfl, rfl, fun q hq => b.get_put_ne v (h q hq)⟩

theorem put_above (b : Block) {r : Reg} (v row : Nat) (h : wallCode < r.idx * 256 + r.sub) : Works b (b.put r v row) :=
  put b v fun _ hq => walled_key_ne hq h row

theorem add_above (b : Block) {r : Reg} (n row : Nat) (h : wallCode < r.idx * 256 + r.sub) : Works b (b.add r n row) :=
  put_above b _ row h

theorem modFrame (b : Block) (fid : Nat) {f : Frame → Frame} (hf : ∀ x, (f x).id = x.id ∧ (f x).pkt = x.pkt) :
    Works b (b.modFrame fid f) := by
  refine ⟨rfl, ?_, fun _ _ => rfl⟩
  unfold Claims.sameFrames Block.modFrame
  rw [List.map_map]
  refine List.map_congr_left fun x _ => ?_
  obtain ⟨hid, hpkt⟩ := hf x
  dsimp only [Function.comp]
  split
  · rw [hid, hpkt]
  · rfl

theorem of_tells {ks : List Nat} {b c : Block} (h : Tells ks b c) (hk : ∀ q ∈ walledRegs, q.key 0 ∉ ks) : Works b c :=
  ⟨h.region, by unfold Claims.sameFrames; rw [h.frames], fun q hq => h.get q 0 (hk q hq)⟩

theorem remelt (b : Block) (code : Nat) (sel : Gather → Bool) : Works b (b.remelt code sel) := by
  have h := Remelts.remelt b code sel
  refine ⟨(congrArg Block.region h.rest :), h.frames.sameFrames, fun q hq => h.get q 0 ?_⟩
  have hcause : wallCode < (remeltReg code).idx * 256 + (remeltReg code).sub := by unfold remeltReg; split <;> decide
  have habove {r : Reg} (hr : wallCode < r.idx * 256 + r.sub) : q.key 0 ≠ r.key 0 := walled_key_ne hq hr 0
  simp only [remeltKeys, List.mem_cons, List.not_mem_nil, or_false, not_or]
  exact ⟨habove hcause, habove (by decide), habove (by decide), habove (by decide)⟩

/-! ### Events and results -/

theorem tryWake (b : Block) (n : Nat) : Works b (b.tryWake n) := by
  unfold Block.tryWake; split
  · next c _ =>
    have hcpu : Works b (b.modCpu n fun _ => c) := of_regs rfl rfl rfl
    have hcode : wallCode < Obj.engRetired.idx * 256 + Obj.engRetired.sub := by decide
    exact hcpu.trans (add_above _ 1 0 (hcode.trans_le (Nat.add_le_add_right (Nat.mul_le_mul_right _ (Nat.le_add_right _ _)) _)))
  · exact refl b

theorem event (b : Block) (n bit : Nat) : Works b (b.event n bit) := by
  unfold Block.event; extract_lets c m f c1; split
  · have hcpu : Works b (b.modCpu n fun _ => c1) := of_regs rfl rfl rfl
    exact hcpu.trans (tryWake _ n)
  · exact refl b

theorem emit (b : Block) (o : Out) : Works b (b.emit o) := of_regs rfl rfl rfl

theorem edgeResult (b : Block) (r : Radio) (e : Nat) (l : List Nat) : Works b (b.edgeResult r e l) :=
  (emit b _).trans (event _ _ _)

theorem txStatus (b : Block) (r : Radio) (code : Nat) : Works b (b.txStatus r code) := by
  have h1 : Works b (b.edgeResult r 1 [code]) := edgeResult b r 1 _
  refine ite h1 (h1.trans (put _ _ ?_))
  unfold txStatusReg; cases r <;> split <;> decide

/-! ### The charge, the lines and the commands -/

theorem dutyCorrect (b : Block) (c : Charge) (used : Nat) : Works b (b.dutyCorrect c used) := by
  unfold Block.dutyCorrect
  refine ite (foldl (fun d i => ?_) _ b) (foldl (fun d i => ?_) _ b) <;> exact of_regs rfl rfl rfl

theorem femDrive (b : Block) (r : Radio) (at_ : Nat) : Works b (b.femDrive r at_) := ite (refl b) (of_regs rfl rfl rfl)

theorem rampEnd (b : Block) (r : Radio) : Works b (b.rampEnd r) := by
  unfold Block.rampEnd; split
  · exact refl b
  · next a _ =>
    extract_lets b1
    have h1 : Works b b1 := of_regs rfl rfl rfl
    have hout (c : Block) : Works c (c.coexOut r false) := ite (refl c) (of_regs rfl rfl rfl)
    have htail (c : Block) (source : Nat) : Works c (c.blankTail source) := ite (of_regs rfl rfl rfl) (refl c)
    have hfreeze (c : Block) : Works c (c.freeze r b.now) := of_regs rfl rfl rfl
    have hsplit (c : Block) : Works c c.splitFollow := ite (refl c) (of_regs rfl rfl rfl)
    exact ((((h1.trans (hout _)).trans (htail _ _)).trans (femDrive _ r _)).trans (hfreeze _)).trans (hsplit _)

theorem takeCmd (b : Block) (r : Radio) (c : TxCmd) (ac : Nat) : Works b (b.takeCmd r c ac) := by
  unfold Block.takeCmd; extract_lets b1
  have h1 : Works b b1 := of_regs rfl rfl rfl
  have hcontend : Works b1 (b1.contend r ac) := ite (refl b1) (of_regs rfl rfl rfl)
  exact ite h1 (ite (h1.trans (of_regs rfl rfl rfl)) (ite h1 (h1.trans hcontend)))

theorem endCmd (b : Block) (r : Radio) : Works b (b.endCmd r) := by
  unfold Block.endCmd; extract_lets b0 b1
  have h0 : Works b b0 := of_regs rfl rfl rfl
  have h1 : Works b0 b1 := ite (ite (refl b0) (of_regs rfl rfl rfl)) (refl b0)
  split
  · exact h0.trans h1
  · next l _ =>
    have hown : Works b1 (b1.modRadio r fun u => { u with own := l }) := of_regs rfl rfl rfl
    exact (h0.trans h1).trans (hown.trans (takeCmd _ r _ 3))

theorem waitAgain (b : Block) (r : Radio) : Works b (b.waitAgain r) := by
  unfold Block.waitAgain; split
  · exact refl b
  · exact takeCmd b r _ _

theorem uncommit (b : Block) (r : Radio) : Works b (b.uncommit r) := by
  unfold Block.uncommit; split
  · exact refl b
  · extract_lets b1
    have h1 : Works b b1 := (dutyCorrect b _ 0).trans (rampEnd _ r)
    have hmissed (c : Block) (gid : Nat) : Works c (c.missedTrigger gid) := by
      unfold Block.missedTrigger; split
      · exact refl c
      · exact (of_regs rfl rfl rfl : Works c (c.modGather gid _)).trans (remelt _ _ _)
    split
    · exact (hmissed _ _).after (h1.trans (of_regs rfl rfl rfl))
    · exact h1

theorem retryUnchanged (b : Block) (r : Radio) (c : TxCmd) : Works b (b.retryUnchanged r c) := by
  unfold Block.retryUnchanged; split <;> exact of_regs rfl rfl rfl

/-! ### What a radio puts on air -/

theorem pushStamp (b : Block) (q ident time : Nat) : Works b (b.pushStamp q ident time) := by
  refine ite (of_regs rfl rfl rfl) (Works.trans ?_ (of_tells (.notice _ _ _ _ _) (by decide)))
  exact (put_above b 1 q (by decide)).trans (add_above _ 1 q (by decide))

theorem lowNumber (b : Block) (f : Frame) : Works b (b.lowNumber f) := by
  unfold Block.lowNumber; split
  · exact ite (refl b) ((put_above _ _ _ (by decide)).after (modFrame b _ fun _ => ⟨rfl, rfl⟩))
  · exact refl b

theorem frameOnAir (b : Block) (r : Radio) (fid : Nat) : Works b (b.frameOnAir r fid) := by
  unfold Block.frameOnAir; split
  · exact refl b
  · next f _ =>
    extract_lets b0 b1
    have hdata (c : Block) : Works c (c.dataOnAir r f) := by
      unfold Block.dataOnAir; split <;> exact of_regs rfl rfl rfl
    have h0 : Works b b0 := (ite (lowNumber b f) (refl b)).trans (hdata _)
    have h1 : Works b b1 := h0.trans (modFrame b0 fid fun _ => ⟨rfl, rfl⟩)
    exact ite h1 (h1.trans (Block.txStamp_induct (refl b1) (fun _ _ => pushStamp b1 _ _ _) _ _ _))

theorem gatherOnAir (b : Block) (r : Radio) (gid : Nat) : Works b (b.gatherOnAir r gid) := by
  unfold Block.gatherOnAir; split
  · exact refl b
  · extract_lets b1 b2
    have hsent : Works b (b.modGather gid fun x => { x with state := .sent }) := of_regs rfl rfl rfl
    have h1 : Works b b1 := hsent.trans (add_above _ 1 0 (by decide))
    have h2 : Works b1 b2 := foldl (fun c i => frameOnAir c r i) _ b1
    exact (h1.trans h2).trans (remelt _ _ _)

theorem lowTakes (b : Block) (k : Nat) (r : Radio) : Works b (b.lowTakes k r) :=
  ite (put_above b _ _ (by decide)) (refl b)

theorem mgmtOnAir (b : Block) (k : Nat) (r : Radio) (cseq : Nat) (ackReq : Bool) :
    Works b (b.mgmtOnAir k r cseq ackReq) := by
  unfold Block.mgmtOnAir; split
  · exact refl b
  · extract_lets b1
    have h1 : Works b b1 := ite (refl b) (lowTakes b k r)
    exact h1.trans (of_regs rfl rfl rfl)

theorem nackOnAir (b : Block) (k : Nat) (r : Radio) : Works b (b.nackOnAir k r) := by
  unfold Block.nackOnAir; extract_lets l; split
  · exact refl b
  · have hair (o : List Octet) : Works b ((b.caneAir k r 2 7 o).add Obj.linkNacksSent 1 k) :=
      (add_above _ 1 k (by decide)).after (of_regs rfl rfl rfl)
    exact (hair _).trans (of_regs rfl rfl rfl)

theorem ctlOnAir (b : Block) (k type : Nat) (r : Radio) : Works b (b.ctlOnAir k type r) := by
  unfold Block.ctlOnAir; extract_lets b1
  have h1 : Works b b1 := ite (refl b) ((lowTakes b k r).trans (of_regs rfl rfl rfl))
  split
  · exact h1.trans (of_regs rfl rfl rfl)
  · exact h1.trans (nackOnAir b1 k r)
  · exact h1.trans (of_regs rfl rfl rfl)
  · exact h1.trans (of_regs rfl rfl rfl)
  · exact h1

theorem carriedOnAir (b : Block) (r : Radio) (c : TxCmd) : Works b (b.carriedOnAir r c) := by
  unfold Block.carriedOnAir; split
  · exact gatherOnAir b r _
  · exact frameOnAir b r _
  · exact mgmtOnAir b _ r _ _
  · exact ctlOnAir b _ _ r
  · exact refl b

/-! ### A PPDU cut, a test transmission stopped -/

theorem cutPpdu (b : Block) (r : Radio) (status : Nat) : Works b (b.cutPpdu r status) := by
  unfold Block.cutPpdu; split
  · exact refl b
  · next a _ =>
    extract_lets used b1 b2
    have h1 : Works b b1 := ite (refl b) (carriedOnAir b r _)
    have h2 : Works b1 b2 := ((dutyCorrect b1 _ _).trans (rampEnd _ r)).trans ((emit _ _).trans (emit _ _))
    have hend : Works b2 (((b2.txStatus r status).retryUnchanged r a.cmd).endCmd r) :=
      ((txStatus b2 r status).trans (retryUnchanged _ r _)).trans (endCmd _ r)
    exact (h1.trans h2).trans (ite (refl b2) hend)

theorem stopTest (b : Block) (r : Radio) (status : Nat) : Works b (b.stopTest r status) := by
  unfold Block.stopTest; extract_lets b1
  have h1 : Works b b1 := of_regs rfl rfl rfl
  split
  · exact h1
  · refine ite h1 ?_
    split
    · exact h1.trans (endCmd b1 r)
    · next a _ =>
      refine ite (h1.trans (endCmd b1 r)) (ite ?_ ?_)
      · have hoff := (dutyCorrect b1 a.charge ((b.now - a.rampAt) / 32 + a.ramp.down)).trans (rampEnd _ r)
        exact ((((h1.trans hoff).trans (emit _ _)).trans (emit _ _)).trans (txStatus _ r status)).trans (endCmd _ r)
      · exact h1.trans (((uncommit b1 r).trans (txStatus _ r status)).trans (endCmd _ r))

end Works

end Sys2Proof.Machine
end

section
/-!
SUPPORT. Tuning (R141 to R145): what a radio holds once its synthesiser settles on a channel, when it locks, and what a
timeout and a loss of lock do.
-/

namespace Sys2Proof.Machine

variable {b : Block} {r : Radio}

/-! ### Calibrations due -/

/-- The channel and the requested tune of a radio stay, and so does every calibration that is due. -/
structure RadioUnit.Tuned (u v : RadioUnit) : Prop where
  tuneDue : v.tuneDue = u.tuneDue
  freq : v.freq = u.freq
  due : ∀ kind, u.isDue kind = true → v.isDue kind = true

theorem RadioUnit.Tuned.refl (u : RadioUnit) : u.Tuned u := ⟨rfl, rfl, fun _ h => h⟩

theorem RadioUnit.Tuned.trans {u v w : RadioUnit} (h : u.Tuned v) (k : v.Tuned w) : u.Tuned w :=
  ⟨k.tuneDue.trans h.tuneDue, k.freq.trans h.freq, fun kind hu => k.due kind (h.due kind hu)⟩

/-- A radio with one more calibration due. -/
def RadioUnit.withDue (u : RadioUnit) (kind now : Nat) : RadioUnit :=
  { u with due := if u.due.any fun x => x.1 == kind then u.due else u.due ++ [(kind, now)] }

theorem RadioUnit.isDue_withDue (u : RadioUnit) (kind now j : Nat) :
    (u.withDue kind now).isDue j = (u.isDue j || kind == j) := by
  unfold RadioUnit.withDue RadioUnit.isDue
  by_cases h : u.due.any fun x => x.1 == kind
  · by_cases hj : kind = j
    · subst hj; simp [h]
    · simp [h, hj]
  · simp [h]

theorem RadioUnit.tuned_withDue (u : RadioUnit) (kind now : Nat) : u.Tuned (u.withDue kind now) :=
  ⟨rfl, rfl, fun j h => by rw [u.isDue_withDue, h]; rfl⟩

theorem Block.calDue_of_on {kind : Nat} (h : b.calOn r kind = true) :
    b.calDue r kind = b.modRadio r fun u => u.withDue kind b.now := if_pos h

theorem Block.calDue_regs (b : Block) (r : Radio) (kind : Nat) : (b.calDue r kind).regs = b.regs := by
  unfold Block.calDue; split <;> rfl

theorem Block.calDue_radios_length (b : Block) (r : Radio) (kind : Nat) :
    (b.calDue r kind).radios.length = b.radios.length := by
  unfold Block.calDue; split
  · exact Block.modRadio_radios_length _ _ _
  · rfl

theorem Block.tuned_calDue (hn : b.radios.length = 3) (kind : Nat) :
    (b.radio r).Tuned ((b.calDue r kind).radio r) := by
  by_cases h : b.calOn r kind = true
  · rw [Block.calDue_of_on h, Block.radio_modRadio_same hn]
    exact (b.radio r).tuned_withDue kind _
  · rw [show b.calDue r kind = b from if_neg h]
    exact .refl _

theorem Block.isDue_calDue (hn : b.radios.length = 3) {kind : Nat} (h : b.calOn r kind = true) :
    ((b.calDue r kind).radio r).isDue kind = true := by
  rw [Block.calDue_of_on h, Block.radio_modRadio_same hn, RadioUnit.isDue_withDue]
  simp

/-! ### Settling on a channel (R141, R145) -/

/-- The objects that a synthesiser that settles writes. -/
def settleKeys (r : Radio) : List Nat := [(Obj.synthState.of r).key 0, (Obj.calStatus.of r).key 0, Obj.splitState.key 0]

/-- The radio as it starts to settle, before its calibrations fall due. -/
def RadioUnit.settling (u : RadioUnit) (now freq bw : Nat) : RadioUnit :=
  { u with
    tuneDue := false, tuneFrom := now, freq := freq, bw := bw, idleFrom := now, segsDone := [], forced := [] }

/-- The block as a synthesiser starts to settle, before calibrations fall due. -/
def Block.tuneBegin (b : Block) (r : Radio) (freq bw : Nat) : Block :=
  let b1 := (b.modRadio r fun u => u.settling b.now freq bw).put (Obj.synthState.of r) 1
  b1.put (Obj.calStatus.of r) (b1.statusAfterTune r (bandOf r freq))

/-- The calibrations that fall due with a tune; `cross` tells that it leaves the band. -/
def Block.tuneDues (b : Block) (r : Radio) (cross : Bool) : Block :=
  let b2 := (b.calDue r 4).calDue r 0
  if cross then b2.calDue r 1 else b2

/-- The checks of the surroundings that follow a tune. -/
def Block.tuneFollow (b : Block) (r : Radio) : Block :=
  let b3 := b.femDrive r b.now
  match r with
  | .h => b3.startCac
  | .m => b3.checkSplit
  | .l => b3

theorem Block.calDue_now (b : Block) (r : Radio) (kind : Nat) : (b.calDue r kind).now = b.now := by
  unfold Block.calDue; split <;> rfl

theorem Block.tuneDues_now (b : Block) (r : Radio) (cross : Bool) : (b.tuneDues r cross).now = b.now := by
  unfold Block.tuneDues; split <;> simp [Block.calDue_now]

theorem Block.settleOn_eq (b : Block) (r : Radio) (freq bw : Nat) :
    b.settleOn r freq bw = ((b.tuneBegin r freq bw).tuneDues r
      (bandOf r (b.radio r).freq != bandOf r freq || (b.radio r).freq == 0)).tuneFollow r := by
  unfold Block.tuneFollow; rw [Block.tuneDues_now]; rfl

theorem Block.tuneDues_regs (b : Block) (r : Radio) (cross : Bool) : (b.tuneDues r cross).regs = b.regs := by
  unfold Block.tuneDues; split <;> simp [Block.calDue_regs]

theorem Block.calDue_frames (b : Block) (r : Radio) (kind : Nat) : (b.calDue r kind).frames = b.frames := by
  unfold Block.calDue; split <;> rfl

theorem Block.tuneDues_frames (b : Block) (r : Radio) (cross : Bool) : (b.tuneDues r cross).frames = b.frames := by
  unfold Block.tuneDues; split <;> simp [Block.calDue_frames]

theorem Block.tuneFollow_frames (b : Block) (r : Radio) : (b.tuneFollow r).frames = b.frames := by
  have hfem : (b.femDrive r b.now).frames = b.frames := (Steady.femDrive (r := r) b r _).frames
  unfold Block.tuneFollow
  cases r with
  | m => exact ((Steady.splitFollow (r := .m) _).frames).trans hfem
  | _ => exact hfem

theorem Block.settleOn_frames (b : Block) (r : Radio) (freq bw : Nat) : (b.settleOn r freq bw).frames = b.frames := by
  rw [Block.settleOn_eq, Block.tuneFollow_frames, Block.tuneDues_frames]; rfl

theorem Block.splitFollow_regs (b : Block) : b.splitFollow.regs = b.regs := by
  unfold Block.splitFollow; split <;> rfl

theorem Block.get_tuneFollow (b : Block) (r : Radio) {q : Reg} {k : Nat} (h : q.key k ≠ Obj.splitState.key 0) :
    (b.tuneFollow r).get q k = b.get q k := by
  have hfem : (b.femDrive r b.now).get q k = b.get q k := by unfold Block.get; rw [Block.femDrive_regs]
  unfold Block.tuneFollow
  cases r with
  | m =>
    refine Eq.trans ?_ hfem
    unfold Block.checkSplit
    rw [Block.get, Block.splitFollow_regs]
    exact Block.get_put_ne _ _ h
  | _ => exact hfem

/-- A tune leaves every object but the three of its own. -/
theorem Block.get_settleOn (b : Block) (r : Radio) (freq bw : Nat) {q : Reg} {k : Nat} (h : q.key k ∉ settleKeys r) :
    (b.settleOn r freq bw).get q k = b.get q k := by
  simp only [settleKeys, List.mem_cons, List.not_mem_nil, or_false, not_or] at h
  obtain ⟨hsynth, hcal, hsplit⟩ := h
  rw [Block.settleOn_eq, Block.get_tuneFollow _ _ hsplit, Block.get, Block.tuneDues_regs]
  exact (Block.get_put_ne _ _ hcal).trans (Block.get_put_ne _ _ hsynth)

/-- A synthesiser that settles reads so. -/
theorem Block.synthState_settleOn (b : Block) (r : Radio) (freq bw : Nat) :
    (b.settleOn r freq bw).get (Obj.synthState.of r) = 1 := by
  have hcal : (Obj.synthState.of r).key 0 ≠ (Obj.calStatus.of r).key 0 := by cases r <;> decide
  rw [Block.settleOn_eq, Block.get_tuneFollow _ _ (by cases r <;> decide), Block.get, Block.tuneDues_regs]
  exact (Block.get_put_ne _ _ hcal).trans (Block.get_put_same _ _ _ _)

/-- Its DC calibration and its VCO selection are no longer valid. -/
theorem Block.calStatus_settleOn (b : Block) (r : Radio) (freq bw : Nat) :
    ((b.settleOn r freq bw).get (Obj.calStatus.of r)).testBit 0 = false ∧
      ((b.settleOn r freq bw).get (Obj.calStatus.of r)).testBit 4 = false := by
  obtain ⟨c, hc⟩ : ∃ c : Block, (b.settleOn r freq bw).get (Obj.calStatus.of r) =
      c.statusAfterTune r (bandOf r freq) := by
    refine ⟨(b.modRadio r fun u => u.settling b.now freq bw).put (Obj.synthState.of r) 1, ?_⟩
    rw [Block.settleOn_eq, Block.get_tuneFollow _ _ (by cases r <;> decide), Block.get, Block.tuneDues_regs]
    exact Block.get_put_same _ _ _ _
  have hkept : c.get (Obj.calStatus.of r) &&& 8 = 0 ∨ c.get (Obj.calStatus.of r) &&& 8 = 8 := by
    have h := Nat.and_two_pow (c.get (Obj.calStatus.of r)) 3
    rcases hb : (c.get (Obj.calStatus.of r)).testBit 3 <;> simp_all
  rw [hc, Block.statusAfterTune]
  rcases hkept with h | h <;> rw [h] <;> split <;> split <;> decide

theorem Block.femDrive_radio (b : Block) (r q : Radio) (at_ : Nat) : (b.femDrive r at_).radio q = b.radio q := by
  unfold Block.radio; rw [Block.femDrive_radios]

theorem Block.tuned_splitFollow (b : Block) : (b.radio .m).Tuned (b.splitFollow.radio .m) := by
  unfold Block.splitFollow; split
  · exact .refl _
  · rcases b.radio_modRadio_cases .m .m fun u => { u with split := b.get Obj.splitState == 1 } with h | h <;> rw [h]
    · exact ⟨rfl, rfl, fun _ h => h⟩
    · exact .refl _

theorem Block.tuned_tuneFollow (b : Block) (r : Radio) : (b.radio r).Tuned ((b.tuneFollow r).radio r) := by
  rw [← b.femDrive_radio r r b.now]
  cases r with
  | h => exact .refl _
  | m => exact Block.tuned_splitFollow ((b.femDrive .m b.now).put Obj.splitState _)
  | l => exact .refl _

/-- What a radio holds once its synthesiser settles on a channel: the channel, its VCO selection due, and its DC
calibration if that is enabled. -/
theorem Block.radio_settleOn (hn : b.radios.length = 3) (freq bw : Nat) :
    ((b.settleOn r freq bw).radio r).tuneDue = false ∧ ((b.settleOn r freq bw).radio r).freq = freq ∧
      ((b.settleOn r freq bw).radio r).isDue 4 = true ∧
      ((b.get (Obj.calEnable.of r)).testBit 0 = true → ((b.settleOn r freq bw).radio r).isDue 0 = true) := by
  rw [Block.settleOn_eq]
  generalize hs : b.tuneBegin r freq bw = s
  generalize (bandOf r (b.radio r).freq != bandOf r freq || (b.radio r).freq == 0) = cross
  have hsn : s.radios.length = 3 := by rw [← hs]; exact (Block.modRadio_radios_length _ _ _).trans hn
  have hstart : s.radio r = (b.radio r).settling b.now freq bw := by
    rw [← hs]; exact Block.radio_modRadio_same hn r _
  have h4n : (s.calDue r 4).radios.length = 3 := (s.calDue_radios_length r 4).trans hsn
  have h0n : ((s.calDue r 4).calDue r 0).radios.length = 3 := ((s.calDue r 4).calDue_radios_length r 0).trans h4n
  have hcross : (((s.calDue r 4).calDue r 0).radio r).Tuned ((s.tuneDues r cross).radio r) := by
    unfold Block.tuneDues; split
    · exact Block.tuned_calDue h0n 1
    · exact .refl _
  have hlast := hcross.trans ((s.tuneDues r cross).tuned_tuneFollow r)
  have hzero := (Block.tuned_calDue h4n 0).trans hlast
  have hall := (Block.tuned_calDue hsn 4).trans hzero
  rw [hstart] at hall
  refine ⟨hall.tuneDue, hall.freq, hzero.due 4 (Block.isDue_calDue hsn rfl), fun hon => ?_⟩
  refine hlast.due 0 (Block.isDue_calDue h4n ?_)
  have hget : (s.calDue r 4).get (Obj.calEnable.of r) = b.get (Obj.calEnable.of r) := by
    rw [Block.get, Block.calDue_regs, ← hs]
    exact (Block.get_put_ne _ _ (by cases r <;> decide)).trans (Block.get_put_ne _ _ (by cases r <;> decide))
  simpa [Block.calOn, bitSet, hget] using hon

end Sys2Proof.Machine
end

section
/-!
SUPPORT. The synthesiser's lock, its timeout and its loss, and the start of a tune (R141, R143, R144).
-/

namespace Sys2Proof.Machine

variable {b : Block} {r : Radio}

/-! ### Lock (R142, R143, R145) -/

/-- A synthesiser settles: its radio is on, and it has not locked or has missed its time to. -/
def Block.settles (b : Block) (r : Radio) : Prop :=
  b.radioOn r = true ∧ (b.get (Obj.synthState.of r) = 1 ∨ b.get (Obj.synthState.of r) = 3)

theorem Block.synthLock_of_not (h : ¬ b.settles r ∨ (b.radio r).isDue 4 = true) : b.synthLock r = b := by
  refine if_neg fun hp => ?_
  simp only [Bool.and_eq_true, Bool.or_eq_true, beq_iff_eq, Bool.not_eq_true'] at hp
  obtain ⟨⟨hon, hst⟩, hdue⟩ := hp
  exact h.elim (fun hn => hn ⟨hon, hst⟩) fun hd => by simp [hd] at hdue

theorem Block.synthLock_locks (h : b.settles r) (hdue : (b.radio r).isDue 4 = false) :
    (b.synthLock r).get (Obj.synthState.of r) = 2 ∧
      (b.synthLock r).get (Obj.tuneTimeLast.of r) = min ((b.now - (b.radio r).tuneFrom) / 320) 65535 ∧
      (b.synthLock r).radios = b.radios := by
  have hlocks : b.synthLock r = (b.put (Obj.synthState.of r) 2).put (Obj.tuneTimeLast.of r)
      (min ((b.now - (b.radio r).tuneFrom) / 320) 65535) := by
    refine if_pos ?_
    simpa [h.1, hdue] using h.2
  rw [hlocks]
  refine ⟨?_, Block.get_put_same _ _ _ _, rfl⟩
  rw [Block.get_put_ne _ _ (by cases r <;> decide), Block.get_put_same]

/-! ### The end of a command -/

theorem Block.radio_goHome (b : Block) (r : Radio) : ∃ d, b.goHome.radio r = { b.radio r with tuneDue := d } := by
  unfold Block.goHome; split
  · exact ⟨_, rfl⟩
  · rcases b.radio_modRadio_cases .l r fun u => { u with tuneDue := true } with h | h <;> rw [h]
    · exact ⟨true, rfl⟩
    · exact ⟨_, rfl⟩

/-- The end of a command behind which nothing waits leaves any radio idle. -/
theorem Block.endCmd_rests (hn : b.radios.length = 3) (hown : (b.radio r).own = []) :
    ((b.endCmd r).radio r).phase = .idle ∧ ((b.endCmd r).radio r).cmd = none := by
  unfold Block.endCmd; extract_lets b0 b1
  have h0 : b0.radio r = { b.radio r with
      cmd := none, phase := .idle, delayed := false, idleFrom := b.now
      txop := if r == .l then none else (b.radio r).txop } := Block.radio_modRadio_same hn r _
  obtain ⟨d, h1⟩ : ∃ d, b1.radio r = { b0.radio r with tuneDue := d } := by
    unfold b1; split
    · exact b0.radio_goHome r
    · exact ⟨_, rfl⟩
  have hnone : (b1.radio r).own = [] := by rw [h1, h0]; exact hown
  rw [hnone]
  dsimp only
  rw [h1, h0]
  exact ⟨rfl, rfl⟩

theorem Block.edgeResult_radios (b : Block) (r : Radio) (e : Nat) (l : List Nat) :
    (b.edgeResult r e l).radios = b.radios := by
  unfold Block.edgeResult Block.event Block.tryWake
  dsimp only
  repeat' split
  all_goals rfl

theorem Block.txStatus_radios (b : Block) (r : Radio) (code : Nat) : (b.txStatus r code).radios = b.radios := by
  unfold Block.txStatus; extract_lets b1
  have h1 : b1.radios = b.radios := b.edgeResult_radios r 1 _
  split
  · exact h1
  · exact h1

/-- A result of an edge leaves every object below those of the engines. -/
theorem Block.get_edgeResult (b : Block) (r : Radio) (e : Nat) (l : List Nat) {q : Reg}
    (h : q.idx * 256 + q.sub < Obj.engRetired.idx * 256) : (b.edgeResult r e l).get q = b.get q := by
  unfold Block.edgeResult Block.event Block.tryWake
  dsimp only
  repeat' split
  · refine Block.get_add_ne _ _ fun he => ?_
    have hkey := congrArg (· / 1048576) he
    simp [Reg.key, Reg.eng] at hkey
    omega
  · rfl
  · rfl

/-- A status but 0 of a PPDU counts under its number. -/
theorem Block.get_txStatus_same (b : Block) (r : Radio) {code : Nat} (h : code ≠ 0) :
    (b.txStatus r code).get ((txStatusReg code).of r) =
      ((txStatusReg code).of r).raised (b.get ((txStatusReg code).of r) + 1) := by
  unfold Block.txStatus; dsimp only
  rw [if_neg h, Block.get_add_same, Block.get_edgeResult]
  unfold txStatusReg; cases r <;> split <;> decide

/-! ### The timeout (R143) -/

/-- LOCK_TIMEOUT has passed, from the start of the tune or, after an earlier timeout, from the command. -/
def Block.lockLate (b : Block) (r : Radio) : Prop :=
  (if b.get (Obj.synthState.of r) = 1 then (b.radio r).tuneFrom else (b.radio r).waitFrom) +
    us (b.get (Obj.lockTimeout.of r)) ≤ b.now

theorem Block.lockTimeout_of_not (h : ¬ b.settles r ∨ ¬ b.lockLate r) : b.lockTimeout r = b := by
  refine if_neg fun hp => ?_
  simp only [Bool.and_eq_true, Bool.or_eq_true, beq_iff_eq, decide_eq_true_eq] at hp
  exact h.elim (fun hn => hn hp.1) fun hn => hn hp.2

theorem Block.lockTimeout_of_late (h : b.settles r) (hlate : b.lockLate r) : b.lockTimeout r =
    if (b.radio r).phase == .waiting then ((b.put (Obj.synthState.of r) 3).txStatus r 1).endCmd r
    else b.put (Obj.synthState.of r) 3 := by
  refine if_pos ?_
  simp only [Bool.and_eq_true, Bool.or_eq_true, beq_iff_eq, decide_eq_true_eq]
  exact ⟨h, hlate⟩

/-- The waiting command ends as one that met no lock. -/
theorem Block.lockTimeout_ends (h : b.settles r) (hlate : b.lockLate r) (hwaits : (b.radio r).phase = .waiting)
    (hown : (b.radio r).own = []) (hn : b.radios.length = 3) :
    (b.lockTimeout r).get (Obj.synthState.of r) = 3 ∧ ((b.lockTimeout r).radio r).phase = .idle ∧
      ((b.lockTimeout r).radio r).cmd = none ∧ (b.lockTimeout r).get (Obj.txStatusCount1.of r) =
        (Obj.txStatusCount1.of r).raised (b.get (Obj.txStatusCount1.of r) + 1) := by
  rw [Block.lockTimeout_of_late h hlate, if_pos (by simpa using hwaits)]
  have hradios : ((b.put (Obj.synthState.of r) 3).txStatus r 1).radios = b.radios := Block.txStatus_radios _ r 1
  generalize hc : b.put (Obj.synthState.of r) 3 = c at hradios ⊢
  have hradio : (c.txStatus r 1).radio r = b.radio r := by unfold Block.radio; rw [hradios]
  obtain ⟨hphase, hcmd⟩ := Block.endCmd_rests (by rw [hradios]; exact hn) (hradio ▸ hown)
  refine ⟨?_, hphase, hcmd, ?_⟩
  · have hkey : (Obj.synthState.of r).key 0 ≠ ((txStatusReg 1).of r).key 0 := by cases r <;> decide
    have hstatus : (c.txStatus r 1).get (Obj.synthState.of r) = c.get (Obj.synthState.of r) :=
      (Block.get_add_ne _ _ hkey).trans (Block.get_edgeResult c r 1 _ (by cases r <;> decide))
    rw [Block.get, Block.endCmd_regs]
    exact hstatus.trans (by rw [← hc]; exact Block.get_put_same _ _ _ _)
  · rw [Block.get, Block.endCmd_regs]
    refine (c.get_txStatus_same r Nat.one_ne_zero).trans ?_
    have hkey : ((txStatusReg 1).of r).key 0 ≠ (Obj.synthState.of r).key 0 := by cases r <;> decide
    rw [← hc, Block.get_put_ne _ _ hkey]
    rfl

/-! ### A loss of lock (R144) -/

theorem Block.lockLost_of_not (h : b.radioOn r = false ∨ b.get (Obj.synthState.of r) ≠ 2) : b.lockLost r = b := by
  refine if_neg fun hp => ?_
  simp only [Bool.and_eq_true, beq_iff_eq] at hp
  exact h.elim (fun hoff => by simp [hoff] at hp) fun hne => hne hp.2

/-- What a loss of lock does to the PPDU under way, before the radio tunes again. -/
def Block.lockDrops (b : Block) (r : Radio) : Block :=
  let b1 := b.add (Obj.lockLosses.of r)
  if b.onAirNow r then b1.cutPpdu r 4
  else if (b.radio r).air.isNone then b1
  else if (b.radio r).air.any (·.own) then b1.uncommit r
  else (b1.uncommit r).waitAgain r

theorem Block.lockLost_of_locked (hon : b.radioOn r = true) (hst : b.get (Obj.synthState.of r) = 2) :
    b.lockLost r = (b.lockDrops r).settleOn r (b.radio r).freq (b.radio r).bw := by
  refine if_pos ?_
  simp [hon, hst]

theorem Block.works_lockDrops (b : Block) (r : Radio) : Works (b.add (Obj.lockLosses.of r)) (b.lockDrops r) := by
  unfold Block.lockDrops
  exact .ite (.cutPpdu _ r 4) (.ite (.refl _) (.ite (.uncommit _ r) ((Works.uncommit _ r).trans (.waitAgain _ r))))

theorem Block.lockDrops_of_idle (h : (b.radio r).air = none) : b.lockDrops r = b.add (Obj.lockLosses.of r) := by
  simp [Block.lockDrops, Block.onAirNow, h]

theorem lockLosses_mem_walled (r : Radio) : Obj.lockLosses.of r ∈ walledRegs := by
  cases r <;> simp [walledRegs]

/-- A loss of lock counts and tunes again at the same frequency, and loses no frame. -/
theorem Block.lockLost_tunes (hon : b.radioOn r = true) (hst : b.get (Obj.synthState.of r) = 2) :
    (b.lockLost r).get (Obj.synthState.of r) = 1 ∧
      (b.lockLost r).get (Obj.lockLosses.of r) = (Obj.lockLosses.of r).raised (b.get (Obj.lockLosses.of r) + 1) ∧
      Claims.sameFrames b (b.lockLost r) ∧ ((b.radio r).air = none →
        b.lockLost r = (b.add (Obj.lockLosses.of r)).settleOn r (b.radio r).freq (b.radio r).bw) := by
  have hdrops := b.works_lockDrops r
  rw [Block.lockLost_of_locked hon hst]
  refine ⟨Block.synthState_settleOn _ r _ _, ?_, ?_, fun hair => by rw [Block.lockDrops_of_idle hair]⟩
  · rw [Block.get_settleOn _ r _ _ (by cases r <;> decide), hdrops.get _ (lockLosses_mem_walled r)]
    exact Block.get_add_same _ _ _ _
  · unfold Claims.sameFrames
    rw [Block.settleOn_frames]
    exact hdrops.frames

/-! ### The start of a tune (R141) -/

theorem Block.tuneStart_of_not
    (h : b.radioOn r = false ∨ (b.radio r).tuneDue = false ∨ (b.radio r).inPpdu = true ∨ (b.radio r).seg ≠ none) :
    b.tuneStart r = b := by
  refine if_neg fun hp => ?_
  simp only [Bool.and_eq_true, Bool.not_eq_true', Option.isNone_iff_eq_none] at hp
  obtain ⟨⟨⟨hon, hdue⟩, hppdu⟩, hseg⟩ := hp
  rcases h with h | h | h | h <;> simp_all

theorem Block.tuneStart_of_free (hon : b.radioOn r = true) (hdue : (b.radio r).tuneDue = true)
    (hppdu : (b.radio r).inPpdu = false) (hseg : (b.radio r).seg = none) :
    b.tuneStart r = b.tuneTo r (b.homeChannel r).1 (b.homeChannel r).2 := by
  refine if_pos ?_
  simp [hon, hdue, hppdu, hseg]

theorem Block.remelt_radio (b : Block) (code : Nat) (sel : Gather → Bool) (q : Radio) :
    (b.remelt code sel).radio q = b.radio q := by
  have h : (b.remelt code sel).radios = b.radios := (congrArg Block.radios (Remelts.remelt b code sel).rest :)
  unfold Block.radio; rw [h]

/-- A remelt for a tune leaves the objects of the radios. -/
theorem Block.get_remelt_tune (b : Block) (sel : Gather → Bool) {q : Reg} (h : q.idx * 256 + q.sub < 0x3000 * 256) :
    (b.remelt 7 sel).get q = b.get q := by
  refine (Remelts.remelt b 7 sel).get q 0 ?_
  have apart {x : Reg} (hx : 0x3000 * 256 ≤ x.idx * 256 + x.sub) : q.key 0 ≠ x.key 0 :=
    Reg.key_ne_same_row 0 (by omega)
  simp only [remeltKeys, List.mem_cons, List.not_mem_nil, or_false, not_or]
  exact ⟨apart (by decide), apart (by decide), apart (by decide), apart (by decide)⟩

/-- A tune that starts takes the channel that is asked for; its VCO selection and its DC calibration run again. -/
theorem Block.tuneStart_tunes (hon : b.radioOn r = true) (hdue : (b.radio r).tuneDue = true)
    (hppdu : (b.radio r).inPpdu = false) (hseg : (b.radio r).seg = none) (hn : b.radios.length = 3) :
    ((b.tuneStart r).radio r).tuneDue = false ∧ ((b.tuneStart r).radio r).freq = b.get (Obj.tuneFreq.of r) ∧
      (b.tuneStart r).get (Obj.synthState.of r) = 1 ∧
      ((b.tuneStart r).get (Obj.calStatus.of r)).testBit 0 = false ∧
      ((b.tuneStart r).get (Obj.calStatus.of r)).testBit 4 = false ∧ ((b.tuneStart r).radio r).isDue 4 = true ∧
      ((b.get (Obj.calEnable.of r)).testBit 0 = true → ((b.tuneStart r).radio r).isDue 0 = true) := by
  rw [Block.tuneStart_of_free hon hdue hppdu hseg, Block.tuneTo, Block.remelt_radio,
    Block.get_remelt_tune _ _ (by cases r <;> decide), Block.get_remelt_tune _ _ (by cases r <;> decide)]
  obtain ⟨htune, hfreq, hvco, hdc⟩ := Block.radio_settleOn (r := r) hn (b.homeChannel r).1 (b.homeChannel r).2
  obtain ⟨hbit0, hbit4⟩ := b.calStatus_settleOn r (b.homeChannel r).1 (b.homeChannel r).2
  exact ⟨htune, hfreq, Block.synthState_settleOn _ r _ _, hbit0, hbit4, hvco, hdc⟩

end Sys2Proof.Machine
end

section
/-!
SUPPORT. Calibration, coexistence and the writes of a tune (R141, R145 to R148, R150, R155, R156), and the statement
about the front ends.
-/

namespace Sys2Proof.Machine

variable {b : Block} {r : Radio}

/-! ### Segments (R146 to R148) -/

section
variable {kind chain ahead : Nat}

/-- The medium, the schedule and the synthesiser let a segment of a kind start. -/
def Block.segmentFree (b : Block) (r : Radio) (kind ahead : Nat) : Bool :=
  if kind = 4 then b.get (Obj.synthState.of r) == 1 || b.get (Obj.synthState.of r) == 3
  else !(b.radio r).tuneDue && b.calFree r ((b.radio r).forced.contains kind) ahead

/-- A segment of a kind may start on a chain. -/
def Block.segmentAble (b : Block) (r : Radio) (kind chain ahead : Nat) : Prop :=
  b.radioOn r = true ∧ chain < chainCount r ∧ (b.radio r).isDue kind = true ∧ (b.radio r).seg = none ∧
    b.segmentFree r kind ahead = true

theorem Block.segmentAble_iff : (b.radioOn r && decide (chain < chainCount r) && (b.radio r).isDue kind &&
    (b.radio r).seg.isNone && b.segmentFree r kind ahead) = true ↔ b.segmentAble r kind chain ahead := by
  simp [Block.segmentAble, and_assoc]

theorem Block.calStart_of_not (h : ¬ b.segmentAble r kind chain ahead) : b.calStart r kind chain ahead = b :=
  if_neg (mt Block.segmentAble_iff.mp h)

theorem Block.calStart_of_able (h : b.segmentAble r kind chain ahead) : b.calStart r kind chain ahead =
    b.modRadio r fun y => { y with seg := some { kind, chain, at_ := b.now, forced := (b.radio r).forced.contains kind } } :=
  if_pos (Block.segmentAble_iff.mpr h)

end

/-- A radio that holds anything is one of the block's. -/
theorem Block.radioNum_lt_of_seg (h : (b.radio r).seg ≠ none) : radioNum r < b.radios.length := by
  by_contra hr
  exact h (by simp [Block.radio, List.getD_eq_getElem?_getD, Nat.not_lt.mp hr])

theorem Block.radio_modRadio_of_lt (h : radioNum r < b.radios.length) (f : RadioUnit → RadioUnit) :
    (b.modRadio r f).radio r = f (b.radio r) := by
  simp [Block.radio, Block.modRadio, modAt, List.getD_eq_getElem?_getD, h]

/-- The radio without the segment that ends, before it counts. -/
def Block.segmentOff (b : Block) (r : Radio) (s : Seg) : Block :=
  b.modRadio r fun x => { x with seg := none, delayed := x.delayed || (s.forced && x.cmd.isSome) }

/-- The segment that ends has counted, a forced one as such too. -/
def Block.segmentCounted (b : Block) (r : Radio) (s : Seg) : Block :=
  let b2 := (b.segmentOff r s).add (Obj.calSegments.of r)
  if s.forced then b2.add (Obj.calForced.of r) else b2

/-- The last segment of a calibration has ended: the calibration is due no longer. -/
def Block.segmentsOver (b : Block) (r : Radio) (kind : Nat) : Block :=
  b.modRadio r fun x => { x with due := x.due.filter (fun y => y.1 != kind), segsDone := assocDel x.segsDone kind }

theorem Block.calEnd_of_none (h : (b.radio r).seg = none) (last : Bool) : b.calEnd r last = b := by
  unfold Block.calEnd; rw [h]

section
variable {s : Seg} (h : (b.radio r).seg = some s)
include h

theorem Block.calEnd_of_abandoned (ha : s.abandon = true) (last : Bool) :
    b.calEnd r last = (b.segmentOff r s).add (Obj.calAbandoned.of r) := by
  unfold Block.calEnd; rw [h]
  exact if_pos ha

variable (ha : s.abandon = false)
include ha

theorem Block.calEnd_of_counted (last : Bool) : b.calEnd r last =
    if last then ((b.segmentCounted r s).segmentsOver r s.kind).calDone r s.kind
    else (b.segmentCounted r s).modRadio r fun x =>
      { x with segsDone := assocPut x.segsDone s.kind (assocNat x.segsDone s.kind + 1) } := by
  unfold Block.calEnd; rw [h]
  exact if_neg (by simp [ha])

omit h ha in
/-- What counting a segment leaves of the radios. -/
theorem Block.segmentCounted_radios (b : Block) (r : Radio) (s : Seg) :
    (b.segmentCounted r s).radios = (b.segmentOff r s).radios := by
  unfold Block.segmentCounted; dsimp only; split <;> rfl

omit ha in
theorem Block.radio_segmentCounted : (b.segmentCounted r s).radio r = { b.radio r with
    seg := none, delayed := (b.radio r).delayed || (s.forced && (b.radio r).cmd.isSome) } := by
  have hr : radioNum r < b.radios.length := Block.radioNum_lt_of_seg (by simp [h])
  unfold Block.radio
  rw [Block.segmentCounted_radios]
  exact Block.radio_modRadio_of_lt hr _

/-- What the end of a segment that counts writes of objects it writes of its counts, and of a calibration's status. -/
theorem Block.get_calEnd (last : Bool) {q : Reg} (hq : q.key 0 ≠ (Obj.calStatus.of r).key 0) :
    (b.calEnd r last).get q = (b.segmentCounted r s).get q := by
  rw [Block.calEnd_of_counted h ha]
  split
  · exact Block.get_put_ne _ _ hq
  · rfl

omit h ha in
theorem Block.get_segmentCounted (b : Block) (r : Radio) (s : Seg) :
    (b.segmentCounted r s).get (Obj.calSegments.of r) =
        (Obj.calSegments.of r).raised (b.get (Obj.calSegments.of r) + 1) ∧
      (s.forced = true → (b.segmentCounted r s).get (Obj.calForced.of r) =
        (Obj.calForced.of r).raised (b.get (Obj.calForced.of r) + 1)) := by
  have hkey : (Obj.calSegments.of r).key 0 ≠ (Obj.calForced.of r).key 0 := by cases r <;> decide
  have hcount : ((b.segmentOff r s).add (Obj.calSegments.of r)).get (Obj.calSegments.of r) =
      (Obj.calSegments.of r).raised (b.get (Obj.calSegments.of r) + 1) := Block.get_add_same _ _ _ _
  have hforced : ((b.segmentOff r s).add (Obj.calSegments.of r)).get (Obj.calForced.of r) =
      b.get (Obj.calForced.of r) := Block.get_add_ne _ _ hkey.symm
  unfold Block.segmentCounted; dsimp only
  refine ⟨?_, fun hf => ?_⟩
  · split
    · exact (Block.get_add_ne _ _ hkey).trans hcount
    · exact hcount
  · rw [if_pos hf, Block.get_add_same, hforced]

/-- With its last segment a calibration completes: its status is valid, and it is neither due nor forced. -/
theorem Block.calEnd_last : ((b.calEnd r true).get (Obj.calStatus.of r)).testBit s.kind = true ∧
    ((b.calEnd r true).radio r).seg = none ∧ ((b.calEnd r true).radio r).isDue s.kind = false ∧
    s.kind ∉ ((b.calEnd r true).radio r).forced := by
  have hr : radioNum r < b.radios.length := Block.radioNum_lt_of_seg (by simp [h])
  have hr1 : radioNum r < (b.segmentCounted r s).radios.length := by
    rw [Block.segmentCounted_radios]; exact (Block.modRadio_radios_length _ _ _).symm ▸ hr
  have hr2 : radioNum r < ((b.segmentCounted r s).segmentsOver r s.kind).radios.length :=
    (Block.modRadio_radios_length _ _ _).symm ▸ hr1
  have hover : ((b.segmentCounted r s).segmentsOver r s.kind).radio r = _ := Block.radio_modRadio_of_lt hr1 _
  rw [Block.calEnd_of_counted h ha, if_pos rfl]
  unfold Block.calDone
  dsimp only
  refine ⟨by rw [Block.get_put_same, testBit_setBit]; simp, ?_⟩
  unfold Block.radio
  rw [Block.put_radios]
  change ((Block.modRadio _ r _).radio r).seg = none ∧ RadioUnit.isDue ((Block.modRadio _ r _).radio r) s.kind = false ∧
    s.kind ∉ ((Block.modRadio _ r _).radio r).forced
  rw [Block.radio_modRadio_of_lt hr2, hover, Block.radio_segmentCounted h]
  exact ⟨rfl, by simp [RadioUnit.isDue], by simp⟩

theorem Block.calEnd_seg (last : Bool) : ((b.calEnd r last).radio r).seg = none := by
  cases last with
  | true => exact (Block.calEnd_last h ha).2.1
  | false =>
    have hr : radioNum r < b.radios.length := Block.radioNum_lt_of_seg (by simp [h])
    have hr1 : radioNum r < (b.segmentCounted r s).radios.length := by
      rw [Block.segmentCounted_radios]; exact (Block.modRadio_radios_length _ _ _).symm ▸ hr
    rw [Block.calEnd_of_counted h ha, if_neg (by simp), Block.radio_modRadio_of_lt hr1, Block.radio_segmentCounted h]

end

/-! ### Calibrations that starve or fall due (R145, R148) -/

section
variable {kind : Nat}

/-- A calibration of a kind has been due for CAL_STARVE. -/
def Block.calStarved (b : Block) (r : Radio) (kind : Nat) : Bool :=
  (assocGet (b.radio r).due kind).any fun d => decide (d + ms (b.get (Obj.calStarve.of r)) ≤ b.now)

theorem Block.calStarve_of_starved (h : b.calStarved r kind = true) (hnew : kind ∉ (b.radio r).forced) :
    b.calStarve r kind = b.modRadio r fun y => { y with forced := y.forced ++ [kind] } := by
  refine if_pos ?_
  rw [Bool.and_eq_true]
  exact ⟨h, by simpa using hnew⟩

theorem Block.calStarve_of_not (h : b.calStarved r kind = false ∨ kind ∈ (b.radio r).forced) :
    b.calStarve r kind = b := by
  refine if_neg ?_
  rw [Bool.and_eq_true]
  rintro ⟨hs, hnew⟩
  rcases h with h | h
  · exact absurd (hs.symm.trans h) (by simp)
  · simp [h] at hnew

/-- The period of a calibration has passed since its last run. -/
def Block.calOld (b : Block) (r : Radio) (kind : Nat) : Bool :=
  ((b.radio r).lastCal kind).all fun y => decide (y.at_ + secs (b.get (Obj.calPeriod.of r)) ≤ b.now)

/-- The die temperature has stepped since the last run of a calibration. -/
def Block.calMoved (b : Block) (r : Radio) (kind : Nat) : Bool :=
  ((b.radio r).lastCal kind).all fun y => b.tempStep r y.temp

theorem Block.calPeriod_of_off (h : b.radioOn r = false) (step : Bool) : b.calPeriod r kind step = b := by
  simp [Block.calPeriod, h]

theorem Block.calPeriod_time (hon : b.radioOn r = true) : b.calPeriod r kind false =
    if calPeriodic kind && b.calOld r kind then b.calDue r kind else b := by
  simp [Block.calPeriod, Block.calOld, hon]

theorem Block.calPeriod_step (hon : b.radioOn r = true) : b.calPeriod r kind true =
    if calOnTemp kind && b.calMoved r kind then
      (b.calDue r kind).put (Obj.calStatus.of r) (clearBit (b.get (Obj.calStatus.of r)) kind)
    else b := by
  simp [Block.calPeriod, Block.calMoved, hon]

theorem Block.calPeriod_time_of_not (h : b.radioOn r = false ∨ calPeriodic kind = false ∨ b.calOld r kind = false) :
    b.calPeriod r kind false = b := by
  cases hon : b.radioOn r with
  | false => exact Block.calPeriod_of_off hon _
  | true =>
    rw [Block.calPeriod_time hon, if_neg]
    rcases h with h | h | h <;> simp_all

theorem Block.calPeriod_step_of_not (h : b.radioOn r = false ∨ calOnTemp kind = false ∨ b.calMoved r kind = false) :
    b.calPeriod r kind true = b := by
  cases hon : b.radioOn r with
  | false => exact Block.calPeriod_of_off hon _
  | true =>
    rw [Block.calPeriod_step hon, if_neg]
    rcases h with h | h | h <;> simp_all

theorem Block.calPeriod_time_of_old (hon : b.radioOn r = true) (hper : calPeriodic kind = true)
    (hold : b.calOld r kind = true) : b.calPeriod r kind false = b.calDue r kind := by
  rw [Block.calPeriod_time hon, hper, hold]; rfl

/-- A temperature step makes the result of a calibration old. -/
theorem Block.calPeriod_step_of_moved (hon : b.radioOn r = true) (htemp : calOnTemp kind = true)
    (hmoved : b.calMoved r kind = true) : ((b.calPeriod r kind true).get (Obj.calStatus.of r)).testBit kind = false ∧
      (b.calPeriod r kind true).radios = (b.calDue r kind).radios := by
  rw [Block.calPeriod_step hon, htemp, hmoved]
  refine ⟨?_, rfl⟩
  rw [Bool.and_self, if_pos rfl, Block.get_put_same, testBit_clearBit]
  simp

end

/-- The supply is read where the radio is on and has one to read (R150). -/
theorem Block.paSupply_eq (b : Block) (r : Radio) (mv : Nat) : b.paSupply r mv =
    if b.radioOn r ∧ (r = .l ∨ b.get (Obj.paSupplyPage.of r) ≠ 255) then b.modRadio r fun y => { y with paMv := mv } else b := by
  simp [Block.paSupply]

/-! ### Blanking (R155, R156) -/

section
variable {input : Fin 2} {level : Bool}

/-- The block with a level of a COEX_IN pin. -/
def Block.coexAt (b : Block) (input : Fin 2) (level : Bool) : Block :=
  { b with pins := if input = 0 then { b.pins with coexIn0 := level } else { b.pins with coexIn1 := level } }

theorem Block.coexAt_level (b : Block) (input : Fin 2) (level : Bool) :
    (if input = 0 then (b.coexAt input level).pins.coexIn0 else (b.coexAt input level).pins.coexIn1) = level := by
  by_cases h : input = 0 <;> simp [Block.coexAt, h]

/-- The level of an input is its active one. -/
def Block.coexActive (b : Block) (input : Fin 2) (level : Bool) : Bool := level != (b.get Obj.coexPolarity).testBit input

/-- An input at its active level blanks, unless it does already and its tail does not run; else its tail starts. -/
theorem Block.coexIn_eq (b : Block) (input : Fin 2) (level : Bool) : b.coexIn input.val level =
    if b.coexActive input level then
      (if b.coex.blanks.contains (4 + input.val) && !b.coex.tails.any (fun x => x.1 == 4 + input.val)
        then b.coexAt input level else (b.coexAt input level).blankOn (4 + input.val))
    else (b.coexAt input level).blankTail (4 + input.val) := by
  have hlevel : (if input.val = 0 then (b.coexAt input level).pins.coexIn0 else (b.coexAt input level).pins.coexIn1) =
      level := by simpa [← Fin.val_eq_zero_iff] using b.coexAt_level input level
  have hat : b.coexIn input.val level = (b.coexAt input level).coexInLine input.val := by
    unfold Block.coexIn Block.coexAt; simp [← Fin.val_eq_zero_iff]
  rw [hat]
  unfold Block.coexInLine
  rw [hlevel]
  rfl

theorem Block.tails_blankOn (b : Block) (source : Nat) : ∀ y ∈ (b.blankOn source).coex.tails, y.1 ≠ source := by
  have hcoex : (b.blankOn source).coex.tails = b.coex.tails.filter fun x => x.1 != source := by
    unfold Block.blankOn Block.applyBlanks; extract_lets c
    refine (Block.foldl_same (g := fun d => d.coex.tails) (fun d x => ?_) _ _).trans rfl
    split
    · have hend : (d.endRx x.1 x.2 3).coex = d.coex := by
        unfold Block.endRx; split
        · rfl
        · unfold Block.splitFollow Block.edgeResult Block.event Block.tryWake
          dsimp only
          repeat' split
          all_goals rfl
      exact congrArg Coex.tails hend
    · rfl
  intro y hy
  rw [hcoex] at hy
  simpa using (List.mem_filter.mp hy).2

theorem Block.blankTail_keeps (b : Block) (source : Nat) : (b.blankTail source).pins = b.pins ∧
    (b.blankTail source).radios = b.radios ∧ (b.blankTail source).coex.blanks = b.coex.blanks ∧
    (source ∈ b.coex.blanks → ∃ y ∈ (b.blankTail source).coex.tails, y.1 = source) := by
  unfold Block.blankTail; extract_lets c
  by_cases h : (c.blanks.contains source && !c.tails.any fun x => x.1 == source) = true
  · rw [if_pos h]
    exact ⟨rfl, rfl, rfl, fun _ => ⟨(source, b.now), by simp, rfl⟩⟩
  · rw [if_neg h]
    refine ⟨rfl, rfl, rfl, fun hmem => ?_⟩
    have htail : c.tails.any (fun x => x.1 == source) = true := by simp_all [c]
    obtain ⟨y, hy, he⟩ := List.any_eq_true.mp htail
    exact ⟨y, hy, by simpa using he⟩

theorem Block.coexIn_blanks (h : b.coexActive input level = true) (hnew : 4 + input.val ∉ b.coex.blanks) :
    b.coexIn input.val level = (b.coexAt input level).blankOn (4 + input.val) ∧
      4 + input.val ∈ (b.coexIn input.val level).coex.blanks := by
  have heq : b.coexIn input.val level = (b.coexAt input level).blankOn (4 + input.val) := by
    rw [Block.coexIn_eq, if_pos h, if_neg (by simp [hnew])]
  exact ⟨heq, heq ▸ Block.mem_blankOn _ _⟩

/-- An input that blanks goes on, and no tail of it runs. -/
theorem Block.coexIn_stays (h : b.coexActive input level = true) (hold : 4 + input.val ∈ b.coex.blanks) :
    4 + input.val ∈ (b.coexIn input.val level).coex.blanks ∧
      ∀ y ∈ (b.coexIn input.val level).coex.tails, y.1 ≠ 4 + input.val := by
  rw [Block.coexIn_eq, if_pos h]
  split
  · next hrun =>
    refine ⟨hold, fun y hy he => ?_⟩
    have hnone : (b.coex.tails.any fun x => x.1 == 4 + input.val) = false := by simpa [hold] using hrun
    exact List.any_eq_false.mp hnone y hy (by simpa using he)
  · exact ⟨Block.mem_blankOn _ _, Block.tails_blankOn _ _⟩

/-- An input that leaves its active level blanks until its tail has passed. -/
theorem Block.coexIn_releases (h : b.coexActive input level = false) :
    (if input = 0 then (b.coexIn input.val level).pins.coexIn0 else (b.coexIn input.val level).pins.coexIn1) = level ∧
      (b.coexIn input.val level).radios = b.radios ∧ (b.coexIn input.val level).coex.blanks = b.coex.blanks ∧
      (4 + input.val ∈ b.coex.blanks → ∃ y ∈ (b.coexIn input.val level).coex.tails, y.1 = 4 + input.val) := by
  have heq : b.coexIn input.val level = (b.coexAt input level).blankTail (4 + input.val) := by
    rw [Block.coexIn_eq, if_neg (by simp [h])]
  obtain ⟨hpins, hradios, hblanks, htail⟩ := (b.coexAt input level).blankTail_keeps (4 + input.val)
  rw [heq, hpins]
  exact ⟨b.coexAt_level input level, hradios, hblanks, htail⟩

/-- BLANK_TAIL has passed since a source ended. -/
def Block.tailOver (b : Block) (source : Nat) : Bool :=
  b.coex.tails.any fun y => y.1 == source && decide (y.2 + us (b.get Obj.blankTail) ≤ b.now)

theorem Block.blankOff_of_not {source : Nat} (h : b.tailOver source = false) : b.blankOff source = b :=
  if_neg (by rw [show (b.coex.tails.any fun x => _) = false from h]; simp)

theorem Block.blankOff_of_over {source : Nat} (h : b.tailOver source = true) :
    source ∉ (b.blankOff source).coex.blanks ∧ (∀ y ∈ (b.blankOff source).coex.tails, y.1 ≠ source) ∧
      (b.blankOff source).radios = b.radios := by
  rw [show b.blankOff source = _ from if_pos h]
  exact ⟨by simp, fun y hy => by simpa using (List.mem_filter.mp hy).2, rfl⟩

end

/-! ### A write of 0x2000 (R141) -/

/-- An object of the radios at the index of one of them, with that radio's range. -/
theorem Block.find_onRadio (b : Block) {q : Reg} (hq : q = Obj.tuneFreq ∨ q = Obj.tuneBw ∨ q = Obj.testMode) (r : Radio) :
    b.find (q.of r).idx (q.of r).sub = .ok (q.onRadio (radioNum r)) := by
  rcases hq with rfl | rfl | rfl <;> cases r <;>
    exact b.find_of_device (by decide) (by decide) (by decide +kernel)

theorem radioAt_radioNum (r : Radio) : radioAt (radioNum r) = r := by cases r <;> rfl

/-- A write of an object of the radios acts as the radio's own. -/
theorem State.actWrite_onRadio (x : State) (p : Port) {q : Reg}
    (hq : q = Obj.tuneFreq ∨ q = Obj.tuneBw ∨ q = Obj.testMode) (r : Radio) (v k : Nat) :
    x.actWrite p v .plain (q.onRadio (radioNum r)) k =
      x.lift (x.blk.writeRadio (q.onRadio (radioNum r)) (radioNum r) k v) := by
  have hradio : radioOfIdx (q.onRadio (radioNum r)).idx = radioNum r := by
    rcases hq with rfl | rfl | rfl <;> cases r <;> decide
  have hpage : 0x2000 ≤ (q.onRadio (radioNum r)).idx ∧ (q.onRadio (radioNum r)).idx < 0x2C00 := by
    rcases hq with rfl | rfl | rfl <;> cases r <;> decide
  have hwrite : x.blk.applyWrite p (q.onRadio (radioNum r)) k v =
      x.blk.writeRadio (q.onRadio (radioNum r)) (radioNum r) k v := by
    unfold Block.applyWrite
    rw [if_neg (by omega), if_neg (by omega), if_neg (by omega), if_pos hpage.2, hradio]
  rw [← hwrite]
  exact x.anyWrite_of_block p v k ⟨by omega, by omega, by omega, by omega⟩

/-- A command that writes an object of a radio through the commit point is one write of it. -/
theorem writes_onRadio {c : Instr} {s : State} {t : Nat} {p : Port} {q : Reg}
    (hq : q = Obj.tuneFreq ∨ q = Obj.tuneBw ∨ q = Obj.testMode) (r : Radio) {v : Nat} {f : Block → Reg → Nat → Nat × Block}
    (he : exec c s = s.atAll t fun x => x.portWrite p (q.of r).idx (q.of r).sub noRow q.size v .plain)
    (hf : ∀ (w : Block) (k : Nat), w.writeRadio (q.onRadio (radioNum r)) (radioNum r) k v = f w (q.onRadio (radioNum r)) k) :
    Writes c s t p (q.of r).idx (q.of r).sub noRow q.size v f := by
  refine .of_object (q.onRadio (radioNum r)) he ?_ (by simp) (fun b => b.find_onRadio hq r) fun x k => ?_
  · rcases hq with rfl | rfl | rfl <;> cases r <;> decide
  · rw [x.actWrite_onRadio p hq r v k, hf]

theorem State.set_onRadio (x : State) (p : Port) {q : Reg}
    (hq : q = Obj.tuneFreq ∨ q = Obj.tuneBw ∨ q = Obj.testMode) (r : Radio) (v : Nat) :
    x.set p (q.of r).idx (q.of r).sub noRow v = x.portWrite p (q.of r).idx (q.of r).sub noRow q.size v .plain := by
  have hsize : x.blk.sizeAt (q.of r).idx (q.of r).sub = q.size := by
    unfold Block.sizeAt; rw [x.blk.find_onRadio hq r]; rfl
  unfold State.set; rw [hsize]

theorem writes_tune {q : Reg} (hq : q = Obj.tuneFreq ∨ q = Obj.tuneBw) (s : State) (t : Nat) (p : Port) (r : Radio) (v : Nat) :
    Writes (.tuneWrite t p r q.sub v) s t p (q.of r).idx (q.of r).sub noRow q.size v fun w _ _ => w.writeTune q r v := by
  have hq3 : q = Obj.tuneFreq ∨ q = Obj.tuneBw ∨ q = Obj.testMode := hq.imp_right .inl
  refine writes_onRadio hq3 r ?_ fun w k => ?_
  · have hset (x : State) := x.set_onRadio p hq3 r v
    refine Eq.trans ?_ (congrArg (s.atAll t) (funext hset))
    rcases hq with rfl | rfl <;> rfl
  · have hidx : (q.onRadio (radioNum r)).idx - 0x400 * radioNum r = 0x2000 := by
      rcases hq with rfl | rfl <;> cases r <;> rfl
    unfold Block.writeRadio
    rw [hidx, radioAt_radioNum]
    rcases hq with rfl | rfl <;> rfl

/-! ### The statement -/

/-- Settles O43: each command by its operation in the case that the statement names, a write of a tune by the request
that it makes. -/
theorem frontEndsTuneCalibrateAndBlank : Obligations.FrontEndsTuneCalibrateAndBlank := by
  unfold Obligations.FrontEndsTuneCalibrateAndBlank
  refine ⟨fun s t r hf => ?_, fun s t p r v => ⟨writes_tune (.inl rfl) s t p r v, writes_tune (.inr rfl) s t p r v⟩⟩
  intro b u st settling
  refine ⟨fun h hdue => .of_at rfl hf (Block.synthLock_locks h hdue), fun h => .of_at rfl hf (Block.synthLock_of_not h),
    ⟨fun h => .of_at rfl hf (Block.lockTimeout_of_not h), fun h hlate hnot => .of_at rfl hf ?timeout,
      fun h hlate hwaits hown hn => .of_at rfl hf (Block.lockTimeout_ends h hlate hwaits hown hn)⟩,
    fun h => .of_at rfl hf (Block.lockLost_of_not h), fun hon hst => .of_at rfl hf (Block.lockLost_tunes hon hst),
    fun h => .of_at rfl hf (Block.tuneStart_of_not h),
    fun hon hdue hppdu hseg hn => .of_at rfl hf (Block.tuneStart_tunes hon hdue hppdu hseg hn),
    fun kind chain ahead => ⟨fun h => .of_at rfl hf (Block.calStart_of_not h),
      fun h => .of_at rfl hf (Block.calStart_of_able h)⟩,
    fun last h => .of_at rfl hf (Block.calEnd_of_none h last),
    fun last sg h => ⟨fun ha => .of_at rfl hf (Block.calEnd_of_abandoned h ha last), fun ha => .of_at rfl hf ?counted⟩,
    fun kind => ⟨fun hs hnew => .of_at rfl hf (Block.calStarve_of_starved hs hnew),
      fun h => .of_at rfl hf (Block.calStarve_of_not h)⟩,
    fun kind => ?period, fun mv => .of_at rfl hf (Block.paSupply_eq _ r mv), fun input level => ?coex,
    fun source => ⟨fun h => .of_at rfl hf (Block.blankOff_of_over h), fun h => .of_at rfl hf (Block.blankOff_of_not h)⟩⟩
  case timeout => rw [Block.lockTimeout_of_late h hlate, if_neg (by simpa using hnot)]
  case counted =>
    have hkey (q : Reg) (hq : q = Obj.calSegments ∨ q = Obj.calForced) :
        (q.of r).key 0 ≠ (Obj.calStatus.of r).key 0 := by rcases hq with rfl | rfl <;> cases r <;> decide
    obtain ⟨hsegments, hforced⟩ := b.get_segmentCounted r sg
    refine ⟨Block.calEnd_seg h ha last, ?_, fun hf => ?_, fun hlast => ?_⟩
    · rw [Block.get_calEnd h ha last (hkey _ (.inl rfl))]; exact hsegments
    · rw [Block.get_calEnd h ha last (hkey _ (.inr rfl))]; exact hforced hf
    · subst hlast
      obtain ⟨hstatus, -, hdue, hout⟩ := Block.calEnd_last h ha
      exact ⟨hstatus, hdue, hout⟩
  case period =>
    exact ⟨fun h => .of_at rfl hf (Block.calPeriod_time_of_not h), fun h => .of_at rfl hf (Block.calPeriod_step_of_not h),
      fun hon hper hold => .of_at rfl hf (Block.calPeriod_time_of_old hon hper hold),
      fun hon htemp hmoved => .of_at rfl hf (Block.calPeriod_step_of_moved hon htemp hmoved)⟩
  case coex =>
    exact ⟨fun hactive hnew => .of_at rfl hf (Block.coexIn_blanks hactive hnew),
      fun hactive hold => .of_at rfl hf (Block.coexIn_stays hactive hold),
      fun hidle => .of_at rfl hf (Block.coexIn_releases hidle)⟩

end Sys2Proof.Machine
end

section
/-!
SUPPORT. The region's commit and its flip (R161): what a write of REGION_COMMIT leaves, refused or begun, and what the
flip makes of the image that waited.
-/

namespace Sys2Proof.Machine

variable {b : Block} {r : Radio}

/-! ### A command that changes the block alone -/

/-- What a command leaves of the block, said of it. -/
theorem Takes.of_eq {c : Instr} {s : State} {y : Block} {P : Block → Prop} (h : Takes c s fun x => x = y) (hP : P y) :
    Takes c s P := by
  obtain ⟨u, he, hpending, hregs, hmem, hblk⟩ := h
  exact ⟨u, he, hpending, hregs, hmem, hblk ▸ hP⟩

/-! ### The write of REGION_COMMIT (R161 steps 1 to 3) -/

theorem Block.noCommit_of_idle (h : b.pointIdle = true) : b.region.commit = none := by
  simp only [Block.pointIdle, Bool.and_eq_true, Option.isNone_iff_eq_none] at h
  exact h.2

section
variable {num crc : Nat} (hnone : b.region.commit = none)
include hnone

theorem Block.regionCommit_of_bad (h : crc ≠ b.stageCrc ∨ b.stagedRegion.edgesOk = false) :
    b.regionCommit num crc = (some 6, b) := by
  have hbad : (crc ≠ b.stagedRegion.crc || !b.stagedRegion.edgesOk) = true := by
    simpa [show b.stagedRegion.crc = b.stageCrc from rfl] using h
  unfold Block.regionCommit
  rw [hnone]
  exact if_pos hbad

/-- The image staged, committed: it waits for the flip, and the region in force stays. -/
theorem Block.regionCommit_of_good (hcrc : crc = b.stageCrc) (hedges : b.stagedRegion.edgesOk = true) :
    (b.regionCommit num crc).1 = none ∧ (b.regionCommit num crc).2.region =
        { b.region with commit := some { image := b.stagedRegion }, pendingNew := some crc } ∧
      (b.regionCommit num crc).2.get Obj.regionState = b.get Obj.regionState ∧
      (b.regionCommit num crc).2.radios = b.radios := by
  have hgood : ¬ (crc ≠ b.stagedRegion.crc || !b.stagedRegion.edgesOk) = true := by
    simpa [show b.stagedRegion.crc = b.stageCrc from rfl, hedges] using hcrc
  unfold Block.regionCommit
  rw [hnone]
  simp only [Option.isSome_none, Bool.false_eq_true, if_false, if_neg hgood]
  refine ⟨trivial, ?_, Block.get_post _ _ _ _ _ _ _, Block.post_radios _ _ _ _ _⟩
  rw [Block.post_region, hcrc]
  rfl

end

section
variable {s : State} {p : Port} {crc : Nat}

/-- A write of REGION_COMMIT that begins no commit is done and answered as any other. -/
theorem State.takeWrite_of_none {idx sub row len v : Nat} {act : Act}
    (h : s.blk.beginCommit p idx sub row len v = none) : s.takeWrite p idx sub row len v act =
      (let d := s.writeVia p idx sub row len v act
       { d.2 with blk := d.2.blk.answer p act d.1 0 }) := by
  simp [State.takeWrite, h]

theorem State.portWrite_of_idle {idx sub row len v : Nat} {act : Act} (ho : s.blk.portOpen p = true)
    (hi : s.blk.pointIdle = true) : s.portWrite p idx sub row len v act = s.takeWrite p idx sub row len v act := by
  simp [State.portWrite, ho, hi]

theorem State.commit_of_refused {e : Nat} (h : s.blk.checkWrite p 0x2C00 6 noRow 4 crc = .error e) :
    s.takeWrite p 0x2C00 6 noRow 4 crc .plain = { s with blk := s.blk.answered p 0x2C00 6 noRow e 0 } := by
  have hnone : s.blk.beginCommit p 0x2C00 6 noRow 4 crc = none := by simp [Block.beginCommit, h]
  rw [State.takeWrite_of_none hnone, State.writeVia_of_refused h]
  rfl

variable {k : Nat} {q : Reg} (h : s.blk.checkWrite p 0x2C00 6 noRow 4 crc = .ok (q, k))
include h

theorem State.commit_of_bad (hnone : s.blk.region.commit = none)
    (hbad : crc ≠ s.blk.stageCrc ∨ s.blk.stagedRegion.edgesOk = false) :
    s.takeWrite p 0x2C00 6 noRow 4 crc .plain = { s with blk := s.blk.answered p 0x2C00 6 noRow 6 0 } := by
  obtain ⟨hfind, -⟩ := Block.checkWrite_ok h
  obtain rfl : Obj.regionCommit = q := Except.ok.inj ((rfl : s.blk.find 0x2C00 6 = .ok Obj.regionCommit).symm.trans hfind)
  have hcommit := Block.regionCommit_of_bad (num := portNum p) hnone hbad
  have hbegin : s.blk.beginCommit p 0x2C00 6 noRow 4 crc = none := by simp [Block.beginCommit, h, hcommit]
  have hact : s.actWrite p crc .plain Obj.regionCommit k = (6, s) := by
    have hlift : s.actWrite p crc .plain Obj.regionCommit k = s.lift (s.blk.commitAndFlip p crc) := rfl
    rw [hlift, Block.commitAndFlip, hcommit]
    rfl
  rw [State.takeWrite_of_none hbegin, State.writeVia_of_passed h, hact]
  rfl

theorem State.commit_of_good (hnone : s.blk.region.commit = none) (hcrc : crc = s.blk.stageCrc)
    (hedges : s.blk.stagedRegion.edgesOk = true) : s.takeWrite p 0x2C00 6 noRow 4 crc .plain =
      { s with
        blk := (s.blk.regionCommit (portNum p) crc).2.hold (s.blk.waitOf p (.write 0x2C00 6 noRow 4 crc .plain)) } := by
  have hfirst := (Block.regionCommit_of_good (num := portNum p) hnone hcrc hedges).1
  have hbegin : s.blk.beginCommit p 0x2C00 6 noRow 4 crc = some (s.blk.regionCommit (portNum p) crc).2 := by
    unfold Block.beginCommit
    rw [if_pos (by decide), h]
    dsimp only
    split
    · next hc => rw [hc]
    · next hc => rw [hc] at hfirst; cases hfirst
  unfold State.takeWrite
  rw [hbegin]

end

/-! ### The flip (R161 step 4) -/

theorem Block.regionFlip_of_none (h : b.region.commit = none) : b.regionFlip = b := by
  unfold Block.regionFlip; rw [h]

/-- Whether a radio is on is told by the mode and three objects. -/
theorem Block.radioOn_congr {c : Block} (hmode : c.mode = b.mode)
    (hget : ∀ q ∈ [Obj.maintBase, Obj.bootState, Obj.fabricFenced], c.get q = b.get q) (r : Radio) :
    c.radioOn r = b.radioOn r := by
  have hmaint := hget Obj.maintBase (by simp)
  have hboot := hget Obj.bootState (by simp)
  have hfenced := hget Obj.fabricFenced (by simp)
  cases r <;> simp [Block.radioOn, Block.domainOn, radioNum, Block.baseMode, Block.recovery, Block.radioFenced, hmode,
    hmaint, hboot, hfenced]

/-- Every radio that is on is to load its shadow from now on. -/
def Block.loadsDue (b : Block) (now : Nat) (l : List Radio) : Block :=
  l.foldl (fun d r => if d.radioOn r then d.modRadio r fun u => { u with loadDue := some now } else d) b

theorem Block.loadsDue_keeps (b : Block) (now : Nat) (l : List Radio) :
    (b.loadsDue now l).region = b.region ∧ (b.loadsDue now l).regs = b.regs := by
  refine ⟨Block.foldl_same (g := Block.region) (fun d r => ?_) l b, Block.foldl_same (g := Block.regs) (fun d r => ?_) l b⟩ <;>
    split <;> rfl

theorem Block.loadsDue_kept {now : Nat} (r : Radio) (l : List Radio) : ∀ {b : Block}, b.radios.length = 3 →
    (b.radio r).loadDue = some now → ((b.loadsDue now l).radio r).loadDue = some now := by
  induction l with
  | nil => exact fun _ h => h
  | cons q rest ih =>
    intro b hn h
    unfold Block.loadsDue
    rw [List.foldl_cons]
    split
    · refine ih ((Block.modRadio_radios_length _ _ _).trans hn) ?_
      rcases b.radio_modRadio_cases q r fun u => { u with loadDue := some now } with hr | hr <;> rw [hr]
      exact h
    · exact ih hn h

theorem Block.loadsDue_of_on {now : Nat} {r : Radio} {l : List Radio} (hr : r ∈ l) : ∀ {b : Block},
    b.radios.length = 3 → b.radioOn r = true → ((b.loadsDue now l).radio r).loadDue = some now := by
  induction l with
  | nil => cases hr
  | cons q rest ih =>
    intro b hn hon
    unfold Block.loadsDue
    rw [List.foldl_cons]
    by_cases hq : r = q
    · subst hq
      rw [if_pos hon]
      exact Block.loadsDue_kept r rest ((Block.modRadio_radios_length _ _ _).trans hn)
        (by rw [Block.radio_modRadio_same hn])
    · have hrest := List.mem_of_ne_of_mem hq hr
      split
      · exact ih hrest ((Block.modRadio_radios_length _ _ _).trans hn) hon
      · exact ih hrest hn hon

/-- The half of the partition that the flip makes active, its words written. -/
def Block.halfWritten (b : Block) : Block :=
  let half := 0x200C0000 + 0x2000 * (b.get Obj.regionChanges % 2)
  { b with regs := { b.regs with slots := b.regs.slots.mend half 0x2000 } }.mramWrote
    (Config.mramWords 2 + Config.mramWords 3)

theorem Block.get_halfWritten (b : Block) (q : Reg) (k : Nat) : b.halfWritten.get q k = b.get q k := by
  simp only [Block.halfWritten, Block.mramWrote, Block.get, RegFile.get, RegFile.slotBad, RegFile.sel_slots, Slots.mend]
  rfl

/-- The objects of the region show the image that is active, and the change is counted. -/
def Block.imageShown (b : Block) (g : Region) : Block :=
  ((((b.put Obj.regionState 1).put Obj.regionCode g.code).put Obj.regionVersion g.version).put Obj.regionCrc g.crc).add
    Obj.regionChanges

/-- The partition with its marker flipped to an image. -/
def Block.markerFlipped (b : Block) (g : Region) : Block :=
  { b with region := { b.region with active := some g, commit := none, pendingNew := none, loads := true } }

theorem Block.regionFlip_of_some {c : Commit} (h : b.region.commit = some c) :
    b.regionFlip =
      (let b2 := (b.markerFlipped c.image).halfWritten.imageShown c.image
       ((b2.post 0x0031 (bytesLE 4 c.image.crc ++ bytesLE 4 (b2.get Obj.regionChanges))).loadsDue b.now radios3).loadsSettle) := by
  unfold Block.regionFlip; rw [h]; rfl

theorem Block.get_imageShown (b : Block) (g : Region) : (b.imageShown g).get Obj.regionState = 1 ∧
    (b.imageShown g).get Obj.regionCode = g.code ∧ (b.imageShown g).get Obj.regionVersion = g.version ∧
    (b.imageShown g).get Obj.regionCrc = g.crc ∧
    (b.imageShown g).get Obj.regionChanges = Obj.regionChanges.raised (b.get Obj.regionChanges + 1) := by
  have apart {q x : Reg} {c : Block} {v : Nat} (h : q.key 0 ≠ x.key 0) : (c.put x v).get q = c.get q := Block.get_put_ne _ _ h
  unfold Block.imageShown
  refine ⟨?_, ?_, ?_, ?_, ?_⟩
  · exact (apart (by decide)).trans ((apart (by decide)).trans ((apart (by decide)).trans ((apart (by decide)).trans
      (Block.get_put_same _ _ _ _))))
  · exact (apart (by decide)).trans ((apart (by decide)).trans ((apart (by decide)).trans (Block.get_put_same _ _ _ _)))
  · exact (apart (by decide)).trans ((apart (by decide)).trans (Block.get_put_same _ _ _ _))
  · exact (apart (by decide)).trans (Block.get_put_same _ _ _ _)
  · rw [Block.get_add_same]
    refine congrArg (fun n => Obj.regionChanges.raised (n + 1)) ?_
    exact (apart (by decide)).trans ((apart (by decide)).trans ((apart (by decide)).trans (apart (by decide))))

/-- The image's objects lie above those that tell whether a radio is on. -/
theorem Block.get_imageShown_below (b : Block) (g : Region) {q : Reg} (h : q.idx * 256 + q.sub < wallCode) :
    (b.imageShown g).get q = b.get q := by
  have apart {x : Reg} {c : Block} {v : Nat} (hx : wallCode ≤ x.idx * 256 + x.sub) : (c.put x v).get q = c.get q :=
    Block.get_put_ne _ _ (Reg.key_ne_same_row 0 (by omega))
  exact (apart (by decide)).trans ((apart (by decide)).trans ((apart (by decide)).trans ((apart (by decide)).trans
    (apart (by decide)))))

theorem Block.loadsSettle_get (b : Block) (q : Reg) (k : Nat) : b.loadsSettle.get q k = b.get q k := rfl

theorem Block.loadsSettle_radio (b : Block) (r : Radio) : b.loadsSettle.radio r = b.radio r := rfl

theorem Block.loadsSettle_region (b : Block) : b.loadsSettle.region.active = b.region.active ∧
    b.loadsSettle.region.commit = b.region.commit ∧ b.loadsSettle.region.pendingNew = b.region.pendingNew :=
  ⟨rfl, rfl, rfl⟩

/-- The flip makes the image active, shows and counts it, and makes the load of every radio that is on due. -/
theorem Block.regionFlip_flips {c : Commit} (h : b.region.commit = some c) :
    b.regionFlip.region.active = some c.image ∧ b.regionFlip.region.commit = none ∧ b.regionFlip.region.pendingNew = none ∧
      b.regionFlip.get Obj.regionCode = c.image.code ∧ b.regionFlip.get Obj.regionVersion = c.image.version ∧
      b.regionFlip.get Obj.regionCrc = c.image.crc ∧ b.regionFlip.get Obj.regionState = 1 ∧
      b.regionFlip.get Obj.regionChanges = Obj.regionChanges.raised (b.get Obj.regionChanges + 1) ∧
      ∀ r : Radio, b.radioOn r = true → b.radios.length = 3 → (b.regionFlip.radio r).loadDue = some b.now := by
  rw [Block.regionFlip_of_some h]
  dsimp only
  generalize hb1 : (b.markerFlipped c.image).halfWritten = b1
  have hget1 (q : Reg) : b1.get q = b.get q := by rw [← hb1, Block.get_halfWritten]; rfl
  obtain ⟨hstate, hcode, hversion, hcrc, hchanges⟩ := b1.get_imageShown c.image
  generalize hb3 : (b1.imageShown c.image).post 0x0031
    (bytesLE 4 c.image.crc ++ bytesLE 4 ((b1.imageShown c.image).get Obj.regionChanges)) = b3
  have hget3 (q : Reg) : b3.get q = (b1.imageShown c.image).get q := by rw [← hb3, Block.get_post]
  have hregion3 : b3.region = (b.markerFlipped c.image).region := by rw [← hb3, Block.post_region, ← hb1]; rfl
  have hmode3 : b3.mode = b.mode := by rw [← hb3, Block.post_mode, ← hb1]; rfl
  have hradios3 : b3.radios = b.radios := by rw [← hb3, Block.post_radios, ← hb1]; rfl
  obtain ⟨hregion, hregs⟩ := b3.loadsDue_keeps b.now radios3
  have hget (q : Reg) : (b3.loadsDue b.now radios3).loadsSettle.get q = (b1.imageShown c.image).get q := by
    rw [Block.loadsSettle_get, ← hget3]; unfold Block.get; rw [hregs]
  obtain ⟨hactive, hcommit, hnew⟩ := (b3.loadsDue b.now radios3).loadsSettle_region
  rw [hregion, hregion3] at hactive hcommit hnew
  refine ⟨hactive, hcommit, hnew, (hget _).trans hcode, (hget _).trans hversion, (hget _).trans hcrc,
    (hget _).trans hstate, (hget _).trans (by rw [hchanges, hget1]), fun r hon hn => ?_⟩
  rw [Block.loadsSettle_radio]
  refine Block.loadsDue_of_on (b := b3) (by cases r <;> simp [radios3]) (hradios3 ▸ hn) ?_
  rw [← hon]
  refine Block.radioOn_congr hmode3 (fun q hq => ?_) r
  rw [hget3, Block.get_imageShown_below _ _ (by revert q; decide), hget1]

end Sys2Proof.Machine
end

section
/-!
SUPPORT. The shadows of the region (R160, R161): their loads at a PPDU boundary and the check of their CRC.
-/

namespace Sys2Proof.Machine

variable {b : Block} {r : Radio} {crc : Nat}

/-! ### The faults of the active half (R160) -/

theorem Works.regionState {b c : Block} (h : Works b c) : c.get Obj.regionState = b.get Obj.regionState :=
  h.get _ (by simp [walledRegs])

/-- A fault of the region shows in its state. -/
theorem Block.regionState_regionFault (b : Block) (crc : Nat) : (b.regionFault crc).get Obj.regionState = 2 := by
  unfold Block.regionFault
  split
  · next h => exact h
  · have hstops (c : Block) : Works c (radios3.foldl (fun d r => d.stopTest r 5) c) :=
      .foldl (fun d r => .stopTest d r 5) _ _
    exact (hstops _).regionState.trans ((Block.get_post _ _ _ _ _ _ _).trans (Block.get_put_same _ _ _ _))

/-! ### A load (R160, R161 step 5) -/

/-- The radio holds the active image, and its load is done. -/
def Block.shadowLoaded (b : Block) (r : Radio) : Block :=
  (b.modRadio r fun u => { u with shadow := b.region.active, loadDue := none }).loadsSettle

theorem Block.loadShadow_of_good (h : b.halfBad = false) : b.loadShadow r true crc = b.shadowLoaded r := by
  simp [Block.loadShadow, Block.shadowLoaded, h]

theorem Block.regionState_loadShadow_bad (b : Block) (r : Radio) (crc : Nat) :
    (b.loadShadow r false crc).get Obj.regionState = 2 := Block.regionState_regionFault _ crc

theorem Block.radio_shadowLoaded (hn : b.radios.length = 3) (r : Radio) :
    (b.shadowLoaded r).radio r = { b.radio r with shadow := b.region.active, loadDue := none } :=
  Block.radio_modRadio_same hn r _

/-- What follows a load, a check of the channel's availability and a remelt, leaves the radios and the state of the
region. -/
theorem Block.remeltBarred_keeps (b : Block) (r q : Radio) : (b.remeltBarred r).radio q = b.radio q ∧
    (b.remeltBarred r).get Obj.regionState = b.get Obj.regionState := by
  unfold Block.remeltBarred
  split
  · exact ⟨Block.remelt_radio _ _ _ _, (Works.remelt _ _ _).regionState⟩
  · exact ⟨rfl, rfl⟩

theorem Block.startCac_radio (b : Block) (q : Radio) : b.startCac.radio q = b.radio q := rfl

theorem Block.startCac_get (b : Block) (q : Reg) (k : Nat) : b.startCac.get q k = b.get q k := rfl

theorem Block.shadowLoad_of_not {ok : Bool}
    (h : b.radioOn r = false ∨ (b.radio r).loadDue = none ∨ (b.radio r).inPpdu = true) : b.shadowLoad r ok crc = b := by
  refine if_neg fun hp => ?_
  simp only [Bool.and_eq_true, Bool.not_eq_true'] at hp
  obtain ⟨⟨hon, hdue⟩, hppdu⟩ := hp
  rcases h with h | h | h <;> simp_all

/-- An edge at a PPDU boundary whose load is due loads its shadow. -/
theorem Block.shadowLoad_loads {ok : Bool} (hon : b.radioOn r = true) (hdue : (b.radio r).loadDue ≠ none)
    (hppdu : (b.radio r).inPpdu = false) :
    (b.shadowLoad r ok crc).radio r = (b.loadShadow r ok crc).radio r ∧
      (b.shadowLoad r ok crc).get Obj.regionState = (b.loadShadow r ok crc).get Obj.regionState := by
  have hp : (b.radioOn r && (b.radio r).loadDue.isSome && !(b.radio r).inPpdu) = true := by
    simpa [hon, hppdu, Option.isSome_iff_ne_none] using hdue
  unfold Block.shadowLoad
  extract_lets u b1 b2
  rw [if_pos hp]
  obtain ⟨hradio, hstate⟩ := b2.remeltBarred_keeps r r
  rw [hradio, hstate]
  unfold b2
  split
  · exact ⟨b1.startCac_radio r, b1.startCac_get _ _⟩
  · exact ⟨rfl, rfl⟩

/-! ### The check of a shadow (R160) -/

theorem Block.shadowCheck_of_not {ok ok1 : Bool} (h : b.radioOn r = false ∨ b.get Obj.regionState = 0) :
    b.shadowCheck r ok ok1 crc = b := by
  refine if_pos ?_
  simpa using h

section
variable (hon : b.radioOn r = true) (hstate : b.get Obj.regionState ≠ 0)
include hon hstate

theorem Block.shadowCheck_of_fault {ok : Bool} : b.shadowCheck r ok false crc = b.regionFault crc := by
  simp [Block.shadowCheck, hon, hstate]

/-- A bad shadow is loaded again from an active half that is good. -/
theorem Block.shadowCheck_of_bad (hhalf : b.halfBad = false) : b.shadowCheck r false true crc = b.shadowLoaded r := by
  simp [Block.shadowCheck, hon, hstate, hhalf, Block.loadShadow_of_good]

end

theorem Block.shadowCheck_of_good (hhalf : b.halfBad = false) : b.shadowCheck r true true crc = b := by
  simp [Block.shadowCheck, hhalf]

/-! ### A radar detection (R164) -/

theorem Block.radar_of_not {mask : Nat} (h : b.radioOn .h = false ∨ b.radarOn = false) : b.radar mask = b := by
  refine if_pos ?_
  simpa using h

/-- Many rows put at one value: each of them reads it, every other as before. -/
theorem assocGet_foldl_assocPut {l : List (Nat × Nat)} (v i : Nat) (subs : List Nat) :
    assocGet (subs.foldl (fun m j => assocPut m j v) l) i = if i ∈ subs then some v else assocGet l i := by
  induction subs generalizing l with
  | nil => simp
  | cons j rest ih =>
    rw [List.foldl_cons, ih]
    by_cases hrest : i ∈ rest
    · simp [hrest]
    · by_cases hj : i = j
      · subst hj; simp [hrest, assocGet_put_same]
      · simp [hrest, hj, assocGet_put_ne]

/-- Subchannels are barred for NOP_TIME, whatever becomes of a check under way. -/
theorem Block.barSubs_bars {g : Region} (h : (b.radio .h).shadow = some g) (subs : List Nat) :
    (b.barSubs subs).region.barred = subs.foldl (fun l i => assocPut l i (b.rtcSec + g.nop)) b.region.barred ∧
      (b.barSubs subs).regs = b.regs ∧ (b.barSubs subs).frames = b.frames := by
  unfold Block.barSubs
  extract_lets u end_ b1
  have hend : end_ = b.rtcSec + g.nop := by unfold end_ u; rw [h]
  rw [← hend]
  split <;> exact ⟨rfl, rfl, rfl⟩

theorem Works.radarCut (b : Block) (subs : List Nat) : Works b (b.radarCut subs) := by
  unfold Block.radarCut
  dsimp only
  have hend (c : Block) : Works c ((c.txStatus .h 2).endCmd .h) := (txStatus c .h 2).trans (endCmd _ .h)
  split
  · exact ite (refl b) (ite (cutPpdu b .h 7) (ite (uncommit b .h) ((uncommit b .h).trans (hend _))))
  · exact ite (hend b) (refl b)
  · exact refl b

/-- A detection counts, bars the subchannels it names for NOP_TIME and no other, and loses no frame. -/
theorem Block.radar_bars {mask : Nat} {g : Region} (hon : b.radioOn .h = true) (hradar : b.radarOn = true)
    (hshadow : (b.radio .h).shadow = some g) :
    (b.radar mask).get (Obj.radarEvents.of .h) =
        (Obj.radarEvents.of .h).raised (b.get (Obj.radarEvents.of .h) + 1) ∧
      (∀ i < 99, mask.testBit i = true → assocGet (b.radar mask).region.barred i = some (b.rtcSec + g.nop)) ∧
      (∀ i, mask.testBit i = false → assocGet (b.radar mask).region.barred i = assocGet b.region.barred i) ∧
      Claims.sameFrames b (b.radar mask) := by
  have heq : b.radar mask = ((b.add (Obj.radarEvents.of .h)).barSubs ((List.range 99).filter (bitSet mask))).radarCut
      ((List.range 99).filter (bitSet mask)) := if_neg (by simp [hon, hradar])
  rw [heq]
  generalize hsubs : (List.range 99).filter (bitSet mask) = subs
  have hmem (i : Nat) : i ∈ subs ↔ i < 99 ∧ mask.testBit i = true := by simp [← hsubs, bitSet]
  obtain ⟨hregion, hframes, hget⟩ := Works.radarCut ((b.add (Obj.radarEvents.of .h)).barSubs subs) subs
  obtain ⟨hbarred, hregs, hheld⟩ := Block.barSubs_bars (b := b.add (Obj.radarEvents.of .h)) hshadow subs
  have hassoc (i : Nat) : assocGet (((b.add (Obj.radarEvents.of .h)).barSubs subs).radarCut subs).region.barred i =
      if i ∈ subs then some (b.rtcSec + g.nop) else assocGet b.region.barred i := by
    rw [hregion, hbarred]
    exact assocGet_foldl_assocPut _ i subs
  refine ⟨?_, fun i hi hbit => ?_, fun i hbit => ?_, ?_⟩
  · rw [hget _ (by simp [walledRegs]), Block.get, hregs]
    exact Block.get_add_same _ _ _ _
  · rw [hassoc, if_pos ((hmem i).mpr ⟨hi, hbit⟩)]
  · rw [hassoc, if_neg fun h => by simp [((hmem i).mp h).2] at hbit]
  · unfold Claims.sameFrames at hframes ⊢
    rw [hframes, hheld]; rfl

/-! ### The availability check and the end of a bar (R164) -/

theorem Block.cacEnd_of_not (h : b.radioOn .h = false ∨ b.region.cacFrom = none) : b.cacEnd = b := by
  unfold Block.cacEnd
  rcases h with h | h
  · dsimp only; split <;> simp [h]
  · rw [h]

section
variable {d : Nat} {g : Region} (hfrom : b.region.cacFrom = some d) (hshadow : (b.radio .h).shadow = some g)
include hfrom hshadow

theorem Block.cacEnd_of_late (hon : b.radioOn .h = true) (h : d + secs g.cac ≤ b.now) :
    b.cacEnd = { b with region := { b.region with cacFrom := none, cacDone := true } } := by
  simp [Block.cacEnd, hfrom, hshadow, hon, h]

theorem Block.cacEnd_of_early (h : b.now < d + secs g.cac) : b.cacEnd = b := by
  simp [Block.cacEnd, hfrom, hshadow, Nat.not_le.mpr h]

end

theorem Block.nopEnd_of_not {sub : Nat} (h : ∀ e, assocGet b.region.barred sub = some e → b.rtcSec < e) :
    b.nopEnd sub = b := by
  refine if_neg fun hp => ?_
  obtain ⟨e, he, hle⟩ : ∃ e, assocGet b.region.barred sub = some e ∧ e ≤ b.rtcSec := by
    simpa [Option.any_eq_true] using hp
  exact absurd (h e he) (Nat.not_lt.mpr hle)

/-- The bar of a subchannel ends with NOP_TIME. -/
theorem Block.nopEnd_of_late {sub e : Nat} (h : assocGet b.region.barred sub = some e) (hle : e ≤ b.rtcSec) :
    (b.nopEnd sub).region.barred = assocDel b.region.barred sub ∧
      assocGet (b.nopEnd sub).region.barred sub = none ∧ (b.nopEnd sub).frames = b.frames := by
  have hends : (b.nopEnd sub).region.barred = assocDel b.region.barred sub ∧ (b.nopEnd sub).frames = b.frames := by
    unfold Block.nopEnd
    rw [if_pos (by simpa [h] using hle)]
    dsimp only
    split <;> exact ⟨rfl, rfl⟩
  obtain ⟨hbarred, hframes⟩ := hends
  exact ⟨hbarred, hbarred ▸ assocGet_del_same _ _, hframes⟩

end Sys2Proof.Machine
end

section
/-!
SUPPORT. Writes of the region (R162) and of TEST_MODE (R165), and the statement on the region.
-/

namespace Sys2Proof.Machine

/-! ### A write of REGION_CLEAR (R162) -/

section
variable {b : Block}

theorem Block.regionClear_of_busy (h : b.region.commit ≠ none ∨ b.region.loads = true) : b.regionClear = (9, b) := by
  refine if_pos ?_
  simpa [Option.isSome_iff_ne_none] using h

theorem Block.unstageLimit_region (b : Block) (i : Nat) (row : LimitRow) : (b.unstageLimit i row).region = b.region := by
  unfold Block.unstageLimit; extract_lets b1
  refine (Block.foldl_same (g := Block.region) (fun c k => ?_) _ b1).trans ?_ <;> rfl

/-- The committed image returns to the staging tables, and the region stays. -/
theorem Block.regionClear_restores {g : Region} (hcommit : b.region.commit = none) (hloads : b.region.loads = false)
    (hactive : b.region.active = some g) : b.regionClear.1 = 0 ∧ b.regionClear.2.get Obj.cacTime = g.cac ∧
      b.regionClear.2.get Obj.stageCode = g.code ∧ b.regionClear.2.region = b.region := by
  unfold Block.regionClear
  rw [if_neg (by simp [hcommit, hloads])]
  split
  · next hnone => rw [hnone] at hactive; cases hactive
  next g' hg =>
  obtain rfl : g' = g := Option.some.inj (hg.symm.trans hactive)
  extract_lets b1 b2 b3
  have hregion : b3.region = b.region := by
    refine (Block.foldl_same (g := Block.region) (fun c x => ?_) _ b2).trans
      ((Block.foldl_same (g := Block.region) (fun c x => ?_) _ b1).trans
        (Block.foldl_same (g := Block.region) (fun c x => ?_) _ b))
    · rfl
    · rfl
    · exact c.unstageLimit_region x.2 x.1
  clear_value b3
  have apart {q x : Reg} {c : Block} {v : Nat} (h : q.key 0 ≠ x.key 0) : (c.put x v).get q = c.get q := Block.get_put_ne _ _ h
  refine ⟨rfl, ?_, ?_, hregion⟩
  · exact (apart (by decide)).trans ((apart (by decide)).trans ((apart (by decide)).trans ((apart (by decide)).trans
      (Block.get_put_same _ _ _ _))))
  · exact (apart (by decide)).trans (Block.get_put_same _ _ _ _)

end

/-! ### A write of TEST_MODE (R165) -/

section
variable {b : Block} {r : Radio} {v : Nat}

theorem Block.takeCmd_regs (b : Block) (r : Radio) (c : TxCmd) (ac : Nat) : (b.takeCmd r c ac).regs = b.regs := by
  unfold Block.takeCmd; extract_lets b1
  have hcontend : (b1.contend r ac).regs = b1.regs := by unfold Block.contend; split <;> rfl
  repeat' split
  · rfl
  · rfl
  · rfl
  · exact hcontend

theorem Block.sendOwn_regs (b : Block) (r : Radio) (c : TxCmd) : (b.sendOwn r c).regs = b.regs := by
  unfold Block.sendOwn; split
  · exact b.takeCmd_regs r c 3
  · rfl

theorem Block.writeTestMode_of_off (h : v = 0 ∨ b.radioOn r = false) :
    (b.writeTestMode r v).2 = (b.stopTest r 0).put (Obj.testMode.of r) v := by
  refine if_pos ?_
  simpa using h

theorem Block.writeTestMode_of_on (hv : v ≠ 0) (hon : b.radioOn r = true) :
    (b.writeTestMode r v).2 = ((b.stopTest r 0).put (Obj.testMode.of r) v).sendOwn r
      (((b.stopTest r 0).put (Obj.testMode.of r) v).testCmd r) := by
  refine if_neg ?_
  simp [hv, hon]

theorem Block.get_writeTestMode (b : Block) (r : Radio) (v : Nat) :
    (b.writeTestMode r v).2.get (Obj.testMode.of r) = v := by
  by_cases h : v = 0 ∨ b.radioOn r = false
  · rw [Block.writeTestMode_of_off h]
    exact Block.get_put_same _ _ _ _
  · rw [not_or, Bool.not_eq_false] at h
    rw [Block.writeTestMode_of_on h.1 h.2, Block.get, Block.sendOwn_regs]
    exact Block.get_put_same _ _ _ _

/-- Without a command there is no test transmission under way to end. -/
theorem Block.stopTest_of_none (h : (b.radio r).cmd = none) (hn : b.radios.length = 3) (status : Nat) :
    b.stopTest r status = b.modRadio r fun u =>
      { u with own := u.own.filter (fun c => c.kind != .test), deferred := u.deferred.filter fun c => c.kind != .test } := by
  unfold Block.stopTest; extract_lets b1
  have hcmd : (b1.radio r).cmd = none := by unfold b1; rw [Block.radio_modRadio_same hn]; exact h
  rw [hcmd]

/-- The test transmission asked for waits at an idle radio. -/
theorem Block.writeTestMode_starts (hv : v ≠ 0) (hon : b.radioOn r = true) (hcmd : (b.radio r).cmd = none)
    (hidle : (b.radio r).phase = .idle) (hn : b.radios.length = 3) :
    ∃ c, ((b.writeTestMode r v).2.radio r).cmd = some c ∧ c.what = .testWave ∧ c.kind = .test ∧
      ((b.writeTestMode r v).2.radio r).phase = .waiting := by
  rw [Block.writeTestMode_of_on hv hon]
  generalize hd : (b.stopTest r 0).put (Obj.testMode.of r) v = d
  have hradios : d.radios = (b.stopTest r 0).radios := by rw [← hd]; rfl
  rw [Block.stopTest_of_none hcmd hn] at hradios
  have hphase : (d.radio r).phase = .idle := by
    unfold Block.radio; rw [hradios]; exact (congrArg RadioUnit.phase (Block.radio_modRadio_same hn r _)).trans hidle
  have hsent := Block.sendOwn_radio (b := d) (r := r)
    (by rw [hradios]; exact (Block.modRadio_radios_length _ _ _).trans hn) (d.testCmd r)
  rw [if_pos hphase] at hsent
  exact ⟨_, hsent.1, rfl, rfl, hsent.2⟩

end

/-! ### The commands -/

theorem writes_regionClear (s : State) (t : Nat) (p : Port) :
    Writes (.regionClear t p) s t p 0x2C00 7 noRow 1 1 fun w _ _ => w.regionClear :=
  .of_object Obj.regionClear rfl (by decide) (by simp) (fun _ => rfl) fun _ _ => rfl

theorem writes_testMode (s : State) (t v : Nat) (p : Port) (r : Radio) :
    Writes (.testModeWrite t p r v) s t p (0x2005 + 0x400 * radioNum r) 1 noRow 1 v fun w _ _ => w.writeTestMode r v := by
  have hq : Obj.testMode = Obj.tuneFreq ∨ Obj.testMode = Obj.tuneBw ∨ Obj.testMode = Obj.testMode := .inr (.inr rfl)
  refine writes_onRadio hq r rfl fun w k => ?_
  have hidx : (Obj.testMode.onRadio (radioNum r)).idx - 0x400 * radioNum r = 0x2005 := by cases r <;> rfl
  unfold Block.writeRadio
  rw [hidx, radioAt_radioNum]
  rfl

/-- A write of REGION_COMMIT that the commit point takes at once. -/
theorem takes_regionCommit {s : State} {t crc : Nat} {p : Port} {y : Block} (hf : s.blk.frozen = false)
    (ho : (s.blk.tick t).portOpen p = true) (hi : (s.blk.tick t).pointIdle = true)
    (h : ({ s with blk := s.blk.tick t } : State).takeWrite p 0x2C00 6 noRow 4 crc .plain = { s with blk := y }) :
    Takes (.regionCommit t p crc) s fun x => x = y :=
  .of_atAll rfl hf ((State.portWrite_of_idle (s := { s with blk := s.blk.tick t }) ho hi).trans h)

/-! ### The statement -/

/-- Settles O44: a commit by what its write leaves at the commit point, refused, behind or begun, and every other
command by its operation in the case that the statement names. -/
theorem regionCommitsAtomicallyAndBarsChannels : Obligations.RegionCommitsAtomicallyAndBarsChannels := by
  unfold Obligations.RegionCommitsAtomicallyAndBarsChannels
  refine ⟨fun s t hf => ?_, fun s t v p r => ⟨writes_regionClear s t p, writes_testMode s t v p r⟩, fun w r v =>
    ⟨Block.regionClear_of_busy, fun g => Block.regionClear_restores, rfl, w.get_writeTestMode r v,
      Block.writeTestMode_of_off, Block.writeTestMode_starts⟩⟩
  intro b
  refine ⟨fun p crc => ⟨?closed, ?busy, fun ho hi => ⟨?refused, fun q k hq => ⟨?bad, ?good⟩⟩⟩,
    fun h => .of_at rfl hf (Block.regionFlip_of_none h), fun c h => .of_at rfl hf (Block.regionFlip_flips h),
    fun r => ⟨fun ok crc h => .of_at rfl hf (Block.shadowLoad_of_not h), ?loads, ?fails, ?fault, ?reload,
      fun crc h => .of_at rfl hf (Block.shadowCheck_of_good h),
      fun ok ok1 crc h => .of_at rfl hf (Block.shadowCheck_of_not h)⟩,
    fun mask h => .of_at rfl hf (Block.radar_of_not h),
    fun mask g hon hradar hshadow => .of_at rfl hf (Block.radar_bars hon hradar hshadow),
    fun d g hon hfrom hshadow => ⟨fun h => .of_at rfl hf (Block.cacEnd_of_late hfrom hshadow hon h),
      fun h => .of_at rfl hf (Block.cacEnd_of_early hfrom hshadow h)⟩,
    fun h => .of_at rfl hf (Block.cacEnd_of_not h), fun sub h => .of_at rfl hf (Block.nopEnd_of_not h),
    fun sub e h hle => .of_at rfl hf (Block.nopEnd_of_late h hle)⟩
  case closed => exact fun h => .of_atAll rfl hf (State.portWrite_of_closed (s := { s with blk := b }) h)
  case busy => exact fun ho hi => .of_atAll rfl hf (State.portWrite_of_busy (s := { s with blk := b }) ho hi)
  case refused => exact fun e he => takes_regionCommit hf ho hi (State.commit_of_refused he)
  case bad =>
    exact fun h => takes_regionCommit hf ho hi (State.commit_of_bad hq (Block.noCommit_of_idle hi) h)
  case good =>
    intro hcrc hedges
    obtain ⟨-, hregion, hstate, hradios⟩ :=
      Block.regionCommit_of_good (num := portNum p) (Block.noCommit_of_idle hi) hcrc hedges
    exact (takes_regionCommit hf ho hi (State.commit_of_good hq (Block.noCommit_of_idle hi) hcrc hedges)).of_eq
      ⟨hregion, hstate, hradios, rfl⟩
  case loads =>
    intro crc hon hdue hppdu hn hhalf
    refine .of_at rfl hf ?_
    obtain ⟨hradio, -⟩ := Block.shadowLoad_loads (ok := true) (crc := crc) hon hdue hppdu
    rw [Block.loadShadow_of_good hhalf, Block.radio_shadowLoaded hn] at hradio
    exact ⟨congrArg RadioUnit.shadow hradio, congrArg RadioUnit.loadDue hradio⟩
  case fails =>
    intro crc hon hdue hppdu
    obtain ⟨-, hstate⟩ := Block.shadowLoad_loads (ok := false) (crc := crc) hon hdue hppdu
    exact .of_at rfl hf (hstate.trans (b.regionState_loadShadow_bad r crc))
  case fault =>
    intro ok crc hon hstate
    refine .of_at rfl hf ?_
    rw [Block.shadowCheck_of_fault hon hstate]
    exact ⟨rfl, b.regionState_regionFault crc⟩
  case reload => exact fun crc hon hstate hhalf => .of_at rfl hf (Block.shadowCheck_of_bad hon hstate hhalf)

end Sys2Proof.Machine
end
